-- ==== Sys2Proof/Word.lean ====
section
/-!
DEFINITION. The word types of the Q64 (R9 to R11: bit 0 is the least significant bit, every structure is
little-endian, registers are 32 bits wide) and the plainest arithmetic on them.
-/

namespace Sys2Proof

/-- A byte. -/
abbrev Byte := BitVec 8
/-- A register, or a word of a structure (R11). -/
abbrev Word := BitVec 32
/-- A 64-bit quantity: the phase (R27), a Zarixon address (R331), a CRC-64 (R311). -/
abbrev DWord := BitVec 64

/-- Bits [hi:lo] of a number (R9). -/
def fieldOf (x hi lo : Nat) : Nat := (x >>> lo) % 2 ^ (hi + 1 - lo)

/-- One bit of a number. -/
def bitOf (x i : Nat) : Bool := x.testBit i

/-- A Bool as a number, for building fields. -/
def bnat (b : Bool) : Nat := if b then 1 else 0

/-- A field of `w` bits read as two's complement. -/
def signedOf (w x : Nat) : Int := if x < 2 ^ (w - 1) then (x : Int) else (x : Int) - 2 ^ w

/-- A two's complement field of `w` bits. -/
def unsignedOf (w : Nat) (x : Int) : Nat := (x % (2 ^ w : Int)).toNat

/-- The number whose little-endian bytes these are (R10). -/
def leNat : List Byte → Nat
  | [] => 0
  | b :: bs => b.toNat + 256 * leNat bs

/-- The `n` little-endian bytes of a number (R10). -/
def leBytes : Nat → Nat → List Byte
  | 0, _ => []
  | n + 1, x => BitVec.ofNat 8 x :: leBytes n (x / 256)

/-- Rounding up a quotient. -/
def ceilDiv (a b : Nat) : Nat := if b = 0 then 0 else (a + b - 1) / b

/-- Rounding up to a multiple. -/
def roundUp (a b : Nat) : Nat := ceilDiv a b * b

end Sys2Proof
end

