-- ==== Sys2Proof/Syntax.lean ====
section
/-!
DEFINITION. The commands of the Q64: one constructor per row of spec/opcode_table.json, in its order. A command is
either a message or register write from outside, a frame of the fabric, a pin or supply event, or an event of one of
the module's own units at the moment it happens.
-/

namespace Sys2Proof

/-- Who sent a control message, and how it came (R379, R382). -/
structure Session where
  /-- through Parlour's management port -/
  parlour : Bool
  /-- the Ethernet port it arrived on, when not through Parlour -/
  port    : Fin 8
  /-- source endpoint number, and whether it is a host number (R332) -/
  src     : Nat
  srcHost : Bool
  /-- QUEUE of the frame (R382) -/
  queue   : Nat
  /-- REQ_ID (Table 13.1) -/
  reqId   : Word
deriving DecidableEq, Repr, Inhabited

/-- Table 12.3, the Zarixon header. Word 6 is `len`; `len1`, `len0` of R334 are read from it. -/
structure Hdr where
  gen      : Nat
  type     : Nat
  cls      : Nat
  nblk     : Nat
  resend   : Bool
  last     : Bool
  queue    : Nat
  src      : Nat
  dst      : Nat
  srcHost  : Bool
  dstHost  : Bool
  seq      : Word
  tag      : Word
  addr     : DWord
  len      : Word
  phaseTag : Word
deriving DecidableEq, Repr, Inhabited

/-- A block as carried: its data and its CRC-32C (R334). -/
structure Block where
  data : List Byte
  crc  : Word
deriving DecidableEq, Repr, Inhabited

/-- What an endpoint says of a request that it answers with an error (R331, Table 10.2). -/
inductive AnswerError where
  | unmapped
  | uncorrectable
deriving DecidableEq, Repr, Inhabited

/-- What the IPv6 and UDP headers of a frame say (R333). -/
structure Datagram where
  src   : BitVec 128
  dst   : BitVec 128
  sport : BitVec 16
  dport : BitVec 16
  sum   : BitVec 16
deriving DecidableEq, Repr, Inhabited

/-- A frame as a port receives it (Table 12.2): what its SecTAG says, the outcome of the ICV check, its IPv6 and UDP headers,
and its bytes from the Zarixon header on. -/
structure Rx where
  port     : Fin 8
  /-- the sending port, which the SCI names, and the packet number (R344) -/
  srcPort  : Fin 8
  packet   : Nat
  icvOk    : Bool
  udp      : Datagram
  /-- codewords that the link's FEC corrected, and could not correct, since the frame before (Table 12.10) -/
  fecFixed : Nat
  fecBad   : Nat
  /-- under the peer's newest key (R344) -/
  newKey   : Bool
  /-- the answer is an error; the manual gives it no form (log entry 41) -/
  error    : Option AnswerError
  /-- the 32 bytes of Table 12.3 -/
  head     : List Byte
  /-- the blocks as they follow, each with its CRC-32C -/
  body     : List Byte
deriving DecidableEq, Repr, Inhabited

/-- A flow (R336): peer, direction's plane, class and queue. -/
structure FlowId where
  peer  : Nat
  host  : Bool
  plane : Nat
  cls   : Nat
  queue : Nat
deriving DecidableEq, Repr, Inhabited

/-- A block of the register map: class of Table 13.14 and instance. -/
structure Blk where
  cls  : Nat
  inst : Nat
deriving DecidableEq, Repr, Inhabited

/-- A record of Table 12.20. -/
structure DigestRecord where
  owner  : Nat
  stack  : Nat
  shard  : Nat
  epoch  : DWord
  absent : Bool
  digest : DWord
deriving DecidableEq, Repr, Inhabited

/-- What a peer shows in a JOIN exchange (R343, R462), with the outcome of its signature check. -/
structure JoinOffer where
  peer        : Nat
  host        : Bool
  plane       : Nat
  viaParlour  : Bool
  /-- runs MACsec (R342) -/
  macsec      : Bool
  /-- the address of the peer on the plane, and MAC and SSCI of each of its ports there -/
  planeAddr   : BitVec 128
  macs        : List (BitVec 48)
  sscis       : List Word
  gen         : Nat
  /-- proves possession of its leaf key -/
  keyProven   : Bool
  /-- the chain ends at the Stavgar root and the leaf carries part code 0x0064 -/
  stavgarLeaf : Bool
  /-- SHA-512 of the public keys of its chain, leaf first -/
  chain       : List (BitVec 512)
  /-- the peer's own binding record names this module and its key (R467) -/
  bindsUs     : Bool
  /-- SYSTEM_DIGEST and RELOC digest sent with it (R500) -/
  digests     : Option (BitVec 512 × BitVec 512)
deriving DecidableEq, Repr, Inhabited

/-- Causes of R42. -/
inductive StallCause where
  | bankConflict (bank : Fin 40)
  /-- a late block, and the network cycles its sender waited for retry-buffer room (Table 13.20) -/
  | lateBlock (waited : Nat)
  | crcResend
  | emptyEntry
  /-- the 16-word queue of drain writes is full as the row unit delivers a word (R229) -/
  | drainQueue
deriving DecidableEq, Repr, Inhabited

/-- How an entry and its descriptor came to the sequencer: whole; with wrong parity at an offset of the entry buffer (R277);
or not, an uncorrectable read of the table at an HBM offset having stopped their request (R199, Table 10.2). -/
inductive EntryRead where
  | whole
  | parity (offset : Nat)
  | unread (offset : Nat)
deriving DecidableEq, Repr, Inhabited

/-- What the checks of a core find wrong as a row drains, in stores that no flip mask reaches: generators whose parity the
cycle's advance finds wrong (R79; 0 to 255 columns, 256 to 511 row-unit lanes), and the offsets of a byte with wrong
parity that the row reads in the check store and in the statistics store (R277). -/
structure Upset where
  gens  : List (Fin 512)
  check : Option Nat
  stats : Option Nat
deriving DecidableEq, Repr, Inhabited

/-- A release by a core's sequencer: the core, and what the read of its entry gives. -/
structure EntryRelease where
  core  : Fin 64
  entry : EntryRead
deriving DecidableEq, Repr, Inhabited

/-- What a port may lose (R366). -/
inductive LinkPart where
  | link
  | fec
  | macsec
deriving DecidableEq, Repr, Inhabited

/-- A port, and what it lost. -/
structure PortLoss where
  port : Fin 8
  part : LinkPart
deriving DecidableEq, Repr, Inhabited

/-- The drain of a core's next row: the core, and what the checks of its stores find wrong. -/
structure RowDrain where
  core  : Fin 64
  upset : Upset
deriving DecidableEq, Repr

/-- What a PTP message carries (R349): its domain and its time stamp in picoseconds. -/
structure PtpStamp where
  domain : Nat
  time   : Int
deriving DecidableEq, Repr, Inhabited

/-- A bit that a Separator's lane got wrong: the group in its batch, the plane (0 bitmap, 1 master, 2 and 3 moments, 4 ages)
and the bit of that group's bytes (R157). -/
structure LaneError where
  group : Fin 256
  plane : Fin 5
  bit   : Nat
deriving DecidableEq, Repr, Inhabited

/-- Who wrote to a command window: a core with queue, token and segment, or another path (R519). -/
inductive Issuer where
  | core (core : Fin 64) (request : Nat)
  | other
deriving DecidableEq, Repr, Inhabited

/-- What Parlour samples each slot (R451, R457). -/
structure Sample where
  /-- junction temperature of the hottest place and its quarter, coolant inlet: 1/8 °C -/
  dieC8     : Int
  quarter   : Fin 4
  coolantC8 : Int
  inputMv   : Nat
  inputMa   : Nat
  slotW     : Nat
  stepW     : Nat
  idleW     : Nat
deriving DecidableEq, Repr, Inhabited

/-- The outcomes of the checks a die start makes (R77, R473, R475, R483). -/
structure StartReport where
  /-- runs of the entropy health tests until one passed; 3 or more is a failure -/
  entropyFails : Nat
  /-- stages of Table 15.2 that have ended since stage 4 began: 1 stage 4, 2 stage 5 too, 3 all -/
  ended        : Fin 4
  /-- the module of each kind (Table 16.4, 1-4) whose instruction stores mismatched twice on read-back -/
  readBackBad  : Option (Fin 5)
  /-- the factory calibration's signature holds -/
  calibrationOk : Bool
deriving DecidableEq, Repr, Inhabited

inductive Instr where
  -- control messages (Table 13.2)
  | nop (f : Session)
  | regRead (f : Session) (count : Nat) (addr : Word)
  | regWrite (f : Session) (addr : Word) (data : List Word)
  | regModify (f : Session) (addr : Word) (data : List (Word × Word))
  | memRead (f : Session) (count : Nat) (addr : DWord)
  | memWrite (f : Session) (addr : DWord) (data : List Byte)
  | doorbellSubmissionTail (f : Session) (queue : Nat) (index : Nat)
  | doorbellCompletionHead (f : Session) (queue : Nat) (index : Nat)
  | eventFetch (f : Session) (count : Nat) (fromSeq ackSeq : Nat)
  | attest (f : Session) (nonce : List Byte)
  | twinDigests (f : Session) (step : Word) (records : List DigestRecord)
  | safetyReportReply (receiver : Nat) (status : Nat) (reqId : Word)
  -- queue pairs (Table 13.11)
  | submissionStart (q : Fin 4096)
  | sqNop (q : Fin 4096) (index : Nat)
  | copy (q : Fin 4096) (index : Nat)
  | fill (q : Fin 4096) (index : Nat)
  | digest (q : Fin 4096) (index : Nat)
  | planLoad (q : Fin 4096) (index : Nat)
  | sqFence (q : Fin 4096) (index : Nat)
  | queueEnable (q : Fin 4096) (word0 : Word)
  | queueDisable (q : Fin 4096)
  -- register writes with behaviour of their own
  | runStart
  | runEnd
  | abort
  | retryArm (hi : Word)
  | variantRequest (v : Word)
  | shapeArm
  | hpArm
  | snapRequest (id : Word)
  | sepCmdSubmit (s : Fin 12)
  | updCmdSubmit (s : Fin 12)
  | flipMaskArm (b : Blk) (hi : Word)
  | eventLatchClear (b : Blk) (bits : Word)
  | clearCounters (b : Blk)
  | attnAckIdentity
  | safeRelease (v : Word)
  | stopRequest
  | moduleNumberWrite (v : Word)
  | codeRegionWordWrite (s : Fin 12) (i : Fin 64) (w : Word)
  | portConfigWrite (p : Fin 8) (w : Word)
  | pailConfigWrite (b : Blk) (w : Word)
  | restoreStart (onlyInconsistent : Bool)
  | restoreAbort
  | activateArm (hi : Word)
  | activateCancel
  | svnCommit (v : Word)
  | stageStart (kind : Nat)
  | bind
  | unbind
  | parlourStageOffsetWrite (v : Word)
  | parlourStageAppend (data : List Word)
  | parlourCommit
  | parlourActivate
  | anchorSet (i : Fin 4)
  | anchorClear (i : Fin 4)
  | calSelectWrite (id : Word)
  | userSet
  | userClear
  | userClearAll
  | readClearField (addr : Word)
  | phaseLoRead
  | plainRegisterWrite (addr : Word) (v : Word)
  -- phase
  | syncIntervalEnd
  | phaseLost
  | slewCorrection
  | sync (p : Fin 8) (t1 : PtpStamp) (t2 : Int)
  | delayResp (p : Fin 8) (t3 : Int) (t4 : PtpStamp)
  -- sequencers, engine, copy engines
  | segmentRelease (c : EntryRelease)
  | stallCauseStart (c : Fin 64) (cause : StallCause)
  | stallCauseClear (c : Fin 64) (cause : StallCause)
  | herdFreeze (h : Fin 8)
  | herdResume (h : Fin 8)
  | late (c : Fin 64)
  | passSwap (c : Fin 64)
  | shadowLoadComplete (c : Fin 64)
  | chunkSum (c : Fin 64)
  | drainRow (c : RowDrain)
  | rerunRestart (c : Fin 64)
  | segmentEnd (c : Fin 64)
  | fetchComplete (request : Nat)
  | copyRequestStart (e : Fin 18)
  | elasticPromotion (c : Fin 64)
  | stepBoundary
  | safetySelftest (missing : Blk)
  | initialMilkRun (c : Fin 64)
  | completionPass (s : Fin 12)
  -- Separators
  | sepCommandArrive (s : Fin 12) (src : Issuer) (offset : Nat) (data : List Byte)
  | prune (s : Fin 12)
  | regrow (s : Fin 12)
  | audit (s : Fin 12)
  | collect (s : Fin 12)
  | sepBatchWrite (s : Fin 12) (wrong : List LaneError)
  | intakeWrite (s : Fin 12) (offset : Nat) (data : List Byte)
  -- update engines
  | updCommandArrive (s : Fin 12) (src : Issuer) (offset : Nat) (data : List Byte)
  | update (s : Fin 12)
  | apply (s : Fin 12)
  | derive (s : Fin 12)
  | exportShard (s : Fin 12)
  | importShard (s : Fin 12)
  | updBatch (s : Fin 12) (residueOk : Bool) (parityOk : Bool)
  | mirrorAck (s : Fin 12) (shard : Fin 4096) (epoch : DWord)
  | mirrorWaitExpiry (s : Fin 12) (shard : Fin 4096)
  | snapshotRecordAck (s : Fin 12) (shard : Fin 4096)
  | digestWaitExpiry (s : Fin 12) (shard : Fin 4096)
  | twinLost
  -- memory
  | churnChunk (s : Fin 12)
  | pailLeak (b : Blk)
  | invalidationAck (s : Fin 12)
  -- fabric frames
  | write (r : Rx)
  | read (r : Rx)
  | readData (r : Rx)
  | ack (r : Rx)
  | nak (r : Rx)
  | writeDone (r : Rx)
  | creditReq (r : Rx)
  | creditGrant (r : Rx)
  | control (r : Rx)
  | join (o : JoinOffer)
  | gather (r : Rx)
  | reduce (r : Rx)
  | redHoldRelease (entry : Nat) (unit : Nat)
  | notice (r : Rx)
  | pauseFrame (p : Fin 8)
  | ackTimer (f : FlowId)
  | nakTimer (f : FlowId)
  | retryTimeout (f : FlowId) (seq : Word)
  | frameSend (p : Fin 8)
  | creditReturn (c : Fin 2)
  | macsecRekey (peer : Nat) (host : Bool)
  | joinRetryTimer (peer : Nat) (host : Bool) (plane : Nat)
  | portUp (p : Fin 8)
  | portDown (p : PortLoss)
  | portDownHoldExpiry (p : Fin 8)
  -- safety
  | slotEdge (parlourAcks : Bool)
  | heartbeatIntervalExpiry
  | safetyLockstepMismatch
  | parlourLockstepReset
  | stopAcksComplete
  | safetyReportSend
  | reportResendTimer
  -- supplies, start-up, clocks, temperature
  | auxRailUp
  | auxRailLoss
  | inputQualified
  | railsInRegulation
  | dieStart (r : StartReport)
  | stackTrained (s : Fin 12)
  | startTimeout
  | supplyWarning
  | supplyClear
  | supplyResume
  | supplyHold
  | supplyReset
  | senseBladeUnmate
  | droopTrip (q : Fin 4)
  | droopRecover (q : Fin 4)
  | thermalSample (t : Sample)
  | thermalTripTimer
  | refclkPortLoss (c : Fin 2)
  | refclkDieLoss
  | refclkDieReturn
  | refclkDieTimeout
  | activationTick
  | senseBladeMate
  | bulkNodeCrossing (rising : Bool)
  | tierTrained (c : Fin 2)
  | stagingComplete
deriving DecidableEq, Repr, Inhabited

end Sys2Proof
end

