-- ==== Sys2Proof/Config.lean ====
section
/-!
DEFINITION. What the manual leaves open: free values. Each is an opaque constant without a body, applied to the
operands it depends on or to the count of draws that `State` keeps (`State.free`), so that nothing can be proved
about its value. Log entries 3 to 12, 14, 19 and 39 name each of them.
-/

namespace Sys2Proof.Config

/-- The die's physical entropy source (R77, R274, R441): the n-th 64-bit output. Log entry 3. -/
opaque entropy : Nat → BitVec 64

/-- SHA-512 (R461 to R495) of a byte string given by its length and its non-zero bytes. Log entry 4. -/
opaque sha512 : Nat → List (Nat × BitVec 8) → BitVec 512

/-- An ECDSA P-521 signature made by the module's signing unit (R464): digest, fresh draw. Log entry 5. -/
opaque sign : BitVec 512 → Nat → BitVec 1056

/-- The certificates that follow an attestation report (R461). Log entry 5. -/
opaque certificates : List (BitVec 8)

/-- Whether a firmware signature holds under the Stavgar firmware key (R470): the digest, the signature. Log entry 5. -/
opaque firmwareSigned : BitVec 512 → BitVec 1056 → Bool

/-- The fused serial number (R460). Log entry 6. -/
opaque serial : BitVec 64

/-- The fuse block's bytes as measured by item 7 of Table 16.3. Log entry 6. -/
opaque fuseBlock : List (BitVec 8)

/-- Whether the debug connector is not fused off (Table 16.9). Log entry 6. -/
opaque debugEnabled : Bool

/-- The factory calibration (R483): F, OFF_MIN, OFF_MAX, LIM_MIN, LIM_MAX of a parameter, if it has an entry.
Log entry 7. -/
opaque factoryCal : Nat → Option (Int × Int × Int × Int × Int)

/-- The signed factory calibration table as stored (Table 16.3 item 5). Log entry 7. -/
opaque factoryTable : List (BitVec 8)

/-- BODY_DIGEST of the image of a kind that the module leaves the factory with (Table 16.5). Log entry 14. -/
opaque factoryDigest : Nat → BitVec 512

/-- Parameters in the factory table (Table 16.13). Log entry 7. -/
opaque factoryCount : Nat

/-- What a coder answers to an error pattern beyond its guarantee (R261, R270, R276): 0 uncorrectable, 1 corrected to
a wrong value, 2 undetected; any other number stands for its remainder by 3. Log entry 8. -/
opaque beyondCode : Nat → Nat

/-- The bytes such a read delivers. Log entry 8. -/
opaque beyondByte : Nat → Nat → BitVec 8

/-- The set of the memory-side cache that a 128-byte line falls into (R269): the manual names no rule. Log entry 19. -/
opaque cacheSet : Nat → Nat

/-- Which neighbour a time in ps takes when a register shows it in ns (the manual states no rounding). Log entry 9. -/
opaque nsRoundsUp : Int → Bool

/-- What the die holds where the manual states no value at all: a fresh word per draw. Log entry 10. -/
opaque freeWord : Nat → BitVec 32

/-- The key of a secure association (R343): agreed by an ephemeral exchange, never shown. Log entry 12. -/
opaque linkKey : Nat → BitVec 256

/-- A port's fused MAC address (R460). Log entry 6. -/
opaque portMac : Nat → BitVec 48

/-- This module's IPv6 address on a plane (R333): the manual does not say where it comes from. Log entry 6. -/
opaque planeAddr : Nat → BitVec 128

/-- The VLAN of a plane (R329, R333): the manual does not say where a port takes it from. Log entry 6. -/
opaque planeVlan : Nat → BitVec 12

/-- The association number in a SecTAG (R333) under a key: the manual does not say how the two are numbered. Log entry 12. -/
opaque assocNumber : BitVec 256 → BitVec 2

/-- The UDP source port of a port's frames (R333): the manual gives none. Log entry 6. -/
opaque udpSource : Nat → BitVec 16

/-- The ephemeral ECDH share on P-521 that this module sends in a JOIN exchange (R343). Log entry 12. -/
opaque joinShare : Nat → BitVec 1056

/-- SEQ of a frame on Parlour's port (R429) to a receiver: Parlour's flows are not part of the model. Log entry 12. -/
opaque mgmtSeq : Nat → Nat → BitVec 32

/-- Quarters whose network link to a quarter is up, as bits 3 to 0 (R404): the manual does not say which links exist.
Log entry 39. -/
opaque nocLinks : Nat → Nat

/-- Lines a copy engine has outstanding (Table 09.11) in a core cycle; a copy moves its bytes in one step here.
Log entry 39. -/
opaque linesOut : Nat → Nat → Nat

end Sys2Proof.Config
end

