-- ==== Sys2Proof/Machine/Header.lean ====
section
/-!
DEFINITION. The Zarixon header as its 32 little-endian bytes (R10, R334, Table 12.3), and a received frame's header and
blocks read from its bytes. Reserved bits are sent as zero and not looked at.
-/

namespace Sys2Proof

/-- Word i of some bytes, little-endian. -/
def wordIn (bs : List Byte) (i : Nat) : Nat := leNat ((bs.drop (4 * i)).take 4)

/-- Word 0 of Table 12.3. -/
def Hdr.word0 (h : Hdr) : Nat :=
  h.gen * 2 ^ 28 + h.type * 2 ^ 24 + h.cls * 2 ^ 22 + h.nblk * 2 ^ 20 + bnat h.resend * 2 ^ 19 + bnat h.last * 2 ^ 18 + h.queue

/-- Word 1. -/
def Hdr.word1 (h : Hdr) : Nat := h.src * 2 ^ 20 + h.dst * 2 ^ 8 + bnat h.srcHost * 2 ^ 7 + bnat h.dstHost * 2 ^ 6

/-- The header as a port sends it. -/
def Hdr.bytes (h : Hdr) : List Byte :=
  leBytes 4 h.word0 ++ leBytes 4 h.word1 ++ leBytes 4 h.seq.toNat ++ leBytes 4 h.tag.toNat ++ leBytes 8 h.addr.toNat ++
    leBytes 4 h.len.toNat ++ leBytes 4 h.phaseTag.toNat

/-- A header read from its bytes. -/
def Hdr.read (bs : List Byte) : Hdr where
  gen := fieldOf (wordIn bs 0) 31 28
  type := fieldOf (wordIn bs 0) 27 24
  cls := fieldOf (wordIn bs 0) 23 22
  nblk := fieldOf (wordIn bs 0) 21 20
  resend := bitOf (wordIn bs 0) 19
  last := bitOf (wordIn bs 0) 18
  queue := fieldOf (wordIn bs 0) 11 0
  src := fieldOf (wordIn bs 1) 31 20
  dst := fieldOf (wordIn bs 1) 19 8
  srcHost := bitOf (wordIn bs 1) 7
  dstHost := bitOf (wordIn bs 1) 6
  seq := BitVec.ofNat 32 (wordIn bs 2)
  tag := BitVec.ofNat 32 (wordIn bs 3)
  addr := BitVec.ofNat 64 (wordIn bs 4 + 2 ^ 32 * wordIn bs 5)
  len := BitVec.ofNat 32 (wordIn bs 6)
  phaseTag := BitVec.ofNat 32 (wordIn bs 7)

def Hdr.len0 (h : Hdr) : Nat := fieldOf h.len.toNat 15 0

def Hdr.len1 (h : Hdr) : Nat := fieldOf h.len.toNat 31 16

/-- A block as it follows a header: its data, then its CRC-32C. -/
def Block.bytes (b : Block) : List Byte := b.data ++ leBytes 4 b.crc.toNat

def Block.read (bs : List Byte) (len : Nat) : Block := ⟨bs.take len, BitVec.ofNat 32 (leNat ((bs.drop len).take 4))⟩

def Rx.hdr (r : Rx) : Hdr := Hdr.read r.head

/-- The blocks that NBLK, LEN0 and LEN1 of the header cut from what follows it. -/
def Rx.blocks (r : Rx) : List Block :=
  match r.hdr.nblk with
  | 0 => []
  | 1 => [Block.read r.body r.hdr.len0]
  | _ => [Block.read r.body r.hdr.len0, Block.read (r.body.drop (r.hdr.len0 + 4)) r.hdr.len1]

/-! ### UDP (R333) -/

/-- The 16-bit words of some bytes, most significant byte first, a last odd byte padded with zeros, added up. -/
def beSum : List Byte → Nat
  | [] => 0
  | [a] => 256 * a.toNat
  | a :: b :: bs => 256 * a.toNat + b.toNat + beSum bs

/-- The eight 16-bit words of an IPv6 address, added up. -/
def addrSum (a : BitVec 128) : Nat := ((List.range 8).map (fun i => fieldOf a.toNat (16 * i + 15) (16 * i))).foldl (· + ·) 0

/-- What the checksum is taken over, added up: the IPv6 pseudo-header with next header 17, the UDP header, its payload. -/
def udpTotal (src dst : BitVec 128) (sport dport : Nat) (payload : List Byte) : Nat :=
  addrSum src + addrSum dst + 2 * (8 + payload.length) + 17 + sport + dport + beSum payload

/-- The checksum as IPv6 requires it: the complement of the ones' complement sum, never zero. -/
def udpChecksum (src dst : BitVec 128) (sport dport : Nat) (payload : List Byte) : BitVec 16 :=
  BitVec.ofNat 16 (65535 - udpTotal src dst sport dport payload % 65535)

/-- A received checksum holds. -/
def Rx.udpOk (r : Rx) : Bool :=
  r.udp.sum != 0 &&
    (udpTotal r.udp.src r.udp.dst r.udp.sport.toNat r.udp.dport.toNat (r.head ++ r.body) + r.udp.sum.toNat) % 65535 == 0

/-- Every block that the header announces has 1 to 4,096 bytes and is there (R334). -/
def Rx.formed (r : Rx) : Bool :=
  r.head.length == 32 && r.blocks.all (fun b => decide (1 ≤ b.data.length) && decide (b.data.length ≤ 4096)) &&
    (match r.hdr.nblk with
     | 0 => r.body.isEmpty
     | 1 => r.body.length == r.hdr.len0 + 4
     | 2 => r.body.length == r.hdr.len0 + r.hdr.len1 + 8
     | _ => false)

end Sys2Proof
end

