-- ==== Sys2Proof/Machine/Regs.lean ====
section
/-!
DEFINITION. The register map (R11, R401 to R403 and the register tables of every chapter): for each page the rows of
its table, with the bits each access code of Table 00.4 covers and the reset value; and the address of each register
by its name. A register whose reset the manual does not give as a number stands at 0 here (log entry 2).
-/

namespace Sys2Proof.Machine

/-- One row of a register table: offset, how many consecutive words, the bits of each access code, the reset value. -/
structure RegRow where
  off   : Nat
  count : Nat
  rw    : Nat
  w1c   : Nat
  rc    : Nat
  wo    : Nat
  rwl   : Nat
  reset : Nat
deriving DecidableEq, Repr

/-- Table 13.13: the address of a register. -/
def regAddr (cls inst page off : Nat) : Nat := cls * 0x1000000 + inst * 0x10000 + page * 0x1000 + off

/-- Page 0 of every block (R403). -/
def page0 : List RegRow := [
  -- IDENT
  ⟨0x000, 1, 0x0, 0x0, 0x0, 0x0, 0x0, 0x0⟩,
  -- VERSION
  ⟨0x004, 1, 0x0, 0x0, 0x0, 0x0, 0x0, 0x0⟩,
  -- CONTROL
  ⟨0x008, 1, 0x0, 0x0, 0x0, 0x1, 0x0, 0x0⟩,
  -- STATUS
  ⟨0x00C, 1, 0x0, 0x0, 0x0, 0x0, 0x0, 0x0⟩,
  -- EVENT_RAW
  ⟨0x010, 1, 0x0, 0x0, 0x0, 0x0, 0x0, 0x0⟩,
  -- EVENT_ENABLE
  ⟨0x014, 1, 0xFF, 0x0, 0x0, 0x0, 0x0, 0xFF⟩,
  -- EVENT_LATCH
  ⟨0x018, 1, 0x0, 0xFF, 0x0, 0x0, 0x0, 0x0⟩,
  -- PAIL_LEVEL
  ⟨0x01C, 1, 0x0, 0x0, 0x0, 0x0, 0x0, 0x0⟩,
  -- PAIL_CONFIG
  ⟨0x020, 1, 0x1FFFFF, 0x0, 0x0, 0x0, 0x0, 0x140020⟩,
  -- FLIP_MASK_LO
  ⟨0x024, 1, 0xFFFFFFFF, 0x0, 0x0, 0x0, 0x0, 0x0⟩,
  -- FLIP_MASK_HI
  ⟨0x028, 1, 0xFFFFFFFF, 0x0, 0x0, 0x0, 0x0, 0x0⟩,
  -- COUNTER_0
  ⟨0x030, 1, 0x0, 0x0, 0x0, 0x0, 0x0, 0x0⟩,
  -- COUNTER_1
  ⟨0x034, 1, 0x0, 0x0, 0x0, 0x0, 0x0, 0x0⟩,
  -- COUNTER_2
  ⟨0x038, 1, 0x0, 0x0, 0x0, 0x0, 0x0, 0x0⟩,
  -- COUNTER_3
  ⟨0x03C, 1, 0x0, 0x0, 0x0, 0x0, 0x0, 0x0⟩]

/-- CORE page 1 (R58). -/
def pageCore1 : List RegRow := [
  -- SEQ_STATUS
  ⟨0x000, 1, 0x0, 0x0, 0x0, 0x0, 0x0, 0x0⟩,
  -- SLIP_NOW
  ⟨0x004, 1, 0x0, 0x0, 0x0, 0x0, 0x0, 0x0⟩,
  -- SLACK_MIN
  ⟨0x008, 1, 0x0, 0x0, 0xFFFFFF, 0x0, 0x0, 0xFFFFFF⟩,
  -- STALL_CYCLES
  ⟨0x00C, 1, 0x0, 0x0, 0x0, 0x0, 0x0, 0x0⟩,
  -- STALL_EVENTS
  ⟨0x010, 1, 0x0, 0x0, 0x0, 0x0, 0x0, 0x0⟩,
  -- RERUNS
  ⟨0x014, 1, 0x0, 0x0, 0x0, 0x0, 0x0, 0x0⟩,
  -- ENTRY_UNDERRUNS
  ⟨0x018, 1, 0x0, 0x0, 0x0, 0x0, 0x0, 0x0⟩,
  -- TOKENS
  ⟨0x020, 8, 0x0, 0x0, 0x0, 0x0, 0x0, 0x0⟩,
  -- SIGNALS
  ⟨0x040, 2, 0x0, 0x0, 0x0, 0x0, 0x0, 0x0⟩]

/-- CORE page 2 (R114). -/
def pageCore2 : List RegRow := [
  -- ENGINE_STATUS
  ⟨0x000, 1, 0x0, 0x0, 0x0, 0x0, 0x0, 0x0⟩,
  -- LOW_ESCAPES
  ⟨0x004, 1, 0x0, 0x0, 0x0, 0x0, 0x0, 0x0⟩,
  -- SEG_LOW_ESCAPES
  ⟨0x008, 1, 0x0, 0x0, 0x0, 0x0, 0x0, 0x0⟩,
  -- LOW_ESCAPE_LIMIT
  ⟨0x00C, 1, 0xFFFFFFFF, 0x0, 0x0, 0x0, 0x0, 0xFFFFFFFF⟩,
  -- HIGH_ESCAPES
  ⟨0x010, 1, 0x0, 0x0, 0x0, 0x0, 0x0, 0x0⟩,
  -- CHECKED_DRAINS
  ⟨0x014, 1, 0x0, 0x0, 0x0, 0x0, 0x0, 0x0⟩,
  -- UNCHECKED_DRAINS
  ⟨0x018, 1, 0x0, 0x0, 0x0, 0x0, 0x0, 0x0⟩,
  -- CHECK_MISMATCHES
  ⟨0x01C, 1, 0x0, 0x0, 0x0, 0x0, 0x0, 0x0⟩,
  -- LENGTH_LIMITS
  ⟨0x020, 1, 0x0, 0x0, 0x0, 0x0, 0x0, 0x0⟩,
  -- DRAIN_ROWS
  ⟨0x024, 1, 0x0, 0x0, 0x0, 0x0, 0x0, 0x0⟩,
  -- LOAD_BUBBLES
  ⟨0x028, 1, 0x0, 0x0, 0x0, 0x0, 0x0, 0x0⟩,
  -- LAST_ANCHOR
  ⟨0x02C, 1, 0x0, 0x0, 0x0, 0x0, 0x0, 0x0⟩]

/-- CORE page 3 (R85). -/
def pageCore3 : List RegRow := [
  -- NAN_DRAINS
  ⟨0x000, 1, 0x0, 0x0, 0x0, 0x0, 0x0, 0x0⟩,
  -- INF_DRAINS
  ⟨0x004, 1, 0x0, 0x0, 0x0, 0x0, 0x0, 0x0⟩,
  -- OVERFLOWS
  ⟨0x008, 1, 0x0, 0x0, 0x0, 0x0, 0x0, 0x0⟩,
  -- MX_CLAMPS
  ⟨0x00C, 1, 0x0, 0x0, 0x0, 0x0, 0x0, 0x0⟩,
  -- MX_NAN_BLOCKS
  ⟨0x010, 1, 0x0, 0x0, 0x0, 0x0, 0x0, 0x0⟩,
  -- RNG_FAULTS
  ⟨0x014, 1, 0x0, 0x0, 0x0, 0x0, 0x0, 0x0⟩]

/-- CORE page 4 (R140). -/
def pageCore4 : List RegRow := [
  -- SPARSE_STATUS
  ⟨0x000, 1, 0x0, 0x0, 0x0, 0x0, 0x0, 0x0⟩,
  -- OVERBUDGET_DROPS
  ⟨0x004, 1, 0x0, 0x0, 0x0, 0x0, 0x0, 0x0⟩,
  -- RANGE_DROPS
  ⟨0x008, 1, 0x0, 0x0, 0x0, 0x0, 0x0, 0x0⟩,
  -- SEG_META_DROPS
  ⟨0x00C, 1, 0x0, 0x0, 0x0, 0x0, 0x0, 0x0⟩,
  -- META_DROP_LIMIT
  ⟨0x010, 1, 0xFFFFFFFF, 0x0, 0x0, 0x0, 0x0, 0xFFFFFFFF⟩,
  -- SPARSE_LOADS
  ⟨0x014, 1, 0x0, 0x0, 0x0, 0x0, 0x0, 0x0⟩,
  -- UNCHECKED_LOADS
  ⟨0x018, 1, 0x0, 0x0, 0x0, 0x0, 0x0, 0x0⟩,
  -- SPLIT_ROWS
  ⟨0x01C, 1, 0x0, 0x0, 0x0, 0x0, 0x0, 0x0⟩,
  -- PEELED_PASSES
  ⟨0x020, 1, 0x0, 0x0, 0x0, 0x0, 0x0, 0x0⟩]

/-- CORE page 5 (R198). -/
def pageCore5 : List RegRow := [
  -- BWD_STATUS
  ⟨0x000, 1, 0x0, 0x0, 0x0, 0x0, 0x0, 0x0⟩,
  -- SCATTER_PASSES
  ⟨0x004, 1, 0x0, 0x0, 0x0, 0x0, 0x0, 0x0⟩,
  -- MO_TILES
  ⟨0x008, 1, 0x0, 0x0, 0x0, 0x0, 0x0, 0x0⟩,
  -- DENSE_GRAD_TILES
  ⟨0x00C, 1, 0x0, 0x0, 0x0, 0x0, 0x0, 0x0⟩,
  -- PEEL_LINK_PASSES
  ⟨0x010, 1, 0x0, 0x0, 0x0, 0x0, 0x0, 0x0⟩,
  -- TBUF_BRICKS
  ⟨0x014, 1, 0x0, 0x0, 0x0, 0x0, 0x0, 0x0⟩,
  -- TBUF_SLOW_ROWS
  ⟨0x018, 1, 0x0, 0x0, 0x0, 0x0, 0x0, 0x0⟩,
  -- STAT_PAIRS
  ⟨0x01C, 1, 0x0, 0x0, 0x0, 0x0, 0x0, 0x0⟩,
  -- STAT_NONFINITE
  ⟨0x020, 1, 0x0, 0x0, 0x0, 0x0, 0x0, 0x0⟩]

/-- CORE page 6 (R224). -/
def pageCore6 : List RegRow := [
  -- LOOP_STATUS
  ⟨0x000, 1, 0x0, 0x0, 0x0, 0x0, 0x0, 0x0⟩,
  -- LOOP_INDEX
  ⟨0x004, 6, 0x0, 0x0, 0x0, 0x0, 0x0, 0x0⟩,
  -- ZERO_SHAPE_SEGMENTS
  ⟨0x01C, 1, 0x0, 0x0, 0x0, 0x0, 0x0, 0x0⟩,
  -- SKIPPED_POINTS
  ⟨0x020, 1, 0x0, 0x0, 0x0, 0x0, 0x0, 0x0⟩,
  -- EDGE_TILES
  ⟨0x024, 1, 0x0, 0x0, 0x0, 0x0, 0x0, 0x0⟩,
  -- ROW_PASSES
  ⟨0x028, 1, 0x0, 0x0, 0x0, 0x0, 0x0, 0x0⟩,
  -- FETCHES_ISSUED
  ⟨0x02C, 1, 0x0, 0x0, 0x0, 0x0, 0x0, 0x0⟩,
  -- OUT_TILES
  ⟨0x030, 1, 0x0, 0x0, 0x0, 0x0, 0x0, 0x0⟩]

/-- CORE page 7 (R255). -/
def pageCore7 : List RegRow := [
  -- BANK_CONFLICTS
  ⟨0x000, 1, 0x0, 0x0, 0x0, 0x0, 0x0, 0x0⟩,
  -- CONFLICT_BANK
  ⟨0x004, 1, 0x0, 0x0, 0x0, 0x0, 0x0, 0x0⟩,
  -- RMW_WORDS
  ⟨0x008, 1, 0x0, 0x0, 0x0, 0x0, 0x0, 0x0⟩,
  -- FULL_BLOCK_WRITES
  ⟨0x00C, 1, 0x0, 0x0, 0x0, 0x0, 0x0, 0x0⟩,
  -- MISALIGNED_PASSES
  ⟨0x010, 1, 0x0, 0x0, 0x0, 0x0, 0x0, 0x0⟩,
  -- ELASTIC_PROMOTIONS
  ⟨0x014, 1, 0x0, 0x0, 0x0, 0x0, 0x0, 0x0⟩,
  -- FAR_ACCESSES
  ⟨0x018, 1, 0x0, 0x0, 0x0, 0x0, 0x0, 0x0⟩]

/-- CORE page 8 (R290). -/
def pageCore8 : List RegRow := [
  -- SCRATCH_PARITY
  ⟨0x000, 1, 0x0, 0x0, 0x0, 0x0, 0x0, 0x0⟩,
  -- VAT_PARITY
  ⟨0x004, 1, 0x0, 0x0, 0x0, 0x0, 0x0, 0x0⟩,
  -- TBUF_PARITY
  ⟨0x008, 1, 0x0, 0x0, 0x0, 0x0, 0x0, 0x0⟩,
  -- CHECK_STORE_PARITY
  ⟨0x00C, 1, 0x0, 0x0, 0x0, 0x0, 0x0, 0x0⟩,
  -- STAT_PARITY
  ⟨0x010, 1, 0x0, 0x0, 0x0, 0x0, 0x0, 0x0⟩,
  -- ENTRY_PARITY
  ⟨0x014, 1, 0x0, 0x0, 0x0, 0x0, 0x0, 0x0⟩,
  -- LAST_PARITY
  ⟨0x018, 1, 0x0, 0x0, 0x0, 0x0, 0x0, 0x0⟩,
  -- FLIP_SELECT
  ⟨0x01C, 1, 0x1FF, 0x0, 0x0, 0x0, 0x0, 0x0⟩]

/-- QUARTER page 1 (R404). -/
def pageQuarter1 : List RegRow := [
  -- NOC_STATUS
  ⟨0x000, 1, 0x0, 0x0, 0x0, 0x0, 0x0, 0x0⟩,
  -- NOC_BLOCKS_SENT
  ⟨0x004, 1, 0x0, 0x0, 0x0, 0x0, 0x0, 0x0⟩,
  -- NOC_CRC_RESENDS
  ⟨0x008, 1, 0x0, 0x0, 0x0, 0x0, 0x0, 0x0⟩,
  -- NOC_LATE_BLOCKS
  ⟨0x00C, 1, 0x0, 0x0, 0x0, 0x0, 0x0, 0x0⟩,
  -- NOC_RETRY_FULL
  ⟨0x010, 1, 0x0, 0x0, 0x0, 0x0, 0x0, 0x0⟩]

/-- MSC page 1 (R288). -/
def pageMsc1 : List RegRow := [
  -- PF_CONFIG
  ⟨0x000, 1, 0x13F, 0x0, 0x0, 0x0, 0x0, 0x108⟩,
  -- HITS
  ⟨0x004, 1, 0x0, 0x0, 0x0, 0x0, 0x0, 0x0⟩,
  -- MISSES
  ⟨0x008, 1, 0x0, 0x0, 0x0, 0x0, 0x0, 0x0⟩,
  -- PF_ISSUED
  ⟨0x00C, 1, 0x0, 0x0, 0x0, 0x0, 0x0, 0x0⟩,
  -- PF_USED
  ⟨0x010, 1, 0x0, 0x0, 0x0, 0x0, 0x0, 0x0⟩,
  -- CORRECTED
  ⟨0x014, 1, 0x0, 0x0, 0x0, 0x0, 0x0, 0x0⟩,
  -- REFETCHES
  ⟨0x018, 1, 0x0, 0x0, 0x0, 0x0, 0x0, 0x0⟩,
  -- INVALIDATIONS
  ⟨0x01C, 1, 0x0, 0x0, 0x0, 0x0, 0x0, 0x0⟩,
  -- FLIP_SELECT
  ⟨0x020, 1, 0x1FF, 0x0, 0x0, 0x0, 0x0, 0x0⟩]

/-- HBM page 1 (R286). -/
def pageHbm1 : List RegRow := [
  -- HBM_STATUS
  ⟨0x000, 1, 0x0, 0x0, 0x0, 0x0, 0x0, 0x0⟩,
  -- CORRECTED
  ⟨0x004, 1, 0x0, 0x0, 0x0, 0x0, 0x0, 0x0⟩,
  -- UNCORRECTABLE
  ⟨0x008, 1, 0x0, 0x0, 0x0, 0x0, 0x0, 0x0⟩,
  -- CE_ADDR_LO
  ⟨0x00C, 1, 0x0, 0x0, 0x0, 0x0, 0x0, 0x0⟩,
  -- CE_ADDR_HI
  ⟨0x010, 1, 0x0, 0x0, 0x0, 0x0, 0x0, 0x0⟩,
  -- UE_ADDR_LO
  ⟨0x014, 1, 0x0, 0x0, 0x0, 0x0, 0x0, 0x0⟩,
  -- UE_ADDR_HI
  ⟨0x018, 1, 0x0, 0x0, 0x0, 0x0, 0x0, 0x0⟩,
  -- RMW_UNITS
  ⟨0x01C, 1, 0x0, 0x0, 0x0, 0x0, 0x0, 0x0⟩,
  -- CHURN_CONFIG
  ⟨0x020, 1, 0x17F, 0x0, 0x0, 0x0, 0x0, 0x110⟩,
  -- CHURN_POS_LO
  ⟨0x024, 1, 0x0, 0x0, 0x0, 0x0, 0x0, 0x0⟩,
  -- CHURN_POS_HI
  ⟨0x028, 1, 0x0, 0x0, 0x0, 0x0, 0x0, 0x0⟩,
  -- CHURN_PASSES
  ⟨0x02C, 1, 0x0, 0x0, 0x0, 0x0, 0x0, 0x0⟩,
  -- CHURN_LAST_PASS
  ⟨0x030, 1, 0x0, 0x0, 0x0, 0x0, 0x0, 0x0⟩,
  -- CHURN_LAG
  ⟨0x034, 1, 0x0, 0x0, 0x0, 0x0, 0x0, 0x0⟩,
  -- WC_COMPARED
  ⟨0x038, 1, 0x0, 0x0, 0x0, 0x0, 0x0, 0x0⟩,
  -- WC_SKIPPED
  ⟨0x03C, 1, 0x0, 0x0, 0x0, 0x0, 0x0, 0x0⟩,
  -- WC_DIVERGENCES
  ⟨0x040, 1, 0x0, 0x0, 0x0, 0x0, 0x0, 0x0⟩,
  -- FLIP_SELECT
  ⟨0x044, 1, 0x1FF, 0x0, 0x0, 0x0, 0x0, 0x0⟩]

/-- HBM page 2 (R287). -/
def pageHbm2 : List RegRow := [
  -- CODE_REGION
  ⟨0x000, 1, 0x83FFFFFF, 0x0, 0x0, 0x0, 0x0, 0x80BFF000⟩,
  -- CODE_REGION
  ⟨0x004, 63, 0x83FFFFFF, 0x0, 0x0, 0x0, 0x0, 0x0⟩]

/-- UPD page 1 (R325). -/
def pageUpd1 : List RegRow := [
  -- UPD_STATUS
  ⟨0x000, 1, 0x0, 0x0, 0x0, 0x0, 0x0, 0x0⟩,
  -- UPD_CONFIG
  ⟨0x004, 1, 0xFFFFFF1F, 0x0, 0x0, 0x0, 0x0, 0x800FF10⟩,
  -- CMD_WINDOW_LO
  ⟨0x008, 1, 0x0, 0x0, 0x0, 0x0, 0x0, 0x0⟩,
  -- CMD_WINDOW_HI
  ⟨0x00C, 1, 0x0, 0x0, 0x0, 0x0, 0x0, 0x0⟩,
  -- COMMANDS
  ⟨0x010, 1, 0x0, 0x0, 0x0, 0x0, 0x0, 0x0⟩,
  -- SLOTS_UPDATED
  ⟨0x014, 1, 0x0, 0x0, 0x0, 0x0, 0x0, 0x0⟩,
  -- REPLAYS_SKIPPED
  ⟨0x018, 1, 0x0, 0x0, 0x0, 0x0, 0x0, 0x0⟩,
  -- COMPLETIONS
  ⟨0x01C, 1, 0x0, 0x0, 0x0, 0x0, 0x0, 0x0⟩,
  -- DISCARDED_GRADS
  ⟨0x020, 1, 0x0, 0x0, 0x0, 0x0, 0x0, 0x0⟩,
  -- NONFINITE_GRADS
  ⟨0x024, 1, 0x0, 0x0, 0x0, 0x0, 0x0, 0x0⟩,
  -- NONFINITE_MOMENTS
  ⟨0x028, 1, 0x0, 0x0, 0x0, 0x0, 0x0, 0x0⟩,
  -- NONFINITE_MASTERS
  ⟨0x02C, 1, 0x0, 0x0, 0x0, 0x0, 0x0, 0x0⟩,
  -- LARGE_STEPS
  ⟨0x030, 1, 0x0, 0x0, 0x0, 0x0, 0x0, 0x0⟩,
  -- MX_CLAMPS
  ⟨0x034, 1, 0x0, 0x0, 0x0, 0x0, 0x0, 0x0⟩,
  -- RESIDUE_FAULTS
  ⟨0x038, 1, 0x0, 0x0, 0x0, 0x0, 0x0, 0x0⟩,
  -- RNG_FAULTS
  ⟨0x03C, 1, 0x0, 0x0, 0x0, 0x0, 0x0, 0x0⟩,
  -- BATCH_RETRIES
  ⟨0x040, 1, 0x0, 0x0, 0x0, 0x0, 0x0, 0x0⟩,
  -- MIRRORS
  ⟨0x044, 1, 0x0, 0x0, 0x0, 0x0, 0x0, 0x0⟩,
  -- MIRROR_TIMEOUTS
  ⟨0x048, 1, 0x0, 0x0, 0x0, 0x0, 0x0, 0x0⟩]

/-- UPD page 2 (R168). -/
def pageUpd2 : List RegRow := [
  -- CMD_WORD
  ⟨0x000, 16, 0xFFFFFFFF, 0x0, 0x0, 0x0, 0x0, 0x0⟩,
  -- CMD_SUBMIT
  ⟨0x040, 1, 0x0, 0x0, 0x0, 0x1, 0x0, 0x0⟩,
  -- CMD_STATUS
  ⟨0x044, 1, 0x0, 0x0, 0x0, 0x0, 0x0, 0x0⟩,
  -- CMD_FAULT_ADDR
  ⟨0x048, 1, 0x0, 0x0, 0x0, 0x0, 0x0, 0x0⟩]

/-- UPD page 3 (R327). -/
def pageUpd3 : List RegRow := [
  -- HP_CONTROL
  ⟨0x000, 1, 0x1, 0x0, 0x0, 0x0, 0x0, 0x0⟩,
  -- HP_LATCHES
  ⟨0x004, 1, 0x0, 0x0, 0x0, 0x0, 0x0, 0x0⟩,
  -- SNAP_REQUEST
  ⟨0x008, 1, 0x0, 0x0, 0x0, 0xFFFFFFFF, 0x0, 0x0⟩,
  -- SNAP_STATUS
  ⟨0x00C, 1, 0x0, 0x0, 0x0, 0x0, 0x0, 0x0⟩,
  -- SNAP_DEST_LO
  ⟨0x010, 1, 0xFFFFFFFF, 0x0, 0x0, 0x0, 0x0, 0x0⟩,
  -- SNAP_DEST_HI
  ⟨0x014, 1, 0xFFFFFFFF, 0x0, 0x0, 0x0, 0x0, 0x0⟩,
  -- HP_NEXT
  ⟨0x040, 16, 0xFFFFFFFF, 0x0, 0x0, 0x0, 0x0, 0x0⟩,
  -- HP_ACTIVE
  ⟨0x080, 16, 0x0, 0x0, 0x0, 0x0, 0x0, 0x0⟩]

/-- SEP page 1 (R167). -/
def pageSep1 : List RegRow := [
  -- SEP_STATUS
  ⟨0x000, 1, 0x0, 0x0, 0x0, 0x0, 0x0, 0x0⟩,
  -- SEP_CONFIG
  ⟨0x004, 1, 0x1F, 0x0, 0x0, 0x0, 0x0, 0xC⟩,
  -- CMD_WINDOW_LO
  ⟨0x008, 1, 0x0, 0x0, 0x0, 0x0, 0x0, 0x0⟩,
  -- CMD_WINDOW_HI
  ⟨0x00C, 1, 0x0, 0x0, 0x0, 0x0, 0x0, 0x0⟩,
  -- INTAKE_BASE_LO
  ⟨0x010, 1, 0x0, 0x0, 0x0, 0x0, 0x0, 0x0⟩,
  -- INTAKE_BASE_HI
  ⟨0x014, 1, 0x0, 0x0, 0x0, 0x0, 0x0, 0x0⟩,
  -- COMMANDS
  ⟨0x018, 1, 0x0, 0x0, 0x0, 0x0, 0x0, 0x0⟩,
  -- GROUPS
  ⟨0x01C, 1, 0x0, 0x0, 0x0, 0x0, 0x0, 0x0⟩,
  -- SWAPS
  ⟨0x020, 1, 0x0, 0x0, 0x0, 0x0, 0x0, 0x0⟩,
  -- FILLS
  ⟨0x024, 1, 0x0, 0x0, 0x0, 0x0, 0x0, 0x0⟩,
  -- PRUNE_DROPS
  ⟨0x028, 1, 0x0, 0x0, 0x0, 0x0, 0x0, 0x0⟩,
  -- MASK_DROPS
  ⟨0x02C, 1, 0x0, 0x0, 0x0, 0x0, 0x0, 0x0⟩,
  -- CANDIDATE_GROUPS
  ⟨0x030, 1, 0x0, 0x0, 0x0, 0x0, 0x0, 0x0⟩,
  -- STRAY_CANDIDATES
  ⟨0x034, 1, 0x0, 0x0, 0x0, 0x0, 0x0, 0x0⟩,
  -- INTAKE_HOLDS
  ⟨0x038, 1, 0x0, 0x0, 0x0, 0x0, 0x0, 0x0⟩,
  -- NO_CANDIDATE_CMDS
  ⟨0x03C, 1, 0x0, 0x0, 0x0, 0x0, 0x0, 0x0⟩,
  -- TRUNCATED
  ⟨0x040, 1, 0x0, 0x0, 0x0, 0x0, 0x0, 0x0⟩,
  -- CHECK_FAILS
  ⟨0x044, 1, 0x0, 0x0, 0x0, 0x0, 0x0, 0x0⟩,
  -- AUDIT_FAILS
  ⟨0x048, 1, 0x0, 0x0, 0x0, 0x0, 0x0, 0x0⟩]

/-- SEP page 2 (R168). -/
def pageSep2 : List RegRow := [
  -- CMD_WORD
  ⟨0x000, 16, 0xFFFFFFFF, 0x0, 0x0, 0x0, 0x0, 0x0⟩,
  -- CMD_SUBMIT
  ⟨0x040, 1, 0x0, 0x0, 0x0, 0x1, 0x0, 0x0⟩,
  -- CMD_STATUS
  ⟨0x044, 1, 0x0, 0x0, 0x0, 0x0, 0x0, 0x0⟩,
  -- CMD_FAULT_ADDR
  ⟨0x048, 1, 0x0, 0x0, 0x0, 0x0, 0x0, 0x0⟩]

/-- PORT page 1 (R376). -/
def pagePort1 : List RegRow := [
  -- PORT_STATUS
  ⟨0x000, 1, 0x0, 0x0, 0x0, 0x0, 0x0, 0x0⟩,
  -- PORT_CONFIG
  ⟨0x004, 1, 0x103, 0x0, 0x0, 0x0, 0x0, 0x103⟩,
  -- FEC_CORRECTED
  ⟨0x008, 1, 0x0, 0x0, 0x0, 0x0, 0x0, 0x0⟩,
  -- FEC_UNCORRECTED
  ⟨0x00C, 1, 0x0, 0x0, 0x0, 0x0, 0x0, 0x0⟩,
  -- FRAMES_TX
  ⟨0x010, 1, 0x0, 0x0, 0x0, 0x0, 0x0, 0x0⟩,
  -- FRAMES_RX
  ⟨0x014, 1, 0x0, 0x0, 0x0, 0x0, 0x0, 0x0⟩,
  -- FRAMES_DISCARDED
  ⟨0x018, 1, 0x0, 0x0, 0x0, 0x0, 0x0, 0x0⟩,
  -- ICV_FAILS
  ⟨0x01C, 1, 0x0, 0x0, 0x0, 0x0, 0x0, 0x0⟩,
  -- REPLAY_DROPS
  ⟨0x020, 1, 0x0, 0x0, 0x0, 0x0, 0x0, 0x0⟩,
  -- PAUSE_IGNORED
  ⟨0x024, 1, 0x0, 0x0, 0x0, 0x0, 0x0, 0x0⟩,
  -- SCHED_FRAMES
  ⟨0x028, 1, 0x0, 0x0, 0x0, 0x0, 0x0, 0x0⟩,
  -- LATE_BLOCKS
  ⟨0x02C, 1, 0x0, 0x0, 0x0, 0x0, 0x0, 0x0⟩,
  -- PTP_EGRESS_ADJ
  ⟨0x030, 1, 0x0, 0x0, 0x0, 0x0, 0x0, 0x0⟩,
  -- PTP_INGRESS_ADJ
  ⟨0x034, 1, 0x0, 0x0, 0x0, 0x0, 0x0, 0x0⟩,
  -- PTP_ASYMMETRY
  ⟨0x038, 1, 0xFFFFFFFF, 0x0, 0x0, 0x0, 0x0, 0x0⟩,
  -- DOWN_EVENTS
  ⟨0x03C, 1, 0x0, 0x0, 0x0, 0x0, 0x0, 0x0⟩]

/-- FABRIC page 1 (R377). -/
def pageFabric1 : List RegRow := [
  -- FABRIC_STATUS
  ⟨0x000, 1, 0x0, 0x0, 0x0, 0x0, 0x0, 0x0⟩,
  -- MODULE_NUMBER
  ⟨0x004, 1, 0x0, 0x0, 0x0, 0x0, 0xFFF, 0x0⟩,
  -- UDP_PORT
  ⟨0x008, 1, 0xFFFF, 0x0, 0x0, 0x0, 0x0, 0xB93C⟩,
  -- RETRY_CONFIG
  ⟨0x00C, 1, 0xFFFFFF, 0x0, 0x0, 0x0, 0x0, 0x807D0⟩,
  -- CREDIT_CONFIG
  ⟨0x010, 1, 0x1F00FF, 0x0, 0x0, 0x0, 0x0, 0x100010⟩,
  -- LINK_CONFIG
  ⟨0x014, 1, 0xFFFFFFFF, 0x0, 0x0, 0x0, 0x0, 0x2002710⟩,
  -- PTP_CONFIG
  ⟨0x018, 1, 0xFF, 0x0, 0x0, 0x0, 0x0, 0x0⟩,
  -- PTP_OFFSET
  ⟨0x01C, 1, 0x0, 0x0, 0x0, 0x0, 0x0, 0x0⟩,
  -- PEERS
  ⟨0x020, 1, 0x0, 0x0, 0x0, 0x0, 0x0, 0x0⟩,
  -- BLOCKS_SENT
  ⟨0x024, 1, 0x0, 0x0, 0x0, 0x0, 0x0, 0x0⟩,
  -- BLOCKS_RESENT
  ⟨0x028, 1, 0x0, 0x0, 0x0, 0x0, 0x0, 0x0⟩,
  -- SCHED_RESENDS
  ⟨0x02C, 1, 0x0, 0x0, 0x0, 0x0, 0x0, 0x0⟩,
  -- CRC_FAILS
  ⟨0x030, 1, 0x0, 0x0, 0x0, 0x0, 0x0, 0x0⟩,
  -- DUP_BLOCKS
  ⟨0x034, 1, 0x0, 0x0, 0x0, 0x0, 0x0, 0x0⟩,
  -- RETRY_FULL_CYCLES
  ⟨0x038, 1, 0x0, 0x0, 0x0, 0x0, 0x0, 0x0⟩,
  -- GRANTS_ISSUED
  ⟨0x03C, 1, 0x0, 0x0, 0x0, 0x0, 0x0, 0x0⟩,
  -- SATURATED_SLOTS
  ⟨0x040, 1, 0x0, 0x0, 0x0, 0x0, 0x0, 0x0⟩,
  -- UNREACHABLE_EVENTS
  ⟨0x044, 1, 0x0, 0x0, 0x0, 0x0, 0x0, 0x0⟩,
  -- SYSTEM_SIZE
  ⟨0x048, 1, 0x1FFF, 0x0, 0x0, 0x0, 0x0, 0x0⟩]

/-- FABRIC page 2 (R378). -/
def pageFabric2 : List RegRow := [
  -- RED_STATUS
  ⟨0x000, 1, 0x0, 0x0, 0x0, 0x0, 0x0, 0x0⟩,
  -- RED_UNITS_WRITTEN
  ⟨0x004, 1, 0x0, 0x0, 0x0, 0x0, 0x0, 0x0⟩,
  -- RED_FULL_NAKS
  ⟨0x008, 1, 0x0, 0x0, 0x0, 0x0, 0x0, 0x0⟩,
  -- RED_HOLD_CYCLES
  ⟨0x00C, 1, 0x0, 0x0, 0x0, 0x0, 0x0, 0x0⟩,
  -- RED_NONFINITE
  ⟨0x010, 1, 0x0, 0x0, 0x0, 0x0, 0x0, 0x0⟩,
  -- RED_RESIDUE_FAULTS
  ⟨0x014, 1, 0x0, 0x0, 0x0, 0x0, 0x0, 0x0⟩,
  -- RED_ENTRIES
  ⟨0x018, 1, 0x0, 0x0, 0x0, 0x0, 0x0, 0x0⟩]

/-- LPDDR page 1 (R289). -/
def pageLpddr1 : List RegRow := [
  -- LPDDR_STATUS
  ⟨0x000, 1, 0x0, 0x0, 0x0, 0x0, 0x0, 0x0⟩,
  -- LINK_CORRECTED
  ⟨0x004, 1, 0x0, 0x0, 0x0, 0x0, 0x0, 0x0⟩,
  -- LINK_RETRIES
  ⟨0x008, 1, 0x0, 0x0, 0x0, 0x0, 0x0, 0x0⟩,
  -- UNCORRECTABLE
  ⟨0x00C, 1, 0x0, 0x0, 0x0, 0x0, 0x0, 0x0⟩,
  -- UE_ADDR_LO
  ⟨0x010, 1, 0x0, 0x0, 0x0, 0x0, 0x0, 0x0⟩,
  -- UE_ADDR_HI
  ⟨0x014, 1, 0x0, 0x0, 0x0, 0x0, 0x0, 0x0⟩,
  -- PARTIAL_UNITS
  ⟨0x018, 1, 0x0, 0x0, 0x0, 0x0, 0x0, 0x0⟩,
  -- FLIP_SELECT
  ⟨0x01C, 1, 0x1FF, 0x0, 0x0, 0x0, 0x0, 0x0⟩]

/-- QMGR page 1 (R405). -/
def pageQmgr1 : List RegRow := [
  -- QMGR_STATUS
  ⟨0x000, 1, 0x0, 0x0, 0x0, 0x0, 0x0, 0x0⟩,
  -- ATTN_NOW
  ⟨0x004, 1, 0x0, 0x0, 0x0, 0x0, 0x0, 0x10⟩,
  -- ATTN_CONDITIONS
  ⟨0x008, 1, 0x0, 0x0, 0x0, 0x0, 0x0, 0x1⟩,
  -- ATTN_ACK
  ⟨0x00C, 1, 0x0, 0x0, 0x0, 0x1, 0x0, 0x0⟩,
  -- LOG_OLDEST_SEQ
  ⟨0x010, 1, 0x0, 0x0, 0x0, 0x0, 0x0, 0x0⟩,
  -- LOG_NEXT_SEQ
  ⟨0x014, 1, 0x0, 0x0, 0x0, 0x0, 0x0, 0x1⟩,
  -- LOG_LOST
  ⟨0x018, 1, 0x0, 0x0, 0x0, 0x0, 0x0, 0x0⟩,
  -- CONTROL_MSGS
  ⟨0x01C, 1, 0x0, 0x0, 0x0, 0x0, 0x0, 0x0⟩,
  -- BUSY_REPLIES
  ⟨0x020, 1, 0x0, 0x0, 0x0, 0x0, 0x0, 0x0⟩,
  -- ADMIT_DISCARDS
  ⟨0x024, 1, 0x0, 0x0, 0x0, 0x0, 0x0, 0x0⟩,
  -- QUEUE_ERRORS
  ⟨0x028, 1, 0x0, 0x0, 0x0, 0x0, 0x0, 0x0⟩,
  -- SUBMISSIONS
  ⟨0x02C, 1, 0x0, 0x0, 0x0, 0x0, 0x0, 0x0⟩]

/-- PHASE page 1 (R55). -/
def pagePhase1 : List RegRow := [
  -- PHASE_LO
  ⟨0x000, 1, 0x0, 0x0, 0x0, 0x0, 0x0, 0x0⟩,
  -- PHASE_HI
  ⟨0x004, 1, 0x0, 0x0, 0x0, 0x0, 0x0, 0x0⟩,
  -- LOCK_STATUS
  ⟨0x008, 1, 0x0, 0x0, 0x0, 0x0, 0x0, 0x0⟩,
  -- OFFSET
  ⟨0x00C, 1, 0x0, 0x0, 0x0, 0x0, 0x0, 0x0⟩,
  -- SYNC_CONFIG
  ⟨0x010, 1, 0x7, 0x0, 0x0, 0x0, 0x0, 0x7⟩,
  -- HOLDOVER_LIMIT
  ⟨0x014, 1, 0xFF, 0x0, 0x0, 0x0, 0x0, 0x8⟩,
  -- EPOCH_LO
  ⟨0x018, 1, 0x0, 0x0, 0x0, 0x0, 0xFFFFFFFF, 0x0⟩,
  -- EPOCH_HI
  ⟨0x01C, 1, 0x0, 0x0, 0x0, 0x0, 0xFFFFFFFF, 0x0⟩]

/-- PHASE page 2 (R56). -/
def pagePhase2 : List RegRow := [
  -- STEP_BASE_LO
  ⟨0x000, 1, 0xFFFFFFFF, 0x0, 0x0, 0x0, 0x0, 0x0⟩,
  -- STEP_BASE_HI
  ⟨0x004, 1, 0xFFFFFFFF, 0x0, 0x0, 0x0, 0x0, 0x0⟩,
  -- STEP_COUNT
  ⟨0x008, 1, 0x0, 0x0, 0x0, 0x0, 0x0, 0x0⟩,
  -- VARIANT_STATUS
  ⟨0x00C, 1, 0x0, 0x0, 0x0, 0x0, 0x0, 0x0⟩,
  -- VARIANT_REQUEST
  ⟨0x010, 1, 0x0, 0x0, 0x0, 0xF, 0x0, 0x0⟩,
  -- IDLE_INSERT
  ⟨0x014, 1, 0x3F, 0x0, 0x0, 0x0, 0x0, 0x0⟩,
  -- RUN_CONTROL
  ⟨0x018, 1, 0x1, 0x0, 0x0, 0x2, 0x0, 0x0⟩,
  -- RESUME_STEP
  ⟨0x01C, 1, 0xFFFFFFFF, 0x0, 0x0, 0x0, 0x0, 0x0⟩,
  -- RESUME_SLOT_LO
  ⟨0x020, 1, 0xFFFFFFFF, 0x0, 0x0, 0x0, 0x0, 0x0⟩,
  -- RESUME_SLOT_HI
  ⟨0x024, 1, 0xFFFFFFFF, 0x0, 0x0, 0x0, 0x0, 0x0⟩]

/-- PHASE page 3 (R225). -/
def pagePhase3 : List RegRow := [
  -- SHAPE_CONTROL
  ⟨0x000, 1, 0x1, 0x0, 0x0, 0x0, 0x0, 0x0⟩,
  -- SHAPE_LATCHES
  ⟨0x004, 1, 0x0, 0x0, 0x0, 0x0, 0x0, 0x0⟩,
  -- SHAPE_NEXT
  ⟨0x044, 15, 0xFFFFFF, 0x0, 0x0, 0x0, 0x0, 0x0⟩,
  -- SHAPE_ACTIVE
  ⟨0x084, 15, 0x0, 0x0, 0x0, 0x0, 0x0, 0x0⟩,
  -- SHAPE_MAX
  ⟨0x0C4, 15, 0x0, 0x0, 0x0, 0x0, 0x0, 0x0⟩]

/-- SAFETY page 1 (R434). -/
def pageSafety1 : List RegRow := [
  -- SAFETY_STATUS
  ⟨0x000, 1, 0x0, 0x0, 0x0, 0x0, 0x0, 0x0⟩,
  -- DETECT_SEQ
  ⟨0x004, 1, 0x0, 0x0, 0x0, 0x0, 0x0, 0x0⟩,
  -- FIRST_CODE
  ⟨0x008, 1, 0x0, 0x0, 0x0, 0x0, 0x0, 0x0⟩,
  -- FIRST_PHASE_LO
  ⟨0x00C, 1, 0x0, 0x0, 0x0, 0x0, 0x0, 0x0⟩,
  -- FIRST_PHASE_HI
  ⟨0x010, 1, 0x0, 0x0, 0x0, 0x0, 0x0, 0x0⟩,
  -- SUSPECT_FROM_LO
  ⟨0x014, 1, 0x0, 0x0, 0x0, 0x0, 0x0, 0x0⟩,
  -- SUSPECT_FROM_HI
  ⟨0x018, 1, 0x0, 0x0, 0x0, 0x0, 0x0, 0x0⟩,
  -- SUSPECT_TO_LO
  ⟨0x01C, 1, 0x0, 0x0, 0x0, 0x0, 0x0, 0x0⟩,
  -- SUSPECT_TO_HI
  ⟨0x020, 1, 0x0, 0x0, 0x0, 0x0, 0x0, 0x0⟩,
  -- SAFE_RELEASE
  ⟨0x024, 1, 0x0, 0x0, 0x0, 0xFFFFFFFF, 0x0, 0x0⟩,
  -- STOP_REQUEST
  ⟨0x028, 1, 0x0, 0x0, 0x0, 0x1, 0x0, 0x0⟩,
  -- WATCH_CONFIG
  ⟨0x02C, 1, 0xFFFF00, 0x0, 0x0, 0x0, 0x0, 0x100400⟩,
  -- MILK_RUNS
  ⟨0x030, 1, 0x0, 0x0, 0x0, 0x0, 0x0, 0x0⟩,
  -- MILK_FAILS
  ⟨0x034, 1, 0x0, 0x0, 0x0, 0x0, 0x0, 0x0⟩,
  -- MILK_GAP_MAX
  ⟨0x038, 1, 0x0, 0x0, 0xFFFF, 0x0, 0x0, 0x0⟩,
  -- SCHED_STALLS
  ⟨0x03C, 1, 0x0, 0x0, 0x0, 0x0, 0x0, 0x0⟩,
  -- HEARTBEATS_MISSED
  ⟨0x040, 1, 0x0, 0x0, 0x0, 0x0, 0x0, 0x0⟩,
  -- PARLOUR_MISSED
  ⟨0x044, 1, 0x0, 0x0, 0x0, 0x0, 0x0, 0x0⟩,
  -- BLOCK_TIME_MAX
  ⟨0x048, 1, 0x0, 0x0, 0x0, 0x0, 0x0, 0x0⟩,
  -- SELFTESTS
  ⟨0x04C, 1, 0x0, 0x0, 0x0, 0x0, 0x0, 0x0⟩]

/-- SAFETY page 2 (R435). -/
def pageSafety2 : List RegRow := [
  -- REPORT_TO
  ⟨0x000, 4, 0x80000FFF, 0x0, 0x0, 0x0, 0x0, 0x0⟩,
  -- REPORT_CONFIG
  ⟨0x010, 1, 0xFFFF00FF, 0x0, 0x0, 0x0, 0x0, 0xB93C0001⟩,
  -- REPORT_STATUS
  ⟨0x014, 1, 0x0, 0x0, 0x0, 0x0, 0x0, 0x0⟩,
  -- REPORTS_SENT
  ⟨0x018, 1, 0x0, 0x0, 0x0, 0x0, 0x0, 0x0⟩,
  -- REPORTS_ACKED
  ⟨0x01C, 1, 0x0, 0x0, 0x0, 0x0, 0x0, 0x0⟩]

/-- POWER page 1 (R457). -/
def pagePower1 : List RegRow := [
  -- POWER_STATUS
  ⟨0x000, 1, 0x0, 0x0, 0x0, 0x0, 0x0, 0x0⟩,
  -- INPUT_MV
  ⟨0x004, 1, 0x0, 0x0, 0x0, 0x0, 0x0, 0x0⟩,
  -- INPUT_MA
  ⟨0x008, 1, 0x0, 0x0, 0x0, 0x0, 0x0, 0x0⟩,
  -- SLOT_POWER
  ⟨0x00C, 1, 0x0, 0x0, 0x0, 0x0, 0x0, 0x0⟩,
  -- STEP_POWER
  ⟨0x010, 1, 0x0, 0x0, 0x0, 0x0, 0x0, 0x0⟩,
  -- IDLE_POWER
  ⟨0x014, 1, 0x0, 0x0, 0x0, 0x0, 0x0, 0x0⟩,
  -- CAP_CONFIG
  ⟨0x018, 1, 0x800F0FFF, 0x0, 0x0, 0x0, 0x0, 0x407D0⟩,
  -- CAP_IDLE
  ⟨0x01C, 1, 0x0, 0x0, 0x0, 0x0, 0x0, 0x0⟩,
  -- TEMP_DIE
  ⟨0x020, 1, 0x0, 0x0, 0x0, 0x0, 0x0, 0x0⟩,
  -- TEMP_COOLANT
  ⟨0x024, 1, 0x0, 0x0, 0x0, 0x0, 0x0, 0x0⟩,
  -- THERMAL_CONFIG
  ⟨0x028, 1, 0xFFF, 0x0, 0x0, 0x0, 0x0, 0x320⟩,
  -- SUPPLY_WARNINGS
  ⟨0x02C, 1, 0x0, 0x0, 0x0, 0x0, 0x0, 0x0⟩,
  -- SUPPLY_RESUMES
  ⟨0x030, 1, 0x0, 0x0, 0x0, 0x0, 0x0, 0x0⟩,
  -- HOLD_TICKS_LAST
  ⟨0x034, 1, 0x0, 0x0, 0x0, 0x0, 0x0, 0x0⟩,
  -- HOLD_LIMIT
  ⟨0x038, 1, 0xFFFF, 0x0, 0x0, 0x0, 0x0, 0x5F5E⟩,
  -- UNTRUSTED_RERUNS
  ⟨0x03C, 1, 0x0, 0x0, 0x0, 0x0, 0x0, 0x0⟩,
  -- UNTRUSTED_BATCHES
  ⟨0x040, 1, 0x0, 0x0, 0x0, 0x0, 0x0, 0x0⟩,
  -- DROOP_EVENTS
  ⟨0x044, 1, 0x0, 0x0, 0x0, 0x0, 0x0, 0x0⟩,
  -- LAST_DROOP
  ⟨0x048, 1, 0x0, 0x0, 0x0, 0x0, 0x0, 0x0⟩,
  -- RESET_CAUSE
  ⟨0x04C, 1, 0x0, 0x0, 0x0, 0x0, 0x0, 0x0⟩,
  -- START_MS
  ⟨0x050, 1, 0x0, 0x0, 0x0, 0x0, 0x0, 0x0⟩]

/-- POWER page 2 (R458). -/
def pagePower2 : List RegRow := [
  -- RESTORE_CONTROL
  ⟨0x000, 1, 0x0, 0x0, 0x0, 0x7, 0x0, 0x0⟩,
  -- RESTORE_SOURCE
  ⟨0x004, 1, 0xFFF, 0x0, 0x0, 0x0, 0x0, 0x0⟩,
  -- RESTORE_STATUS
  ⟨0x008, 1, 0x0, 0x0, 0x0, 0x0, 0x0, 0x0⟩,
  -- RESTORE_SHARDS
  ⟨0x00C, 1, 0x0, 0x0, 0x0, 0x0, 0x0, 0x0⟩,
  -- RESTORE_FAILS
  ⟨0x010, 1, 0x0, 0x0, 0x0, 0x0, 0x0, 0x0⟩,
  -- RESTORE_OLDEST_STEP
  ⟨0x014, 1, 0x0, 0x0, 0x0, 0x0, 0x0, 0x0⟩,
  -- RESTORE_NEWEST_STEP
  ⟨0x018, 1, 0x0, 0x0, 0x0, 0x0, 0x0, 0x0⟩,
  -- RESTORE_MIB
  ⟨0x01C, 1, 0x0, 0x0, 0x0, 0x0, 0x0, 0x0⟩]

/-- CAL page 1 (R487). -/
def pageCal1 : List RegRow := [
  -- CAL_STATUS
  ⟨0x000, 1, 0x0, 0x0, 0x0, 0x0, 0x0, 0x0⟩,
  -- CAL_SELECT
  ⟨0x004, 1, 0xFFFF, 0x0, 0x0, 0x0, 0x0, 0x0⟩,
  -- CAL_FACTORY
  ⟨0x008, 1, 0x0, 0x0, 0x0, 0x0, 0x0, 0x0⟩,
  -- CAL_OFF_MIN
  ⟨0x00C, 1, 0x0, 0x0, 0x0, 0x0, 0x0, 0x0⟩,
  -- CAL_OFF_MAX
  ⟨0x010, 1, 0x0, 0x0, 0x0, 0x0, 0x0, 0x0⟩,
  -- CAL_LIM_MIN
  ⟨0x014, 1, 0x0, 0x0, 0x0, 0x0, 0x0, 0x0⟩,
  -- CAL_LIM_MAX
  ⟨0x018, 1, 0x0, 0x0, 0x0, 0x0, 0x0, 0x0⟩,
  -- CAL_USER
  ⟨0x01C, 1, 0x0, 0x0, 0x0, 0x0, 0x0, 0x0⟩,
  -- CAL_EFFECTIVE
  ⟨0x020, 1, 0x0, 0x0, 0x0, 0x0, 0x0, 0x0⟩]

/-- CAL page 2 (R488). -/
def pageCal2 : List RegRow := [
  -- USER_ID
  ⟨0x000, 1, 0xFFFF, 0x0, 0x0, 0x0, 0x0, 0x0⟩,
  -- USER_VALUE
  ⟨0x004, 1, 0xFFFFFFFF, 0x0, 0x0, 0x0, 0x0, 0x0⟩,
  -- USER_COMMAND
  ⟨0x008, 1, 0x0, 0x0, 0x0, 0x7, 0x0, 0x0⟩,
  -- USER_COUNT
  ⟨0x00C, 1, 0x0, 0x0, 0x0, 0x0, 0x0, 0x0⟩]

/-- BOOT page 1 (R485). -/
def pageBoot1 : List RegRow := [
  -- BOOT_STATUS
  ⟨0x000, 1, 0x0, 0x0, 0x0, 0x0, 0x0, 0x0⟩,
  -- ACTIVATE_AT_PHASE_LO
  ⟨0x004, 1, 0xFFFFFFFF, 0x0, 0x0, 0x0, 0x0, 0x0⟩,
  -- ACTIVATE_AT_PHASE_HI
  ⟨0x008, 1, 0xFFFFFFFF, 0x0, 0x0, 0x0, 0x0, 0x0⟩,
  -- ACTIVATE_CANCEL
  ⟨0x00C, 1, 0x0, 0x0, 0x0, 0x1, 0x0, 0x0⟩,
  -- IMAGE_SLOTS
  ⟨0x010, 1, 0x0, 0x0, 0x0, 0x0, 0x0, 0x0⟩,
  -- BOOT_COUNT
  ⟨0x014, 1, 0x0, 0x0, 0x0, 0x0, 0x0, 0x0⟩,
  -- SVN_FUSED
  ⟨0x018, 1, 0x0, 0x0, 0x0, 0x0, 0x0, 0x0⟩,
  -- SVN_COMMIT
  ⟨0x01C, 1, 0x0, 0x0, 0x0, 0xFF, 0x0, 0x0⟩,
  -- BIND_STATUS
  ⟨0x020, 1, 0x0, 0x0, 0x0, 0x0, 0x0, 0x0⟩,
  -- SERIAL_LO
  ⟨0x024, 1, 0x0, 0x0, 0x0, 0x0, 0x0, 0x0⟩,
  -- SERIAL_HI
  ⟨0x028, 1, 0x0, 0x0, 0x0, 0x0, 0x0, 0x0⟩,
  -- TWIN_KEY_DIGEST
  ⟨0x040, 16, 0x0, 0x0, 0x0, 0x0, 0x0, 0x0⟩]

/-- BOOT page 2 (R486). -/
def pageBoot2 : List RegRow := [
  -- STAGE_SRC_LO
  ⟨0x000, 1, 0xFFFFFFFF, 0x0, 0x0, 0x0, 0x0, 0x0⟩,
  -- STAGE_SRC_HI
  ⟨0x004, 1, 0xFFFFFFFF, 0x0, 0x0, 0x0, 0x0, 0x0⟩,
  -- STAGE_LENGTH
  ⟨0x008, 1, 0xFFFFFFFF, 0x0, 0x0, 0x0, 0x0, 0x0⟩,
  -- STAGE_COMMAND
  ⟨0x00C, 1, 0x0, 0x0, 0x0, 0x107, 0x0, 0x0⟩,
  -- STAGE_STATUS
  ⟨0x010, 1, 0x0, 0x0, 0x0, 0x0, 0x0, 0x0⟩,
  -- BIND_TWIN
  ⟨0x014, 1, 0xFFF, 0x0, 0x0, 0x0, 0x0, 0x0⟩,
  -- BIND_COMMAND
  ⟨0x018, 1, 0x0, 0x0, 0x0, 0x3, 0x0, 0x0⟩,
  -- PARLOUR_STAGE_OFFSET
  ⟨0x01C, 1, 0xFFFFFFFF, 0x0, 0x0, 0x0, 0x0, 0x0⟩,
  -- PARLOUR_COMMIT
  ⟨0x020, 1, 0x0, 0x0, 0x0, 0xFFFFFFFF, 0x0, 0x0⟩,
  -- PARLOUR_ACTIVATE
  ⟨0x024, 1, 0x0, 0x0, 0x0, 0xFFFFFFFF, 0x0, 0x0⟩,
  -- ANCHOR_DIGEST
  ⟨0x040, 16, 0xFFFFFFFF, 0x0, 0x0, 0x0, 0x0, 0x0⟩,
  -- ANCHOR_COMMAND
  ⟨0x080, 1, 0x0, 0x0, 0x0, 0x303, 0x0, 0x0⟩,
  -- ANCHOR_STATUS
  ⟨0x084, 1, 0x0, 0x0, 0x0, 0x0, 0x0, 0x0⟩]

/-- COPY page 1 (R256). -/
def pageCopy1 : List RegRow := [
  -- COPY_STATUS
  ⟨0x000, 1, 0x0, 0x0, 0x0, 0x0, 0x0, 0x0⟩,
  -- REQUESTS
  ⟨0x004, 1, 0x0, 0x0, 0x0, 0x0, 0x0, 0x0⟩,
  -- LINES_READ
  ⟨0x008, 1, 0x0, 0x0, 0x0, 0x0, 0x0, 0x0⟩,
  -- WORDS_WRITTEN
  ⟨0x00C, 1, 0x0, 0x0, 0x0, 0x0, 0x0, 0x0⟩,
  -- RANGE_MISSES
  ⟨0x010, 1, 0x0, 0x0, 0x0, 0x0, 0x0, 0x0⟩,
  -- TRANSPOSED_BYTES
  ⟨0x014, 1, 0x0, 0x0, 0x0, 0x0, 0x0, 0x0⟩,
  -- PENDING_WAIT_CYCLES
  ⟨0x018, 1, 0x0, 0x0, 0x0, 0x0, 0x0, 0x0⟩,
  -- MISALIGNED_REQUESTS
  ⟨0x01C, 1, 0x0, 0x0, 0x0, 0x0, 0x0, 0x0⟩]

/-- Table 13.14: how many instances a class has; 0 for a class that does not exist. -/
def classInstances : Nat → Nat
  | 1 => 64 | 2 => 4 | 3 => 4 | 4 => 12 | 5 => 12 | 6 => 12 | 7 => 8 | 8 => 2 | 9 => 2
  | 10 => 1 | 11 => 1 | 12 => 1 | 13 => 1 | 14 => 1 | 15 => 1 | 16 => 16 | _ => 0

/-- The rows of a page (Table 13.14); none where the page does not exist. UPD page 3 of instances 1 to 11 exists and is
reserved (R327); BOOT page 3 is the staging window (R486). -/
def pageRows (cls inst page : Nat) : Option (List RegRow) :=
  if inst < classInstances cls then
    match cls, page with
    | _, 0 => some page0
    | 1, 1 => some pageCore1
    | 1, 2 => some pageCore2
    | 1, 3 => some pageCore3
    | 1, 4 => some pageCore4
    | 1, 5 => some pageCore5
    | 1, 6 => some pageCore6
    | 1, 7 => some pageCore7
    | 1, 8 => some pageCore8
    | 2, 1 => some pageQuarter1
    | 3, 1 => some pageMsc1
    | 4, 1 => some pageHbm1
    | 4, 2 => some pageHbm2
    | 5, 1 => some pageUpd1
    | 5, 2 => some pageUpd2
    | 5, 3 => some (if inst = 0 then pageUpd3 else [])
    | 6, 1 => some pageSep1
    | 6, 2 => some pageSep2
    | 7, 1 => some pagePort1
    | 8, 1 => some pageFabric1
    | 8, 2 => some pageFabric2
    | 9, 1 => some pageLpddr1
    | 10, 1 => some pageQmgr1
    | 11, 1 => some pagePhase1
    | 11, 2 => some pagePhase2
    | 11, 3 => some pagePhase3
    | 12, 1 => some pageSafety1
    | 12, 2 => some pageSafety2
    | 13, 1 => some pagePower1
    | 13, 2 => some pagePower2
    | 14, 1 => some pageCal1
    | 14, 2 => some pageCal2
    | 15, 1 => some pageBoot1
    | 15, 2 => some pageBoot2
    | 16, 1 => some pageCopy1
    | 15, 3 => some []
    | _, _ => none
  else none

namespace Reg

def IDENT (cls n : Nat) : Nat := regAddr cls n 0 0x000
def VERSION (cls n : Nat) : Nat := regAddr cls n 0 0x004
def CONTROL (cls n : Nat) : Nat := regAddr cls n 0 0x008
def STATUS (cls n : Nat) : Nat := regAddr cls n 0 0x00C
def EVENT_RAW (cls n : Nat) : Nat := regAddr cls n 0 0x010
def EVENT_ENABLE (cls n : Nat) : Nat := regAddr cls n 0 0x014
def EVENT_LATCH (cls n : Nat) : Nat := regAddr cls n 0 0x018
def PAIL_LEVEL (cls n : Nat) : Nat := regAddr cls n 0 0x01C
def PAIL_CONFIG (cls n : Nat) : Nat := regAddr cls n 0 0x020
def FLIP_MASK_LO (cls n : Nat) : Nat := regAddr cls n 0 0x024
def FLIP_MASK_HI (cls n : Nat) : Nat := regAddr cls n 0 0x028
def COUNTER_0 (cls n : Nat) : Nat := regAddr cls n 0 0x030
def COUNTER_1 (cls n : Nat) : Nat := regAddr cls n 0 0x034
def COUNTER_2 (cls n : Nat) : Nat := regAddr cls n 0 0x038
def COUNTER_3 (cls n : Nat) : Nat := regAddr cls n 0 0x03C
def CORE_SEQ_STATUS (n : Nat) : Nat := regAddr 1 n 1 0x000
def CORE_SLIP_NOW (n : Nat) : Nat := regAddr 1 n 1 0x004
def CORE_SLACK_MIN (n : Nat) : Nat := regAddr 1 n 1 0x008
def CORE_STALL_CYCLES (n : Nat) : Nat := regAddr 1 n 1 0x00C
def CORE_STALL_EVENTS (n : Nat) : Nat := regAddr 1 n 1 0x010
def CORE_RERUNS (n : Nat) : Nat := regAddr 1 n 1 0x014
def CORE_ENTRY_UNDERRUNS (n : Nat) : Nat := regAddr 1 n 1 0x018
def CORE_TOKENS (n i : Nat) : Nat := regAddr 1 n 1 (0x020 + 4 * i)
def CORE_SIGNALS (n i : Nat) : Nat := regAddr 1 n 1 (0x040 + 4 * i)
def CORE_ENGINE_STATUS (n : Nat) : Nat := regAddr 1 n 2 0x000
def CORE_LOW_ESCAPES (n : Nat) : Nat := regAddr 1 n 2 0x004
def CORE_SEG_LOW_ESCAPES (n : Nat) : Nat := regAddr 1 n 2 0x008
def CORE_LOW_ESCAPE_LIMIT (n : Nat) : Nat := regAddr 1 n 2 0x00C
def CORE_HIGH_ESCAPES (n : Nat) : Nat := regAddr 1 n 2 0x010
def CORE_CHECKED_DRAINS (n : Nat) : Nat := regAddr 1 n 2 0x014
def CORE_UNCHECKED_DRAINS (n : Nat) : Nat := regAddr 1 n 2 0x018
def CORE_CHECK_MISMATCHES (n : Nat) : Nat := regAddr 1 n 2 0x01C
def CORE_LENGTH_LIMITS (n : Nat) : Nat := regAddr 1 n 2 0x020
def CORE_DRAIN_ROWS (n : Nat) : Nat := regAddr 1 n 2 0x024
def CORE_LOAD_BUBBLES (n : Nat) : Nat := regAddr 1 n 2 0x028
def CORE_LAST_ANCHOR (n : Nat) : Nat := regAddr 1 n 2 0x02C
def CORE_NAN_DRAINS (n : Nat) : Nat := regAddr 1 n 3 0x000
def CORE_INF_DRAINS (n : Nat) : Nat := regAddr 1 n 3 0x004
def CORE_OVERFLOWS (n : Nat) : Nat := regAddr 1 n 3 0x008
def CORE_MX_CLAMPS (n : Nat) : Nat := regAddr 1 n 3 0x00C
def CORE_MX_NAN_BLOCKS (n : Nat) : Nat := regAddr 1 n 3 0x010
def CORE_RNG_FAULTS (n : Nat) : Nat := regAddr 1 n 3 0x014
def CORE_SPARSE_STATUS (n : Nat) : Nat := regAddr 1 n 4 0x000
def CORE_OVERBUDGET_DROPS (n : Nat) : Nat := regAddr 1 n 4 0x004
def CORE_RANGE_DROPS (n : Nat) : Nat := regAddr 1 n 4 0x008
def CORE_SEG_META_DROPS (n : Nat) : Nat := regAddr 1 n 4 0x00C
def CORE_META_DROP_LIMIT (n : Nat) : Nat := regAddr 1 n 4 0x010
def CORE_SPARSE_LOADS (n : Nat) : Nat := regAddr 1 n 4 0x014
def CORE_UNCHECKED_LOADS (n : Nat) : Nat := regAddr 1 n 4 0x018
def CORE_SPLIT_ROWS (n : Nat) : Nat := regAddr 1 n 4 0x01C
def CORE_PEELED_PASSES (n : Nat) : Nat := regAddr 1 n 4 0x020
def CORE_BWD_STATUS (n : Nat) : Nat := regAddr 1 n 5 0x000
def CORE_SCATTER_PASSES (n : Nat) : Nat := regAddr 1 n 5 0x004
def CORE_MO_TILES (n : Nat) : Nat := regAddr 1 n 5 0x008
def CORE_DENSE_GRAD_TILES (n : Nat) : Nat := regAddr 1 n 5 0x00C
def CORE_PEEL_LINK_PASSES (n : Nat) : Nat := regAddr 1 n 5 0x010
def CORE_TBUF_BRICKS (n : Nat) : Nat := regAddr 1 n 5 0x014
def CORE_TBUF_SLOW_ROWS (n : Nat) : Nat := regAddr 1 n 5 0x018
def CORE_STAT_PAIRS (n : Nat) : Nat := regAddr 1 n 5 0x01C
def CORE_STAT_NONFINITE (n : Nat) : Nat := regAddr 1 n 5 0x020
def CORE_LOOP_STATUS (n : Nat) : Nat := regAddr 1 n 6 0x000
def CORE_LOOP_INDEX (n i : Nat) : Nat := regAddr 1 n 6 (0x004 + 4 * i)
def CORE_ZERO_SHAPE_SEGMENTS (n : Nat) : Nat := regAddr 1 n 6 0x01C
def CORE_SKIPPED_POINTS (n : Nat) : Nat := regAddr 1 n 6 0x020
def CORE_EDGE_TILES (n : Nat) : Nat := regAddr 1 n 6 0x024
def CORE_ROW_PASSES (n : Nat) : Nat := regAddr 1 n 6 0x028
def CORE_FETCHES_ISSUED (n : Nat) : Nat := regAddr 1 n 6 0x02C
def CORE_OUT_TILES (n : Nat) : Nat := regAddr 1 n 6 0x030
def CORE_BANK_CONFLICTS (n : Nat) : Nat := regAddr 1 n 7 0x000
def CORE_CONFLICT_BANK (n : Nat) : Nat := regAddr 1 n 7 0x004
def CORE_RMW_WORDS (n : Nat) : Nat := regAddr 1 n 7 0x008
def CORE_FULL_BLOCK_WRITES (n : Nat) : Nat := regAddr 1 n 7 0x00C
def CORE_MISALIGNED_PASSES (n : Nat) : Nat := regAddr 1 n 7 0x010
def CORE_ELASTIC_PROMOTIONS (n : Nat) : Nat := regAddr 1 n 7 0x014
def CORE_FAR_ACCESSES (n : Nat) : Nat := regAddr 1 n 7 0x018
def CORE_SCRATCH_PARITY (n : Nat) : Nat := regAddr 1 n 8 0x000
def CORE_VAT_PARITY (n : Nat) : Nat := regAddr 1 n 8 0x004
def CORE_TBUF_PARITY (n : Nat) : Nat := regAddr 1 n 8 0x008
def CORE_CHECK_STORE_PARITY (n : Nat) : Nat := regAddr 1 n 8 0x00C
def CORE_STAT_PARITY (n : Nat) : Nat := regAddr 1 n 8 0x010
def CORE_ENTRY_PARITY (n : Nat) : Nat := regAddr 1 n 8 0x014
def CORE_LAST_PARITY (n : Nat) : Nat := regAddr 1 n 8 0x018
def CORE_FLIP_SELECT (n : Nat) : Nat := regAddr 1 n 8 0x01C
def QUARTER_NOC_STATUS (n : Nat) : Nat := regAddr 2 n 1 0x000
def QUARTER_NOC_BLOCKS_SENT (n : Nat) : Nat := regAddr 2 n 1 0x004
def QUARTER_NOC_CRC_RESENDS (n : Nat) : Nat := regAddr 2 n 1 0x008
def QUARTER_NOC_LATE_BLOCKS (n : Nat) : Nat := regAddr 2 n 1 0x00C
def QUARTER_NOC_RETRY_FULL (n : Nat) : Nat := regAddr 2 n 1 0x010
def MSC_PF_CONFIG (n : Nat) : Nat := regAddr 3 n 1 0x000
def MSC_HITS (n : Nat) : Nat := regAddr 3 n 1 0x004
def MSC_MISSES (n : Nat) : Nat := regAddr 3 n 1 0x008
def MSC_PF_ISSUED (n : Nat) : Nat := regAddr 3 n 1 0x00C
def MSC_PF_USED (n : Nat) : Nat := regAddr 3 n 1 0x010
def MSC_CORRECTED (n : Nat) : Nat := regAddr 3 n 1 0x014
def MSC_REFETCHES (n : Nat) : Nat := regAddr 3 n 1 0x018
def MSC_INVALIDATIONS (n : Nat) : Nat := regAddr 3 n 1 0x01C
def MSC_FLIP_SELECT (n : Nat) : Nat := regAddr 3 n 1 0x020
def HBM_HBM_STATUS (n : Nat) : Nat := regAddr 4 n 1 0x000
def HBM_CORRECTED (n : Nat) : Nat := regAddr 4 n 1 0x004
def HBM_UNCORRECTABLE (n : Nat) : Nat := regAddr 4 n 1 0x008
def HBM_CE_ADDR_LO (n : Nat) : Nat := regAddr 4 n 1 0x00C
def HBM_CE_ADDR_HI (n : Nat) : Nat := regAddr 4 n 1 0x010
def HBM_UE_ADDR_LO (n : Nat) : Nat := regAddr 4 n 1 0x014
def HBM_UE_ADDR_HI (n : Nat) : Nat := regAddr 4 n 1 0x018
def HBM_RMW_UNITS (n : Nat) : Nat := regAddr 4 n 1 0x01C
def HBM_CHURN_CONFIG (n : Nat) : Nat := regAddr 4 n 1 0x020
def HBM_CHURN_POS_LO (n : Nat) : Nat := regAddr 4 n 1 0x024
def HBM_CHURN_POS_HI (n : Nat) : Nat := regAddr 4 n 1 0x028
def HBM_CHURN_PASSES (n : Nat) : Nat := regAddr 4 n 1 0x02C
def HBM_CHURN_LAST_PASS (n : Nat) : Nat := regAddr 4 n 1 0x030
def HBM_CHURN_LAG (n : Nat) : Nat := regAddr 4 n 1 0x034
def HBM_WC_COMPARED (n : Nat) : Nat := regAddr 4 n 1 0x038
def HBM_WC_SKIPPED (n : Nat) : Nat := regAddr 4 n 1 0x03C
def HBM_WC_DIVERGENCES (n : Nat) : Nat := regAddr 4 n 1 0x040
def HBM_FLIP_SELECT (n : Nat) : Nat := regAddr 4 n 1 0x044
def HBM_CODE_REGION (n i : Nat) : Nat := regAddr 4 n 2 (0x000 + 4 * i)
def UPD_UPD_STATUS (n : Nat) : Nat := regAddr 5 n 1 0x000
def UPD_UPD_CONFIG (n : Nat) : Nat := regAddr 5 n 1 0x004
def UPD_CMD_WINDOW_LO (n : Nat) : Nat := regAddr 5 n 1 0x008
def UPD_CMD_WINDOW_HI (n : Nat) : Nat := regAddr 5 n 1 0x00C
def UPD_COMMANDS (n : Nat) : Nat := regAddr 5 n 1 0x010
def UPD_SLOTS_UPDATED (n : Nat) : Nat := regAddr 5 n 1 0x014
def UPD_REPLAYS_SKIPPED (n : Nat) : Nat := regAddr 5 n 1 0x018
def UPD_COMPLETIONS (n : Nat) : Nat := regAddr 5 n 1 0x01C
def UPD_DISCARDED_GRADS (n : Nat) : Nat := regAddr 5 n 1 0x020
def UPD_NONFINITE_GRADS (n : Nat) : Nat := regAddr 5 n 1 0x024
def UPD_NONFINITE_MOMENTS (n : Nat) : Nat := regAddr 5 n 1 0x028
def UPD_NONFINITE_MASTERS (n : Nat) : Nat := regAddr 5 n 1 0x02C
def UPD_LARGE_STEPS (n : Nat) : Nat := regAddr 5 n 1 0x030
def UPD_MX_CLAMPS (n : Nat) : Nat := regAddr 5 n 1 0x034
def UPD_RESIDUE_FAULTS (n : Nat) : Nat := regAddr 5 n 1 0x038
def UPD_RNG_FAULTS (n : Nat) : Nat := regAddr 5 n 1 0x03C
def UPD_BATCH_RETRIES (n : Nat) : Nat := regAddr 5 n 1 0x040
def UPD_MIRRORS (n : Nat) : Nat := regAddr 5 n 1 0x044
def UPD_MIRROR_TIMEOUTS (n : Nat) : Nat := regAddr 5 n 1 0x048
def UPD_CMD_WORD (n i : Nat) : Nat := regAddr 5 n 2 (0x000 + 4 * i)
def UPD_CMD_SUBMIT (n : Nat) : Nat := regAddr 5 n 2 0x040
def UPD_CMD_STATUS (n : Nat) : Nat := regAddr 5 n 2 0x044
def UPD_CMD_FAULT_ADDR (n : Nat) : Nat := regAddr 5 n 2 0x048
def UPD_HP_CONTROL : Nat := regAddr 5 0 3 0x000
def UPD_HP_LATCHES : Nat := regAddr 5 0 3 0x004
def UPD_SNAP_REQUEST : Nat := regAddr 5 0 3 0x008
def UPD_SNAP_STATUS : Nat := regAddr 5 0 3 0x00C
def UPD_SNAP_DEST_LO : Nat := regAddr 5 0 3 0x010
def UPD_SNAP_DEST_HI : Nat := regAddr 5 0 3 0x014
def UPD_HP_NEXT (i : Nat) : Nat := regAddr 5 0 3 (0x040 + 4 * i)
def UPD_HP_ACTIVE (i : Nat) : Nat := regAddr 5 0 3 (0x080 + 4 * i)
def SEP_SEP_STATUS (n : Nat) : Nat := regAddr 6 n 1 0x000
def SEP_SEP_CONFIG (n : Nat) : Nat := regAddr 6 n 1 0x004
def SEP_CMD_WINDOW_LO (n : Nat) : Nat := regAddr 6 n 1 0x008
def SEP_CMD_WINDOW_HI (n : Nat) : Nat := regAddr 6 n 1 0x00C
def SEP_INTAKE_BASE_LO (n : Nat) : Nat := regAddr 6 n 1 0x010
def SEP_INTAKE_BASE_HI (n : Nat) : Nat := regAddr 6 n 1 0x014
def SEP_COMMANDS (n : Nat) : Nat := regAddr 6 n 1 0x018
def SEP_GROUPS (n : Nat) : Nat := regAddr 6 n 1 0x01C
def SEP_SWAPS (n : Nat) : Nat := regAddr 6 n 1 0x020
def SEP_FILLS (n : Nat) : Nat := regAddr 6 n 1 0x024
def SEP_PRUNE_DROPS (n : Nat) : Nat := regAddr 6 n 1 0x028
def SEP_MASK_DROPS (n : Nat) : Nat := regAddr 6 n 1 0x02C
def SEP_CANDIDATE_GROUPS (n : Nat) : Nat := regAddr 6 n 1 0x030
def SEP_STRAY_CANDIDATES (n : Nat) : Nat := regAddr 6 n 1 0x034
def SEP_INTAKE_HOLDS (n : Nat) : Nat := regAddr 6 n 1 0x038
def SEP_NO_CANDIDATE_CMDS (n : Nat) : Nat := regAddr 6 n 1 0x03C
def SEP_TRUNCATED (n : Nat) : Nat := regAddr 6 n 1 0x040
def SEP_CHECK_FAILS (n : Nat) : Nat := regAddr 6 n 1 0x044
def SEP_AUDIT_FAILS (n : Nat) : Nat := regAddr 6 n 1 0x048
def SEP_CMD_WORD (n i : Nat) : Nat := regAddr 6 n 2 (0x000 + 4 * i)
def SEP_CMD_SUBMIT (n : Nat) : Nat := regAddr 6 n 2 0x040
def SEP_CMD_STATUS (n : Nat) : Nat := regAddr 6 n 2 0x044
def SEP_CMD_FAULT_ADDR (n : Nat) : Nat := regAddr 6 n 2 0x048
def PORT_PORT_STATUS (n : Nat) : Nat := regAddr 7 n 1 0x000
def PORT_PORT_CONFIG (n : Nat) : Nat := regAddr 7 n 1 0x004
def PORT_FEC_CORRECTED (n : Nat) : Nat := regAddr 7 n 1 0x008
def PORT_FEC_UNCORRECTED (n : Nat) : Nat := regAddr 7 n 1 0x00C
def PORT_FRAMES_TX (n : Nat) : Nat := regAddr 7 n 1 0x010
def PORT_FRAMES_RX (n : Nat) : Nat := regAddr 7 n 1 0x014
def PORT_FRAMES_DISCARDED (n : Nat) : Nat := regAddr 7 n 1 0x018
def PORT_ICV_FAILS (n : Nat) : Nat := regAddr 7 n 1 0x01C
def PORT_REPLAY_DROPS (n : Nat) : Nat := regAddr 7 n 1 0x020
def PORT_PAUSE_IGNORED (n : Nat) : Nat := regAddr 7 n 1 0x024
def PORT_SCHED_FRAMES (n : Nat) : Nat := regAddr 7 n 1 0x028
def PORT_LATE_BLOCKS (n : Nat) : Nat := regAddr 7 n 1 0x02C
def PORT_PTP_EGRESS_ADJ (n : Nat) : Nat := regAddr 7 n 1 0x030
def PORT_PTP_INGRESS_ADJ (n : Nat) : Nat := regAddr 7 n 1 0x034
def PORT_PTP_ASYMMETRY (n : Nat) : Nat := regAddr 7 n 1 0x038
def PORT_DOWN_EVENTS (n : Nat) : Nat := regAddr 7 n 1 0x03C
def FABRIC_FABRIC_STATUS (n : Nat) : Nat := regAddr 8 n 1 0x000
def FABRIC_MODULE_NUMBER (n : Nat) : Nat := regAddr 8 n 1 0x004
def FABRIC_UDP_PORT (n : Nat) : Nat := regAddr 8 n 1 0x008
def FABRIC_RETRY_CONFIG (n : Nat) : Nat := regAddr 8 n 1 0x00C
def FABRIC_CREDIT_CONFIG (n : Nat) : Nat := regAddr 8 n 1 0x010
def FABRIC_LINK_CONFIG (n : Nat) : Nat := regAddr 8 n 1 0x014
def FABRIC_PTP_CONFIG (n : Nat) : Nat := regAddr 8 n 1 0x018
def FABRIC_PTP_OFFSET (n : Nat) : Nat := regAddr 8 n 1 0x01C
def FABRIC_PEERS (n : Nat) : Nat := regAddr 8 n 1 0x020
def FABRIC_BLOCKS_SENT (n : Nat) : Nat := regAddr 8 n 1 0x024
def FABRIC_BLOCKS_RESENT (n : Nat) : Nat := regAddr 8 n 1 0x028
def FABRIC_SCHED_RESENDS (n : Nat) : Nat := regAddr 8 n 1 0x02C
def FABRIC_CRC_FAILS (n : Nat) : Nat := regAddr 8 n 1 0x030
def FABRIC_DUP_BLOCKS (n : Nat) : Nat := regAddr 8 n 1 0x034
def FABRIC_RETRY_FULL_CYCLES (n : Nat) : Nat := regAddr 8 n 1 0x038
def FABRIC_GRANTS_ISSUED (n : Nat) : Nat := regAddr 8 n 1 0x03C
def FABRIC_SATURATED_SLOTS (n : Nat) : Nat := regAddr 8 n 1 0x040
def FABRIC_UNREACHABLE_EVENTS (n : Nat) : Nat := regAddr 8 n 1 0x044
def FABRIC_SYSTEM_SIZE (n : Nat) : Nat := regAddr 8 n 1 0x048
def FABRIC_RED_STATUS (n : Nat) : Nat := regAddr 8 n 2 0x000
def FABRIC_RED_UNITS_WRITTEN (n : Nat) : Nat := regAddr 8 n 2 0x004
def FABRIC_RED_FULL_NAKS (n : Nat) : Nat := regAddr 8 n 2 0x008
def FABRIC_RED_HOLD_CYCLES (n : Nat) : Nat := regAddr 8 n 2 0x00C
def FABRIC_RED_NONFINITE (n : Nat) : Nat := regAddr 8 n 2 0x010
def FABRIC_RED_RESIDUE_FAULTS (n : Nat) : Nat := regAddr 8 n 2 0x014
def FABRIC_RED_ENTRIES (n : Nat) : Nat := regAddr 8 n 2 0x018
def LPDDR_LPDDR_STATUS (n : Nat) : Nat := regAddr 9 n 1 0x000
def LPDDR_LINK_CORRECTED (n : Nat) : Nat := regAddr 9 n 1 0x004
def LPDDR_LINK_RETRIES (n : Nat) : Nat := regAddr 9 n 1 0x008
def LPDDR_UNCORRECTABLE (n : Nat) : Nat := regAddr 9 n 1 0x00C
def LPDDR_UE_ADDR_LO (n : Nat) : Nat := regAddr 9 n 1 0x010
def LPDDR_UE_ADDR_HI (n : Nat) : Nat := regAddr 9 n 1 0x014
def LPDDR_PARTIAL_UNITS (n : Nat) : Nat := regAddr 9 n 1 0x018
def LPDDR_FLIP_SELECT (n : Nat) : Nat := regAddr 9 n 1 0x01C
def QMGR_QMGR_STATUS : Nat := regAddr 10 0 1 0x000
def QMGR_ATTN_NOW : Nat := regAddr 10 0 1 0x004
def QMGR_ATTN_CONDITIONS : Nat := regAddr 10 0 1 0x008
def QMGR_ATTN_ACK : Nat := regAddr 10 0 1 0x00C
def QMGR_LOG_OLDEST_SEQ : Nat := regAddr 10 0 1 0x010
def QMGR_LOG_NEXT_SEQ : Nat := regAddr 10 0 1 0x014
def QMGR_LOG_LOST : Nat := regAddr 10 0 1 0x018
def QMGR_CONTROL_MSGS : Nat := regAddr 10 0 1 0x01C
def QMGR_BUSY_REPLIES : Nat := regAddr 10 0 1 0x020
def QMGR_ADMIT_DISCARDS : Nat := regAddr 10 0 1 0x024
def QMGR_QUEUE_ERRORS : Nat := regAddr 10 0 1 0x028
def QMGR_SUBMISSIONS : Nat := regAddr 10 0 1 0x02C
def PHASE_PHASE_LO : Nat := regAddr 11 0 1 0x000
def PHASE_PHASE_HI : Nat := regAddr 11 0 1 0x004
def PHASE_LOCK_STATUS : Nat := regAddr 11 0 1 0x008
def PHASE_OFFSET : Nat := regAddr 11 0 1 0x00C
def PHASE_SYNC_CONFIG : Nat := regAddr 11 0 1 0x010
def PHASE_HOLDOVER_LIMIT : Nat := regAddr 11 0 1 0x014
def PHASE_EPOCH_LO : Nat := regAddr 11 0 1 0x018
def PHASE_EPOCH_HI : Nat := regAddr 11 0 1 0x01C
def PHASE_STEP_BASE_LO : Nat := regAddr 11 0 2 0x000
def PHASE_STEP_BASE_HI : Nat := regAddr 11 0 2 0x004
def PHASE_STEP_COUNT : Nat := regAddr 11 0 2 0x008
def PHASE_VARIANT_STATUS : Nat := regAddr 11 0 2 0x00C
def PHASE_VARIANT_REQUEST : Nat := regAddr 11 0 2 0x010
def PHASE_IDLE_INSERT : Nat := regAddr 11 0 2 0x014
def PHASE_RUN_CONTROL : Nat := regAddr 11 0 2 0x018
def PHASE_RESUME_STEP : Nat := regAddr 11 0 2 0x01C
def PHASE_RESUME_SLOT_LO : Nat := regAddr 11 0 2 0x020
def PHASE_RESUME_SLOT_HI : Nat := regAddr 11 0 2 0x024
def PHASE_SHAPE_CONTROL : Nat := regAddr 11 0 3 0x000
def PHASE_SHAPE_LATCHES : Nat := regAddr 11 0 3 0x004
def PHASE_SHAPE_NEXT (i : Nat) : Nat := regAddr 11 0 3 (0x040 + 4 * i)
def PHASE_SHAPE_ACTIVE (i : Nat) : Nat := regAddr 11 0 3 (0x080 + 4 * i)
def PHASE_SHAPE_MAX (i : Nat) : Nat := regAddr 11 0 3 (0x0C0 + 4 * i)
def SAFETY_SAFETY_STATUS : Nat := regAddr 12 0 1 0x000
def SAFETY_DETECT_SEQ : Nat := regAddr 12 0 1 0x004
def SAFETY_FIRST_CODE : Nat := regAddr 12 0 1 0x008
def SAFETY_FIRST_PHASE_LO : Nat := regAddr 12 0 1 0x00C
def SAFETY_FIRST_PHASE_HI : Nat := regAddr 12 0 1 0x010
def SAFETY_SUSPECT_FROM_LO : Nat := regAddr 12 0 1 0x014
def SAFETY_SUSPECT_FROM_HI : Nat := regAddr 12 0 1 0x018
def SAFETY_SUSPECT_TO_LO : Nat := regAddr 12 0 1 0x01C
def SAFETY_SUSPECT_TO_HI : Nat := regAddr 12 0 1 0x020
def SAFETY_SAFE_RELEASE : Nat := regAddr 12 0 1 0x024
def SAFETY_STOP_REQUEST : Nat := regAddr 12 0 1 0x028
def SAFETY_WATCH_CONFIG : Nat := regAddr 12 0 1 0x02C
def SAFETY_MILK_RUNS : Nat := regAddr 12 0 1 0x030
def SAFETY_MILK_FAILS : Nat := regAddr 12 0 1 0x034
def SAFETY_MILK_GAP_MAX : Nat := regAddr 12 0 1 0x038
def SAFETY_SCHED_STALLS : Nat := regAddr 12 0 1 0x03C
def SAFETY_HEARTBEATS_MISSED : Nat := regAddr 12 0 1 0x040
def SAFETY_PARLOUR_MISSED : Nat := regAddr 12 0 1 0x044
def SAFETY_BLOCK_TIME_MAX : Nat := regAddr 12 0 1 0x048
def SAFETY_SELFTESTS : Nat := regAddr 12 0 1 0x04C
def SAFETY_REPORT_TO (i : Nat) : Nat := regAddr 12 0 2 (0x000 + 4 * i)
def SAFETY_REPORT_CONFIG : Nat := regAddr 12 0 2 0x010
def SAFETY_REPORT_STATUS : Nat := regAddr 12 0 2 0x014
def SAFETY_REPORTS_SENT : Nat := regAddr 12 0 2 0x018
def SAFETY_REPORTS_ACKED : Nat := regAddr 12 0 2 0x01C
def POWER_POWER_STATUS : Nat := regAddr 13 0 1 0x000
def POWER_INPUT_MV : Nat := regAddr 13 0 1 0x004
def POWER_INPUT_MA : Nat := regAddr 13 0 1 0x008
def POWER_SLOT_POWER : Nat := regAddr 13 0 1 0x00C
def POWER_STEP_POWER : Nat := regAddr 13 0 1 0x010
def POWER_IDLE_POWER : Nat := regAddr 13 0 1 0x014
def POWER_CAP_CONFIG : Nat := regAddr 13 0 1 0x018
def POWER_CAP_IDLE : Nat := regAddr 13 0 1 0x01C
def POWER_TEMP_DIE : Nat := regAddr 13 0 1 0x020
def POWER_TEMP_COOLANT : Nat := regAddr 13 0 1 0x024
def POWER_THERMAL_CONFIG : Nat := regAddr 13 0 1 0x028
def POWER_SUPPLY_WARNINGS : Nat := regAddr 13 0 1 0x02C
def POWER_SUPPLY_RESUMES : Nat := regAddr 13 0 1 0x030
def POWER_HOLD_TICKS_LAST : Nat := regAddr 13 0 1 0x034
def POWER_HOLD_LIMIT : Nat := regAddr 13 0 1 0x038
def POWER_UNTRUSTED_RERUNS : Nat := regAddr 13 0 1 0x03C
def POWER_UNTRUSTED_BATCHES : Nat := regAddr 13 0 1 0x040
def POWER_DROOP_EVENTS : Nat := regAddr 13 0 1 0x044
def POWER_LAST_DROOP : Nat := regAddr 13 0 1 0x048
def POWER_RESET_CAUSE : Nat := regAddr 13 0 1 0x04C
def POWER_START_MS : Nat := regAddr 13 0 1 0x050
def POWER_RESTORE_CONTROL : Nat := regAddr 13 0 2 0x000
def POWER_RESTORE_SOURCE : Nat := regAddr 13 0 2 0x004
def POWER_RESTORE_STATUS : Nat := regAddr 13 0 2 0x008
def POWER_RESTORE_SHARDS : Nat := regAddr 13 0 2 0x00C
def POWER_RESTORE_FAILS : Nat := regAddr 13 0 2 0x010
def POWER_RESTORE_OLDEST_STEP : Nat := regAddr 13 0 2 0x014
def POWER_RESTORE_NEWEST_STEP : Nat := regAddr 13 0 2 0x018
def POWER_RESTORE_MIB : Nat := regAddr 13 0 2 0x01C
def CAL_CAL_STATUS : Nat := regAddr 14 0 1 0x000
def CAL_CAL_SELECT : Nat := regAddr 14 0 1 0x004
def CAL_CAL_FACTORY : Nat := regAddr 14 0 1 0x008
def CAL_CAL_OFF_MIN : Nat := regAddr 14 0 1 0x00C
def CAL_CAL_OFF_MAX : Nat := regAddr 14 0 1 0x010
def CAL_CAL_LIM_MIN : Nat := regAddr 14 0 1 0x014
def CAL_CAL_LIM_MAX : Nat := regAddr 14 0 1 0x018
def CAL_CAL_USER : Nat := regAddr 14 0 1 0x01C
def CAL_CAL_EFFECTIVE : Nat := regAddr 14 0 1 0x020
def CAL_USER_ID : Nat := regAddr 14 0 2 0x000
def CAL_USER_VALUE : Nat := regAddr 14 0 2 0x004
def CAL_USER_COMMAND : Nat := regAddr 14 0 2 0x008
def CAL_USER_COUNT : Nat := regAddr 14 0 2 0x00C
def BOOT_BOOT_STATUS : Nat := regAddr 15 0 1 0x000
def BOOT_ACTIVATE_AT_PHASE_LO : Nat := regAddr 15 0 1 0x004
def BOOT_ACTIVATE_AT_PHASE_HI : Nat := regAddr 15 0 1 0x008
def BOOT_ACTIVATE_CANCEL : Nat := regAddr 15 0 1 0x00C
def BOOT_IMAGE_SLOTS : Nat := regAddr 15 0 1 0x010
def BOOT_BOOT_COUNT : Nat := regAddr 15 0 1 0x014
def BOOT_SVN_FUSED : Nat := regAddr 15 0 1 0x018
def BOOT_SVN_COMMIT : Nat := regAddr 15 0 1 0x01C
def BOOT_BIND_STATUS : Nat := regAddr 15 0 1 0x020
def BOOT_SERIAL_LO : Nat := regAddr 15 0 1 0x024
def BOOT_SERIAL_HI : Nat := regAddr 15 0 1 0x028
def BOOT_TWIN_KEY_DIGEST (i : Nat) : Nat := regAddr 15 0 1 (0x040 + 4 * i)
def BOOT_STAGE_SRC_LO : Nat := regAddr 15 0 2 0x000
def BOOT_STAGE_SRC_HI : Nat := regAddr 15 0 2 0x004
def BOOT_STAGE_LENGTH : Nat := regAddr 15 0 2 0x008
def BOOT_STAGE_COMMAND : Nat := regAddr 15 0 2 0x00C
def BOOT_STAGE_STATUS : Nat := regAddr 15 0 2 0x010
def BOOT_BIND_TWIN : Nat := regAddr 15 0 2 0x014
def BOOT_BIND_COMMAND : Nat := regAddr 15 0 2 0x018
def BOOT_PARLOUR_STAGE_OFFSET : Nat := regAddr 15 0 2 0x01C
def BOOT_PARLOUR_COMMIT : Nat := regAddr 15 0 2 0x020
def BOOT_PARLOUR_ACTIVATE : Nat := regAddr 15 0 2 0x024
def BOOT_ANCHOR_DIGEST (i : Nat) : Nat := regAddr 15 0 2 (0x040 + 4 * i)
def BOOT_ANCHOR_COMMAND : Nat := regAddr 15 0 2 0x080
def BOOT_ANCHOR_STATUS : Nat := regAddr 15 0 2 0x084
def COPY_COPY_STATUS (n : Nat) : Nat := regAddr 16 n 1 0x000
def COPY_REQUESTS (n : Nat) : Nat := regAddr 16 n 1 0x004
def COPY_LINES_READ (n : Nat) : Nat := regAddr 16 n 1 0x008
def COPY_WORDS_WRITTEN (n : Nat) : Nat := regAddr 16 n 1 0x00C
def COPY_RANGE_MISSES (n : Nat) : Nat := regAddr 16 n 1 0x010
def COPY_TRANSPOSED_BYTES (n : Nat) : Nat := regAddr 16 n 1 0x014
def COPY_PENDING_WAIT_CYCLES (n : Nat) : Nat := regAddr 16 n 1 0x018
def COPY_MISALIGNED_REQUESTS (n : Nat) : Nat := regAddr 16 n 1 0x01C

end Reg

end Sys2Proof.Machine
end

