-- ==== Sys2Proof/Machine/State.lean ====
section
/-!
DEFINITION. The state of the Q64 as plain data: every register (the register file, or a field that a register shows),
every memory, queue, table, buffer, mode and pin the manual gives the module, the queue of waiting commands, and the
state right after reset: no supply applied, every register at its reset value.
-/

namespace Sys2Proof.Machine

/-- A sparse table: keys strictly rising. -/
abbrev Tab (α : Type) := List (Nat × α)

/-- A decoded number, exact: `fin m e` is m × 2^e (R59, R61, R80); a negative zero only as an FP32 or BF16 lane. -/
inductive Num where
  | fin (m : Int) (e : Int)
  | negZero
  | inf (neg : Bool)
  | nan
deriving DecidableEq, Repr, Inhabited

/-! ### The plan (chapter 17), as PLAN_LOAD read it -/

/-- Table 02.1, a schedule entry. -/
structure Entry where
  startSlot  : Nat
  cls        : Nat
  waitWindow : Nat
  descIndex  : Nat
  waitMask   : DWord
  signalEn   : Bool
  signalCore : Nat
  signalTok  : Nat
  slack      : Nat
deriving DecidableEq, Repr, Inhabited

/-- Five words of Table 08.1: one level of the nest. -/
structure Level where
  order     : Nat
  tag       : Nat
  bound     : Nat
  strideA   : Int
  strideW   : Int
  strideOut : Int
  strideAux : Int
deriving DecidableEq, Repr, Inhabited

/-- Words 0 to 2 and 7 of Table 08.1: modes, formats, routes. -/
structure DescModes where
  rowFn      : Nat
  rowStat    : Nat
  statOnly   : Bool
  peeled     : Bool
  budget     : Nat
  unchecked  : Bool
  act        : Nat
  drainFunc  : Nat
  stochastic : Bool
  gradStream : Bool
  transpose  : Nat
  fixedAnchor : Bool
  windowed   : Bool
  mode       : Nat
  tileRows   : Nat
  outFormat  : Nat
  auxFormat  : Nat
  wFormat    : Nat
  aFormat    : Nat
  anchorFixed : Int
  margin     : Int
  tiles      : Nat
  outToken   : Nat
  outFq      : Nat
  outGang    : Nat
  outCore    : Nat
  outRoute   : Nat
deriving DecidableEq, Repr, Inhabited

/-- Words 14 to 30 of Table 08.1: addresses and constants. -/
structure DescAddrs where
  drainConst : Word
  statEps    : Word
  groupPitch : Nat
  statSpan   : Nat
  aBase      : Nat
  valueBase  : Nat
  bitmapBase : Nat
  scaleBase  : Nat
  outBase    : Nat
  auxBase    : Nat
  outRemote  : DWord
  summaryA   : Nat
  summaryW   : Nat
  summaryOut : Nat
  scatterPeel : Nat
  statOut    : Nat
  statAux    : Nat
  fetchList  : Nat
  fetchCount : Nat
  outCol0    : Nat
deriving DecidableEq, Repr, Inhabited

/-- Table 08.1, a loop-nest descriptor. -/
structure Desc where
  modes  : DescModes
  addrs  : DescAddrs
  /-- EXT, SHAPE_VAR, SHAPE_OFF of M, N, K -/
  ext      : Nat × Nat × Nat
  shapeVar : Nat × Nat × Nat
  shapeOff : Nat × Nat × Nat
  levels   : List Level
  /-- some reserved field is not zero (R222) -/
  reservedSet : Bool
deriving DecidableEq, Repr, Inhabited

/-- Table 09.6, a fetch-list entry. -/
structure FetchEntry where
  kind      : Nat
  dir       : Nat
  fq        : Nat
  token     : Nat
  shapeVar  : Nat
  zeroFill  : Bool
  elem      : Nat
  sp        : Nat
  ext       : DWord
  rowBytes  : Nat
  count     : Nat
  spPitch   : Int
  extPitch  : Nat
  list      : Nat
  tableRows : Nat
  shapeOff  : Nat
  pieces    : Nat
  piecePitch : Nat
  colBlocks : Nat
  reservedSet : Bool
deriving DecidableEq, Repr, Inhabited

/-- Table 10.3, a region. -/
structure Region where
  space     : Nat
  role      : Nat
  code      : Nat
  owned     : Bool
  peeled    : Bool
  noOrigin  : Bool
  fullBlock : Bool
  kept      : Bool
  base      : DWord
  size      : Nat
  origin    : Nat
  format    : Nat
  budget    : Nat
  shard     : Nat
  liveFirst : Nat
  liveLast  : Nat
  reservedSet : Bool
deriving DecidableEq, Repr, Inhabited

/-- Table 17.9, a variant. -/
structure Variant where
  number    : Nat
  rung      : Nat
  planes    : Nat
  stepSlots : Nat
  firstStep : Nat
  planeMap  : List Byte
deriving DecidableEq, Repr, Inhabited

/-- Table 11.2, a rule. -/
structure Rule where
  kind     : Nat
  moments  : Nat
  biasCorr : Bool
  nesterov : Bool
  lrHp     : Nat
  wdHp     : Nat
  beta1    : Word
  beta2    : Word
  eps      : Word
  gradScale : Word
  dirScale : Word
  empty    : Bool
  reservedSet : Bool
deriving DecidableEq, Repr, Inhabited

/-- Table 12.8, a reduction table entry. -/
structure RedEntry where
  op        : Nat
  engine    : Nat
  expect    : Nat
  signalEn  : Bool
  signalCore : Nat
  signalTok : Nat
  dest      : DWord
  length    : Nat
  hold      : Bool
  stack     : Nat
  shard     : Nat
  reservedSet : Bool
deriving DecidableEq, Repr, Inhabited

/-- Table 17.11 and its journal words. -/
structure ShardRec where
  stack : Nat
  shard : Nat
  words : List Word
deriving DecidableEq, Repr, Inhabited

/-- Table 17.12, a milk-run kernel. -/
structure MilkRec where
  core   : Nat
  order  : Nat
  desc   : Nat
  region : Nat
  signature : DWord
deriving DecidableEq, Repr, Inhabited

/-- Table 17.13, the completion segments of a DIRECTION shard. -/
structure CompletionRec where
  stack : Nat
  shard : Nat
  pairs : List (Nat × Nat)
deriving DecidableEq, Repr, Inhabited

/-- Table 17.16, a mirror place. -/
structure Place where
  owner : Nat
  stack : Nat
  shard : Nat
  gen0  : DWord
  gen1  : DWord
  bytes : Nat
deriving DecidableEq, Repr, Inhabited

/-- Table 17.15, a PRELOAD run. -/
structure Preload where
  space : Nat
  addr  : DWord
  data  : List Byte
deriving DecidableEq, Repr, Inhabited

/-- The module's part of a plan after relocation (R489 to R498, R521, R522). -/
structure Plan where
  moduleIndex   : Nat
  systemModules : Nat
  portRates     : Nat
  planeSet      : Nat
  lowEscape     : Word
  metaDrop      : Word
  systemDigest  : BitVec 512
  planDigest    : BitVec 512
  relocDigest   : BitVec 512
  shapeMax      : List Nat
  hpInit        : List Word
  variants      : List Variant
  /-- the table of core c in variant v at key 64v + c -/
  schedules     : Tab (List Entry)
  /-- the descriptor of index i on core c at key 1,024c + i -/
  descs         : Tab Desc
  herds         : List Nat
  gangs         : Tab (List Nat)
  /-- the code region word of region i of stack s at key 64s + i -/
  codeMap       : Tab Word
  regions       : List Region
  shards        : List ShardRec
  rules         : List Rule
  milkRuns      : List MilkRec
  completions   : List CompletionRec
  twinIndex     : Option Nat
  places        : List Place
  /-- the entry of index e of variant v at key 4,096v + e -/
  reductions    : Tab RedEntry
  peers         : List Nat
  exportMap     : List Byte
  preload       : List Preload
  moduleMap     : List Nat
deriving DecidableEq, Repr, Inhabited

/-! ### Cores -/

/-- A walk point of a segment (R204, R205) that is not skipped. -/
structure Pt where
  idx  : List Nat
  xM   : Nat
  xN   : Nat
  xK   : Nat
  /-- sequence number of its tile, of its resident pass -/
  tile : Nat
  pass : Nat
  /-- last reduction step of its tile -/
  last : Bool
  /-- a linked peeled pass (R178) over position range `peelAt` -/
  peel : Bool
  peelAt : Nat
deriving DecidableEq, Repr, Inhabited

/-- A live slot of a resident column: dense position in the pass, slot number in the column, value with its scale. -/
structure Slot where
  pos : Nat
  row : Nat
  val : Num
deriving DecidableEq, Repr, Inhabited

/-- A loaded resident operand (R88): the live slots of each array column. -/
structure Resident where
  pass : Nat
  cols : List (List Slot)
deriving DecidableEq, Repr, Inhabited

/-- A Vat entry (R90, R92, R99): a windowed entry is held sign-extended. Tag: 0 finite, 1 +inf, 2 -inf, 3 NaN. -/
structure VatEntry where
  bits : BitVec 640
  tag  : BitVec 2
deriving DecidableEq, Repr, Inhabited

/-- A tile in progress (R206). -/
structure Tile where
  seq    : Nat
  slot   : Nat
  pt     : Pt
  anchor : Int
  /-- the 48-bit term counter of R91 -/
  terms  : Nat
  rows   : Nat
  cols   : Nat
  /-- positions of K inside the extent, for scatter and masked outer -/
  kValid : Nat
  done   : Bool
  /-- next Vat row to drain -/
  drained : Nat
  /-- rows or groups in which a product escaped (R108, R179, R186) -/
  escaped : List Nat
  /-- summary byte so far (R95) -/
  summary : Nat
  /-- bytes drained under OUT_ROUTE 3, waiting for the tile's request (R217): address, value, mask -/
  out    : List (Nat × Byte × Byte)
  /-- rows of a masked-outer tile that the transposing buffer still gathers (R183) -/
  band   : List (Nat × Byte × Byte)
  /-- layout blocks (scratchpad keys div 512) it has written whole (R242) -/
  whole  : List Nat
deriving DecidableEq, Repr, Inhabited

inductive SegStatus where
  | running
  | reloading
  | walked
deriving DecidableEq, Repr, Inhabited

/-- A running segment. -/
structure Seg where
  id       : Nat
  /-- schedule entry index; none for the initial milk run and completion segments (R418, R308) -/
  entry    : Option Nat
  ent      : Entry
  descIx   : Nat
  desc     : Desc
  /-- milk run: the expected signature (R417) -/
  milk     : Option DWord
  /-- completion segment of this stack (R308) -/
  completes : Option Nat
  planned  : Nat
  released : Nat
  /-- slip in core cycles (R45) -/
  slip     : Nat
  attempt  : Nat
  /-- cycle at which the attempt started, and the slip then -/
  attemptAt : Nat
  slipAt   : Nat
  /-- errors detected in it so far, for the Pail (R277) -/
  hits     : Nat
  status   : SegStatus
  untrusted : Bool
  zeroOut  : Bool
  zeroShape : Bool
  todo     : List Pt
  row      : Nat
  active   : Option Resident
  shadow   : Option Resident
  activeSet : Nat
  tiles    : List Tile
  /-- Vat rows that are not fresh, each the entries of its columns from 0 -/
  vat      : Tab (List VatEntry)
  /-- entries with wrong parity: Vat row × 256 + column -/
  badVat   : List Nat
  /-- the vector tables read at release (R239) -/
  auxVec   : List Nat
  statVec  : List Nat
  /-- cycle from which the array waits to swap or for Vat rows (R88, R103) -/
  dueAt    : Option Nat
  /-- check store: exact sums in units of 2^-288 (R107, R179, R186) -/
  check    : Tab Int
  /-- statistics store: the working words of each pair (R192) -/
  stats    : Tab (List Word)
  signature : DWord
  sigTail  : List Byte
  /-- the word each operand's port keeps from its last run (R230): its `cells` key div 32, by operand -/
  kept     : Tab Nat
deriving DecidableEq, Repr, Inhabited

/-- A completion token (R37). -/
structure Token where
  issued  : Nat
  done    : Nat
  lastSeg : Nat
deriving DecidableEq, Repr, Inhabited

/-- A core's sequencer. -/
structure Core where
  /-- next entry of the current step's table to release; entries released this step -/
  entry    : Nat
  atBoundary : Bool
  seg      : Option Seg
  segCount : Nat
  tokens   : Tab Token
  signals  : DWord
  herd     : Nat
  stopped  : Bool
  /-- stall causes in force with their start cycle -/
  causes   : List (StallCause × Nat)
  milkLast : Option Nat
  milkDue  : Bool
  /-- entries discarded for their parity and being read again (R277) -/
  refetch  : Nat
deriving DecidableEq, Repr, Inhabited

/-- A freeze interval of a herd (R43, R44): from cycle, and to cycle once the cause has cleared. -/
structure Freeze where
  core  : Nat
  start : Nat
  stop  : Option Nat
deriving DecidableEq, Repr, Inhabited

structure Herd where
  frozen    : Bool
  intervals : List Freeze
deriving DecidableEq, Repr, Inhabited

inductive ReqWhat where
  | fetch (e : FetchEntry) (at_ : Nat)
  | tile (bytes : List (Nat × Byte × Byte)) (addr : DWord)
deriving DecidableEq, Repr, Inhabited

/-- A fetch-queue request outstanding (R37, R40, R249). -/
structure Req where
  id      : Nat
  core    : Nat
  fq      : Nat
  token   : Option Nat
  seg     : Nat
  entry   : Nat
  desc    : Nat
  what    : ReqWhat
  /-- effective count (R245) -/
  count   : Nat
  engine  : Nat
  issuedAt : Nat
  /-- the slot the plan gives it, that of its entry (R352) -/
  slot    : Nat
  started : Bool
  /-- bytes or blocks still to come from another endpoint, a command window or an engine -/
  waiting : Bool
  /-- pending layout blocks it set (R250): scratchpad keys div 512 -/
  blocks  : List Nat
deriving DecidableEq, Repr, Inhabited

/-! ### Base dies -/

/-- Where a base-die command came from. -/
inductive CmdFrom where
  | host
  /-- the Steward's own work: a restore (R454) -/
  | steward
  | seg (core entry desc : Nat) (request : Nat)
deriving DecidableEq, Repr, Inhabited

structure BaseCmd where
  words : List Word
  src   : CmdFrom
deriving DecidableEq, Repr, Inhabited

/-- A Separator command in progress (R141). -/
structure SepRun where
  cmd     : BaseCmd
  opcode  : Nat
  /-- next group -/
  group   : Nat
  firstDrop : Option Nat
  /-- the collection slot it named was open and bound -/
  hasCand : Bool
  waiting : Bool
  /-- its last batch was written in a supply hold: none more until the resume (R159) -/
  held : Bool
deriving DecidableEq, Repr, Inhabited

/-- A collection slot (R150). -/
structure CollSlot where
  shard  : Nat
  rows   : Nat
  k      : Nat
  pitch  : Nat
  bitmap : Nat
  cand   : Nat
  /-- a dense-gradient step has delivered to it (R162) -/
  delivered : Bool
deriving DecidableEq, Repr, Inhabited

structure SepUnit where
  queue : List BaseCmd
  cur   : Option SepRun
  slots : Tab CollSlot
  /-- intake writes held during a supply warning: window offset, data (R159); those beyond the first 256 KiB are held in the
  fabric (R151) -/
  held  : List (Nat × List Byte)
deriving DecidableEq, Repr, Inhabited

inductive UpdPass where
  | moments
  | master
  | working
  /-- an EXPORT record on its way, an IMPORT record asked for, when it lies in another endpoint -/
  | sending
  | fetching
deriving DecidableEq, Repr, Inhabited

/-- An update engine's command in progress (R292). -/
structure UpdRun where
  cmd   : BaseCmd
  shard : Nat
  pass  : UpdPass
  batch : Nat
  /-- retries of each batch, by number (R306) -/
  retries : Tab Nat
  /-- summary byte so far (R301) -/
  summary : Nat
  /-- a completion pass (R308), and the commands that end with the mirror it supersedes -/
  completing : Bool
  upds    : List BaseCmd
  /-- a batch written after a supply warning is to be computed again (R447) -/
  redo  : Bool
  /-- the plan stopped: the journal phase in progress is finished and no new one begun (R51) -/
  ending : Bool
deriving DecidableEq, Repr, Inhabited

/-- What a batch's prior slots in the undo region belong to (R158, R305): the runs of bytes it overwrites, as space-0
offsets with lengths; their prior bytes stand in the region one after another (log entry 28). -/
structure Undo where
  shard : Nat
  batch : Nat
  runs  : List (Nat × Nat)
deriving DecidableEq, Repr, Inhabited

structure UpdUnit where
  queue : List BaseCmd
  cur   : Option UpdRun
  undo  : Option Undo
  sepUndo : Option Undo
  /-- the shard of a Separator command that a safety stop ended, whose batch is still to be restored (R158, R409) -/
  sepOwed : Option Nat
  /-- the interrupted command kept for the completion pass (R308), by shard -/
  kept  : Tab BaseCmd
  /-- the shards whose working copy is written in part, or not yet acknowledged by the cache: reads of it are held (R23) -/
  holding : List Nat
  /-- completion segments still to run: shard, pairs of core and descriptor (R308) -/
  pairs : Option (Nat × List (Nat × Nat))
  /-- the rule entry a command last named for a shard (Table 11.6) -/
  ruleOf : Tab Nat
  /-- shards whose working pass has written its last bytes and waits for the cache's acknowledgement (R271) -/
  acking : List Nat
deriving DecidableEq, Repr, Inhabited

/-- A mirror sent and not yet acknowledged (R313): the epoch and STEP of its image, and the commands that end with it:
update commands, and whether the Separator's command in progress is one. -/
structure Mirror where
  stack  : Nat
  shard  : Nat
  epoch  : DWord
  step   : Nat
  sentSlot : Nat
  upds   : List BaseCmd
  sep    : Bool
  /-- sent by a completion pass of the present start (R308) -/
  completing : Bool
deriving DecidableEq, Repr, Inhabited

/-! ### Fabric -/

/-- A joined peer on one plane (R343). -/
structure Peer where
  num    : Nat
  host   : Bool
  plane  : Nat
  gen    : Nat
  key    : BitVec 512
  /-- the peer's address on the plane, MAC and SSCI of each of its ports there (R343, R344) -/
  addr   : BitVec 128
  macs   : List (BitVec 48)
  sscis  : List Word
  /-- association key in use, and the key before it while it is still held (R343, R344) -/
  assoc  : BitVec 256
  oldKey : Option (BitVec 256)
  /-- under the key in use: packets that each port of this module has sent, by port; the highest packet number received
  from each port of the peer; and that under the key before -/
  sent   : Tab Nat
  seen   : Tab Nat
  oldSeen : Tab Nat
  /-- the SYSTEM_DIGEST and RELOC digest it sent last (R500) -/
  digests : Option (BitVec 512 × BitVec 512)
  unreachable : Bool
deriving DecidableEq, Repr, Inhabited

/-- What a block carries, with the header fields that place it. -/
structure Cargo where
  hdr  : Hdr
  data : List Byte
deriving DecidableEq, Repr, Inhabited

/-- The receiving side of a flow (R336, R337). -/
structure RxFlow where
  id       : FlowId
  expect   : Word
  held     : List (Word × Cargo)
  unacked  : Nat
  sinceAck : Nat
  gapSince : Option Nat
  /-- accepted blocks of a control message whose last block has not come -/
  partial_ : List Byte
deriving DecidableEq, Repr, Inhabited

/-- A block in the retry store (R338). -/
structure TxBlock where
  cargo   : Cargo
  sentAt  : Nat
  resends : Nat
  sent    : Bool
  /-- due to be sent again -/
  again   : Bool
  /-- refused with BUSY (R364): its next resend does not count -/
  busy    : Bool
deriving DecidableEq, Repr, Inhabited

structure TxFlow where
  id     : FlowId
  next   : Word
  blocks : List TxBlock
deriving DecidableEq, Repr, Inhabited

/-- Credits between this module and a peer on one plane (R355, R356). -/
structure Credit where
  peer  : Nat
  host  : Bool
  plane : Nat
  /-- credits this module holds from the peer -/
  held  : Nat
  /-- credits this module has granted the peer and not got back -/
  granted : Nat
  /-- the peer's request entry is set, since this slot -/
  wants : Option Nat
  /-- the cycle of this module's last CREDIT_REQ that no grant has answered -/
  asked : Option Nat
deriving DecidableEq, Repr, Inhabited

structure PortState where
  linkUp   : Bool
  fecLock  : Bool
  macsecUp : Bool
  downAt   : Option Nat
  admitted : Nat
deriving DecidableEq, Repr, Inhabited

/-- An accumulation line (R359, R360, R363). -/
structure RedLine where
  entry   : Nat
  unit    : Nat
  count   : Nat
  sums    : List Int
  tags    : List Nat
  residue : Nat
  full    : Bool
deriving DecidableEq, Repr, Inhabited

/-- An entry's current step and its done units (R362). Key: 4,096 × variant + entry. -/
structure RedState where
  step : Nat
  done : List Nat
deriving DecidableEq, Repr, Inhabited

/-- What a READ, GATHER or remote write of this module is for. -/
inductive RemoteUse where
  /-- a fetch-queue request; READ_DATA goes to (offset in the result, scratchpad key, length) -/
  | fetch (req : Nat) (dest : List (Nat × Nat × Nat))
  | export_ (stack : Nat)
  /-- an IMPORT's header, its payload -/
  | import_ (stack : Nat) (payload : Bool)
  /-- both headers of a shard's place, the part from an offset on of an image of generation g (R454, R455) -/
  | headers (stack shard : Nat) (g : Nat)
  | image (stack shard : Nat) (g off : Nat)
  | ship (stack shard : Nat)
  | mirror (stack shard : Nat)
deriving DecidableEq, Repr, Inhabited

/-- A request of this module that another endpoint has not answered in full: bytes still to come, and those that came,
by offset; for a write, none. -/
structure RemoteReq where
  tag  : Word
  peer : Nat
  host : Bool
  addr : DWord
  left : Nat
  use  : RemoteUse
  got  : List (Nat × List Byte)
deriving DecidableEq, Repr, Inhabited

structure Fabric where
  ports    : Tab PortState
  peers    : List Peer
  rx       : List RxFlow
  tx       : List TxFlow
  credits  : List Credit
  /-- credits free in each chiplet's pool of 1,024 -/
  pool     : Tab Nat
  satRun   : Tab Nat
  saturated : Tab Bool
  remote   : List RemoteReq
  nextTag  : Word
  /-- earliest detection slot known for each failed plane (R367), and planes out of use -/
  planeLost : Tab Nat
  joinWait : List (Nat × Bool × Nat × Nat × Nat)
  redLines : List RedLine
  redState : Tab RedState
  lastTwinAck : Nat
  /-- mirrored shards whose digest the twin owes for the last boundary: 4,096 × stack + shard, slot of the boundary -/
  digestDue : List (Nat × Nat)
  /-- digests that came before this module's boundary: the shard, the step they are for (R372) -/
  digestEarly : List (Nat × Nat)
  rekeying : List (Nat × Bool)
  /-- READ and GATHER requests of others that wait for a working copy to be written (R23, R347) -/
  heldReads : List (FlowId × Cargo)
  /-- join exchanges the Steward has not completed (R441) -/
  joining  : Nat
deriving DecidableEq, Repr, Inhabited

/-! ### Host control -/

/-- Table 13.9, a queue table entry, and the entries in progress. -/
structure QueuePair where
  enable : Bool
  error  : Bool
  cause  : Nat
  sqExp  : Nat
  cqExp  : Nat
  sqBase : Nat
  cqBase : Nat
  sqTail : Nat
  sqHead : Nat
  cqTail : Nat
  cqHead : Nat
  phase  : Bool
  busy   : List (Nat × List Word)
deriving DecidableEq, Repr, Inhabited

/-- Table 13.7, a record of the log. -/
structure LogRecord where
  kind  : Nat
  core  : Nat
  code  : Nat
  entry : Nat
  desc  : Nat
  loops : List Nat
  phase : DWord
  addr  : DWord
  step  : Word
  cls   : Nat
  inst  : Nat
  attempt : Nat
  first : Bool
  seq   : Nat
deriving DecidableEq, Repr, Inhabited

structure Control where
  log      : List LogRecord
  nextSeq  : Nat
  queues   : Tab QueuePair
  /-- RWL registers written since the last reset (Table 00.4) -/
  rwl      : List Nat
  /-- fresh draws taken from the free values of Config -/
  free     : Nat
  /-- attestation reports the Steward has not signed (R440) -/
  signing  : Nat
  /-- the queue each chiplet's engine served last (R399) -/
  turns    : Tab Nat
deriving DecidableEq, Repr, Inhabited

/-- The outer parts of a frame (Table 12.2): priority code point and VLAN, MACs, association number, packet number and SCI,
plane addresses, UDP ports and checksum. -/
structure Envelope where
  pcp     : Nat
  vlan    : BitVec 12
  an      : BitVec 2
  dstMac  : BitVec 48
  srcMac  : BitVec 48
  packet  : Nat
  sci     : BitVec 64
  srcAddr : BitVec 128
  dstAddr : BitVec 128
  udpSrc  : BitVec 16
  udpPort : Nat
  udpSum  : BitVec 16
deriving DecidableEq, Repr, Inhabited

/-- What the module sends. -/
inductive Out where
  /-- the 32 bytes of its Zarixon header, and its blocks as they follow -/
  | frame (port : Nat) (env : Envelope) (head body : List Byte)
  /-- a frame through Parlour's port (R429): UDP port, the 32 bytes of its Zarixon header, its blocks as they follow -/
  | mgmt (dst : Nat) (host : Bool) (udpPort : Nat) (head body : List Byte)
  | heartbeat (slot : Nat) (detectSeq status : Word) (crc : Nat)
  /-- a PTP message, with its priority code point and VLAN (R333) -/
  | delayReq (port domain pcp : Nat) (vlan : BitVec 12)
  /-- this module's side of a JOIN exchange (R343, R462), on a plane or through Parlour's port: the frame's header, the
  certificate chain, the ECDH share and the signature on it; the manual lays out no more of it -/
  | join (peer : Nat) (host : Bool) (plane : Option Nat) (head chain : List Byte) (share sig : BitVec 1056)
  | digests (peer : Nat) (system reloc : BitVec 512)
  | mirrorAck (peer stack shard : Nat) (epoch : DWord)
  /-- a request refused as unmapped (R331), or one that met an uncorrectable read (Table 10.2); the manual gives the
  answer no frame -/
  | unmapped (peer : Nat) (host : Bool) (tag : Word) (addr : DWord)
  | memError (peer : Nat) (host : Bool) (tag : Word) (addr : DWord)
deriving DecidableEq, Repr, Inhabited

/-! ### Memories -/

/-- Bits of a stored unit that differ from a valid code word: data, check bits. -/
structure ErrMask where
  data  : BitVec 1024
  check : BitVec 128
deriving DecidableEq, Repr, Inhabited

/-- A prefetcher of R272. -/
structure Prefetcher where
  last   : Nat
  stride : Int
  /-- distance of the last further miss, and how many in a row -/
  dist   : Int
  run    : Nat
deriving DecidableEq, Repr, Inhabited

/-- A memory-side cache (R269 to R272): held lines, most recently used first; those brought in by a prefetch and not
yet hit; prefetchers, most recently used first; lines whose stored bits are wrong. -/
structure Cache where
  lines  : List Nat
  fresh  : List Nat
  pf     : List Prefetcher
  errs   : Tab ErrMask
  /-- bytes of a line that its fill's coder delivered wrong, by space-0 offset (R261) -/
  wrong  : Tab (List (Nat × Byte))
deriving DecidableEq, Repr, Inhabited

/-- A stack's Churn (R278, R279): the tick its pass began, and what RATE has allowed and the Churn has not read, in bytes by
core cycles in a second (none where it has read ahead). -/
structure Churn where
  began : Nat
  owed  : Nat
deriving DecidableEq, Repr, Inhabited

/-- Every addressed memory of the module. Keys of `cells`: space-0 offsets below 2^48; 2^48 + space-1 offset;
2^49 + 2^20 × core + scratchpad offset; 2^50 + offset in Parlour's staging buffer. An unlisted address reads as zero. -/
structure Memory where
  cells  : List Host.Cell
  /-- HBM blocks (space-0 offset div 64) whose stored bits are wrong -/
  errs   : Tab ErrMask
  /-- 16 MiB units (stack × 4,096 + unit) whose code was changed in place: the code their blocks were written under, and
  the code of each block written whole since -/
  recoded : Tab (Nat × Tab Nat)
  /-- scratchpad bytes (keys of `cells`) with wrong parity -/
  badScratch : List Nat
  /-- transposing buffers (cores) that hold a byte with wrong parity -/
  badTbuf : List Nat
  /-- what a flip mask changed in a core's transposing buffer: the `cells` key the changed bytes came from, the mask -/
  tbuf   : Tab (Nat × Nat)
  /-- 64-byte bursts of the tier (space-1 offset div 64) every transfer of which fails (R276) -/
  lpBad  : List Nat
  /-- journal entries (space-0 offsets) that a unit could not read: each is reported in the next cycle (R264, R265) -/
  owed   : List Nat
  cache  : Tab Cache
  churn  : Tab Churn
deriving DecidableEq, Repr, Inhabited

/-! ### Clock, plan run -/

/-- PTP measurement under way (R349, R350), in ps. -/
structure SyncSample where
  port : Nat
  t1   : Int
  t2   : Int
deriving DecidableEq, Repr, Inhabited

structure Clock where
  /-- core cycles since the supplies came -/
  now     : Nat
  /-- core cycles into the tick (R27) -/
  sub     : Nat
  /-- ticks by which the phase has run, its steps before lock left out (R282) -/
  ticks   : Nat
  /-- slot, so counted, in which each block's Pail leaked last: key 256 × class + instance -/
  leaks   : Tab Nat
  /-- ports that owe a Delay_Req (R350) -/
  delayDue : List Nat
  phase   : DWord
  locked  : Bool
  everLocked : Bool
  goodRun : Nat
  holdover : Bool
  holdCount : Nat
  /-- offset still to be removed by slewing, in ps -/
  corr    : Int
  /-- exchanges of this interval: port, path delay, offset, in ps -/
  exch    : List (Nat × Int × Int)
  /-- Syncs without their Delay_Resp -/
  sync    : List SyncSample
  /-- planes that gave a measurement in the last interval (Table 12.17) -/
  ptpValid : List Nat
  /-- slot of the last slew correction -/
  slewed  : Option Nat
  /-- the next tick's step under R29: 0 or 2 in place of 1 -/
  slew    : Option Nat
deriving DecidableEq, Repr, Inhabited

/-- A snapshot that is being copied (R318): its identifier, the shards still to be staged, the room left in the STAGING
regions, and where the next record goes at the destination. -/
structure Snapshot where
  id   : Nat
  left : List (Nat × Nat)
  room : List (Nat × Nat)
  off  : Nat
deriving DecidableEq, Repr, Inhabited

structure RunState where
  plan     : Option Plan
  run      : Bool
  ending   : Bool
  stopped  : Bool
  /-- number and first slot of the current step (R35) -/
  step     : Nat
  stepStart : Nat
  variant  : Nat
  /-- the variant that ran the step before (R359) -/
  before   : Option Nat
  rung     : Nat
  request  : Option Nat
  shapeArmed : Bool
  hpArmed  : Bool
  snapId   : Option Word
  snap     : Option Snapshot
  /-- cores whose first milk run is due, shards whose completion pass is due (R418, R308) -/
  milkDue  : List Nat
  complete : List (Nat × Nat)
  selftest : Bool
  /-- the tick the schedule monitor started (R420), and whether its first step is still current -/
  monitor  : Option Nat
  firstStep : Bool
  capRun   : Nat
  nextReq  : Nat
  nextSeg  : Nat
  reqs     : List Req
  herds    : Tab Herd
  cores    : Tab Core
  /-- the request a copy engine carries out -/
  copyBusy : Tab Nat
deriving DecidableEq, Repr, Inhabited

/-! ### Safety, power, boot -/

/-- A detection awaiting its report (R411, R430). -/
structure Report where
  reqId  : Word
  record : List Word
  sentMs : Option Nat
  firstMs : Nat
  acked  : Bool
deriving DecidableEq, Repr, Inhabited

structure SafetyState where
  /-- held by Parlour (R412) -/
  stop    : Bool
  blocked : Bool
  detectSeq : Word
  firstCode : Word
  firstPhase : DWord
  suspectFrom : DWord
  suspectTo : DWord
  detectedAt : Option Nat
  reportSent : Bool
  reportAcked : Bool
  selftestOk : Bool
  reports : List Report
  /-- generation agreed with each peer of Parlour's port -/
  gens    : Tab Nat
  /-- receivers that have joined, that acknowledged the latest report (Table 14.9) -/
  joined  : List Nat
  ackedBy : List Nat
  hbMisses : Nat
  /-- the loss has been raised in the present run of misses (R422, R423) -/
  hbLost   : Bool
  plLost   : Bool
  hbSlot  : Option Nat
  plMisses : Nat
  parlourAlive : Bool
  /-- PL_MISS count suspended until this cycle (R479) -/
  suspended : Option Nat
deriving DecidableEq, Repr, Inhabited

/-- A stack's restore stream (R454, R455): its shards, the first one in progress; of that one the generation taken, those
tried, both headers, the bytes of the image asked for, and the parts that came, by offset. -/
structure RestoreJob where
  stack  : Nat
  left   : List Nat
  gen    : Nat
  tried  : List Nat
  headers : List (List Byte)
  asked  : Nat
  got    : List (Nat × List Byte)
deriving DecidableEq, Repr, Inhabited

/-- A restore (R454). -/
structure Restore where
  source : Nat
  jobs   : List RestoreJob
  aborting : Bool
  bytes  : Nat
deriving DecidableEq, Repr, Inhabited

structure PowerState where
  /-- auxiliary rail in regulation -/
  aux     : Bool
  /-- bulk node above 46.5 V -/
  bulk    : Bool
  inputOk : Bool
  conversion : Bool
  /-- Parlour runs; false when both of its images failed (R473) -/
  parlour : Bool
  /-- die reset released -/
  die     : Bool
  /-- stages 4 to 6 of Table 15.2 have ended -/
  started : Bool
  /-- stages of Table 15.2 from stage 4 on that have ended before all of 4 to 6 have -/
  booting : Nat
  /-- the times of Table 15.2 are taken from this cycle, which stands for this many ms of the table -/
  limitAt : Nat
  limitMs : Nat
  /-- stages that raised START_TIMEOUT in this start -/
  timedOut : List Nat
  halted  : Bool
  warm    : Bool
  /-- a warm restart is between the activation tick and the release of die reset -/
  restarting : Bool
  resetCause : Nat
  bootCount : Word
  releasedAt : Nat
  startedAt : Nat
  mated   : Bool
  hold    : Bool
  holdAt  : Nat
  /-- the last warning (R457) -/
  warnAt  : Nat
  cleared : Option Nat
  heldOut : Bool
  droop   : List (Nat × Nat)
  throttle : Bool
  overtemp : Bool
  overAt  : Option Nat
  coolant : Bool
  capUnmet : Bool
  trained : List Nat
  tiers   : List Nat
  restore : Option Restore
  restoreFailed : Bool
  restoreDone : Bool
  moduleNumber : Option Nat
  refclkDie : Bool
  /-- the two keys of each chiplet's half of the tier (R274) -/
  tierKeys : Tab (BitVec 256 × BitVec 256)
deriving DecidableEq, Repr, Inhabited

/-- Table 16.5, what a slot holds. -/
structure Image where
  kind   : Nat
  build  : Nat
  settingsVersion : Nat
  compat : Nat
  svn    : Nat
  magicOk : Bool
  digest : BitVec 512
  bodyOk : Bool
  signed : Bool
deriving DecidableEq, Repr, Inhabited

structure ImageState where
  slots   : List (Option Image)
  active  : Nat
  next    : Nat
  fellBack : Bool
  staged  : Bool
  booted  : Option Nat
  /-- NEXT has been booted once without a successful start -/
  triedOnce : Bool
  /-- the image that runs, as it was booted at the last start (R465, R517) -/
  running : Option Image
deriving DecidableEq, Repr, Inhabited

/-- A settings generation (R480). -/
structure Settings where
  gen     : Nat
  format  : Nat
  current : Bool
  anchors : Tab (BitVec 512)
  twin    : Option (Nat × BitVec 512)
  bindGen : Nat
  offsets : Tab Int
  usable  : Bool
deriving DecidableEq, Repr, Inhabited

inductive BindState where
  | unbound
  | bound
  | awaiting
  | changed
deriving DecidableEq, Repr, Inhabited

structure BootState where
  images   : Tab ImageState
  /-- the two generation areas, each with a copy in both flash devices (R480) -/
  areas    : List (List (Option Settings))
  /-- the area being written (R482) -/
  writing  : Option Nat
  /-- the generation in use -/
  settings : Settings
  migration : Bool
  fallback : Bool
  svnFused : Nat
  /-- the image being staged: bodyOk says whether what was read matches BODY_DIGEST -/
  staging  : Option Image
  stageStatus : Nat
  armed    : Option DWord
  bind     : BindState
  confirmed : Bool
  /-- the twin's identity has changed and ATTN_ACK.IDENTITY has not been written since (R388) -/
  identity : Bool
  /-- SVN_FUSED at the last start, as measured (R465) -/
  svnStart : Nat
  /-- digest of the key under which the bound endpoint joined (R468) -/
  seenKey  : BitVec 512
  /-- user offsets in force (R483) -/
  inForce  : Tab Int
  factoryOk : Bool
deriving DecidableEq, Repr, Inhabited

/-- Lane generators (R74 to R79): serial of the last seeding, the cycle it happened, generators reseeded since, those
whose parity this cycle's advance found wrong, and the first cycle in which a set of lanes has not rounded yet (a core's
columns at 2 × core, its row unit at 2 × core + 1, a base die at 128 + stack). -/
structure Generators where
  seeded : Nat
  at_    : Nat
  reseeds : List (Nat × Nat × Nat)
  bad    : List Nat
  drawn  : Tab Nat
deriving DecidableEq, Repr, Inhabited

/-! ### Outcomes -/

/-- No step of the Q64 ends in a fault: a fault of the manual is a record in the log and a plan stop (R50, R51). -/
inductive Fault where
  /-- raised by nothing; a step that ended here would stop the block (safe) -/
  | halted
deriving DecidableEq, Repr, Inhabited

inductive Refusal where
  /-- raised by an arm of exec without a meaning yet, naming the row (safe) -/
  | notModelled (mnemonic : String)
deriving DecidableEq, Repr, Inhabited

/-! ### The state -/

structure State where
  mem     : Memory
  /-- registers that differ from their reset value, by register address -/
  regs    : Tab Word
  clock   : Clock
  run     : RunState
  seps    : Tab SepUnit
  upds    : Tab UpdUnit
  mirrors : List Mirror
  fab     : Fabric
  ctl     : Control
  safety  : SafetyState
  power   : PowerState
  boot    : BootState
  gens    : Generators
  /-- what the module has sent, oldest first -/
  out     : List Out
  /-- commands waiting, first in, first out -/
  pending : List Instr
deriving DecidableEq, Repr

/-! ### Reset: no supply applied -/

def Cache.reset : Cache := ⟨[], [], [], [], []⟩
def Memory.reset : Memory := ⟨[], [], [], [], [], [], [], [], [], []⟩

/-- R28, R442: unlocked; the phase may be stepped. -/
def Clock.reset : Clock where
  now := 0
  sub := 0
  ticks := 0
  leaks := []
  delayDue := []
  phase := 0
  locked := false
  everLocked := false
  goodRun := 0
  holdover := false
  holdCount := 0
  corr := 0
  exch := []
  sync := []
  ptpValid := []
  slewed := none
  slew := none

/-- R37: every token without requests, every signal clear; no herd table, so herd 0 (R42). -/
def Core.reset : Core where
  entry := 0
  atBoundary := false
  seg := none
  segCount := 0
  tokens := []
  signals := 0
  herd := 0
  stopped := false
  causes := []
  milkLast := none
  milkDue := false
  refetch := 0

def RunState.reset : RunState where
  plan := none
  run := false
  ending := false
  stopped := false
  step := 0
  stepStart := 0
  variant := 0
  before := none
  rung := 0
  request := none
  shapeArmed := false
  hpArmed := false
  snapId := none
  snap := none
  milkDue := []
  complete := []
  selftest := false
  monitor := none
  firstStep := false
  capRun := 0
  nextReq := 0
  nextSeg := 0
  reqs := []
  herds := []
  cores := []
  copyBusy := []

def SepUnit.reset : SepUnit := ⟨[], none, [], []⟩
def UpdUnit.reset : UpdUnit := ⟨[], none, none, none, none, [], [], none, [], []⟩

/-- R355: 1,024 credits in each chiplet's pool. -/
def Fabric.reset : Fabric where
  ports := []
  peers := []
  rx := []
  tx := []
  credits := []
  pool := [(0, 1024), (1, 1024)]
  satRun := []
  saturated := []
  remote := []
  nextTag := 0
  planeLost := []
  joinWait := []
  redLines := []
  redState := []
  lastTwinAck := 0
  digestDue := []
  digestEarly := []
  rekeying := []
  heldReads := []
  joining := 0

/-- R391: the first record after a reset has the number 1. -/
def Control.reset : Control := ⟨[], 1, [], [], 0, 0, []⟩

/-- Table 14.7 and the registers held by Parlour, which read 0 until a first detection. -/
def SafetyState.reset : SafetyState where
  stop := false
  blocked := false
  detectSeq := 0
  firstCode := 0
  firstPhase := 0
  suspectFrom := 0
  suspectTo := 0
  detectedAt := none
  reportSent := false
  reportAcked := false
  selftestOk := false
  reports := []
  gens := []
  joined := []
  ackedBy := []
  hbMisses := 0
  hbLost := false
  plLost := false
  hbSlot := none
  plMisses := 0
  parlourAlive := false
  suspended := none

/-- Table 15.1: Off. -/
def PowerState.reset : PowerState where
  aux := false
  bulk := false
  inputOk := false
  conversion := false
  parlour := false
  die := false
  started := false
  booting := 0
  limitAt := 0
  limitMs := 0
  timedOut := []
  halted := false
  warm := false
  restarting := false
  resetCause := 0
  bootCount := 0
  releasedAt := 0
  startedAt := 0
  mated := true
  hold := false
  holdAt := 0
  warnAt := 0
  cleared := none
  heldOut := false
  droop := []
  throttle := false
  overtemp := false
  overAt := none
  coolant := false
  capUnmet := false
  trained := []
  tiers := []
  restore := none
  restoreFailed := false
  restoreDone := false
  moduleNumber := none
  refclkDie := true
  tierKeys := []

/-- The image a slot holds as the module leaves the factory (log entry 14). -/
def Image.factory (kind : Nat) : Image where
  kind := kind
  build := 1
  settingsVersion := if kind = 1 then 1 else 0
  compat := 1
  svn := 0
  magicOk := true
  digest := Config.factoryDigest kind
  bodyOk := true
  signed := true

def ImageState.factory (kind : Nat) : ImageState where
  slots := [some (Image.factory kind), some (Image.factory kind)]
  active := 0
  next := 0
  fellBack := false
  staged := false
  booted := none
  triedOnce := false
  running := none

/-- No anchors, no binding, no user offsets (R482). -/
def Settings.none_ : Settings where
  gen := 0
  format := 1
  current := true
  anchors := []
  twin := none
  bindGen := 0
  offsets := []
  usable := true

def BootState.reset : BootState where
  images := [(1, ImageState.factory 1), (2, ImageState.factory 2), (3, ImageState.factory 3),
    (4, ImageState.factory 4), (5, ImageState.factory 5)]
  areas := [[some Settings.none_, some Settings.none_], [none, none]]
  writing := none
  settings := Settings.none_
  migration := false
  fallback := false
  svnFused := 0
  staging := none
  stageStatus := 0
  armed := none
  bind := .unbound
  confirmed := false
  identity := false
  svnStart := 0
  seenKey := 0
  inForce := []
  factoryOk := false

def Generators.reset : Generators := ⟨0, 0, [], [], []⟩

/-- The module before any supply is applied: state Off, every register at its reset value, no plan, nothing waiting
(log entry 1). -/
def State.reset : State where
  mem := Memory.reset
  regs := []
  clock := Clock.reset
  run := RunState.reset
  seps := []
  upds := []
  mirrors := []
  fab := Fabric.reset
  ctl := Control.reset
  safety := SafetyState.reset
  power := PowerState.reset
  boot := BootState.reset
  gens := Generators.reset
  out := []
  pending := []

end Sys2Proof.Machine
end

