-- ==== Sys2Proof/Machine/Ops.lean ====
section
/-!
DEFINITION. The named operations that every meaning shares: sparse tables, bytes of memory, stored registers and
counters, time, events and the log (R390 to R392), the Pail (R282), the plan stop (R51), dangerous-failure detections
(R409 to R414) and raising a fault.
-/

namespace Sys2Proof.Machine

/-! ### Tables -/

def tfind {α : Type} (t : Tab α) (k : Nat) : Option α := (t.find? (fun p => p.1 == k)).map (·.2)

def tget {α : Type} (d : α) (t : Tab α) (k : Nat) : α := (tfind t k).getD d

def tdel {α : Type} (t : Tab α) (k : Nat) : Tab α := t.filter (fun p => p.1 != k)

/-- Insertion before the first larger key. -/
def tins {α : Type} (k : Nat) (v : α) : Tab α → Tab α
  | [] => [(k, v)]
  | p :: r => if k < p.1 then (k, v) :: p :: r else p :: tins k v r

def tput {α : Type} (t : Tab α) (k : Nat) (v : α) : Tab α := tins k v (tdel t k)

/-- A table that lists no entry equal to the default. -/
def tputD {α : Type} [DecidableEq α] (d : α) (t : Tab α) (k : Nat) (v : α) : Tab α :=
  if v = d then tdel t k else tput t k v

/-! ### Memory cells -/

/-- Strictly rising addresses and no byte equal to what an unlisted address reads as (log entry 15). -/
def cellsWf : List Host.Cell → Bool
  | [] => true
  | [c] => c.2 != 0
  | c :: d :: r => (c.2 != 0) && (decide (c.1 < d.1)) && cellsWf (d :: r)

def Memory.wf (m : Memory) : Bool := cellsWf m.cells

def lpKey (off : Nat) : Nat := 2 ^ 48 + off

def scratchKey (core off : Nat) : Nat := 2 ^ 49 + core * 2 ^ 20 + off

def stagingKey (off : Nat) : Nat := 2 ^ 50 + off

def byteAt (cs : List Host.Cell) (a : Nat) : Byte := tget 0 cs a

def setByte (cs : List Host.Cell) (a : Nat) (b : Byte) : List Host.Cell := tputD 0 cs a b

def bytesAt (cs : List Host.Cell) (a n : Nat) : List Byte :=
  let near := cs.filter (fun c => decide (a ≤ c.1) && decide (c.1 < a + n))
  (List.range n).map (fun i => byteAt near (a + i))

def setBytes (cs : List Host.Cell) (a : Nat) : List Byte → List Host.Cell
  | [] => cs
  | b :: bs => setBytes (setByte cs a b) (a + 1) bs

/-- Bytes written where the mask says so. -/
def setMasked (cs : List Host.Cell) (a : Nat) : List (Byte × Bool) → List Host.Cell
  | [] => cs
  | (b, w) :: bs => setMasked (if w then setByte cs a b else cs) (a + 1) bs

def zeroBytes (cs : List Host.Cell) (a n : Nat) : List Host.Cell :=
  cs.filter (fun c => !(decide (a ≤ c.1) && decide (c.1 < a + n)))

/-- A run of bytes copied as it was before the write, by its listed cells alone. -/
def copyBytes (cs : List Host.Cell) (src dst n : Nat) : List Host.Cell :=
  let moved := cs.filter (fun c => decide (src ≤ c.1) && decide (c.1 < src + n))
  moved.foldl (fun acc c => setByte acc (dst + (c.1 - src)) c.2) (zeroBytes cs dst n)

def natAt (cs : List Host.Cell) (a n : Nat) : Nat := leNat (bytesAt cs a n)

def State.setCells (s : State) (cs : List Host.Cell) : State := { s with mem := { s.mem with cells := cs } }

/-! ### Registers and counters as stored -/

/-- The row of a register address (Table 13.13); none for a page that does not exist or a reserved offset. -/
def rowOf (addr : Nat) : Option RegRow :=
  match pageRows (fieldOf addr 31 24) (fieldOf addr 23 16) (fieldOf addr 15 12) with
  | none => none
  | some rows => rows.find? (fun r => decide (r.off ≤ addr % 0x1000) && decide (addr % 0x1000 < r.off + 4 * r.count))

/-- The reset value of a register; region 0 covers its whole stack as STRONG (Table 10.15). -/
def resetOf (addr : Nat) : Word :=
  if decide (fieldOf addr 31 24 = 4) && decide (addr % 0x10000 = 0x2000) then 0x80BFF000
  else match rowOf addr with
    | some r => BitVec.ofNat 32 r.reset
    | none => 0

def State.reg (s : State) (addr : Nat) : Nat := (tget (resetOf addr) s.regs addr).toNat

def State.setReg (s : State) (addr v : Nat) : State :=
  { s with regs := tputD (resetOf addr) s.regs addr (BitVec.ofNat 32 v) }

/-- A wrapping counter. -/
def State.bump (s : State) (addr : Nat) : State := s.setReg addr (s.reg addr + 1)

def State.bumpBy (s : State) (addr n : Nat) : State := s.setReg addr (s.reg addr + n)

/-- A counter that saturates. -/
def State.bumpSat (s : State) (addr n lim : Nat) : State := s.setReg addr (min lim (s.reg addr + n))

/-- A 64-bit pair of registers, low word at `addr`. -/
def State.reg64 (s : State) (addr : Nat) : Nat := s.reg addr + 2 ^ 32 * s.reg (addr + 4)

def State.setReg64 (s : State) (addr v : Nat) : State :=
  (s.setReg addr (v % 2 ^ 32)).setReg (addr + 4) (v / 2 ^ 32)

def State.emit (s : State) (o : Out) : State := { s with out := s.out ++ [o] }

/-- A fresh draw of a free value of Config. -/
def State.draw (s : State) : Nat × State :=
  (s.ctl.free, { s with ctl := { s.ctl with free := s.ctl.free + 1 } })

/-! ### Time -/

def State.phaseNat (s : State) : Nat := s.clock.phase.toNat

/-- R27: the slot number and the tick within the slot. -/
def State.slot (s : State) : Nat := s.phaseNat / 4096

def State.tickOf (s : State) : Nat := s.phaseNat % 4096

/-- A plan runs in the sense of R284. -/
def State.planRuns (s : State) : Bool := (s.run.run && !s.run.stopped) || s.run.ending

def State.core (s : State) (c : Nat) : Core := tget Core.reset s.run.cores c

def State.setCore (s : State) (c : Nat) (k : Core) : State :=
  { s with run := { s.run with cores := tputD Core.reset s.run.cores c k } }

def State.sep (s : State) (i : Nat) : SepUnit := tget SepUnit.reset s.seps i

def State.setSep (s : State) (i : Nat) (u : SepUnit) : State := { s with seps := tputD SepUnit.reset s.seps i u }

def State.upd (s : State) (i : Nat) : UpdUnit := tget UpdUnit.reset s.upds i

def State.setUpd (s : State) (i : Nat) (u : UpdUnit) : State := { s with upds := tputD UpdUnit.reset s.upds i u }

/-! ### The log and the events -/

def clsCore : Nat := 1
def clsQuarter : Nat := 2
def clsMsc : Nat := 3
def clsHbm : Nat := 4
def clsUpd : Nat := 5
def clsSep : Nat := 6
def clsPort : Nat := 7
def clsFabric : Nat := 8
def clsLpddr : Nat := 9
def clsQmgr : Nat := 10
def clsPhase : Nat := 11
def clsSafety : Nat := 12
def clsPower : Nat := 13
def clsCal : Nat := 14
def clsBoot : Nat := 15
def clsCopy : Nat := 16

/-- Table 13.6. -/
def evFault : Nat := 0
def evPail : Nat := 1
def evRefused : Nat := 2
def evMemory : Nat := 3
def evDiscard : Nat := 4
def evTimeout : Nat := 5
def evLink : Nat := 6
def evState : Nat := 7

/-- Where a fault was met: the fields of its record that a segment gives are all ones when none is concerned (R285). -/
structure FaultAt where
  code  : Nat
  cls   : Nat
  inst  : Nat
  addr  : Nat := 0
  core  : Nat := 0xFF
  entry : Nat := 0xFFFF
  desc  : Nat := 0xFFFF
  loops : List Nat := [0, 0, 0, 0, 0, 0]
  attempt : Nat := 0
deriving DecidableEq, Repr, Inhabited

def logCapacity : Nat := 4096

/-- A fault record of the same phase tick that stands after this one by class, then by instance (R392). -/
def LogRecord.precedes (r l : LogRecord) : Bool :=
  l.kind == 1 && l.phase == r.phase && (decide (r.cls < l.cls) || (r.cls == l.cls && decide (r.inst < l.inst)))

/-- Fault records of one phase tick stand by class, then by instance (R392): one goes before the later ones of its tick, past
the events between them, and the numbers stay in order. -/
def placeFault (r : LogRecord) : List LogRecord → List LogRecord
  | [] => [r]
  | l :: older =>
    if (l :: older).any r.precedes then
      { l with seq := r.seq } :: placeFault { r with seq := l.seq } older
    else r :: l :: older

def dropOldestEvent : List LogRecord → List LogRecord
  | [] => []
  | r :: rs => if r.kind = 2 then rs else r :: dropOldestEvent rs

/-- R391: a new record takes the next number; a full log drops an event record, and an event record makes room for a
fault record. -/
def State.logAppend (s : State) (r : LogRecord) : State :=
  let r := { r with seq := s.ctl.nextSeq }
  let keep := fun (old : List LogRecord) =>
    { s with ctl := { s.ctl with
        log := if r.kind = 1 then (placeFault r old.reverse).reverse else old ++ [r], nextSeq := s.ctl.nextSeq + 1 } }
  if s.ctl.log.length < logCapacity then keep s.ctl.log
  else if r.kind = 1 && s.ctl.log.any (fun x => x.kind == 2) then
    (keep (dropOldestEvent s.ctl.log)).bump Reg.QMGR_LOG_LOST
  else s.bump Reg.QMGR_LOG_LOST

def State.record (s : State) (kind : Nat) (f : FaultAt) (first : Bool) : LogRecord where
  kind := kind
  core := f.core
  code := f.code
  entry := f.entry
  desc := f.desc
  loops := f.loops
  phase := s.clock.phase
  addr := BitVec.ofNat 64 f.addr
  step := BitVec.ofNat 32 (s.reg Reg.PHASE_STEP_COUNT)
  cls := f.cls
  inst := f.inst
  attempt := f.attempt
  first := first
  seq := 0

/-- A cause of Table 13.6 occurs (R390): counted when enabled, latched and recorded when not latched before. The FAULT
event leaves no record of its own. -/
def State.event (s : State) (cls inst bit addr : Nat) : State :=
  let s := s.setReg (Reg.EVENT_RAW cls inst) (s.reg (Reg.EVENT_RAW cls inst) ||| 2 ^ bit)
  if bitOf (s.reg (Reg.EVENT_ENABLE cls inst)) bit then
    let s1 := s.bump (Reg.COUNTER_0 cls inst)
    if bitOf (s.reg (Reg.EVENT_LATCH cls inst)) bit then s1
    else
      let s2 := s1.setReg (Reg.EVENT_LATCH cls inst) (s.reg (Reg.EVENT_LATCH cls inst) ||| 2 ^ bit)
      if bit = evFault then s2
      else s2.logAppend (s2.record 2 { code := 0xE000 + bit, cls := cls, inst := inst, addr := addr } false)
  else s

/-! ### The Pail (R282) -/

/-- THRESHOLD of PAIL_CONFIG, 0 taken as 1. -/
def State.pailThreshold (s : State) (cls inst : Nat) : Nat :=
  max 1 (fieldOf (s.reg (Reg.PAIL_CONFIG cls inst)) 15 0)

/-- A corrected or recovered error: one more in the Pail, or an overflow. -/
def State.pail (s : State) (cls inst addr : Nat) : State :=
  let v := s.reg (Reg.PAIL_LEVEL cls inst)
  let level := fieldOf v 15 0
  let ovf := fieldOf v 31 16
  if level < s.pailThreshold cls inst then s.setReg (Reg.PAIL_LEVEL cls inst) (ovf * 2 ^ 16 + level + 1)
  else (s.setReg (Reg.PAIL_LEVEL cls inst) (min 0xFFFF (ovf + 1) * 2 ^ 16)).event cls inst evPail addr

/-! ### Where things stand in a stack -/

def stackBytes : Nat := 0x000C00000000

/-- The stack and stack offset of a space-0 offset (R257). -/
def stackOf (off : Nat) : Option (Nat × Nat) :=
  if off < 12 * stackBytes then some (off / stackBytes, off % stackBytes) else none

def unit16 : Nat := 2 ^ 24

/-- The code of a unit of a stack, where a valid code region holds it (R260). -/
def State.codeOfUnit (s : State) (stack unit : Nat) : Option Nat :=
  (List.range 64).findSome? (fun i =>
    let w := s.reg (Reg.HBM_CODE_REGION stack i)
    if bitOf w 31 && decide (fieldOf w 11 0 ≤ unit) && decide (unit ≤ fieldOf w 23 12) then some (fieldOf w 25 24)
    else none)

def State.codeAt (s : State) (off : Nat) : Option Nat :=
  match stackOf off with
  | none => none
  | some (st, o) => s.codeOfUnit st (o / unit16)

/-- A block written whole since its unit changed code. -/
def State.encoded (s : State) (blk : Nat) : State :=
  match stackOf (blk * 64) with
  | none => s
  | some (st, o) =>
    match tfind s.mem.recoded (st * 4096 + o / unit16) with
    | none => s
    | some l =>
      let code := (s.codeOfUnit st (o / unit16)).getD l.1
      { s with mem := { s.mem with recoded := tput s.mem.recoded (st * 4096 + o / unit16) (l.1, tput l.2 blk code) } }

def State.encodeRun (s : State) (off n : Nat) : State :=
  if s.mem.recoded.isEmpty then s
  else (List.range ((off + n - 1) / 64 + 1 - off / 64)).foldl (fun t i => t.encoded (off / 64 + i)) s

/-! ### The coder (R258, R261 to R264) -/

def popcount (n x : Nat) : Nat := ((List.range n).filter (fun i => bitOf x i)).length

inductive Verdict where
  | ok
  | corrected
  | bad
  | beyond
deriving DecidableEq, Repr

def byCount (n : Nat) : Verdict := if n = 0 then .ok else if n = 1 then .corrected else if n = 2 then .bad else .beyond

/-- STRONG: 32 data and 3 check symbols of 16 bits; a wrong address CRC is a block from a wrong address. -/
def strongVerdict (m : ErrMask) : Verdict :=
  if fieldOf m.check.toNat 63 48 ≠ 0 then .bad
  else byCount (((List.range 32).filter (fun i => fieldOf m.data.toNat (16 * i + 15) (16 * i) != 0)).length +
    ((List.range 3).filter (fun i => fieldOf m.check.toNat (16 * i + 15) (16 * i) != 0)).length)

/-- STANDARD: one word of eight bytes with its check byte. -/
def standardVerdict (m : ErrMask) (lane : Nat) : Verdict :=
  byCount (popcount 64 (fieldOf m.data.toNat (64 * lane + 63) (64 * lane)) +
    popcount 8 (fieldOf m.check.toNat (8 * lane + 7) (8 * lane)))

/-- LIGHT: up to 3 bits, or a burst of up to 16, is detected; nothing is corrected. -/
def lightVerdict (m : ErrMask) : Verdict :=
  let x := fieldOf m.data.toNat 511 0 + 2 ^ 512 * fieldOf m.check.toNat 15 0
  let n := popcount 528 x
  let low := ((List.range 528).find? (fun i => bitOf x i)).getD 0
  if n = 0 then .ok else if decide (n ≤ 3) || decide (x / 2 ^ low < 2 ^ 16) then .bad else .beyond

/-- The units of a block with their verdicts: (offset in the block, length, verdict). -/
def blockVerdicts (code : Nat) (m : ErrMask) : List (Nat × Nat × Verdict) :=
  if code = 1 then (List.range 8).map (fun l => (8 * l, 8, standardVerdict m l))
  else [(0, 64, if code = 0 then strongVerdict m else lightVerdict m)]

/-- A mask with one unit's bits cleared. -/
def clearUnit (m : ErrMask) (o n : Nat) : ErrMask :=
  if n = 64 then ⟨0, 0⟩
  else
    let l := o / 8
    ⟨m.data &&& ~~~(BitVec.ofNat 1024 (0xFFFFFFFFFFFFFFFF * 2 ^ (64 * l))),
     m.check &&& ~~~(BitVec.ofNat 128 (0xFF * 2 ^ (8 * l)))⟩

def State.setErr (s : State) (blk : Nat) (m : ErrMask) : State :=
  { s with mem := { s.mem with errs := tputD ⟨0, 0⟩ s.mem.errs blk m } }

/-- Units of a stack whose code changes, or that leave every valid region, keep their stored bits (R266): the code they
were written under is kept. -/
def State.recode (s : State) (stack : Nat) (before : Nat → Option Nat) : State :=
  (List.range 3072).foldl (fun t u => match before u with
    | none => t
    | some a =>
      if t.codeOfUnit stack u = some a ∨ (tfind t.mem.recoded (stack * 4096 + u)).isSome then t
      else { t with mem := { t.mem with recoded := tput t.mem.recoded (stack * 4096 + u) (a, []) } }) s

/-- A block whose check bits were formed under another code. -/
def State.staleCode (s : State) (blk : Nat) : Bool :=
  match stackOf (blk * 64) with
  | none => false
  | some (st, o) =>
    match tfind s.mem.recoded (st * 4096 + o / unit16) with
    | none => false
    | some l => s.codeOfUnit st (o / unit16) != some (tget l.1 l.2 blk)

/-- What a block's read through the coder gave: units without data, and bytes delivered wrong. -/
structure Coded where
  s : State
  bad : List (Nat × Nat)
  wrong : List (Nat × Byte)

/-- A Zarixon address of this module. -/
def State.moduleNum (s : State) : Nat := s.reg (Reg.FABRIC_MODULE_NUMBER 0) % 4096

def State.zAddr (s : State) (space off : Nat) : Nat := s.moduleNum * 2 ^ 52 + space * 2 ^ 48 + off

/-- R263: corrected, written back, counted. -/
def State.correct (s : State) (st off : Nat) : State :=
  (((s.bump (Reg.HBM_CORRECTED st)).setReg (Reg.HBM_CE_ADDR_LO st) (off % stackBytes)).setReg (Reg.HBM_CE_ADDR_HI st)
    (off % stackBytes / 2 ^ 32)).pail clsHbm st (s.zAddr 0 off)

/-- One unit by its verdict; `bad` is what the reader makes of a unit without data, at its offset. -/
def codeUnit (bad : State → Nat → State) (blk o n : Nat) (v : Verdict) (c : Coded) : Coded :=
  let off := blk * 64 + o
  let st := off / stackBytes
  let m := tget ⟨0, 0⟩ c.s.mem.errs blk
  let lost := fun (s : State) => { c with s := bad s off, bad := c.bad ++ [(off, n)] }
  match v with
  | .ok => c
  | .corrected => { c with s := ((c.s.setErr blk (clearUnit m o n)).encoded blk).correct st off }
  | .bad => lost c.s
  | .beyond =>
    let d := c.s.draw
    match Config.beyondCode d.1 % 3 with
    | 0 => lost d.2
    | 1 =>
      let bs := (List.range n).map (fun i => Config.beyondByte d.1 i)
      let s := d.2.setErr blk (clearUnit m o n)
      { c with s := ((s.setCells (setBytes s.mem.cells off bs)).encoded blk).correct st off }
    | _ =>
      { c with s := d.2, wrong := c.wrong ++ (List.range n).map (fun i =>
          (off + i, byteAt d.2.mem.cells (off + i) ^^^ BitVec.ofNat 8 (m.data.toNat / 2 ^ (8 * (o + i))))) }

/-- A block read through its base die's coder (R258). -/
def State.readBlockBy (s : State) (bad : State → Nat → State) (blk : Nat) : Coded :=
  let code := (s.codeAt (blk * 64)).getD 0
  if s.staleCode blk then codeUnit bad blk 0 64 .beyond ⟨s, [], []⟩
  else
    match tfind s.mem.errs blk with
    | none => ⟨s, [], []⟩
    | some m => (blockVerdicts code m).foldl (fun c v => codeUnit bad blk v.1 v.2.1 v.2.2 c) ⟨s, [], []⟩

def patch (wrong : List (Nat × Byte)) (off : Nat) (bs : List Byte) : List Byte :=
  if wrong.isEmpty then bs else bs.mapIdx (fun i b => ((wrong.find? (fun w => w.1 == off + i)).map (·.2)).getD b)

/-! ### The shards' journals (R303) -/

/-- Regions of a role in a stack, in table order. -/
def Plan.regionsIn (p : Plan) (stack role : Nat) : List Region :=
  p.regions.filter (fun r => r.space == 1 && r.role == role &&
    (stackOf (r.base.toNat % 2 ^ 48)).map (·.1) == some stack)

/-- Space-0 offset of a shard's journal entry (R303). -/
def State.journal (s : State) (stack shard : Nat) : Option Nat :=
  match s.run.plan with
  | none => none
  | some p => (p.regionsIn stack 11).head?.map (fun r => r.base.toNat % 2 ^ 48 + 64 * shard)

def State.journalWord (s : State) (stack shard w : Nat) : Nat :=
  match s.journal stack shard with
  | some a => natAt s.mem.cells (a + 4 * w) 4
  | none => 0

/-- Invalidation of the lines a base-die unit writes (R271). -/
def State.invalidate (s : State) (off len : Nat) : State :=
  match stackOf off with
  | none => s
  | some (st, _) =>
    let q := st / 3
    let c := tget Cache.reset s.mem.cache q
    let lo := off / 128
    let hi := (off + len - 1) / 128
    let out := fun (l : Nat) => !(decide (lo ≤ l) && decide (l ≤ hi))
    let c' := { c with lines := c.lines.filter out, fresh := c.fresh.filter out, errs := c.errs.filter (fun e => out e.1),
                       wrong := c.wrong.filter (fun e => out e.1) }
    if len = 0 then s
    else ({ s with mem := { s.mem with cache := tputD Cache.reset s.mem.cache q c' } }).bumpBy
      (Reg.MSC_INVALIDATIONS q) (hi + 1 - lo)

/-- A whole-block write by a base-die unit through the coder (R258): its bytes, no error left in it, cached copies dropped. -/
def State.writeBlock (s : State) (off : Nat) (bs : List Byte) : State :=
  (({ s with mem := { s.mem with cells := setBytes s.mem.cells off bs, errs := tdel s.mem.errs (off / 64) } }).encoded
    (off / 64)).invalidate off bs.length

/-- A journal entry that cannot be read: its fault is raised in the next cycle. -/
def State.oweBad (s : State) (off : Nat) : State := { s with mem := { s.mem with owed := s.mem.owed ++ [off] } }

def setField (x hi lo v : Nat) : Nat :=
  x - (fieldOf x hi lo) * 2 ^ lo + (v % 2 ^ (hi + 1 - lo)) * 2 ^ lo

/-- A word of a journal entry changed: the engine reads the entry through the coder and writes the whole of it; of one without
data it writes nothing (R258, R262). -/
def State.editJournal (s : State) (stack shard w : Nat) (f : Nat → Nat) : State :=
  match s.journal stack shard with
  | none => s
  | some a =>
    let c := s.readBlockBy State.oweBad (a / 64)
    if c.bad.isEmpty then
      let whole := patch c.wrong a (bytesAt c.s.mem.cells a 64)
      c.s.writeBlock a (whole.take (4 * w) ++ leBytes 4 (f (leNat ((whole.drop (4 * w)).take 4))) ++ whole.drop (4 * w + 4))
    else c.s

def State.setJournalWord (s : State) (stack shard w v : Nat) : State := s.editJournal stack shard w (fun _ => v)

/-- A field of a journal entry (Table 11.4). -/
def State.setJournal (s : State) (stack shard w hi lo v : Nat) : State :=
  s.editJournal stack shard w (fun x => setField x hi lo v)

/-- STATE of a shard (Table 11.5). -/
def State.shardState (s : State) (stack shard : Nat) : Nat := fieldOf (s.journalWord stack shard 0) 21 18

/-- The stack's UNDO regions, by order in the region table: the Separator's (R158), the update engine's (R305). -/
def State.undoAt (s : State) (stack k : Nat) : Option Nat :=
  s.run.plan.bind (fun p => ((p.regionsIn stack 12)[k]?).map (fun r => r.base.toNat % 2 ^ 48))

/-! ### Commands of the base dies that end early -/

def BaseCmd.request (c : BaseCmd) : Option Nat :=
  match c.src with
  | .seg _ _ _ r => some r
  | _ => none

def BaseCmd.shard (c : BaseCmd) : Nat := ((c.words.getD 1 0).toNat) % 2 ^ 12

/-- Requests whose command was discarded: their tokens do not complete (R51). -/
def State.dropRequests (s : State) (ids : List Nat) : State :=
  { s with run := { s.run with reqs := s.run.reqs.filter (fun r => !ids.contains r.id) } }

/-- CMD_STATUS of a host command that ends (Table 06.10). -/
def State.hostDone (s : State) (cls inst code addr : Nat) : State :=
  let status := if cls = clsSep then Reg.SEP_CMD_STATUS inst else Reg.UPD_CMD_STATUS inst
  let fa := if cls = clsSep then Reg.SEP_CMD_FAULT_ADDR inst else Reg.UPD_CMD_FAULT_ADDR inst
  (s.setReg status (code * 2 ^ 16 + 2)).setReg fa addr

/-- A Separator command in progress at a plan stop (R51): it ends after its batch, with MIRROR_STALE set and SEP_OP
clear, and what is queued behind it is discarded. A command that only waits for its mirror goes on waiting. -/
def State.stopSep (s : State) (i : Nat) : State :=
  let u := s.sep i
  let ids := u.queue.filterMap BaseCmd.request
  let s := s.dropRequests ids
  match u.cur with
  | none => s.setSep i { u with queue := [] }
  | some r =>
    if r.waiting then s.setSep i { u with queue := [] }
    else
      let s := s.dropRequests r.cmd.request.toList
      let s := (s.setJournal i r.cmd.shard 0 30 30 1).setJournal i r.cmd.shard 0 24 22 0
      let s := (if r.cmd.src = .host then s.hostDone clsSep i 0 0 else s).setUpd i { s.upd i with sepUndo := none }
      ((s.setSep i { u with queue := [], cur := none }).bump (Reg.SEP_TRUNCATED i)).bump (Reg.SEP_COMMANDS i)

/-- An update engine at a plan stop (R51, R305): the batch, or the whole working pass, is finished and nothing more is
begun; commands queued are discarded. -/
def State.stopUpd (s : State) (i : Nat) : State :=
  let u := s.upd i
  let s := s.dropRequests (u.queue.filterMap BaseCmd.request)
  match u.cur with
  | none => s.setUpd i { u with queue := [] }
  | some r =>
    let s := s.dropRequests r.cmd.request.toList
    if r.pass = .working then s.setUpd i { u with queue := [], cur := some { r with ending := true } }
    else s.setUpd i { u with queue := [], cur := none }

def State.stopBases (s : State) : State :=
  (List.range 12).foldl (fun t i => (t.stopSep i).stopUpd i) s

/-- Cycles the array waited for its swap, or for Vat rows (R88, R103); those in which its herd was frozen meanwhile count
too (log entry 51). -/
def State.bubbles (s : State) (c : Nat) (g : Seg) : State :=
  match g.dueAt with
  | none => s
  | some t => s.bumpBy (Reg.CORE_LOAD_BUBBLES c) (s.clock.now - t)

/-- Waits that a plan stop cuts short are counted up to it (R88). -/
def State.cutWaits (s : State) : State :=
  s.run.cores.foldl (fun t k => match k.2.seg with
    | some g => t.bubbles k.1 g
    | none => t) s

/-- A core at a plan stop: its segment abandoned, no further entry released. -/
def Core.stop (c : Core) : Core := { c with seg := none, stopped := true, causes := [], milkDue := false }

/-- The herd table of R42. -/
def State.herd (s : State) (h : Nat) : Herd := tget ⟨false, []⟩ s.run.herds h

/-- A supply hold, or a droop of a quarter in which the herd has a core (R446, R450). -/
def State.heldHerd (s : State) (h : Nat) : Bool :=
  s.power.hold || s.power.droop.any (fun d => (List.range 16).any (fun i => (s.core (16 * d.1 + i)).herd == h))

/-- The herds as a stop or a start of a plan leaves them: frozen where a hold goes on (R43, R448). -/
def State.heldHerds (s : State) : Tab Herd :=
  (List.range 8).foldl (fun t h => if s.heldHerd h then tput t h ⟨true, []⟩ else t) []

/-- The plan stop of R51. -/
def State.planStop (s : State) : State :=
  let s := s.cutWaits.stopBases
  { s with run := { s.run with
      run := s.run.run && !s.run.ending, stopped := true, ending := false, milkDue := [], complete := [], selftest := false, monitor := none,
      cores := (List.range 64).foldl (fun t c => tputD Core.reset t c (Core.stop (tget Core.reset t c))) s.run.cores,
      herds := s.heldHerds } }

/-! ### Dangerous-failure detections (R409 to R414) -/

/-- A Separator at a safety stop ends as a restart would end it (R158): the batch that its journal names is restored, through
the coder, in the next cycle. -/
def State.safeSep (s : State) (i : Nat) : State :=
  let u := s.sep i
  match u.cur with
  | none => s
  | some r =>
    if r.waiting then s
    else
      let named := decide (fieldOf (s.journalWord i r.cmd.shard 0) 24 22 ≠ 0)
      let s := s.dropRequests r.cmd.request.toList
      let s := s.setUpd i { s.upd i with sepOwed := some r.cmd.shard }
      let s := if r.cmd.src = .host then s.hostDone clsSep i 0 0 else s
      let s := (s.setSep i { s.sep i with cur := none }).bump (Reg.SEP_COMMANDS i)
      if named then s.bump (Reg.SEP_TRUNCATED i) else s

/-- An update engine at a safety stop: no further batch; a shard in a working pass stays in WORKING. -/
def State.safeUpd (s : State) (i : Nat) : State :=
  let u := s.upd i
  match u.cur with
  | none => s
  | some r =>
    let s := s.dropRequests r.cmd.request.toList
    let s := if r.cmd.src = .host then s.hostDone clsUpd i 0 0 else s
    s.setUpd i { s.upd i with cur := none }

def State.safeBases (s : State) : State :=
  (List.range 12).foldl (fun t i => (t.safeSep i).safeUpd i) s

/-- The words of Table 14.4 that the detection fixes. -/
def State.reportRecord (s : State) (f : FaultAt) (seq : Word) (from_ : DWord) (first : Bool) : List Word :=
  let ph : Nat := if s.clock.everLocked then s.phaseNat else 0
  let num := match s.power.moduleNumber with | some n => n % 4096 | none => 0xFFF
  [BitVec.ofNat 32 (num * 2 ^ 20 + f.code), seq, BitVec.ofNat 32 ph, BitVec.ofNat 32 (ph / 2 ^ 32),
   BitVec.ofNat 32 (s.reg Reg.PHASE_STEP_COUNT), BitVec.ofNat 32 (f.cls * 2 ^ 24 + f.inst * 2 ^ 16 + f.core * 2 ^ 8),
   BitVec.ofNat 32 f.addr, BitVec.ofNat 32 (f.addr / 2 ^ 32), from_.setWidth 32, (from_ >>> 32).setWidth 32,
   BitVec.ofNat 32 (bnat first), 0, 0, 0, 0, 0]

/-- Frames of a flow that have not been sent, numbered anew from a block on. -/
def freshSeqs (next : Word) : List TxBlock → List TxBlock × Word
  | [] => ([], next)
  | b :: bs =>
    let h := b.cargo.hdr
    let here := if !b.sent && (h.nblk != 0 || h.type == 1) then { b with cargo := { b.cargo with hdr := { h with seq := next } } } else b
    let r := freshSeqs (if !b.sent && h.nblk != 0 then next + 1 else next) bs
    (here :: r.1, r.2)

/-- The base dies' flows at a safety stop: no block of a mirror image, an EXPORT record or a snapshot that has not been sent
is sent any more (R409); what else waits in them goes on, numbered without a gap. -/
def TxFlow.cutRecords (f : TxFlow) : TxFlow :=
  if f.id.cls = 1 ∧ f.id.queue % 64 = 63 ∧ f.id.queue < 64 * 24 then
    let new := (f.blocks.filter (fun b => !b.sent && b.cargo.hdr.nblk != 0)).length
    let r := freshSeqs (f.next - BitVec.ofNat 32 new) (f.blocks.filter (fun b => b.sent || b.cargo.hdr.type != 0))
    { f with next := r.2, blocks := r.1 }
  else f

/-- Staging, shipping, mirrors and records stop (R409). -/
def State.safeSends (s : State) : State :=
  let ships := fun (r : RemoteReq) => match r.use with
    | .ship _ _ => true
    | _ => false
  let s := s.setReg Reg.UPD_SNAP_STATUS (setField (s.reg Reg.UPD_SNAP_STATUS) 18 17 0)
  { s with run := { s.run with snap := none },
           fab := { s.fab with tx := s.fab.tx.map (·.cutRecords), remote := s.fab.remote.filter (fun r => !ships r) } }

/-- Parlour's milliseconds since its own start. -/
def State.uptimeMs (s : State) : Nat := (s.clock.now - s.power.startedAt) / 700000

/-- SUSPECT_FROM lies 10,000,000 ticks before the detection (R414). -/
def suspectFrom (ph : Nat) : DWord := BitVec.ofNat 64 (ph - 10000000)

/-- A dangerous-failure detection reaches the SAFETY block and Parlour (R409, R411, R412, R414). -/
def State.detect (s : State) (f : FaultAt) : State :=
  let first := !s.safety.stop
  let seq : Word := if first then 1 else s.safety.detectSeq + 1
  let sf := if first then suspectFrom s.phaseNat else s.safety.suspectFrom
  let rep : Report := ⟨BitVec.ofNat 32 ((s.safety.reports.map (fun r => r.reqId.toNat)).foldl max 0 + 1), s.reportRecord f seq (suspectFrom s.phaseNat) first, none,
    s.uptimeMs, false⟩
  let s := { s with safety := { s.safety with
    stop := true, detectSeq := seq,
    firstCode := if first then BitVec.ofNat 32 f.code else s.safety.firstCode,
    firstPhase := if first then s.clock.phase else s.safety.firstPhase,
    suspectFrom := sf, suspectTo := BitVec.allOnes 64,
    detectedAt := if first then some s.clock.now else s.safety.detectedAt,
    blocked := if first then false else s.safety.blocked,
    reportSent := false, reportAcked := false, ackedBy := [], reports := s.safety.reports ++ [rep] } }
  s.safeSends.safeBases

/-- A fault's record (R50, R391), COUNTER_1 and the FAULT event of its block. -/
def State.faultRecord (s : State) (f : FaultAt) (first : Bool) : State :=
  ((s.logAppend (s.record 1 f first)).bump (Reg.COUNTER_1 f.cls f.inst)).event f.cls f.inst evFault 0

/-- A fault: its record before any effect, the safety stop when it is a dangerous-failure detection (R408), and the plan stop
when a plan runs. -/
def State.raise (s : State) (f : FaultAt) (dangerous : Bool := false) : State :=
  let runs := s.planRuns
  let s := s.faultRecord f runs
  let s := if dangerous then s.detect f else s
  if runs then s.planStop else s

/-! ### Answers -/

abbrev Result := Host.Outcome State Fault Refusal

def done (s : State) : Result := .next s

end Sys2Proof.Machine
end

