-- ==== Sys2Proof/Machine/PhaseSync.lean ====
section
/-!
DEFINITION. The System Cycle Phase: PTP exchanges (R349, R350), the classes of a sync interval (SYNC_INTERVAL_END stands in Boot.lean), lock, holdover and
relock (R28, R30), slewing (R29). Commands: PHASE_LOST, SLEW_CORRECTION, SYNC, DELAY_RESP.
-/

namespace Sys2Proof.Machine

/-- A plane is unavailable (R366, R367). -/
def State.planeOut (s : State) (plane : Nat) : Bool := (tfind s.fab.planeLost plane).isSome

def State.port (s : State) (p : Nat) : PortState := tget ⟨false, false, false, none, 0⟩ s.fab.ports p

def State.setPort (s : State) (p : Nat) (v : PortState) : State :=
  { s with fab := { s.fab with ports := tputD ⟨false, false, false, none, 0⟩ s.fab.ports p v } }

/-- A port carries frames: link up, FEC locked and a live MACsec association (R366). -/
def State.portLive (s : State) (p : Nat) : Bool := (s.port p).linkUp && (s.port p).fecLock && (s.port p).macsecUp

/-- Whole ns of a time in ps; between two ns either neighbour (log entry 9). -/
def nsOf (ps : Int) : Int :=
  let q := ps / 1000
  if ps % 1000 = 0 then q else if Config.nsRoundsUp ps then q + 1 else q

def State.setClock (s : State) (c : Clock) : State := { s with clock := c }

/-! ### Exchanges -/

/-- A port's stamp of a time in ps: steps of 0.25 ns (R349). -/
def stampOf (ps : Int) : Int := ps - ps % 250

def State.ptpDomain (s : State) (p : Nat) : Nat := fieldOf (s.reg (Reg.FABRIC_PTP_CONFIG (p / 4))) 7 0

/-- A PTP message of this module's domain at a live port. -/
def State.ptpHeard (s : State) (p domain : Nat) : Bool := s.portLive p && s.ptpDomain p == domain

/-- SYNC: the Sync sent at t1 of PTP time came at t2 of the module's phase, in ps; a Delay_Req follows. -/
def State.syncSeen (s : State) (p domain : Nat) (t1 t2 : Int) : State :=
  if s.ptpHeard p domain then
    s.setClock { s.clock with sync := s.clock.sync.filter (fun x => x.port != p) ++ [⟨p, t1, stampOf t2⟩],
                              delayDue := s.clock.delayDue.filter (· != p) ++ [p] }
  else s

def execSync (p : Fin 8) (t1 : PtpStamp) (t2 : Int) (s : State) : Result := done (s.syncSeen p t1.domain t1.time t2)

/-- A guard band begins: the Delay_Req that each port owes is sent (R350). -/
def State.sendDelayReqs (s : State) : State :=
  if s.tickOf = 4080 then
    s.clock.delayDue.foldl (fun t p => if t.portLive p then t.emit (.delayReq p (t.ptpDomain p) 7 (Config.planeVlan (p / 4))) else t)
      (s.setClock { s.clock with delayDue := [] })
  else s

/-- PTP time of phase 0 in ps (EPOCH, Table 02.4). -/
def State.epochPs (s : State) : Int := (s.reg64 Reg.PHASE_EPOCH_LO : Int) * 10000

/-- Path delay and offset of an exchange (R349, log entry 26): the ingress and egress timestamps take their port's
corrections and half its asymmetry. -/
def State.exchange (s : State) (p : Nat) (t1 t2 t3 t4 : Int) : Int × Int :=
  let half := signedOf 32 (s.reg (Reg.PORT_PTP_ASYMMETRY p)) / 2
  let a1 := t1 - s.epochPs
  let a4 := t4 - s.epochPs
  let a2 := t2 + signedOf 32 (s.reg (Reg.PORT_PTP_INGRESS_ADJ p)) - half
  let a3 := t3 + signedOf 32 (s.reg (Reg.PORT_PTP_EGRESS_ADJ p)) - half
  (((a2 - a1) + (a4 - a3)) / 2, ((a2 - a1) - (a4 - a3)) / 2)

/-- DELAY_RESP: the exchange of the port's latest Sync, whose Delay_Req left at t3, is complete. -/
def State.delaySeen (s : State) (p domain : Nat) (t3 t4 : Int) : State :=
  if s.ptpHeard p domain && !s.clock.delayDue.contains p then
    match s.clock.sync.find? (fun x => x.port == p) with
    | none => s
    | some x => s.setClock { s.clock with
        sync := s.clock.sync.filter (fun y => y.port != p),
        exch := s.clock.exch ++ [(p, s.exchange p x.t1 x.t2 (stampOf t3) t4)] }
  else s

def execDelayResp (p : Fin 8) (t3 : Int) (t4 : PtpStamp) (s : State) : Result := done (s.delaySeen p t4.domain t3 t4.time)

/-! ### The sync interval -/

/-- A plane's offset: that of its exchange with the smallest path delay on P0, for plane B on P4 (R350). -/
def Clock.planeOffset (c : Clock) (plane : Nat) : Option Int :=
  let mine := (c.exch.filter (fun x => x.1 == 4 * plane)).map (·.2)
  (mine.foldl (fun (best : Option (Int × Int)) x => match best with
    | none => some x
    | some b => if x.1 < b.1 then some x else some b) none).map (·.2)

/-- The interval's offset: plane A's, or the other's while one plane is unavailable; none when the two planes differ by
100 ns or more. -/
def State.intervalOffset (s : State) : Option Int :=
  let a := if s.planeOut 0 then none else s.clock.planeOffset 0
  let b := if s.planeOut 1 then none else s.clock.planeOffset 1
  match a, b with
  | some x, some y => if (x - y).natAbs < 100000 then some x else none
  | some x, none => some x
  | none, some y => if s.planeOut 0 then some y else none
  | none, none => none

inductive Grade where
  | good
  | fair
  | bad
deriving DecidableEq, Repr

def gradeOf : Option Int → Grade
  | none => .bad
  | some x => if x.natAbs < 50000 then .good else if x.natAbs < 100000 then .fair else .bad

/-- R28: a module that is not locked and has never been steps the phase (log entry 27). -/
def Clock.seek (c : Clock) (o : Option Int) : Clock :=
  match o with
  | none => c
  | some x => { c with phase := c.phase - BitVec.ofInt 64 (x.tdiv 10000), sync := [] }

/-- The end of an interval of this grade and offset (R28, R30). The bad interval that opens holdover is the first that counts
toward HOLDOVER_LIMIT, so that holdover may last LIMIT intervals more (log entry 27). -/
def Clock.interval (c : Clock) (g : Grade) (o : Option Int) : Clock :=
  let run := if g = .good then min 255 (c.goodRun + 1) else 0
  let c := { c with goodRun := run, exch := [] }
  if c.locked then
    if c.holdover then
      if g = .good then { c with holdover := false, holdCount := 0, corr := o.getD 0 }
      else { c with holdCount := c.holdCount + 1 }
    else if g = .bad then { c with holdover := true, holdCount := 1, corr := 0 }
    else { c with corr := o.getD 0 }
  else if c.everLocked then
    { c with locked := decide (16 ≤ run), corr := o.getD c.corr }
  else
    let c := c.seek o
    { c with locked := decide (16 ≤ run), everLocked := decide (16 ≤ run), corr := 0 }

/-- Offsets shown by OFFSET and PTP_OFFSET. -/
def State.showOffsets (s : State) (o : Option Int) : State :=
  let s := match o with
    | some x => s.setReg Reg.PHASE_OFFSET (unsignedOf 32 (nsOf x))
    | none => s
  [0, 1].foldl (fun t p => match t.clock.planeOffset p with
    | some x => t.setReg (Reg.FABRIC_PTP_OFFSET p) (unsignedOf 32 (nsOf x))
    | none => t) s

def State.syncInterval (s : State) : State :=
  if s.power.die then
    let o := s.intervalOffset
    let valid := [0, 1].filter (fun p => (s.clock.planeOffset p).isSome)
    let s := s.showOffsets o
    s.setClock { s.clock.interval (gradeOf o) o with ptpValid := valid }
  else s

/-- PHASE_LOST: the holdover has lasted longer than HOLDOVER_LIMIT intervals (R30). -/
def State.phaseLost (s : State) : State :=
  if s.clock.holdover && decide (s.reg Reg.PHASE_HOLDOVER_LIMIT % 256 < s.clock.holdCount) then
    (s.raise { code := 0x0108, cls := clsPhase, inst := 0 }).setClock
      { s.clock with locked := false, holdover := false, holdCount := 0, goodRun := 0 }
  else s

def execPhaseLost (s : State) : Result := done s.phaseLost

/-- SLEW_CORRECTION at tick 2,048 (R29): the next tick adds 0 or 2, towards the offset still to be removed, at most
once in a slot, and never in holdover. -/
def State.slewNow (s : State) : State :=
  let c := s.clock
  if decide (s.tickOf = 2048) && c.everLocked && !c.holdover && decide (c.slewed ≠ some s.slot) &&
      decide (5000 < c.corr.natAbs) then
    s.setClock { c with slewed := some s.slot, slew := some (if 0 < c.corr then 0 else 2),
                        corr := if 0 < c.corr then c.corr - 10000 else c.corr + 10000 }
  else s

def execSlewCorrection (s : State) : Result := done s.slewNow

end Sys2Proof.Machine
end

