-- ==== Sys2Proof/Machine/Num.lean ====
section
/-!
DEFINITION. Number formats, rounding, FP32 arithmetic and the lane generators (chapter 3). Values are exact integers
and rationals; a value is narrowed only by `roundMag`, to nearest even (R67) or stochastically (R68).
-/

namespace Sys2Proof.Machine

/-! ### Formats (Tables 03.1 and 03.2) -/

structure Fmt where
  ebits : Nat
  mbits : Nat
  bias  : Nat
  /-- magnitude code of the largest finite value -/
  top   : Nat
  /-- BF16 and FP32: infinity and NaN under an exponent of all ones -/
  ieee  : Bool
  /-- exponent of the largest finite value (R71) -/
  emax  : Nat
deriving DecidableEq, Repr

def fmtOf : Nat → Fmt
  | 0 => ⟨8, 7, 127, 0x7F7F, true, 127⟩
  | 1 => ⟨4, 3, 7, 0x7E, false, 8⟩
  | 2 => ⟨5, 2, 15, 0x7B, false, 15⟩
  | 3 => ⟨3, 2, 3, 0x1F, false, 4⟩
  | 4 => ⟨2, 3, 1, 0x1F, false, 2⟩
  | 5 => ⟨2, 1, 1, 0x7, false, 2⟩
  | _ => ⟨8, 23, 127, 0x7F7FFFFF, true, 127⟩

def Fmt.bits (f : Fmt) : Nat := 1 + f.ebits + f.mbits

/-- R63: codes 7 to 15 are reserved. -/
def fmtReserved (c : Nat) : Bool := decide (7 ≤ c)

/-- A format with block scales. -/
def isMx (c : Nat) : Bool := decide (1 ≤ c) && decide (c ≤ 5)

/-- Depth class by its K (Table 03.2): 128, 256, 512; 0 for FP32. -/
def depthOf : Nat → Nat
  | 0 => 128 | 1 => 256 | 2 => 256 | 3 => 512 | 4 => 512 | 5 => 512 | _ => 0

/-- Bits of an element as packed (R60). -/
def elemBits : Nat → Nat
  | 0 => 16 | 1 => 8 | 2 => 8 | 3 => 6 | 4 => 6 | 5 => 4 | _ => 32

/-- R60: an element's bits at its place in a run of elements that starts at byte `a`. -/
def elemAt (cs : List Host.Cell) (a fmt j : Nat) : Nat :=
  let w := elemBits fmt
  if w < 8 then
    (natAt cs (a + j * w / 8) 2 >>> (j * w % 8)) % 2 ^ w
  else natAt cs (a + j * (w / 8)) (w / 8)

/-- R59: the exact value of a magnitude code. -/
def magValue (f : Fmt) (c : Nat) : Num :=
  let e := c / 2 ^ f.mbits
  let m := c % 2 ^ f.mbits
  if e = 0 then .fin m (1 - (f.bias : Int) - f.mbits) else .fin (2 ^ f.mbits + m : Nat) ((e : Int) - f.bias - f.mbits)

def Num.neg : Num → Num
  | .fin m e => if m = 0 then .negZero else .fin (-m) e
  | .negZero => .fin 0 0
  | .inf n => .inf (!n)
  | .nan => .nan

/-- R59 with the codes for infinity and NaN of Table 03.1. -/
def decodeElem (fmt bits : Nat) : Num :=
  let f := fmtOf fmt
  let sign := bitOf bits (f.ebits + f.mbits)
  let mag := bits % 2 ^ (f.ebits + f.mbits)
  let v : Num :=
    if mag ≤ f.top then magValue f mag
    else if f.ieee || fmt == 2 then
      if mag = f.top + 1 then .inf false else .nan
    else .nan
  if sign then v.neg else v

/-- The value of a number as an operand of the array: a zero of either sign is zero. -/
def Num.operand : Num → Num
  | .negZero => .fin 0 0
  | x => x

/-- R61: scaled by 2^(e − 127); a scale byte 0xFF makes every element NaN. -/
def scaled (scale : Nat) (x : Num) : Num :=
  if scale = 0xFF then .nan
  else match x with
    | .fin m e => if m = 0 then .fin 0 0 else .fin m (e + scale - 127)
    | y => y

/-- An exact product of the array, with 0 × infinity a NaN (R80). -/
def Num.mul (a b : Num) : Num :=
  match a.operand, b.operand with
  | .nan, _ => .nan
  | _, .nan => .nan
  | .inf p, .inf q => .inf (p != q)
  | .inf p, .fin m _ => if m = 0 then .nan else .inf (p != decide (m < 0))
  | .fin m _, .inf q => if m = 0 then .nan else .inf (q != decide (m < 0))
  | .fin m e, .fin n f => .fin (m * n) (e + f)
  | _, _ => .fin 0 0

/-! ### Rounding -/

/-- floor(log2(n / d)) of a positive quotient. -/
def floorLog2 (n d : Nat) : Int :=
  let k : Int := (Nat.log2 n : Int) - Nat.log2 d
  if decide (0 ≤ k) then (if d * 2 ^ k.toNat ≤ n then k else k - 1)
  else (if d ≤ n * 2 ^ (-k).toNat then k else k - 1)

/-- A quotient over a power of two: n / d ÷ 2^t as a numerator and a denominator. -/
def scaleQuot (n d : Nat) (t : Int) : Nat × Nat := (n * 2 ^ (-t).toNat, d * 2 ^ t.toNat)

/-- R67, R68: the magnitude code nearest to n / d, or by the draw g; the grid goes on above the largest finite value. -/
def roundMag (f : Fmt) (g : Option Nat) (n d : Nat) : Nat :=
  if n = 0 then 0
  else
    let q : Int := max (floorLog2 n d) (1 - (f.bias : Int))
    let nd := scaleQuot n d (q - f.mbits)
    let k := nd.1 / nd.2
    let r := nd.1 % nd.2
    let up := match g with
      | none => decide (nd.2 < 2 * r) || (decide (2 * r = nd.2) && decide (k % 2 = 1))
      | some x => decide (2 ^ 24 ≤ 2 ^ 24 * r / nd.2 + x)
    ((q + f.bias - 1).toNat) * 2 ^ f.mbits + k + bnat up

/-- The quotient of a finite number's magnitude. -/
def magQuot (m e : Int) : Nat × Nat := (m.natAbs * 2 ^ e.toNat, 2 ^ (-e).toNat)

/-- R67, R69, R81: a number in BF16 or FP32, and whether a finite value became infinite. -/
def encodeIeee (fmt : Nat) (g : Option Nat) (x : Num) : Nat × Bool :=
  let f := fmtOf fmt
  let sbit := 2 ^ (f.ebits + f.mbits)
  let infCode := f.top + 1
  match x with
  | .nan => (infCode + 2 ^ (f.mbits - 1), false)
  | .inf n => (bnat n * sbit + infCode, false)
  | .negZero => (sbit, false)
  | .fin m e =>
    if m = 0 then (0, false)
    else
      let nd := magQuot m e
      let c := roundMag f g nd.1 nd.2
      if f.top < c then (bnat (decide (m < 0)) * sbit + infCode, true) else (bnat (decide (m < 0)) * sbit + c, false)

/-- What a block of an MX output holds (R70 to R73). -/
structure MxBlock where
  scale  : Nat
  codes  : List Nat
  clamps : Nat
  isNan  : Bool
deriving DecidableEq, Repr

/-- Largest magnitude as a quotient. -/
def maxQuot (xs : List Num) : Nat × Nat :=
  xs.foldl (fun acc x => match x with
    | .fin m e => let nd := magQuot m e; if acc.1 * nd.2 < nd.1 * acc.2 then nd else acc
    | _ => acc) (0, 1)

/-- R71 step 5 for one lane: its code and whether it was clamped. -/
def mxElem (f : Fmt) (scale : Nat) (g : Option Nat) (x : Num) : Nat × Bool :=
  let sbit := 2 ^ (f.ebits + f.mbits)
  match x with
  | .fin m e =>
    if m = 0 then (0, false)
    else
      let nd := magQuot m (e + 127 - scale)
      let c := roundMag f g nd.1 nd.2
      if f.top < c then (bnat (decide (m < 0)) * sbit + f.top, true) else (bnat (decide (m < 0)) * sbit + c, false)
  | .negZero => (sbit, false)
  | .inf n => (bnat n * sbit + f.top + 1, false)
  | .nan => (0, false)

/-- The scale byte of a block's finite lanes (R71 steps 1 to 4); 0x00 where it has none (log entry 53). -/
def mxScale (f : Fmt) (xs : List Num) : Nat :=
  let a := maxQuot xs
  if a.1 = 0 then 0 else (min 254 (max 0 (floorLog2 a.1 a.2 - f.emax + 127))).toNat

/-- R71 to R73: a block of valid lanes with their draws. -/
def encodeMx (fmt : Nat) (lanes : List (Num × Option Nat)) : MxBlock :=
  let f := fmtOf fmt
  let xs := lanes.map (·.1)
  let bad := xs.any (fun x => match x with
    | .nan => true
    | .inf _ => fmt != 2
    | _ => false)
  if bad then ⟨0xFF, xs.map (fun _ => 0), 0, true⟩
  else
    let zero := (maxQuot xs).1 = 0
    let sc := mxScale f xs
    let es := lanes.map (fun l => match l.1 with
      | .inf n => mxElem f sc l.2 (.inf n)
      | x => if zero then (0, false) else mxElem f sc l.2 x)
    ⟨sc, es.map (·.1), (es.filter (·.2)).length, false⟩

/-- R60: element codes packed into bytes. -/
def packElems (fmt : Nat) (codes : List Nat) : List Byte :=
  let w := elemBits fmt
  let total := codes.foldr (fun c acc => c + 2 ^ w * acc) 0
  leBytes (ceilDiv (codes.length * w) 8) total

/-! ### FP32 arithmetic (R83, R291): codes of 32 bits -/

def f32NaN : Nat := 0x7FC00000
def f32One : Nat := 0x3F800000

def f32 (w : Nat) : Num := decodeElem 6 (w % 2 ^ 32)

def f32Sign (w : Nat) : Bool := bitOf w 31

def toF32 (x : Num) : Nat := (encodeIeee 6 none x).1

/-- A quotient with a sign, rounded to nearest even; a zero keeps the sign. -/
def quotF32 (neg : Bool) (n d : Nat) : Nat :=
  let c := roundMag (fmtOf 6) none n d
  bnat neg * 2 ^ 31 + min c 0x7F800000

/-- Fused multiply-add, rounded once. -/
def f32Fma (a b c : Nat) : Nat :=
  let sp := f32Sign a != f32Sign b
  match (f32 a).operand, (f32 b).operand, (f32 c).operand with
  | .nan, _, _ => f32NaN
  | _, .nan, _ => f32NaN
  | _, _, .nan => f32NaN
  | x, y, z =>
    match Num.mul x y, z with
    | .nan, _ => f32NaN
    | .inf p, .inf q => if p = q then toF32 (.inf p) else f32NaN
    | .inf p, _ => toF32 (.inf p)
    | _, .inf q => toF32 (.inf q)
    | .fin m e, .fin n k =>
      let lo := min e k
      let sum := m * 2 ^ (e - lo).toNat + n * 2 ^ (k - lo).toNat
      if sum = 0 then (if sp && f32Sign c then 2 ^ 31 else 0) else toF32 (.fin sum lo)
    | _, _ => f32NaN

def f32Add (a b : Nat) : Nat := f32Fma a f32One b

/-- A product: a fused multiply-add with −0, which changes no result. -/
def f32Mul (a b : Nat) : Nat := f32Fma a b (2 ^ 31)

def f32Neg (a : Nat) : Nat := if f32Sign a then a - 2 ^ 31 else a + 2 ^ 31

def f32Sub (a b : Nat) : Nat := f32Add a (if f32 b = .nan then f32NaN else f32Neg b)

def f32Div (a b : Nat) : Nat :=
  let neg := f32Sign a != f32Sign b
  match (f32 a).operand, (f32 b).operand with
  | .nan, _ => f32NaN
  | _, .nan => f32NaN
  | .inf _, .inf _ => f32NaN
  | .inf _, _ => toF32 (.inf neg)
  | _, .inf _ => bnat neg * 2 ^ 31
  | .fin m e, .fin n k =>
    if n = 0 then (if m = 0 then f32NaN else toF32 (.inf neg))
    else if m = 0 then bnat neg * 2 ^ 31
    else
      let p := magQuot m e
      let q := magQuot n k
      quotF32 neg (p.1 * q.2) (p.2 * q.1)
  | _, _ => f32NaN

/-- Integer square root, bit by bit. -/
def isqrtGo : Nat → Nat → Nat → Nat
  | 0, _, acc => acc
  | k + 1, n, acc =>
    let t := acc + 2 ^ k
    isqrtGo k n (if t * t ≤ n then t else acc)

def isqrt (n : Nat) : Nat := isqrtGo (Nat.log2 n / 2 + 1) n 0

/-- Square root of n / d to 64 bits below the point, with a last bit that says the root is not exact. -/
def rootQuot (n d : Nat) : Nat × Nat :=
  let a := n * 2 ^ 640
  let r := isqrt (a / d)
  (2 * r + bnat (r * r * d != a), 2 * 2 ^ 320)

def f32Sqrt (a : Nat) : Nat :=
  match (f32 a).operand with
  | .nan => f32NaN
  | .inf n => if n then f32NaN else toF32 (.inf false)
  | .fin m e =>
    if m = 0 then a % 2 ^ 32
    else if m < 0 then f32NaN
    else let q := magQuot m e; let r := rootQuot q.1 q.2; quotF32 false r.1 r.2
  | .negZero => 2 ^ 31

/-! #### Special functions (Table 03.5), evaluated far beyond FP32 and rounded once (log entry 17) -/

def f32Recip (a : Nat) : Nat := f32Div f32One a

def f32Rsqrt (a : Nat) : Nat :=
  match (f32 a).operand with
  | .nan => f32NaN
  | .inf n => if n then f32NaN else 0
  | .fin m e =>
    if m = 0 then toF32 (.inf (f32Sign a))
    else if m < 0 then f32NaN
    else let q := magQuot m e; let r := rootQuot q.2 q.1; quotF32 false r.1 r.2
  | .negZero => toF32 (.inf true)

/-- Bits below the point of the fixed-point evaluations. -/
def fixBits : Nat := 256

/-- ln 2 = sum of 1 / (i 2^i). -/
def fixLn2 : Int :=
  (List.range 280).foldl (fun acc i => acc + (2 ^ fixBits / ((i + 1) * 2 ^ (i + 1)) : Nat)) (0 : Int)

/-- exp of |r| below 1 by its series. -/
def fixExp (r : Int) : Int :=
  ((List.range 70).foldl (fun (p : Int × Int) i =>
    let t := p.2 * r / (2 ^ fixBits * (i + 1 : Int))
    (p.1 + t, t)) ((2 ^ fixBits : Int), (2 ^ fixBits : Int))).1

def f32Exp (a : Nat) : Nat :=
  match (f32 a).operand with
  | .nan => f32NaN
  | .inf n => if n then 0 else toF32 (.inf false)
  | .fin m e =>
    if m = 0 then f32One
    else
      let x : Int := if decide (0 ≤ e) then m * 2 ^ e.toNat * 2 ^ fixBits else m * 2 ^ (fixBits - (-e).toNat)
      if (89 : Int) * 2 ^ fixBits < x then toF32 (.inf false)
      else if x < (-104 : Int) * 2 ^ fixBits then 0
      else
        let k : Int := x / fixLn2
        let y := fixExp (x - k * fixLn2)
        quotF32 false (y.toNat * 2 ^ k.toNat) (2 ^ fixBits * 2 ^ (-k).toNat)
  | .negZero => f32One

/-- 2 atanh z by its series, z below 1/3. -/
def fixLog (z : Int) : Int :=
  let z2 := z * z / (2 ^ fixBits : Int)
  2 * ((List.range 90).foldl (fun (p : Int × Int) i =>
    (p.1 + p.2 / (2 * i + 1 : Int), p.2 * z2 / (2 ^ fixBits : Int))) ((0 : Int), z)).1

def f32Ln (a : Nat) : Nat :=
  match (f32 a).operand with
  | .nan => f32NaN
  | .inf n => if n then f32NaN else toF32 (.inf false)
  | .fin m e =>
    if m = 0 then toF32 (.inf true)
    else if m < 0 then f32NaN
    else
      let q := magQuot m e
      let k := floorLog2 q.1 q.2
      let nd := scaleQuot q.1 q.2 k
      let z : Int := ((nd.1 : Int) - nd.2) * 2 ^ fixBits / ((nd.1 : Int) + nd.2)
      let v := k * fixLn2 + fixLog z
      if v = 0 then 0 else quotF32 (decide (v < 0)) v.natAbs (2 ^ fixBits)
  | .negZero => toF32 (.inf true)

/-! ### Lane generators (R74 to R79) -/

/-- One advance of R74: the new state. -/
def genNext (x : BitVec 64) : BitVec 64 :=
  let x := x ^^^ (x >>> 12)
  let x := x ^^^ (x <<< 25)
  x ^^^ (x >>> 27)

/-- The output of the state just reached. -/
def genOut (x : BitVec 64) : BitVec 64 := x * 0x2545F4914F6CDD1D

def genIter : Nat → BitVec 64 → BitVec 64
  | 0, x => x
  | n + 1, x => genIter n (genNext x)

/-- A seed: draws from the entropy source until one is not zero (R77; log entry 18). -/
def seedFrom : Nat → Nat → BitVec 64
  | 0, _ => 1
  | n + 1, k => if Config.entropy k = 0 then seedFrom n (k + 1) else Config.entropy k

/-- Numbers of the generators: 512 per core (columns, then row-unit lanes), then 64 per base die (R76). -/
def colGen (core col : Nat) : Nat := core * 512 + col
def rowGen (core lane : Nat) : Nat := core * 512 + 256 + lane
def updGen (stack lane : Nat) : Nat := 32768 + stack * 64 + lane
def genCount : Nat := 33536

/-- The state of a generator in a cycle: its last seeding advanced once per cycle since (R75). -/
def State.genState (s : State) (i cycle : Nat) : BitVec 64 :=
  match s.gens.reseeds.find? (fun r => r.1 == i) with
  | some (_, serial, cyc) => genIter (cycle - cyc) (seedFrom 16 (16 * serial))
  | none => genIter (cycle - s.gens.at_) (seedFrom 16 (16 * (s.gens.seeded + i)))

/-- g of R68: bits [63:40] of the output in a cycle. -/
def State.genDraw (s : State) (i cycle : Nat) : Nat := fieldOf (genOut (s.genState i cycle)).toNat 63 40

/-- The sets of lanes that round together (`Generators.drawn`). -/
def lanesOf (i : Nat) : Nat := if i < 32768 then i / 256 else 128 + (i - 32768) / 64

/-- The first cycle from now on in which a set of lanes may round: none of them rounds twice in a cycle (R75). -/
def State.roundAt (s : State) (lanes : Nat) : Nat := max s.clock.now (tget 0 s.gens.drawn lanes)

/-- A set of lanes has rounded for `n` cycles. -/
def State.roundedFor (s : State) (lanes n : Nat) : State :=
  if n = 0 then s else { s with gens := { s.gens with drawn := tput s.gens.drawn lanes (s.roundAt lanes + n) } }

/-- R77: every generator is seeded afresh; the serials of the draws are never used again. -/
def State.seedAll (s : State) : State :=
  { s with gens := ⟨s.ctl.free, s.clock.now, [], [], []⟩, ctl := { s.ctl with free := s.ctl.free + genCount } }

/-- Generators whose parity this cycle's advance finds wrong (R79). -/
def State.upset (s : State) (is : List Nat) : State := { s with gens := { s.gens with bad := is } }

/-- R79: reseeding one generator. -/
def State.reseed (s : State) (i : Nat) : State :=
  let d := s.draw
  { d.2 with gens := { d.2.gens with
      reseeds := (i, d.1, d.2.clock.now) :: d.2.gens.reseeds.filter (fun r => r.1 != i),
      bad := d.2.gens.bad.filter (fun b => b != i) } }

end Sys2Proof.Machine
end

