-- ==== Sys2Proof/Machine/MemOps.lean ====
section
/-!
DEFINITION. Reads and writes of the memory tiers (chapter 10): the stacks through their coders and the memory-side
caches, the LPDDR5X tier, and the scratchpads; armed flip masks (R283); the code map (R260, R287).
-/

namespace Sys2Proof.Machine

/-! ### Zarixon addresses and what lies at them (R257, R273, R331, R518) -/

def zEndpoint (a : Nat) : Nat := fieldOf a 63 52
def zSpace (a : Nat) : Nat := fieldOf a 51 48
def zOff (a : Nat) : Nat := a % 2 ^ 48

/-- Every unit of a run of bytes lies in a valid code region. -/
def State.hbmMapped (s : State) (off n : Nat) : Bool :=
  decide (off + n ≤ 12 * stackBytes) &&
  (List.range ((off + n - 1) / unit16 + 1 - off / unit16)).all (fun i => (s.codeAt ((off / unit16 + i) * unit16)).isSome)

/-- Windows of the base dies (Table 10.20). -/
inductive Window where
  | upd (stack off : Nat)
  | sep (stack off : Nat)
  | intake (stack slot off : Nat)
deriving DecidableEq, Repr

def windowBase (st : Nat) : Nat := 0x010000000000 + st * 0x001000000000

def windowAt (off : Nat) : Option Window :=
  if off < 0x010000000000 then none
  else
    let st := (off - 0x010000000000) / 0x001000000000
    let o := (off - 0x010000000000) % 0x001000000000
    if 12 ≤ st then none
    else if o < 64 then some (.upd st o)
    else if decide (0x1000 ≤ o) && decide (o < 0x1040) then some (.sep st (o - 0x1000))
    else if decide (0x100000000 ≤ o) && decide (o < 0x200000000) then
      some (.intake st ((o - 0x100000000) / 0x10000000) ((o - 0x100000000) % 0x10000000))
    else none

/-- Mapped bytes of space 0 or 1. -/
def State.mapped (s : State) (space off n : Nat) : Bool :=
  match space with
  | 0 => s.hbmMapped off n
  | 1 => decide (off + n ≤ 2 ^ 40)
  | _ => false

/-! ### Readers -/

/-- How a reader reacts to an uncorrectable read (Table 10.2): it raises a fault, with these fields, or latches. -/
structure Reader where
  raises : Bool
  latches : Bool
  at_    : FaultAt
deriving DecidableEq, Repr

def memFault (stack addr : Nat) : FaultAt := { code := 0x0701, cls := clsHbm, inst := stack, addr := addr }

/-- Control messages, queue pairs, other modules, the Churn. -/
def hostReader : Reader := ⟨false, true, { code := 0x0701, cls := clsHbm, inst := 0 }⟩

def unitReader : Reader := ⟨true, false, { code := 0x0701, cls := clsHbm, inst := 0 }⟩

def segReader (core entry desc : Nat) : Reader :=
  ⟨true, false, { code := 0x0701, cls := clsHbm, inst := 0, core := core, entry := entry, desc := desc }⟩

/-- State set of Table 10.4. -/
def stateSetRole (role : Nat) : Bool := [1, 2, 3, 4, 5, 11, 12].contains role

/-- An HBM offset in a region of the state set (R265). -/
def State.inStateSet (s : State) (off : Nat) : Bool :=
  match s.run.plan with
  | none => false
  | some p => p.regions.any (fun r => r.space == 1 && stateSetRole r.role &&
      decide (zOff r.base.toNat ≤ off) && decide (off < zOff r.base.toNat + r.size))

/-! ### Uncorrectable reads (R264, R265) -/

/-- R264, R265: uncorrectable, counted; the reader's reaction by Table 10.2. -/
def State.uncorrectable (s : State) (r : Reader) (st off : Nat) : State :=
  let set := s.inStateSet off
  let s := ((s.bump (Reg.HBM_UNCORRECTABLE st)).setReg (Reg.HBM_UE_ADDR_LO st) (off % stackBytes)).setReg
    (Reg.HBM_UE_ADDR_HI st) (off % stackBytes / 2 ^ 32)
  let s := if r.latches then s.event clsHbm st evMemory (s.zAddr 0 off) else s
  if r.raises || set then s.raise { r.at_ with inst := st, addr := s.zAddr 0 off } set else s

/-- A block read through its base die's coder. -/
def State.readBlock (s : State) (r : Reader) (blk : Nat) : Coded :=
  s.readBlockBy (fun t off => t.uncorrectable r (off / stackBytes) off) blk

/-! ### Flip masks (R283) -/

def flipSelect (cls inst : Nat) : Nat :=
  if cls = clsCore then Reg.CORE_FLIP_SELECT inst
  else if cls = clsMsc then Reg.MSC_FLIP_SELECT inst
  else if cls = clsHbm then Reg.HBM_FLIP_SELECT inst
  else Reg.LPDDR_FLIP_SELECT inst

/-- An armed mask: LANE (reserved values taken as 0), CHECK_BITS, MEM and the mask. -/
structure Flip where
  lane  : Nat
  check : Bool
  mem   : Nat
  mask  : Nat
deriving DecidableEq, Repr

def State.armed (s : State) (cls inst : Nat) : Option Flip :=
  let w := s.reg (flipSelect cls inst)
  if bitOf w 31 then
    let lane := fieldOf w 7 4
    let lim := if cls = clsCore then 4 else if cls = clsHbm then 8 else 16
    let mem := fieldOf w 3 0
    some ⟨if lane < lim then lane else 0, bitOf w 8, if decide (cls = clsCore) && decide (mem < 3) then mem else 0,
      s.reg (Reg.FLIP_MASK_LO cls inst) + 2 ^ 32 * s.reg (Reg.FLIP_MASK_HI cls inst)⟩
  else none

/-- Applied once: both halves clear and ARMED clears. -/
def State.disarm (s : State) (cls inst : Nat) : State :=
  ((s.setReg (Reg.FLIP_MASK_LO cls inst) 0).setReg (Reg.FLIP_MASK_HI cls inst) 0).setReg (flipSelect cls inst)
    (setField (s.reg (flipSelect cls inst)) 31 31 0)

/-! ### The memory-side caches (R269 to R272) -/

def State.cacheOf (s : State) (q : Nat) : Cache := tget Cache.reset s.mem.cache q

def State.setCache (s : State) (q : Nat) (c : Cache) : State :=
  { s with mem := { s.mem with cache := tputD Cache.reset s.mem.cache q c } }

/-- 64 MiB of 16-way sets of 128-byte lines (R4, R269), so 32,768 sets; which set a line falls into is open (log
entry 19). -/
def cacheWays : Nat := 16

def cacheSets : Nat := 2 ^ 26 / (128 * cacheWays)

def sameSet (a b : Nat) : Bool := Config.cacheSet a % cacheSets == Config.cacheSet b % cacheSets

def dropLast (l : Nat) (p : Nat → Bool) (xs : List Nat) : List Nat :=
  match (xs.reverse.find? p) with
  | none => xs
  | some v => if v = l then xs else xs.filter (fun x => x != v)

/-- A line enters its set, most recently used; the least recently used line of a full set leaves. -/
def Cache.enter (c : Cache) (l : Nat) (fresh : Bool) : Cache :=
  let others := c.lines.filter (fun x => x != l)
  let lines := if decide (cacheWays ≤ others.length) &&
      decide (cacheWays ≤ (others.filter (sameSet l)).length) then dropLast l (sameSet l) others else others
  { c with lines := l :: lines, fresh := if fresh then l :: c.fresh.filter lines.contains else c.fresh.filter lines.contains,
           errs := c.errs.filter (fun e => lines.contains e.1), wrong := c.wrong.filter (fun e => lines.contains e.1) }

def Cache.drop (c : Cache) (l : Nat) : Cache :=
  { c with lines := c.lines.filter (fun x => x != l), fresh := c.fresh.filter (fun x => x != l), errs := tdel c.errs l,
           wrong := tdel c.wrong l }

/-- A line fill through the coder of both its blocks; a line with an error is not kept, one with bytes that the coder
delivered wrong is kept with them. An armed mask of the cache is applied to it. -/
def State.fillLine (s : State) (r : Reader) (l : Nat) (fresh : Bool) : Coded :=
  let a := s.readBlock r (2 * l)
  let b := a.s.readBlock r (2 * l + 1)
  let c : Coded := ⟨b.s, a.bad ++ b.bad, a.wrong ++ b.wrong⟩
  let q := l * 128 / stackBytes / 3
  if c.bad.isEmpty then
    let k := (c.s.cacheOf q).enter l fresh
    let s := c.s.setCache q { k with wrong := if c.wrong.isEmpty then tdel k.wrong l else tput k.wrong l c.wrong }
    match s.armed clsMsc q with
    | none => { c with s := s }
    | some f =>
      let m : ErrMask := if f.check then ⟨0, BitVec.ofNat 128 ((f.mask % 256) * 2 ^ (8 * f.lane))⟩
        else ⟨BitVec.ofNat 1024 (f.mask * 2 ^ (64 * f.lane)), 0⟩
      let k := s.cacheOf q
      { c with s := (s.setCache q { k with errs := tputD ⟨0, 0⟩ k.errs l m }).disarm clsMsc q }
  else c

/-- DEPTH of PF_CONFIG: 0 taken as 1, above 32 as 32. -/
def State.pfDepth (s : State) (q : Nat) : Nat := min 32 (max 1 (fieldOf (s.reg (Reg.MSC_PF_CONFIG q)) 5 0))

/-- A prefetcher keeps DEPTH lines ahead of its stream. -/
def State.prefetch (s : State) (q l : Nat) (stride : Int) : State :=
  (List.range (s.pfDepth q)).foldl (fun t i =>
    let n : Int := (l : Int) + stride * (i + 1)
    let k := n.toNat
    if decide (n < 0) || (t.cacheOf q).lines.contains k || decide (k * 128 / stackBytes / 3 ≠ q) ||
        !(t.hbmMapped (k * 128) 128) then t
    else (t.bump (Reg.MSC_PF_ISSUED q)).fillLine hostReader k true |>.s) s

/-- A miss within 64 lines of a stream is the first at its distance (log entry 19). -/
def Prefetcher.taught (p : Prefetcher) (l : Nat) : Prefetcher :=
  let d : Int := (l : Int) - p.last
  if d ≠ 0 ∧ d.natAbs ≤ 64 then { p with dist := d, run := 1 } else p

/-- The streams at an access to line l: a stream that the line continues moves on; of two misses at one distance from a
stream the second gives it that stride; any other miss takes the least recently used prefetcher with a stride of one
line. -/
def stepStreams (pf : List Prefetcher) (l : Nat) (miss : Bool) : List Prefetcher × Option Int :=
  match pf.find? (fun p => decide ((p.last : Int) + p.stride = l)) with
  | some p => ({ p with last := l, dist := 0, run := 0 } :: pf.filter (fun x => x != p), some p.stride)
  | none =>
    if !miss then (pf, none)
    else match pf.find? (fun p => decide (p.run = 1) && decide ((p.last : Int) + 2 * p.dist = l)) with
      | some p => ({ last := l, stride := p.dist, dist := 0, run := 0 } :: pf.filter (fun x => x != p), some p.dist)
      | none => (⟨l, 1, 0, 0⟩ :: (pf.map (·.taught l)).take 31, some 1)

def State.stream (s : State) (q l : Nat) (miss : Bool) : State :=
  if bitOf (s.reg (Reg.MSC_PF_CONFIG q)) 8 then
    let p := stepStreams (s.cacheOf q).pf l miss
    let s := s.setCache q { s.cacheOf q with pf := p.1 }
    match p.2 with
    | none => s
    | some stride => s.prefetch q l stride
  else s

/-- The words of a cached line: SEC-DED over each 64 bits (R270). -/
def lineVerdict (m : ErrMask) : Verdict :=
  let vs := (List.range 16).map (fun l => standardVerdict m l)
  if vs.contains .beyond then .beyond else if vs.contains .bad then .bad
  else if vs.contains .corrected then .corrected else .ok

/-- A read of one line by anything but a base-die unit. -/
def State.readLine (s : State) (r : Reader) (l : Nat) : Coded :=
  let q := l * 128 / stackBytes / 3
  let c := s.cacheOf q
  let miss := fun (s : State) => let f := s.fillLine r l false; { f with s := f.s.stream q l true }
  let refetch := fun (s : State) =>
    (((s.setCache q ((s.cacheOf q).drop l)).bump (Reg.MSC_REFETCHES q)).pail clsMsc q (s.zAddr 0 (l * 128))).fillLine r l false
  if c.lines.contains l then
    let was := c.fresh.contains l
    let s := s.bump (Reg.MSC_HITS q)
    let s := if was then s.bump (Reg.MSC_PF_USED q) else s
    let s := s.setCache q { c with lines := l :: c.lines.filter (fun x => x != l), fresh := c.fresh.filter (fun x => x != l) }
    let s := if was then s.stream q l false else s
    let m := tget ⟨0, 0⟩ (s.cacheOf q).errs l
    let fixed := fun (s : State) => s.setCache q { s.cacheOf q with errs := tdel (s.cacheOf q).errs l }
    let wrong := tget [] (s.cacheOf q).wrong l
    match lineVerdict m with
    | .ok => ⟨s, [], wrong⟩
    | .corrected => ⟨((fixed s).bump (Reg.MSC_CORRECTED q)).pail clsMsc q (s.zAddr 0 (l * 128)), [], wrong⟩
    | .bad => refetch s
    | .beyond =>
      let d := s.draw
      match Config.beyondCode d.1 % 3 with
      | 0 => refetch d.2
      | 1 => ⟨((fixed d.2).bump (Reg.MSC_CORRECTED q)).pail clsMsc q (s.zAddr 0 (l * 128)), [],
          (List.range 128).map (fun i => (l * 128 + i, Config.beyondByte d.1 i))⟩
      | _ => ⟨d.2, [], (List.range 128).map (fun i =>
          (l * 128 + i, byteAt s.mem.cells (l * 128 + i) ^^^ BitVec.ofNat 8 (m.data.toNat / 2 ^ (8 * i))))⟩
  else miss (s.bump (Reg.MSC_MISSES q))

/-! ### Reads and writes of spaces 0 and 1 -/

/-- What a read gave: the bytes before the first unit without data, and that unit's offset. -/
structure Got where
  s    : State
  data : List Byte
  bad  : Option Nat

/-- The first unit without data that a run of bytes touches. -/
def firstBad (bads : List (Nat × Nat)) (off n : Nat) : Option Nat :=
  (bads.find? (fun b => decide (b.1 < off + n) && decide (off < b.1 + b.2))).map (·.1)

def finishRead (c : Coded) (base off n : Nat) : Got :=
  match firstBad c.bad off n with
  | none => ⟨c.s, patch c.wrong off (bytesAt c.s.mem.cells (base + off) n), none⟩
  | some u => ⟨c.s, patch c.wrong off (bytesAt c.s.mem.cells (base + off) (u - off)), some u⟩

/-- A read of a stack through its quarter's cache, line by line, up to the first unit without data. -/
def State.readHbm (s : State) (r : Reader) (off n : Nat) : Got :=
  if n = 0 then ⟨s, [], none⟩
  else
    finishRead ((List.range ((off + n - 1) / 128 + 1 - off / 128)).foldl (fun (c : Coded) i =>
      if (firstBad c.bad off n).isSome then c
      else
        let d := c.s.readLine r (off / 128 + i)
        ⟨d.s, c.bad ++ d.bad, c.wrong ++ d.wrong⟩) ⟨s, [], []⟩) 0 off n

/-- A read by a base-die unit: the coder without the cache. -/
def State.readStack (s : State) (r : Reader) (off n : Nat) : Got :=
  if n = 0 then ⟨s, [], none⟩
  else
    let lo := off / 64
    let hi := (off + n - 1) / 64
    let hit := fun (b : Nat) => decide (lo ≤ b) && decide (b ≤ hi)
    let blocks := if s.mem.recoded.isEmpty then (s.mem.errs.map (·.1)).filter hit
      else (List.range (hi + 1 - lo)).map (· + lo)
    finishRead (blocks.foldl (fun (c : Coded) b =>
      if (firstBad c.bad off n).isSome then c
      else
        let d := c.s.readBlock r b
        ⟨d.s, c.bad ++ d.bad, c.wrong ++ d.wrong⟩) ⟨s, [], []⟩) 0 off n

/-- What a write did: bytes written, and the unit whose merge found no data. -/
structure Put where
  s    : State
  done : Nat
  bad  : Option Nat

/-- The unit of the code of an offset (Table 10.1). -/
def State.unitSize (s : State) (off : Nat) : Nat := if s.codeAt off = some 1 then 8 else 64

/-- One unit of a block read through its base die's coder. -/
def State.readUnit (s : State) (r : Reader) (off : Nat) : Coded :=
  let blk := off / 64
  if s.unitSize off = 64 || s.staleCode blk then s.readBlock r blk
  else
    match tfind s.mem.errs blk with
    | none => ⟨s, [], []⟩
    | some m => codeUnit (fun t off => t.uncorrectable r (off / stackBytes) off) blk (off % 64 / 8 * 8) 8
        (standardVerdict m (off % 64 / 8)) ⟨s, [], []⟩

/-- A partial unit is read, merged and written (R262): what the read delivered wrong is written back with the rest. -/
def State.mergeUnit (s : State) (r : Reader) (off : Nat) : State × Option Nat :=
  let u := s.unitSize off
  let s := s.bump (Reg.HBM_RMW_UNITS (off / stackBytes))
  let c := s.readUnit r off
  let mine := c.wrong.filter (fun w => decide (off / u * u ≤ w.1) && decide (w.1 < off / u * u + u))
  match firstBad c.bad (off / u * u) u with
  | some b => (c.s, some b)
  | none => (mine.foldl (fun t w => t.setCells (setByte t.mem.cells w.1 w.2)) c.s, none)

/-- Errors that a write covers or merges go. -/
def clearErrs (s : State) (off n : Nat) : State :=
  { s with mem := { s.mem with errs := s.mem.errs.filterMap (fun e =>
      if decide (e.1 < off / 64) || decide ((off + n - 1) / 64 < e.1) then some e
      else if s.unitSize (e.1 * 64) = 64 then none
      else
        let m := (List.range 8).foldl (fun m l =>
          let a := e.1 * 64 + 8 * l
          if decide (a + 8 ≤ off) || decide (off + n ≤ a) then m else clearUnit m (8 * l) 8) e.2
        if m = ⟨0, 0⟩ then none else some (e.1, m)) } }

/-- Cached words that a write covers take the new data. -/
def updateLines (s : State) (off n : Nat) : State :=
  (List.range 4).foldl (fun t q =>
    let c := t.cacheOf q
    if c.errs.isEmpty && c.wrong.isEmpty then t
    else t.setCache q { c with
      wrong := c.wrong.map (fun e => (e.1, e.2.filter (fun w => !(decide (off ≤ w.1) && decide (w.1 < off + n)))))
      errs := c.errs.filterMap (fun e =>
      let m := (List.range 16).foldl (fun m l =>
        let a := e.1 * 128 + 8 * l
        if decide (a + 8 ≤ off) || decide (off + n ≤ a) then m else clearUnit m (8 * l) 8) e.2
      if m = ⟨0, 0⟩ then none else some (e.1, m)) }) s

/-- The bytes themselves, once every partial unit has been merged. -/
def State.storeHbm (s : State) (off : Nat) (bs : List Byte) : State :=
  if bs.isEmpty then s
  else ((updateLines (clearErrs s off bs.length) off bs.length).setCells (setBytes s.mem.cells off bs)).encodeRun off bs.length

/-- A write of a stack: partial first and last units are merged; a unit without data is left, and the write ends. -/
def State.writeHbm (s : State) (r : Reader) (off : Nat) (bs : List Byte) : Put :=
  let n := bs.length
  if n = 0 then ⟨s, 0, none⟩
  else
    let u0 := s.unitSize off
    let last := off + n - 1
    let u1 := s.unitSize last
    let p0 := decide (off % u0 ≠ 0) || decide (off + n < off / u0 * u0 + u0)
    let a := if p0 then s.mergeUnit r off else (s, none)
    match a.2 with
    | some u => ⟨a.1, 0, some u⟩
    | none =>
      let p1 := decide ((last + 1) % u1 ≠ 0) && !(p0 && decide (last / u1 = off / u1) && decide (u0 = u1))
      let b := if p1 then a.1.mergeUnit r last else (a.1, none)
      match b.2 with
      | none => ⟨b.1.storeHbm off bs, n, none⟩
      | some u => ⟨b.1.storeHbm off (bs.take (u - off)), u - off, some u⟩

/-- A write by a base-die unit: as any write, with the invalidation of R271. -/
def State.writeStack (s : State) (r : Reader) (off : Nat) (bs : List Byte) : Put :=
  let p := s.writeHbm r off bs
  { p with s := p.s.invalidate off p.done }

/-- The mask of an HBM block, applied to the next write made for a control message. -/
def State.flipHbm (s : State) (off n : Nat) : State :=
  let st := off / stackBytes
  if n = 0 then s
  else match s.armed clsHbm st with
    | none => s
    | some f =>
      let m := tget ⟨0, 0⟩ s.mem.errs (off / 64)
      let x : ErrMask := if f.check then ⟨0, BitVec.ofNat 128 f.mask⟩ else ⟨BitVec.ofNat 1024 (f.mask * 2 ^ (64 * f.lane)), 0⟩
      (s.setErr (off / 64) ⟨m.data ^^^ x.data, m.check ^^^ x.check⟩).disarm clsHbm st

/-! #### The LPDDR5X tier (R273 to R276) -/

def lpChip (off : Nat) : Nat := if off < 2 ^ 39 then 0 else 1

/-- The mask of an LPDDR block hits the first reception of a burst: one bit is corrected by link ECC; two bits are
corrected or make the transfer be retried, and the retry is clean. -/
def State.flipLp (s : State) (off : Nat) : State × Bool :=
  let c := lpChip off
  match s.armed clsLpddr c with
  | none => (s, false)
  | some f =>
    let s := s.disarm clsLpddr c
    let n := popcount 64 f.mask
    let fix := fun (s : State) => (s.bump (Reg.LPDDR_LINK_CORRECTED c)).pail clsLpddr c (s.zAddr 1 off)
    if n = 0 then (s, false)
    else if n = 1 then (fix s, false)
    else
      let d := s.draw
      match Config.beyondCode d.1 % 3 with
      | 0 => (d.2.bump (Reg.LPDDR_LINK_RETRIES c), false)
      | 1 => (fix d.2, decide (3 ≤ n))
      | _ => if n = 2 then (fix d.2, false) else (d.2, true)

/-- The first burst of a run of which every transfer fails, as a space-1 offset. -/
def State.lpUnread (s : State) (off n : Nat) : Option Nat :=
  ((s.mem.lpBad.filter (fun b => decide (off / 64 ≤ b) && decide (64 * b < off + n))).foldl (fun (m : Option Nat) b => match m with
    | none => some b
    | some x => some (min x b)) none).map (64 * ·)

/-- A transfer and its three retries have failed (R276). -/
def State.lpFail (s : State) (r : Reader) (off : Nat) : State :=
  let c := lpChip off
  let s := ((s.bumpBy (Reg.LPDDR_LINK_RETRIES c) 3).bump (Reg.LPDDR_UNCORRECTABLE c)).setReg (Reg.LPDDR_UE_ADDR_LO c)
    (off / 512 * 512)
  (s.setReg (Reg.LPDDR_UE_ADDR_HI c) (off / 2 ^ 32)).raise
    { r.at_ with code := 0x0701, cls := clsLpddr, inst := c, addr := s.zAddr 1 (off / 512 * 512) }

def State.readLp (s : State) (off n : Nat) (r : Reader := hostReader) : Got :=
  if n = 0 then ⟨s, [], none⟩
  else
    let f := s.flipLp off
    match f.1.lpUnread off n with
    | some u => ⟨f.1.lpFail r u, bytesAt f.1.mem.cells (lpKey off) (u - off), some (u / 512 * 512)⟩
    | none =>
      if f.2 then
        let d := f.1.draw
        ⟨d.2, (bytesAt d.2.mem.cells (lpKey off) n).mapIdx (fun i b => if i < 64 then Config.beyondByte d.1 i else b), none⟩
      else ⟨f.1, bytesAt f.1.mem.cells (lpKey off) n, none⟩

/-- Offsets of the data units of 512 bytes that a run covers in part (R275). -/
def partialUnits (off n : Nat) : List Nat :=
  if n = 0 then []
  else
    let a := off / 512 * 512
    let b := (off + n - 1) / 512 * 512
    let p0 := decide (off % 512 ≠ 0)
    let p1 := decide ((off + n) % 512 ≠ 0)
    if a = b then (if p0 || p1 then [a] else []) else (if p0 then [a] else []) ++ (if p1 then [b] else [])

/-- A data unit is read for the merge of a write that covers part of it; false when no transfer of it succeeds. -/
def State.mergeLp (s : State) (r : Reader) (u : Nat) : State × Bool :=
  let s := s.bump (Reg.LPDDR_PARTIAL_UNITS (lpChip u))
  let g := s.readLp u 512 r
  (g.s.setCells (setBytes g.s.mem.cells (lpKey u) g.data), g.bad.isNone)

/-- A write of the tier; a unit that cannot be merged is left, and the write ends. -/
def State.writeLp (s : State) (off : Nat) (bs : List Byte) (r : Reader := hostReader) : Put :=
  let t := (partialUnits off bs.length).foldl (fun (a : State × Option Nat) u =>
    if a.2.isSome then a
    else
      let m := a.1.mergeLp r u
      (m.1, if m.2 then none else some u)) (s, none)
  match t.2 with
  | none => ⟨t.1.setCells (setBytes t.1.mem.cells (lpKey off) bs), bs.length, none⟩
  | some u => ⟨t.1.setCells (setBytes t.1.mem.cells (lpKey off) (bs.take (u - off))), u - off, some (u / 512 * 512)⟩

/-- A read of space 0 or 1 by anything but a base-die unit. -/
def State.readMem (s : State) (r : Reader) (space off n : Nat) : Got :=
  if space = 0 then s.readHbm r off n else s.readLp off n r

def State.writeMem (s : State) (r : Reader) (space off : Nat) (bs : List Byte) : Put :=
  if space = 0 then s.writeHbm r off bs else s.writeLp off bs r

/-! #### Working copies (R23) -/

/-- Two runs of bytes share one. -/
def overlap (a n b m : Nat) : Bool := decide (a < b + m) && decide (b < a + n)

/-- Regions of a shard in its stack (Tables 10.3, 10.4). -/
def State.shardRegions (s : State) (st shard : Nat) : List Region :=
  match s.run.plan with
  | none => []
  | some p => p.regions.filter (fun r => r.space == 1 && decide (r.role ≤ 10) && r.shard == shard &&
      (stackOf (zOff r.base.toNat)).map (·.1) == some st)

/-- Bytes of a region that holds a shard's working copy while it is written (R23). -/
def State.workingHeld (s : State) (off n : Nat) : Bool :=
  (List.range 12).any (fun st => (s.upd st).holding.any (fun sh => (s.shardRegions st sh).any (fun r =>
    [6, 7, 8].contains r.role && overlap (zOff r.base.toNat) r.size off n)))

/-! #### Scratchpads (R277) -/

/-- 640 KiB per core. -/
def scratchBytes : Nat := 655360

def toggle (k : Nat) (l : List Nat) : List Nat := if l.contains k then l.filter (fun b => b != k) else k :: l

/-- The 8-byte lane of the storage word of a write's first byte, XORed; parity is wrong where an odd number of a byte's
bits changed, or where the parity bit itself was flipped. -/
def State.flipScratch (s : State) (core off : Nat) : State :=
  match s.armed clsCore core with
  | none => s
  | some f =>
    if f.mem = 0 then
      let lane := off / 32 * 32 + 8 * f.lane
      let s := s.disarm clsCore core
      (List.range 8).foldl (fun t i =>
        let k := scratchKey core (lane + i)
        let x := if f.check then 0 else fieldOf f.mask (8 * i + 7) (8 * i)
        let odd := if f.check then bitOf f.mask i else decide (popcount 8 x % 2 = 1)
        let t := t.setCells (setByte t.mem.cells k (byteAt t.mem.cells k ^^^ BitVec.ofNat 8 x))
        if odd then { t with mem := { t.mem with badScratch := toggle k t.mem.badScratch } } else t) s
    else s

def State.writeScratch (s : State) (core off : Nat) (bs : List (Byte × Bool)) : State :=
  if bs.isEmpty then s
  else
    let k := scratchKey core off
    let s := s.setCells (setMasked s.mem.cells k bs)
    let s := { s with mem := { s.mem with badScratch := s.mem.badScratch.filter (fun b =>
        !(decide (k ≤ b) && decide (b < k + bs.length) && (bs.getD (b - k) (0, false)).2)) } }
    s.flipScratch core off

def scratchBytesAt (s : State) (core off n : Nat) : List Byte := bytesAt s.mem.cells (scratchKey core off) n

/-- The first byte with wrong parity in a run of a scratchpad, as an offset. -/
def State.scratchParity (s : State) (core off n : Nat) : Option Nat :=
  let k := scratchKey core off
  (s.mem.badScratch.find? (fun b => decide (k ≤ b) && decide (b < k + n))).map (fun b => b - scratchKey core 0)

/-- A parity detection is counted with its memory and offset (R277, Table 10.19). -/
def State.parityHit (s : State) (core mem off : Nat) : State :=
  (s.bump (Reg.CORE_SCRATCH_PARITY core + 4 * mem)).setReg (Reg.CORE_LAST_PARITY core) (mem * 2 ^ 28 + off % 2 ^ 20)

end Sys2Proof.Machine
end

