-- ==== Sys2Proof/Machine/Flags.lean ====
section
/-!
DEFINITION. Check values that other rules compare: CRC-64 (R311), CRC-32C (R334), CRC-16 (R422), bit by bit; and what
SHA-512 is taken over.
-/

namespace Sys2Proof.Machine

/-- One bit of a reflected CRC. -/
def crcBit (poly c : Nat) : Nat := if c % 2 = 1 then (c >>> 1) ^^^ poly else c >>> 1

def crcByte (poly c : Nat) (b : Byte) : Nat :=
  (List.range 8).foldl (fun c _ => crcBit poly c) (c ^^^ b.toNat)

def crcRun (poly c : Nat) (bs : List Byte) : Nat := bs.foldl (crcByte poly) c

def poly64 : Nat := 0xC96C5795D7870F42
def poly32c : Nat := 0x82F63B78
def poly16 : Nat := 0x8408

/-- R311: polynomial 0x42F0_E1EB_A9EA_3693, bits reflected, starting from all ones, result complemented. -/
def crc64 (bs : List Byte) : Nat := crcRun poly64 (2 ^ 64 - 1) bs ^^^ (2 ^ 64 - 1)

/-- CRC-64 taken up again over further bytes. -/
def crc64More (c : Nat) (bs : List Byte) : Nat := crcRun poly64 (c ^^^ (2 ^ 64 - 1)) bs ^^^ (2 ^ 64 - 1)

def crc32c (bs : List Byte) : Nat := crcRun poly32c (2 ^ 32 - 1) bs ^^^ (2 ^ 32 - 1)

/-- The CRC-16 of Table 10.1, the only one the manual gives: no final complement (log entry 21). -/
def crc16 (bs : List Byte) : Nat := crcRun poly16 (2 ^ 16 - 1) bs

/-- SHA-512 of a byte string. -/
def sha512 (bs : List Byte) : BitVec 512 :=
  Config.sha512 bs.length ((bs.mapIdx (fun i b => (i, b))).filter (fun p => p.2 != 0))

/-- The bytes of a digest as SHA-512 gives them: most significant first. -/
def digestBytes (d : BitVec 512) : List Byte := (leBytes 64 d.toNat).reverse

/-- The digest whose bytes these are. -/
def digestOf (bs : List Byte) : BitVec 512 := BitVec.ofNat 512 (leNat bs.reverse)

end Sys2Proof.Machine
end

