-- ==== Sys2Proof/Machine/Operands.lean ====
section
/-!
DEFINITION. Operand forms: die scratchpad addresses (Table 08.2), the layouts of chapter 9, sparse groups (chapter 5),
the extents, units and walk of a loop nest (R202 to R209), and look-ups in the loaded plan.
-/

namespace Sys2Proof.Machine

/-! ### Die scratchpad addresses (R201) -/

/-- Arithmetic acts on bits [26:0] as one integer. -/
def spAdd (a : Nat) (d : Int) : Nat := ((((a % 2 ^ 27 : Nat) : Int) + d) % (2 ^ 27 : Int)).toNat

def spCore (own a : Nat) : Nat := if bitOf a 26 then fieldOf a 25 20 else own

def spOff (a : Nat) : Nat := a % 2 ^ 20

/-- The `cells` key of a die address as core `own` reads it. -/
def spKey (own a : Nat) : Nat := scratchKey (spCore own a) (spOff a)

/-! ### The plan -/

def State.descOf (s : State) (core ix : Nat) : Option Desc :=
  s.run.plan.bind (fun p => tfind p.descs (1024 * core + ix))

def State.tableOf (s : State) (core : Nat) : List Entry :=
  match s.run.plan with
  | none => []
  | some p => tget [] p.schedules (64 * s.run.variant + core)

def Plan.variant (p : Plan) (v : Nat) : Option Variant := p.variants.find? (fun x => x.number == v)

/-- Herd of a core: 0 without a herd table (R42). -/
def State.herdOf (s : State) (core : Nat) : Nat :=
  match s.run.plan with
  | none => 0
  | some p => p.herds.getD core 0

def State.gang (s : State) (g : Nat) : List Nat :=
  match s.run.plan with
  | none => []
  | some p => tget [] p.gangs g

/-- Scratchpad regions that hold a byte of a core (R267), with their table index. -/
def Region.inScratch (r : Region) (core off : Nat) : Bool :=
  let a := r.base.toNat % 2 ^ 32
  r.space == 0 && (!bitOf a 26 || fieldOf a 25 20 == core) && decide (spOff a ≤ off) && decide (off < spOff a + r.size)

/-- A region of HBM, of the second tier, or of another module that holds a Zarixon address. -/
def Region.inExternal (r : Region) (a : Nat) : Bool :=
  r.space != 0 && decide (r.base.toNat ≤ a) && decide (a < r.base.toNat + r.size)

/-- Live spans of a region, in slots of a step (Table 10.3). -/
def Region.spans (r : Region) : List (Nat × Nat) :=
  let top := 2 ^ 32 - 1
  if r.liveFirst = top then [(0, top)]
  else if r.liveFirst ≤ r.liveLast then [(r.liveFirst, r.liveLast)] else [(r.liveFirst, top), (0, r.liveLast)]

/-- Live in a slot of the step. -/
def Region.liveAt (r : Region) (slot : Nat) : Bool := r.spans.any (fun x => decide (x.1 ≤ slot) && decide (slot ≤ x.2))

/-- The region that holds a byte of a core's scratchpad, with its table index: the one that is live in the present slot of
the step, where there is one (Table 10.3; log entry 47). -/
def State.regionAt (s : State) (core off : Nat) : Option (Nat × Region) :=
  match s.run.plan with
  | none => none
  | some p =>
    let here := (p.regions.mapIdx (fun i r => (i, r))).filter (fun x => x.2.inScratch core off)
    (here.find? (fun x => x.2.liveAt (s.slot - s.run.stepStart))).orElse (fun _ => here.head?)

/-! ### Formats and layouts (R232 to R238) -/

/-- Bytes of a brick row (Table 09.3). -/
def brickRow (fmt : Nat) : Nat := 32 * elemBits fmt + (if isMx fmt then 8 else 0)

def brickPitch (fmt rows : Nat) : Nat := roundUp (rows * brickRow fmt) 512

/-- Bytes of a column record of a weight pass block (R236). -/
def recordBytes (fmt : Nat) : Nat := depthOf fmt * elemBits fmt / 8 + (if isMx fmt then depthOf fmt / 32 else 0)

/-- Element j of a run of n packed elements held in the number `w`, with its scale byte behind the elements. -/
def runElem (fmt n w j : Nat) : Num :=
  let b := elemBits fmt
  let x := decodeElem fmt ((w >>> (j * b)) % 2 ^ b)
  if isMx fmt then scaled ((w >>> (n * b + 8 * (j / 32))) % 256) x else x

/-- The budget of Table 05.7. -/
def budgetOf (code : Nat) : Nat := if code = 0 then 16 else 4 * code

/-! ### Units (Tables 08.4, 05.3) -/

/-- The fields that say what a descriptor's arithmetic is. -/
inductive Kind where
  | product
  | scatter
  | outer
  | row
deriving DecidableEq, Repr

def Desc.kind (d : Desc) : Kind :=
  if d.modes.rowFn ≠ 0 then .row
  else if d.modes.mode = 1 then .scatter
  else if d.modes.mode = 2 then .outer
  else .product

/-- Slots of a column: its class's K (R124), or the placement of R172 and R180. -/
def Desc.slots (d : Desc) : Nat :=
  match d.kind with
  | .product => depthOf d.modes.wFormat
  | .scatter => if d.modes.wFormat = 0 then 128 else 256
  | _ => 256

/-- Groups per pass (R124). -/
def Desc.groups (d : Desc) : Nat := d.slots / budgetOf d.modes.budget

/-- Dense positions of one pass: K, or P of Table 05.3. -/
def Desc.depth (d : Desc) : Nat := if d.modes.budget = 0 then d.slots else 16 * d.groups

/-- Products added to each entry by one chunk sum (R91, R177, R182). -/
def Desc.termStep (d : Desc) : Nat :=
  match d.kind with
  | .outer => 1
  | .scatter => d.slots
  | _ => depthOf d.modes.wFormat

def Desc.unitOf (d : Desc) (tag : Nat) : Nat :=
  if tag = 1 then d.modes.tileRows else if tag = 2 then 256 else if tag = 3 then d.depth else 0

/-- The reduction tag of the mode: K, N or M; none for a row-unit pass. -/
def Desc.redTag (d : Desc) : Nat :=
  match d.kind with
  | .product => 3
  | .scatter => 2
  | .outer => 1
  | .row => 0

/-- The format of the streamed operand: BF16 for a gradient (R169, R173). -/
def Desc.streamFmt (d : Desc) : Nat :=
  if d.kind = .scatter ∨ d.modes.gradStream then 0 else d.modes.aFormat

/-- Vat rows per streamed row in scatter mode. -/
def Desc.rowsPer (d : Desc) : Nat := if d.kind = .scatter then ceilDiv d.depth 256 else 1

/-- TILE_ROWS_V (R105). -/
def Desc.tileRowsV (d : Desc) : Nat :=
  match d.kind with
  | .outer => 256
  | .scatter => d.modes.tileRows * d.rowsPer
  | _ => d.modes.tileRows

/-! ### Extents (R208) -/

def extentOf (ext var off : Nat) (shape : Nat → Nat) : Nat := if var = 0 then ext else min ext (shape var - off)

structure Extents where
  m : Nat
  n : Nat
  k : Nat
deriving DecidableEq, Repr

def Extents.of (e : Extents) (tag : Nat) : Nat := if tag = 1 then e.m else if tag = 2 then e.n else e.k

def Desc.extents (d : Desc) (shape : Nat → Nat) : Extents where
  m := extentOf d.ext.1 d.shapeVar.1 d.shapeOff.1 shape
  n := extentOf d.ext.2.1 d.shapeVar.2.1 d.shapeOff.2.1 shape
  k := extentOf d.ext.2.2 d.shapeVar.2.2 d.shapeOff.2.2 shape

def State.shape (s : State) (v : Nat) : Nat := s.reg (Reg.PHASE_SHAPE_ACTIVE v) % 2 ^ 24

/-- SHAPE_ACTIVE for the segment's variables; the initial milk run takes its planned extents (R418). -/
def Desc.planned (d : Desc) : Extents := ⟨d.ext.1, d.ext.2.1, d.ext.2.2⟩

/-- The tags that have an extent: a row-unit pass has no K (R218). -/
def Desc.tags (d : Desc) : List Nat := if d.kind = .row then [1, 2] else [1, 2, 3]

/-! ### The walk (R204, R205) -/

/-- Used levels with their places in the descriptor, innermost first. -/
def Desc.used (d : Desc) : List (Nat × Level) :=
  let ls := (d.levels.mapIdx (fun i l => (i, l))).filter (fun x => x.2.bound != 0)
  (List.range 6).filterMap (fun o => ls.find? (fun x => x.2.order == o))

/-- span of a level: the unit of its tag times the bounds of the levels of the tag inside it. -/
def Desc.span (d : Desc) (l : Level) : Nat :=
  ((d.used.filter (fun x => x.2.tag == l.tag && decide (x.2.order < l.order))).map (fun x => x.2.bound)).foldl (· * ·)
    (d.unitOf l.tag)

/-- Every combination of indices, the first level fastest. -/
def walkIdx : List (Nat × Level) → List (List (Nat × Nat))
  | [] => [[]]
  | (p, l) :: outer => (walkIdx outer).flatMap (fun w => (List.range l.bound).map (fun i => (p, i) :: w))

def idxAt (w : List (Nat × Nat)) (p : Nat) : Nat := ((w.find? (fun x => x.1 == p)).map (·.2)).getD 0

def Desc.startOf (d : Desc) (tag : Nat) (idx : List Nat) : Nat :=
  (d.used.filter (fun x => x.2.tag == tag)).foldl (fun a x => a + idx.getD x.1 0 * d.span x.2) 0

/-- The points of the walk with their indices by place, before tiles and passes are numbered. -/
def Desc.points (d : Desc) : List Pt :=
  (walkIdx d.used).map (fun w =>
    let idx := (List.range 6).map (idxAt w)
    { idx := idx, xM := d.startOf 1 idx, xN := d.startOf 2 idx, xK := d.startOf 3 idx, tile := 0, pass := 0,
      last := false, peel := false, peelAt := 0 })

def Pt.start (p : Pt) (tag : Nat) : Nat := if tag = 1 then p.xM else if tag = 2 then p.xN else p.xK

/-- Valid extent of a tag at a point (R209). -/
def Desc.valid (d : Desc) (e : Extents) (p : Pt) (tag : Nat) : Nat := min (d.unitOf tag) (e.of tag - p.start tag)

/-- A point is skipped when a tag with an extent starts at or beyond it. -/
def Desc.skips (d : Desc) (e : Extents) (p : Pt) : Bool := d.tags.any (fun t => decide (e.of t ≤ p.start t))

/-- Indices of the levels of tag R. -/
def Desc.rIdx (d : Desc) (p : Pt) : List Nat :=
  (d.used.filter (fun x => x.2.tag == 4)).map (fun x => p.idx.getD x.1 0)

/-- What tells two tiles apart: the indices of the output tags and of R. -/
def Desc.tileKey (d : Desc) (p : Pt) : List Nat :=
  (d.used.filter (fun x => x.2.tag != d.redTag)).map (fun x => p.idx.getD x.1 0)

/-- What tells two resident passes apart (R205). -/
def Desc.passKey (d : Desc) (p : Pt) : List Nat := p.xN :: p.xK :: d.rIdx p

def keyIndex (k : List Nat) : List (List Nat) → Nat → Option Nat
  | [], _ => none
  | x :: xs, i => if x = k then some i else keyIndex k xs (i + 1)

/-- Tiles numbered by their first point, passes by every change of resident operand. -/
def numberWalk (d : Desc) : List Pt → List (List Nat) → Nat → Option (List Nat) → List Pt
  | [], _, _, _ => []
  | p :: ps, seen, pass, prev =>
    let tk := d.tileKey p
    let pk := d.passKey p
    let at_ := keyIndex tk seen 0
    let seen' := if at_.isNone then seen ++ [tk] else seen
    let pass' := if prev = none ∨ prev = some pk then pass else pass + 1
    { p with tile := at_.getD seen.length, pass := pass' } :: numberWalk d ps seen' pass' (some pk)

/-- The last point of each tile. -/
def markLast : List Pt → List Pt
  | [] => []
  | p :: ps => { p with last := !(ps.any (fun q => q.tile == p.tile)) } :: markLast ps

/-- After the last sparse pass into the tiles of one resident pass, the linked peeled passes of those tiles (R178);
`run` holds the tiles so ended, in reverse. -/
def addPeels (n : Nat) : List Pt → List Pt → List Pt
  | [], _ => []
  | p :: ps, run =>
    let run' := if p.last then p :: run else run
    let ends := match ps with
      | [] => true
      | q :: _ => q.pass != p.pass
    if ends then
      { p with last := p.last && n == 0 } ::
        ((List.range n).flatMap (fun i => run'.reverse.map (fun t =>
          { t with peel := true, peelAt := 256 * i, last := i + 1 == n })) ++ addPeels n ps [])
    else { p with last := p.last && n == 0 } :: addPeels n ps run'

/-- Passes numbered again once the peeled ones stand between the others. -/
def renumber : List Pt → Nat → Option (Nat × Bool × Nat) → List Pt
  | [], _, _ => []
  | p :: ps, n, prev =>
    let k := (p.pass, p.peel, p.peelAt)
    let n' := if prev = none ∨ prev = some k then n else n + 1
    { p with pass := n' } :: renumber ps n' (some k)

/-- Linked peeled passes of a scatter descriptor: one per 256 positions. -/
def Desc.peelPasses (d : Desc) : Nat :=
  if d.kind = .scatter ∧ d.addrs.scatterPeel ≠ 0 then ceilDiv d.depth 256 else 0

/-- The points a segment visits, in order (R205, R209, R178). -/
def Desc.walk (d : Desc) (e : Extents) : List Pt :=
  let ps := markLast (numberWalk d (d.points.filter (fun p => !d.skips e p)) [] 0 none)
  if d.peelPasses = 0 then ps else renumber (addPeels d.peelPasses ps []) 0 none

/-- The tiles of an empty reduction (R214): every tile of the non-empty outputs, at its first point. -/
def Desc.emptyTiles (d : Desc) (e : Extents) : List Pt :=
  let outs := d.points.filter (fun p => !((d.tags.filter (· != d.redTag)).any (fun t => decide (e.of t ≤ p.start t))))
  let ns := numberWalk d outs [] 0 none
  (List.range ns.length).filterMap (fun j => ns.find? (fun p => p.tile == j))

/-! ### Addresses at a walk point (R204, R235, R237) -/

def Desc.sum (d : Desc) (p : Pt) (f : Level → Int) (keep : Level → Bool) : Int :=
  (d.used.filter (fun x => keep x.2)).foldl (fun a x => a + (p.idx.getD x.1 0 : Int) * f x.2) 0

/-- Address of the streamed operand, which lies in bricks: the K levels take no part in it (R235). Where its rows run
along K, the brick of the position is added. -/
def Desc.addrA (d : Desc) (p : Pt) : Nat :=
  let along := (d.kind = .product ∨ d.kind = .outer) ∧ d.modes.transpose ≠ 1
  let base := spAdd d.addrs.aBase (32 * d.sum p (fun l => l.strideA) (fun l => l.tag != 3))
  if along then spAdd base ((brickPitch d.streamFmt d.modes.tileRows * (p.xK / 256) : Nat) : Int) else base

def Desc.addrW (d : Desc) (p : Pt) : Nat :=
  spAdd d.addrs.valueBase (32 * d.sum p (fun l => l.strideW) (fun _ => true))

/-- The absolute group index of array column 0 (R237). -/
def Desc.groupW (d : Desc) (p : Pt) : Nat := (d.sum p (fun l => l.strideW) (fun _ => true)).toNat

def Desc.addrOut (d : Desc) (p : Pt) : Nat :=
  spAdd d.addrs.outBase (32 * d.sum p (fun l => l.strideOut) (fun _ => true))

/-- Byte offset of the output from OUT_REMOTE (R216). -/
def Desc.remoteOut (d : Desc) (p : Pt) : Nat :=
  (((d.addrs.outBase + d.addrs.outRemote.toNat : Nat) : Int) + 32 * d.sum p (fun l => l.strideOut) (fun _ => true)).toNat

def Desc.stepAux (d : Desc) (p : Pt) : Int := 32 * d.sum p (fun l => l.strideAux) (fun _ => true)

def Desc.addrAux (d : Desc) (p : Pt) : Nat := spAdd d.addrs.auxBase (d.stepAux p)

/-- Index of the outermost R level (R239). -/
def Desc.outerR (d : Desc) (p : Pt) : Nat :=
  match (d.used.filter (fun x => x.2.tag == 4)).getLast? with
  | none => 0
  | some x => p.idx.getD x.1 0

/-! ### Vector tables (R239, R240) -/

def tableWords (s : State) (own a : Nat) : List Nat :=
  (List.range 8).map (fun i => natAt s.mem.cells (spKey own (spAdd a (4 * i))) 4)

/-- Whether a descriptor reads the table at AUX_BASE, at STAT_AUX. -/
def Desc.auxTable (d : Desc) : Bool :=
  if d.kind = .row then d.modes.rowFn == 7 else [2, 4, 5, 6].contains d.modes.drainFunc

def Desc.statTable (d : Desc) : Bool :=
  [3, 4].contains d.modes.rowStat || (d.kind == .row && [1, 2, 7].contains d.modes.rowFn)

/-- Address of word w of the pair of a row; ROW_PITCH 0 means 8. -/
def vecRow (d : Desc) (p : Pt) (t : List Nat) (i mRel : Nat) : Nat :=
  let pitch := fieldOf (t.getD 4 0) 15 0
  spAdd (t.getD (1 + i) 0) ((if pitch = 0 then 8 else pitch) * mRel + signedOf 32 (t.getD 5 0) * d.outerR p)

def vecCol (d : Desc) (p : Pt) (t : List Nat) (n : Nat) : Nat :=
  spAdd (t.getD 0 0) (4 * n + signedOf 32 (t.getD 5 0) * d.outerR p)

/-- Address of a row of a brick-layout tensor, and of the brick that holds a column. -/
def brickRowAt (base fmt rows m col : Nat) : Nat :=
  spAdd base ((m * brickRow fmt + brickPitch fmt rows * (col / 256) : Nat) : Int)

/-- The row of 256 elements at an address, as one number. -/
def brickBits (s : State) (own a fmt : Nat) : Nat := natAt s.mem.cells (spKey own a) (brickRow fmt)

end Sys2Proof.Machine
end

