-- ==== Sys2Proof/Machine/Engine.lean ====
section
/-!
DEFINITION. The array: what a segment's reads and writes of scratchpad may meet (R41, R277), reruns (R46, R47), loading
and decoding a resident operand (R88, R122 to R124, R236, R237), and the exact chunk sums (R87 to R99, R106, R169 to
R182). Commands: SHADOW_LOAD_COMPLETE, PASS_SWAP, CHUNK_SUM, RERUN_RESTART.
-/

namespace Sys2Proof.Machine

/-! ### Faults of a segment -/

/-- The indices a segment's fault records: those of the head of the walk still to do, also where a drain meets the fault
while the walk has gone on; once the walk is over, those of the oldest tile. FQ_OVERFLOW and TOKEN_OVERWRITE of a tile's
request record the tile's own point (log entry 51). -/
def Seg.loops (g : Seg) : List Nat :=
  match g.todo with
  | p :: _ => p.idx
  | [] => match g.tiles with
    | t :: _ => t.pt.idx
    | [] => [0, 0, 0, 0, 0, 0]

def segFault (core : Nat) (g : Seg) (code addr : Nat) : FaultAt where
  code := code
  cls := clsCore
  inst := core
  addr := addr
  core := core
  entry := g.entry.getD 0xFFFF
  desc := g.descIx
  loops := g.loops
  attempt := g.attempt

/-- A die address in a record: FAR 0 for the core's own scratchpad. -/
def dieAddr (own core off : Nat) : Nat := if core = own then off else 2 ^ 26 + core * 2 ^ 20 + off

def State.setSeg (s : State) (c : Nat) (g : Seg) : State := s.setCore c { s.core c with seg := some g }

/-- The running segment of a core whose array path moves: not stopped, not frozen. -/
def State.running (s : State) (c : Nat) : Option Seg :=
  match (s.core c).seg with
  | none => none
  | some g =>
    if g.status = .reloading ∨ (tget ⟨false, []⟩ s.run.herds (s.core c).herd).frozen then none else some g

/-! ### Access to scratchpad (R41, R277, Table 10.5) -/

inductive Snag where
  | pendingRead (addr : Nat)
  | pendingWrite (addr : Nat)
  /-- memory numbered as the rows of Table 10.19, core that holds it, offset -/
  | parity (mem core off : Nat)
deriving DecidableEq, Repr

/-- The first layout block of a run whose pending bit is set, as a key. -/
def State.pendingIn (s : State) (key n : Nat) : Option Nat :=
  if n = 0 then none
  else ((List.range ((key + n - 1) / 512 + 1 - key / 512)).map (· + key / 512)).find? (fun b =>
    s.run.reqs.any (fun r => r.blocks.contains b)) |>.map (· * 512)

def State.snagRead (s : State) (own a n : Nat) : Option Snag :=
  let core := spCore own a
  match s.pendingIn (spKey own a) n with
  | some b => some (.pendingRead (dieAddr own core (b - scratchKey core 0)))
  | none => (s.scratchParity core (spOff a) n).map (fun o => .parity 0 core o)

/-- A run of bytes that a port reads: the operand it reads for, die address, length. -/
abbrev Run := Nat × Nat × Nat

/-- The first snag in the order of the runs. Where several planes or columns of a load are pending, that order is column
by column, and in a column bitmap, values, scales (log entry 51). -/
def State.snagReads (s : State) (own : Nat) (acc : List Run) : Option Snag :=
  acc.findSome? (fun x => s.snagRead own x.2.1 x.2.2)

/-- Blocks of the on-die network that carry n bytes between two cores, each sent by its core's quarter (R4, R404). -/
def State.nocSend (s : State) (core n : Nat) : State := s.bumpBy (Reg.QUARTER_NOC_BLOCKS_SENT (core / 16)) (ceilDiv n 256)

/-- Bytes of a stack that its quarter sends to the Steward in Q0, or to a port chiplet (R4, R404). -/
def State.nocServe (s : State) (steward : Bool) (space off n : Nat) : State :=
  match if space = 0 ∧ s.mapped 0 off n then stackOf off else none with
  | some x => if steward && x.1 / 3 == 0 then s else s.nocSend (16 * (x.1 / 3)) n
  | none => s

/-- Bytes that the Steward sends from Q0 to memory. -/
def State.nocStore (s : State) (space off n : Nat) : State :=
  match if space = 0 then stackOf off else none with
  | some x => if x.1 / 3 = 0 then s else s.nocSend 0 n
  | none => if space ≤ 1 then s.nocSend 0 n else s

/-- A run of words that a core serves to another: counted (R255), and carried in blocks by its quarter's network. -/
def State.farAccess (s : State) (own core words n : Nat) : State :=
  if core = own ∨ n = 0 then s
  else (s.bumpBy (Reg.CORE_FAR_ACCESSES core) words).nocSend core n

/-- A run as its port reads it: a run of the same operand that begins in the word kept from the last one does not read
that word again (R230). -/
def State.readRun (own : Nat) (a : State × Tab Nat) (x : Run) : State × Tab Nat :=
  if x.2.2 = 0 then a
  else
    let k := spKey own x.2.1
    let lo := k / 32
    let hi := (k + x.2.2 - 1) / 32
    let skip := bnat (tfind a.2 x.1 == some lo)
    (a.1.farAccess own (spCore own x.2.1) (hi + 1 - lo - skip) (x.2.2 - skip * (32 - k % 32)), tput a.2 x.1 hi)

/-- Runs read by a segment, and the words its ports keep after them. -/
def State.farReads (s : State) (own : Nat) (kept : Tab Nat) (acc : List Run) : State × Tab Nat :=
  acc.foldl (State.readRun own) (s, kept)

/-! ### Reruns (R46, R47) -/

/-- The bases from which a descriptor reads. -/
def Desc.inputs (d : Desc) : List Nat :=
  let w := match d.kind with
    | .row => []
    | .outer => if d.modes.budget = 0 then [] else [d.addrs.bitmapBase]
    | _ => if d.modes.budget = 0 then [d.addrs.valueBase]
      else [d.addrs.valueBase, d.addrs.bitmapBase] ++ (if d.modes.wFormat = 0 then [] else [d.addrs.scaleBase])
  let aux := if d.auxTable || d.kind == .outer || d.modes.drainFunc == 7 || (d.kind == .row && [1, 4, 5, 6].contains d.modes.rowFn)
    then [d.addrs.auxBase] else []
  let st := if d.statTable then [d.addrs.statAux] else []
  let pe := if d.peelPasses = 0 then [] else [d.addrs.scatterPeel]
  [d.addrs.aBase] ++ w ++ aux ++ st ++ pe

/-- What a segment reaches through its vector tables (Table 09.5), and the summaries it reads (R94). -/
def Seg.tableInputs (g : Seg) : List Nat :=
  let d := g.desc
  let at_ := fun (t : List Nat) (i : Nat) => (t[i]?).toList
  let aux := if d.kind = .row then (if d.modes.rowFn = 7 then at_ g.auxVec 0 else [])
    else match d.modes.drainFunc with
      | 2 => at_ g.auxVec 0
      | 4 => at_ g.auxVec 0
      | 5 => at_ g.auxVec 1
      | 6 => at_ g.auxVec 1 ++ at_ g.auxVec 0
      | _ => []
  let stat := match d.modes.rowStat with
    | 3 => at_ g.statVec 3
    | 4 => at_ g.statVec 3 ++ at_ g.statVec 1 ++ at_ g.statVec 0
    | _ => []
  let row := if d.kind = .row then (match d.modes.rowFn with
      | 1 => at_ g.statVec 1
      | 2 => at_ g.statVec 3 ++ at_ g.statVec 1 ++ at_ g.statVec 2 ++ at_ g.statVec 0
      | 7 => at_ g.statVec 1
      | _ => [])
    else []
  let sums := if d.modes.windowed && !d.modes.fixedAnchor && d.kind != .row then [d.addrs.summaryA, d.addrs.summaryW] else []
  aux ++ stat ++ row ++ sums

/-- Input regions of a segment, each with the core whose scratchpad holds it. -/
def State.inputRegions (s : State) (c : Nat) (g : Seg) : List (Nat × Nat × Region) :=
  ((g.desc.inputs ++ g.tableInputs).filterMap (fun a =>
    (s.regionAt (spCore c a) (spOff a)).map (fun r => (spCore c a, r.1, r.2)))).dedup

/-- The origin of a region that reloads (R46, R268). -/
def State.originOf (s : State) (r : Region) : Option Region :=
  if r.origin = 0xFFFF then none else s.run.plan.bind (fun p => p.regions[r.origin]?)

/-- The plane a core's fetch queue uses in a variant (Table 17.9). -/
def planeOf (v : Option Variant) (queue : Nat) : Nat :=
  match v with
  | none => 0
  | some x => bnat (bitOf ((x.planeMap.getD (queue / 8) 0).toNat) (queue % 8))

/-- The plane of a fetch queue (Table 17.9). -/
def State.planeFor (s : State) (queue : Nat) : Nat := planeOf (s.run.plan.bind (fun p => p.variant s.run.variant)) queue

/-- The chiplet of a request that leaves by a port, of one to the second tier, of one the module serves itself. -/
def State.chipletFor (s : State) (core fq ext : Nat) : Nat :=
  if zEndpoint ext = s.moduleNum ∧ zSpace ext ≠ 4 then (if zSpace ext = 1 then lpChip (zOff ext) else 0)
  else s.planeFor (64 * core + fq)

/-- An address in this module's HBM. -/
def localHbm (s : State) (ext : Nat) : Bool := zEndpoint ext == s.moduleNum && zSpace ext == 0

/-- 0 to 15 copy engines, 16 and 17 the fabric engines of P0 and P1 (R249). -/
def State.engineFor (s : State) (core : Nat) (e : FetchEntry) : Nat :=
  let ext := e.ext.toNat
  if e.kind = 3 ∨ (e.kind = 0 ∧ e.dir = 2) ∨ (e.kind = 0 ∧ localHbm s ext) ∨ e.kind = 2 then 4 * (core / 16) + e.fq % 4
  else 16 + s.chipletFor core e.fq ext

/-- Layout blocks of runs, as keys div 512. -/
def blocksOf (own : Nat) (runs : List (Nat × Nat)) : List Nat :=
  (runs.flatMap (fun r => if r.2 = 0 then [] else
    let k := spKey own r.1
    (List.range ((k + r.2 - 1) / 512 + 1 - k / 512)).map (· + k / 512))).dedup

/-- Queue 62 carries reloads (R46). -/
def reloadQueue : Nat := 62

/-- The request that fills a region from its origin. -/
def reloadEntry (core : Nat) (r o : Region) : FetchEntry :=
  { (default : FetchEntry) with fq := reloadQueue, sp := 2 ^ 26 + core * 2 ^ 20 + spOff (r.base.toNat % 2 ^ 32), ext := o.base,
                                rowBytes := r.size, count := 1 }

/-- One request of a reload: the blocks it writes are pending from its issue (R41, R249, R250). -/
def State.reloadReq (s : State) (c : Nat) (g : Seg) (core : Nat) (r o : Region) : State :=
  let e := reloadEntry core r o
  let q : Req := { id := s.run.nextReq, core := c, fq := reloadQueue, token := none, seg := g.id, entry := g.entry.getD 0xFFFF,
                   desc := g.descIx, what := .fetch e 0, count := 1, engine := s.engineFor c e, issuedAt := s.clock.now,
                   slot := g.planned / 4096, started := false, waiting := false, blocks := blocksOf c [(e.sp, r.size)] }
  { s with run := { s.run with reqs := s.run.reqs ++ [q], nextReq := s.run.nextReq + 1 } }

/-- The reload of a segment's input regions, on queue 62 (R46). -/
def State.askOrigins (s : State) (c : Nat) (g : Seg) : State :=
  (s.inputRegions c g).foldl (fun t x =>
    match t.originOf x.2.2 with
    | none => t
    | some o => t.reloadReq c g x.1 x.2.2 o) s

/-- A detected error: the attempt is abandoned, and the segment will be reloaded and restarted, or cannot be. -/
def State.rerunAt (s : State) (c : Nat) (g : Seg) (mem core off : Nat) : State :=
  let addr := if mem = 0 then dieAddr c core off else off
  let noSource := mem == 0 && (s.inputRegions c g).any (fun x => x.1 == core && x.2.2.noOrigin && x.2.2.inScratch core off)
  if 3 ≤ g.attempt then s.raise (segFault c g 0x0106 addr)
  else if noSource then s.raise (segFault c g 0x0107 addr)
  else ((((s.bubbles c g).setSeg c { g with status := .reloading, hits := g.hits + 1, dueAt := none }).askOrigins c g)).bump
    (Reg.CORE_RERUNS c)

/-- A parity error, counted first (R277). -/
def State.rerun (s : State) (c : Nat) (g : Seg) (mem core off : Nat) : State :=
  (s.parityHit core mem off).rerunAt c g mem core off

def State.snagged (s : State) (c : Nat) (g : Seg) : Snag → State
  | .pendingRead a => s.raise (segFault c g 0x0102 a)
  | .pendingWrite a => s.raise (segFault c g 0x0103 a)
  | .parity mem core off => s.rerun c g mem core off

/-! ### Slip (R45) -/

/-- Slip now: of a segment that reloads or is untrusted, every cycle since its abandoned attempt began counts (R46). -/
def Seg.slipNow (g : Seg) (now : Nat) : Nat :=
  if g.status = .reloading ∨ g.untrusted then g.slipAt + (now - g.attemptAt) else g.slip

/-- Least SLACK minus slip, in ticks, of an entry (log entry 22 for a slip beyond SLACK). -/
def State.noteSlip (s : State) (c slack slip : Nat) : State :=
  s.setReg (Reg.CORE_SLACK_MIN c) (min (s.reg (Reg.CORE_SLACK_MIN c)) (slack - ceilDiv slip 7))

def State.noteSlack (s : State) (c : Nat) (g : Seg) : State :=
  if g.entry.isSome then s.noteSlip c g.ent.slack (g.slipNow s.clock.now) else s

/-! ### The start of an attempt (R104, R209, R214) -/

def Desc.tileAt (d : Desc) (e : Extents) (p : Pt) (done : Bool) : Tile where
  seq := p.tile
  slot := if d.modes.tiles = 0 then 0 else p.tile % d.modes.tiles
  pt := p
  anchor := 0
  terms := 0
  rows := if d.kind = .outer then 256 else d.valid e p 1 * d.rowsPer
  cols := d.valid e p 2
  kValid := d.valid e p 3
  done := done
  drained := 0
  escaped := []
  summary := 0
  out := []
  band := []
  whole := []

/-- Extents of a segment: those of its shape variables, or the planned ones where it checks none (R418). -/
def State.segExtents (s : State) (g : Seg) : Extents :=
  if g.milk.isSome && g.entry.isNone then g.desc.planned else g.desc.extents s.shape

def Desc.zeroOut (d : Desc) (e : Extents) : Bool := (d.tags.filter (· != d.redTag)).any (fun t => e.of t == 0)

def Desc.zeroShape (d : Desc) (e : Extents) : Bool := d.tags.any (fun t => e.of t == 0)

/-- A tile whose valid extent falls short of its unit in an output tag (EDGE_TILES; log entry 23). -/
def Desc.edgeTile (d : Desc) (e : Extents) (p : Pt) : Bool :=
  (d.tags.filter (· != d.redTag)).any (fun t => decide (d.valid e p t < d.unitOf t))

/-- Classes whose segments run a descriptor. -/
def arrayClass (cls : Nat) : Bool := [0, 1, 3].contains cls

/-- An attempt starts. Its wait for the first resident operand is not one of R88's, which end a pass: `dueAt` is none, so
LOAD_BUBBLES does not count it (log entry 51). -/
def State.startAttempt (s : State) (c : Nat) (g : Seg) : State :=
  let e := s.segExtents g
  let d := g.desc
  let works := arrayClass g.ent.cls
  let zo := works && d.zeroOut e
  let zs := works && d.zeroShape e
  let todo := if works && !zs then d.walk e else []
  let empty := if works && zs && !zo then d.emptyTiles e else []
  let g := { g with
    attempt := g.attempt + 1, attemptAt := s.clock.now, slipAt := g.slip, status := .running, untrusted := false,
    zeroOut := zo, zeroShape := zs, todo := todo, row := 0, active := none, shadow := none,
    tiles := empty.map (fun p => d.tileAt e p true), vat := [], badVat := [], check := [], stats := [],
    signature := 0, sigTail := [], dueAt := none, kept := [] }
  let s := (s.setReg (Reg.CORE_SEG_LOW_ESCAPES c) 0).setReg (Reg.CORE_SEG_META_DROPS c) 0
  let s := if zs then s.bump (Reg.CORE_ZERO_SHAPE_SEGMENTS c) else s
  let s := if works then s.bumpBy (Reg.CORE_SKIPPED_POINTS c) ((d.points.filter (fun p => d.skips e p)).length) else s
  let s := s.bumpBy (Reg.CORE_EDGE_TILES c) ((empty.filter (fun p => d.edgeTile e p)).length)
  s.setSeg c g

/-- The vector tables are read at release (R239). -/
def State.readTables (s : State) (c : Nat) (g : Seg) : State × Option Snag × Seg :=
  let d := g.desc
  let acc : List Run := (if d.auxTable then [(9, d.addrs.auxBase, 32)] else []) ++
    (if d.statTable then [(10, d.addrs.statAux, 32)] else [])
  match s.snagReads c acc with
  | some x => (s, some x, g)
  | none => ((s.farReads c [] acc).1, none,
      { g with auxVec := if d.auxTable then tableWords s c d.addrs.auxBase else [],
               statVec := if d.statTable then tableWords s c d.addrs.statAux else [] })

/-- A table that the release met with wrong parity has not been read yet. -/
def Seg.tablesDue (g : Seg) : Bool :=
  arrayClass g.ent.cls && ((g.desc.auxTable && g.auxVec.isEmpty) || (g.desc.statTable && g.statVec.isEmpty))

/-- A request of the reload has not ended. -/
def State.reloadWaits (s : State) (c : Nat) : Bool := s.run.reqs.any (fun r => r.core == c && r.fq == reloadQueue)

/-- The reloaded segment starts again, once tables that its release could not read have been read. -/
def State.restart (s : State) (c : Nat) (g : Seg) : State :=
  let t := if g.tablesDue then s.readTables c g else (s, none, g)
  let g := { t.2.2 with slip := g.slipAt + (s.clock.now - g.attemptAt) }
  match t.2.1 with
  | some x => t.1.snagged c { g with attempt := g.attempt + 1, attemptAt := s.clock.now, slipAt := g.slip, status := .running } x
  | none => (t.1.noteSlack c g).startAttempt c g

/-- RERUN_RESTART: the reload has completed; the segment starts again from its first loop index. -/
def execRerunRestart (c : Fin 64) (s : State) : Result :=
  done (match (s.core c).seg with
    | none => s
    | some g =>
      if g.status = .reloading ∧ !s.power.hold ∧ !s.power.droop.any (fun d => d.1 == c.val / 16) ∧ !s.reloadWaits c then s.restart c g
      else s)

/-! ### The resident operand -/

/-- What a load gives: the columns, the ranges it read, the drops of CHECKED decoding in order. -/
structure Load where
  cols  : List (List Slot)
  acc   : List Run
  /-- absolute group index, bits beyond the edge, bits beyond the budget -/
  drops : List (Nat × Nat × Nat)

/-- Positions of the set bits of a bitmap word, ascending. -/
def setBits (w : Nat) : List Nat := (List.range 16).filter (fun i => bitOf w i)

/-- R122, R123: the codes of a group's live slots, and what CHECKED decoding removed. -/
def decodeGroup (unchecked : Bool) (b v w : Nat) : List Nat × Nat × Nat :=
  if unchecked then
    let kept := (setBits w).take b
    (kept ++ List.replicate (b - kept.length) 15, 0, 0)
  else
    let m := setBits (w % 2 ^ v)
    (m.take b, (setBits w).length - m.length, m.length - (m.take b).length)

/-- One column of a sparse operand (R124, R237); only its bitmap in masked-outer mode (R180). -/
def sparseColumn (s : State) (own : Nat) (d : Desc) (p : Pt) (eK c : Nat) : List Slot × List (Nat × Nat × Nat) :=
  let b := budgetOf d.modes.budget
  let w := elemBits d.modes.wFormat
  let g0 := d.groupW p + c * d.addrs.groupPitch
  let n := d.groups
  let maps := natAt s.mem.cells (spKey own (spAdd d.addrs.bitmapBase (2 * g0))) (2 * n)
  let outer := d.kind = .outer
  let vals := if outer then 0 else natAt s.mem.cells (spKey own (spAdd d.addrs.valueBase (g0 * b * w / 8 : Nat))) (n * b * w / 8)
  let sc0 := g0 * b / 32
  let scs := if outer ∨ !isMx d.modes.wFormat then 0
    else natAt s.mem.cells (spKey own (spAdd d.addrs.scaleBase sc0)) (ceilDiv (n * b) 32 + 1)
  let one := fun h =>
    let k := p.xK + 16 * h
    if eK ≤ k then ([], (0, 0, 0))
    else
      let dec := decodeGroup d.modes.unchecked b (min 16 (eK - k)) (fieldOf maps (16 * h + 15) (16 * h))
      let slots := dec.1.mapIdx (fun j code =>
        let x := decodeElem d.modes.wFormat ((vals >>> ((h * b + j) * w)) % 2 ^ w)
        let val := if isMx d.modes.wFormat then
            scaled ((scs >>> (8 * (((g0 + h) * b + j) / 32 - sc0))) % 256) x else x
        { pos := 16 * h + code, row := h * b + j, val := if outer then .fin 0 0 else val : Slot })
      (slots, (g0 + h, dec.2.1, dec.2.2))
  let all := (List.range n).map one
  (all.flatMap (·.1), (all.map (·.2)).filter (fun x => x.2.1 != 0 || x.2.2 != 0))

/-- The runs a column reads: operand 1 its bitmap, 2 its values, 3 its scales. -/
def sparseAcc (d : Desc) (p : Pt) (c : Nat) : List Run :=
  let b := budgetOf d.modes.budget
  let g0 := d.groupW p + c * d.addrs.groupPitch
  let vb := b * elemBits d.modes.wFormat / 8
  let sc0 := g0 * b / 32
  [(1, spAdd d.addrs.bitmapBase (2 * g0), 2 * d.groups)] ++
    (if d.kind = .outer then [] else [(2, spAdd d.addrs.valueBase (g0 * vb : Nat), d.groups * vb)]) ++
    (if d.kind = .outer ∨ !isMx d.modes.wFormat then []
     else [(3, spAdd d.addrs.scaleBase sc0, ((g0 + d.groups) * b + 31) / 32 - sc0)])

/-- A column record of a weight pass block (R236); positions beyond the valid extent reach the array as zero (R231). -/
def denseColumn (s : State) (own : Nat) (d : Desc) (p : Pt) (eK c : Nat) : List Slot :=
  let fmt := d.modes.wFormat
  let k := depthOf fmt
  let w := natAt s.mem.cells (spKey own (spAdd (d.addrW p) (c * recordBytes fmt : Nat))) (recordBytes fmt)
  (List.range d.slots).map (fun r =>
    { pos := r, row := r, val := if eK ≤ p.xK + r then .fin 0 0 else runElem fmt k w (p.xK % k % d.slots + r) : Slot })

/-- A stored row as the transposing buffer holds it. -/
def tbufBits (s : State) (own a fmt : Nat) : Nat :=
  brickBits s own a fmt ^^^ (match tfind s.mem.tbuf own with
    | none => 0
    | some x => if spKey own a ≤ x.1 ∧ x.1 < spKey own a + brickRow fmt then x.2 * 2 ^ (8 * (x.1 - spKey own a)) else 0)

/-- A resident operand through the transposing buffer: it lies in a brick of its own orientation (R233), stored row c for
array column c, its elements the reduction positions (log entry 24). -/
def turnedColumns (s : State) (own : Nat) (d : Desc) (p : Pt) (eK n : Nat) : List (List Slot) :=
  let fmt := d.modes.wFormat
  (List.range n).map (fun c =>
    let w := tbufBits s own (spAdd (d.addrW p) (c * brickRow fmt : Nat)) fmt
    (List.range d.slots).map (fun r =>
      { pos := r, row := r, val := if eK ≤ p.xK + r then .fin 0 0 else runElem fmt 256 w r : Slot }))

/-- Rows of the peeled tensor that a linked pass holds, and the bytes of one of its pass blocks (log entry 25): the
region of the tensor is its pass blocks one after another. -/
def State.peelShape (s : State) (own : Nat) (d : Desc) : Nat × Nat :=
  let a := d.addrs.scatterPeel
  match s.regionAt (spCore own a) (spOff a) with
  | none => (0, 0)
  | some r =>
    let pitch := r.2.size / ceilDiv d.ext.2.2 (depthOf d.modes.wFormat)
    (min 256 (pitch / recordBytes d.modes.wFormat), pitch)

/-- One column of a linked peeled pass (R178). -/
def peelColumn (s : State) (own : Nat) (d : Desc) (p : Pt) (eK pitch c : Nat) : List Slot :=
  let fmt := d.modes.wFormat
  let k := depthOf fmt
  let rec_ := recordBytes fmt
  (List.range 256).filterMap (fun i =>
    let x := p.xK + p.peelAt + i
    if eK ≤ x ∨ d.depth ≤ p.peelAt + i then none
    else
      let w := natAt s.mem.cells (spKey own (spAdd d.addrs.scatterPeel (x / k * pitch + c * rec_ : Nat))) rec_
      some { pos := p.peelAt + i, row := i, val := runElem fmt k w (x % k) })

/-- The records of a column that a linked pass reads: one in each pass block its positions meet. -/
def State.peelAcc (s : State) (own : Nat) (d : Desc) (p : Pt) (c : Nat) : List Run :=
  let k := depthOf d.modes.wFormat
  let x := p.xK + p.peelAt
  (List.range ((x + 255) / k + 1 - x / k)).map (fun j => (4, spAdd d.addrs.scatterPeel
    ((x / k + j) * (s.peelShape own d).2 + c * recordBytes d.modes.wFormat : Nat), recordBytes d.modes.wFormat))

def State.loadResident (s : State) (own : Nat) (d : Desc) (p : Pt) (e : Extents) : Load :=
  let n := d.valid e p 2
  let fmt := d.modes.wFormat
  if p.peel then
    let sh := s.peelShape own d
    ⟨(List.range sh.1).map (peelColumn s own d p e.k sh.2), (List.range sh.1).flatMap (s.peelAcc own d p), []⟩
  else if d.modes.budget ≠ 0 then
    let cs := (List.range n).map (sparseColumn s own d p e.k)
    ⟨cs.map (·.1), (List.range n).flatMap (sparseAcc d p), cs.flatMap (·.2)⟩
  else if d.kind = .outer then
    ⟨(List.range n).map (fun _ => (List.range d.slots).map (fun r => { pos := r, row := r, val := .fin 0 0 : Slot })), [], []⟩
  else if d.modes.transpose = 2 then
    ⟨turnedColumns s own d p e.k n, (List.range n).map (fun c => (4, spAdd (d.addrW p) (c * brickRow fmt : Nat), brickRow fmt)), []⟩
  else
    ⟨(List.range n).map (denseColumn s own d p e.k),
      (List.range n).map (fun c => (4, spAdd (d.addrW p) (c * recordBytes fmt : Nat), recordBytes fmt)), []⟩

/-- The point whose resident operand is to be loaded next. -/
def Seg.nextLoad (g : Seg) : Option Pt :=
  match g.active with
  | none => g.todo.head?
  | some r => g.todo.find? (fun p => p.pass != r.pass)

/-- The drops of a load, column by column and in a column group by group (log entry 51); the group whose drop passes
META_DROP_LIMIT (R129, R131). -/
def State.countDrops (s : State) (c : Nat) (drops : List (Nat × Nat × Nat)) : State × Option Nat :=
  drops.foldl (fun (a : State × Option Nat) x =>
    let s := (a.1.bumpBy (Reg.CORE_RANGE_DROPS c) x.2.1).bumpBy (Reg.CORE_OVERBUDGET_DROPS c) x.2.2
    let s := s.bumpSat (Reg.CORE_SEG_META_DROPS c) (x.2.1 + x.2.2) 0xFFFFFFFF
    (s, if a.2.isNone && decide (s.reg (Reg.CORE_META_DROP_LIMIT c) < s.reg (Reg.CORE_SEG_META_DROPS c)) then some x.1 else a.2))
    (s, none)

/-- Bricks of the transposing buffer: 64 × 64 MXFP8, 32 × 32 BF16. -/
def tbufSide (fmt : Nat) : Nat := if fmt = 0 then 32 else 64

/-- Some byte has an odd number of its nine bits changed. -/
def Flip.odd (f : Flip) : Bool :=
  (List.range 8).any (fun i => if f.check then bitOf f.mask i else decide (popcount 8 (fieldOf f.mask (8 * i + 7) (8 * i)) % 2 = 1))

/-- The transposing buffer takes a strip whose first byte comes from `key`: what a mask changed in it before is
overwritten, and an armed mask meets its first storage word (R283). -/
def State.fillTbuf (s : State) (c key : Nat) : State :=
  let s := { s with mem := { s.mem with tbuf := tdel s.mem.tbuf c, badTbuf := s.mem.badTbuf.filter (· != c) } }
  match s.armed clsCore c with
  | none => s
  | some f =>
    if f.mem = 2 then
      let s := s.disarm clsCore c
      { s with mem := { s.mem with tbuf := if f.check then s.mem.tbuf else tput s.mem.tbuf c (key + 8 * f.lane, f.mask),
                                   badTbuf := if f.odd then c :: s.mem.badTbuf else s.mem.badTbuf } }
    else s

/-- A use of the transposing buffer: an error in what it holds is detected (R189). -/
def State.tbufSnag (s : State) (c : Nat) : State × Option Snag :=
  if s.mem.badTbuf.contains c then
    ({ s with mem := { s.mem with badTbuf := s.mem.badTbuf.filter (· != c), tbuf := tdel s.mem.tbuf c } }, some (.parity 2 c 0))
  else (s, none)

/-- SHADOW_LOAD_COMPLETE (R88, R129 to R132). -/
def State.shadowLoad (s : State) (c : Nat) : State :=
  match s.running c with
  | none => s
  | some g =>
    match g.shadow, g.nextLoad with
    | none, some p =>
      let d := g.desc
      if d.kind = .row then s
      else
        let turned := decide (d.modes.transpose = 2) && !p.peel
        let t := if turned then (s.fillTbuf c (spKey c (d.addrW p))).tbufSnag c else (s, none)
        let l := t.1.loadResident c d p (s.segExtents g)
        match (t.1.snagReads c l.acc).orElse (fun _ => t.2) with
        | some x => t.1.snagged c g x
        | none =>
          let f := t.1.farReads c g.kept l.acc
          let s := f.1
          let s := if d.modes.budget ≠ 0 && !p.peel then
              let s := s.bump (Reg.CORE_SPARSE_LOADS c)
              if d.modes.unchecked then s.bump (Reg.CORE_UNCHECKED_LOADS c) else s
            else s
          let side := tbufSide d.modes.wFormat
          let s := if turned then s.bumpBy (Reg.CORE_TBUF_BRICKS c) (ceilDiv l.cols.length side * (d.slots / side)) else s
          let base := if p.peel then d.addrs.scatterPeel else d.addrW p
          let s := if (d.modes.budget = 0 || p.peel) && d.kind != .outer && decide (base % 512 ≠ 0) then
              s.bump (Reg.CORE_MISALIGNED_PASSES c) else s
          let dr := s.countDrops c l.drops
          match dr.2 with
          | some ga => dr.1.raise (segFault c g 0x0301 ga)
          | none => dr.1.setSeg c { g with shadow := some ⟨p.pass, l.cols⟩, kept := f.2 }
    | _, _ => s

def execShadowLoadComplete (c : Fin 64) (s : State) : Result := done (s.shadowLoad c)

def Seg.tileOf (g : Seg) (p : Pt) : Option Tile := g.tiles.find? (fun t => t.seq == p.tile)

/-- The slot of a new tile is still held by one that drains (R103, R206). -/
def Seg.slotBusy (g : Seg) (p : Pt) : Bool :=
  (g.tileOf p).isNone && g.tiles.any (fun t => t.slot == p.tile % max 1 g.desc.modes.tiles)

/-- PASS_SWAP: the sets swap once the shadow set is loaded and the pass has ended (R88). -/
def State.passSwap (s : State) (c : Nat) : State :=
  match s.running c with
  | none => s
  | some g =>
    match g.shadow, g.todo with
    | some r, p :: _ =>
      if p.pass = r.pass then
        let d := g.desc
        let s := s.bubbles c g
        let s := if p.peel then s.bump (Reg.CORE_PEEL_LINK_PASSES c)
          else if d.kind = .scatter then s.bump (Reg.CORE_SCATTER_PASSES c) else s
        let s := if d.modes.peeled then s.bump (Reg.CORE_PEELED_PASSES c) else s
        s.setSeg c { g with active := some r, shadow := none, activeSet := 1 - g.activeSet,
                             dueAt := if g.slotBusy p then some s.clock.now else none }
      else s
    | _, _ => s

def execPassSwap (c : Fin 64) (s : State) : Result := done (s.passSwap c)

/-! ### The streamed rows -/

/-- Elements of a row across its bricks, from position `start` on. -/
def brickRun (s : State) (own base fmt rows m start n : Nat) : List Num :=
  let j0 := start / 256
  let bits := (List.range ((start + n + 255) / 256 - j0)).map (fun i => brickBits s own (brickRowAt base fmt rows m (256 * (j0 + i))) fmt)
  (List.range n).map (fun i => runElem fmt 256 (bits.getD ((start + i) / 256 - j0) 0) ((start + i) % 256))

def brickAcc (op base fmt rows m start n : Nat) : List Run :=
  (List.range ((start + n + 255) / 256 - start / 256)).map (fun i =>
    (op, brickRowAt base fmt rows m (256 * (start / 256 + i)), brickRow fmt))

/-- Positions beyond the valid extent reach the array as zero (R209). -/
def cutTo (n : Nat) (xs : List Num) : List Num := xs.mapIdx (fun i x => if i < n then x else .fin 0 0)

/-- The reduction extent of a streamed operand: N in scatter mode, else K. -/
def Desc.streamExt (d : Desc) : Nat := if d.kind = .scatter then d.ext.2.1 else d.ext.2.2

/-- Where stored row k, position m of a streamed operand lies that the transposing buffer serves (log entry 24). -/
def turnedAt (d : Desc) (base m k : Nat) : Nat :=
  let row := brickRow d.streamFmt
  spAdd base ((k / 256 + m / 256 * ceilDiv d.streamExt 256) * (256 * row) + k % 256 * row : Nat)

def turnedRow (s : State) (own : Nat) (d : Desc) (base m k0 n : Nat) : List Num :=
  let fmt := d.streamFmt
  (List.range n).map (fun i => runElem fmt 256 (tbufBits s own (turnedAt d base m (k0 + i)) fmt) (m % 256))

def turnedAcc (d : Desc) (base m k0 n : Nat) : List Run :=
  (List.range n).map (fun i => (0, turnedAt d base m (k0 + i), brickRow d.streamFmt))

/-- Where the gradient of a linked peeled pass lies: the columns behind the sparse tensor's rows (log entry 25). -/
def Desc.peelBase (d : Desc) (p : Pt) : Nat :=
  spAdd d.addrs.aBase (32 * d.sum p (fun l => l.strideA) (fun l => l.tag != 2 && l.tag != 3))

/-- The streamed values of row m at a point, with the ranges read. In masked-outer mode the activations. -/
def State.streamed (s : State) (own : Nat) (d : Desc) (p : Pt) (e : Extents) (m : Nat) : List Num × List Run :=
  let rows := d.modes.tileRows
  let fmt := d.streamFmt
  let base := d.addrA p
  match d.kind with
  | .scatter =>
    if p.peel then
      let n := (s.peelShape own d).1
      (brickRun s own (d.peelBase p) fmt rows m d.ext.2.1 n, brickAcc 0 (d.peelBase p) fmt rows m d.ext.2.1 n)
    else if d.modes.transpose = 1 then
      (cutTo (d.valid e p 2) (turnedRow s own d base m 0 256), turnedAcc d base m 0 (d.valid e p 2))
    else (cutTo (d.valid e p 2) (brickRun s own base fmt rows m 0 256), brickAcc 0 base fmt rows m 0 256)
  | _ =>
    if d.modes.transpose = 1 then
      (cutTo (d.valid e p 3) (turnedRow s own d base m p.xK d.depth), turnedAcc d base m p.xK (d.valid e p 3))
    else (cutTo (d.valid e p 3) (brickRun s own base fmt rows m (p.xK % 256) d.depth),
      brickAcc 0 base fmt rows m (p.xK % 256) (d.valid e p 3))

/-- The gradient row of masked-outer mode (R181). -/
def State.gradRow (s : State) (own : Nat) (d : Desc) (p : Pt) (e : Extents) (m : Nat) : List Num × List Run :=
  if d.kind = .outer then
    (cutTo (d.valid e p 2) (brickRun s own (d.addrAux p) 0 d.modes.tileRows m 0 256), brickAcc 5 (d.addrAux p) 0 d.modes.tileRows m 0 (d.valid e p 2))
  else ([], [])

/-! ### Chunk sums and Vat entries (R87, R90 to R99) -/

/-- A chunk: the exact sum of its finite products in units of 2^-288, the sum as the window lets it in, the tags of its
non-finite products, and its escapes. -/
structure Chunk where
  exact : Int
  kept  : Int
  tag   : Nat
  lows  : Nat
  highs : Nat
  high  : Option Bool
deriving DecidableEq, Repr

/-- Tags joined: NaN overrides, and both infinities make NaN. -/
def joinTag (a b : Nat) : Nat := if a = 0 then b else if b = 0 ∨ a = b then a else 3

/-- An exact product in units of 2^-288 (R89). -/
def inUnits (m e : Int) : Int := m * 2 ^ (e + 288).toNat / 2 ^ (-(e + 288)).toNat

/-- Magnitude cut toward zero at 2^k units. -/
def truncTo (k : Nat) (x : Int) : Int := x.sign * ((x.natAbs / 2 ^ k * 2 ^ k : Nat) : Int)

/-- A product joins its chunk. An entry whose chunk holds high escapes of both signs saturates by the first of them in the
order of the slots (log entry 51). -/
def Chunk.add (win : Option Int) (c : Chunk) (x : Num) : Chunk :=
  match x with
  | .nan => { c with tag := 3 }
  | .inf n => { c with tag := joinTag c.tag (if n then 2 else 1) }
  | .negZero => c
  | .fin m e =>
    let v := inUnits m e
    match win with
    | none => { c with exact := c.exact + v, kept := c.kept + v }
    | some a =>
      let lo := (a + 192).toNat
      if v = 0 then c
      else if (2 : Int) ^ (a + 295).toNat ≤ v.natAbs then
        { c with exact := c.exact + v, highs := c.highs + 1, high := some (c.high.getD (decide (v < 0))) }
      else if v % (2 : Int) ^ lo = 0 then { c with exact := c.exact + v, kept := c.kept + v }
      else { c with exact := c.exact + v, kept := c.kept + truncTo lo v, lows := c.lows + 1 }

def chunkOf (win : Option Int) (xs : List Num) : Chunk := xs.foldl (Chunk.add win) ⟨0, 0, 0, 0, 0, none⟩

/-- A chunk's kept sum in the units of an entry. -/
def entryUnits (win : Option Int) (x : Int) : Int :=
  match win with
  | none => x
  | some a => x * 2 ^ (-(a + 192)).toNat / 2 ^ (a + 192).toNat

/-- One chunk sum into one entry; the first one writes a fresh entry (R104). -/
def addEntry (win : Option Int) (old : VatEntry) (c : Chunk) : VatEntry :=
  match c.high with
  | some neg => ⟨BitVec.ofInt 640 (if neg then -(2 ^ 127) else 2 ^ 127 - 1), BitVec.ofNat 2 (joinTag old.tag.toNat c.tag)⟩
  | none => ⟨BitVec.ofInt 640 (old.bits.toInt + entryUnits win c.kept), BitVec.ofNat 2 (joinTag old.tag.toNat c.tag)⟩

def freshEntry : VatEntry := ⟨0, 0⟩

/-- Chunk sums into one Vat row, column by column. -/
def addRow (win : Option Int) (old : List VatEntry) (cs : List Chunk) : List VatEntry :=
  (List.range (max old.length cs.length)).map (fun i =>
    match cs[i]? with
    | some c => addEntry win (old.getD i freshEntry) c
    | none => old.getD i freshEntry)

/-- What one command adds: Vat rows with their chunks, sums for the check store, and the keys of `Tile.escaped`. -/
structure Adds where
  rows  : List (Nat × List Chunk)
  check : List (Nat × Int)
  esc   : List Nat

def chunkEsc (c : Chunk) : Bool := c.lows != 0 || c.highs != 0

/-- A product-mode row: one chunk per column; check columns of 32 (R106). -/
def productAdds (win : Option Int) (r : Resident) (acts : List Num) (vatRow : Nat) : Adds :=
  let a := acts.toArray
  let cs := r.cols.map (fun col => chunkOf win (col.map (fun sl => Num.mul (a.getD sl.pos (.fin 0 0)) sl.val)))
  let groups := List.range (ceilDiv cs.length 32)
  ⟨[(vatRow, cs)],
    groups.map (fun g => (8 * vatRow + g, ((cs.drop (32 * g)).take 32).foldl (fun x c => x + c.exact) 0)),
    (groups.filter (fun g => ((cs.drop (32 * g)).take 32).any chunkEsc)).map (fun g => 8 * vatRow + g)⟩

/-- A scatter row: one chunk per dense position, over all columns (R174, R179). -/
def scatterAdds (win : Option Int) (d : Desc) (r : Resident) (dys : List Num) (vatRow ckey : Nat) : Adds :=
  let pairs := (r.cols.zip dys).flatMap (fun cd => cd.1.map (fun sl => (sl.pos, Num.mul cd.2 sl.val)))
  let at_ := fun p => (pairs.filter (fun x => x.1 == p)).map (·.2)
  let cs := (List.range d.depth).map (fun p => chunkOf win (at_ p))
  ⟨(List.range d.rowsPer).map (fun f => (vatRow + f, (cs.drop (256 * f)).take 256)),
    [(ckey, cs.foldl (fun x c => x + c.exact) 0)], if cs.any chunkEsc then [ckey] else []⟩

/-- A masked-outer row: one product per live slot into the slot's own entry; a check entry per column (R181, R186). -/
def outerAdds (win : Option Int) (r : Resident) (acts dys : List Num) (base : Nat) : Adds :=
  let a := acts.toArray
  let none_ : Chunk := ⟨0, 0, 0, 0, 0, none⟩
  let cols := (r.cols.zip dys).map (fun cd => cd.1.map (fun sl => (sl.row, chunkOf win [Num.mul (a.getD sl.pos (.fin 0 0)) cd.2])))
  ⟨(List.range 256).map (fun row => (base + row, cols.map (fun col => ((col.find? (fun x => x.1 == row)).map (·.2)).getD none_))),
    cols.mapIdx (fun c col => (base * 256 + c, col.foldl (fun x y => x + y.2.exact) 0)),
    (List.range cols.length).filter (fun c => ((cols.getD c []).any (fun y => chunkEsc y.2))) |>.map (fun c => base * 256 + c)⟩

/-! ### The anchor (R94) -/

def elemLimit (fmt : Nat) : Int := if fmt = 0 then 0 else (fmtOf fmt).emax

def sumByte (b : Nat) : Int := if b = 0xFF then 0xFE else b

/-- The streamed and resident formats whose limits enter the anchor. -/
def Desc.anchorFmts (d : Desc) : Nat × Nat :=
  match d.kind with
  | .outer => (d.modes.aFormat, 0)
  | _ => (d.streamFmt, d.modes.wFormat)

def Desc.anchorReads (d : Desc) : List Run :=
  if d.modes.windowed && !d.modes.fixedAnchor then [(11, d.addrs.summaryA, 1), (12, d.addrs.summaryW, 1)] else []

def State.anchorOf (s : State) (own : Nat) (d : Desc) : Int :=
  if d.modes.fixedAnchor then d.modes.anchorFixed
  else
    let rd := fun a => sumByte (byteAt s.mem.cells (spKey own a)).toNat
    (rd d.addrs.summaryA - 127) + (rd d.addrs.summaryW - 127) + elemLimit d.anchorFmts.1 + elemLimit d.anchorFmts.2 - 5 +
      d.modes.margin

/-- A tile starts: its anchor is fixed (R94), and an edge is counted. -/
def State.openTile (s : State) (c : Nat) (g : Seg) (p : Pt) : State × Tile :=
  let d := g.desc
  let e := s.segExtents g
  let a := if d.modes.windowed then s.anchorOf c d else 0
  let s := if d.modes.windowed then
      s.setReg (Reg.CORE_LAST_ANCHOR c) (bnat d.modes.fixedAnchor * 2 ^ 10 + unsignedOf 10 a) else s
  let s := if d.edgeTile e p then s.bump (Reg.CORE_EDGE_TILES c) else s
  (s, { d.tileAt e p false with anchor := a })

/-- Bytes of a streamed row (R128, Table 07.2). -/
def Desc.rowBytes (d : Desc) (p : Pt) : Nat :=
  let fmt := d.streamFmt
  match d.kind with
  | .scatter => 512
  | _ =>
    d.depth * elemBits fmt / 8 + (if isMx fmt then (p.xK % 32 + d.depth + 31) / 32 else 0) +
      (if d.kind = .outer then 512 else 0)

/-- A layout base that is not on a layout block (R232). -/
def offBlock (a : Nat) : Bool := decide (a % 512 ≠ 0)

/-- Counters of one streamed row (R128, R181, R189, R232): a turned row takes ceil(E / 256) cycles, a split one two. -/
def State.countRow (s : State) (c : Nat) (d : Desc) (p : Pt) (e : Extents) (m : Nat) : State :=
  let turned := decide (d.modes.transpose = 1) && !p.peel
  let across := if d.kind = .scatter then (256, d.valid e p 2) else (d.depth, d.valid e p 3)
  let s := if decide (ceilDiv (d.rowBytes p) 1280 = 2) && !p.peel then s.bump (Reg.CORE_SPLIT_ROWS c) else s
  let slow := turned && decide (256 < across.1 * elemBits d.streamFmt / 8)
  let s := if slow then s.bump (Reg.CORE_TBUF_SLOW_ROWS c) else s
  let side := tbufSide d.streamFmt
  let s := if turned && decide (m % side = 0) then s.bumpBy (Reg.CORE_TBUF_BRICKS c) (ceilDiv across.2 side) else s
  let base := if p.peel then d.peelBase p else d.addrA p
  if decide (m = 0) && (offBlock base || (d.kind == .outer && offBlock (d.addrAux p))) then s.bump (Reg.CORE_MISALIGNED_PASSES c) else s

def Desc.termLimit (d : Desc) : Nat := if d.modes.windowed then 2 ^ 24 else 2 ^ 48

/-- A bad byte of a Vat entry: the storage word of the first byte written, at the mask's lane (R283). -/
def State.flipVat (s : State) (c : Nat) (g : Seg) (row : Nat) : State × Seg :=
  match s.armed clsCore c with
  | none => (s, g)
  | some f =>
    if f.mem = 1 then
      let size := if g.desc.modes.windowed then 16 else 80
      let o := row * size / 32 * 32 + 8 * f.lane
      let r := o / size
      let s := s.disarm clsCore c
      match tfind g.vat r with
      | none => (s, g)
      | some es =>
        let sh := 8 * (o % size)
        let wide := if g.desc.modes.windowed then 128 else 640
        let x := es.getD 0 freshEntry
        let low := (x.bits.toNat % 2 ^ wide) ^^^ (f.mask * 2 ^ sh % 2 ^ wide)
        let y : VatEntry := if f.check then x else { x with bits := BitVec.ofInt 640 (signedOf wide low) }
        (s, { g with vat := tput g.vat r (y :: es.drop 1), badVat := if f.odd then (r * 256) :: g.badVat else g.badVat })
    else (s, g)

/-- Escapes counted entry by entry: the saturated entries, and the entry whose escape passed the limit. -/
structure Escapes where
  lows   : Nat
  highs  : Nat
  highAt : List Nat
  lowAt  : Option Nat

def countEscapes (seg limit : Nat) (rows : List (Nat × List Chunk)) : Escapes :=
  rows.foldl (fun e r => (r.2.mapIdx (fun i c => (r.1 * 256 + i, c))).foldl (fun (e : Escapes) x =>
    let lows := e.lows + x.2.lows
    { lows := lows, highs := e.highs + x.2.highs, highAt := if x.2.highs = 0 then e.highAt else e.highAt ++ [x.1],
      lowAt := e.lowAt.orElse (fun _ =>
        if decide (x.2.lows ≠ 0) && decide (limit < min 0xFFFFFFFF (seg + lows)) then some x.1 else none) }) e)
    ⟨0, 0, [], none⟩

/-- A tile takes its slot: the slot's entries are fresh, its check entries zero, so that its first chunk sums write them
(R104, R107). -/
def Seg.freshSlot (g : Seg) (slot : Nat) : Seg :=
  let v := g.desc.tileRowsV
  let mine := fun (row : Nat) => decide (v * slot ≤ row) && decide (row < v * slot + v)
  let check := fun (k : Nat) => match g.desc.kind with
    | .scatter => decide (k / 1024 = slot)
    | .outer => mine (k / 256)
    | _ => mine (k / 8)
  { g with vat := g.vat.filter (fun r => !mine r.1), badVat := g.badVat.filter (fun k => !mine (k / 256)),
           check := g.check.filter (fun r => !check r.1) }

/-- The Vat, the check store and the tile after one command's chunk sums. -/
def Seg.addAll (g : Seg) (win : Option Int) (t : Tile) (a : Adds) : Seg :=
  let vat := a.rows.foldl (fun v r => tput v r.1 (addRow win (tget [] v r.1) r.2)) g.vat
  let check := a.check.foldl (fun v r => tput v r.1 (tget 0 v r.1 + r.2)) g.check
  let t := { t with escaped := t.escaped ++ a.esc.filter (fun k => !t.escaped.contains k) }
  { g with vat := vat, check := check, tiles := if (g.tiles.any (fun x => x.seq == t.seq))
      then g.tiles.map (fun x => if x.seq = t.seq then t else x) else g.tiles ++ [t] }

/-- The head of the walk moves past a row; the last row of a point ends it, and the last reduction step ends its tile. -/
def Seg.advance (g : Seg) (now rows : Nat) : Seg :=
  match g.todo with
  | [] => g
  | p :: ps =>
    if g.row + 1 < rows then { g with row := g.row + 1 }
    else
      let tiles := if p.last then g.tiles.map (fun t => if t.seq = p.tile then { t with done := true } else t) else g.tiles
      let waits := match ps with
        | [] => false
        | q :: _ => q.pass != p.pass || { g with tiles := tiles }.slotBusy q
      { g with todo := ps, row := 0, tiles := tiles, dueAt := if waits then some now else none }

/-- The sums of row m of a point (R87, R173, R181). -/
def State.rowAdds (s : State) (c : Nat) (d : Desc) (p : Pt) (e : Extents) (r : Resident) (t : Tile) (m : Nat) : Adds :=
  let win := if d.modes.windowed then some t.anchor else none
  let base := d.tileRowsV * t.slot
  match d.kind with
  | .product => productAdds win r (s.streamed c d p e m).1 (base + m)
  | .scatter => scatterAdds win d r (s.streamed c d p e m).1 (base + m * d.rowsPer) (t.slot * 1024 + m)
  | .outer => outerAdds win r (s.streamed c d p e m).1 (s.gradRow c d p e m).1 base
  | .row => ⟨[], [], []⟩

/-- The chunk is added, its escapes counted, and the faults of R96 and R97 raised. -/
def State.addChunk (s : State) (c : Nat) (g : Seg) (t : Tile) (a : Adds) (rows : Nat) : State :=
  let win := if g.desc.modes.windowed then some t.anchor else none
  let esc := countEscapes (s.reg (Reg.CORE_SEG_LOW_ESCAPES c)) (s.reg (Reg.CORE_LOW_ESCAPE_LIMIT c)) a.rows
  let s := (s.bumpBy (Reg.CORE_LOW_ESCAPES c) esc.lows).bumpBy (Reg.CORE_HIGH_ESCAPES c) esc.highs
  let s := s.bumpSat (Reg.CORE_SEG_LOW_ESCAPES c) esc.lows 0xFFFFFFFF
  let fl := s.flipVat c (g.addAll win t a) ((a.rows.head?.map (·.1)).getD 0)
  let s := fl.1.setSeg c (fl.2.advance s.clock.now rows)
  let s := esc.highAt.foldl (fun t x => t.raise (segFault c g 0x0202 x)) s
  match esc.lowAt with
  | some x => s.raise (segFault c g 0x0203 x)
  | none => s

/-- CHUNK_SUM: one row of the head point streams past the active set. -/
def State.chunkSum (s : State) (c : Nat) : State :=
  match s.running c with
  | none => s
  | some g =>
    match g.todo, g.active with
    | p :: _, some r =>
      let d := g.desc
      let e := s.segExtents g
      if d.kind = .row ∨ p.pass ≠ r.pass ∨ g.slotBusy p then s
      else
        let m := g.row
        let opens := (g.tileOf p).isNone
        let acc := (s.streamed c d p e m).2 ++ (s.gradRow c d p e m).2 ++ (if opens then d.anchorReads else [])
        let strip := fun (s : State) => if m % tbufSide d.streamFmt = 0 then
            s.fillTbuf c (spKey c (turnedAt d (d.addrA p) m (if d.kind = .scatter then 0 else p.xK)) + m % 256 * elemBits d.streamFmt / 8)
          else s
        let tb := if d.modes.transpose = 1 && !p.peel then (strip s).tbufSnag c else (s, none)
        let bad := g.badVat.find? (fun k => match g.tileOf p with
          | none => false
          | some t => match d.kind with
            | .outer => decide (k / 256 / 256 = t.slot)
            | _ => decide (k / 256 / d.rowsPer = (d.tileRowsV * t.slot + m * d.rowsPer) / d.rowsPer))
        let snag := ((tb.1.snagReads c acc).orElse (fun _ => tb.2)).orElse (fun _ => bad.map (fun k =>
          .parity 1 c (k / 256 * (if d.modes.windowed then 16 else 80))))
        match snag with
        | some x => tb.1.snagged c g x
        | none =>
          let f := tb.1.farReads c g.kept acc
          let s := f.1.countRow c d p e m
          let o := match g.tileOf p with
            | some t => (s, t)
            | none => ((s.bubbles c g).openTile c g p)
          let s := o.1
          let g := { g with kept := f.2 }
          let g := if opens then { g.freshSlot o.2.slot with dueAt := none } else g
          let adds := decide (m = 0) || d.kind == .outer
          let t := { o.2 with terms := if adds then o.2.terms + d.termStep else o.2.terms, pt := if opens then p else o.2.pt }
          if d.termLimit < t.terms then
            (s.bump (Reg.CORE_LENGTH_LIMITS c)).raise (segFault c g 0x0201 (d.tileRowsV * t.slot * 256))
          else s.addChunk c g t (s.rowAdds c d p e r t m) (d.valid e p 1)
    | _, _ => s

def execChunkSum (c : Fin 64) (s : State) : Result := done (s.chunkSum c)

end Sys2Proof.Machine
end

