-- ==== Sys2Proof/Machine/Requests.lean ====
section
/-!
DEFINITION. Completion and signal tokens (R37 to R39), fetch-queue requests and the engines that carry them out (R40,
R244 to R250), and the checks of a fetch-list entry at issue (R520).
-/

namespace Sys2Proof.Machine

/-! ### Tokens -/

def Core.token (k : Core) (t : Nat) : Token := tget ⟨0, 0, 0⟩ k.tokens t

/-- The segment that issued a token's latest request has ended. -/
def Core.ended (k : Core) (t : Token) : Bool :=
  match k.seg with
  | none => true
  | some g => g.id != t.lastSeg

/-- R37: at least one request, all completed, and the segment of the latest of them ended. -/
def Core.complete (k : Core) (t : Nat) : Bool :=
  decide (0 < (k.token t).issued) && decide ((k.token t).done = (k.token t).issued) && k.ended (k.token t)

def Core.setToken (k : Core) (t : Nat) (v : Token) : Core := { k with tokens := tputD ⟨0, 0, 0⟩ k.tokens t v }

/-- The tokens an entry waits on are all complete or set (R39). -/
def Core.met (k : Core) (e : Entry) : Bool :=
  (List.range 64).all (fun i => !bitOf e.waitMask.toNat i ||
    (if e.waitWindow < 4 then k.complete (64 * e.waitWindow + i) else bitOf k.signals.toNat i))

/-- They are consumed at release. -/
def Core.consume (k : Core) (e : Entry) : Core :=
  if e.waitWindow < 4 then
    (List.range 64).foldl (fun k i => if bitOf e.waitMask.toNat i then k.setToken (64 * e.waitWindow + i) ⟨0, 0, 0⟩ else k) k
  else { k with signals := k.signals &&& ~~~e.waitMask }

def State.requestDone (s : State) (core tok : Nat) : State :=
  let k := s.core core
  let t := k.token tok
  s.setCore core (k.setToken tok { t with done := t.done + 1 })

/-- A signal token is set on a core; one still set raises TOKEN_OVERWRITE there (R38). -/
def State.signal (s : State) (core tok : Nat) : State :=
  let k := s.core core
  if bitOf k.signals.toNat tok then
    s.raise { code := 0x0104, cls := clsCore, inst := core, addr := tok, core := core,
              entry := match k.seg with | some g => g.entry.getD 0xFFFF | none => 0xFFFF,
              desc := match k.seg with | some g => g.descIx | none => 0xFFFF }
  else s.setCore core { k with signals := k.signals ||| BitVec.ofNat 64 (2 ^ tok) }

/-! ### Footprints (R246, R250, R252) -/

def elemSize (e : FetchEntry) : Nat := 2 ^ e.elem

/-- Runs of scratchpad written by a request of n rows: die address and length. -/
def FetchEntry.dests (e : FetchEntry) (n : Nat) : List (Nat × Nat) :=
  let row := fun (i : Nat) => spAdd e.sp (e.spPitch * i)
  if e.kind = 3 then
    (List.range (e.rowBytes / elemSize e)).map (fun c => (spAdd e.ext.toNat (c * e.extPitch : Nat), n * elemSize e))
  else if e.dir = 2 then (List.range n).map (fun i => (spAdd e.ext.toNat (i * e.extPitch : Nat), e.rowBytes))
  else if e.dir = 0 then
    if e.kind = 2 then
      (List.range n).flatMap (fun i => (List.range e.pieces).map (fun j =>
        (spAdd (row i) (j * e.piecePitch : Nat), e.rowBytes / e.pieces)))
    else (List.range n).map (fun i => (row i, e.rowBytes))
  else []

/-- Runs of scratchpad read as its source. -/
def FetchEntry.sources (e : FetchEntry) (n : Nat) : List (Nat × Nat) :=
  if e.dir = 0 then [] else (List.range n).map (fun i => (spAdd e.sp (e.spPitch * i), e.rowBytes))

/-- The coordinate list or index tensor. -/
def FetchEntry.listRun (e : FetchEntry) (n : Nat) : List (Nat × Nat) :=
  if e.kind = 1 then [(e.list, 8 * n)] else if e.kind = 2 then [(e.list, 4 * n)] else []

/-- The first byte, as a die address of the destination, that two lists of runs share. -/
def firstShared (own : Nat) (a b : List (Nat × Nat)) : Option Nat :=
  a.findSome? (fun x => b.findSome? (fun y =>
    let kx := spKey own x.1
    let ky := spKey own y.1
    if kx < ky + y.2 ∧ ky < kx + x.2 then some (spAdd x.1 ((max kx ky - kx : Nat) : Int)) else none))

/-! ### What a plan's descriptors and fetch lists write (R210, R231, R243, R253) -/

/-- A run in whole layout blocks (R231). -/
def wholeRun (r : Nat × Nat) : Nat × Nat :=
  if r.2 = 0 then r else (r.1 - r.1 % 512, roundUp (r.1 % 512 + r.2) 512)

/-- The region of the table in which every run of scratchpad lies, each run within one core below 0xA_0000. -/
def Plan.regionOf (p : Plan) (own : Nat) (runs : List (Nat × Nat)) : Option Nat :=
  if runs.all (fun r => decide (spOff r.1 + r.2 ≤ scratchBytes)) then
    p.regions.findIdx? (fun g => runs.all (fun r =>
      decide (r.2 = 0) || (g.inScratch (spCore own r.1) (spOff r.1) && g.inScratch (spCore own r.1) (spOff r.1 + r.2 - 1))))
  else none

/-- Whole bricks of an operand in brick layout from column `lo` to before `hi`, at an address. -/
def wholeBricks (base fmt rows lo hi : Nat) : List (Nat × Nat) :=
  let n := ceilDiv hi 256 - lo / 256
  if n = 0 then [] else [(spAdd base (brickPitch fmt rows * (lo / 256) : Nat), brickPitch fmt rows * n)]

/-- What a tile writes at a walk point, from its destination's base. -/
def Desc.runOut (d : Desc) (p : Pt) : List (Nat × Nat) :=
  let m := d.modes
  let n := d.valid d.planned p 2
  if m.statOnly then []
  else match d.kind with
    | .scatter => wholeBricks 0 m.outFormat m.tileRows 0 (d.valid d.planned p 3)
    | .outer =>
      let b := budgetOf m.budget
      (List.range n).map (fun c => (2 * (((p.xN + c) * d.addrs.groupPitch + p.xK / 16) * b), 2 * d.groups * b))
    | _ =>
      if m.rowFn = 9 then [(4 * p.xM, 4 * d.valid d.planned p 1)]
      else wholeBricks 0 m.outFormat m.tileRows d.addrs.outCol0 (d.addrs.outCol0 + n)

/-- The points at the planned extents that are not skipped. -/
def Desc.plannedPts (d : Desc) : List Pt := d.points.filter (fun p => !d.skips d.planned p)

/-- Cores that take a drain under routes 0 to 2. -/
def Plan.outCores (p : Plan) (core : Nat) (d : Desc) : List Nat :=
  match d.modes.outRoute with
  | 1 => [d.modes.outCore]
  | 2 => tget [] p.gangs d.modes.outGang
  | _ => [core]

/-- Where a tile's bytes begin: MERGE_LSE's words lie at OUT_BASE itself (R218). -/
def Desc.outAt (d : Desc) (p : Pt) : Nat := if d.modes.rowFn = 9 then d.addrs.outBase else d.addrOut p

/-- Runs of scratchpad that a descriptor writes, in whole layout blocks, with the core each list is for. -/
def Plan.outRuns (p : Plan) (core : Nat) (d : Desc) : List (Nat × List (Nat × Nat)) :=
  let rs := d.plannedPts.flatMap (fun p => (d.runOut p).map (fun r => wholeRun (spAdd (d.outAt p) r.1, r.2)))
  if d.modes.outRoute = 3 then []
  else (p.outCores core d).map (fun c =>
    (c, if d.modes.outRoute = 0 then rs else rs.map (fun r => (spOff r.1, r.2))))

/-- Layout blocks of FULL_BLOCK regions among lists of runs, as keys. -/
def Plan.fullIn (p : Plan) (outs : List (Nat × List (Nat × Nat))) : List Nat :=
  outs.flatMap (fun x => match (p.regionOf x.1 x.2).bind (fun i => p.regions[i]?) with
    | some r => if r.fullBlock then blocksOf x.1 x.2 else []
    | none => [])

/-- Those that a descriptor writes. -/
def Plan.fullBlocks (p : Plan) (core : Nat) (d : Desc) : List Nat := p.fullIn (p.outRuns core d)

/-- The cores a run of scratchpad goes to. -/
def runCores (a : Nat) : List Nat := if bitOf a 26 then [fieldOf a 25 20] else List.range 64

/-- The last PRELOAD run that writes a byte of a core's scratchpad: its index, the place in it, the byte. -/
def Plan.preByte (p : Plan) (core off : Nat) : Option (Nat × Nat × Byte) :=
  p.preload.zipIdx.reverse.findSome? (fun x =>
    let b := x.1.addr.toNat
    if x.1.space = 0 ∧ (runCores b).contains core ∧ spOff b ≤ off then
      (x.1.data[off - spOff b]?).map (fun v => (x.2, off - spOff b, v))
    else none)

/-- Bytes of a core's scratchpad as PRELOAD leaves them, where its runs write them all. -/
def Plan.preBytes (p : Plan) (core off n : Nat) : Option (List Byte) :=
  (List.range n).mapM (fun i => (p.preByte core (off + i)).map (fun x => x.2.2))

/-- The entries of a descriptor's fetch list that PRELOAD places: index, run and place of the first byte, bytes. -/
def Plan.listEntries (p : Plan) (core : Nat) (d : Desc) : List (Nat × Nat × Nat × List Byte) :=
  (List.range d.addrs.fetchCount).filterMap (fun i =>
    let a := spAdd d.addrs.fetchList (64 * i : Nat)
    match p.preByte (spCore core a) (spOff a), p.preBytes (spCore core a) (spOff a) 64 with
    | some x, some bs => some (i, x.1, x.2.1, bs)
    | _, _ => none)

/-- Effective count (R245). -/
def State.countOf (s : State) (e : FetchEntry) : Nat :=
  if e.shapeVar = 0 then e.count else min e.count (s.shape e.shapeVar - e.shapeOff)

/-! ### Issue (R37, R40, R250) -/

def State.queued (s : State) (core fq : Nat) : Nat := (s.run.reqs.filter (fun r => r.core == core && r.fq == fq)).length

/-- A request of a segment: refused by a full queue, a token not yet consumed, or issued and counted; one of no rows
completes. -/
def State.issue (s : State) (c : Nat) (g : Seg) (fq tok : Nat) (what : ReqWhat) (count engine : Nat) (blocks : List Nat)
    (loops : List Nat) (counter : Nat) : State :=
  let f := fun (code addr : Nat) => { segFault c g code addr with loops := loops }
  if 16 ≤ s.queued c fq then s.raise (f 0x0105 fq)
  else if (s.core c).complete tok then s.raise (f 0x0104 tok)
  else
    let k := s.core c
    let t := k.token tok
    let s := (s.setCore c (k.setToken tok { t with issued := t.issued + 1, lastSeg := g.id })).bump counter
    if count = 0 then s.requestDone c tok
    else
      let r : Req := { id := s.run.nextReq, core := c, fq := fq, token := some tok, seg := g.id, entry := g.entry.getD 0xFFFF,
                       desc := g.descIx, what := what, count := count, engine := engine, issuedAt := s.clock.now,
                       slot := g.planned / 4096, started := false, waiting := false, blocks := blocks }
      { s with run := { s.run with reqs := s.run.reqs ++ [r], nextReq := s.run.nextReq + 1 } }

/-! ### Fetch-list entries (Table 09.6) -/

def parseFetch (w : List Nat) : FetchEntry :=
  let g := fun i => w.getD i 0
  { kind := fieldOf (g 0) 31 28, dir := fieldOf (g 0) 27 26, fq := fieldOf (g 0) 25 20, token := fieldOf (g 0) 19 12,
    shapeVar := fieldOf (g 0) 11 8, zeroFill := bitOf (g 0) 7, elem := fieldOf (g 0) 6 5, sp := g 1,
    ext := BitVec.ofNat 64 (g 2 + 2 ^ 32 * g 3), rowBytes := fieldOf (g 4) 23 0, count := fieldOf (g 5) 23 0,
    spPitch := signedOf 32 (g 6), extPitch := g 7, list := g 8, tableRows := g 9, shapeOff := fieldOf (g 10) 23 0,
    pieces := fieldOf (g 11) 3 0 + 1, piecePitch := g 12, colBlocks := g 13,
    reservedSet := fieldOf (g 0) 4 0 != 0 || fieldOf (g 4) 31 24 != 0 || fieldOf (g 5) 31 24 != 0 ||
      fieldOf (g 10) 31 24 != 0 || fieldOf (g 11) 31 4 != 0 || g 14 != 0 || g 15 != 0 ||
      fieldOf (g 1) 31 27 != 0 || fieldOf (g 8) 31 27 != 0 || (decide (fieldOf (g 0) 27 26 = 2) && fieldOf (g 2) 31 27 != 0) }

/-- An entry as it stands in memory. -/
def parseFetchBytes (bs : List Byte) : FetchEntry :=
  parseFetch ((List.range 16).map (fun i => leNat ((bs.drop (4 * i)).take 4)))

/-- Layout blocks of FULL_BLOCK regions that an entry fills at a count (R243). -/
def Plan.fetchFull (p : Plan) (core : Nat) (e : FetchEntry) (n : Nat) : List Nat := p.fullIn [(core, e.dests n)]

/-- The entries of every fetch list that PRELOAD places: core, run, place in the run, bytes. -/
def Plan.fetchEntries (p : Plan) : List (Nat × Nat × Nat × List Byte) :=
  p.descs.flatMap (fun x => (p.listEntries (x.1 / 1024) x.2).map (fun y => (x.1 / 1024, y.2)))

/-- R243 for an entry: it fills no block of a FULL_BLOCK region that a descriptor or another entry writes. -/
def Plan.fetchClash (p : Plan) (core : Nat) (e : FetchEntry) (n : Nat) : Bool :=
  let mine := p.fetchFull core e n
  !mine.isEmpty && (p.descs.any (fun x => (p.fullBlocks (x.1 / 1024) x.2).any mine.contains) ||
    p.fetchEntries.any (fun y =>
      let f := parseFetchBytes y.2.2.2
      !(y.1 == core && f == e) && (p.fetchFull y.1 f f.count).any mine.contains))

/-- Allowed combinations of Table 09.7; `own` says whether an address is of this module. -/
def FetchEntry.spaceOk (e : FetchEntry) (own : Bool) : Bool :=
  let sp := zSpace e.ext.toNat
  match e.kind with
  | 0 => true
  | 1 => decide (e.dir < 2) && (decide (sp = 1) || (decide (sp = 0) && !own))
  | 2 => decide (e.dir = 0) && decide (sp = 0) && own
  | _ => decide (e.dir = 2)

/-- Runs within 640 KiB of their core, and all within one region (R253). -/
def State.runsOk (s : State) (own : Nat) (runs : List (Nat × Nat)) : Bool :=
  runs.all (fun r => decide (spOff r.1 + r.2 ≤ scratchBytes)) &&
  (match s.run.plan with
   | none => true
   | some p => runs.isEmpty || p.regions.any (fun rg => runs.all (fun r =>
      rg.inScratch (spCore own r.1) (spOff r.1) && rg.inScratch (spCore own r.1) (spOff r.1 + r.2 - 1))))

/-- A Zarixon run within one region, or within one window of this module (R519). -/
def State.external (s : State) (p : Plan) (a n : Nat) : Bool :=
  let own := zEndpoint a == s.moduleNum && zSpace a == 0
  match (if own then windowAt (zOff a) else none), (if own then windowAt (zOff (a + n - 1)) else none) with
  | none, none => p.regions.any (fun g => g.inExternal a && g.inExternal (a + n - 1))
  | some (.upd x _), some (.upd y _) => x == y
  | some (.sep x _), some (.sep y _) => x == y
  | some (.intake x i _), some (.intake y j _) => x == y && i == j
  | _, _ => false

/-- The external footprint of a LINEAR request lies in one region or window (R253, R519); spaces 2 to 4 hold no regions. -/
def State.extOk (s : State) (e : FetchEntry) (n : Nat) : Bool :=
  if e.kind = 0 ∧ e.dir < 2 ∧ zSpace e.ext.toNat < 2 then
    match s.run.plan with
    | none => true
    | some p => s.external p e.ext.toNat ((n - 1) * e.extPitch + e.rowBytes)
  else true

/-- R253 and the queue condition of R222, at a count; TRANSPOSE overlap apart. -/
def State.fetchBad (s : State) (own : Nat) (e : FetchEntry) (n : Nat) : Bool :=
  e.reservedSet || decide (3 < e.kind) || decide (e.dir = 3) || decide (e.elem = 3) ||
  decide (61 < e.fq) || !e.spaceOk (zEndpoint e.ext.toNat == s.moduleNum) ||
  (decide (e.dir = 2) && decide (e.ext.toNat / 2 ^ 32 ≠ 0)) ||
  decide (e.rowBytes = 0) || decide (e.count = 0) ||
  (decide (e.kind = 1) && decide (e.rowBytes % 512 ≠ 0)) || (decide (e.kind = 2) && decide (e.rowBytes % e.pieces ≠ 0)) ||
  (decide (e.shapeVar ≠ 0) && decide (s.reg (Reg.PHASE_SHAPE_MAX e.shapeVar) = 0)) ||
  s.run.plan.any (fun p => p.fetchClash own e n) ||
  (decide (n ≠ 0) && (!(s.runsOk own (e.dests n) && s.runsOk own (e.sources n) && s.runsOk own (e.listRun n)) || !s.extOk e n))

/-- R252: source and destination of a TRANSPOSE share a byte. -/
def FetchEntry.overlap (e : FetchEntry) (own n : Nat) : Option Nat :=
  if e.kind = 3 then firstShared own (e.dests n) (e.sources n) else none

/-- One entry of a fetch list, checked again and issued (R215 step 3, R520). -/
def State.issueFetch (s : State) (c : Nat) (g : Seg) (a : Nat) : State :=
  let e := parseFetch ((List.range 16).map (fun i => natAt s.mem.cells (spKey c (spAdd a (4 * i))) 4))
  let n := s.countOf e
  let f := fun (code addr : Nat) => { segFault c g code addr with loops := [0, 0, 0, 0, 0, 0] }
  if s.fetchBad c e n then s.raise (f 0x0603 a)
  else
    match e.overlap c n with
    | some x => s.raise (f 0x0601 x)
    | none =>
      let blocks := if e.dir = 1 then [] else blocksOf c (e.dests n)
      s.issue c g e.fq e.token (.fetch e a) n (s.engineFor c e) blocks [0, 0, 0, 0, 0, 0] (Reg.CORE_FETCHES_ISSUED c)

/-- The fetch list in order, up to the first entry that faults. -/
def State.issueList (s : State) (c : Nat) (g : Seg) : State :=
  (List.range g.desc.addrs.fetchCount).foldl (fun t i =>
    if (t.core c).stopped then t
    else
      let a := spAdd g.desc.addrs.fetchList (64 * i : Nat)
      match t.snagRead c a 64 with
      | some (.pendingRead b) => t.raise (segFault c g 0x0102 b)
      | some (.parity m k o) => (t.parityHit k m o).raise (segFault c g 0x0704 (dieAddr c k o))
      | _ => (t.farAccess c (spCore c a) 2 64).issueFetch c g a) s

end Sys2Proof.Machine
end

