-- ==== Sys2Proof/Machine/Link.lean ====
section
/-!
DEFINITION. The sending side of Zarixon: flows and their retry stores (R336, R338, R340), queue and port of a flow (R345,
R346), the plane a flow uses (R368), and blocks handed to it. FRAME_SEND puts them on a port.
-/

namespace Sys2Proof.Machine

/-! ### Peers (R343) -/

def State.peerOn (s : State) (num : Nat) (host : Bool) (plane : Nat) : Option Peer :=
  s.fab.peers.find? (fun p => p.num == num && p.host == host && p.plane == plane)

def State.joinedOn (s : State) (num : Nat) (host : Bool) (plane : Nat) : Bool :=
  match s.peerOn num host plane with
  | some p => !p.unreachable
  | none => false

/-- Joined and reachable on some plane. -/
def State.reachable (s : State) (num : Nat) (host : Bool) : Bool := s.joinedOn num host 0 || s.joinedOn num host 1

/-- The generation agreed with a peer (R341). -/
def State.genOf (s : State) (num : Nat) (host : Bool) : Nat :=
  match s.fab.peers.find? (fun p => p.num == num && p.host == host) with
  | some p => p.gen
  | none => 0

def State.modPeer (s : State) (num : Nat) (host : Bool) (plane : Nat) (f : Peer → Peer) : State :=
  { s with fab := { s.fab with peers := s.fab.peers.map (fun p =>
      if p.num = num ∧ p.host = host ∧ p.plane = plane then f p else p) } }

/-! ### Flows -/

/-- The plane a flow uses: its own, or the surviving one (R368). -/
def State.livePlane (s : State) (plane : Nat) : Nat :=
  if s.planeOut plane && !s.planeOut (1 - plane) then 1 - plane else plane

/-- Port (DST + QUEUE) mod 4 of its plane (R346). -/
def portFor (plane dst queue : Nat) : Nat := 4 * plane + (dst + queue) % 4

/-- The port a flow is sent from at present. -/
def State.flowPort (s : State) (f : FlowId) : Nat := portFor (s.livePlane f.plane) f.peer f.queue

def State.txFlow (s : State) (id : FlowId) : TxFlow :=
  (s.fab.tx.find? (fun f => f.id == id)).getD ⟨id, 0, []⟩

def State.setTx (s : State) (f : TxFlow) : State :=
  if s.fab.tx.any (fun g => g.id == f.id) then
    { s with fab := { s.fab with tx := s.fab.tx.map (fun g => if g.id = f.id then f else g) } }
  else { s with fab := { s.fab with tx := s.fab.tx ++ [f] } }

/-- A frame's header to a peer, before the flow numbers it (Table 12.3). -/
def State.header (s : State) (type cls queue peer : Nat) (host : Bool) : Hdr where
  gen := s.genOf peer host
  type := type
  cls := cls
  nblk := 0
  resend := false
  last := false
  queue := queue
  src := s.moduleNum
  dst := peer
  srcHost := false
  dstHost := host
  seq := 0
  tag := 0
  addr := 0
  len := 0
  phaseTag := 0

/-- The flow that carries a queue's traffic: one moved from the other, failed plane goes on with its numbers (R368). -/
def movedFlow (s : State) (ids : List FlowId) (id : FlowId) : FlowId :=
  let other := { id with plane := 1 - id.plane }
  if !ids.contains id && s.planeOut other.plane && ids.contains other then other else id

/-- One frame waits in its flow; a frame with a block takes the flow's next number (R336), and a READ names it, so that it
is served after the blocks before it (R347; log entry 41). -/
def State.enqueue (s : State) (id : FlowId) (h : Hdr) (data : List Byte) : State :=
  let f := s.txFlow (movedFlow s (s.fab.tx.map (·.id)) id)
  let n := if data.isEmpty then 0 else 1
  let h' := { h with seq := if n = 0 ∧ h.type ≠ 1 then h.seq else f.next, nblk := n,
                     len := if n = 0 then h.len else BitVec.ofNat 32 data.length }
  s.setTx { f with next := f.next + BitVec.ofNat 32 n,
                   blocks := f.blocks ++ [⟨⟨h', data⟩, 0, 0, false, false, false⟩] }

def flowTo (peer : Nat) (host : Bool) (plane cls queue : Nat) : FlowId := ⟨peer, host, plane, cls, queue⟩

/-- Blocks of at most 4,096 bytes. -/
def cutBlocks (bs : List Byte) : List (List Byte) :=
  (List.range (ceilDiv bs.length 4096)).map (fun i => (bs.drop (4096 * i)).take 4096)

/-- A run of bytes as blocks at rising addresses, those of a control message without address (R382); the last one says so. -/
def State.sendRun (s : State) (id : FlowId) (h : Hdr) (bs : List Byte) : State :=
  let blocks := cutBlocks bs
  (blocks.mapIdx (fun i b => (i, b))).foldl (fun t (x : Nat × List Byte) =>
    t.enqueue id { h with
      addr := if h.type = 8 then h.addr else h.addr + BitVec.ofNat 64 (4096 * x.1)
      last := h.last && x.1 + 1 == blocks.length } x.2) s

/-- A frame without blocks: it waits in its flow like the others and is dropped from it once sent. -/
def State.sendBare (s : State) (id : FlowId) (h : Hdr) : State := s.enqueue id h []

def State.nextTag (s : State) : Word × State :=
  (s.fab.nextTag, { s with fab := { s.fab with nextTag := s.fab.nextTag + 1 } })

/-- Class and PHASE_TAG of a core's request (R352): scheduled to a ZX3 module, for the slot the plan gives it; else
unscheduled (log entry 29). -/
def State.coreClass (s : State) (slot peer : Nat) (host : Bool) : Nat × Word :=
  if s.genOf peer host = 3 ∧ host = false then (0, BitVec.ofNat 32 slot) else (1, 0)

/-- Plane of a base-die queue (R346). -/
def State.basePlane (s : State) (queue : Nat) : Nat := s.planeFor queue

/-- The Steward's control queue (Table 12.6). -/
def stewardQueue : Nat := 64 * 24 + 63

/-! ### What ends a peer's requests -/

def State.addRemote (s : State) (r : RemoteReq) : State := { s with fab := { s.fab with remote := s.fab.remote ++ [r] } }

def State.dropRemote (s : State) (tag : Word) : State :=
  { s with fab := { s.fab with remote := s.fab.remote.filter (fun r => r.tag != tag) } }

/-- A request leaves its queue before its end: its blocks are no longer pending, and no answer is awaited for it. -/
def State.dropRequest (s : State) (id : Nat) : State :=
  let mine := fun (q : RemoteReq) => match q.use with
    | .fetch r _ => r == id
    | _ => false
  { s with run := { s.run with reqs := s.run.reqs.filter (fun x => x.id != id) },
           fab := { s.fab with remote := s.fab.remote.filter (fun q => !mine q) } }

/-- A request of a core stopped by a fault (Table 10.2, R248, R375). -/
def State.requestFault (s : State) (r : Req) (code cls inst addr : Nat) : State :=
  (s.dropRequest r.id).raise
    { code := code, cls := cls, inst := inst, addr := addr, core := r.core, entry := r.entry, desc := r.desc }

/-- A request to another endpoint ends with a fault, that of its fetch-queue request where it belongs to one. -/
def State.failRequest (s : State) (code : Nat) (r : RemoteReq) : State :=
  let t := s.dropRemote r.tag
  match r.use with
  | .fetch id _ =>
    match t.run.reqs.find? (fun q => q.id == id) with
    | none => t
    | some q => t.requestFault q code clsFabric (t.planeFor (64 * q.core + q.fq)) r.addr.toNat
  | _ => t

end Sys2Proof.Machine
end

