-- ==== Sys2Proof/Machine/Drain.lean ====
section
/-!
DEFINITION. The row unit: drains (R100 to R103), functions (R101, R102, R218), statistics (R192 to R194), checks (R108,
R179, R186), summaries (R95), and how a row is written (R216 to R218, R238, R241, R242, R183). Command: DRAIN_ROW.
-/

namespace Sys2Proof.Machine

/-! ### Functions of the row unit (R83, R101, R102) -/

def actOf (code f : Nat) : Nat :=
  if code = 1 then
    (match f32 f with
     | .nan => f32NaN
     | .inf n => if n then 0 else f
     | .fin m _ => if 0 < m then f else 0
     | .negZero => 0)
  else if code = 2 then
    let t := f32Mul f f
    let t := f32Fma 0x3D12227A t 0x3F4C422A
    let u := f32Mul f t
    f32Mul f (f32Recip (f32Add f32One (f32Exp (f32Mul 0xC0000000 u))))
  else if code = 3 then f32Mul f (f32Recip (f32Add f32One (f32Exp (f32Neg f))))
  else f

/-- Value of an entry: exact, or the IEEE result its tag stands for (R80, R90, R92, R99). -/
def entryNum (win : Option Int) (e : VatEntry) : Num :=
  match e.tag.toNat with
  | 1 => .inf false
  | 2 => .inf true
  | 3 => .nan
  | _ => match win with
    | none => .fin e.bits.toInt (-288)
    | some a => .fin e.bits.toInt (a - 96)

/-! ### Where a drained row lies -/

/-- A lane of a drained row: array column, row of the tile, column of the tensor, destination column, entry. -/
structure Lane where
  lane : Nat
  row  : Nat
  n    : Nat
  d    : Nat
  x    : Num
deriving DecidableEq, Repr

def Tile.vatRow (t : Tile) (d : Desc) : Nat := d.tileRowsV * t.slot + t.drained

/-- The lanes of Vat row `drained` of a tile whose values leave the row unit. -/
def State.lanes (_s : State) (g : Seg) (t : Tile) : List Lane :=
  let d := g.desc
  let win := if d.modes.windowed then some t.anchor else none
  let es := tget [] g.vat (t.vatRow d)
  let num := fun (c : Nat) => entryNum win (es.getD c freshEntry)
  match d.kind with
  | .scatter =>
    let m := t.drained / d.rowsPer
    let f := t.drained % d.rowsPer
    (List.range 256).filterMap (fun c =>
      let p := 256 * f + c
      if p < t.kValid then some ⟨c, m, t.pt.xK + p, p, num c⟩ else none)
  | .outer =>
    let b := budgetOf d.modes.budget
    if t.drained < d.groups * b ∧ t.drained / b * 16 + (if d.modes.budget = 0 then t.drained % 16 else 0) < t.kValid then
      (List.range t.cols).map (fun c => ⟨c, t.drained, t.pt.xN + c, c, num c⟩)
    else []
  | _ => (List.range t.cols).map (fun c => ⟨c, t.drained, t.pt.xN + c, d.addrs.outCol0 + c, num c⟩)

/-! ### Vectors and tensors of a row (Table 09.5) -/

def vec (s : State) (own a : Nat) : Nat := natAt s.mem.cells (spKey own a) 4

/-- Element (m, d) of a brick tensor, decoded to FP32. One of magnitude 2^128 or more, which FP32 does not hold, becomes
infinite and is not counted (log entry 53). -/
def tensorAt (s : State) (own base fmt rows m d : Nat) : Nat :=
  toF32 (runElem fmt 256 (brickBits s own (brickRowAt base fmt rows m d) fmt) (d % 256))

/-- TENSOR of a vector table, walked with STRIDE_AUX. -/
def tensorBase (d : Desc) (p : Pt) (t : List Nat) : Nat := spAdd (t.getD 3 0) (d.stepAux p)

/-- The ranges of scratchpad a drained row reads. -/
def Seg.rowReads (g : Seg) (p : Pt) (ls : List Lane) : List Run :=
  let d := g.desc
  let m := d.modes
  match ls.head? with
  | none => []
  | some l0 =>
    let rel := p.xM + l0.row
    let cols := fun (op : Nat) (t : List Nat) => [(op, vecCol d p t l0.n, 4 * ls.length)]
    let rows := fun (op : Nat) (t : List Nat) (i : Nat) => [(op, vecRow d p t i rel, 8)]
    let tens := fun (op base : Nat) => (ls.map (fun l => brickRowAt base m.auxFormat m.tileRows l0.row l.d)).dedup.map
      (fun a => (op, a, brickRow m.auxFormat))
    (match (d.kind : Kind), m.drainFunc with
      | .row, _ => []
      | _, 2 => cols 13 g.auxVec
      | _, 4 => cols 13 g.auxVec
      | _, 5 => rows 14 g.auxVec 0
      | _, 6 => rows 14 g.auxVec 0 ++ cols 13 g.auxVec
      | _, 7 => tens 15 (d.addrAux p)
      | _, _ => []) ++
    (match m.rowStat with
      | 3 => tens 16 (tensorBase d p g.statVec)
      | 4 => tens 16 (tensorBase d p g.statVec) ++ rows 17 g.statVec 0 ++ cols 18 g.statVec
      | _ => []) ++
    (match (d.kind : Kind), m.rowFn with
      | .row, 1 => tens 15 (d.addrAux p) ++ rows 17 g.statVec 0
      | .row, 2 => tens 16 (tensorBase d p g.statVec) ++ rows 17 g.statVec 0 ++ rows 19 g.statVec 1 ++ cols 18 g.statVec
      | .row, 4 => tens 15 (d.addrAux p)
      | .row, 5 => tens 15 (d.addrAux p)
      | .row, 6 => tens 15 (d.addrAux p)
      | .row, 7 => rows 17 g.statVec 0 ++ cols 13 g.auxVec
      | _, _ => [])

/-- A drain function on the FP32 value of an entry (Table 04.5). -/
def drainFn (s : State) (c : Nat) (g : Seg) (p : Pt) (l : Lane) (f : Nat) : Nat :=
  let d := g.desc
  let rel := p.xM + l.row
  let k := d.addrs.drainConst.toNat
  let b := vec s c (vecCol d p g.auxVec l.n)
  let r := fun (w : Nat) => vec s c (spAdd (vecRow d p g.auxVec 0 rel) (4 * w : Nat))
  match d.modes.drainFunc with
  | 1 => f32Mul k f
  | 2 => f32Add f b
  | 3 => actOf d.modes.act f
  | 4 => actOf d.modes.act (f32Add f b)
  | 5 => f32Exp (f32Sub (f32Mul k f) (r 0))
  | 6 => f32Mul (f32Mul (f32Sub f (r 0)) (r 1)) b
  | 7 => f32Add f (tensorAt s c (d.addrAux p) d.modes.auxFormat d.modes.tileRows l.row l.d)
  | _ => f

/-- A row-unit pass on element a (Tables 07.5 and 08.6). -/
def rowFnOf (s : State) (c : Nat) (g : Seg) (p : Pt) (l : Lane) (a : Nat) : Nat :=
  let d := g.desc
  let rel := p.xM + l.row
  let k := d.addrs.drainConst.toNat
  let aux := tensorAt s c (d.addrAux p) d.modes.auxFormat d.modes.tileRows l.row l.d
  let pair := fun (i w : Nat) => vec s c (spAdd (vecRow d p g.statVec i rel) (4 * w : Nat))
  match d.modes.rowFn with
  | 1 => f32Mul k (f32Mul a (f32Sub aux (pair 0 0)))
  | 2 =>
    let x := tensorAt s c (tensorBase d p g.statVec) d.modes.auxFormat d.modes.tileRows l.row l.d
    let xh := f32Mul (f32Sub x (pair 0 0)) (pair 0 1)
    let t := f32Sub (f32Mul (vec s c (vecCol d p g.statVec l.n)) a) (pair 1 0)
    f32Mul (pair 0 1) (f32Sub t (f32Mul xh (pair 1 1)))
  | 4 => f32Add a aux
  | 5 => f32Mul a aux
  | 6 => f32Add (f32Mul k a) aux
  | 7 => f32Mul (f32Mul (f32Sub a (pair 0 0)) (pair 0 1)) (vec s c (vecCol d p g.auxVec l.n))
  | 8 => actOf d.modes.act a
  | _ => a

/-! ### Statistics (R192, R193) -/

def f32NegInf : Nat := 0xFF800000

/-- Order of two FP32 values; NaN is above and below nothing. -/
def f32Lt (a b : Nat) : Bool :=
  match (f32 a).operand, (f32 b).operand with
  | .nan, _ => false
  | _, .nan => false
  | .inf p, .inf q => p && !q
  | .inf p, _ => p
  | _, .inf q => !q
  | .fin m e, .fin n k => decide (m * 2 ^ (e - min e k).toNat < n * 2 ^ (k - min e k).toNat)
  | _, _ => false

/-- FP32 of a small count. -/
def f32Nat (n : Nat) : Nat := toF32 (.fin n 0)

/-- Working words of a fresh pair. -/
def statStart (mode : Nat) : List Word := if mode = 1 then [BitVec.ofNat 32 f32NegInf, 0, 0] else [0, 0, 0]

/-- One value into a pair's working words: SOFTMAX mx, s, seen; NORM count, mean, sum of squared deviations; DOT d;
NORM_GRAD the two sums and the count. -/
def statStep (mode k f a mu rho gn : Nat) (w : List Word) : List Word :=
  let x := fun i => (w.getD i 0).toNat
  let out := fun (l : List Nat) => l.map (BitVec.ofNat 32)
  match mode with
  | 1 =>
    let u := f32Mul k f
    if u = f32NegInf then w
    else if f32Lt (x 0) u then out [u, f32Add (f32Mul (x 1) (f32Exp (f32Sub (x 0) u))) f32One, 1]
    else out [x 0, f32Add (x 1) (f32Exp (f32Sub u (x 0))), 1]
  | 2 =>
    let n := x 0 + 1
    let delta := f32Sub f (x 1)
    let mean := f32Add (x 1) (f32Mul delta (f32Recip (f32Nat n)))
    out [n, mean, f32Add (x 2) (f32Mul delta (f32Sub f mean))]
  | 3 => out [f32Fma a f (x 0), 0, 0]
  | 4 =>
    let t := f32Mul gn f
    let xh := f32Mul (f32Sub a mu) rho
    out [f32Add (x 0) t, f32Add (x 1) (f32Mul t xh), x 2 + 1]
  | _ => w

/-- The two words written for a pair. -/
def statWords (mode eps : Nat) (w : List Word) : Nat × Nat :=
  let x := fun i => (w.getD i 0).toNat
  match mode with
  | 1 => if x 2 = 0 then (0x7F800000, 0) else (f32Add (x 0) (f32Ln (x 1)), 0)
  | 2 => (x 1, f32Rsqrt (f32Add (f32Mul (x 2) (f32Recip (f32Nat (x 0)))) eps))
  | 3 => (x 0, 0)
  | 4 => let r := f32Recip (f32Nat (x 2)); (f32Mul (x 0) r, f32Mul (x 1) r)
  | _ => (0, 0)

/-- Planned columns of a drained row: in scatter mode they run along K. -/
def Desc.drainCols (d : Desc) : Nat := if d.kind = .scatter then d.ext.2.2 else d.ext.2.1

/-- Column groups of a row's statistics (R192, R194). -/
def Desc.statGroups (d : Desc) : Nat := if d.addrs.statSpan = 0 then 1 else ceilDiv d.drainCols d.addrs.statSpan

def statGroup (d : Desc) (n : Nat) : Nat := if d.addrs.statSpan = 0 then 0 else n / d.addrs.statSpan

def Seg.addStats (s : State) (c : Nat) (g : Seg) (p : Pt) (ls : List (Lane × Nat)) : Seg :=
  let d := g.desc
  let m := d.modes.rowStat
  if m = 0 then g
  else
    { g with stats := ls.foldl (fun st x =>
        let l := x.1
        let rel := p.xM + l.row
        let key := rel * d.statGroups + statGroup d l.n
        let a := if m = 3 ∨ m = 4 then
            tensorAt s c (tensorBase d p g.statVec) d.modes.auxFormat d.modes.tileRows l.row l.d else 0
        let pr := fun (w : Nat) => if m = 4 then vec s c (spAdd (vecRow d p g.statVec 0 rel) (4 * w : Nat)) else 0
        let gn := if m = 4 then vec s c (vecCol d p g.statVec l.n) else 0
        tput st key (statStep m d.addrs.drainConst.toNat x.2 a (pr 0) (pr 1) gn (tget (statStart m) st key))) g.stats }

/-! ### Output rounding (R65 to R73, R76) -/

/-- A row as it is to be written: codes by destination column, scale bytes by block, and what is counted. -/
structure OutRow where
  codes  : List (Nat × Nat)
  scales : List (Nat × Nat)
  nans   : Nat
  infs   : Nat
  overs  : Nat
  clamps : Nat
  nanBlocks : Nat
  summary : Nat

def isNan : Num → Bool
  | .nan => true
  | _ => false

def isInf : Num → Bool
  | .inf _ => true
  | _ => false

/-- Biased exponent of an IEEE code. -/
def biased (fmt code : Nat) : Nat := (code >>> (fmtOf fmt).mbits) % 2 ^ (fmtOf fmt).ebits

def roundRow (fmt : Nat) (ls : List (Nat × Num × Option Nat)) : OutRow :=
  let nans := (ls.filter (fun l => isNan l.2.1)).length
  let infs := (ls.filter (fun l => isInf l.2.1)).length
  if isMx fmt then
    let blocks := (ls.map (fun l => l.1 / 32)).dedup
    blocks.foldl (fun r b =>
      let here := ls.filter (fun l => l.1 / 32 == b)
      let e := encodeMx fmt (here.map (fun l => (l.2.1, l.2.2)))
      { r with codes := r.codes ++ (here.map (·.1)).zip e.codes, scales := r.scales ++ [(b, e.scale)],
               clamps := r.clamps + e.clamps, nanBlocks := r.nanBlocks + bnat e.isNan,
               summary := if e.isNan then r.summary else max r.summary e.scale }) ⟨[], [], nans, infs, 0, 0, 0, 0⟩
  else
    let es := ls.map (fun l => (l.1, encodeIeee fmt l.2.2 l.2.1))
    ⟨es.map (fun x => (x.1, x.2.1)), [], nans, infs, (es.filter (·.2.2)).length, 0, 0,
      es.foldl (fun a x => max a (biased fmt x.2.1)) 0⟩

/-- Bytes of a row in one brick: value and mask, by offset in the row. -/
def rowBytesOf (fmt : Nat) (codes scales : List (Nat × Nat)) : List (Nat × Byte × Byte) :=
  let w := elemBits fmt
  let e := 32 * w
  let v := codes.foldl (fun a c => a + c.2 * 2 ^ (c.1 % 256 * w)) 0 +
    scales.foldl (fun a c => a + c.2 * 2 ^ (8 * (e + c.1 % 8))) 0
  let m := codes.foldl (fun a c => a + (2 ^ w - 1) * 2 ^ (c.1 % 256 * w)) 0 +
    scales.foldl (fun a c => a + 255 * 2 ^ (8 * (e + c.1 % 8))) 0
  (List.range (brickRow fmt)).filterMap (fun i =>
    let k := fieldOf m (8 * i + 7) (8 * i)
    if k = 0 then none else some (i, BitVec.ofNat 8 (fieldOf v (8 * i + 7) (8 * i)), BitVec.ofNat 8 k))

/-- Bytes of a row by offset from the tile's output address (R238). -/
def placeRow (d : Desc) (m : Nat) (r : OutRow) : List (Nat × Byte × Byte) :=
  let fmt := d.modes.outFormat
  let bricks := (r.codes.map (fun c => c.1 / 256)).dedup
  bricks.flatMap (fun b =>
    (rowBytesOf fmt (r.codes.filter (fun c => c.1 / 256 == b)) (r.scales.filter (fun c => c.1 / 8 == b))).map (fun x =>
      (m * brickRow fmt + brickPitch fmt d.modes.tileRows * b + x.1, x.2)))

/-- Slot r of every column of a masked-outer tile: two bytes of each weight row's run (R183, R185). -/
def placeOuter (d : Desc) (t : Tile) (r : OutRow) : List (Nat × Byte × Byte) :=
  r.codes.flatMap (fun c =>
    let o := 2 * (((t.pt.xN + c.1) * d.addrs.groupPitch + t.pt.xK / 16) * budgetOf d.modes.budget + t.drained)
    [(o, BitVec.ofNat 8 c.2, 255), (o + 1, BitVec.ofNat 8 (c.2 / 256), 255)])

/-! ### Writing (R216, R241, R242) -/

/-- Cores whose scratchpad takes a drain. -/
def State.targets (s : State) (c : Nat) (d : Desc) (base : Nat) : List Nat :=
  match d.modes.outRoute with
  | 0 => [spCore c base]
  | 1 => [d.modes.outCore]
  | 2 => s.gang d.modes.outGang
  | _ => []

/-- Ascending runs of bytes. -/
def runsOf : List (Nat × Byte × Byte) → List (Nat × List (Byte × Byte))
  | [] => []
  | x :: xs =>
    match runsOf xs with
    | (a, r) :: rest => if a = x.1 + 1 then (x.1, x.2 :: r) :: rest else (x.1, [x.2]) :: (a, r) :: rest
    | [] => [(x.1, [x.2])]

/-- Words that a row leaves partly written and that neither the kept bytes of the rows before it nor the next row
completes (R230, R241): those a masked write reads first. `pitch` lies between rows. -/
def partWords (bs : List (Nat × Byte × Byte)) (pitch rowsBefore : Nat) (hasNext : Bool) : List Nat :=
  let offs := (bs.filter (fun b => b.2.2 == 255)).map (·.1)
  let kept := fun (w : Nat) => ((List.range (min 8 rowsBefore)).map (fun k =>
    (offs.filter (fun o => (o - (k + 1) * pitch) / 32 == w && decide ((k + 1) * pitch ≤ o))).length)).foldl (· + ·) 0
  ((bs.map (fun b => b.1 / 32)).dedup).filter (fun w =>
    let here := (offs.filter (fun o => o / 32 == w)).length
    decide (here < 32) && decide (here + kept w < 32) && !(hasNext && bs.any (fun b => (b.1 + pitch) / 32 == w)))

/-- Bytes written into one core's scratchpad: bits outside the mask stay. -/
def State.putBytes (s : State) (core : Nat) (bs : List (Nat × Byte × Byte)) : State :=
  (runsOf bs).foldl (fun t r =>
    let old := bytesAt t.mem.cells (scratchKey core r.1) r.2.length
    t.writeScratch core r.1 ((old.zip r.2).map (fun x => ((x.1 &&& ~~~x.2.2) ||| (x.2.1 &&& x.2.2), true)))) s

/-- A layout block written as zero under the bytes that follow. -/
def State.clearBlock (s : State) (blk : Nat) : State :=
  { s with mem := { s.mem with cells := zeroBytes s.mem.cells (512 * blk) 512,
                               badScratch := s.mem.badScratch.filter (fun b => !decide (b / 512 = blk)) } }

/-- Full-block writes: blocks that this tile touches for the first time are written whole. -/
def State.wholeBlocks (s : State) (c core : Nat) (seen : List Nat) (bs : List (Nat × Byte × Byte)) : State × List Nat :=
  let blocks := (bs.map (fun b => scratchKey core b.1 / 512)).dedup.filter (fun b => !seen.contains b)
  (blocks.foldl (fun t b => (t.clearBlock b).bump (Reg.CORE_FULL_BLOCK_WRITES c)) s, seen ++ blocks)

/-- Bad byte in a word that a masked write reads first. -/
def State.rmwSnag (s : State) (core : Nat) (words : List Nat) : Option Snag :=
  words.findSome? (fun w => (s.scratchParity core (32 * w) 32).map (fun o => .parity 0 core o))

/-- The bytes of one row go to their scratchpads; a tile's blocks written whole are returned. -/
def State.storeRow (s : State) (c : Nat) (g : Seg) (t : Tile) (base : Nat) (bs : List (Nat × Byte × Byte))
    (pitch rowsBefore : Nat) (hasNext : Bool) : State × List Nat × Option Snag :=
  let at_ := bs.map (fun b => (spOff (spAdd base b.1), b.2))
  (s.targets c g.desc base).foldl (fun (a : State × List Nat × Option Snag) core =>
    if a.2.2.isSome then a
    else
      match at_.findSome? (fun b => a.1.pendingIn (scratchKey core b.1) 1) with
      | some b => (a.1, a.2.1, some (.pendingWrite (dieAddr c core (b - scratchKey core 0))))
      | none =>
        let full := ((at_.head?.bind (fun b => a.1.regionAt core b.1)).map (fun r => r.2.fullBlock)).getD false
        let s := if core = c then a.1 else a.1.nocSend c at_.length
        if full then
          let w := s.wholeBlocks c core a.2.1 at_
          (w.1.putBytes core at_, w.2, none)
        else
          let part := partWords at_ pitch rowsBefore hasNext
          match s.rmwSnag core part with
          | some x => (s, a.2.1, some x)
          | none => ((s.putBytes core at_).bumpBy (Reg.CORE_RMW_WORDS c) part.length, a.2.1, none))
    (s, t.whole, none)

/-! ### The checks (R108 to R110, R179, R186) -/

/-- Exact value of an entry in units of 2^-288 scaled by 2^k, k making every unit whole. -/
def entryExact (win : Option Int) (e : VatEntry) (k : Nat) : Int :=
  match win with
  | none => e.bits.toInt * 2 ^ k
  | some a => e.bits.toInt * 2 ^ ((k : Int) + a + 192).toNat

/-- One comparison: made or skipped, and whether it failed. -/
structure Cmp where
  skip : Bool
  fail : Bool
  addr : Nat

def compareAt (win : Option Int) (t : Tile) (es : List VatEntry) (chk : Int) (key addr : Nat) : Cmp :=
  let skip := t.escaped.contains key || es.any (fun e => e.tag != 0)
  let k := 400
  ⟨skip, !skip && (es.foldl (fun a e => a + entryExact win e k) 0 != chk * 2 ^ k), addr⟩

def Seg.compares (g : Seg) (t : Tile) : List Cmp :=
  let d := g.desc
  let win := if d.modes.windowed then some t.anchor else none
  let vr := t.vatRow d
  let base := d.tileRowsV * t.slot
  match d.kind with
  | .product =>
    let es := tget [] g.vat vr
    (List.range (ceilDiv t.cols 32)).map (fun i =>
      compareAt win t ((es.drop (32 * i)).take 32) (tget 0 g.check (8 * vr + i)) (8 * vr + i) (vr * 256 + 32 * i))
  | .scatter =>
    if t.drained % d.rowsPer + 1 = d.rowsPer then
      let first := base + t.drained / d.rowsPer * d.rowsPer
      let es := (List.range d.rowsPer).flatMap (fun f => tget [] g.vat (first + f))
      let key := t.slot * 1024 + t.drained / d.rowsPer
      [compareAt win t es (tget 0 g.check key) key (first * 256)]
    else []
  | .outer =>
    if t.drained = 255 then
      (List.range t.cols).map (fun c =>
        let es := (List.range 256).map (fun r => (tget [] g.vat (base + r)).getD c freshEntry)
        compareAt win t es (tget 0 g.check (base * 256 + c)) (base * 256 + c) (base * 256 + c))
    else []
  | .row => []

def State.countCompares (s : State) (c : Nat) (g : Seg) (cs : List Cmp) : State :=
  let s := s.bumpBy (Reg.CORE_CHECKED_DRAINS c) (cs.filter (fun x => !x.skip)).length
  let s := s.bumpBy (Reg.CORE_UNCHECKED_DRAINS c) (cs.filter (·.skip)).length
  let bad := cs.filter (·.fail)
  let s := s.bumpBy (Reg.CORE_CHECK_MISMATCHES c) bad.length
  bad.foldl (fun t x => t.raise (segFault c g 0x0204 x.addr) true) s

/-! ### One row through the row unit -/

/-- The lanes with their values at output rounding, and how many finite values an FP32 step made infinite. -/
def State.rowValues (s : State) (c : Nat) (g : Seg) (p : Pt) (ls : List Lane) : List (Lane × Num) × Nat :=
  let d := g.desc
  if d.kind = .row then (ls.map (fun l => (l, f32 (rowFnOf s c g p l (toF32 l.x)))), 0)
  else if d.modes.drainFunc = 0 then (ls.map (fun l => (l, l.x)), 0)
  else
    (ls.map (fun l => (l, f32 (drainFn s c g p l (toF32 l.x)))), (ls.filter (fun l => (encodeIeee 6 none l.x).2)).length)

/-- Generator of a lane's rounding (R76). -/
def laneGen (c : Nat) (d : Desc) (l : Nat) : Nat :=
  if d.kind ≠ .row ∧ d.modes.drainFunc = 0 then colGen c l else rowGen c l

/-- A finite value other than zero: its rounding draws (R68). -/
def draws : Num → Bool
  | .fin m _ => m != 0
  | _ => false

/-- Generators that a row draws from and that this cycle's advance found wrong (R79): a value that is written and that its
rounding draws for. -/
def State.badGens (s : State) (c : Nat) (d : Desc) (vs : List (Lane × Num)) : List Nat :=
  if d.modes.stochastic && !d.modes.statOnly && d.modes.rowFn != 9 then
    ((vs.filter (fun v => draws v.2)).map (fun v => laneGen c d v.1.lane)).filter (fun i => s.gens.bad.contains i)
  else []

/-- Generators found wrong are seeded again and counted, drawn from or not (R79). -/
def State.reseedAll (s : State) (c : Nat) : State :=
  (s.gens.bad.foldl (fun t i => t.reseed i) s).bumpBy (Reg.CORE_RNG_FAULTS c) s.gens.bad.length

/-- Counters of a rounded row. A finite value rounded to infinity counts in OVERFLOWS, not in INF_DRAINS, which counts the
values that were infinite before (log entry 51). -/
def State.countRounded (s : State) (c : Nat) (r : OutRow) (overs : Nat) : State :=
  ((((s.bumpBy (Reg.CORE_NAN_DRAINS c) r.nans).bumpBy (Reg.CORE_INF_DRAINS c) r.infs).bumpBy (Reg.CORE_OVERFLOWS c)
    (r.overs + overs)).bumpBy (Reg.CORE_MX_CLAMPS c) r.clamps).bumpBy (Reg.CORE_MX_NAN_BLOCKS c) r.nanBlocks

/-- The set of lanes a descriptor's rows round in. -/
def laneSet (c : Nat) (d : Desc) : Nat := lanesOf (laneGen c d 0)

/-- A row rounded once into OUT_FORMAT (R65, R218): by its lanes' draws in the first cycle in which they may round. -/
def State.rounded (s : State) (c : Nat) (d : Desc) (ls : List (Lane × Num)) : OutRow :=
  let g := fun (l : Lane) => if d.modes.stochastic then some (s.genDraw (laneGen c d l.lane) (s.roundAt (laneSet c d))) else none
  roundRow d.modes.outFormat (ls.map (fun x => (x.1.d, x.2, g x.1)))

/-- A row has rounded stochastically: its lanes round no more in that cycle (R75). -/
def State.drewRow (s : State) (c : Nat) (d : Desc) : State :=
  if d.modes.stochastic then s.roundedFor (laneSet c d) 1 else s

/-- A band as the transposing buffer hands it on: what a mask changed in its first storage word shows in the bytes that
word holds. -/
def State.turnedBand (s : State) (c : Nat) (turned : Bool) (bs : List (Nat × Byte × Byte)) : List (Nat × Byte × Byte) :=
  match (if turned then tfind s.mem.tbuf c else none) with
  | none => bs
  | some x => bs.mapIdx (fun i b =>
      if x.1 ≤ i ∧ i < x.1 + 8 then (b.1, b.2.1 ^^^ BitVec.ofNat 8 (x.2 / 2 ^ (8 * (i - x.1))), b.2.2) else b)

def Seg.setTile (g : Seg) (t : Tile) : Seg := { g with tiles := g.tiles.map (fun x => if x.seq = t.seq then t else x) }

/-- Bytes as the signature unit takes them: in the order of their addresses. -/
def Seg.sign (g : Seg) (bs : List (Nat × Byte × Byte)) : Seg :=
  if g.milk.isSome then { g with signature := BitVec.ofNat 64 (crc64More g.signature.toNat (bs.map (fun b => b.2.1 &&& b.2.2))) } else g

/-- Bytes written at a die address of their own (R95, R194): a masked write, with the pending check and the words it reads
first (R238, R241). -/
def State.storeAt (s : State) (c a : Nat) (bs : List Byte) : State × Option Snag :=
  let core := spCore c a
  let at_ := bs.mapIdx (fun i b => (spOff a + i, b, (255 : Byte)))
  match s.pendingIn (spKey c a) bs.length with
  | some b => (s, some (.pendingWrite (dieAddr c core (b - scratchKey core 0))))
  | none =>
    let part := partWords at_ 0 0 false
    match s.rmwSnag core part with
    | some x => (s, some x)
    | none =>
      let s := if core = c then s else s.nocSend c bs.length
      ((s.putBytes core at_).bumpBy (Reg.CORE_RMW_WORDS c) part.length, none)

/-- Where a tile's bytes go under OUT_ROUTE 3: MERGE_LSE's words take no stride (R218). -/
def Desc.remoteAt (d : Desc) (p : Pt) : Nat :=
  if d.modes.rowFn = 9 then d.addrs.outBase + d.addrs.outRemote.toNat else d.remoteOut p

/-- What the stores of a core hold wrong and a row reads: a check entry its comparison needs, a statistic pair (Table
10.5). -/
def upsetSnag (c : Nat) (g : Seg) (u : Upset) (compares : Bool) : Option Snag :=
  (if compares then u.check.map (fun o => Snag.parity 3 c o) else none).orElse (fun _ =>
    if g.desc.modes.rowStat = 0 then none else u.stats.map (fun o => Snag.parity 4 c o))

/-- A drained row joins an AUX tensor or a TENSOR whose base is not on a layout block (R232). -/
def Seg.auxOff (g : Seg) (p : Pt) : Bool :=
  let d := g.desc
  (d.kind != .row && d.modes.drainFunc == 7 && offBlock (d.addrAux p)) ||
    ([3, 4].contains d.modes.rowStat && offBlock (tensorBase d p g.statVec))

/-- The same for the operands of a row-unit pass. -/
def Seg.passOff (g : Seg) (p : Pt) : Bool :=
  let d := g.desc
  offBlock (d.addrA p) || ([1, 4, 5, 6].contains d.modes.rowFn && offBlock (d.addrAux p)) ||
    (([3, 4].contains d.modes.rowStat || d.modes.rowFn == 2) && offBlock (tensorBase d p g.statVec))

/-- The last row of a tile has been drained, and no comparison of it failed: its summary (none under STAT_ONLY), its request
under OUT_ROUTE 3, its counters (R95, R217; log entry 53). -/
def State.closeTile (s : State) (c : Nat) (g : Seg) (t : Tile) : State :=
  let d := g.desc
  let sum := !d.modes.statOnly && decide (d.addrs.summaryOut ≠ 0xFFFFFFFF)
  let w := if sum then s.storeAt c d.addrs.summaryOut [BitVec.ofNat 8 t.summary] else (s, none)
  match w.2 with
  | some x => w.1.snagged c g x
  | none =>
    let s := w.1
    let s := if d.kind = .outer then
        let s := s.bump (Reg.CORE_MO_TILES c)
        if d.modes.budget = 0 then s.bump (Reg.CORE_DENSE_GRAD_TILES c) else s
      else s
    let g := { g with tiles := g.tiles.filter (fun x => x.seq != t.seq),
                      sigTail := if sum ∧ g.milk.isSome then g.sigTail ++ [BitVec.ofNat 8 t.summary] else g.sigTail }
    let s := s.setSeg c g
    if d.modes.outRoute = 3 ∧ !t.out.isEmpty then
      let ext := d.addrs.outRemote.toNat
      let fe : FetchEntry := { (default : FetchEntry) with dir := 1, fq := d.modes.outFq, ext := BitVec.ofNat 64 ext }
      s.issue c g d.modes.outFq d.modes.outToken (.tile t.out (BitVec.ofNat 64 (d.remoteAt t.pt))) 1 (s.engineFor c fe) [] t.pt.idx
        (Reg.CORE_OUT_TILES c)
    else s

/-- One Vat row of a finished tile. A row of which only the statistics are written drains no value: NAN_DRAINS and
INF_DRAINS do not count it (log entry 51), nor OVERFLOWS (log entry 53). -/
def State.drainTile (s : State) (c : Nat) (g : Seg) (t : Tile) (u : Upset) : State :=
  let d := g.desc
  let p := t.pt
  let vr := t.vatRow d
  let bad := g.badVat.find? (fun k => k / 256 == vr)
  let ls := s.lanes g t
  let acc := g.rowReads p ls
  let snag := ((bad.map (fun k => Snag.parity 1 c (k / 256 * (if d.modes.windowed then 16 else 80)))).orElse
    (fun _ => s.snagReads c acc)).orElse (fun _ => upsetSnag c g u !(g.compares t).isEmpty)
  let vs := s.rowValues c g p ls
  let bg := s.badGens c d vs.1
  let s := s.reseedAll c
  match snag with
  | some x => s.snagged c g x
  | none =>
    if !bg.isEmpty then s.rerunAt c g 1 c 0
    else
      let f := s.farReads c g.kept acc
      let s := f.1.bump (Reg.CORE_DRAIN_ROWS c)
      let g := { g with kept := f.2 }
      let g := Seg.addStats s c g p (ls.map (fun l => (l, toF32 l.x)))
      let quiet := d.modes.statOnly
      let r := s.rounded c d vs.1
      let s := s.drewRow c d
      let s := if quiet then s else s.countRounded c r vs.2
      let base := d.addrOut p
      let off := (d.kind != .outer && !quiet && decide (d.modes.outRoute ≠ 3) && offBlock base) || g.auxOff p
      let s := if decide (t.drained = 0) && off then s.bump (Reg.CORE_MISALIGNED_PASSES c) else s
      let bs := if quiet then [] else if d.kind = .outer then placeOuter d t r else placeRow d (t.drained / d.rowsPer) r
      let band := decide (t.drained % 32 = 31)
      let turned := d.kind == .outer
      let s := if turned && band && !quiet then s.bumpBy (Reg.CORE_TBUF_BRICKS c) 8 else s
      let held := t.band ++ bs
      let go := if turned then band else true
      let sorted : List (Nat × Byte × Byte) := if !go then [] else if turned then held.foldl (fun a b => tput a b.1 b.2) [] else bs
      let tb := if turned && band then (s.fillTbuf c 0).tbufSnag c else (s, none)
      let sorted := tb.1.turnedBand c turned sorted
      let g := if go then g.sign (held.map (fun b => (b.1, (tfind sorted b.1).getD b.2))) else g
      let w : State × List Nat × Option Snag :=
        if tb.2.isSome then (tb.1, t.whole, tb.2)
        else if d.modes.outRoute = 3 ∨ sorted.isEmpty then (tb.1, t.whole, none)
        else tb.1.storeRow c g t base sorted (brickRow d.modes.outFormat)
          (if turned then 0 else t.drained / d.rowsPer) (!turned && decide (t.drained / d.rowsPer + 1 < t.rows / d.rowsPer))
      match w.2.2 with
      | some x => w.1.snagged c g x
      | none =>
        let cs := g.compares t
        let t' := { t with drained := t.drained + 1, summary := max t.summary r.summary, whole := w.2.1,
                            out := if d.modes.outRoute = 3 then t.out ++ sorted else [], band := if go then [] else held }
        let s := (w.1.setSeg c (g.setTile t')).countCompares c g cs
        if (s.core c).stopped then s
        else if t.rows ≤ t'.drained then s.closeTile c (g.setTile t') t' else s

/-! ### Row-unit passes (R218) -/

/-- Lanes of a row of a row-unit pass, from A. -/
def State.passLanes (s : State) (c : Nat) (g : Seg) (p : Pt) (e : Extents) (m : Nat) : List Lane :=
  let d := g.desc
  let fmt := d.modes.aFormat
  let bits := brickBits s c (brickRowAt (d.addrA p) fmt d.modes.tileRows m 0) fmt
  (List.range (d.valid e p 2)).map (fun i => ⟨i, m, p.xN + i, d.addrs.outCol0 + i, runElem fmt 256 bits i⟩)

/-- MERGE_LSE over a row's valid columns. -/
def mergeLse (xs : List Nat) : Nat :=
  let mx := xs.foldl (fun a x => if f32Lt a x then x else a) f32NegInf
  f32Add mx (f32Ln (xs.foldl (fun a x => f32Add a (f32Exp (f32Sub x mx))) 0))

/-- A row of a row-unit pass. It takes part in the pass's summary with the exponents of its rounded values, MERGE_LSE with
those of its inputs (log entry 53). -/
def State.rowPass (s : State) (c : Nat) (g : Seg) (p : Pt) (ps : List Pt) (u : Upset) : State :=
  let d := g.desc
  let e := s.segExtents g
  let m := g.row
  let ls := s.passLanes c g p e m
  let acc : List Run := [(0, brickRowAt (d.addrA p) d.modes.aFormat d.modes.tileRows m 0, brickRow d.modes.aFormat)] ++ g.rowReads p ls
  let snag := (s.snagReads c acc).orElse (fun _ => upsetSnag c g u false)
  let vs := s.rowValues c g p ls
  let bg := s.badGens c d vs.1
  let s := s.reseedAll c
  match snag with
  | some x => s.snagged c g x
  | none =>
    if !bg.isEmpty then s.rerunAt c g 1 c 0
    else
      let f := s.farReads c g.kept acc
      let s := f.1
      let opens := (g.tileOf p).isNone
      let g := { g with kept := f.2 }
      let g := Seg.addStats s c g p (ls.map (fun l => (l, toF32 l.x)))
      let quiet := d.modes.statOnly
      let lse := d.modes.rowFn == 9
      let r := s.rounded c d vs.1
      let s := if lse then s else s.drewRow c d
      let s := if quiet || lse then s else s.countRounded c r vs.2
      let base := d.addrOut p
      let s := if decide (m = 0) && g.passOff p then s.bump (Reg.CORE_MISALIGNED_PASSES c) else s
      let s := if decide (m = 0) && !quiet && !lse && decide (d.modes.outRoute ≠ 3) && offBlock base then
          s.bump (Reg.CORE_MISALIGNED_PASSES c) else s
      let bs := if quiet then []
        else if lse then (leBytes 4 (mergeLse (ls.map (fun l => toF32 l.x)))).mapIdx (fun i b => (4 * (p.xM + m) + i, b, 255))
        else placeRow d m r
      let g := g.sign bs
      let rows := d.valid e p 1
      let t0 := (g.tileOf p).getD (d.tileAt e p false)
      let base := if lse then d.addrs.outBase else base
      let w : State × List Nat × Option Snag :=
        if d.modes.outRoute = 3 ∨ bs.isEmpty then (s, t0.whole, none)
        else s.storeRow c g t0 base bs (if lse then 4 else brickRow d.modes.outFormat) m (decide (m + 1 < rows))
      match w.2.2 with
      | some x => w.1.snagged c g x
      | none =>
        let ends := decide (rows ≤ m + 1)
        let t := { t0 with summary := max t0.summary r.summary, whole := w.2.1,
                           out := if d.modes.outRoute = 3 then t0.out ++ bs else [] }
        let g := { g with tiles := [t], todo := if ends then ps else p :: ps, row := if ends then 0 else m + 1 }
        let s := if opens && d.edgeTile e p then w.1.bump (Reg.CORE_EDGE_TILES c) else w.1
        let s := s.setSeg c g
        if ends then s.closeTile c g t else s

/-- DRAIN_ROW: the next row of the lowest finished tile, or of a row-unit pass. -/
def State.drainRow (s : State) (c : Nat) (u : Upset) : State :=
  let s := s.upset (u.gens.map (fun i => 512 * c + i.val))
  match s.running c with
  | none => s.reseedAll c
  | some g =>
    if g.desc.kind = .row then
      match g.todo with
      | p :: ps => s.rowPass c g p ps u
      | [] => s.reseedAll c
    else
      match g.tiles.find? (fun t => t.done) with
      | some t => s.drainTile c g t u
      | none => s.reseedAll c

def execDrainRow (c : RowDrain) (s : State) : Result := done (s.drainRow c.core c.upset)

end Sys2Proof.Machine
end

