-- ==== Sys2Proof/Machine/Sequencer.lean ====
section
/-!
DEFINITION. The sequencers: releasing an entry (R18, R31, R34, R36, R39, R199, R213, R215), ending a segment (R38, R194, R417,
R419), stalls and freezes (R42 to R44, R229), the late fault (R45), the first milk run (R418) and the self-test (R425).
Commands: SEGMENT_RELEASE, SEGMENT_END, STALL_CAUSE_START, STALL_CAUSE_CLEAR, HERD_FREEZE, HERD_RESUME, LATE,
ELASTIC_PROMOTION, SAFETY_SELFTEST, INITIAL_MILK_RUN.
-/

namespace Sys2Proof.Machine

/-! ### Entries -/

/-- The tick at which an entry's slot is released: tick 16 of its slot, counted from the start of the step (R31, R35). -/
def State.releaseTick (s : State) (e : Entry) : Nat := (s.run.stepStart + e.startSlot) * 4096 + 16

/-- The next entry of a core's table, with its index. -/
def State.nextEntry (s : State) (c : Nat) : Option (Nat × Entry) :=
  let k := s.core c
  if k.atBoundary then none else ((s.tableOf c)[k.entry]?).map (fun e => (k.entry, e))

/-- Entries may be released: a plan runs, its start-up work is over, no supply hold (R22, R308, R418, R447). -/
def State.releasing (s : State) : Bool :=
  s.run.run && !s.run.stopped && !s.run.selftest && s.run.milkDue.isEmpty && s.run.complete.isEmpty && !s.power.hold

/-- The schedule monitor starts when the self-test, the milk runs and the completion passes have ended (R420). -/
def State.startMonitor (s : State) : State :=
  if s.run.run && !s.run.stopped && !s.run.selftest && s.run.milkDue.isEmpty && s.run.complete.isEmpty && s.run.monitor.isNone then
    { s with run := { s.run with monitor := some s.phaseNat } }
  else s

def State.setHerd (s : State) (h : Nat) (v : Herd) : State :=
  { s with run := { s.run with herds := tputD ⟨false, []⟩ s.run.herds h v } }

/-- A segment about to make its first attempt. -/
def newSeg (s : State) (entry : Option Nat) (e : Entry) (ix : Nat) (d : Desc) (milk : Option DWord)
    (completes : Option Nat) (slip : Nat) : Seg where
  id := s.run.nextSeg
  entry := entry
  ent := e
  descIx := ix
  desc := d
  milk := milk
  completes := completes
  planned := s.releaseTick e
  released := s.phaseNat
  slip := slip
  attempt := 0
  attemptAt := s.clock.now
  slipAt := slip
  hits := 0
  status := .running
  untrusted := false
  zeroOut := false
  zeroShape := false
  todo := []
  row := 0
  active := none
  shadow := none
  activeSet := 0
  tiles := []
  vat := []
  badVat := []
  auxVec := []
  statVec := []
  dueAt := none
  check := []
  stats := []
  signature := 0
  sigTail := []
  kept := []

/-- A segment takes the core, under a number of its own. -/
def State.occupy (s : State) (c : Nat) (g : Seg) : State :=
  ({ s with run := { s.run with nextSeg := s.run.nextSeg + 1 } }).setCore c
    { s.core c with seg := some g, segCount := (s.core c).segCount + 1 }

/-- R213: the first shape variable of a descriptor whose active value exceeds its planned maximum. -/
def State.shapeOver (s : State) (d : Desc) : Option Nat :=
  [d.shapeVar.1, d.shapeVar.2.1, d.shapeVar.2.2].find? (fun v =>
    v != 0 && decide (s.reg (Reg.PHASE_SHAPE_MAX v) % 2 ^ 24 < s.shape v))

def rowPassCount (s : State) (c : Nat) (d : Desc) : State :=
  if d.kind = .row then s.bump (Reg.CORE_ROW_PASSES c) else s

/-- Steps 2 to 4 of R215 for a segment that names a descriptor. Wrong parity in a vector table makes the segment rerun, but
its requests are issued all the same: a rerun does not issue them. -/
def State.begin (s : State) (c : Nat) (g : Seg) : State :=
  match s.shapeOver g.desc with
  | some v => s.raise (segFault c g 0x0501 v)
  | none =>
    let works := arrayClass g.ent.cls
    let t := if works then s.readTables c g else (s, none, g)
    match t.2.1 with
    | some (.pendingRead a) => t.1.snagged c { t.2.2 with attempt := 1 } (.pendingRead a)
    | x =>
      let s := (t.1.setSeg c t.2.2).issueList c t.2.2
      if (s.core c).stopped then s
      else
        let s := if works then rowPassCount s c g.desc else s
        match x with
        | some x => s.snagged c { t.2.2 with attempt := 1, attemptAt := s.clock.now, slipAt := g.slip } x
        | none => s.startAttempt c t.2.2

/-! ### Stalls (R42 to R44, R229) -/

/-- What a stall cause counts in its own block. -/
def State.countCause (s : State) (c : Nat) : StallCause → State
  | .bankConflict b => (s.bump (Reg.CORE_BANK_CONFLICTS c)).setReg (Reg.CORE_CONFLICT_BANK c) b
  | .lateBlock n => (s.bump (Reg.QUARTER_NOC_LATE_BLOCKS (c / 16))).bumpBy (Reg.QUARTER_NOC_RETRY_FULL (c / 16)) n
  | .crcResend => s.bump (Reg.QUARTER_NOC_CRC_RESENDS (c / 16))
  | .emptyEntry => s.bump (Reg.CORE_ENTRY_UNDERRUNS c)
  | .drainQueue => s

/-- A cause starts at t0: its herd is to freeze at t0 + 6. A second one of its kind counts like the first. -/
def State.stallStart (s : State) (c : Nat) (cause : StallCause) : State :=
  let k := s.core c
  let s := s.setCore c { k with causes := k.causes ++ [(cause, s.clock.now)] }
  let s := (s.bump (Reg.CORE_STALL_EVENTS c)).countCause c cause
  let h := s.herd k.herd
  s.setHerd k.herd { h with intervals := h.intervals ++ [⟨c, s.clock.now + 6, none⟩] }

/-! ### The release -/

/-- Nothing stalls a core's herd: it is not frozen, and the core's entry buffer is not empty (R18, R42). -/
def State.herdRuns (s : State) (c : Nat) : Bool :=
  let k := s.core c
  !(s.herd k.herd).frozen && !s.heldHerd k.herd && !k.causes.any (fun x => x.1 == .emptyEntry)

/-- An entry may be released: its time has come, its tokens are there, and its herd runs (R18, R31, R39). -/
def State.mayRelease (s : State) (c : Nat) (e : Entry) : Bool :=
  s.releasing && !(s.core c).stopped && decide (s.releaseTick e ≤ s.phaseNat) && (s.core c).met e && s.herdRuns c

/-- LATE (R45) of an entry that has no segment. -/
def entryLate (c i : Nat) (e : Entry) : FaultAt :=
  { code := 0x0101, cls := clsCore, inst := c, core := c, entry := i, desc := e.descIndex }

/-- Lateness in core cycles of an entry not yet released. -/
def State.lateness (s : State) (e : Entry) : Nat := 7 * (s.phaseNat - s.releaseTick e)

/-- The BOUNDARY entry brings the core to the barrier; its lateness is its slip. -/
def State.releaseBoundary (s : State) (c i : Nat) (e : Entry) (slip : Nat) : State :=
  let s := (s.setCore c { s.core c with atBoundary := true }).noteSlip c e.slack slip
  let s := if e.signalEn then s.signal e.signalCore e.signalTok else s
  if decide (7 * e.slack < slip) && !(s.core c).stopped then s.raise (entryLate c i e) else s

/-- An entry whose bytes are whole: its tokens are consumed and its segment begins (R215). -/
def State.releaseEntry (s : State) (c i : Nat) (e : Entry) : State :=
  let slip := s.lateness e
  let s := s.setCore c { (s.core c).consume e with entry := i + 1 }
  if e.cls = 5 then s.releaseBoundary c i e slip
  else
    let d := (s.descOf c e.descIndex).getD default
    let milk := if e.cls = 3 then
        (s.run.plan.bind (fun p => p.milkRuns.find? (fun m => m.core == c && m.desc == e.descIndex))).map (·.signature)
      else none
    let g := newSeg s (some i) e e.descIndex d milk none slip
    let s := (s.occupy c g).noteSlack c g
    if e.cls = 4 then s.setSeg c { g with attempt := 1 } else s.begin c g

/-- An entry met with wrong parity is discarded and read again: the buffer is empty meanwhile (R277). -/
def State.refetchEntry (s : State) (c off : Nat) : State :=
  let s := s.parityHit c 5 off
  (s.setCore c { s.core c with refetch := (s.core c).refetch + 1 }).stallStart c .emptyEntry

/-- An entry or its descriptor whose read was uncorrectable: the request stops (R199, Table 10.2). -/
def State.entryUnread (s : State) (c i : Nat) (e : Entry) (off : Nat) : State :=
  match stackOf off with
  | none => s
  | some (st, _) => s.uncorrectable (segReader c i e.descIndex) st off

/-- The sequencer's read of an entry and its descriptor, a request of queue 63, at its engine (R40, R199, R249): the three
lines count when the entry is due (log entry 43). -/
def State.entryFetched (s : State) (c : Nat) (e : Entry) : State :=
  let x := 4 * (c / 16) + 3
  (s.bump (Reg.COPY_REQUESTS x)).bumpBy (Reg.COPY_LINES_READ x) (if e.cls = 4 ∨ e.cls = 5 then 1 else 3)

/-- SEGMENT_RELEASE. -/
def State.release (s : State) (c : Nat) (r : EntryRead) : State :=
  match (s.core c).seg, s.nextEntry c with
  | none, some (i, e) =>
    if s.mayRelease c e then
      let s := s.entryFetched c e
      match r with
      | .whole => s.releaseEntry c i e
      | .parity off => s.refetchEntry c off
      | .unread off => s.entryUnread c i e off
    else s
  | _, _ => s

def execSegmentRelease (c : EntryRelease) (s : State) : Result := done (s.release c.core c.entry)

/-! ### The end of a segment -/

/-- Words of a statistic pair that are not finite (R193). -/
def nonFinite (p : Nat × Nat) : Bool :=
  let bad := fun w => isNan (f32 w) || isInf (f32 w)
  bad p.1 || bad p.2

/-- A pair of words written at its place; a snag stops there. -/
def State.writePair (s : State) (c : Nat) (g : Seg) (at_ : Nat) (p : Nat × Nat) : State × Option Snag :=
  let w := s.storeAt c (spAdd g.desc.addrs.statOut (8 * at_ : Nat)) (leBytes 4 p.1 ++ leBytes 4 p.2)
  if w.2.isSome then w
  else
    let t := w.1.bump (Reg.CORE_STAT_PAIRS c)
    (if nonFinite p then t.bump (Reg.CORE_STAT_NONFINITE c) else t, none)

/-- A pair as its eight bytes. -/
def statBytes (g : Seg) (w : List Word) : List Byte :=
  let p := statWords g.desc.modes.rowStat g.desc.addrs.statEps.toNat w
  leBytes 4 p.1 ++ leBytes 4 p.2

/-- Bytes that a milk run's signature takes. -/
def Seg.signTail (g : Seg) (bs : List Byte) : Seg := { g with sigTail := g.sigTail ++ bs }

/-- The statistic pairs of a successful attempt (R194). -/
def State.writeStats (s : State) (c : Nat) (g : Seg) : State × Seg × Option Snag :=
  g.stats.foldl (fun (a : State × Seg × Option Snag) st =>
    if a.2.2.isSome then a
    else
      match a.1.writePair c g st.1 (statWords g.desc.modes.rowStat g.desc.addrs.statEps.toNat st.2) with
      | (t, some x) => (t, a.2.1, some x)
      | (t, none) => (t, a.2.1.signTail (statBytes g st.2), none)) (s, g, none)

/-- The signature of a milk run against what its table gives (R417, R419). -/
def State.milkEnd (s : State) (c : Nat) (g : Seg) : State :=
  match g.milk with
  | none => s
  | some want =>
    if crc64More g.signature.toNat g.sigTail = want.toNat then
      let s := s.bump Reg.SAFETY_MILK_RUNS
      let s := match (s.core c).milkLast with
        | some t => s.setReg Reg.SAFETY_MILK_GAP_MAX (max (s.reg Reg.SAFETY_MILK_GAP_MAX) (min 0xFFFF (s.slot - t)))
        | none => s
      s.setCore c { s.core c with milkLast := some s.slot }
    else (s.bump Reg.SAFETY_MILK_FAILS).raise (segFault c g 0x0A01 g.descIx) true

/-- Errors of abandoned attempts, once one succeeds (R277). -/
def State.pailHits (s : State) (c n : Nat) : State :=
  (List.range n).foldl (fun t _ => t.pail clsCore c 0) s

/-- A pair of a completion pass has run (R308). -/
def State.pairDone (s : State) (g : Seg) : State :=
  match g.completes with
  | none => s
  | some st => s.setUpd st { s.upd st with pairs := (s.upd st).pairs.map (fun p => (p.1, p.2.drop 1)) }

/-- The core is free; a completion segment hands on to the next pair of its shard. -/
def State.leaveCore (s : State) (c : Nat) (g : Seg) : State :=
  let s := (s.setCore c { s.core c with seg := none }).pairDone g
  let s := if g.entry.isNone && g.milk.isSome then
      { s with run := { s.run with milkDue := s.run.milkDue.filter (· != c) } } else s
  s.startMonitor

/-- SEGMENT_END: the attempt has succeeded. -/
def State.segmentEnd (s : State) (c : Nat) : State :=
  match s.running c with
  | none => s
  | some g =>
    if g.untrusted || !g.todo.isEmpty || !g.tiles.isEmpty then s
    else
      let w := if arrayClass g.ent.cls then s.writeStats c g else (s, g, none)
      match w.2.2 with
      | some x => w.1.snagged c g x
      | none =>
        let s := w.1.milkEnd c w.2.1
        if (s.core c).stopped then s
        else
          let s := (s.pailHits c g.hits).leaveCore c g
          if g.entry.isSome && g.ent.signalEn then s.signal g.ent.signalCore g.ent.signalTok else s

def execSegmentEnd (c : Fin 64) (s : State) : Result := done (s.segmentEnd c)

/-! ### Stall commands (R42 to R44) -/

def execStallCauseStart (c : Fin 64) (cause : StallCause) (s : State) : Result := done (s.stallStart c cause)

/-- The first open interval of a core that starts at a cycle ends at another. -/
def closeFirst (c start stop : Nat) : List Freeze → List Freeze
  | [] => []
  | i :: is => if i.core = c ∧ i.start = start ∧ i.stop = none then { i with stop := some stop } :: is else i :: closeFirst c start stop is

/-- An entry that was read again is in the buffer: each detection that led to it has ended well (R277). -/
def State.refetched (s : State) (c : Nat) : State :=
  let n := (s.core c).refetch
  (s.setCore c { s.core c with refetch := 0 }).pailHits c n

/-- It clears at t1: its interval ends at t1 + 6. -/
def State.stallClear (s : State) (c : Nat) (cause : StallCause) : State :=
  let k := s.core c
  match k.causes.find? (fun x => x.1 == cause) with
  | none => s
  | some x =>
    let s := s.setCore c { k with causes := k.causes.erase x }
    let h := s.herd k.herd
    let s := s.setHerd k.herd { h with intervals := closeFirst c (x.2 + 6) (s.clock.now + 6) h.intervals }
    if cause = .emptyEntry then s.refetched c else s

def execStallCauseClear (c : Fin 64) (cause : StallCause) (s : State) : Result := done (s.stallClear c cause)

/-- An interval covers the present cycle. -/
def Freeze.holds (f : Freeze) (now : Nat) : Bool :=
  decide (f.start ≤ now) && (match f.stop with
    | none => true
    | some t => decide (now < t))

/-- HERD_FREEZE: the herd is frozen over the union of its intervals (R44). -/
def State.freeze (s : State) (h : Nat) : State :=
  if (s.herd h).intervals.any (fun i => i.holds s.clock.now) || s.heldHerd h then s.setHerd h { s.herd h with frozen := true }
  else s

def execHerdFreeze (h : Fin 8) (s : State) : Result := done (s.freeze h)

/-- HERD_RESUME: no interval covers the present cycle. -/
def State.resume (s : State) (h : Nat) : State :=
  if (s.herd h).intervals.any (fun i => i.holds s.clock.now) || s.heldHerd h then s
  else s.setHerd h ⟨false, (s.herd h).intervals.filter (fun i => match i.stop with
    | some t => decide (s.clock.now < t)
    | none => true)⟩

def execHerdResume (h : Fin 8) (s : State) : Result := done (s.resume h)

/-! ### The late fault (R45) -/

def State.late (s : State) (c : Nat) : State :=
  if !s.planRuns || (s.core c).stopped then s
  else
    match (s.core c).seg with
    | some g =>
      if g.entry.isSome && decide (7 * g.ent.slack < g.slipNow s.clock.now) then s.raise (segFault c g 0x0101 0) else s
    | none =>
      match s.nextEntry c with
      | some (i, e) => if 7 * e.slack < s.lateness e then s.raise (entryLate c i e) else s
      | none => s

def execLate (c : Fin 64) (s : State) : Result := done (s.late c)

/-- ELASTIC_PROMOTION: the request counts as timed from now on (R228). -/
def execElasticPromotion (c : Fin 64) (s : State) : Result := done (s.bump (Reg.CORE_ELASTIC_PROMOTIONS c))

/-! ### The work before the first entry (R22, R418, R425) -/

/-- The test stop of R425 was acknowledged by every unit. -/
def State.selftestPassed (s : State) : State :=
  if s.run.selftest then
    ({ s with run := { s.run with selftest := false }, safety := { s.safety with selftestOk := true } }).bump Reg.SAFETY_SELFTESTS
  else s

/-- SAFETY_SELFTEST: an acknowledgement is missing. -/
def execSafetySelftest (missing : Blk) (s : State) : Result :=
  done (if s.run.selftest then
    ({ s with run := { s.run with selftest := false }, safety := { s.safety with selftestOk := false } }).raise
      { code := 0x0A06, cls := clsSafety, inst := 0, addr := missing.cls * 256 + missing.inst } true
  else s)

/-- INITIAL_MILK_RUN: the first kernel of a core's table, steps 4 and 5 of R215 only. -/
def State.firstMilk (s : State) (c : Nat) : State :=
  if s.run.run && !s.run.stopped && s.run.milkDue.contains c && (s.core c).seg.isNone && !s.power.hold then
    match s.run.plan.bind (fun p => p.milkRuns.find? (fun m => m.core == c && m.order == 0)) with
    | none => s
    | some m =>
      let s := s.selftestPassed
      let d := (s.descOf c m.desc).getD default
      let g := newSeg s none { (default : Entry) with cls := 3 } m.desc d (some m.signature) none 0
      let t := s.readTables c g
      let s := rowPassCount (t.1.occupy c t.2.2) c d
      match t.2.1 with
      | some x => s.snagged c { t.2.2 with attempt := 1, attemptAt := s.clock.now } x
      | none => s.startAttempt c t.2.2
  else s

def execInitialMilkRun (c : Fin 64) (s : State) : Result := done (s.firstMilk c)

end Sys2Proof.Machine
end

