-- ==== Sys2Proof/Machine/Shard.lean ====
section
/-!
DEFINITION. What the Separator, the update engine, the Churn and a restore share: a shard's geometry and planes (R120,
Table 05.1), its regions, the ends of base-die commands, and the twin mirror (R311 to R314). Commands: MIRROR_ACK,
MIRROR_WAIT_EXPIRY.
-/

namespace Sys2Proof.Machine

/-! ### Geometry (R120) -/

structure Geo where
  rows  : Nat
  k     : Nat
  pitch : Nat
deriving DecidableEq, Repr

def Geo.groups (g : Geo) : Nat := g.rows * g.pitch

/-- G_K, groups that hold positions. -/
def Geo.gk (g : Geo) : Nat := ceilDiv g.k 16

/-- Valid positions of absolute group ga; none in a padding group. -/
def Geo.valid (g : Geo) (ga : Nat) : Nat := min 16 (g.k - 16 * (ga % g.pitch))

/-- GROUP_PITCH as R120 requires. -/
def Geo.pitchOk (g : Geo) : Bool := decide (g.pitch % 8 = 0) && decide (g.gk ≤ g.pitch)

/-- Space-0 offset of byte o of the plane at a 512-byte block of a stack. -/
def planeOff (st block o : Nat) : Nat := st * stackBytes + 512 * block + o

/-- Little-endian words of `w` bytes. -/
def wordsOf (w : Nat) (bs : List Byte) : List Nat :=
  (List.range (bs.length / w)).map (fun i => leNat ((bs.drop (w * i)).take w))

/-- The CHECKED decode of a source group (R146): kept positions and dropped bits; a dense group keeps its v positions. Bits of
a padding group's word are not decoded: they count as no drop and raise no MASK_MALFORMED (log entry 51). -/
def keptOf (bcode v w : Nat) : List Nat × Nat :=
  if bcode = 0 then (List.range v, 0)
  else if v = 0 then ([], 0)
  else
    let d := decodeGroup false (budgetOf bcode) v w
    (d.1, d.2.1 + d.2.2)

/-- A bitmap word of positions. -/
def bitmapOf (ps : List Nat) : Nat := (ps.dedup.map (fun p => 2 ^ p)).foldl (· + ·) 0

/-! ### Regions of a shard (Tables 10.3, 10.4) -/

/-- A run of bytes of a plane within one region of the shard. -/
def State.planeOk (s : State) (st shard block n : Nat) : Bool :=
  let a := planeOff st block 0
  (s.shardRegions st shard).any (fun r => decide (zOff r.base.toNat ≤ a) && decide (a + n ≤ zOff r.base.toNat + r.size))

/-- The first region of a role of the shard, as a 512-byte block of its stack. -/
def State.planeOfRole (s : State) (st shard role : Nat) : Option Nat :=
  ((s.shardRegions st shard).find? (fun r => r.role == role)).map (fun r => zOff r.base.toNat % stackBytes / 512)

/-! ### Reads and writes in runs -/

/-- Runs read in turn, up to the first that meets a unit without data, with that unit's Zarixon address. -/
structure Runs where
  s    : State
  data : List (List Byte)
  bad  : Bool
  at_  : Nat

def State.readRuns (s : State) (r : Reader) (runs : List (Nat × Nat)) : Runs :=
  runs.foldl (fun (a : Runs) x =>
    if a.bad then a
    else
      let g := a.s.readStack r x.1 x.2
      ⟨g.s, a.data ++ [g.data], g.bad.isSome, match g.bad with
        | some u => g.s.zAddr 0 u
        | none => 0⟩) ⟨s, [], false, 0⟩

def State.writeRuns (s : State) (r : Reader) (runs : List (Nat × List Byte)) : State :=
  runs.foldl (fun t x => (t.writeStack r x.1 x.2).s) s

/-- The reader a base-die command is (Table 10.2). -/
def BaseCmd.reader (c : BaseCmd) : Reader :=
  match c.src with
  | .seg core entry desc _ => segReader core entry desc
  | _ => unitReader

/-! ### Base-die commands -/

def BaseCmd.word (c : BaseCmd) (i : Nat) : Nat := (c.words.getD i 0).toNat

/-- A command's result is in: the request that carried it may complete. -/
def State.requestReady (s : State) (id : Nat) : State :=
  { s with run := { s.run with reqs := s.run.reqs.map (fun r => if r.id = id then { r with waiting := false } else r) } }

/-- A command has ended (R142, R292): counted; its request or the host's status told. -/
def State.cmdEnd (s : State) (cls st : Nat) (c : BaseCmd) (code addr : Nat) : State :=
  let s := s.bump (if cls = clsSep then Reg.SEP_COMMANDS st else Reg.UPD_COMMANDS st)
  match c.src with
  | .host => s.hostDone cls st code addr
  | .steward => s
  | .seg _ _ _ id => if code = 0 then s.requestReady id else s

/-- A fault of a command (R165, R166, R322, R324): a record that names its segment, or the host's status alone; a fault of
memory or of the fabric has its record also then (R285, R375), without a plan stop; a dangerous one is a detection either
way. -/
def State.cmdFault (s : State) (cls st : Nat) (c : BaseCmd) (code addr : Nat) (dangerous : Bool) : State :=
  match c.src with
  | .seg core entry desc _ =>
    s.raise { code := code, cls := cls, inst := st, addr := addr, core := core, entry := entry, desc := desc } dangerous
  | .steward => s.raise { code := code, cls := cls, inst := st, addr := addr } dangerous
  | .host =>
    if dangerous then s.raise { code := code, cls := cls, inst := st, addr := addr } true
    else if code / 2 ^ 8 = 7 ∨ code / 2 ^ 8 = 9 then s.faultRecord { code := code, cls := cls, inst := st, addr := addr } false
    else s

/-- A command ends with a fault. -/
def State.cmdFail (s : State) (cls st : Nat) (c : BaseCmd) (code addr : Nat) (dangerous : Bool) : State :=
  (s.cmdEnd cls st c code addr).cmdFault cls st c code addr dangerous

/-! ### Who holds a shard (R24) -/

/-- MOMENTS to WORKING: an update in progress (R304), or one the engine has started. -/
def State.updating (s : State) (st shard : Nat) : Bool :=
  (decide (1 ≤ s.shardState st shard) && decide (s.shardState st shard ≤ 4)) ||
  (match (s.upd st).cur with
   | some r => r.shard == shard
   | none => false)

/-- A PRUNE or REGROW that has not written its last group. -/
def State.rewriting (s : State) (st shard : Nat) : Bool :=
  match (s.sep st).cur with
  | some r => !r.waiting && r.cmd.shard == shard
  | none => false

/-! ### Journal (Table 11.4) -/

def State.epochOf (s : State) (st shard : Nat) : Nat := s.journalWord st shard 1 + 2 ^ 32 * s.journalWord st shard 2

def State.setEpoch (s : State) (st shard e : Nat) : State :=
  (s.setJournalWord st shard 1 (e % 2 ^ 32)).setJournalWord st shard 2 (e / 2 ^ 32 % 2 ^ 32)

def State.setState (s : State) (st shard v : Nat) : State := s.setJournal st shard 0 21 18 v

def State.setBatch (s : State) (st shard b : Nat) : State := s.setJournal st shard 0 17 0 b

/-- A shard of this module whose state is unknown (R307, R309). -/
def State.inconsistent (s : State) (st shard : Nat) : State := s.setState st shard 6

/-- A base-die unit reads a shard's journal entry through the coder (R258); false when the entry is without data. -/
def State.openJournal (s : State) (r : Reader) (st shard : Nat) : State × Bool :=
  match s.journal st shard with
  | none => (s, true)
  | some a => let g := s.readStack r a 64; (g.s, g.bad.isNone)

/-! ### Undo (R158, R305) -/

/-- The prior bytes of the runs a batch overwrites are copied to an UNDO region of the stack; false when one of them is
without data. -/
def State.saveUndo (s : State) (st k : Nat) (r : Reader) (runs : List (Nat × Nat)) : Runs :=
  let d := s.readRuns r runs
  if d.bad then d
  else match d.s.undoAt st k with
    | none => d
    | some a => { d with s := (d.s.writeStack r a d.data.flatten).s }

/-- What an UNDO region holds is read back and written to its place; false when it is without data. -/
def State.restoreBatch (s : State) (st k : Nat) (r : Reader) (u : Undo) : State × Bool :=
  match s.undoAt st k with
  | none => (s, true)
  | some a =>
    let places := u.runs.foldl (fun (x : List (Nat × Nat × Nat) × Nat) run => (x.1 ++ [(x.2, run)], x.2 + run.2)) ([], a)
    let d := s.readRuns r (places.1.map (fun p => (p.1, p.2.2)))
    if d.bad then (d.s, false) else (d.s.writeRuns r ((u.runs.map (·.1)).zip d.data), true)

/-! ### The twin (R311 to R314, R371, R467) -/

/-- A Separator command that was recorded as in progress ends: its batch is restored, and its journal names none (R158). -/
def State.endBatch (s : State) (st shard : Nat) : State :=
  let t := match (s.upd st).sepUndo with
    | some u => if u.shard = shard then s.restoreBatch st 0 unitReader u else (s, true)
    | none => (s, true)
  let s := (if t.2 then t.1 else t.1.inconsistent st shard).setJournal st shard 0 24 22 0
  s.setUpd st { s.upd st with sepUndo := none, sepOwed := none }

/-- The batch of a command that a safety stop ended (R158, R409). -/
def State.paySep (s : State) (st : Nat) : State :=
  match (s.upd st).sepOwed with
  | none => s
  | some shard => s.endBatch st shard

/-- What engines owe after their journal entries could not be read, and after a safety stop. -/
def State.payOwed (s : State) : State :=
  let s := (List.range 12).foldl (fun t st => t.paySep st) s
  s.mem.owed.foldl (fun t off => t.uncorrectable unitReader (off / stackBytes) off) { s with mem := { s.mem with owed := [] } }

/-- The binding is mutual: both sides have confirmed it at a join. -/
def State.bindMutual (s : State) : Bool := s.boot.bind == .bound && s.boot.confirmed

def State.twin (s : State) : Option Nat := s.boot.settings.twin.map (·.1)

/-- A bound twin that is reachable (R371). -/
def State.twinReachable (s : State) : Bool :=
  match s.twin with
  | none => false
  | some t => s.bindMutual && s.reachable t false &&
      decide (s.slot < s.fab.lastTwinAck + max 1 (fieldOf (s.reg (Reg.FABRIC_LINK_CONFIG 0)) 31 16))

/-- The place of a shard of this module in the twin's tier (R522). -/
def State.twinPlace (s : State) (st shard : Nat) : Option Place :=
  s.run.plan.bind (fun p => p.places.find? (fun x => x.owner == p.moduleIndex && x.stack == st && x.shard == shard))

/-- A stored generation's header (Table 15.4). -/
def genHeader (owner st shard epoch step len crc digest : Nat) (valid : Bool) : List Byte :=
  leBytes 4 (owner * 2 ^ 20 + st * 2 ^ 16 + shard) ++ leBytes 8 epoch ++ leBytes 4 step ++ leBytes 8 len ++ leBytes 8 crc ++
    leBytes 8 digest ++ leBytes 4 (bnat valid) ++ leBytes 20 0

/-- What a mirror image is read from: the planes, their budget code and geometry. -/
structure ImageOf where
  bitmap : Nat
  master : Nat
  bcode  : Nat
  geo    : Geo
deriving DecidableEq, Repr

/-- Runs of an image's planes. -/
def ImageOf.runs (m : ImageOf) (st : Nat) : List (Nat × Nat) :=
  (if m.bcode = 0 then [] else [(planeOff st m.bitmap 0, 2 * m.geo.groups)]) ++
    [(planeOff st m.master 0, 4 * budgetOf m.bcode * m.geo.groups)]

/-- Group by group, the mask word and the master slots (R311). -/
def ImageOf.bytes (m : ImageOf) (data : List (List Byte)) : List Byte :=
  if m.bcode = 0 then data.getD 0 []
  else
    let b := 4 * budgetOf m.bcode
    (List.range m.geo.groups).flatMap (fun g =>
      ((data.getD 0 []).drop (2 * g)).take 2 ++ ((data.getD 1 []).drop (b * g)).take b)

/-- Image bytes written to the twin's tier on queue 64 s + 63. -/
def State.sendImage (s : State) (st shard epoch step : Nat) (image : List Byte) (place : Place) (twin : Nat) : State :=
  let q := 64 * st + 63
  let id := flowTo twin false (s.basePlane q) 1 q
  let t := s.nextTag
  let t := (t.1, t.2.addRemote ⟨t.1, twin, false, if epoch % 2 = 0 then place.gen0 else place.gen1, 0, .mirror st shard, []⟩)
  let head := genHeader s.moduleNum st shard epoch step image.length (crc64 image) 0 false
  let addr := if epoch % 2 = 0 then place.gen0 else place.gen1
  t.2.sendRun id { t.2.header 0 1 q twin false with tag := t.1, addr := addr, last := true } (head ++ image)

/-- A completion pass of the shard ends when its mirror does (R308). -/
def State.completed (s : State) (st shard : Nat) : State :=
  if s.run.complete.contains (st, shard) then
    ((({ s with run := { s.run with complete := s.run.complete.filter (· != (st, shard)) } }).bump
      (Reg.UPD_COMPLETIONS st))).startMonitor
  else s

/-- A shard has committed without the completion pass that was due. -/
def State.needsNone (s : State) (st shard : Nat) : State :=
  if s.run.complete.contains (st, shard) then
    ({ s with run := { s.run with complete := s.run.complete.filter (· != (st, shard)) } }).startMonitor
  else s

/-- The Separator's command in progress ends; bits its decode dropped raise MASK_MALFORMED (R146, R154). -/
def State.endSep (s : State) (st : Nat) : State :=
  match (s.sep st).cur with
  | none => s
  | some r =>
    let s := s.setSep st { s.sep st with cur := none }
    match r.firstDrop with
    | none => s.cmdEnd clsSep st r.cmd 0 0
    | some g => s.cmdFail clsSep st r.cmd 0x0402 g false

/-- The interrupted command kept beside the journal is done with (R308). -/
def State.forget (s : State) (st shard : Nat) : State :=
  s.setUpd st { s.upd st with kept := tdel (s.upd st).kept shard }

/-- The shard's newest mirror outstanding. -/
def State.mirrorOf (s : State) (st shard : Nat) : Option Mirror :=
  s.mirrors.reverse.find? (fun m => m.stack == st && m.shard == shard)

/-- An update's mirror commits it (R313). A Separator's raised EPOCH when it was sent (R314), and an update of the shard
may have gone on since. -/
def State.mirrorCommits (s : State) (m : Mirror) : State :=
  if m.sep then s
  else
    let s := (s.setEpoch m.stack m.shard m.epoch.toNat).setJournalWord m.stack m.shard 3 m.step
    let s := if s.shardState m.stack m.shard = 5 then s.setState m.stack m.shard 0 else s
    s.forget m.stack m.shard

/-- MIRROR_STALE and MIRROR_GEN tell of the image of the journal's epoch: a mirror of an epoch before leaves them. -/
def State.mirrorMarks (s : State) (m : Mirror) (acked : Bool) : State :=
  if s.epochOf m.stack m.shard ≠ m.epoch.toNat then s
  else if acked then (s.setJournal m.stack m.shard 0 30 30 0).setJournal m.stack m.shard 0 29 29 (m.epoch.toNat % 2)
  else s.setJournal m.stack m.shard 0 30 30 1

/-- A mirror ends: the shard commits on an acknowledgement with MIRROR_STALE clear, otherwise with it set (R313). -/
def State.mirrorEnds (s : State) (m : Mirror) (acked : Bool) : State :=
  let s := (({ s with mirrors := s.mirrors.filter (· != m) }).mirrorCommits m).mirrorMarks m acked
  let s := if acked then s.bump (Reg.UPD_MIRRORS m.stack)
    else (s.bump (Reg.UPD_MIRROR_TIMEOUTS m.stack)).event clsUpd m.stack evTimeout
      (s.zAddr 0 ((s.journal m.stack m.shard).getD 0))
  let s := m.upds.foldl (fun t c => t.cmdEnd clsUpd m.stack c 0 0) s
  if m.sep then s.endSep m.stack
  else if m.completing then s.completed m.stack m.shard else s.needsNone m.stack m.shard

/-- The shard's image is read, its CRC-64 recorded, and sent; without a mutual binding, or in a safety stop, nothing is
sent, and the mirror counts as timed out at once (R311, R313, R409). Where a plane could not be read, nothing is sent, and
the answer is the address of its unit. -/
def State.startMirror (s : State) (st shard epoch step : Nat) (im : ImageOf) (r : Reader) (upds : List BaseCmd)
    (sep completing : Bool) : State × Option Nat :=
  let d := s.readRuns r (im.runs st)
  if d.bad then (d.s, some d.at_)
  else
    let image := im.bytes d.data
    let crc := crc64 image
    let s := (d.s.setJournalWord st shard 4 (crc % 2 ^ 32)).setJournalWord st shard 5 (crc / 2 ^ 32)
    let s := if sep then s else s.setState st shard 5
    let m : Mirror := ⟨st, shard, BitVec.ofNat 64 epoch, step, s.slot, upds, sep, completing⟩
    match s.bindMutual && !s.safety.stop, s.twin, s.twinPlace st shard with
    | true, some t, some pl =>
      let s := s.sendImage st shard epoch step image pl t
      ({ s with mirrors := s.mirrors ++ [m] }, none)
    | _, _, _ => (s.mirrorEnds m false, none)

/-- A mirror whose shard a completion pass has taken up again: it is superseded (R308). -/
def State.takenUp (s : State) (m : Mirror) : Bool := (s.upd m.stack).pairs.map (·.1) == some m.shard

/-- MIRROR_ACK: an acknowledgement of a superseded image is ignored. -/
def execMirrorAck (st : Fin 12) (shard : Fin 4096) (epoch : DWord) (s : State) : Result :=
  done (match s.mirrors.find? (fun m => m.stack == st.val && m.shard == shard.val && m.epoch == epoch && !s.takenUp m) with
  | some m =>
    if s.bindMutual then ({ s with fab := { s.fab with lastTwinAck := s.slot } }).mirrorEnds m true else s
  | none => s)

/-- MIRROR_WAIT of UPD_CONFIG, 0 taken as 1. -/
def State.mirrorWait (s : State) (st : Nat) : Nat := max 1 (fieldOf (s.reg (Reg.UPD_UPD_CONFIG st)) 31 16)

/-- MIRROR_WAIT_EXPIRY: the wait has lasted MIRROR_WAIT slots. -/
def execMirrorWaitExpiry (st : Fin 12) (shard : Fin 4096) (s : State) : Result :=
  done (match s.mirrors.find? (fun m => m.stack == st.val && m.shard == shard.val && !s.takenUp m) with
  | some m => if m.sentSlot + s.mirrorWait st ≤ s.slot then s.mirrorEnds m false else s
  | none => s)

end Sys2Proof.Machine
end

