-- ==== Sys2Proof/Machine/Separator.lean ====
section
/-!
DEFINITION. The Separators (chapter 6). Commands: SEP_COMMAND_ARRIVE, PRUNE, REGROW, AUDIT, COLLECT, SEP_BATCH_WRITE,
INTAKE_WRITE.
-/

namespace Sys2Proof.Machine

/-! ### The record (Table 06.1) -/

def sepOp (c : BaseCmd) : Nat := fieldOf (c.word 0) 2 0
def sepSrcB (c : BaseCmd) : Nat := fieldOf (c.word 0) 4 3
def sepDstB (c : BaseCmd) : Nat := fieldOf (c.word 0) 6 5
def sepSwaps (c : BaseCmd) : Nat := fieldOf (c.word 0) 10 7
def sepFill (c : BaseCmd) : Bool := bitOf (c.word 0) 11
def sepZero (c : BaseCmd) : Bool := bitOf (c.word 0) 12
def sepMoments (c : BaseCmd) : Nat := fieldOf (c.word 0) 15 14
def sepGuard (c : BaseCmd) : Nat := fieldOf (c.word 0) 23 16
def sepSlot (c : BaseCmd) : Nat := fieldOf (c.word 1) 19 16
def sepGeo (c : BaseCmd) : Geo := ⟨fieldOf (c.word 2) 23 0, fieldOf (c.word 3) 23 0, fieldOf (c.word 4) 23 0⟩

def opPrune : Nat := 1
def opRegrow : Nat := 2
def opAudit : Nat := 3
def opCollect : Nat := 4

/-- Bytes per group of a plane: 0 bitmap, 4 ages, else a plane of FP32 slots. -/
def planeBytes (b i : Nat) : Nat := if i = 0 then 2 else if i = 4 then b else 4 * b

/-- Numbers of the planes a rewriting command takes from its source (Table 06.2). -/
def sepSources (c : BaseCmd) : List Nat :=
  (if sepSrcB c = 0 then [] else [0]) ++ [1] ++
    (if sepZero c then [] else (List.range (min 2 (sepMoments c))).map (· + 2) ++ [4])

/-- Numbers of the planes it writes. -/
def sepDests (c : BaseCmd) : List Nat := [0, 1] ++ (List.range (min 2 (sepMoments c))).map (· + 2) ++ [4]

/-- Planes the opcode names: record word, bytes. -/
def sepPlanes (c : BaseCmd) : List (Nat × Nat) :=
  let n := (sepGeo c).groups
  let bs := budgetOf (sepSrcB c)
  let bd := budgetOf (sepDstB c)
  if sepOp c = opAudit then
    [(5, 2 * n)] ++ (if c.word 6 = 0 then [] else [(6, 4 * bs * n)]) ++ [(15, 32)]
  else if sepOp c = opCollect then [(5, 2 * n), (15, 32 * n)]
  else (sepSources c).map (fun i => (5 + i, planeBytes bs i * n)) ++ (sepDests c).map (fun i => (10 + i, planeBytes bd i * n)) ++
    (if sepOp c = opRegrow || sepFill c then [(15, 32 * n)] else [])

/-- The record words of destination planes that share bytes with a source plane. -/
def sepOverlaps (c : BaseCmd) : List Nat :=
  let n := (sepGeo c).groups
  let src := (sepSources c).map (fun i => (512 * c.word (5 + i), planeBytes (budgetOf (sepSrcB c)) i * n))
  (sepDests c).filterMap (fun i =>
    let a := 512 * c.word (10 + i)
    let len := planeBytes (budgetOf (sepDstB c)) i * n
    if src.any (fun x => decide (x.1 < a + len) && decide (a < x.1 + x.2)) then some (10 + i) else none)

/-- A command that writes over its own source (R158). -/
def sepInPlace (c : BaseCmd) : Bool := sepOp c == opRegrow || !(sepOverlaps c).isEmpty

/-- Words of the record at fault (R144). -/
def State.sepBad (s : State) (st : Nat) (c : BaseCmd) : List Nat :=
  let op := sepOp c
  let rewrites := op == opPrune || op == opRegrow
  let g := sepGeo c
  let w := fun (b : Bool) (i : Nat) => if b then [i] else []
  let known := decide (1 ≤ op) && decide (op ≤ 4)
  w (!known || fieldOf (c.word 0) 31 24 != 0 || decide (sepMoments c = 3) || decide (8 < sepSwaps c) ||
      decide (budgetOf (sepSrcB c) < sepSwaps c) || (rewrites == decide (sepDstB c = 0)) ||
      (decide (sepSrcB c = 0) && op != opPrune) || (sepZero c && op != opPrune) ||
      (op == opRegrow && sepSrcB c != sepDstB c)) 0 ++
  w (fieldOf (c.word 1) 31 20 != 0 || fieldOf (c.word 1) 15 12 != 0 ||
      (known && (s.shardRegions st c.shard).any (fun r => r.peeled))) 1 ++
  w (fieldOf (c.word 2) 31 24 != 0 || (op == opCollect && decide (2 ^ 23 < g.groups))) 2 ++
  w (fieldOf (c.word 3) 31 24 != 0) 3 ++
  w (fieldOf (c.word 4) 31 24 != 0 || (known && !g.pitchOk)) 4 ++
  (if op == opRegrow then (List.range 5).filterMap (fun i =>
      if c.word (10 + i) = c.word (5 + i) then none else some (10 + i)) else []) ++
  (if op == opPrune && sepSrcB c != sepDstB c then sepOverlaps c else []) ++
  (if known then (sepPlanes c).filterMap (fun p => if s.planeOk st c.shard (c.word p.1) p.2 then none else some p.1) else [])

def leastOf (xs : List Nat) : Option Nat := xs.foldl (fun m x => match m with
  | none => some x
  | some y => some (min x y)) none

/-! ### Ranking (R145) -/

/-- A higher key ranks higher; of equal keys the lower position. -/
def outranks (a b : Nat × Nat) : Bool := decide (b.1 < a.1) || (decide (a.1 = b.1) && decide (a.2 < b.2))

def rankIn (x : Nat × Nat) : List (Nat × Nat) → List (Nat × Nat)
  | [] => [x]
  | y :: ys => if outranks x y then x :: y :: ys else y :: rankIn x ys

/-- (key, position) pairs, highest rank first. -/
def ranked (xs : List (Nat × Nat)) : List (Nat × Nat) := xs.foldr rankIn []

def sortNat (xs : List Nat) : List Nat := (List.range 16).filter (fun i => xs.contains i)

/-! ### Candidates (R151, R152) -/

/-- Valid entries of a record, in order: position, magnitude. -/
def candEntries (bs : List Byte) : List (Nat × Nat) :=
  (wordsOf 4 bs).filterMap (fun w => if bitOf w 31 then some (fieldOf w 19 16, fieldOf w 15 0) else none)

/-- The record of the 8 highest-ranking of its entries and the new ones; a position keeps its higher key. -/
def mergeCand (old new : List (Nat × Nat)) : List Byte :=
  let both := (List.range 16).filterMap (fun p =>
    let ks := ((old ++ new).filter (fun e => e.1 == p)).map (fun e => e.2 % 2 ^ 15)
    if ks.isEmpty then none else some (ks.foldl max 0, p))
  let top := (ranked both).take 8
  (List.range 8).flatMap (fun i => leBytes 4 (match top[i]? with
    | some (k, p) => 2 ^ 31 + p * 2 ^ 16 + k
    | none => 0))

/-! ### One group (R147, R148, R149) -/

structure GroupIn where
  kept  : List Nat
  drops : Nat
  /-- slots of each source plane, in slot order: master, moments, ages -/
  slots : List (Nat × List Nat)
  cand  : List (Nat × Nat)
  v     : Nat

structure GroupOut where
  new   : List Nat
  added : List Nat
  lost  : Nat

def GroupIn.plane (g : GroupIn) (i : Nat) : List Nat := ((g.slots.find? (fun x => x.1 == i)).map (·.2)).getD []

/-- The slot of a kept position. -/
def GroupIn.slotOf (g : GroupIn) (p : Nat) : Nat := (g.kept.findIdx? (· == p)).getD 0

def GroupIn.key (g : GroupIn) (p : Nat) : Nat := ((g.plane 1).getD (g.slotOf p) 0) % 2 ^ 31

def GroupIn.age (g : GroupIn) (p : Nat) : Nat := (g.plane 4).getD (g.slotOf p) 0

/-- Candidates that are pruned positions of the group, in record order. -/
def GroupIn.eligible (g : GroupIn) : List Nat :=
  (g.cand.map (·.1)).filter (fun p => !g.kept.contains p && decide (p < g.v))

def GroupIn.prune (g : GroupIn) (bd : Nat) : GroupOut :=
  let keep := ((ranked (g.kept.map (fun p => (g.key p, p)))).take bd).map (·.2)
  let add := g.eligible.take (min bd g.v - keep.length)
  ⟨sortNat (keep ++ add), add, g.kept.length - keep.length⟩

def GroupIn.regrow (g : GroupIn) (r guard : Nat) : GroupOut :=
  let pool := g.kept.filter (fun p => decide (guard ≤ g.age p))
  let n := min r (min g.eligible.length pool.length)
  let drop := ((ranked (pool.map (fun p => (g.key p, p)))).reverse.take n).map (·.2)
  let add := g.eligible.take n
  ⟨sortNat (g.kept.filter (fun p => !drop.contains p) ++ add), add, 0⟩

/-- The destination bytes of a plane of a group. -/
def GroupIn.dest (g : GroupIn) (c : BaseCmd) (o : GroupOut) (i : Nat) : List Byte :=
  let b := budgetOf (sepDstB c)
  let w := if i = 4 then 1 else 4
  let zero := sepZero c && i != 1
  if i = 0 then leBytes 2 (bitmapOf o.new)
  else (List.range b).flatMap (fun j => leBytes w (match o.new[j]? with
    | some p => if g.kept.contains p && !zero then (g.plane i).getD (g.slotOf p) 0 else 0
    | none => 0))

/-! ### A batch (R157, R158) -/

/-- Runs read for groups g0 to g1: the source planes, then the candidates. -/
def sepRuns (st : Nat) (c : BaseCmd) (cands : Bool) (g0 n : Nat) : List (Nat × Nat) :=
  let bs := budgetOf (sepSrcB c)
  (sepSources c).map (fun i => (planeOff st (c.word (5 + i)) (planeBytes bs i * g0), planeBytes bs i * n)) ++
    (if cands then [(planeOff st (c.word 15) (32 * g0), 32 * n)] else [])

def sepGroup (c : BaseCmd) (cands : Bool) (g0 : Nat) (data : List (List Byte)) (i : Nat) : GroupIn :=
  let bs := budgetOf (sepSrcB c)
  let v := (sepGeo c).valid (g0 + i)
  let part := fun (p : Nat) =>
    let k := ((sepSources c).findIdx? (· == p)).getD 0
    ((data.getD k []).drop (planeBytes bs p * i)).take (planeBytes bs p)
  let dec := keptOf (sepSrcB c) v (leNat (part 0))
  { kept := dec.1, drops := dec.2,
    slots := ((sepSources c).filter (· != 0)).map (fun p => (p, wordsOf (if p = 4 then 1 else 4) (part p))),
    cand := if cands then candEntries (((data.getD (sepSources c).length []).drop (32 * i)).take 32) else [], v := v }

structure Batch where
  ins   : List GroupIn
  outs  : List GroupOut

def sepBatchOf (c : BaseCmd) (cands : Bool) (g0 n : Nat) (data : List (List Byte)) : Batch :=
  let ins := (List.range n).map (sepGroup c cands g0 data)
  ⟨ins, ins.map (fun g => if sepOp c = opPrune then g.prune (budgetOf (sepDstB c)) else g.regrow (sepSwaps c) (sepGuard c))⟩

def flipBit (bs : List Byte) (bit : Nat) : List Byte :=
  bs.mapIdx (fun i b => if i = bit / 8 then b ^^^ BitVec.ofNat 8 (2 ^ (bit % 8)) else b)

/-- A group's bytes of a plane as a batch writes them, with what its lane got wrong. -/
def GroupIn.written (g : GroupIn) (c : BaseCmd) (o : GroupOut) (wrong : List LaneError) (ix i : Nat) : List Byte :=
  (wrong.filter (fun e => e.group.val == ix && e.plane.val == i)).foldl (fun bs e => flipBit bs e.bit) (g.dest c o i)

/-- The self-check of a group as written (R157): the count of the bitmap and its edge; the slots of positions kept, the zeros
of the others; and that no position dropped outranks one that stayed and could have been dropped. -/
def GroupIn.checked (g : GroupIn) (c : BaseCmd) (o : GroupOut) (out : Nat → List Byte) : Bool :=
  let ps := setBits (leNat (out 0))
  let slots := fun (i : Nat) =>
    let xs := wordsOf (if i = 4 then 1 else 4) (out i)
    (List.range (budgetOf (sepDstB c))).all (fun j => xs.getD j 0 == (match ps[j]? with
      | some p => if g.kept.contains p && !(sepZero c && i != 1) then (g.plane i).getD (g.slotOf p) 0 else 0
      | none => 0))
  let free := g.kept.filter (fun p => ps.contains p && (sepOp c == opPrune || decide (sepGuard c ≤ g.age p)))
  decide (ps.length = o.new.length) && ps.all (fun p => decide (p < g.v)) && ((sepDests c).filter (· != 0)).all slots &&
    (g.kept.filter (fun p => !ps.contains p)).all (fun d => free.all (fun p => !outranks (g.key d, d) (g.key p, p)))

/-- The first group of a batch that fails its check, counted from the batch's first. -/
def Batch.firstFail (b : Batch) (c : BaseCmd) (wrong : List LaneError) : Option Nat :=
  ((b.ins.zip b.outs).mapIdx (fun k x => (k, x))).findSome? (fun x =>
    if x.2.1.checked c x.2.2 (x.2.1.written c x.2.2 wrong x.1) then none else some x.1)

def Batch.writes (b : Batch) (st : Nat) (c : BaseCmd) (g0 : Nat) (wrong : List LaneError) : List (Nat × List Byte) :=
  let bd := budgetOf (sepDstB c)
  (sepDests c).map (fun i => (planeOff st (c.word (10 + i)) (planeBytes bd i * g0),
    ((b.ins.zip b.outs).mapIdx (fun k x => x.1.written c x.2 wrong k i)).flatten))

/-- The runs of bytes that writes cover. -/
def runsOfWrites (ws : List (Nat × List Byte)) : List (Nat × Nat) := ws.map (fun w => (w.1, w.2.length))

/-- Counters of a batch: groups, swaps or fills, drops of kept positions. -/
def State.countBatch (s : State) (st : Nat) (c : BaseCmd) (b : Batch) : State :=
  let add := (b.outs.map (fun o => o.added.length)).foldl (· + ·) 0
  let lost := (b.outs.map (·.lost)).foldl (· + ·) 0
  let s := s.bumpBy (Reg.SEP_GROUPS st) b.ins.length
  if sepOp c = opPrune then (s.bumpBy (Reg.SEP_FILLS st) add).bumpBy (Reg.SEP_PRUNE_DROPS st) lost
  else s.bumpBy (Reg.SEP_SWAPS st) add

/-- A command that cannot go on: out of the engine, SEP_OP clear. -/
def State.dropSep (s : State) (st : Nat) (c : BaseCmd) : State :=
  match (s.sep st).cur with
  | none => s
  | some _ => (s.setSep st { s.sep st with cur := none }).setJournal st c.shard 0 24 22 0

/-- A command ends at a unit without data, whose fault has been raised already (Table 10.2). -/
def State.sepUnread (s : State) (st : Nat) (c : BaseCmd) (addr : Nat) : State :=
  match (s.sep st).cur with
  | none => if c.src = .host then s.hostDone clsSep st 0x0701 addr else s
  | some _ => (s.dropSep st c).cmdEnd clsSep st c 0x0701 addr

/-- The update whose mirror is pending commits, and its command ends with the Separator's mirror (R314). -/
def State.supersede (s : State) (st shard : Nat) : State × List BaseCmd :=
  match s.mirrorOf st shard with
  | none => (s, [])
  | some m =>
    let s := s.mirrorEnds { m with upds := [] } false
    ({ s with mirrors := s.mirrors.filter (· != m) }, m.upds)

/-- The last group is written: the shard's epoch rises and its mirror goes out (R154, R314). -/
def State.sepFinish (s : State) (st : Nat) (r : SepRun) : State :=
  let c := r.cmd
  let s := s.setJournal st c.shard 0 24 22 0
  let s := s.setUpd st { s.upd st with sepUndo := none }
  let s := s.setJournal st c.shard 8 17 16 (sepDstB c)
  let p := s.supersede st c.shard
  let e := p.1.epochOf st c.shard + 1
  let s := p.1.setEpoch st c.shard e
  let s := s.setSep st { s.sep st with cur := some { r with waiting := true } }
  let im : ImageOf := ⟨c.word 10, c.word 11, sepDstB c, sepGeo c⟩
  let m := s.startMirror st c.shard e (s.journalWord st c.shard 3) im c.reader p.2 true false
  match m.2 with
  | none => m.1
  | some a => (m.1.inconsistent st c.shard).sepUnread st c a

/-- The batch's prior slots go to the Separator's undo region, and the journal names shard, opcode and batch (R158). -/
def State.sepUndoBatch (s : State) (st : Nat) (r : SepRun) (ws : List (Nat × List Byte)) : Runs :=
  let c := r.cmd
  let d := s.saveUndo st 0 c.reader (runsOfWrites ws)
  if d.bad then d
  else
    let s := d.s.setUpd st { d.s.upd st with sepUndo := some ⟨c.shard, r.group / 256, runsOfWrites ws⟩ }
    { d with s := (s.setJournal st c.shard 0 24 22 r.opcode).setBatch st c.shard (r.group / 256) }

/-- A group failed its check (R157): what the batch wrote in place is restored, and the command ends with SEP_CHECK. A
command so ended at a restored batch counts in TRUNCATED (log entry 51). -/
def State.sepCheckFail (s : State) (st : Nat) (r : SepRun) (ga : Nat) : State :=
  let c := r.cmd
  let s := s.bump (Reg.SEP_CHECK_FAILS st)
  let s := match sepInPlace c, (s.upd st).sepUndo with
    | true, some u =>
      let t := (s.restoreBatch st 0 c.reader u).1
      (t.setUpd st { t.upd st with sepUndo := none }).bump (Reg.SEP_TRUNCATED st)
    | _, _ => s
  (s.dropSep st c).cmdFail clsSep st c 0x0404 ga true

/-- The batch as written has passed its check: counted; after the last one the command finishes. -/
def State.sepBatchDone (s : State) (st : Nat) (r : SepRun) (b : Batch) (n : Nat) : State :=
  let s := s.countBatch st r.cmd b
  let first := match r.firstDrop with
    | some g => some g
    | none => (b.ins.findIdx? (fun g => g.drops != 0)).map (· + r.group)
  let r := { r with group := r.group + n, firstDrop := first, held := s.power.hold }
  let s := s.setSep st { s.sep st with cur := some r }
  if (sepGeo r.cmd).groups ≤ r.group then s.sepFinish st r else s

/-- A batch of 256 groups (R157, R158). At a supply warning the batch in progress is finished, and none follows it (R159). -/
def State.sepBatch (s : State) (st : Nat) (wrong : List LaneError) : State :=
  match (s.sep st).cur with
  | none => s
  | some r =>
    if r.waiting || (s.power.hold && r.held) || s.safety.stop then s
    else
      let c := r.cmd
      let n := min 256 ((sepGeo c).groups - r.group)
      let cands := r.hasCand
      let d := s.readRuns c.reader (sepRuns st c cands r.group n)
      if d.bad then d.s.sepUnread st c d.at_
      else
        let b := sepBatchOf c cands r.group n d.data
        let ws := b.writes st c r.group wrong
        let s := d.s.bumpBy (Reg.SEP_MASK_DROPS st) ((b.ins.map (·.drops)).foldl (· + ·) 0)
        let u := if sepInPlace c then s.sepUndoBatch st r ws else ⟨s, [], false, 0⟩
        if u.bad then u.s.sepUnread st c u.at_
        else
          let s := u.s.writeRuns c.reader ws
          match b.firstFail c wrong with
          | some k => s.sepCheckFail st r (r.group + k)
          | none => s.sepBatchDone st r b n

def execSepBatchWrite (st : Fin 12) (wrong : List LaneError) (s : State) : Result := done (s.sepBatch st wrong)

/-! ### Starting a command -/

/-- A rewriting command takes its collection slot and closes what R150 closes; whether it finds its collection open, with a
delivery in it (R162). -/
def State.takeSlot (s : State) (st : Nat) (c : BaseCmd) : State × Bool :=
  let u := s.sep st
  let named := sepOp c == opRegrow || sepFill c
  let ok := named && (match tfind u.slots (sepSlot c) with
    | some x => x.shard == c.shard && x.delivered
    | none => false)
  let slots := u.slots.filter (fun x => !(named && x.1 == sepSlot c) && x.2.shard != c.shard)
  let s := s.setSep st { u with slots := slots }
  (if named && !ok then s.bump (Reg.SEP_NO_CANDIDATE_CMDS st) else s, ok)

def State.startRewrite (s : State) (st : Nat) (c : BaseCmd) : State :=
  let t := s.takeSlot st c
  t.1.setSep st { t.1.sep st with cur := some ⟨c, sepOp c, 0, none, t.2, false, false⟩ }

/-- A run of zeros written by a base-die unit. -/
def State.zeroStack (s : State) (r : Reader) (off n : Nat) : State :=
  if n = 0 then s
  else
    let last := off + n - 1
    let u := s.unitSize last
    let s := if (last + 1) % u = 0 then s else (s.mergeUnit r last).1
    (((updateLines (clearErrs s off n) off n).setCells (zeroBytes s.mem.cells off n)).encodeRun off n).invalidate off n

/-- COLLECT (R150). -/
def State.collectNow (s : State) (st : Nat) (c : BaseCmd) : State :=
  let g := sepGeo c
  let s := s.zeroStack c.reader (planeOff st (c.word 15) 0) (32 * g.groups)
  let u := s.sep st
  let s := s.setSep st { u with slots := tput u.slots (sepSlot c) ⟨c.shard, g.rows, g.k, g.pitch, c.word 5, c.word 15, false⟩ }
  (s.bumpBy (Reg.SEP_GROUPS st) g.groups).cmdEnd clsSep st c 0 0

/-- What AUDIT finds in a group: bits beyond the edge, beyond the budget, a padding group, unused slots not +0. -/
def auditGroup (bcode : Nat) (g : Geo) (maps masters : List Byte) (useMaster : Bool) (ga : Nat) : Nat × Nat × Nat × Nat :=
  let b := budgetOf bcode
  let w := leNat ((maps.drop (2 * ga)).take 2)
  let v := g.valid ga
  let dec := if v = 0 then ([], 0, 0) else decodeGroup false b v w
  let slots := wordsOf 4 ((masters.drop (4 * b * ga)).take (4 * b))
  (dec.2.1, dec.2.2, bnat (decide (v = 0) && w != 0),
    if useMaster then ((slots.drop dec.1.length).filter (· != 0)).length else 0)

structure Audit where
  counts : List (Nat × Nat × Nat × Nat)

def Audit.total (a : Audit) (f : Nat × Nat × Nat × Nat → Nat) : Nat := (a.counts.map f).foldl (· + ·) 0

def Audit.firstFail (a : Audit) : Option Nat :=
  a.counts.findIdx? (fun c => c.1 != 0 || c.2.1 != 0 || c.2.2.1 != 0 || c.2.2.2 != 0)

def auditOf (bcode : Nat) (g : Geo) (data : List (List Byte)) : Audit :=
  ⟨(List.range g.groups).map (auditGroup bcode g (data.getD 0 []) (data.getD 1 []) (decide (1 < data.length)))⟩

/-- The result record (Table 06.4). -/
def Audit.record (a : Audit) : List Byte :=
  leBytes 4 (a.total (·.1)) ++ leBytes 4 (a.total (·.2.1)) ++ leBytes 4 (a.total (·.2.2.1)) ++
    leBytes 4 (a.total (·.2.2.2)) ++ leBytes 4 (a.firstFail.getD 0xFFFFFFFF) ++ leBytes 12 0

/-- AUDIT (R153). -/
def State.auditNow (s : State) (st : Nat) (c : BaseCmd) : State :=
  let g := sepGeo c
  let b := budgetOf (sepSrcB c)
  let runs := (planeOff st (c.word 5) 0, 2 * g.groups) ::
    (if c.word 6 = 0 then [] else [(planeOff st (c.word 6) 0, 4 * b * g.groups)])
  let d := s.readRuns c.reader runs
  if d.bad then d.s.cmdEnd clsSep st c 0x0701 d.at_
  else
    let a := auditOf (sepSrcB c) g d.data
    let s := (d.s.bumpBy (Reg.SEP_GROUPS st) g.groups).bumpBy (Reg.SEP_MASK_DROPS st) (a.total (fun x => x.1 + x.2.1))
    let s := (s.writeStack c.reader (planeOff st (c.word 15) 0) a.record).s
    match a.firstFail with
    | none => s.cmdEnd clsSep st c 0 0
    | some f =>
      let s := s.bump (Reg.SEP_AUDIT_FAILS st)
      if bitOf (c.word 0) 13 then s.cmdFail clsSep st c 0x0403 f false else s.cmdEnd clsSep st c 0 0

/-- A command whose shard is free, taken from the queue, reads the journal and begins; on an INCONSISTENT shard it is refused
(R309), with address 0, for which the manual gives no word (log entry 53). -/
def State.sepGo (s : State) (st op : Nat) (c : BaseCmd) : State :=
  let j := s.openJournal c.reader st c.shard
  if !j.2 then j.1.cmdEnd clsSep st c 0x0701 (j.1.zAddr 0 ((j.1.journal st c.shard).getD 0))
  else if j.1.shardState st c.shard = 6 then j.1.cmdFail clsSep st c 0x0401 0 false
  else if op = opCollect then j.1.collectNow st c
  else if op = opAudit then j.1.auditNow st c
  else j.1.startRewrite st c

/-- The command at the front of the queue starts (R141, R144, R24, R159), if it is of this opcode; one whose opcode is
reserved is refused whichever start comes first. -/
def State.sepStart (s : State) (st op : Nat) : State :=
  let u := s.sep st
  match u.cur, u.queue with
  | none, c :: rest =>
    let mine := sepOp c == op || !(decide (1 ≤ sepOp c) && decide (sepOp c ≤ 4))
    if !mine || s.power.hold then s
    else if s.safety.stop then ((s.setSep st { u with queue := rest }).event clsSep st evRefused 0).cmdEnd clsSep st c 0 0
    else
      match leastOf (s.sepBad st c) with
      | some w => (s.setSep st { u with queue := rest }).cmdFail clsSep st c 0x0401 w false
      | none =>
        if s.updating st c.shard then s else (s.setSep st { u with queue := rest }).sepGo st op c
  | _, _ => s

def execPrune (st : Fin 12) (s : State) : Result := done (s.sepStart st opPrune)

def execRegrow (st : Fin 12) (s : State) : Result := done (s.sepStart st opRegrow)

def execAudit (st : Fin 12) (s : State) : Result := done (s.sepStart st opAudit)

def execCollect (st : Fin 12) (s : State) : Result := done (s.sepStart st opCollect)

/-! ### Arrivals -/

/-- The request of a core's fetch-queue write to a window, before it has been carried out. -/
def State.arriving (s : State) (core id : Nat) : Option Req :=
  s.run.reqs.find? (fun r => r.id == id && r.core == core && !r.started)

/-- It is carried out: started, and its token waits for the command (R142, R292). -/
def State.arrived (s : State) (id : Nat) : State :=
  { s with run := { s.run with reqs := s.run.reqs.map (fun r =>
      if r.id = id then { r with started := true, waiting := true } else r) } }

def cmdWords (data : List Byte) : List Word := (wordsOf 4 data).map (BitVec.ofNat 32)

/-- A write reaches a command window (R142, R292, R519): a single aligned 64-byte write of a running plan's core queues
a command, or is held while the queue is full; any other form faults, with address 0, since no word of a command is at fault
(log entry 51); any other path is not executed. -/
def State.windowWrite (s : State) (cls st : Nat) (src : Issuer) (offset : Nat) (data : List Byte) : State :=
  match src with
  | .other => s.event cls st evDiscard (s.zAddr 0 (windowBase st + (if cls = clsSep then 0x1000 else 0) + offset))
  | .core core id =>
    match s.arriving core id with
    | none => s
    | some r =>
      if !s.planRuns then s.dropRequests [id]
      else if offset ≠ 0 ∨ data.length ≠ 64 then
        (s.arrived id).raise { code := if cls = clsSep then 0x0401 else 0x0801, cls := cls, inst := st, core := core,
                               entry := r.entry, desc := r.desc }
      else
        let c : BaseCmd := ⟨cmdWords data, .seg core r.entry r.desc id⟩
        if cls = clsSep then
          let u := s.sep st
          if 16 ≤ u.queue.length then s else (s.arrived id).setSep st { u with queue := u.queue ++ [c] }
        else
          let u := s.upd st
          if 16 ≤ u.queue.length then s else (s.arrived id).setUpd st { u with queue := u.queue ++ [c] }

def execSepCommandArrive (st : Fin 12) (src : Issuer) (offset : Nat) (data : List Byte) (s : State) : Result :=
  done (s.windowWrite clsSep st src offset data)

/-- Bytes that wait in a Separator's intake buffer. -/
def State.intakeBytes (s : State) (st : Nat) : Nat := ((s.sep st).held.map (fun w => w.2.length)).foldl (· + ·) 0

/-- The 256 KiB intake buffer has room for a write (R151). -/
def State.intakeRoom (s : State) (st n : Nat) : Bool := !s.power.hold || decide (s.intakeBytes st + n ≤ 2 ^ 18)

/-- An address in an intake window of this module. -/
def intakeAddr (a : Nat) : Bool :=
  match if zSpace a = 0 then windowAt (zOff a) else none with
  | some (.intake _ _ _) => true
  | _ => false

/-- A write of the fabric to this module that a full intake buffer holds, with its stack (R151). -/
def State.intakeHolds (s : State) (a n : Nat) : Option Nat :=
  match if zEndpoint a = s.moduleNum ∧ zSpace a = 0 then windowAt (zOff a) else none with
  | some (.intake st _ _) => if s.intakeRoom st n then none else some st
  | _ => none

/-- A write to an intake window (R151). -/
def State.intake (s : State) (st offset : Nat) (data : List Byte) : State :=
  let slot := offset / 2 ^ 28
  let ga := offset % 2 ^ 28 / 32
  let stray := (s.bump (Reg.SEP_STRAY_CANDIDATES st)).event clsSep st evDiscard (s.zAddr 0 (windowBase st + 2 ^ 32 + offset))
  if s.power.hold then s.setSep st { s.sep st with held := (s.sep st).held ++ [(offset, data)] }
  else match tfind (s.sep st).slots slot with
    | none => stray
    | some x =>
      let g : Geo := ⟨x.rows, x.k, x.pitch⟩
      if offset % 32 ≠ 0 ∨ data.length ≠ 32 ∨ g.groups ≤ ga then stray
      else
        let d := s.readRuns unitReader [(planeOff st x.bitmap (2 * ga), 2), (planeOff st x.cand (32 * ga), 32)]
        if d.bad then d.s
        else
          let w := leNat (d.data.getD 0 [])
          let new := ((wordsOf 2 data).mapIdx (fun p k => (p, k % 2 ^ 15))).filter (fun e =>
            !bitOf w e.1 && decide (e.1 < g.valid ga))
          let rec_ := mergeCand (candEntries (d.data.getD 1 [])) new
          let s := (d.s.writeStack unitReader (planeOff st x.cand (32 * ga)) rec_).s
          (s.setSep st { s.sep st with slots := tput (s.sep st).slots slot { x with delivered := true } }).bump
            (Reg.SEP_CANDIDATE_GROUPS st)

/-- A run of bytes written into an intake window: the writes of its groups, 32 bytes each where it covers them whole (log
entry 42). -/
def State.intakeRun (s : State) (st offset : Nat) (data : List Byte) : State :=
  let n := data.length
  if n = 0 then s
  else (List.range ((offset + n - 1) / 32 + 1 - offset / 32)).foldl (fun t i =>
    let lo := max offset (32 * (offset / 32 + i))
    let hi := min (offset + n) (32 * (offset / 32 + i) + 32)
    t.intake st lo ((data.drop (lo - offset)).take (hi - lo))) s

/-- The writes held during a warning, once it is over. -/
def State.intakeHeld (s : State) (st : Nat) : State :=
  (s.sep st).held.foldl (fun t w => t.intake st w.1 w.2) (s.setSep st { s.sep st with held := [] })

def execIntakeWrite (st : Fin 12) (offset : Nat) (data : List Byte) (s : State) : Result := done (s.intake st offset data)

end Sys2Proof.Machine
end

