-- ==== Sys2Proof/Machine/Rules.lean ====
section
/-!
DEFINITION. The arithmetic of the update engine: the record and its checks (R293, R294), the rules (R296, R297, R299,
R315), the working copy (R300, R301).
-/

namespace Sys2Proof.Machine

/-! ### The record (Table 11.1) -/

def updOp (c : BaseCmd) : Nat := fieldOf (c.word 0) 2 0
def updRule (c : BaseCmd) : Nat := fieldOf (c.word 0) 7 3
def updBudget (c : BaseCmd) : Nat := fieldOf (c.word 0) 11 10
def updFormat (c : BaseCmd) : Nat := fieldOf (c.word 0) 15 12
def updMirror (c : BaseCmd) : Bool := bitOf (c.word 0) 16
def updGeo (c : BaseCmd) : Geo := ⟨fieldOf (c.word 3) 23 0, fieldOf (c.word 4) 23 0, fieldOf (c.word 5) 23 0⟩
/-- KINDS of an EXPORT (Table 11.7). -/
def updKinds (c : BaseCmd) : Nat := fieldOf (c.word 2) 7 0
/-- Slots of a plane. -/
def updSlots (c : BaseCmd) : Nat := (updGeo c).groups * budgetOf (updBudget c)
def recordAddr (c : BaseCmd) : Nat := c.word 11 + 2 ^ 32 * c.word 12

def opUpdate : Nat := 1
def opApply : Nat := 2
def opDerive : Nat := 3
def opExport : Nat := 4
def opImport : Nat := 5

def State.rule (s : State) (c : BaseCmd) : Rule :=
  match s.run.plan with
  | none => { (default : Rule) with empty := true }
  | some p => (p.rules[updRule c]?).getD { (default : Rule) with empty := true }

/-- Bytes of a working copy's value and scale planes. -/
def valueBytes (c : BaseCmd) : Nat := updSlots c * elemBits (updFormat c) / 8
def scaleBytes (c : BaseCmd) : Nat := if isMx (updFormat c) then ceilDiv (updSlots c) 32 else 0
def mapBytes (c : BaseCmd) : Nat := if updBudget c = 0 then 0 else 2 * (updGeo c).groups

/-- Working-copy planes: record word, bytes. -/
def workingPlanes (c : BaseCmd) : List (Nat × Nat) :=
  (if updBudget c = 0 then [] else [(13, mapBytes c)]) ++ [(14, valueBytes c)] ++
    (if isMx (updFormat c) then [(15, scaleBytes c)] else [])

def momentPlanes (c : BaseCmd) (n : Nat) : List (Nat × Nat) := (List.range (min 2 n)).map (fun i => (7 + i, 4 * updSlots c))

/-- Planes an opcode uses: record word, bytes. -/
def updPlanes (c : BaseCmd) (r : Rule) : List (Nat × Nat) :=
  let n := updSlots c
  let mask := if updBudget c = 0 then [] else [(10, mapBytes c)]
  let op := updOp c
  if op = opUpdate then [(6, 4 * n)] ++ momentPlanes c r.moments ++ [(9, n)] ++ mask ++ [(11, 2 * n)] ++ workingPlanes c
  else if op = opApply then [(6, 4 * n)] ++ mask ++ [(12, 4 * n)] ++ workingPlanes c
  else if op = opDerive then [(6, 4 * n)] ++ mask ++ workingPlanes c
  else if op = opExport then
    let k := updKinds c
    (if bitOf k 1 then [(6, 4 * n)] else []) ++ (if bitOf k 2 then [(7, 4 * n)] else []) ++
      (if bitOf k 3 then [(8, 4 * n)] else []) ++ (if bitOf k 4 then [(9, n)] else []) ++
      (if bitOf k 0 then mask else []) ++ (if bitOf k 5 then workingPlanes c else [])
  else [(6, 4 * n)] ++ momentPlanes c r.moments ++ [(9, n)] ++ mask ++ workingPlanes c

/-- Planes a record names besides those its opcode uses: record word, bytes. -/
def namedPlanes (c : BaseCmd) (r : Rule) : List (Nat × Nat) :=
  let n := updSlots c
  let all := [(6, 4 * n), (7, 4 * n), (8, 4 * n), (9, n), (10, mapBytes c)] ++
    (if updOp c = opExport ∨ updOp c = opImport then [] else [(11, 2 * n), (12, 4 * n)]) ++
    [(13, mapBytes c), (14, valueBytes c), (15, scaleBytes c)]
  let used := (updPlanes c r).map (·.1)
  all.filter (fun p => c.word p.1 != 0 && !used.contains p.1)

/-- Words of the record at fault (R294); a refusal by journal state apart. -/
def State.updBad (s : State) (st : Nat) (c : BaseCmd) : List Nat :=
  let op := updOp c
  let r := s.rule c
  let w := fun (b : Bool) (i : Nat) => if b then [i] else []
  let known := decide (1 ≤ op) && decide (op ≤ 5)
  let named := fun (i : Nat) => decide (c.word i ≠ 0)
  w (!known || fieldOf (c.word 0) 31 17 != 0 || fieldOf (c.word 0) 9 8 != 0 || decide (6 ≤ updFormat c) || r.empty ||
      (op == opApply && r.kind != 4)) 0 ++
  w (fieldOf (c.word 1) 31 12 != 0) 1 ++
  w (op == opExport && decide (64 ≤ c.word 2)) 2 ++
  w (fieldOf (c.word 3) 31 24 != 0) 3 ++ w (fieldOf (c.word 4) 31 24 != 0) 4 ++
  w (fieldOf (c.word 5) 31 24 != 0 || !(updGeo c).pitchOk) 5 ++
  w (!r.empty && (named 7 != decide (1 ≤ r.moments))) 7 ++ w (!r.empty && (named 8 != decide (2 ≤ r.moments))) 8 ++
  w (updBudget c == 0 && named 10) 10 ++ w (updBudget c == 0 && named 13) 13 ++ w (!isMx (updFormat c) && named 15) 15 ++
  (if known then (updPlanes c r ++ namedPlanes c r).filterMap (fun p => if s.planeOk st c.shard (c.word p.1) p.2 then none else some p.1) else [])

/-! ### Bias correction (R296) -/

def fmt64 : Fmt := ⟨11, 52, 1023, 0x7FEFFFFFFFFFFFFF, true, 1023⟩

/-- A quotient rounded to binary64, as a quotient. -/
def round64 (n d : Nat) : Nat × Nat :=
  match magValue fmt64 (roundMag fmt64 none n d) with
  | .fin m e => magQuot m e
  | _ => (n, d)

/-- β^t of an exact β in binary64: numerator with its sign, denominator. -/
def pow64 (m e : Int) (t : Nat) : Int × Nat :=
  let p := m ^ t
  let q := magQuot p (e * t)
  let r := round64 q.1 q.2
  (if p < 0 then -(r.1 : Int) else r.1, r.2)

/-- c[t] = 1 / (1 − β^t), each operation in binary64, rounded once to FP32. -/
def biasOf (beta t : Nat) : Nat :=
  if t = 0 ∨ 255 ≤ t then f32One
  else match (f32 beta).operand with
    | .fin m e =>
      let p := pow64 m e t
      let x : Int := (p.2 : Int) - p.1
      let d := round64 x.natAbs p.2
      if d.1 = 0 then 0x7F800000
      else
        let q := round64 d.2 d.1
        quotF32 (decide (x < 0)) q.1 q.2
    | _ => f32NaN

/-! ### The lanes (R297) -/

/-- A slot's stored words. -/
structure SlotIn where
  m1   : Nat
  m2   : Nat
  age  : Nat
  w    : Nat
  g16  : Nat
  hadG : Bool
  dir  : Nat

/-- 1 − β rounded once to FP32. -/
def oneLess (beta : Nat) : Nat := f32Sub f32One beta

def slotGrad (r : Rule) (x : SlotIn) : Nat := f32Mul r.gradScale.toNat (x.g16 * 2 ^ 16)

/-- The moments pass: new m1, m2. -/
def momentsOf (r : Rule) (x : SlotIn) : Nat × Nat :=
  let g := slotGrad r x
  let b1 := r.beta1.toNat
  let b2 := r.beta2.toNat
  match r.kind with
  | 1 => (f32Fma b1 x.m1 g, x.m2)
  | 2 => (f32Fma b1 x.m1 (f32Mul (oneLess b1) g), f32Fma b2 x.m2 (f32Mul (oneLess b2) (f32Mul g g)))
  | 3 => (f32Fma b2 x.m1 (f32Mul (oneLess b2) g), f32Fma b1 x.m1 (f32Mul (oneLess b1) g))
  | 4 => (if r.moments = 1 then f32Fma b1 x.m1 g else x.m1, x.m2)
  | _ => (x.m1, x.m2)

def ageOf (x : SlotIn) : Nat := if x.hadG then min 255 (x.age + 1) else x.age

def signOf (w : Nat) : Nat :=
  match f32 w with
  | .nan => f32NaN
  | .inf n => if n then f32Neg f32One else f32One
  | .fin m _ => if m = 0 then 0 else if m < 0 then f32Neg f32One else f32One
  | .negZero => 0

/-- The master pass: the new master. -/
def masterOf (r : Rule) (eta lambda : Nat) (x : SlotIn) : Nat :=
  let u := match r.kind with
    | 0 => slotGrad r x
    | 1 => if r.nesterov then f32Fma r.beta1.toNat x.m1 (slotGrad r x) else x.m1
    | 2 =>
      let mh := if r.biasCorr then f32Mul x.m1 (biasOf r.beta1.toNat x.age) else x.m1
      let vh := if r.biasCorr then f32Mul x.m2 (biasOf r.beta2.toNat x.age) else x.m2
      f32Div mh (f32Add (f32Sqrt vh) r.eps.toNat)
    | 3 => signOf x.m2
    | _ => f32Mul r.dirScale.toNat x.dir
  f32Fma (if f32 eta = .nan then f32NaN else f32Neg eta) (f32Fma lambda x.w u) x.w

/-- R315: not finite. -/
def f32Wild (w : Nat) : Bool := decide ((w >>> 23) % 256 = 255)

/-- R315: a change of at least 2^(e − 127), or not finite. -/
def largeStep (e old new : Nat) : Bool :=
  decide (e ≠ 0xFF) &&
  (match (f32 old).operand, (f32 new).operand with
   | .fin m a, .fin n b =>
     let lo := min a b
     let d := n * 2 ^ (b - lo).toNat - m * 2 ^ (a - lo).toNat
     let q := magQuot d lo
     let t : Int := (e : Int) - 127
     decide (q.2 * 2 ^ t.toNat ≤ q.1 * 2 ^ (-t).toNat)
   | _, _ => true)

/-! ### Slots of a batch (R155, R299, R305) -/

/-- A kept slot of a batch: its index, its position, the slot of its gradient if it has one. -/
structure Kept where
  ix  : Nat
  pos : Nat
  g   : Option Nat

/-- Groups that slots s0 to s1 touch. -/
def groupSpan (b s0 s1 : Nat) : Nat × Nat := (s0 / b, ceilDiv s1 b - s0 / b)

/-- Kept slots of slots s0 to s1, and discarded gradients of the groups that begin there. -/
def keptSlots (c : BaseCmd) (masks wcs : List Nat) (s0 s1 : Nat) : List Kept × Nat :=
  let b := budgetOf (updBudget c)
  let span := groupSpan b s0 s1
  let one := fun (i : Nat) =>
    let ga := span.1 + i
    let v := (updGeo c).valid ga
    let mine := (keptOf (updBudget c) v (masks.getD i 0)).1
    let theirs := (keptOf (updBudget c) v (wcs.getD i 0)).1
    let ks := (mine.mapIdx (fun j p => (⟨ga * b + j, p, (theirs.findIdx? (· == p)).map (fun k => ga * b + k)⟩ : Kept))).filter
      (fun k => decide (s0 ≤ k.ix) && decide (k.ix < s1))
    (ks, if s0 ≤ ga * b then (theirs.filter (fun p => !mine.contains p)).length else 0)
  let all := (List.range span.2).map one
  (all.flatMap (·.1), (all.map (·.2)).foldl (· + ·) 0)

/-- Words of a plane read from slot s0 on. -/
def atSlot (ws : List Nat) (s0 ix : Nat) : Nat := ws.getD (ix - s0) 0

def putSlots (old : List Nat) (s0 : Nat) (new : List (Nat × Nat)) : List Nat :=
  old.mapIdx (fun i w => ((new.find? (fun x => x.1 == s0 + i)).map (·.2)).getD w)

def packWords (w : Nat) (xs : List Nat) : List Byte := xs.flatMap (leBytes w)

/-! ### The working copy (R300, R301) -/

structure Work where
  codes  : List Nat
  scales : List Nat
  clamps : Nat
  sum    : Nat

/-- A scale block of 32 slots: unused slots enter as +0 and hold zero. -/
def workBlock (fmt : Nat) (xs : List (Option (Nat × Nat))) : Work :=
  let b := encodeMx fmt (xs.map (fun x => match x with
    | some (w, g) => (f32 w, some g)
    | none => (.fin 0 0, none)))
  ⟨b.codes, [b.scale], b.clamps, if b.isNan then 0 else b.scale⟩

/-- A BF16 slot. -/
def workBf (x : Option (Nat × Nat)) : Nat :=
  match x with
  | some (w, g) => (encodeIeee 0 (some g) (f32 w)).1
  | none => 0

/-- Slots of a batch with their master values and draws. -/
def workOf (fmt : Nat) (xs : List (Option (Nat × Nat))) : Work :=
  if isMx fmt then
    ((List.range (ceilDiv xs.length 32)).map (fun i => workBlock fmt ((xs.drop (32 * i)).take 32))).foldl
      (fun a b => ⟨a.codes ++ b.codes, a.scales ++ b.scales, a.clamps + b.clamps, max a.sum b.sum⟩) ⟨[], [], 0, 0⟩
  else
    let cs := xs.map workBf
    ⟨cs, [], 0, (cs.map (biased 0)).foldl max 0⟩

end Sys2Proof.Machine
end

