-- ==== Sys2Proof/Machine/Update.lean ====
section
/-!
DEFINITION. The update engines (chapter 11): starting a command, its batches, the commit, the completion pass. Commands:
UPD_COMMAND_ARRIVE, UPDATE, APPLY, DERIVE, UPD_BATCH, COMPLETION_PASS,
INVALIDATION_ACK. EXPORT and IMPORT stand in Export.lean.
-/

namespace Sys2Proof.Machine

def execUpdCommandArrive (st : Fin 12) (src : Issuer) (offset : Nat) (data : List Byte) (s : State) : Result :=
  done (s.windowWrite clsUpd st src offset data)

def State.setRun (s : State) (st : Nat) (r : Option UpdRun) : State := s.setUpd st { s.upd st with cur := r }

def newRun (c : BaseCmd) (p : UpdPass) : UpdRun where
  cmd := c
  shard := c.shard
  pass := p
  batch := 0
  retries := []
  summary := 0
  completing := false
  upds := [c]
  redo := false
  ending := false

/-! ### Ends -/

/-- Zarixon address of a shard's journal entry. -/
def State.journalAddr (s : State) (st shard : Nat) : Nat := s.zAddr 0 ((s.journal st shard).getD 0)

/-- The engine leaves its command at a unit without data, whose fault has been raised already (Table 10.2). -/
def State.abandon (s : State) (st : Nat) (c : BaseCmd) (addr : Nat) : State :=
  match (s.upd st).cur with
  | none => if c.src = .host then s.hostDone clsUpd st 0x0701 addr else s
  | some _ => (s.setRun st none).cmdEnd clsUpd st c 0x0701 addr

/-- Epoch and STEP that the commit of a command gives the shard (R302, R304). -/
def State.commitsTo (s : State) (st : Nat) (c : BaseCmd) : Nat × Nat :=
  let e := s.epochOf st c.shard
  let op := updOp c
  if op = opUpdate ∨ op = opApply then (e + 1, (c.word 2 + 1) % 2 ^ 32) else (e, s.journalWord st c.shard 3)

/-- A command without a mirror commits at the end of its working pass. -/
def State.commitNow (s : State) (st : Nat) (r : UpdRun) : State :=
  let t := s.commitsTo st r.cmd
  let s := ((s.setEpoch st r.shard t.1).setJournalWord st r.shard 3 t.2).setState st r.shard 0
  let s := (s.setRun st none).forget st r.shard
  let s := r.upds.foldl (fun t c => t.cmdEnd clsUpd st c 0 0) s
  if r.completing then s.completed st r.shard else s

/-- The last pass has ended, and the cache has acknowledged what it wrote (R271, R301, R304, R308, R311): journal fields, then
the mirror. A plan that stopped ends here. -/
def State.updFinish (s : State) (st : Nat) (r : UpdRun) : State :=
  let c := r.cmd
  let s := (s.setJournal st r.shard 8 31 24 r.summary).setJournal st r.shard 8 23 16 (updFormat c * 16 + updBudget c)
  if r.ending then s.setRun st none
  else if updMirror c then
    let t := s.commitsTo st c
    let s := s.setRun st none
    let m := s.startMirror st r.shard t.1 t.2 ⟨c.word 10, c.word 6, updBudget c, updGeo c⟩ c.reader r.upds false r.completing
    match m.2 with
    | none => m.1
    | some a => r.upds.foldl (fun t c => t.cmdEnd clsUpd st c 0x0701 a) (m.1.inconsistent st r.shard)
  else s.commitNow st r

/-- The working pass has written its last bytes: it ends with the cache's acknowledgement (R271). -/
def State.awaitAck (s : State) (st : Nat) (r : UpdRun) : State :=
  (s.setRun st (some r)).setUpd st { (s.setRun st (some r)).upd st with acking := r.shard :: (s.upd st).acking }

/-- INVALIDATION_ACK: the writes count as complete, reads held under R23 go on, and the pass that waited ends. -/
def State.cacheAcked (s : State) (st : Nat) : State :=
  let u := s.upd st
  let s := s.setUpd st { u with acking := [], holding := u.holding.filter (fun x => !u.acking.contains x) }
  match u.cur with
  | some r => if r.pass = .working ∧ u.acking.contains r.shard then s.updFinish st r else s
  | none => s

def execInvalidationAck (st : Fin 12) (s : State) : Result := done (s.cacheAcked st)

/-- The moments pass is over: a DIRECTION rule waits for its direction (R304), in a completion pass for its segments. -/
def State.momentsDone (s : State) (st : Nat) (r : UpdRun) : State :=
  if (s.rule r.cmd).kind = 4 then
    let s := ((s.setState st r.shard 2).setBatch st r.shard 0).setRun st none
    if r.completing then s else s.cmdEnd clsUpd st r.cmd 0 0
  else s.setRun st (some { r with pass := .master, batch := 0, retries := [] })

/-! ### Batches (R305, R306, R307) -/

/-- What a batch would write, and its counters. -/
structure UpdBatch where
  s      : State
  ws     : List (Nat × List Byte)
  counts : State → State
  /-- the shard's own planes, the gradient or direction plane, could not be read, and the address of the unit -/
  badOwn : Bool
  badGrad : Bool
  badAt  : Nat
  summary : Nat
  /-- cycles in which its lanes round (R75) -/
  drew   : Nat
  /-- slots of the batch whose rounding draws (R68) -/
  draws  : List Nat

/-- Bytes of a plane of slots s0 to s1. -/
def slotRun (st : Nat) (c : BaseCmd) (word w s0 s1 : Nat) : Nat × Nat := (planeOff st (c.word word) (w * s0), w * (s1 - s0))

/-- Bitmap runs of the groups a batch touches: mask, working copy. -/
def mapRuns (st : Nat) (c : BaseCmd) (s0 s1 : Nat) : List (Nat × Nat) :=
  if updBudget c = 0 then []
  else
    let g := groupSpan (budgetOf (updBudget c)) s0 s1
    [(planeOff st (c.word 10) (2 * g.1), 2 * g.2), (planeOff st (c.word 13) (2 * g.1), 2 * g.2)]

/-- Gradient run of those groups. -/
def gradRun (st : Nat) (c : BaseCmd) (s0 s1 : Nat) : Nat × Nat :=
  let b := budgetOf (updBudget c)
  let g := groupSpan b s0 s1
  (planeOff st (c.word 11) (2 * b * g.1), 2 * b * g.2)

/-- A slot of the batch as the lanes see it. -/
def slotAt (_c : BaseCmd) (s0 g0 : Nat) (m1 m2 age w dir grads : List Nat) (k : Kept) : SlotIn where
  m1 := atSlot m1 s0 k.ix
  m2 := atSlot m2 s0 k.ix
  age := atSlot age s0 k.ix
  w := atSlot w s0 k.ix
  g16 := match k.g with
    | some i => grads.getD (i - g0) 0
    | none => 0
  hadG := k.g.isSome
  dir := atSlot dir s0 k.ix

def countIf {α : Type} (xs : List α) (p : α → Bool) : Nat := (xs.filter p).length

def badRead (d : Runs) (own : Bool) : UpdBatch := ⟨d.s, [], id, own, !own, d.at_, 0, 0, []⟩

/-- A batch of the moments pass. -/
def State.momentsBatch (s : State) (st : Nat) (r : UpdRun) (s0 s1 : Nat) : UpdBatch :=
  let c := r.cmd
  let rule := s.rule c
  let own := mapRuns st c s0 s1 ++ [slotRun st c 9 1 s0 s1] ++
    (List.range (min 2 rule.moments)).map (fun i => slotRun st c (7 + i) 4 s0 s1)
  let d := s.readRuns c.reader own
  if d.bad then badRead d true
  else
    let gr := d.s.readRuns c.reader [gradRun st c s0 s1]
    if gr.bad then badRead gr false
    else
      let k := if updBudget c = 0 then 0 else 2
      let masks := if k = 0 then [] else wordsOf 2 (d.data.getD 0 [])
      let wcs := if k = 0 then [] else wordsOf 2 (d.data.getD 1 [])
      let age := wordsOf 1 (d.data.getD k [])
      let m1 := wordsOf 4 (d.data.getD (k + 1) [])
      let m2 := wordsOf 4 (d.data.getD (k + 2) [])
      let g0 := (groupSpan (budgetOf (updBudget c)) s0 s1).1 * budgetOf (updBudget c)
      let ks := keptSlots c masks wcs s0 s1
      let xs := ks.1.map (fun q => (q.ix, slotAt c s0 g0 m1 m2 age [] [] (wordsOf 2 (gr.data.getD 0 [])) q))
      let ms := xs.map (fun x => (x.1, momentsOf rule x.2))
      let wild := countIf xs (fun x => f32Wild (slotGrad rule x.2))
      let wildM := (if 1 ≤ rule.moments then countIf ms (fun m => f32Wild m.2.1) else 0) +
        (if 2 ≤ rule.moments then countIf ms (fun m => f32Wild m.2.2) else 0)
      let ws := [((slotRun st c 9 1 s0 s1).1, packWords 1 (putSlots age s0 (xs.map (fun x => (x.1, ageOf x.2)))))] ++
        (if 1 ≤ rule.moments then [((slotRun st c 7 4 s0 s1).1, packWords 4 (putSlots m1 s0 (ms.map (fun m => (m.1, m.2.1)))))] else []) ++
        (if 2 ≤ rule.moments then [((slotRun st c 8 4 s0 s1).1, packWords 4 (putSlots m2 s0 (ms.map (fun m => (m.1, m.2.2)))))] else [])
      ⟨gr.s, ws, fun t => ((t.bumpBy (Reg.UPD_DISCARDED_GRADS st) ks.2).bumpBy (Reg.UPD_NONFINITE_GRADS st) wild).bumpBy
        (Reg.UPD_NONFINITE_MOMENTS st) wildM, false, false, 0, 0, 0, []⟩

/-- The master pass reads the gradient again for SGD and Nesterov MOMENTUM, the direction for DIRECTION. -/
def masterReads (st : Nat) (c : BaseCmd) (rule : Rule) (s0 s1 : Nat) : List (Nat × Nat) :=
  if rule.kind = 0 ∨ (rule.kind = 1 ∧ rule.nesterov) then [gradRun st c s0 s1]
  else if rule.kind = 4 then [slotRun st c 12 4 s0 s1] else []

/-- A batch of the master pass. -/
def State.masterBatch (s : State) (st : Nat) (r : UpdRun) (s0 s1 : Nat) : UpdBatch :=
  let c := r.cmd
  let rule := s.rule c
  let ages := if rule.kind = 2 then [slotRun st c 9 1 s0 s1] else []
  let own := mapRuns st c s0 s1 ++ [slotRun st c 6 4 s0 s1] ++ ages ++
    (if rule.kind = 4 then [] else (List.range (min 2 rule.moments)).map (fun i => slotRun st c (7 + i) 4 s0 s1))
  let d := s.readRuns c.reader own
  if d.bad then badRead d true
  else
    let gr := d.s.readRuns c.reader (masterReads st c rule s0 s1)
    if gr.bad then badRead gr false
    else
      let k := if updBudget c = 0 then 0 else 2
      let masks := if k = 0 then [] else wordsOf 2 (d.data.getD 0 [])
      let wcs := if k = 0 then [] else wordsOf 2 (d.data.getD 1 [])
      let w := wordsOf 4 (d.data.getD k [])
      let a := ages.length
      let age := if a = 0 then [] else wordsOf 1 (d.data.getD (k + 1) [])
      let m1 := wordsOf 4 (d.data.getD (k + 1 + a) [])
      let m2 := wordsOf 4 (d.data.getD (k + 2 + a) [])
      let extra := gr.data.getD 0 []
      let grads := if rule.kind = 4 then [] else wordsOf 2 extra
      let dir := if rule.kind = 4 then wordsOf 4 extra else []
      let g0 := (groupSpan (budgetOf (updBudget c)) s0 s1).1 * budgetOf (updBudget c)
      let ks := keptSlots c masks wcs s0 s1
      let eta := s.journalWord st c.shard 6
      let lam := s.journalWord st c.shard 7
      let xs := ks.1.map (fun q =>
        let x := slotAt c s0 g0 m1 m2 age w dir grads q
        (q.ix, x.w, masterOf rule eta lam x))
      let watch := fieldOf (s.reg (Reg.UPD_UPD_CONFIG st)) 15 8
      let wild := countIf xs (fun x => f32Wild x.2.2)
      let large := countIf xs (fun x => largeStep watch x.2.1 x.2.2)
      ⟨gr.s, [((slotRun st c 6 4 s0 s1).1, packWords 4 (putSlots w s0 (xs.map (fun x => (x.1, x.2.2)))))],
        fun t => ((t.bumpBy (Reg.UPD_SLOTS_UPDATED st) xs.length).bumpBy (Reg.UPD_NONFINITE_MASTERS st) wild).bumpBy
          (Reg.UPD_LARGE_STEPS st) large, false, false, 0, 0, 0, []⟩

/-- The lanes of a base die, as a set that rounds together. -/
def updLanes (st : Nat) : Nat := lanesOf (updGen st 0)

/-- A batch of the working pass (R300). Slot i of the batch is rounded in lane i mod 64, i div 64 cycles after the first cycle
in which the lanes may round (R75, R76). -/
def State.workingBatch (s : State) (st : Nat) (r : UpdRun) (s0 s1 : Nat) : UpdBatch :=
  let c := r.cmd
  let fmt := updFormat c
  let d := s.readRuns c.reader ((mapRuns st c s0 s1).take 1 ++ [slotRun st c 6 4 s0 s1])
  if d.bad then badRead d true
  else
    let dense := updBudget c = 0
    let masks := if dense then [] else wordsOf 2 (d.data.getD 0 [])
    let w := wordsOf 4 (d.data.getD (if dense then 0 else 1) [])
    let ks := (keptSlots c masks masks s0 s1).1
    let draw := fun (i : Nat) => s.genDraw (updGen st (i % 64)) (s.roundAt (updLanes st) + i / 64)
    let xs := (List.range (s1 - s0)).map (fun i =>
      if ks.any (fun k => k.ix == s0 + i) then some (w.getD i 0, draw i) else none)
    let o := workOf fmt xs
    let b := budgetOf (updBudget c)
    let g := groupSpan b s0 s1
    let g1 := if s0 ≤ g.1 * b then g.1 else g.1 + 1
    let maps := if dense then [] else
      [(planeOff st (c.word 13) (2 * g1), ((d.data.getD 0 []).drop (2 * (g1 - g.1))))]
    let vals := [(planeOff st (c.word 14) (s0 * elemBits fmt / 8), packElems fmt o.codes)]
    let scs := if isMx fmt then [(planeOff st (c.word 15) (s0 / 32), packWords 1 o.scales)] else []
    ⟨d.s, maps ++ vals ++ scs, fun t => t.bumpBy (Reg.UPD_MX_CLAMPS st) o.clamps, false, false, 0, o.sum, ceilDiv (s1 - s0) 64,
      (List.range (s1 - s0)).filter (fun i => (xs.getD i none).any (fun x => draws (f32 x.1)))⟩

def State.batchOf (s : State) (st : Nat) (r : UpdRun) (s0 s1 : Nat) : UpdBatch :=
  match r.pass with
  | .moments => s.momentsBatch st r s0 s1
  | .master => s.masterBatch st r s0 s1
  | _ => s.workingBatch st r s0 s1

/-- A batch that cannot be read (R307, R309). -/
def State.batchUnread (s : State) (st : Nat) (r : UpdRun) (own : Bool) (addr : Nat) : State :=
  let lost := own || (r.completing && r.pass == .moments)
  let s := if lost then s.inconsistent st r.shard else s
  let s := s.abandon st r.cmd addr
  if r.completing && !own && r.pass == .moments then
    s.raise { code := 0x0804, cls := clsUpd, inst := st, addr := s.journalAddr st r.shard }
  else s

/-- A batch is restored from the update engine's undo region (R305, R306). -/
def State.undoBatch (s : State) (st shard : Nat) (r : Reader) : State × Bool :=
  match (s.upd st).undo with
  | some u => if u.shard = shard then s.restoreBatch st 1 r u else (s, true)
  | none => (s, true)

/-- A generator of the base die found wrong is seeded again and counted, drawn from or not (R79); the answer is the slot of a
batch that it rounds in that cycle, where there is one. -/
def State.rngFault (s : State) (st : Nat) : State × Nat :=
  let d := (s.bump (Reg.UPD_RNG_FAULTS st)).draw
  let i := (Config.freeWord d.1).toNat % 1024
  (d.2.reseed (updGen st (i % 64)), i)

/-- A residue check, or the check of a generator that a rounding drew from, failed (R306, R79): the batch is restored, and
computed again twice at most, a working pass from its first batch. A working copy written in part stays held (R23). -/
def State.batchFailed (s : State) (st : Nat) (r : UpdRun) (s0 : Nat) : State :=
  let s := if r.pass = .working then s else (s.undoBatch st r.shard r.cmd.reader).1
  let n := tget 0 r.retries r.batch
  if n < 2 then
    (s.bump (Reg.UPD_BATCH_RETRIES st)).setRun st
      (some { r with retries := tput r.retries r.batch (n + 1), batch := if r.pass = .working then 0 else r.batch,
                     summary := if r.pass = .working then 0 else r.summary })
  else
    (s.setRun st none).cmdFail clsUpd st r.cmd 0x0802
      (s.zAddr 0 (planeOff st (r.cmd.word 6) (4 * s0))) true

/-- The journal names the batch, and undo holds what it overwrites (R305); a working pass holds reads of its working
copy from its first write (R23). -/
def State.openBatch (s : State) (st : Nat) (r : UpdRun) (ws : List (Nat × List Byte)) : State :=
  let keeps := fun (v : Nat) =>
    let d := (s.saveUndo st 1 r.cmd.reader (runsOfWrites ws)).s
    ((d.setUpd st { d.upd st with undo := some ⟨r.shard, r.batch, runsOfWrites ws⟩ }).setState st r.shard v).setBatch st
      r.shard r.batch
  match r.pass with
  | .moments => keeps 1
  | .master => keeps 3
  | _ =>
    let u := s.upd st
    ((s.setUpd st { u with holding := r.shard :: u.holding.filter (· != r.shard), acking := u.acking.filter (· != r.shard) }).setState
      st r.shard 4).setBatch st r.shard 0

/-- The batch is written; the pass goes on, or hands over. A batch written in a supply hold is done again (R447). -/
def State.closeBatch (s : State) (st : Nat) (r : UpdRun) (last : Bool) : State :=
  if s.power.hold then s.setRun st (some { r with redo := true })
  else if !last then s.setRun st (some { r with batch := r.batch + 1 })
  else match r.pass with
    | .moments => s.momentsDone st r
    | .master => s.setRun st (some { r with pass := .working, batch := 0, retries := [], summary := 0 })
    | _ => s.awaitAck st r

/-- A snapshot has still to copy the shard's working copy, of which the pass has written nothing (R319). -/
def State.snapWaits (s : State) (st shard : Nat) : Bool :=
  !(s.upd st).holding.contains shard && (match s.run.snap with
    | some n => n.left.contains (st, shard)
    | none => false)

/-- The engine has a batch of this pass to do. -/
def State.batchDue (s : State) (st : Nat) (r : UpdRun) : Bool :=
  !s.safety.stop && !(s.power.hold && r.redo) && !(r.pass == .sending) && !(r.pass == .fetching) &&
    !(r.pass == .working && ((s.upd st).acking.contains r.shard || s.snapWaits st r.shard))

/-- UPD_BATCH: 1,024 slots of the pass in progress. -/
def State.updBatch (s : State) (st : Nat) (residueOk parityOk : Bool) : State :=
  let p := if parityOk then (s, 1024) else s.rngFault st
  let s := p.1
  match (s.upd st).cur with
  | none => s
  | some r =>
    if !s.batchDue st r then s
    else
      let n := updSlots r.cmd
      let s0 := min n (1024 * r.batch)
      let s1 := min n (s0 + 1024)
      let b := s.batchOf st r s0 s1
      let t := b.s.roundedFor (updLanes st) b.drew
      if b.badOwn || b.badGrad then t.batchUnread st r b.badOwn b.badAt
      else if !residueOk then ((t.bump (Reg.UPD_RESIDUE_FAULTS st)).openBatch st r b.ws).batchFailed st r s0
      else if b.draws.contains p.2 then (t.openBatch st r b.ws).batchFailed st r s0
      else
        let s := t.openBatch st r b.ws
        let s := b.counts (s.writeRuns r.cmd.reader b.ws)
        s.closeBatch st { r with summary := max r.summary b.summary } (decide (n ≤ s1))

def execUpdBatch (st : Fin 12) (residueOk parityOk : Bool) (s : State) : Result := done (s.updBatch st residueOk parityOk)

/-! ### Starting a command -/

/-- States a command is accepted in (Table 11.5). -/
def stateSuits (op state : Nat) : Bool :=
  if op = opApply then decide (state = 2)
  else if op = opImport then decide (state = 0) || decide (state = 6)
  else decide (state = 0)

/-- HP_ACTIVE of a number. -/
def State.hp (s : State) (i : Nat) : Nat := s.reg (Reg.UPD_HP_ACTIVE i)

def State.keep (s : State) (st : Nat) (c : BaseCmd) : State :=
  let u := s.upd st
  s.setUpd st { u with kept := tput u.kept c.shard c, ruleOf := tput u.ruleOf c.shard (updRule c) }

/-- The step of the UPDATE that an APPLY continues. -/
def State.applyOf (s : State) (st : Nat) (c : BaseCmd) : BaseCmd :=
  match tfind (s.upd st).kept c.shard with
  | some k => { c with words := c.words.set 2 (k.words.getD 2 0) }
  | none => c

/-- UPDATE (R304, R310): a step already applied ends at once; η and λ go to the journal. -/
def State.updateNow (s : State) (st : Nat) (c : BaseCmd) : State :=
  if c.word 2 < s.journalWord st c.shard 3 then (s.bump (Reg.UPD_REPLAYS_SKIPPED st)).cmdEnd clsUpd st c 0 0
  else
    let r := s.rule c
    let s := (s.setJournalWord st c.shard 6 (s.hp r.lrHp)).setJournalWord st c.shard 7 (s.hp r.wdHp)
    (s.keep st c).setRun st (some (newRun c .moments))

def State.applyNow (s : State) (st : Nat) (c : BaseCmd) : State :=
  let c := s.applyOf st c
  (s.keep st c).setRun st (some (newRun c .master))

def State.deriveNow (s : State) (st : Nat) (c : BaseCmd) : State := (s.keep st c).setRun st (some (newRun c .working))

/-- A command whose shard is free, taken from the queue, reads the journal and begins, where its opcode suits the shard's
state. -/
def State.updGo (s : State) (st op : Nat) (c : BaseCmd) (go : State → BaseCmd → State) : State :=
  let j := s.openJournal c.reader st c.shard
  if !j.2 then j.1.cmdEnd clsUpd st c 0x0701 (j.1.journalAddr st c.shard)
  else if !stateSuits op (j.1.shardState st c.shard) then j.1.cmdFail clsUpd st c 0x0801 0 false
  else go j.1 c

/-- What a start of opcode `op` finds at the front of the queue: the command, when it is its turn (R292, R294, R24). -/
def State.updStart (s : State) (st op : Nat) (go : State → BaseCmd → State) : State :=
  let u := s.upd st
  match u.cur, u.queue with
  | none, c :: rest =>
    let mine := updOp c == op || !(decide (1 ≤ updOp c) && decide (updOp c ≤ 5))
    if !mine || s.power.hold then s
    else
      let s1 := s.setUpd st { u with queue := rest }
      if s.safety.stop then (s1.event clsUpd st evRefused 0).cmdEnd clsUpd st c 0 0 else
      match leastOf (s.updBad st c) with
      | some w => s1.cmdFail clsUpd st c 0x0801 w false
      | none =>
        if s.rewriting st c.shard || s.shardState st c.shard == 5 then s else s1.updGo st op c go
  | _, _ => s

def execUpdate (st : Fin 12) (s : State) : Result := done (s.updStart st opUpdate (fun t c => t.updateNow st c))

def execApply (st : Fin 12) (s : State) : Result := done (s.updStart st opApply (fun t c => t.applyNow st c))

def execDerive (st : Fin 12) (s : State) : Result := done (s.updStart st opDerive (fun t c => t.deriveNow st c))

/-! ### The completion pass (R308, R309) -/

/-- OWNED shards by stack and journal order. -/
def Plan.ownedShards (p : Plan) : List (Nat × Nat) :=
  (List.range 12).flatMap (fun st => (List.range 4096).filterMap (fun sh =>
    if p.regions.any (fun r => r.space == 1 && r.role == 1 && r.owned && r.shard == sh &&
        (stackOf (zOff r.base.toNat)).map (·.1) == some st) then some (st, sh) else none))

/-- Shards of the plan's shard table whose state needs work before the first entry: MOMENTS to MIRROR, and an OWNED one
that is INCONSISTENT. -/
def State.toComplete (s : State) : List (Nat × Nat) :=
  match s.run.plan with
  | none => []
  | some p =>
    let owned := p.ownedShards
    let all := (owned ++ p.shards.map (fun x => (x.stack, x.shard))).dedup
    all.filter (fun x =>
      let v := s.shardState x.1 x.2
      (decide (1 ≤ v) && decide (v ≤ 5)) || (decide (v = 6) && owned.contains x))

/-- The first OWNED INCONSISTENT shard that waits, by stack and journal order. -/
def State.firstLost (s : State) : Option (Nat × Nat) :=
  (s.run.complete.filter (fun x => s.shardState x.1 x.2 == 6)).foldl (fun m x => match m with
    | none => some x
    | some y => if x.1 < y.1 ∨ (x.1 = y.1 ∧ x.2 < y.2) then some x else some y) none

/-- A shard that cannot be completed (R309). -/
def State.incomplete (s : State) (st shard : Nat) : State :=
  (s.inconsistent st shard).raise { code := 0x0804, cls := clsUpd, inst := st, addr := s.journalAddr st shard }

/-- The master pass of a completion: from BATCH when the journal says MASTER, else from the first batch. -/
def State.completeMaster (s : State) (st shard : Nat) (c : BaseCmd) : State :=
  let b := if s.shardState st shard = 3 then fieldOf (s.journalWord st shard 0) 17 0 else 0
  (s.setUpd st { s.upd st with pairs := none }).setRun st
    (some { newRun c .master with batch := b, completing := true, upds := [] })

/-- The working pass of a completion: the mirror before it is superseded, and its commands end with the new one. -/
def State.completeWorking (s : State) (st shard : Nat) (c : BaseCmd) : State :=
  let m := s.mirrorOf st shard
  let s := match m with
    | some m => { s with mirrors := s.mirrors.filter (· != m) }
    | none => s
  (s.setUpd st { s.upd st with pairs := none }).setRun st
    (some { newRun c .working with completing := true, upds := (m.map (·.upds)).getD [] })

/-- After a shard's completion segments: the master pass, where it has not ended, or the working pass. -/
def State.completeRest (s : State) (st shard : Nat) (c : BaseCmd) : State :=
  if s.shardState st shard ≤ 3 then s.completeMaster st shard c else s.completeWorking st shard c

/-- The next completion segment of a DIRECTION shard, or the pass after the last (R308). -/
def State.completePairs (s : State) (st : Nat) (shard : Nat) (c : BaseCmd) : List (Nat × Nat) → State
  | [] => s.completeRest st shard c
  | (core, ix) :: _ =>
    match (s.core core).seg, s.descOf core ix with
    | none, some d =>
      let g := newSeg s none (default : Entry) ix d none (some st) 0
      let t := s.readTables core g
      match t.2.1 with
      | some x => (t.1.occupy core t.2.2).snagged core { t.2.2 with attempt := 1 } x
      | none => (rowPassCount (t.1.occupy core t.2.2) core d).startAttempt core t.2.2
    | _, _ => s

/-- A DIRECTION shard's segments begin; without an entry in the completion table it is lost. -/
def State.completeDirection (s : State) (st shard : Nat) (c : BaseCmd) : State :=
  match s.run.plan.bind (fun p => p.completions.find? (fun x => x.stack == st && x.shard == shard)) with
  | none => s.incomplete st shard
  | some x => (s.setUpd st { s.upd st with pairs := some (shard, x.pairs) }).completePairs st shard c x.pairs

/-- A completion pass begins on one shard. A DIRECTION shard runs its segments in every state but MOMENTS; in MIRROR the
working pass runs again. -/
def State.completeShard (s : State) (st shard : Nat) : State :=
  match tfind (s.upd st).kept shard with
  | none => s.incomplete st shard
  | some c =>
    let v := s.shardState st shard
    let dir := (s.rule c).kind = 4
    let t := if v = 1 ∨ v = 3 then s.undoBatch st shard c.reader else (s, true)
    let s := t.1
    if !t.2 then s.inconsistent st shard
    else if v = 1 then
      s.setRun st (some { newRun c .moments with batch := fieldOf (s.journalWord st shard 0) 17 0, completing := true, upds := [] })
    else if dir then s.completeDirection st shard c
    else s.completeRest st shard c

/-- COMPLETION_PASS: the next shard of a stack, or the next step of the one in hand. A shard that a Separator command rewrites
waits for its end (R24). -/
def State.completionPass (s : State) (st : Nat) : State :=
  if !s.run.run || s.run.stopped || s.run.selftest || !s.run.milkDue.isEmpty || s.power.hold || s.safety.stop ||
      (s.upd st).cur.isSome then s
  else match s.firstLost with
    | some x => s.raise { code := 0x0804, cls := clsUpd, inst := x.1, addr := s.journalAddr x.1 x.2 }
    | none =>
      match (s.upd st).pairs with
      | some (shard, ps) =>
        match tfind (s.upd st).kept shard with
        | some c => s.completePairs st shard c ps
        | none => s.incomplete st shard
      | none =>
        match s.run.complete.filter (fun x => x.1 == st && !s.mirrors.any (fun m =>
            m.stack == x.1 && m.shard == x.2 && m.completing)) with
        | [] => s
        | x :: _ => if s.rewriting st x.2 then s else s.completeShard st x.2

def execCompletionPass (st : Fin 12) (s : State) : Result := done (s.completionPass st)

end Sys2Proof.Machine
end

