-- ==== Sys2Proof/Machine/Export.lean ====
section
/-!
DEFINITION. Shard records: EXPORT and IMPORT (R316, R317), snapshots (R318 to R320). Commands: EXPORT, IMPORT,
SNAP_REQUEST, SNAPSHOT_RECORD_ACK.
-/

namespace Sys2Proof.Machine

/-! ### The record (Tables 11.6, 11.7) -/

/-- Planes of a kind, in payload order: record word, bytes. -/
def kindPlanes (c : BaseCmd) (kind : Nat) : List (Nat × Nat) :=
  let n := updSlots c
  match kind with
  | 0 => if updBudget c = 0 then [] else [(10, mapBytes c)]
  | 1 => [(6, 4 * n)]
  | 2 => [(7, 4 * n)]
  | 3 => [(8, 4 * n)]
  | 4 => [(9, n)]
  | _ => workingPlanes c

def recordPlanes (c : BaseCmd) (kinds : Nat) : List (Nat × Nat × Nat) :=
  ((List.range 6).filter (fun i => bitOf kinds i)).flatMap (fun i => (kindPlanes c i).map (fun p => (i, p.1, p.2)))

def padTo (n : Nat) (bs : List Byte) : List Byte := bs ++ List.replicate (roundUp bs.length n - bs.length) 0

def payloadBytes (c : BaseCmd) (kinds : Nat) : Nat := ((recordPlanes c kinds).map (fun p => roundUp p.2.2 512)).foldl (· + ·) 0

/-- The padded header. -/
def recordHeader (s : State) (st : Nat) (c : BaseCmd) (kinds snap : Nat) (payload : List Byte) : List Byte :=
  let j := fun (i : Nat) => s.journalWord st c.shard i
  let g := updGeo c
  let w := leBytes 4 (1 + kinds * 2 ^ 16 + updFormat c * 2 ^ 24 + updBudget c * 2 ^ 28) ++ leBytes 4 (j 9) ++ leBytes 4 2 ++
    leBytes 4 (j 10) ++ leBytes 12 0 ++ leBytes 4 g.rows ++ leBytes 4 g.k ++ leBytes 4 1 ++ leBytes 4 1 ++ leBytes 4 g.pitch ++
    leBytes 4 (j 1) ++ leBytes 4 (j 2) ++ leBytes 4 (j 3) ++ leBytes 4 (s.moduleNum * 2 ^ 20 + st * 2 ^ 16 + c.shard) ++
    leBytes 8 payload.length ++ leBytes 8 (crc64 payload) ++ leBytes 4 snap ++ leBytes 4 (updRule c) ++ leBytes 32 0
  padTo 512 (w ++ leBytes 8 (crc64 w))

/-- A shard's record, or the address of the unit without data that a plane's read met. -/
structure Formed where
  s    : State
  rec_ : List Byte
  bad  : Option Nat

/-- A shard's record is formed. A plane of the shard that cannot be read leaves it INCONSISTENT, whatever the record is for
(R307; log entry 30). -/
def State.formRecord (s : State) (st : Nat) (c : BaseCmd) (kinds snap : Nat) : Formed :=
  let d := s.readRuns c.reader ((recordPlanes c kinds).map (fun p => (planeOff st (c.word p.2.1) 0, p.2.2)))
  if d.bad then ⟨d.s.inconsistent st c.shard, [], some d.at_⟩
  else
    let payload := d.data.flatMap (padTo 512)
    ⟨d.s, recordHeader d.s st c kinds snap payload ++ payload, none⟩

/-! ### Where a record goes -/

/-- A Zarixon address of this module's memory with mapped bytes. -/
def State.ownMapped (s : State) (a n : Nat) : Bool :=
  zEndpoint a == s.moduleNum && decide (zSpace a < 2) && s.mapped (zSpace a) (zOff a) n

def State.isOwn (s : State) (a : Nat) : Bool := zEndpoint a == s.moduleNum && zSpace a != 4

/-- The peer an address names: its number, and whether it is a host. -/
def peerOf (a : Nat) : Nat × Bool := (zEndpoint a, zSpace a == 4)

/-- A run of bytes sent to another endpoint on a queue of the base dies. -/
def State.sendTo (s : State) (queue a : Nat) (use_ : RemoteUse) (bs : List Byte) : State :=
  let p := peerOf a
  let id := flowTo p.1 p.2 (s.basePlane queue) 1 queue
  let t := s.nextTag
  let s := t.2.addRemote ⟨t.1, p.1, p.2, BitVec.ofNat 64 a, bs.length, use_, []⟩
  s.sendRun id { s.header 0 1 queue p.1 p.2 with tag := t.1, addr := BitVec.ofNat 64 a, last := true } bs

/-- A READ of another endpoint on a queue of the base dies. -/
def State.readFrom (s : State) (queue a n : Nat) (use_ : RemoteUse) : State :=
  let p := peerOf a
  let id := flowTo p.1 p.2 (s.basePlane queue) 1 queue
  let t := s.nextTag
  let s := t.2.addRemote ⟨t.1, p.1, p.2, BitVec.ofNat 64 a, n, use_, []⟩
  s.sendBare id { s.header 1 1 queue p.1 p.2 with tag := t.1, addr := BitVec.ofNat 64 a, len := BitVec.ofNat 32 n,
                                                  last := true }

/-! ### EXPORT -/

/-- A base die's record written to this module's memory: to its own stack with the invalidation of R271, elsewhere as any
write. -/
def State.writeRecord (s : State) (r : Reader) (st a : Nat) (bs : List Byte) : Put :=
  if zSpace a = 0 ∧ st * stackBytes ≤ zOff a ∧ zOff a + bs.length ≤ (st + 1) * stackBytes then s.writeStack r (zOff a) bs
  else s.writeMem r (zSpace a) (zOff a) bs

def State.exportNow (s : State) (st : Nat) (c : BaseCmd) : State :=
  let a := recordAddr c
  let f := s.formRecord st c (updKinds c) 0
  let s := f.s
  match f.bad with
  | some x => s.cmdEnd clsUpd st c 0x0701 x
  | none =>
    if s.isOwn a then
      if s.ownMapped a f.rec_.length then
        let p := s.writeRecord c.reader st a f.rec_
        match p.bad with
        | none => p.s.cmdEnd clsUpd st c 0 0
        | some x => p.s.cmdEnd clsUpd st c 0x0701 (p.s.zAddr (zSpace a) x)
      else s.cmdFail clsUpd st c 0x0702 a false
    else if s.reachable (peerOf a).1 (peerOf a).2 then
      (s.sendTo (64 * st + 63) a (.export_ st) f.rec_).setRun st (some (newRun c .sending))
    else s.cmdFail clsUpd st c 0x0902 a false

def execExportShard (st : Fin 12) (s : State) : Result := done (s.updStart st opExport (fun t c => t.exportNow st c))

/-- A record sent to another endpoint has been written there. -/
def State.exportSent (s : State) (st : Nat) : State :=
  match (s.upd st).cur with
  | some r => if r.pass = .sending then (s.setRun st none).cmdEnd clsUpd st r.cmd 0 0 else s
  | none => s

/-! ### IMPORT (R317) -/

def headWord (rec_ : List Byte) (i : Nat) : Nat := leNat ((rec_.drop (4 * i)).take 4)

def headKinds (rec_ : List Byte) : Nat := fieldOf (headWord rec_ 0) 23 16

def headPayload (rec_ : List Byte) : Nat := headWord rec_ 16 + 2 ^ 32 * headWord rec_ 17

/-- The command with the working-copy format of the record, by which the record's planes are laid out. -/
def headCmd (c : BaseCmd) (rec_ : List Byte) : BaseCmd :=
  { c with words := c.words.set 0 (BitVec.ofNat 32
      (setField (c.word 0) 15 12 (fieldOf (headWord rec_ 0) 27 24))) }

/-- Bytes of the payload that a record's header stands for. -/
def headBytes (c : BaseCmd) (rec_ : List Byte) : Nat := payloadBytes (headCmd c rec_) (headKinds rec_)

/-- BUDGET of the header is the command's, and the journal's where the journal holds one (log entry 30). -/
def State.budgetSuits (s : State) (st : Nat) (c : BaseCmd) (rec_ : List Byte) : Bool :=
  let b := fieldOf (headWord rec_ 0) 29 28
  b == updBudget c && (s.journalWord st c.shard 8 == 0 || b == fieldOf (s.journalWord st c.shard 8) 17 16)

/-- The checks before anything is written. -/
def State.importOk (s : State) (st : Nat) (c : BaseCmd) (rec_ : List Byte) : Bool :=
  let j := fun (i : Nat) => s.journalWord st c.shard i
  let g := updGeo c
  let payload := (rec_.drop 512).take (headPayload rec_)
  decide (1 ≤ headWord rec_ 2 % 8) && decide (headWord rec_ 2 % 8 ≤ 4) &&
  decide (crc64 (rec_.take 120) = headWord rec_ 30 + 2 ^ 32 * headWord rec_ 31) &&
  decide (headKinds rec_ < 64) && decide (headPayload rec_ = headBytes c rec_) && decide (payload.length = headPayload rec_) &&
  decide (crc64 payload = headWord rec_ 18 + 2 ^ 32 * headWord rec_ 19) &&
  headWord rec_ 1 == j 9 && headWord rec_ 3 == j 10 && headWord rec_ 7 == j 11 && headWord rec_ 7 == g.rows &&
  headWord rec_ 8 == j 12 && headWord rec_ 8 == g.k && headWord rec_ 11 % 2 ^ 24 == j 13 && headWord rec_ 11 % 2 ^ 24 == g.pitch &&
  s.budgetSuits st c rec_ && bitOf (headKinds rec_) 1 &&
  (updBudget c == 0 || bitOf (headKinds rec_) 0)

/-- The planes of a payload, each with its record word. -/
def splitPayload : List (Nat × Nat × Nat) → List Byte → List (Nat × List Byte)
  | [], _ => []
  | p :: ps, bs => (p.2.1, bs.take p.2.2) :: splitPayload ps (bs.drop (roundUp p.2.2 512))

/-- Planes present written, the working copy within the command's planes; absent moments and ages zeroed. -/
def State.importPlanes (s : State) (st : Nat) (c : BaseCmd) (parts : List (Nat × List Byte)) : State :=
  let all := [6] ++ (if updBudget c = 0 then [] else [10]) ++ (if c.word 7 = 0 then [] else [7]) ++
    (if c.word 8 = 0 then [] else [8]) ++ [9]
  let s := all.foldl (fun t w =>
    match parts.find? (fun p => p.1 == w) with
    | some p => (t.writeStack c.reader (planeOff st (c.word w) 0) p.2).s
    | none => t.zeroStack c.reader (planeOff st (c.word w) 0) (if w = 9 then updSlots c else 4 * updSlots c)) s
  (workingPlanes c).foldl (fun t w =>
    match parts.find? (fun p => p.1 == w.1) with
    | some p => (t.writeStack c.reader (planeOff st (c.word w.1) 0) (p.2.take w.2)).s
    | none => t) s

/-- A mask that AUDIT would pass. -/
def maskOk (c : BaseCmd) (mask : List Byte) : Bool :=
  updBudget c == 0 || (auditOf (updBudget c) (updGeo c) [mask]).firstFail.isNone

/-- A record that has been read whole. -/
def State.importRecord (s : State) (st : Nat) (c : BaseCmd) (rec_ : List Byte) : State :=
  if !s.importOk st c rec_ then (s.setRun st none).cmdFail clsUpd st c 0x0803 (recordAddr c) false
  else
    let parts := splitPayload (recordPlanes (headCmd c rec_) (headKinds rec_)) (rec_.drop 512)
    let s := s.importPlanes st c parts
    let mask := ((parts.find? (fun p => p.1 == 10)).map (·.2)).getD []
    if maskOk c mask then
      let s := (s.setEpoch st c.shard (headWord rec_ 12 + 2 ^ 32 * headWord rec_ 13)).setJournalWord st c.shard 3 (headWord rec_ 14)
      (s.keep st c).setRun st (some (newRun c .working))
    else ((s.setRun st none).inconsistent st c.shard).cmdFail clsUpd st c 0x0803 (recordAddr c) false

/-- The record lies in this module, or is asked for header first. -/
def State.importNow (s : State) (st : Nat) (c : BaseCmd) : State :=
  let a := recordAddr c
  if s.isOwn a then
    if !s.ownMapped a 512 then s.cmdFail clsUpd st c 0x0702 a false
    else
      let h := s.readMem c.reader (zSpace a) (zOff a) 512
      match h.bad with
      | some x => h.s.cmdEnd clsUpd st c 0x0701 (h.s.zAddr (zSpace a) x)
      | none =>
        let n := headBytes c h.data
        if !h.s.ownMapped a (512 + n) then h.s.cmdFail clsUpd st c 0x0702 a false
        else
          let p := h.s.readMem c.reader (zSpace a) (zOff a + 512) n
          match p.bad with
          | some x => p.s.cmdEnd clsUpd st c 0x0701 (p.s.zAddr (zSpace a) x)
          | none => p.s.importRecord st c (h.data ++ p.data)
  else if s.reachable (peerOf a).1 (peerOf a).2 then
    (s.readFrom (64 * st + 63) a 512 (.import_ st false)).setRun st (some (newRun c .fetching))
  else s.cmdFail clsUpd st c 0x0902 a false

def execImportShard (st : Fin 12) (s : State) : Result := done (s.updStart st opImport (fun t c => t.importNow st c))

/-- Bytes of an answer in order. -/
def joinParts (n : Nat) (got : List (Nat × List Byte)) : List Byte :=
  let cells := got.flatMap (fun p => p.2.mapIdx (fun i b => (p.1 + i, b)))
  (List.range n).map (fun i => ((cells.find? (fun x => x.1 == i)).map (·.2)).getD 0)

/-- An answer to an IMPORT has come: the header, then the payload. -/
def State.importGot (s : State) (st : Nat) (payload : Bool) (bs : List Byte) (head : List Byte) : State :=
  match (s.upd st).cur with
  | none => s
  | some r =>
    if r.pass ≠ .fetching then s
    else if payload then s.importRecord st r.cmd (head ++ bs)
    else
      let n := headBytes r.cmd bs
      if n = 0 then s.importRecord st r.cmd bs
      else
        let s := s.readFrom (64 * st + 63) (recordAddr r.cmd + 512) n (.import_ st true)
        { s with fab := { s.fab with remote := s.fab.remote.map (fun q =>
            if q.use = .import_ st true then { q with left := n, got := [(n, bs)] } else q) } }

/-! ### Snapshots (R318 to R320) -/

/-- The command words that describe a shard as the journal and the regions give it (log entry 30). -/
def State.shardCmd (s : State) (st shard op : Nat) : BaseCmd :=
  let j := fun (i : Nat) => s.journalWord st shard i
  let fb := fieldOf (j 8) 23 16
  let pl := fun (role : Nat) => (s.planeOfRole st shard role).getD 0
  let w0 := op + (tget 0 (s.upd st).ruleOf shard) * 8 + (fb % 4) * 2 ^ 10 + (fb / 16) * 2 ^ 12
  ⟨([w0, shard, 0, j 11, j 12, j 13, pl 1, pl 2, pl 3, pl 5, pl 4, 0, 0, pl 7, pl 6, pl 8] : List Nat).map (BitVec.ofNat 32),
    .steward⟩

/-- Places of the plan's STAGING regions, as Zarixon addresses with their sizes. -/
def Plan.staging (p : Plan) : List (Nat × Nat) :=
  (p.regions.filter (fun r => r.role == 15 && (r.space == 1 || r.space == 2))).map (fun r => (r.base.toNat, r.size))

/-- The first place with room for n bytes after what is staged already, and the places left. -/
def takeStage (n : Nat) : List (Nat × Nat) → Option (Nat × List (Nat × Nat))
  | [] => none
  | (a, size) :: rest =>
    if n ≤ size then some (a, (a + roundUp n 512, size - roundUp n 512) :: rest)
    else (takeStage n rest).map (fun x => (x.1, (a, size) :: x.2))

def State.snapDest (s : State) : Nat := s.reg64 Reg.UPD_SNAP_DEST_LO

/-- A staged record goes to its destination. -/
def State.shipRecord (s : State) (st shard dest : Nat) (rec_ : List Byte) : State :=
  if s.isOwn dest then
    if s.ownMapped dest rec_.length then (s.writeMem unitReader (zSpace dest) (zOff dest) rec_).s
    else s.raise { code := 0x0702, cls := clsUpd, inst := st, addr := dest }
  else if s.reachable (peerOf dest).1 (peerOf dest).2 then s.sendTo (64 * (12 + st) + 63) dest (.ship st shard) rec_
  else s.raise { code := 0x0902, cls := clsUpd, inst := st, addr := dest }

/-- One shard's record is staged and sent on its way. -/
def stageShard (g : State × Snapshot) (x : Nat × Nat) : State × Snapshot :=
  let f := g.1.formRecord x.1 (g.1.shardCmd x.1 x.2 opExport) 0x20 g.2.id
  match f.bad, takeStage f.rec_.length g.2.room with
  | none, some (a, room) =>
    let s := (f.s.writeRecord unitReader x.1 a f.rec_).s
    (s.shipRecord x.1 x.2 (s.snapDest + g.2.off) f.rec_, { g.2 with room := room, off := g.2.off + f.rec_.length })
  | _, _ => (f.s, g.2)

def State.shipping (s : State) : Bool := s.fab.remote.any (fun r => match r.use with
  | .ship _ _ => true
  | _ => false)

def State.setSnap (s : State) (hi lo v : Nat) : State :=
  s.setReg Reg.UPD_SNAP_STATUS (setField (s.reg Reg.UPD_SNAP_STATUS) hi lo v)

/-- A working pass has written some of the shard's working copy, and not all (R319). -/
def State.midPass (s : State) (st shard : Nat) : Bool := (s.upd st).holding.contains shard

/-- The copies of a snapshot go on: a shard in a working pass is copied once the pass has ended (R319). -/
def State.goSnapshot (s : State) : State :=
  match s.run.snap with
  | none => s
  | some n =>
    let wait := fun (x : Nat × Nat) => s.midPass x.1 x.2
    let g := (n.left.filter (fun x => !wait x)).foldl stageShard (s, n)
    let left := n.left.filter wait
    let t := { g.1 with run := { g.1.run with snap := if left.isEmpty then none else some { g.2 with left := left } } }
    (t.setSnap 17 17 (bnat (!left.isEmpty))).setSnap 18 18 (bnat t.shipping)

/-- The copies of a requested snapshot begin, at a step boundary (R318). -/
def State.takeSnapshot (s : State) : State :=
  match s.run.snapId, s.run.plan with
  | some id, some p =>
    let s := { s with run := { s.run with snapId := none } }
    let s := s.setSnap 16 16 0
    if s.safety.stop then s
    else ({ s with run := { s.run with snap := some ⟨id.toNat, p.ownedShards, p.staging, 0⟩ } }).goSnapshot
  | _, _ => s

/-- SNAP_REQUEST (R318). -/
def State.snapRequest (s : State) (id : Nat) : State :=
  if id = 0 then s
  else if bitOf (s.reg Reg.UPD_SNAP_STATUS) 17 || bitOf (s.reg Reg.UPD_SNAP_STATUS) 18 then
    (s.setSnap 19 19 1).event clsUpd 0 evRefused 0
  else
    let s := ((s.setSnap 19 19 0).setSnap 16 16 1).setSnap 15 0 id
    { s with run := { s.run with snapId := some (BitVec.ofNat 32 id) } }

def execSnapRequest (id : Word) (s : State) : Result := done (s.snapRequest id.toNat)

/-- SNAPSHOT_RECORD_ACK: SHIPPING clears after the last (R320). -/
def State.shipAck (s : State) (st shard : Nat) : State :=
  match s.fab.remote.find? (fun r => r.use == .ship st shard) with
  | none => s
  | some r =>
    let s := s.dropRemote r.tag
    if s.shipping then s else s.setSnap 18 18 0

def execSnapshotRecordAck (st : Fin 12) (shard : Fin 4096) (s : State) : Result := done (s.shipAck st shard)

end Sys2Proof.Machine
end

