-- ==== Sys2Proof/Machine/MemTier.lean ====
section
/-!
DEFINITION. The Churns (R278 to R281), the Pail's leak (R282). Commands: CHURN_CHUNK, PAIL_LEAK.
-/

namespace Sys2Proof.Machine

/-! ### Working copy against master (R281) -/

/-- An update or a Separator command shows in the journal (step 1). -/
def State.journalBusy (s : State) (st shard : Nat) : Bool :=
  (decide (1 ≤ s.shardState st shard) && decide (s.shardState st shard ≤ 5)) ||
  fieldOf (s.journalWord st shard 0) 24 22 != 0

/-- A rounded magnitude is the value itself. -/
def exactMag (f : Fmt) (c n d : Nat) : Bool :=
  match magValue f c with
  | .fin m e => let q := magQuot m e; decide (q.1 * d = n * q.2)
  | _ => false

/-- The codes a slot may hold for a finite magnitude n / d: a and b of R68, or the clamp (step 4). -/
def gridCodes (f : Fmt) (sat : Bool) (neg : Bool) (n d : Nat) : List Nat :=
  let a := roundMag f (some 0) n d
  let cs := if exactMag f a n d then [a] else [a, a + 1]
  let lim := if sat then f.top else f.top + 1
  cs.map (fun c => bnat neg * 2 ^ (f.ebits + f.mbits) + min c lim)

/-- What a kept slot of master value x may hold in an MX block of this scale, in BF16. -/
def allowedMx (f : Fmt) (scale : Nat) (x : Num) : List Nat :=
  match x with
  | .fin m e =>
    if m = 0 then [0]
    else let q := magQuot m (e + 127 - scale); gridCodes f true (decide (m < 0)) q.1 q.2
  | x => [(mxElem f scale none x).1]

def allowedBf (x : Num) : List Nat :=
  match x with
  | .fin m e => if m = 0 then [0] else let q := magQuot m e; gridCodes (fmtOf 0) false (decide (m < 0)) q.1 q.2
  | x => [(encodeIeee 0 none x).1]

/-- A scale block: which of its slots hold what they may, given master words of kept slots, stored codes, stored scale. -/
def blockHolds (fmt : Nat) (xs : List (Option Nat)) (codes : List Nat) (scale : Nat) : List Bool :=
  let vals := xs.map (fun x => match x with
    | some w => f32 w
    | none => .fin 0 0)
  if isMx fmt then
    let b := encodeMx fmt (vals.map (fun v => (v, none)))
    let zero := (maxQuot vals).1 = 0
    (xs.mapIdx (fun i x => (i, x))).map (fun p =>
      let c := codes.getD p.1 0
      decide (b.scale = scale) && (match p.2 with
        | none => decide (c = 0)
        | some w =>
          if b.isNan then decide (c = 0)
          else match f32 w with
            | .inf n => (allowedMx (fmtOf fmt) scale (.inf n)).contains c
            | v => if zero then decide (c = 0) else (allowedMx (fmtOf fmt) scale v).contains c))
  else (xs.mapIdx (fun i x => (i, x))).map (fun p =>
    let c := codes.getD p.1 0
    match p.2 with
    | none => decide (c = 0)
    | some w => (allowedBf (f32 w)).contains c)

/-- A shard's planes as the comparison reads them, from 512-byte blocks of its stack. -/
structure WcPlanes where
  geo    : Geo
  bcode  : Nat
  fmt    : Nat
  master : Nat
  mask   : Nat
  bitmap : Nat
  value  : Nat
  scale  : Nat

def State.wcPlanes (s : State) (st shard : Nat) : WcPlanes :=
  let j := fun (i : Nat) => s.journalWord st shard i
  let p := fun (role : Nat) => (s.planeOfRole st shard role).getD 0
  ⟨⟨j 11, j 12, j 13⟩, fieldOf (j 8) 17 16, fieldOf (j 8) 23 20, p 1, p 4, p 7, p 6, p 8⟩

/-- A group's outcome: skipped, or whether its slots hold what they may. -/
inductive WcGroup where
  | skipped
  | same
  | differs (slot : Nat)
deriving DecidableEq, Repr

/-- Groups g0 to g1 of a shard, judged from the data of blocks b0 onwards and of groups h0 onwards. -/
def judge (w : WcPlanes) (g0 g1 h0 b0 : Nat) (masks maps masters codes scales : List Nat) : List (Nat × WcGroup) :=
  let b := budgetOf w.bcode
  let diff := fun (g : Nat) => w.bcode != 0 && masks.getD (g - h0) 0 != maps.getD (g - h0) 0
  let kept := fun (g : Nat) => (keptOf w.bcode (w.geo.valid g) (masks.getD (g - h0) 0)).1.length
  let word := fun (i : Nat) => if i % b < kept (i / b) then some (masters.getD (i - 32 * b0) 0) else none
  let block := fun (k : Nat) =>
    let touched := (List.range ((32 * k + 31) / b + 1 - 32 * k / b)).map (· + 32 * k / b)
    if isMx w.fmt && touched.any diff then none
    else some (blockHolds w.fmt ((List.range 32).map (fun i => word (32 * k + i)))
      ((List.range 32).map (fun i => codes.getD (32 * (k - b0) + i) 0)) (scales.getD (k - b0) 0))
  let blocks := (List.range (ceilDiv (g1 * b) 32 - b0)).map (fun i => (b0 + i, block (b0 + i)))
  (List.range (g1 - g0)).map (fun i =>
    let g := g0 + i
    if diff g then (g, .skipped)
    else
      let rs := (List.range b).map (fun j =>
        let x := g * b + j
        ((blocks.find? (fun p => p.1 == x / 32)).bind (·.2)).map (fun l => l.getD (x % 32) true))
      match (List.range b).find? (fun j => rs.getD j none == some false) with
      | some j => (g, .differs (g * b + j))
      | none => if rs.any (· == none) then (g, .skipped) else (g, .same))

/-- Elements of a packed run. -/
def unpackElems (fmt n : Nat) (bs : List Byte) : List Nat :=
  let x := leNat bs
  let w := elemBits fmt
  (List.range n).map (fun i => (x >>> (w * i)) % 2 ^ w)

def State.countGroup (s : State) (st : Nat) (w : WcPlanes) (x : Nat × WcGroup) : State :=
  match x.2 with
  | .skipped => s.bump (Reg.HBM_WC_SKIPPED st)
  | .same => s.bump (Reg.HBM_WC_COMPARED st)
  | .differs slot =>
    let a := s.zAddr 0 (planeOff st w.master (4 * slot) / 64 * 64)
    (s.bump (Reg.HBM_WC_DIVERGENCES st)).raise { code := 0x0703, cls := clsHbm, inst := st, addr := a } true

/-- A chunk as the Churn has read it: its space-0 offset, its bytes, and its 64-byte blocks without data. -/
structure ChunkRead where
  s     : State
  base  : Nat
  data  : List Byte
  bad   : List Nat

def chunkBytes : Nat := 4096

/-- The bytes of a chunk from m0 up to m1. -/
def ChunkRead.part (c : ChunkRead) (m0 m1 : Nat) : List Byte :=
  (c.data.drop (max m0 c.base - c.base)).take (min m1 (c.base + chunkBytes) - max m0 c.base)

/-- Some block of those is without data. -/
def ChunkRead.lost (c : ChunkRead) (m0 m1 : Nat) : Bool :=
  c.bad.any (fun i => overlap (c.base + 64 * i) 64 m0 (m1 - m0))

/-- The groups that begin in slots s0 to s1 of a shard's master plane are compared, and the bytes read for that beside the
chunk. Groups of a shard that step 1 passes over, and groups without data, count as skipped (log entry 46). -/
def State.compareShard (s : State) (c : ChunkRead) (st shard s0 s1 : Nat) : State × Nat :=
  let j := s.openJournal hostReader st shard
  let s := j.1
  let w := s.wcPlanes st shard
  let b := budgetOf w.bcode
  let g0 := ceilDiv s0 b
  let g1 := min w.geo.groups (ceilDiv s1 b)
  if g1 ≤ g0 then (s, 0)
  else if !j.2 || s.journalBusy st shard then (s.bumpBy (Reg.HBM_WC_SKIPPED st) (g1 - g0), 0)
  else
    let b0 := g0 * b / 32
    let b1 := ceilDiv (g1 * b) 32
    let h0 := 32 * b0 / b
    let h1 := min w.geo.groups (ceilDiv (32 * b1) b)
    let eb := elemBits w.fmt
    let m0 := planeOff st w.master (128 * b0)
    let m1 := planeOff st w.master (128 * b1)
    let edge := c.base + chunkBytes
    let runs := [(m0, c.base - m0), (edge, m1 - edge), (planeOff st w.value (4 * eb * b0), 4 * eb * (b1 - b0))] ++
      (if w.bcode = 0 then [] else
        [(planeOff st w.mask (2 * h0), 2 * (h1 - h0)), (planeOff st w.bitmap (2 * h0), 2 * (h1 - h0))]) ++
      (if isMx w.fmt then [(planeOff st w.scale b0, b1 - b0)] else [])
    let d := s.readRuns hostReader runs
    let read := (runs.map (·.2)).foldl (· + ·) 0
    if d.bad || c.lost m0 m1 then (d.s.bumpBy (Reg.HBM_WC_SKIPPED st) (g1 - g0), read)
    else
      let at_ := fun (i : Nat) => d.data.getD i []
      let k := if w.bcode = 0 then 3 else 5
      let out := judge w g0 g1 h0 b0 (if w.bcode = 0 then [] else wordsOf 2 (at_ 3))
        (if w.bcode = 0 then [] else wordsOf 2 (at_ 4)) (wordsOf 4 (at_ 0 ++ c.part m0 m1 ++ at_ 1))
        (unpackElems w.fmt (32 * (b1 - b0)) (at_ 2)) (wordsOf 1 (at_ k))
      (out.foldl (fun t x => t.countGroup st w x) d.s, read)

/-- The MASTER regions of OWNED shards that a chunk meets: shard, first and last slot in the chunk. -/
def State.mastersIn (s : State) (st off n : Nat) : List (Nat × Nat × Nat) :=
  match s.run.plan with
  | none => []
  | some p => (p.regionsIn st 1).filterMap (fun r =>
      let a := zOff r.base.toNat
      let lo := max a (st * stackBytes + off)
      let hi := min (a + r.size) (st * stackBytes + off + n)
      if r.owned && decide (lo < hi) then some (r.shard, (lo - a) / 4, (hi - a) / 4) else none)

/-! ### The Churn -/

/-- RATE: values above 64 taken as 64. -/
def State.churnRate (s : State) (st : Nat) : Nat := min 64 (fieldOf (s.reg (Reg.HBM_CHURN_CONFIG st)) 6 0)

def State.churnPos (s : State) (st : Nat) : Nat := s.reg64 (Reg.HBM_CHURN_POS_LO st)

/-- The first chunk from an offset on that lies in a valid code region. -/
def State.nextChunk (s : State) (st pos : Nat) : Option Nat :=
  (List.range 64).foldl (fun (best : Option Nat) i =>
    let w := s.reg (Reg.HBM_CODE_REGION st i)
    if bitOf w 31 && decide (pos / unit16 ≤ fieldOf w 23 12) then
      let at_ := max pos (fieldOf w 11 0 * unit16)
      match best with
      | none => some at_
      | some b => some (min b at_)
    else best) none

def State.churnOf (s : State) (st : Nat) : Churn := tget ⟨0, 0⟩ s.mem.churn st

def State.setChurn (s : State) (st : Nat) (c : Churn) : State :=
  { s with mem := { s.mem with churn := tputD ⟨0, 0⟩ s.mem.churn st c } }

/-- Slots that the ticks from then on have filled. -/
def State.slotsFrom (s : State) (tick : Nat) : Nat := (s.clock.ticks - tick) / 4096

/-- A walk ends: counted, and its length in slots, saturating. -/
def State.churnPass (s : State) (st : Nat) : State :=
  let c := s.churnOf st
  ((s.bump (Reg.HBM_CHURN_PASSES st)).setReg (Reg.HBM_CHURN_LAST_PASS st) (min (2 ^ 32 - 1) (s.slotsFrom c.began))).setChurn
    st { c with began := s.clock.ticks }

/-- Core cycles in a second. -/
def coreHz : Nat := 700000000

/-- A byte read counts against RATE. -/
def State.churnPaid (s : State) (st n : Nat) : State :=
  let c := s.churnOf st
  s.setChurn st { c with owed := c.owed - n * coreHz }

/-- The Churn reads: a trained stack, RATE not 0, no supply hold (R279). -/
def State.churning (s : State) (st : Nat) : Bool :=
  s.power.die && s.power.trained.contains st && !s.power.hold && !s.power.restarting && decide (0 < s.churnRate st)

/-- A cycle of the core clock in which a Churn reads lets it read RATE / 700,000,000 of a second's bytes. -/
def State.churnOwe (s : State) : State :=
  (List.range 12).foldl (fun t st =>
    if t.churning st then
      let c := t.churnOf st
      t.setChurn st { c with owed := c.owed + t.churnRate st * 2 ^ 20 }
    else t) s

/-- CHURN_LAG: KiB behind RATE, saturating. -/
def State.churnLag (s : State) (st : Nat) : Nat := min (2 ^ 32 - 1) ((s.churnOf st).owed / (coreHz * 2 ^ 10))

/-- A chunk is read, block by block; zeros stand for what a block without data lacks. -/
def State.readChunk (s : State) (st pos : Nat) : ChunkRead :=
  let base := st * stackBytes + pos
  (List.range 64).foldl (fun (c : ChunkRead) i =>
    let g := c.s.readStack hostReader (base + 64 * i) 64
    ⟨g.s, base, c.data ++ (g.data ++ List.replicate 64 0).take 64, if g.bad.isSome then c.bad ++ [i] else c.bad⟩) ⟨s, base, [], []⟩

/-- CHURN_CHUNK: the next 4 KiB in ascending order, block by block. -/
def State.churnChunk (s : State) (st : Nat) : State :=
  if !s.churning st then s
  else match s.nextChunk st (s.churnPos st) with
    | none => if s.churnPos st = 0 then s else (s.churnPass st).setReg64 (Reg.HBM_CHURN_POS_LO st) 0
    | some pos =>
      let c := s.readChunk st pos
      let w := if bitOf (c.s.reg (Reg.HBM_CHURN_CONFIG st)) 8 then
          (c.s.mastersIn st pos chunkBytes).foldl (fun (a : State × Nat) x =>
            let r := a.1.compareShard c st x.1 x.2.1 x.2.2
            (r.1, a.2 + r.2)) (c.s, 0)
        else (c.s, 0)
      let s := w.1.churnPaid st (chunkBytes + w.2)
      match s.nextChunk st (pos + chunkBytes) with
      | some next => s.setReg64 (Reg.HBM_CHURN_POS_LO st) next
      | none => (s.churnPass st).setReg64 (Reg.HBM_CHURN_POS_LO st) ((s.nextChunk st 0).getD 0)

def execChurnChunk (st : Fin 12) (s : State) : Result := done (s.churnChunk st)

/-! ### The Pail -/

/-- A block of the register map that stands: it has a page 0. -/
def blkStands (b : Blk) : Bool := (pageRows b.cls b.inst 0).isSome

/-- A block's Pail: its place among the `leaks`. -/
def pailKey (b : Blk) : Nat := 256 * b.cls + b.inst

/-- Slots of 4,096 ticks gone by. -/
def State.slotsGone (s : State) : Nat := s.slotsFrom 0

/-- A boundary of 2^LEAK_EXP slots has passed since the block's last leak. -/
def State.leakDue (s : State) (b : Blk) : Bool :=
  let period := 2 ^ fieldOf (s.reg (Reg.PAIL_CONFIG b.cls b.inst)) 20 16
  decide (tget 0 s.clock.leaks (pailKey b) / period < s.slotsGone / period)

/-- L falls by 1 if it is above 0. -/
def State.pailLeak (s : State) (b : Blk) : State :=
  let v := s.reg (Reg.PAIL_LEVEL b.cls b.inst)
  let s := { s with clock := { s.clock with leaks := tput s.clock.leaks (pailKey b) s.slotsGone } }
  s.setReg (Reg.PAIL_LEVEL b.cls b.inst) (fieldOf v 31 16 * 2 ^ 16 + (fieldOf v 15 0 - 1))

/-- PAIL_LEAK: 2^LEAK_EXP slots have gone. -/
def execPailLeak (b : Blk) (s : State) : Result := done (if blkStands b && s.leakDue b then s.pailLeak b else s)

end Sys2Proof.Machine
end

