-- ==== Sys2Proof/Machine/Reduce.lean ====
section
/-!
DEFINITION. The reduction engines (R358 to R365). Command: RED_HOLD_RELEASE. A REDUCE frame comes in through FabricRx.
-/

namespace Sys2Proof.Machine

/-- Key of an entry of a variant's table. -/
def redKey (variant idx : Nat) : Nat := 4096 * variant + idx

/-- The variant that runs the step carried in a TAG: the step now running or the one before it (R359). -/
def State.variantOf (s : State) (step20 : Nat) : Option Nat :=
  if s.run.step % 2 ^ 20 = step20 then some s.run.variant
  else match s.run.before with
    | some v => if (s.run.step + 2 ^ 20 - 1) % 2 ^ 20 = step20 then some v else none
    | none => none

def State.redEntry (s : State) (key : Nat) : Option RedEntry := s.run.plan.bind (fun p => tfind p.reductions key)

def State.redState (s : State) (key : Nat) : RedState := tget ⟨0, []⟩ s.fab.redState key

def State.setRedState (s : State) (key : Nat) (r : RedState) : State :=
  { s with fab := { s.fab with redState := tput s.fab.redState key r } }

def State.redLine (s : State) (key unit : Nat) : Option RedLine :=
  s.fab.redLines.find? (fun l => l.entry == key && l.unit == unit)

def State.dropLine (s : State) (key unit : Nat) : State :=
  { s with fab := { s.fab with redLines := s.fab.redLines.filter (fun l => !(l.entry == key && l.unit == unit)) } }

def State.setLine (s : State) (l : RedLine) : State :=
  let t := s.dropLine l.entry l.unit
  { t with fab := { t.fab with redLines := t.fab.redLines ++ [l] } }

/-- Units of an entry. -/
def RedEntry.units (e : RedEntry) : Nat := ceilDiv e.length 512

/-- Bytes of a unit. -/
def RedEntry.unitBytes (e : RedEntry) (u : Nat) : Nat := min 512 (e.length - 512 * u)

def RedEntry.unitAddr (e : RedEntry) (u : Nat) : Nat := e.dest.toNat + 512 * u

/-- Accumulation lines in use by an engine. -/
def State.linesBusy (s : State) (engine : Nat) : Nat :=
  (s.fab.redLines.filter (fun l => (s.redEntry l.entry).any (fun e => e.engine == engine))).length

def linesMax : Nat := 3072

def modRes : Int := 2 ^ 31 - 1

/-! ### Lines (R360, R363) -/

/-- A contribution's element: its integer in units of 2^-133, its tag. -/
def redValue (w : Nat) : Int × Nat :=
  match decodeElem 0 w with
  | .fin m e => (m * 2 ^ (e + 133).toNat, 0)
  | .negZero => (0, 0)
  | .inf n => (0, if n then 2 else 1)
  | .nan => (0, 3)

/-- A contribution in an empty line, or on top of one. -/
def RedLine.add (l : RedLine) (op : Nat) (bs : List Byte) : RedLine :=
  if op = 1 then { l with count := l.count + 1, sums := bs.mapIdx (fun i b => max (l.sums.getD i 0) (b.toNat : Int)) }
  else
    let vs := (wordsOf 2 bs).map redValue
    { l with count := l.count + 1, sums := vs.mapIdx (fun i v => l.sums.getD i 0 + v.1),
             tags := vs.mapIdx (fun i v => joinTag (l.tags.getD i 0) v.2),
             residue := (((l.residue : Int) + (vs.map (·.1)).foldl (· + ·) 0) % modRes).toNat }

/-- The residue of a line's accumulators equals that of its contributions. -/
def RedLine.residueOk (l : RedLine) (op : Nat) : Bool :=
  op == 1 || decide (((l.sums.foldl (· + ·) 0) % modRes).toNat = l.residue)

def redNum (sum : Int) (tag : Nat) : Num :=
  match tag with
  | 0 => .fin sum (-133)
  | 1 => .inf false
  | 2 => .inf true
  | _ => .nan

/-- The unit's bytes, and its non-finite elements. -/
def RedLine.bytes (l : RedLine) (op : Nat) : List Byte × Nat :=
  if op = 1 then (l.sums.map (fun x => BitVec.ofNat 8 x.toNat), 0)
  else
    let cs := l.sums.mapIdx (fun i x => (encodeIeee 0 none (redNum x (l.tags.getD i 0))).1)
    (packWords 2 cs, (cs.filter (fun c => (c >>> 7) % 256 == 255)).length)

/-! ### Completion (R361, R362) -/

/-- The journal of the entry's shard shows an update in progress (R304): a gradient that is complete now came early, and
its unit stays in its line (`RedLine.full`) until the update has left WORKING (R25, R361). -/
def State.redHeld (s : State) (e : RedEntry) : Bool :=
  e.hold && decide (1 ≤ s.shardState e.stack e.shard) && decide (s.shardState e.stack e.shard ≤ 4)

/-- A unit waits in its line: for the shard's update, or for room in the intake buffer it goes to (R151). -/
def State.unitWaits (s : State) (e : RedEntry) (u : Nat) : Bool :=
  s.redHeld e || (s.intakeHolds (e.unitAddr u) (e.unitBytes u)).isSome

/-- All units done: the signal, the done bits, the step. -/
def State.redFinish (s : State) (key : Nat) (e : RedEntry) : State :=
  let r := s.redState key
  if r.done.length < e.units then s
  else
    let s := s.setRedState key ⟨r.step + 1, []⟩
    if e.signalEn then s.signal e.signalCore e.signalTok else s

/-- A unit's destination: mapped memory, or a window of a base die (R519). -/
def State.redMapped (s : State) (a n : Nat) : Bool :=
  s.ownMapped a n || (zEndpoint a == s.moduleNum && zSpace a == 0 && (windowAt (zOff a)).isSome)

/-- A unit's bytes written there; an intake window takes its groups, a command window takes no such write. -/
def State.redPut (s : State) (a : Nat) (bs : List Byte) : Put :=
  match if zSpace a = 0 then windowAt (zOff a) else none with
  | some (.intake st slot o) => ⟨s.intakeRun st (slot * 2 ^ 28 + o) bs, bs.length, none⟩
  | some (.upd st o) => ⟨s.windowWrite clsUpd st .other o bs, bs.length, none⟩
  | some (.sep st o) => ⟨s.windowWrite clsSep st .other o bs, bs.length, none⟩
  | none => s.writeMem unitReader (zSpace a) (zOff a) bs

/-- A completed unit: compared, rounded, written, done. -/
def State.redWrite (s : State) (l : RedLine) (e : RedEntry) : State :=
  let a := e.unitAddr l.unit
  let s := s.dropLine l.entry l.unit
  if !l.residueOk e.op then
    (s.bump (Reg.FABRIC_RED_RESIDUE_FAULTS e.engine)).raise { code := 0x0905, cls := clsFabric, inst := e.engine, addr := a } true
  else if !s.redMapped a (e.unitBytes l.unit) then
    s.raise { code := 0x0702, cls := clsFabric, inst := e.engine, addr := a }
  else
    let b := l.bytes e.op
    let p := s.redPut a b.1
    match p.bad with
    | some _ => p.s
    | none =>
      let s := (p.s.bump (Reg.FABRIC_RED_UNITS_WRITTEN e.engine)).bumpBy (Reg.FABRIC_RED_NONFINITE e.engine) b.2
      let r := s.redState l.entry
      (s.setRedState l.entry { r with done := r.done ++ [l.unit] }).redFinish l.entry e

/-- A unit's line after a contribution. A unit completed while the shard's update runs is held there, never merged into
that update (R25). -/
def State.redAdd (s : State) (key : Nat) (e : RedEntry) (u : Nat) (bs : List Byte) : State :=
  let l := ((s.redLine key u).getD ⟨key, u, 0, [], [], 0, false⟩).add e.op bs
  if l.count < e.expect then s.setLine l
  else if s.unitWaits e u then s.setLine { l with full := true }
  else (s.setLine l).redWrite l e

/-! ### A block (R359, R362, R364) -/

/-- What became of a REDUCE block: summed or refused for good, or refused with BUSY. -/
structure Reduced where
  s    : State
  busy : Bool

/-- A unit that takes no further contribution. -/
def State.unitClosed (s : State) (key : Nat) (u : Nat) : Bool :=
  (s.redState key).done.contains u || (match s.redLine key u with
    | some l => l.full
    | none => false)

/-- A contribution of `bs` at byte offset `off` of entry idx for a step. -/
def State.reduceBlock (s : State) (plane idx step20 off : Nat) (bs : List Byte) : Reduced :=
  let step := fun (inst : Nat) =>
    (⟨s.raise { code := 0x0903, cls := clsFabric, inst := inst, addr := idx * 2 ^ 20 + step20 }, false⟩ : Reduced)
  match s.variantOf step20 with
  | none => step plane
  | some v =>
    let key := redKey v idx
    match s.redEntry key with
    | none => ⟨s.event clsFabric plane evDiscard 0, false⟩
    | some e =>
      let last := off + bs.length
      if (s.redState key).step % 2 ^ 20 ≠ step20 then step e.engine
      else if off % 512 ≠ 0 ∨ e.length < last ∨ (last % 512 ≠ 0 ∧ last ≠ e.length) then
        ⟨s.raise { code := 0x0906, cls := clsFabric, inst := e.engine, addr := e.dest.toNat + off }, false⟩
      else
        let us := (List.range (ceilDiv bs.length 512)).map (· + off / 512)
        match us.find? (s.unitClosed key) with
        | some u => ⟨s.raise { code := 0x0904, cls := clsFabric, inst := e.engine, addr := e.unitAddr u }, false⟩
        | none =>
          let new := (us.filter (fun u => (s.redLine key u).isNone)).length
          if new ≠ 0 ∧ linesMax < s.linesBusy e.engine + new then ⟨s.bump (Reg.FABRIC_RED_FULL_NAKS e.engine), true⟩
          else ⟨us.foldl (fun t u => t.redAdd key e u ((bs.drop (512 * u - off)).take 512)) s, false⟩

/-- A line whose unit is complete and waits for nothing any more. -/
def State.lineFree (s : State) (l : RedLine) : Bool := l.full && (s.redEntry l.entry).any (fun e => !s.unitWaits e l.unit)

/-- RED_HOLD_RELEASE: the shard's update has left MOMENTS to WORKING, and a unit held under R25 is written. -/
def State.redRelease (s : State) (idx unit : Nat) : State :=
  match s.fab.redLines.find? (fun l => s.lineFree l && l.entry % 4096 == idx % 4096 && l.unit == unit) with
  | none => s
  | some l => match s.redEntry l.entry with
    | none => s
    | some e => s.redWrite l e

/-- Units that waited for room in an intake buffer are written, once there is (R151). -/
def State.redIntake (s : State) : State :=
  s.fab.redLines.foldl (fun t l => match t.redEntry l.entry with
    | some e => if t.lineFree l && intakeAddr (e.unitAddr l.unit) then t.redWrite l e else t
    | none => t) s

def execRedHoldRelease (entry : Nat) (unit : Nat) (s : State) : Result := done (s.redRelease entry unit)

/-! ### Steps (R362, R365) -/

/-- Plan start and an accepted retry: every entry takes the step; a retry discards every line in progress. -/
def State.redStart (s : State) (step : Nat) (retry : Bool) : State :=
  match s.run.plan with
  | none => s
  | some p => { s with fab := { s.fab with redLines := if retry then [] else s.fab.redLines,
                                           redState := p.reductions.map (fun e => (e.1, ⟨step, []⟩)) } }

/-- A step boundary: the entries of the variant chosen that have no unit in progress begin the next step anew. -/
def State.redBoundary (s : State) (variant next : Nat) : State :=
  { s with fab := { s.fab with redState := s.fab.redState.map (fun e =>
      if e.1 / 4096 = variant ∧ !s.fab.redLines.any (fun l => l.entry == e.1) then (e.1, ⟨next, []⟩) else e) } }

end Sys2Proof.Machine
end

