-- ==== Sys2Proof/Machine/Restore.lean ====
section
/-!
DEFINITION. Restoring from the twin (R454, R455): generation headers, images, the shard's planes. Commands:
RESTORE_START, RESTORE_ABORT.
-/

namespace Sys2Proof.Machine

def State.setRestore (s : State) (r : Option Restore) : State := { s with power := { s.power with restore := r } }

/-- Word i of a generation header (Table 15.4). -/
def hdrWord (h : List Byte) (i : Nat) : Nat := leNat ((h.drop (4 * i)).take 4)

def hdrEpoch (h : List Byte) : Nat := hdrWord h 1 + 2 ^ 32 * hdrWord h 2
def hdrLength (h : List Byte) : Nat := hdrWord h 4 + 2 ^ 32 * hdrWord h 5
def hdrCrc (h : List Byte) : Nat := hdrWord h 6 + 2 ^ 32 * hdrWord h 7
def hdrDigest (h : List Byte) : Nat := hdrWord h 8 + 2 ^ 32 * hdrWord h 9
def hdrValid (h : List Byte) : Bool := bitOf (hdrWord h 10) 0

def Place.gen (p : Place) (g : Nat) : Nat := if g = 0 then p.gen0.toNat else p.gen1.toNat

/-- READs of a stream outstanding at once, and the bytes of each (R455). -/
def restoreReads : Nat := 64
def restorePart : Nat := 32768

def Restore.job (r : Restore) (st : Nat) : Option RestoreJob := r.jobs.find? (fun j => j.stack == st)

/-- The stream of a stack that has this shard in progress. -/
def State.restoreJob (s : State) (st shard : Nat) : Option RestoreJob :=
  (s.power.restore.bind (fun r => r.job st)).filter (fun j => j.left.head? == some shard)

def State.setJob (s : State) (j : RestoreJob) : State :=
  { s with power := { s.power with restore := s.power.restore.map (fun r =>
      { r with jobs := r.jobs.map (fun x => if x.stack = j.stack then j else x) }) } }

/-- A restore stays as it is asked to, sends READs and commits: the binding with its source is mutual (R467), it is not to be
aborted, and no safety stop holds (R409). -/
def State.restoreGoes (s : State) : Bool :=
  s.bindMutual && !s.safety.stop && s.power.restore.any (fun r => !r.aborting)

/-- A stack's stream ends; with the last one the restore (Table 15.11). -/
def State.endJob (s : State) (st : Nat) (failed : Bool) : State :=
  match s.power.restore with
  | none => s
  | some r =>
    let jobs := r.jobs.filter (fun j => j.stack != st)
    { s with power := { s.power with
        restoreFailed := s.power.restoreFailed || failed
        restoreDone := s.power.restoreDone || jobs.isEmpty
        restore := if jobs.isEmpty then none else some { r with jobs := jobs } } }

/-- READs of both headers of the shard in turn; a shard without a place in the mirror map has no generation (R454 step 1). -/
def State.askHeaders (s : State) (j : RestoreJob) (shard : Nat) : State :=
  match s.twinPlace j.stack shard with
  | none => s
  | some p => [0, 1].foldl (fun t g => t.readFrom (64 * j.stack + 63) (p.gen g) 64 (.headers j.stack shard g)) (s.setJob j)

/-- A shard is left: the stream's next one, or its end. A shard without a place fails at once. -/
def State.nextShard : Nat → State → RestoreJob → State
  | 0, s, j => s.endJob j.stack true
  | n + 1, s, j =>
    let j := { j with gen := 0, tried := [], headers := [[], []], asked := 0, got := [] }
    match j.left with
    | [] => s.endJob j.stack false
    | shard :: rest =>
      if !s.restoreGoes then s.endJob j.stack true
      else if (s.twinPlace j.stack shard).isSome then s.askHeaders j shard
      else
        let s := ((s.inconsistent j.stack shard).bump Reg.POWER_RESTORE_FAILS)
        State.nextShard n { s with power := { s.power with restoreFailed := true } } { j with left := rest }

def State.restoreOn (s : State) (j : RestoreJob) : State := State.nextShard (j.left.length + 1) s j

/-- No generation of the shard could be taken: INCONSISTENT. -/
def State.restoreLost (s : State) (j : RestoreJob) (shard : Nat) : State :=
  let s := (s.inconsistent j.stack shard).bump Reg.POWER_RESTORE_FAILS
  { s with power := { s.power with restoreFailed := true } }.restoreOn { j with left := j.left.drop 1 }

/-- A complete generation of this shard of this module; an image has bytes. -/
def State.genGood (s : State) (st shard : Nat) (h : List Byte) : Bool :=
  hdrValid h && hdrLength h != 0 && decide (hdrWord h 0 = s.moduleNum * 2 ^ 20 + st * 2 ^ 16 + shard)

/-- The complete generation of higher epoch among those not tried. -/
def State.bestGen (s : State) (j : RestoreJob) (shard : Nat) : Option Nat :=
  let ok := fun (g : Nat) => !j.tried.contains g && s.genGood j.stack shard (j.headers.getD g [])
  match ok 0, ok 1 with
  | true, true => some (if hdrEpoch (j.headers.getD 0 []) < hdrEpoch (j.headers.getD 1 []) then 1 else 0)
  | true, false => some 0
  | false, true => some 1
  | false, false => none

/-- One READ more of the image in progress, where it has more. -/
def State.askPart (s : State) (st shard : Nat) : State :=
  match s.restoreJob st shard, s.twinPlace st shard with
  | some j, some p =>
    let n := min restorePart (hdrLength (j.headers.getD j.gen []) - j.asked)
    if n = 0 then s
    else (s.setJob { j with asked := j.asked + n }).readFrom (64 * st + 63) (p.gen j.gen + 64 + j.asked) n
      (.image st shard j.gen j.asked)
  | _, _ => s

/-! ### The planes -/

/-- The masks and slots of an image, group by group. -/
def imageParts (bcode groups : Nat) (image : List Byte) : List Byte × List Byte :=
  if bcode = 0 then ([], image)
  else
    let b := 4 * budgetOf bcode
    ((List.range groups).flatMap (fun g => (image.drop ((2 + b) * g)).take 2),
     (List.range groups).flatMap (fun g => (image.drop ((2 + b) * g + 2)).take b))

/-- Runs of n image bytes from an offset on: the command word of their plane, their offset in it, where they begin in the
bytes, and their number (R311). -/
def imageRuns (bcode off n : Nat) : List (Nat × Nat × Nat × Nat) :=
  if bcode = 0 then [(6, off, 0, n)]
  else
    let b := 4 * budgetOf bcode
    let u := 2 + b
    (List.range (ceilDiv (off + n) u - off / u)).flatMap (fun i =>
      let g := off / u + i
      let cut := fun (w lo len plane : Nat) =>
        let x := max off lo
        let y := min (off + n) (lo + len)
        if x < y then [(w, plane + (x - lo), x - off, y - x)] else []
      cut 10 (u * g) 2 (2 * g) ++ cut 6 (u * g + 2) b (b * g))

/-- A part of an image is written as it comes (R454 step 2). -/
def State.writePart (s : State) (st shard off : Nat) (bs : List Byte) : State :=
  let c := s.shardCmd st shard opImport
  (imageRuns (updBudget c) off bs.length).foldl (fun t x =>
    (t.writeStack c.reader (planeOff st (c.word x.1) x.2.1) ((bs.drop x.2.2.1).take x.2.2.2)).s) s

/-- Steps 3 and 4 of R454 once the digest holds: false when the mask fails its audit. -/
def State.restorePlanes (s : State) (st shard : Nat) (h image : List Byte) : State × Bool :=
  let c := s.shardCmd st shard opImport
  let parts := imageParts (updBudget c) (updGeo c).groups image
  let s := s.importPlanes st c ([(6, parts.2)] ++ (if updBudget c = 0 then [] else [(10, parts.1)]))
  let s := (s.setEpoch st shard (hdrEpoch h)).setJournalWord st shard 3 (hdrWord h 3)
  let s := (s.setState st shard 0).setJournal st shard 0 30 30 1
  if maskOk c parts.1 then
    let s := (s.keep st c).setRun st (some (newRun c .working))
    ((List.range (ceilDiv (updSlots c) 1024)).foldl (fun t _ => t.updBatch st true true) s, true)
  else (s, false)

/-- What RESTORE_OLDEST_STEP, _NEWEST_STEP and _MIB show. -/
def State.restoreSteps (s : State) (step : Nat) : State :=
  (s.setReg Reg.POWER_RESTORE_OLDEST_STEP (min (s.reg Reg.POWER_RESTORE_OLDEST_STEP) step)).setReg
    Reg.POWER_RESTORE_NEWEST_STEP (max (s.reg Reg.POWER_RESTORE_NEWEST_STEP) step)

/-- The image of the best generation is asked for, in as many READs as a stream has outstanding. -/
def State.askImage (s : State) (j : RestoreJob) (shard : Nat) : State :=
  match s.bestGen j shard with
  | none => s.restoreLost j shard
  | some g =>
    let s := s.setJob { j with gen := g, tried := g :: j.tried, asked := 0, got := [] }
    (List.range restoreReads).foldl (fun t _ => t.askPart j.stack shard) s

/-- An image has come whole. -/
def State.imageWhole (s : State) (j : RestoreJob) (shard : Nat) (p : Place) : State :=
  let h := j.headers.getD j.gen []
  let image := joinParts (hdrLength h) j.got
  if crc64 image = hdrDigest h then
    let w := s.restorePlanes j.stack shard h image
    if w.2 then
      ((w.1.restoreSteps (hdrWord h 3)).bump Reg.POWER_RESTORE_SHARDS).restoreOn { j with left := j.left.drop 1 }
    else
      (w.1.raise { code := 0x0803, cls := clsUpd, inst := j.stack, addr := p.gen j.gen }).restoreLost j shard
  else
    (s.raise { code := 0x0B04, cls := clsPower, inst := 0, addr := p.gen j.gen }).askImage j shard

/-- A part of an image has come: it is written, the next READ goes out, and with the last part the digest is compared. In a
safety stop (R409) and without a mutual binding (R467) the shard is left as it is, INCONSISTENT. -/
def State.imageGot (s : State) (st shard g off : Nat) (bs : List Byte) : State :=
  match s.restoreJob st shard, s.twinPlace st shard with
  | some j, some p =>
    if j.gen ≠ g then s
    else if s.safety.stop || !s.bindMutual then s.restoreLost j shard
    else
      let j := { j with got := j.got ++ [(off, bs)] }
      let bytes := ((s.power.restore.map (·.bytes)).getD 0) + bs.length
      let s := { s with power := { s.power with restore := s.power.restore.map (fun (r : Restore) => { r with bytes := bytes }) } }
      let s := (s.setReg Reg.POWER_RESTORE_MIB (bytes / 2 ^ 20)).setJob j
      let s := s.writePart st shard off bs
      if (j.got.map (fun x => x.2.length)).foldl (· + ·) 0 < hdrLength (j.headers.getD g []) then s.askPart st shard
      else s.imageWhole j shard p
  | _, _ => s

/-- A header has come; with the second one the choice is made. -/
def State.headerGot (s : State) (st shard g : Nat) (bs : List Byte) : State :=
  match s.restoreJob st shard with
  | none => s
  | some j =>
    let j := { j with headers := j.headers.set g bs }
    if j.headers.any (·.isEmpty) then s.setJob j
    else if !s.restoreGoes then s.endJob st true
    else s.askImage j shard

/-- The peer of a restore READ is gone. -/
def State.restoreCut (s : State) (st shard : Nat) : State :=
  match s.restoreJob st shard with
  | some j => s.restoreLost j shard
  | none => s

/-! ### The commands -/

/-- One stream for each stack that has shards to restore, in journal order; with none the restore is done at once. -/
def State.restoreAll (s : State) (src : Nat) (left : List (Nat × Nat)) : State :=
  let jobs := (List.range 12).filterMap (fun st =>
    let mine := (left.filter (fun x => x.1 == st)).map (·.2)
    if mine.isEmpty then none else some (⟨st, mine, 0, [], [], 0, []⟩ : RestoreJob))
  if jobs.isEmpty then { s with power := { s.power with restoreDone := true } }
  else jobs.foldl (fun t j => t.restoreOn j) (s.setRestore (some ⟨src, jobs, false, 0⟩))

/-- RESTORE_CONTROL.START; refused unless a plan is loaded and none runs, while an activation is armed (R477), while a
restore runs, while the binding with the source is not mutual (R467; log entry 32), or in a safety stop (R409). -/
def State.restoreStart (s : State) (only : Bool) : State :=
  let src := fieldOf (s.reg Reg.POWER_RESTORE_SOURCE) 11 0
  match s.run.plan with
  | none => s.event clsPower 0 evRefused Reg.POWER_RESTORE_CONTROL
  | some p =>
    if s.planRuns || s.boot.armed.isSome || s.power.restore.isSome || !s.bindMutual || s.twin != some src || s.safety.stop then
      s.event clsPower 0 evRefused Reg.POWER_RESTORE_CONTROL
    else
      let left := p.ownedShards.filter (fun x => !only || s.shardState x.1 x.2 == 6)
      let s := { s with power := { s.power with restoreFailed := false, restoreDone := false } }
      let s := ((s.setReg Reg.POWER_RESTORE_OLDEST_STEP (2 ^ 32 - 1)).setReg Reg.POWER_RESTORE_NEWEST_STEP 0).setReg
        Reg.POWER_RESTORE_MIB 0
      s.restoreAll src left

def execRestoreStart (onlyInconsistent : Bool) (s : State) : Result := done (s.restoreStart onlyInconsistent)

/-- RESTORE_CONTROL.ABORT: the restore stops after the shard in progress. -/
def State.restoreAbort (s : State) : State :=
  match s.power.restore with
  | some r => s.setRestore (some { r with aborting := true })
  | none => s

def execRestoreAbort (s : State) : Result := done s.restoreAbort

end Sys2Proof.Machine
end

