-- ==== Sys2Proof/Machine/FabricTx.lean ====
section
/-!
DEFINITION. The sending side at the ports: frames (R333, R338, R340, R351, R352), retry and unreachable peers (R338),
credits (R355 to R357), ports and planes (R366 to R368), rekeying (R344). Commands: FRAME_SEND, RETRY_TIMEOUT,
CREDIT_RETURN, PORT_DOWN, PORT_DOWN_HOLD_EXPIRY, PAUSE_FRAME, MACSEC_REKEY.
-/

namespace Sys2Proof.Machine

/-! ### Configuration -/

def State.retryTimeout (s : State) (c : Nat) : Nat := max 1 (fieldOf (s.reg (Reg.FABRIC_RETRY_CONFIG c)) 15 0)

def State.retryLimit (s : State) (c : Nat) : Nat := max 1 (fieldOf (s.reg (Reg.FABRIC_RETRY_CONFIG c)) 23 16)

def State.grantMax (s : State) (c : Nat) : Nat := max 1 (fieldOf (s.reg (Reg.FABRIC_CREDIT_CONFIG c)) 7 0)

def State.satWindow (s : State) (c : Nat) : Nat := max 1 (fieldOf (s.reg (Reg.FABRIC_CREDIT_CONFIG c)) 20 16)

def State.portDownHold (s : State) (c : Nat) : Nat := max 1 (fieldOf (s.reg (Reg.FABRIC_LINK_CONFIG c)) 15 0)

/-- The module has its number (R332). -/
def State.numbered (s : State) : Bool := bitOf (s.reg (Reg.FABRIC_MODULE_NUMBER 0)) 12

/-! ### Planes (R366 to R368, R371) -/

def State.inPeerSet (s : State) (num : Nat) : Bool := s.run.plan.any (fun p => p.peers.contains num)

/-- The flows of a lost plane move to the other one, with what they sent and was not acknowledged to be sent again first
(R368). -/
def TxFlow.moves (f : TxFlow) (plane : Nat) : TxFlow :=
  if f.id.plane = plane then
    { f with blocks := f.blocks.map (fun b => if b.sent && b.cargo.hdr.nblk != 0 then { b with again := true, busy := false } else b) }
  else f

/-- A plane becomes unavailable, known from a slot on. -/
def State.losePlane (s : State) (plane at_ : Nat) : State :=
  let new := !s.planeOut plane
  let first := match tfind s.fab.planeLost plane with
    | some x => min x at_
    | none => at_
  let s := { s with fab := { s.fab with planeLost := tput s.fab.planeLost plane first } }
  if new then
    let s := if s.planeOut (1 - plane) then s else { s with fab := { s.fab with tx := s.fab.tx.map (·.moves plane) } }
    s.event clsFabric plane evLink 0
  else s

/-- The Steward's notice of a lost plane, on the other one, to every peer of the plan's peer set (R367). -/
def State.sendNotices (s : State) (plane : Nat) : State :=
  match s.run.plan with
  | none => s
  | some p => p.peers.foldl (fun t n =>
      if t.joinedOn n false (1 - plane) then
        let h := t.header 12 2 stewardQueue n false
        t.sendBare (flowTo n false (1 - plane) 2 stewardQueue)
          { h with len := BitVec.ofNat 32 plane, phaseTag := BitVec.ofNat 32 s.slot, last := true }
      else t) s

/-- A detection by this module. -/
def State.planeFails (s : State) (plane : Nat) : State :=
  if s.planeOut plane then s else (s.losePlane plane s.slot).sendNotices plane

/-! ### Unreachable peers (R338) -/

/-- Everything this module keeps for a peer in its retry stores. -/
def State.dropFlows (s : State) (peer : Nat) (host : Bool) : State :=
  { s with fab := { s.fab with tx := s.fab.tx.map (fun f =>
      if f.id.peer = peer ∧ f.id.host = host then { f with blocks := [] } else f) } }

/-- Base-die commands and a restore that waited for a peer end (log entry 31). -/
def State.endUse (s : State) (code : Nat) (r : RemoteReq) : State :=
  match r.use with
  | .export_ st => match (s.upd st).cur with
    | some c => if c.pass = .sending then (s.setRun st none).cmdFail clsUpd st c.cmd code r.addr.toNat false else s
    | none => s
  | .import_ st _ => match (s.upd st).cur with
    | some c => if c.pass = .fetching then (s.setRun st none).cmdFail clsUpd st c.cmd code r.addr.toNat false else s
    | none => s
  | .ship st _ =>
    let s := s.raise { code := code, cls := clsFabric, inst := s.planeFor (64 * (12 + st) + 63), addr := r.addr.toNat }
    if s.shipping then s else s.setSnap 18 18 0
  | .headers st sh _ | .image st sh _ _ =>
    (s.raise { code := code, cls := clsFabric, inst := s.planeFor (64 * st + 63), addr := r.addr.toNat }).restoreCut st sh
  | _ => s

/-- A request ends with a fault, and what waited for it. -/
def State.endRequest (code : Nat) (s : State) (r : RemoteReq) : State := (s.failRequest code r).endUse code r

/-- These requests end with PEER_UNREACHABLE, and what waited for them. -/
def State.endRequests (s : State) (rs : List RemoteReq) : State := rs.foldl (State.endRequest 0x0902) s

/-- The last join with an endpoint has ended: a binding with it is not mutual until the twin has joined again (R467). -/
def State.unconfirm (s : State) (peer : Nat) (host : Bool) : State :=
  if !host && s.twin == some peer then { s with boot := { s.boot with confirmed := false } } else s

/-- Requests to a peer end with PEER_UNREACHABLE (R338, R344). -/
def State.cutOff (s : State) (peer : Nat) (host : Bool) : State :=
  ((s.endRequests (s.fab.remote.filter (fun r => r.peer == peer && r.host == host))).dropFlows peer host).unconfirm peer host

/-- Queue that a request travels on (R345). -/
def State.remoteQueue (s : State) (r : RemoteReq) : Nat :=
  match r.use with
  | .fetch id _ => ((s.run.reqs.find? (fun q => q.id == id)).map (fun q => 64 * q.core + q.fq)).getD 0
  | .export_ st | .import_ st _ | .headers st _ _ | .image st _ _ _ | .mirror st _ => 64 * st + 63
  | .ship st _ => 64 * (12 + st) + 63

/-- Requests to a peer on one plane end with PEER_UNREACHABLE: its join there has ended, and a new one begins (R344). -/
def State.cutPlane (s : State) (peer : Nat) (host : Bool) (plane : Nat) : State :=
  s.endRequests (s.fab.remote.filter (fun r =>
    let own := s.planeFor (s.remoteQueue r)
    r.peer == peer && r.host == host && (own == plane || s.livePlane own == plane)))

/-- A peer found unreachable on a plane. -/
def State.unreachable (s : State) (peer : Nat) (host : Bool) (plane : Nat) : State :=
  if s.joinedOn peer host plane then
    let s := s.modPeer peer host plane (fun p => { p with unreachable := true })
    let s := (s.bump (Reg.FABRIC_UNREACHABLE_EVENTS plane)).event clsFabric plane evLink 0
    let s := if !host && s.inPeerSet peer then s.planeFails plane else s
    if s.reachable peer host then s else s.cutOff peer host
  else s

/-! ### Resends (R338, R364) -/

def TxFlow.modBlock (f : TxFlow) (seq : Word) (g : TxBlock → TxBlock) : TxFlow :=
  { f with blocks := f.blocks.map (fun b => if b.cargo.hdr.nblk ≠ 0 ∧ b.sent ∧ b.cargo.hdr.seq = seq then g b else b) }

def TxFlow.block (f : TxFlow) (seq : Word) : Option TxBlock :=
  f.blocks.find? (fun b => b.cargo.hdr.nblk != 0 && b.sent && b.cargo.hdr.seq == seq)

/-- A block is to be sent again; past RETRY_LIMIT its peer is unreachable instead. -/
def State.resend (s : State) (id : FlowId) (seq : Word) (counted : Bool) : State :=
  let f := s.txFlow id
  match f.block seq with
  | none => s
  | some b =>
    let plane := s.livePlane id.plane
    if counted && decide (s.retryLimit plane ≤ b.resends) then s.unreachable id.peer id.host plane
    else s.setTx (f.modBlock seq (fun x => { x with again := true, busy := false, resends := x.resends + bnat counted }))

def ticksSince (s : State) (cycle : Nat) : Nat := (s.clock.now - cycle) / 7

/-- RETRY_TIMEOUT: no acknowledgement within RETRY_TIMEOUT ticks of its last sending. -/
def execRetryTimeout (f : FlowId) (seq : Word) (s : State) : Result :=
  done (match (s.txFlow f).block seq with
  | none => s
  | some b =>
    if b.again || decide (ticksSince s b.sentAt < s.retryTimeout (s.livePlane f.plane)) then s
    else s.resend f seq (!b.busy))

/-! ### Credits (R355 to R357) -/

def State.creditOf (s : State) (peer : Nat) (host : Bool) (plane : Nat) : Credit :=
  (s.fab.credits.find? (fun c => c.peer == peer && c.host == host && c.plane == plane)).getD
    ⟨peer, host, plane, 0, 0, none, none⟩

def State.setCredit (s : State) (c : Credit) : State :=
  let same := fun (x : Credit) => x.peer == c.peer && x.host == c.host && x.plane == c.plane
  if s.fab.credits.any same then
    { s with fab := { s.fab with credits := s.fab.credits.map (fun x => if same x then c else x) } }
  else { s with fab := { s.fab with credits := s.fab.credits ++ [c] } }

def State.pool (s : State) (c : Nat) : Nat := tget 0 s.fab.pool c

def State.setPool (s : State) (c n : Nat) : State := { s with fab := { s.fab with pool := tput s.fab.pool c n } }

/-- Credits granted on a chiplet's plane and not got back. -/
def State.grantedOn (s : State) (plane : Nat) : Nat :=
  ((s.fab.credits.filter (fun c => c.plane == plane)).map (·.granted)).foldl (· + ·) 0

/-- Credits a peer may have outstanding: the source of a restore all of the pool (R455). -/
def State.grantLimit (s : State) (c : Credit) : Nat :=
  match s.power.restore with
  | some r => if r.source = c.peer ∧ !c.host then 1024 else s.grantMax c.plane
  | none => s.grantMax c.plane

/-- One turn of one waiting peer. -/
def State.grantOne (s : State) (plane : Nat) (c : Credit) : State :=
  let now := s.creditOf c.peer c.host plane
  if decide (0 < s.pool plane) && decide (now.granted < s.grantLimit now) then
    (s.setPool plane (s.pool plane - 1)).setCredit { now with granted := now.granted + 1 }
  else s

/-- Free credits go round the waiting peers, oldest request first; each that got some has its answer. -/
def State.grantAll (s : State) (plane : Nat) : State :=
  let waiting := s.fab.credits.filter (fun c => c.plane == plane && c.wants.isSome)
  if waiting.isEmpty then s
  else
    let t := (List.range 1024).foldl (fun (t : State) _ =>
      if t.pool plane = 0 then t else waiting.foldl (fun u c => u.grantOne plane c) t) s
    waiting.foldl (fun u c =>
      let now := u.creditOf c.peer c.host plane
      let n := now.granted - c.granted
      if n = 0 then u
      else
        let rest := { u with fab := { u.fab with credits := u.fab.credits.filter (fun x => x ≠ now) } }
        let u := (rest.setCredit { now with wants := none }).bump (Reg.FABRIC_GRANTS_ISSUED plane)
        let h := u.header 7 1 0 c.peer c.host
        u.sendBare (flowTo c.peer c.host plane 1 0) { h with len := BitVec.ofNat 32 n, last := true }) t

/-- CREDIT_RETURN: a block has left the ingress stage. -/
def execCreditReturn (c : Fin 2) (s : State) : Result :=
  done (if s.pool c + s.grantedOn c < 1024 then (s.setPool c (s.pool c + 1)).grantAll c else s)

/-! ### Frames (R333, R351, R352) -/

/-- Line bytes of a frame with these blocks. -/
def lineBytes (lens : List Nat) : Nat := 152 + (lens.map (· + 4)).foldl (· + ·) 0

/-- Rate in use, in bits per tick. -/
def State.portRate (s : State) (p : Nat) : Nat := 1000 * 2 ^ fieldOf (s.reg (Reg.PORT_PORT_CONFIG p)) 1 0

/-- A frame with blocks fits into the interior of the present slot. -/
def State.fits (s : State) (p : Nat) (lens : List Nat) : Bool :=
  decide (16 ≤ s.tickOf) && decide (s.tickOf + ceilDiv (8 * lineBytes lens) (s.portRate p) ≤ 4080)

/-- A scheduled frame's slot has come (R352); other classes have none, nor have acknowledgements and WRITE_DONE, which are due
at once (R337, R347). -/
def State.slotDue (s : State) (h : Hdr) : Bool :=
  h.cls != 0 || [3, 4, 5].contains h.type || decide ((BitVec.ofNat 32 s.slot - h.phaseTag).toNat < 2 ^ 31)

/-- Types that a supply hold still lets out new (R446). -/
def holdType (type : Nat) : Bool := [3, 4, 6, 7, 9].contains type

/-- Bytes a chiplet's retry store holds (R340): 64 MiB. -/
def State.retryBytes (s : State) (plane : Nat) : Nat :=
  ((s.fab.tx.filter (fun f => s.livePlane f.id.plane == plane)).map (fun f =>
    ((f.blocks.filter (·.sent)).map (fun b => b.cargo.data.length)).foldl (· + ·) 0)).foldl (· + ·) 0

def retryStore : Nat := 64 * 2 ^ 20

/-- Classes of frames in the order a port takes them, frames without blocks among those of their class: a resend goes ahead
of all that is new in its class (R338, R352). -/
def rankOf (h : Hdr) (again : Bool) : Nat :=
  match h.cls, again with
  | 0, true => 1
  | 0, false => 2
  | 2, true => 3
  | 2, false => 4
  | _, true => 5
  | _, false => 6

/-- Scheduled frames of a flow that moved from a lost plane go behind the scheduled ones of the plane itself (R368). -/
def State.rankIn (s : State) (f : FlowId) (h : Hdr) (again : Bool) : Nat :=
  if h.cls = 0 ∧ s.livePlane f.plane ≠ f.plane then 5 else 2 * rankOf h again

/-- What a flow would put on a port now: rank, block, whether it is a resend. -/
structure Offer where
  rank  : Nat
  flow  : FlowId
  block : TxBlock
  again : Bool
deriving DecidableEq, Repr

def State.creditFor (s : State) (id : FlowId) : Nat := (s.creditOf id.peer id.host (s.livePlane id.plane)).held

/-- A flow whose next block needs a credit that its peer has not given (R355). -/
def State.poor (s : State) (f : TxFlow) : Bool :=
  match f.blocks.find? (fun b => !b.sent && b.cargo.hdr.nblk != 0) with
  | some b => b.cargo.hdr.cls == 1 && s.creditFor f.id == 0
  | none => false

/-- A CREDIT_REQ of a flow without credit; it is sent again where no grant has come within RETRY_TIMEOUT (R356). -/
def State.creditOffer (s : State) (f : TxFlow) : List Offer :=
  let c := s.creditOf f.id.peer f.id.host (s.livePlane f.id.plane)
  let due := c.asked.all (fun t => decide (s.retryTimeout (s.livePlane f.id.plane) ≤ ticksSince s t))
  if s.poor f && due then
    let h := s.header 6 1 f.id.queue f.id.peer f.id.host
    [⟨s.rankIn f.id h true, f.id, ⟨⟨{ h with last := true }, []⟩, 0, 0, false, false, false⟩, false⟩]
  else []

/-- A frame that a safety stop keeps back: a part of a mirror image or a record that is to be sent again (R409). -/
def State.stopHolds (s : State) (h : Hdr) : Bool :=
  s.safety.stop && h.type == 0 && h.cls == 1 && h.queue % 64 == 63 && decide (h.queue < 64 * 24)

/-- Bytes of the blocks that a frame is to carry with a block: the second block of a control message goes with the first
(R382). -/
def TxFlow.lens (f : TxFlow) (b : TxBlock) : List Nat :=
  let h := b.cargo.hdr
  let two := match f.blocks.find? (fun x => !x.sent && x.cargo.hdr.nblk != 0 && x.cargo.hdr.seq == h.seq + 1) with
    | some x => if h.type = 8 ∧ !h.last then [x.cargo.data.length] else []
    | none => []
  b.cargo.data.length :: two

/-- A flow's offers: a block to send again, and its first waiting frame, or an acknowledgement or credit frame, which
waits behind no block. A flow that moved sends again first (R368). -/
def State.offers (s : State) (p : Nat) (f : TxFlow) : List Offer :=
  let fit := fun (b : TxBlock) => b.cargo.hdr.nblk == 0 || s.fits p (f.lens b)
  let again := match f.blocks.find? (·.again) with
    | some b => if fit b && !s.stopHolds b.cargo.hdr then [⟨s.rankIn f.id b.cargo.hdr true, f.id, b, true⟩] else []
    | none => []
  let moved := s.livePlane f.id.plane != f.id.plane && f.blocks.any (·.again)
  let waits := f.blocks.filter (fun b => !b.sent)
  let free := fun (b : TxBlock) => [3, 4, 6, 7].contains b.cargo.hdr.type || (b.cargo.hdr.type == 5 && !s.power.hold)
  let new := match (waits.find? free).orElse (fun _ => waits.head?) with
    | none => []
    | some b =>
      let h := b.cargo.hdr
      let room := h.nblk == 0 || decide (s.retryBytes (s.livePlane f.id.plane) + b.cargo.data.length ≤ retryStore)
      let paid := h.cls != 1 || h.nblk == 0 || decide (0 < s.creditFor f.id)
      let out := !s.power.hold || holdType h.type
      if fit b && room && paid && out && s.slotDue h && !s.stopHolds h && !(moved && h.nblk != 0) then
        [⟨s.rankIn f.id h false, f.id, b, false⟩] else []
  again ++ new ++ s.creditOffer f

def bestOffer : List Offer → Option Offer
  | [] => none
  | o :: os => match bestOffer os with
    | none => some o
    | some b => if o.rank ≤ b.rank then some o else some b

/-- The block that goes into the frame behind another: the flow's next one, where it continues the same request. A queue
spends one credit in its turn, so that an unscheduled frame has one block (R355). -/
def State.second (s : State) (p : Nat) (f : TxFlow) (b : TxBlock) : Option TxBlock :=
  let h := b.cargo.hdr
  match f.blocks.find? (fun x => !x.sent && x.cargo.hdr.nblk != 0 && x.cargo.hdr.seq == h.seq + 1) with
  | none => none
  | some x =>
    let k := x.cargo.hdr
    let n := b.cargo.data.length
    if !h.last ∧ k.type = h.type ∧ k.tag = h.tag ∧ (h.type = 8 ∨ k.addr = h.addr + BitVec.ofNat 64 n) ∧ k.phaseTag = h.phaseTag ∧
        s.fits p [n, x.cargo.data.length] ∧ h.cls ≠ 1 ∧
        s.retryBytes (s.livePlane f.id.plane) + n + x.cargo.data.length ≤ retryStore then some x
    else none

/-- Header of the frame that carries these blocks. -/
def frameHdr (bs : List TxBlock) (resend : Bool) : Hdr :=
  match bs with
  | [] => default
  | [b] => { b.cargo.hdr with resend := resend }
  | b :: x :: _ => { b.cargo.hdr with resend := resend, nblk := 2, last := x.cargo.hdr.last,
                                      len := BitVec.ofNat 32 (x.cargo.data.length * 2 ^ 16 + b.cargo.data.length) }

/-- What follows the header for a block: its data and their CRC-32C. -/
def carried (b : TxBlock) : List Byte :=
  if b.cargo.hdr.nblk = 0 then [] else (⟨b.cargo.data, BitVec.ofNat 32 (crc32c b.cargo.data)⟩ : Block).bytes

/-- Priority code point of a class (Table 12.2). -/
def pcpOf (cls : Nat) : Nat := if cls = 0 then 6 else if cls = 2 then 5 else 3

/-- The outer parts of port p's next frame to a peer (R333, R344): the peer's port of the same place on the plane, this port's
next packet number, and its SCI; the checksum over what the UDP datagram carries. -/
def State.envelope (s : State) (p : Nat) (pr : Peer) (h : Hdr) (body : List Byte) : Envelope where
  pcp := pcpOf h.cls
  vlan := Config.planeVlan (p / 4)
  an := Config.assocNumber pr.assoc
  dstMac := pr.macs.getD (p % 4) 0
  srcMac := Config.portMac p
  packet := tget 0 pr.sent p + 1
  sci := Config.portMac p ++ BitVec.ofNat 16 p
  srcAddr := Config.planeAddr (p / 4)
  dstAddr := pr.addr
  udpSrc := Config.udpSource p
  udpPort := fieldOf (s.reg (Reg.FABRIC_UDP_PORT (p / 4))) 15 0
  udpSum := udpChecksum (Config.planeAddr (p / 4)) pr.addr (Config.udpSource p).toNat
    (fieldOf (s.reg (Reg.FABRIC_UDP_PORT (p / 4))) 15 0) (h.bytes ++ body)

/-- This module's side of a JOIN exchange (R343, R462): a control frame on the Steward's queue, the certificate chain, and a
fresh ECDH share signed by the identity key. -/
def State.sendJoin (s : State) (peer : Nat) (host : Bool) (plane : Option Nat) : State :=
  let d := s.draw
  let share := Config.joinShare d.1
  d.2.emit (.join peer host plane { d.2.header 9 2 stewardQueue peer host with last := true }.bytes Config.certificates share
    (Config.sign (sha512 (leBytes 132 share.toNat)) d.1))

/-- A control message through Parlour's port (R429): its frames, of two blocks at most, to the UDP port of REPORT_CONFIG. -/
def State.sendMgmt (s : State) (dst : Nat) (host : Bool) (queue : Nat) (msg : List Byte) : State :=
  let d := s.draw
  let seq := Config.mgmtSeq d.1 dst
  let h : Hdr := { s.header 8 2 queue dst host with gen := tget 1 s.safety.gens dst, nblk := 1 }
  let cut := cutBlocks msg
  let block := fun (i : Nat) (b : List Byte) =>
    (⟨⟨{ h with seq := seq + BitVec.ofNat 32 i, last := i + 1 == cut.length,
                len := BitVec.ofNat 32 b.length }, b⟩, 0, 0, true, false, false⟩ : TxBlock)
  let bs := cut.mapIdx block
  (List.range ((bs.length + 1) / 2)).foldl (fun t i =>
    let two := (bs.drop (2 * i)).take 2
    t.emit (.mgmt dst host (fieldOf (s.reg Reg.SAFETY_REPORT_CONFIG) 31 16) (frameHdr two false).bytes (two.flatMap carried))) d.2

/-- A fresh JOIN exchange with a joined peer on a plane (R344). -/
def State.rekey (s : State) (peer : Nat) (host : Bool) (plane : Nat) : State :=
  ({ s with fab := { s.fab with rekeying := (peer, host) :: s.fab.rekeying.filter (· != (peer, host)) } }).sendJoin peer host
    (some plane)

/-- Packets of an association after which a port asks for a new key, and those it can have (R344; log entry 41). -/
def rekeyFrom : Nat := 2 ^ 61
def packetsMax : Nat := 2 ^ 62

/-- Port p may send a frame more under the key it has with an endpoint. -/
def State.keyLeft (s : State) (p : Nat) (f : FlowId) : Bool :=
  (s.peerOn f.peer f.host (p / 4)).any (fun x => decide (tget 0 x.sent p < packetsMax))

/-- A frame leaves port p for the endpoint its header names; with many sent under a key, a new one is asked for. -/
def State.sendFrame (s : State) (p : Nat) (h : Hdr) (body : List Byte) : State :=
  match s.peerOn h.dst h.dstHost (p / 4) with
  | none => s
  | some pr =>
    let n := tget 0 pr.sent p + 1
    let t := (s.modPeer h.dst h.dstHost (p / 4) (fun x => { x with sent := tput x.sent p n })).emit
      (.frame p (s.envelope p pr h body) h.bytes body)
    if decide (rekeyFrom ≤ n) && !t.fab.rekeying.contains (h.dst, h.dstHost) then t.rekey h.dst h.dstHost (p / 4) else t

/-- A flow whose frame went out waits behind the others of its rank. -/
def State.rotateTx (s : State) (id : FlowId) : State :=
  { s with fab := { s.fab with tx := s.fab.tx.filter (fun f => f.id != id) ++ s.fab.tx.filter (fun f => f.id == id) } }

/-- What sending counts. -/
def State.countFrame (s : State) (p plane : Nat) (bs : List TxBlock) (again : Bool) : State :=
  let n := (bs.filter (fun b => b.cargo.hdr.nblk != 0)).length
  let sched := bs.any (fun b => b.cargo.hdr.cls == 0)
  let s := s.bump (Reg.PORT_FRAMES_TX p)
  let s := if again then s.bumpBy (Reg.FABRIC_BLOCKS_RESENT plane) n else s.bumpBy (Reg.FABRIC_BLOCKS_SENT plane) n
  let s := if sched && !again && decide (0 < n) then s.bump (Reg.PORT_SCHED_FRAMES p) else s
  if sched && again then s.bumpBy (Reg.FABRIC_SCHED_RESENDS plane) n else s

/-- The frame of an offer leaves: its blocks stay in the retry store, an empty frame leaves the flow. -/
def State.putFrame (s : State) (p : Nat) (o : Offer) : State :=
  let plane := s.livePlane o.flow.plane
  let f := s.txFlow o.flow
  let bs := o.block :: (if o.again || o.block.cargo.hdr.nblk == 0 then [] else (s.second p f o.block).toList)
  let goes := fun (b : TxBlock) => { b with sent := true, again := false, sentAt := s.clock.now }
  let f' := { f with blocks := f.blocks.filterMap (fun b =>
    if bs.contains b then (if b.cargo.hdr.nblk = 0 then none else some (goes b)) else some b) }
  let paid := !o.again && o.block.cargo.hdr.cls == 1 && o.block.cargo.hdr.nblk != 0
  let c := s.creditOf o.flow.peer o.flow.host plane
  let s := if paid then s.setCredit { c with held := c.held - bs.length }
    else if o.block.cargo.hdr.type = 6 then s.setCredit { c with asked := some s.clock.now } else s
  (((s.setTx f').countFrame p plane bs o.again).sendFrame p (frameHdr bs o.again) (bs.flatMap carried)).rotateTx o.flow

/-- FRAME_SEND: the port takes the frame of highest rank. -/
def State.frameSend (s : State) (p : Nat) : State :=
  if !s.power.die || !s.portLive p || !s.numbered then s
  else
    let fs := s.fab.tx.filter (fun f => s.flowPort f.id == p && s.joinedOn f.id.peer f.id.host (s.livePlane f.id.plane) &&
      s.keyLeft p f.id)
    match bestOffer (fs.flatMap (s.offers p)) with
    | some o => s.putFrame p o
    | none => s

def execFrameSend (p : Fin 8) (s : State) : Result := done (s.frameSend p)

/-! ### Ports (R330, R366) -/

/-- PORT_UP: an enabled port trains, locks its FEC and has a live association. -/
def State.portUp (s : State) (p : Nat) : State :=
  if s.power.die && bitOf (s.reg (Reg.PORT_PORT_CONFIG p)) 8 && !s.portLive p then
    (s.setPort p { s.port p with linkUp := true, fecLock := true, macsecUp := true, downAt := none }).event clsPort p evLink 0
  else s

/-- A port without what it lost; without a link nothing is locked. -/
def PortState.lose (v : PortState) (w : LinkPart) : PortState :=
  match w with
  | .link => { v with linkUp := false, fecLock := false }
  | .fec => { v with fecLock := false }
  | .macsec => { v with macsecUp := false }

/-- PORT_DOWN: link or FEC lock lost, or the association gone; a port in service goes down. -/
def State.portLoses (s : State) (p : Nat) (w : LinkPart) : State :=
  let v := (s.port p).lose w
  if s.portLive p then
    ((s.setPort p { v with downAt := some s.clock.now }).bump (Reg.PORT_DOWN_EVENTS p)).event clsPort p evLink 0
  else s.setPort p v

/-- The link is held down or has lost its clock. -/
def State.portDown (s : State) (p : Nat) : State := s.portLoses p .link

def execPortDown (p : PortLoss) (s : State) : Result := done (s.portLoses p.port p.part)

/-- The cycle at which a stage of Table 15.2 has used up its limit of ms. -/
def State.limitCycle (s : State) (ms : Nat) : Nat := s.power.limitAt + (ms - s.power.limitMs) * 700000

/-- The cycle since which a port is down; one that has not come up in this start, from the limit of stage 8 of Table 15.2 on
(log entry 45). -/
def State.downSince (s : State) (p : Nat) : Option Nat :=
  if s.portLive p then none else some ((s.port p).downAt.getD (s.limitCycle 3000))

/-- PORT_DOWN_HOLD_EXPIRY: down for PORT_DOWN_HOLD ticks. -/
def execPortDownHoldExpiry (p : Fin 8) (s : State) : Result :=
  done (match s.downSince p with
  | none => s
  | some t =>
    if s.power.die && decide (t ≤ s.clock.now) && decide (s.portDownHold (p / 4) ≤ ticksSince s t) then s.planeFails (p / 4) else s)

/-- PAUSE_FRAME: discarded and counted. -/
def execPauseFrame (p : Fin 8) (s : State) : Result := done (s.bump (Reg.PORT_PAUSE_IGNORED p))

/-! ### Rekeying (R344) -/

/-- MACSEC_REKEY: a fresh JOIN exchange with a joined peer, on each plane it has joined. -/
def execMacsecRekey (peer : Nat) (host : Bool) (s : State) : Result :=
  done (((s.fab.peers.filter (fun p => p.num == peer && p.host == host)).map (·.plane)).foldl (fun t pl => t.rekey peer host pl) s)

end Sys2Proof.Machine
end

