-- ==== Sys2Proof/Machine/Attn.lean ====
section
/-!
DEFINITION. The module's state (Table 15.1), its conditions and `ATTN` (R388), SAFETY_STATUS (Table 14.7).
-/

namespace Sys2Proof.Machine

/-- The stacks and the tier are trained, and one port of a plane is up (Table 15.1). -/
def State.trainedAll (s : State) : Bool :=
  (List.range 12).all s.power.trained.contains && (List.range 2).all s.power.tiers.contains

/-- The start-up has reached phase acquisition: stage 9 of Table 15.2, or beyond. -/
def State.acquiring (s : State) : Bool :=
  s.power.die && s.power.started && (s.clock.everLocked || (s.trainedAll && (List.range 8).any s.portLive))

/-- START_STAGE: the stage of Table 15.2 in progress; 0 when start-up is complete. -/
def State.startStage (s : State) : Nat :=
  if !s.power.aux then 0
  else if !s.power.parlour then 1
  else if !s.power.die then (if s.power.conversion then 3 else 2)
  else if !s.power.started then 4 + s.power.booting
  else if s.clock.everLocked then 0
  else if !s.trainedAll then 7
  else if !(List.range 8).any s.portLive then 8
  else 9

/-- STATE of POWER_STATUS: of several states that apply, the highest by R436. -/
def State.moduleState (s : State) : Nat :=
  if !s.power.aux then 0
  else if s.power.restarting then 10
  else if !s.power.die then 1
  else if s.safety.stop then 9
  else if s.power.hold then 7
  else if s.run.stopped then 8
  else if s.planRuns then 6
  else if !s.acquiring then 2
  else if !s.clock.locked then 3
  else if s.run.plan.isNone then 4
  else 5

/-- An enabled PAIL event is latched in some block. -/
def State.pailLatched (s : State) : Bool :=
  s.regs.any (fun r => r.1 % 0x10000 == 0x018 && bitOf r.2.toNat evPail &&
    bitOf (s.reg (Reg.EVENT_ENABLE (r.1 / 2 ^ 24) (r.1 / 2 ^ 16 % 256))) evPail)

/-- A single-plane variant runs. -/
def State.singlePlane (s : State) : Bool :=
  s.planRuns && ((s.run.plan.bind (fun p => p.variant s.run.variant)).any (fun v => v.planes != 3))

def State.twinBound (s : State) : Bool := s.boot.bind != .unbound

/-- Either chiplet is saturated (R357). -/
def State.saturated (s : State) : Bool := tget false s.fab.saturated 0 || tget false s.fab.saturated 1

/-- Conditions of Table 13.5, by their bit in ATTN_CONDITIONS, with their code. -/
def State.conditions (s : State) : List (Nat × Bool) :=
  [(0x10, !s.acquiring),
   (0x11, s.acquiring && !s.clock.locked),
   (0x12, s.clock.locked && s.run.plan.isNone),
   (0x20, !s.ctl.log.isEmpty),
   (0x21, s.pailLatched),
   (0x30, s.planeOut 0 || s.planeOut 1 || s.singlePlane),
   (0x31, s.twinBound && !s.twinReachable),
   (0x40, s.boot.armed.isSome),
   (0x41, s.saturated),
   (0x50, s.power.hold),
   (0x60, s.run.stopped),
   (0x70, s.safety.stop),
   (0x7F, s.boot.identity)]

def State.attn (s : State) : Nat := ((s.conditions.filter (·.2)).map (·.1)).foldl max 0

def State.attnConditions (s : State) : Nat :=
  ((s.conditions.mapIdx (fun i c => bnat c.2 * 2 ^ i))).foldl (· + ·) 0

/-! ### SAFETY -/

/-- Receivers enabled in SAFETY page 2: index, endpoint number. -/
def State.receivers (s : State) : List (Nat × Nat) :=
  (List.range 4).filterMap (fun i =>
    let w := s.reg (Reg.SAFETY_REPORT_TO i)
    if bitOf w 31 then some (i, fieldOf w 11 0) else none)

def State.receiverReady (s : State) : Bool := s.receivers.any (fun r => s.safety.joined.contains r.2)

def State.safetyStatus (s : State) : Nat :=
  let f := s.safety
  bnat s.receiverReady * 2 ^ 11 + bnat f.parlourAlive * 2 ^ 10 + bnat f.reportAcked * 2 ^ 9 + bnat f.reportSent * 2 ^ 8 +
    bnat f.selftestOk * 4 + bnat f.blocked * 2 + bnat f.stop

end Sys2Proof.Machine
end

