-- ==== Sys2Proof/Machine/SafetyMon.lean ====
section
/-!
DEFINITION. Functional safety (chapter 14): the slot edge with the schedule monitor (R420), heartbeat (R422), Parlour's
acknowledgement (R423) and saturation (R357); the safety stop (R409, R413); reports (R411, R430). Commands: SLOT_EDGE,
HEARTBEAT_INTERVAL_EXPIRY, SAFETY_LOCKSTEP_MISMATCH, PARLOUR_LOCKSTEP_RESET, STOP_ACKS_COMPLETE, SAFETY_REPORT_SEND,
REPORT_RESEND_TIMER, SAFETY_REPORT_REPLY, SAFE_RELEASE, STOP_REQUEST.
-/

namespace Sys2Proof.Machine

/-! ### The variant of a step (R53, R367) and the slots before it (R451, R452) -/

/-- The plane set at a boundary in a slot: the plan's planes, less those that failed at least 64 slots before it (R367). -/
def State.planesAt (s : State) (p : Plan) (slot : Nat) : Nat :=
  let up := fun (pl : Nat) => bitOf p.planeSet pl && (match tfind s.fab.planeLost pl with
    | some d => decide (slot < d + 64)
    | none => true)
  bnat (up 0) + 2 * bnat (up 1)

/-- What R53 chooses for a step: the rung, the variant, NEXT_CAUSE, and whether a dual-plane request was refused. -/
structure Choice where
  rung    : Nat
  variant : Option Nat
  cause   : Nat
  refused : Bool
deriving DecidableEq, Repr

/-- The rung that begins at a step. -/
def Plan.rungAt (p : Plan) (step : Nat) : Option Nat :=
  if step = 0xFFFFFFFF then none
  else (p.variants.find? (fun v => v.planes == p.planeSet && v.firstStep == step)).map (·.rung)

def State.choose (s : State) (p : Plan) (step slot : Nat) : Choice :=
  let planes := s.planesAt p slot
  let own := (p.rungAt step).getD s.run.rung
  let asked := s.run.request.bind p.variant
  let rung := (asked.map (·.rung)).getD own
  let v := if s.run.request.isSome && asked.isNone then none
    else (p.variants.find? (fun v => v.rung == rung && v.planes == planes)).map (·.number)
  let now := (p.variant s.run.variant).map (·.planes)
  let cause := if s.run.request.isSome then 3 else if now != some planes then 2 else if rung != s.run.rung then 1 else 0
  ⟨rung, v, cause, asked.any (fun a => a.planes == 3) && planes != 3⟩

/-- Idle slots inserted: the host's, in LOCAL mode at least CAP_IDLE, and 32 while THROTTLE is set. -/
def State.idleSlots (s : State) : Nat :=
  let host := min 32 (fieldOf (s.reg Reg.PHASE_IDLE_INSERT) 5 0)
  if s.power.throttle then 32
  else if bitOf (s.reg Reg.POWER_CAP_CONFIG) 31 then host
  else max host (s.reg Reg.POWER_CAP_IDLE % 64)

/-! ### The schedule monitor (R420) -/

/-- The deadline of an entry of the step that starts at a slot; in the first step after RUN or a retry, not counted from
before the monitor started. -/
def State.deadline (s : State) (start : Nat) (first : Bool) (e : Entry) : Nat :=
  let planned := (start + e.startSlot) * 4096 + 16
  let base := match s.run.monitor with
    | some t => if first then max planned t else planned
    | none => planned
  base + e.slack + 4096

/-- Variant and first slot of the step after the present one, as its boundary would choose them now; none where the plan
ends there. -/
def State.stepAfter (s : State) : Option (Nat × Nat) :=
  s.run.plan.bind (fun p => (p.variant s.run.variant).bind (fun v =>
    if s.run.ending then none
    else ((s.choose p (s.run.step + 1) (s.run.stepStart + v.stepSlots - 1)).variant).map (fun n =>
      (n, s.run.stepStart + v.stepSlots + s.idleSlots))))

/-- The entries that a core still has to release, by index, with their deadlines: those left of the present step, and behind
its boundary those of the next (log entry 46). -/
def State.unreleased (s : State) (c : Nat) : List (Nat × Entry × Nat) :=
  let k := s.core c
  if k.stopped then []
  else if k.atBoundary then
    match s.stepAfter, s.run.plan with
    | some (v, start), some p => (tget [] p.schedules (64 * v + c)).mapIdx (fun i e => (i, e, s.deadline start false e))
    | _, _ => []
  else ((s.tableOf c).mapIdx (fun i e => (i, e, s.deadline s.run.stepStart s.run.firstStep e))).drop k.entry

/-- Cores that have not released an entry whose deadline has passed, with the first such entry. -/
def State.stalled (s : State) : List (Nat × Nat × Entry) :=
  (List.range 64).filterMap (fun c =>
    ((s.unreleased c).find? (fun x => decide (x.2.2 < s.phaseNat))).map (fun x => (c, x.1, x.2.1)))

def State.schedCheck (s : State) : State :=
  if s.planRuns && s.run.monitor.isSome then
    s.stalled.foldl (fun t x => (t.bump Reg.SAFETY_SCHED_STALLS).raise
      { code := 0x0A02, cls := clsSafety, inst := 0, addr := x.2.1, core := x.1, entry := x.2.1, desc := x.2.2.descIndex } true) s
  else s

/-! ### Heartbeat and acknowledgement (R422, R423) -/

def clampTo (lo hi x : Nat) : Nat := max lo (min hi x)

def State.plMiss (s : State) : Nat := clampTo 4 64 (fieldOf (s.reg Reg.SAFETY_WATCH_CONFIG) 23 16)

def State.hbMiss (s : State) : Nat := clampTo 2 8 (fieldOf (s.reg Reg.SAFETY_WATCH_CONFIG) 15 8)

def State.sendHeartbeat (s : State) : State :=
  let bytes := leBytes 8 s.slot ++ leBytes 4 s.safety.detectSeq.toNat ++ leBytes 4 s.safetyStatus
  s.emit (.heartbeat s.slot s.safety.detectSeq (BitVec.ofNat 32 s.safetyStatus) (crc16 bytes))

/-- An acknowledgement, or one more missed: PARLOUR_LOST once in a run of misses, from PL_MISS of them on. Missing ones do
not count while Parlour restarts under new firmware, and one missing when that time is over raises it at once (R479). -/
def State.parlourAck (s : State) (acks : Bool) : State :=
  if acks && s.power.parlour then
    { s with safety := { s.safety with parlourAlive := true, plMisses := 0, plLost := false, suspended := none,
                                       hbMisses := 0, hbLost := false, hbSlot := some s.slot } }
  else
    let s := { s with safety := { s.safety with parlourAlive := false } }
    if s.safety.suspended.any (fun t => decide (s.clock.now < t)) then s
    else
      let n := s.safety.plMisses + 1
      let lost := !s.safety.plLost && (s.safety.suspended.isSome || decide (s.plMiss ≤ n))
      let s := ({ s with safety := { s.safety with plMisses := n, plLost := s.safety.plLost || lost, suspended := none } }).bump
        Reg.SAFETY_PARLOUR_MISSED
      if lost then s.raise { code := 0x0A04, cls := clsSafety, inst := 0, addr := n } true else s

/-! ### Saturation (R357) -/

def State.saturation (s : State) (c : Nat) : State :=
  let waits := s.fab.credits.any (fun x => x.plane == c && x.wants.isSome)
  let n := if waits then tget 0 s.fab.satRun c + 1 else 0
  let sat := waits && (tget false s.fab.saturated c || decide (s.satWindow c ≤ n))
  let s := { s with fab := { s.fab with satRun := tputD 0 s.fab.satRun c n, saturated := tputD false s.fab.saturated c sat } }
  if sat then s.bump (Reg.FABRIC_SATURATED_SLOTS c) else s

/-- SLOT_EDGE, at tick 0 of a slot. -/
def State.slotEdge (s : State) (acks : Bool) : State :=
  if s.power.die && decide (s.tickOf = 0) then
    ((((s.schedCheck).sendHeartbeat).parlourAck acks).saturation 0).saturation 1
  else s

def execSlotEdge (parlourAcks : Bool) (s : State) : Result := done (s.slotEdge parlourAcks)

/-- HEARTBEAT_INTERVAL_EXPIRY: Parlour's interval ended without a valid heartbeat; HEARTBEAT_LOST once in a run of misses,
from HB_MISS of them on. -/
def State.heartbeatMissed (s : State) : State :=
  if s.power.die && s.power.parlour then
    let n := s.safety.hbMisses + 1
    let lost := !s.safety.hbLost && decide (s.hbMiss ≤ n)
    let s := ({ s with safety := { s.safety with hbMisses := n, hbLost := s.safety.hbLost || lost } }).bump
      Reg.SAFETY_HEARTBEATS_MISSED
    if lost then s.raise { code := 0x0A03, cls := clsSafety, inst := 0, addr := 0 } true else s
  else s

def execHeartbeatIntervalExpiry (s : State) : Result := done s.heartbeatMissed

/-- SAFETY_LOCKSTEP_MISMATCH (R424): the record goes into Parlour's own report, not into the log. -/
def State.lockstep (s : State) : State :=
  let runs := s.planRuns
  let s := s.detect { code := 0x0A03, cls := clsSafety, inst := 0, addr := 1 }
  if runs then s.planStop else s

def execSafetyLockstepMismatch (s : State) : Result := done (if s.power.die then s.lockstep else s)

/-- PARLOUR_LOCKSTEP_RESET: Parlour starts again; what it had joined is gone, and its reports are to be sent again until
acknowledged. -/
def State.parlourRestart (s : State) : State :=
  let unsent := (s.safety.reports.filter (fun (r : Report) => !r.acked)).map (fun (r : Report) => { r with sentMs := none })
  let s := { s with
    safety := { s.safety with joined := [], gens := [], ackedBy := [], hbMisses := 0, hbLost := false, hbSlot := none, reports := unsent },
    power := { s.power with startedAt := s.clock.now } }
  (s.setReg Reg.SAFETY_REPORTS_SENT 0).setReg Reg.SAFETY_REPORTS_ACKED 0

def execParlourLockstepReset (s : State) : Result := done (if s.power.parlour then s.parlourRestart else s)

/-! ### The stop (R409, R413, R426) -/

/-- STOP_ACKS_COMPLETE: every unit has acknowledged. -/
def State.stopAcked (s : State) : State :=
  if s.safety.stop && !s.safety.blocked then
    let took := match s.safety.detectedAt with
      | some t => s.clock.now - t
      | none => 0
    ({ s with safety := { s.safety with blocked := true } }).setReg Reg.SAFETY_BLOCK_TIME_MAX
      (min (2 ^ 32 - 1) (max (s.reg Reg.SAFETY_BLOCK_TIME_MAX) took))
  else s

def execStopAcksComplete (s : State) : Result := done s.stopAcked

/-- A write of SAFE_RELEASE, and whether it is reported as IGNORED. -/
def State.safeRelease (s : State) (v : Word) : State × Bool :=
  if s.safety.stop && v == s.safety.detectSeq && !s.planRuns && s.safety.reportAcked then
    ({ s with safety := { s.safety with stop := false, blocked := false, detectedAt := none, suspectTo := s.clock.phase } }, false)
  else (s.event clsSafety 0 evRefused Reg.SAFETY_SAFE_RELEASE, true)

def execSafeRelease (v : Word) (s : State) : Result := done (s.safeRelease v).1

/-- A write of 1 to STOP_REQUEST. -/
def State.stopRequest (s : State) : State := s.raise { code := 0x0A07, cls := clsSafety, inst := 0 } true

def execStopRequest (s : State) : Result := done s.stopRequest

/-! ### Reports (R411, R430) -/

/-- The record with what holds when the report is formed. -/
def State.formReport (s : State) (r : Report) : List Word :=
  let w := fun (i : Nat) => (r.record.getD i 0).toNat
  ((r.record.set 5 (BitVec.ofNat 32 (w 5 / 256 * 256 + s.attn))).set 10
    (BitVec.ofNat 32 (bnat s.safety.blocked * 8 + bnat s.run.stopped * 4 + bnat s.safety.stop * 2 + w 10 % 2))).set 11
    (BitVec.ofNat 32 s.uptimeMs)

def Report.same (r q : Report) : Bool := r.reqId == q.reqId

def State.isLatest (s : State) (r : Report) : Bool := (s.safety.reports.getLast?).any (fun q => q.same r)

def State.modReport (s : State) (r : Report) (f : Report → Report) : State :=
  { s with safety := { s.safety with reports := s.safety.reports.map (fun q => if q.same r then f q else q) } }

/-- A report as it is sent: the header of Table 13.1 with OPCODE 0x10 and COUNT 64, and the record. -/
def State.reportBytes (s : State) (r : Report) : List Byte :=
  leBytes 4 (0x10 * 2 ^ 24 + 64 * 2 ^ 8) ++ leBytes 4 r.reqId.toNat ++ leBytes 8 0 ++
    (s.formReport r).flatMap (fun w => leBytes 4 w.toNat)

/-- A report goes to every enabled receiver that has joined, on queue 0. -/
def State.sendReport (s : State) (r : Report) : State :=
  let goes := ((s.receivers.map (·.2)).filter s.safety.joined.contains).dedup
  let t := goes.foldl (fun t d => (t.sendMgmt d true 0 (s.reportBytes r)).bump Reg.SAFETY_REPORTS_SENT) s
  if goes.isEmpty then s
  else
    let first := if r.sentMs.isNone then s.uptimeMs else r.firstMs
    let t := t.modReport r (fun q => { q with sentMs := some s.uptimeMs, firstMs := first })
    if s.isLatest r then { t with safety := { t.safety with reportSent := true } } else t

/-- SAFETY_REPORT_SEND: the first report not yet sent. -/
def State.reportSend (s : State) : State :=
  if s.power.parlour then
    match s.safety.reports.find? (fun r => r.sentMs.isNone) with
    | some r => s.sendReport r
    | none => s
  else s

def execSafetyReportSend (s : State) : Result := done s.reportSend

/-- RESEND_MS of REPORT_CONFIG. -/
def State.resendMs (s : State) : Nat := clampTo 1 100 (fieldOf (s.reg Reg.SAFETY_REPORT_CONFIG) 7 0)

/-- The wait after which a report is sent again: RESEND_MS, after 1 s without a reply 100 ms while the stop holds. -/
def State.resendDue (s : State) (r : Report) : Bool :=
  match r.sentMs with
  | none => false
  | some t =>
    if r.acked then false
    else if s.uptimeMs < r.firstMs + 1000 then decide (t + s.resendMs ≤ s.uptimeMs)
    else s.safety.stop && decide (t + 100 ≤ s.uptimeMs)

/-- REPORT_RESEND_TIMER. -/
def execReportResendTimer (s : State) : Result :=
  done (if s.power.parlour then (s.safety.reports.filter s.resendDue).foldl (fun t r => t.sendReport r) s else s)

/-- SAFETY_REPORT_REPLY: a receiver's reply to a report. -/
def State.reportReply (s : State) (receiver status : Nat) (reqId : Word) : State :=
  match s.safety.reports.find? (fun r => r.reqId == reqId && r.sentMs.isSome), s.receivers.find? (fun x => x.2 == receiver) with
  | some r, some (i, _) =>
    if status ≠ 0 || !s.power.parlour || !s.safety.joined.contains receiver then s
    else
      let s := if r.acked then s else (s.modReport r (fun q => { q with acked := true })).bump Reg.SAFETY_REPORTS_ACKED
      if s.isLatest r then
        { s with safety := { s.safety with reportAcked := true, ackedBy := i :: s.safety.ackedBy.filter (· != i) } }
      else s
  | _, _ => s

def execSafetyReportReply (receiver : Nat) (status : Nat) (reqId : Word) (s : State) : Result :=
  done (s.reportReply receiver status reqId)

end Sys2Proof.Machine
end

