-- ==== Sys2Proof/Machine/Boot.lean ====
section
/-!
DEFINITION. Identity and firmware (chapter 16): settings generations (R480 to R482), calibration (R483), the twin binding
(R466 to R468), joins (R343, R441, R462), staging (R471, R472), security version (R476), activation (R477, R479), the end
of a successful start (R474). Commands: PORT_UP, BIND, UNBIND, ATTN_ACK_IDENTITY, JOIN, JOIN_RETRY_TIMER, ANCHOR_SET, ANCHOR_CLEAR,
CAL_SELECT_WRITE, USER_SET, USER_CLEAR, USER_CLEAR_ALL, STAGE_START, STAGING_COMPLETE, PARLOUR_STAGE_OFFSET_WRITE,
PARLOUR_STAGE_APPEND, PARLOUR_COMMIT, PARLOUR_ACTIVATE, SVN_COMMIT, ACTIVATE_ARM, ACTIVATE_CANCEL, SYNC_INTERVAL_END.
-/

namespace Sys2Proof.Machine

def State.refuse (s : State) (cls addr : Nat) : State := s.event cls 0 evRefused addr

/-! ### Settings (R480 to R482) -/

def State.areaInUse (s : State) : Nat := (s.boot.areas.findIdx? (fun a => a.contains (some s.boot.settings))).getD 0

/-- A generation is written into an area, its copy in each flash device; it comes into use, and until the write is done a
reset tears it. -/
def State.putSettings (s : State) (area : Nat) (x : Settings) : State :=
  { s with boot := { s.boot with settings := x, areas := s.boot.areas.set area [some x, some x], writing := some area } }

/-- A change writes a complete generation into the area that does not hold the one in use. -/
def State.newSettings (s : State) (x : Settings) : State :=
  s.putSettings (1 - s.areaInUse) { x with gen := s.boot.settings.gen + 1, current := true, usable := true }

/-- A write that changes settings, and whether it is ignored: while a migration is pending. -/
def State.changeSettings (s : State) (cls addr : Nat) (f : Settings → Settings) : State × Bool :=
  if s.boot.migration then (s.refuse cls addr, true) else (s.newSettings (f s.boot.settings), false)

/-! ### Calibration (R483) -/

def clampInt (lo hi x : Int) : Int := max lo (min hi x)

/-- E of a parameter with user offset U; 0 for one without a factory entry. -/
def effective (id : Nat) (u : Int) : Int :=
  match Config.factoryCal id with
  | some (f, omin, omax, lmin, lmax) => clampInt lmin lmax (f + clampInt omin omax u)
  | none => 0

def State.calValue (s : State) (id : Nat) : Int := effective id (tget 0 s.boot.inForce id)

/-- The offsets of the stored record come into force at a start, and the ports take their corrections. -/
def State.takeCalibration (s : State) : State :=
  let s := { s with boot := { s.boot with inForce := s.boot.settings.offsets, factoryOk := true } }
  (List.range 8).foldl (fun t p =>
    (t.setReg (Reg.PORT_PTP_EGRESS_ADJ p) (unsignedOf 32 (t.calValue p))).setReg (Reg.PORT_PTP_INGRESS_ADJ p)
      (unsignedOf 32 (t.calValue (8 + p)))) s

def execCalSelectWrite (id : Word) (s : State) : Result := done (s.setReg Reg.CAL_CAL_SELECT (id.toNat % 2 ^ 16))

def State.userSet (s : State) : State × Bool :=
  s.changeSettings clsCal Reg.CAL_USER_COMMAND (fun x =>
    { x with offsets := tput x.offsets (s.reg Reg.CAL_USER_ID) (signedOf 32 (s.reg Reg.CAL_USER_VALUE)) })

def State.userClear (s : State) : State × Bool :=
  s.changeSettings clsCal Reg.CAL_USER_COMMAND (fun x => { x with offsets := tdel x.offsets (s.reg Reg.CAL_USER_ID) })

def State.userClearAll (s : State) : State × Bool :=
  s.changeSettings clsCal Reg.CAL_USER_COMMAND (fun x => { x with offsets := [] })

def execUserSet (s : State) : Result := done s.userSet.1
def execUserClear (s : State) : Result := done s.userClear.1
def execUserClearAll (s : State) : Result := done s.userClearAll.1

/-! ### Host anchors (R463) -/

def State.anchorDigest (s : State) : BitVec 512 :=
  digestOf ((List.range 16).flatMap (fun i => leBytes 4 (s.reg (Reg.BOOT_ANCHOR_DIGEST i))))

def State.anchorSet (s : State) (i : Nat) : State × Bool :=
  s.changeSettings clsBoot Reg.BOOT_ANCHOR_COMMAND (fun x => { x with anchors := tput x.anchors i s.anchorDigest })

def State.anchorClear (s : State) (i : Nat) : State × Bool :=
  s.changeSettings clsBoot Reg.BOOT_ANCHOR_COMMAND (fun x => { x with anchors := tdel x.anchors i })

def execAnchorSet (i : Fin 4) (s : State) : Result := done (s.anchorSet i).1
def execAnchorClear (i : Fin 4) (s : State) : Result := done (s.anchorClear i).1

/-! ### Joins this module initiates (R441) -/

/-- A JOIN goes out; it waits for its answer with T of 16 slots. -/
def State.startJoin (s : State) (peer : Nat) (host : Bool) (plane : Nat) : State :=
  let waits := s.fab.joinWait.filter (fun w => !(w.1 == peer && w.2.1 == host && w.2.2.1 == plane))
  ({ s with fab := { s.fab with joinWait := waits ++ [(peer, host, plane, 16, s.slot)] } }).sendJoin peer host (some plane)

/-- The twin's join on a plane with a live port. -/
def State.joinTwin (s : State) : State :=
  match s.twin with
  | none => s
  | some t => [0, 1].foldl (fun u pl =>
      if u.numbered && (List.range 4).any (fun i => u.portLive (4 * pl + i)) && !u.joinedOn t false pl &&
          !u.fab.joinWait.any (fun w => w.1 == t && !w.2.1 && w.2.2.1 == pl) then u.startJoin t false pl else u) s

/-- PORT_UP: the port comes into service, and the twin's join may start (R441). -/
def execPortUp (p : Fin 8) (s : State) : Result := done (s.portUp p).joinTwin

/-- At plan load: every peer of the peer set that has not joined, in ascending endpoint number from after its own. -/
def State.joinPeers (s : State) : State :=
  match s.run.plan with
  | none => s
  | some p =>
    let rising := (List.range 4096).filter p.peers.contains
    let order := rising.filter (fun n => s.moduleNum < n) ++ rising.filter (fun n => n < s.moduleNum)
    order.foldl (fun t n => [0, 1].foldl (fun u pl => if u.joinedOn n false pl then u else u.startJoin n false pl) t) s

/-- JOIN_RETRY_TIMER: after a draw from [T, 2T) slots a join without a reply is sent again, with T doubled to at most
8,192. -/
def State.joinRetry (s : State) (peer : Nat) (host : Bool) (plane : Nat) : State :=
  match s.fab.joinWait.find? (fun w => w.1 == peer && w.2.1 == host && w.2.2.1 == plane) with
  | none => s
  | some (_, _, _, t, at_) =>
    let d := s.draw
    let wait := t + (Config.entropy (16 * d.1)).toNat % t
    if s.slot < at_ + wait then s
    else
      let ws := d.2.fab.joinWait.map (fun w =>
        if w.1 = peer ∧ w.2.1 = host ∧ w.2.2.1 = plane then (peer, host, plane, min 8192 (2 * t), s.slot) else w)
      ({ d.2 with fab := { d.2.fab with joinWait := ws } }).sendJoin peer host (some plane)

def execJoinRetryTimer (peer : Nat) (host : Bool) (plane : Nat) (s : State) : Result := done (s.joinRetry peer host plane)

/-! ### The binding (R466 to R468) -/

def State.bindTwinReg (s : State) : Nat := fieldOf (s.reg Reg.BOOT_BIND_TWIN) 11 0

/-- The binding awaits the twin, which is asked to confirm it on every plane it has joined. -/
def State.awaitTwin (s : State) (t : Nat) : State :=
  (s.fab.peers.filter (fun q => q.num == t && !q.host)).foldl (fun u q => u.sendJoin t false (some q.plane))
    { s with boot := { s.boot with bind := .awaiting, confirmed := false } }

/-- BIND: the key digest of the live join; the sides then confirm the binding at a join. Whether it is ignored. -/
def State.bindCmd (s : State) : State × Bool :=
  let t := s.bindTwinReg
  match s.fab.peers.find? (fun p => p.num == t && !p.host && !p.unreachable) with
  | none => (s.refuse clsBoot Reg.BOOT_BIND_COMMAND, false)
  | some p =>
    if s.twin.any (· != t) then (s.refuse clsBoot Reg.BOOT_BIND_COMMAND, false)
    else
      let c := s.changeSettings clsBoot Reg.BOOT_BIND_COMMAND (fun x => { x with twin := some (t, p.key) })
      if c.2 then c else (c.1.awaitTwin t, false)

def execBind (s : State) : Result := done s.bindCmd.1

def State.unbindCmd (s : State) : State × Bool :=
  if s.planRuns then (s.refuse clsBoot Reg.BOOT_BIND_COMMAND, false)
  else
    let c := s.changeSettings clsBoot Reg.BOOT_BIND_COMMAND (fun x => { x with twin := none, bindGen := 0 })
    if c.2 then c else ({ c.1 with boot := { c.1.boot with bind := .unbound, confirmed := false } }, false)

def execUnbind (s : State) : Result := done s.unbindCmd.1

/-- ATTN_ACK.IDENTITY: condition 0x7F ends (R388); where the twin's key still differs from the record, the new one is taken. -/
def State.ackIdentity (s : State) : State × Bool :=
  let known := { s with boot := { s.boot with identity := false } }
  match s.boot.settings.twin with
  | none => (known, false)
  | some (t, _) =>
    if s.boot.bind = .changed then
      let c := s.changeSettings clsQmgr Reg.QMGR_ATTN_ACK (fun x =>
        { x with twin := some (t, s.boot.seenKey), bindGen := (x.bindGen + 1) % 256 })
      if c.2 then c else (({ c.1 with boot := { c.1.boot with identity := false } }).awaitTwin t, false)
    else (known, false)

def execAttnAckIdentity (s : State) : Result := done s.ackIdentity.1

/-! ### JOIN (R343, R344, R462, R463, R500) -/

/-- Who may join. -/
def State.mayJoin (s : State) (o : JoinOffer) : Bool :=
  let anchors := s.boot.settings.anchors
  let anchored := o.chain.any (fun d => anchors.any (fun a => a.2 == d))
  o.keyProven && (if o.viaParlour && anchors.isEmpty then true
    else if o.host then anchored else o.stavgarLeaf)

/-- What the bound twin's join says about the binding. -/
def State.joinBinding (s : State) (o : JoinOffer) : State :=
  match s.boot.settings.twin with
  | none => s
  | some (t, key) =>
    if o.host || t != o.peer then s
    else if o.chain.head? = some key then
      let state := if o.bindsUs then BindState.bound else s.boot.bind
      { s with boot := { s.boot with confirmed := o.bindsUs, bind := state }, fab := { s.fab with lastTwinAck := s.slot } }
    else
      let seen := { s.boot with bind := .changed, confirmed := false, identity := true, seenKey := o.chain.head?.getD 0 }
      ({ s with boot := seen }).event clsFabric 0 evLink 0

/-- SYSTEM_DIGEST and the digest of the RELOC section, sent to a peer of the peer set. -/
def State.sendDigests (s : State) (peer : Nat) : State :=
  match s.run.plan with
  | none => s
  | some p => if p.peers.contains peer then s.emit (.digests peer p.systemDigest p.relocDigest) else s

/-- A peer's digests equal those of the loaded plan (R500). -/
def Plan.agrees (p : Plan) (d : Option (BitVec 512 × BitVec 512)) : Bool := d == some (p.systemDigest, p.relocDigest)

/-- Flows and held blocks of a pair on a plane start anew, those that moved from it or to it too (R344, R368). -/
def State.freshFlows (s : State) (o : JoinOffer) : State :=
  let mine := fun (f : FlowId) => f.peer == o.peer && f.host == o.host && (f.plane == o.plane || s.livePlane f.plane == o.plane)
  let c := s.creditOf o.peer o.host o.plane
  let s := s.setPool o.plane (s.pool o.plane + c.granted)
  { s with fab := { s.fab with
      rx := s.fab.rx.filter (fun f => !mine f.id), tx := s.fab.tx.filter (fun f => !mine f.id),
      credits := s.fab.credits.filter (fun x => !(x.peer == o.peer && x.host == o.host && x.plane == o.plane)) } }

/-- The peer table has room (R343): 4,096 endpoints. -/
def State.peerRoom (s : State) (o : JoinOffer) : Bool :=
  let es := (s.fab.peers.map (fun p => (p.num, p.host))).dedup
  es.contains (o.peer, o.host) || decide (es.length < 4096)

/-- What a peer shows, as the peer table holds it (R343), with nothing sent or received under the key. -/
def peerEntry (o : JoinOffer) (assoc : BitVec 256) : Peer where
  num := o.peer
  host := o.host
  plane := o.plane
  gen := min 3 o.gen
  key := o.chain.head?.getD 0
  addr := o.planeAddr
  macs := o.macs
  sscis := o.sscis
  assoc := assoc
  oldKey := none
  sent := []
  seen := []
  oldSeen := []
  digests := o.digests
  unreachable := false

/-- A rekey: a new association key with its SSCIs and packet numbers; the key before is held until the peer's first frame
under the new one (R344). -/
def Peer.rekeyed (p : Peer) (o : JoinOffer) (assoc : BitVec 256) : Peer :=
  { p with key := o.chain.head?.getD 0, sscis := o.sscis, assoc := assoc, oldKey := some p.assoc, sent := [], seen := [],
           oldSeen := p.seen, digests := o.digests.orElse (fun _ => p.digests) }

/-- A JOIN exchange on an Ethernet port: a rekey of a joined pair, or a join, which ends what the pair's join before it on
that plane left unacknowledged (R344). An exchange that the peer began has this module's side as its answer (R462). -/
def State.joinEthernet (s : State) (o : JoinOffer) : State :=
  let asked := s.fab.joinWait.any (fun w => w.1 == o.peer && w.2.1 == o.host && w.2.2.1 == o.plane) ||
    s.fab.rekeying.contains (o.peer, o.host)
  let s := if asked then s else s.sendJoin o.peer o.host (some o.plane)
  let d := s.draw
  let s := d.2
  let assoc := Config.linkKey d.1
  let waits := s.fab.joinWait.filter (fun w => !(w.1 == o.peer && w.2.1 == o.host && w.2.2.1 == o.plane))
  let s := { s with fab := { s.fab with joinWait := waits, rekeying := s.fab.rekeying.filter (· != (o.peer, o.host)) } }
  let s :=
    if s.joinedOn o.peer o.host o.plane then
      s.modPeer o.peer o.host o.plane (fun p => p.rekeyed o assoc)
    else
      let s := if s.reachable o.peer o.host then s.cutPlane o.peer o.host o.plane else s.cutOff o.peer o.host
      let s := s.freshFlows o
      let others := s.fab.peers.filter (fun q => !(q.num == o.peer && q.host == o.host && q.plane == o.plane))
      { s with fab := { s.fab with peers := others ++ [peerEntry o assoc] } }
  ((s.joinBinding o).sendDigests o.peer)

/-- Join exchanges that wait at once (R441). -/
def joiningMax : Nat := 256

/-- A join on an Ethernet port is admitted: a known identity, room in the peer table, a plane and a generation there are, and
MACsec (R342). -/
def State.mayJoinEthernet (s : State) (o : JoinOffer) : Bool :=
  s.mayJoin o && s.peerRoom o && o.macsec && decide (o.plane < 2) && decide (1 ≤ o.gen)

/-- A join exchange is done, refused, or, with the queue full, discarded without reply (R441, R462); one through Parlour's
port runs MACsec too (R429, R459). -/
def State.joinSeen (s : State) (o : JoinOffer) : State :=
  if o.viaParlour then
    if !s.power.parlour then s
    else if s.mayJoin o && o.macsec && decide (1 ≤ o.gen) then
      ({ s with safety := { s.safety with joined := o.peer :: s.safety.joined.filter (· != o.peer),
                                          gens := tput s.safety.gens o.peer (min 3 o.gen) } }).sendJoin o.peer o.host none
    else s.refuse clsBoot 0
  else if !s.power.die || !s.power.started || !s.numbered || decide (joiningMax ≤ s.fab.joining) then s
  else
    let s := { s with fab := { s.fab with joining := s.fab.joining + 1 } }
    if s.mayJoinEthernet o then s.joinEthernet o
    else s.refuse clsBoot 0

def execJoin (o : JoinOffer) (s : State) : Result := done (s.joinSeen o)

/-! ### Staging (R470 to R472) -/

/-- Largest body of a kind (Table 16.4). -/
def maxBody (kind : Nat) : Nat :=
  match kind with
  | 1 => 32 * 2 ^ 20
  | 2 => 8 * 2 ^ 20
  | 3 => 64 * 2 ^ 20
  | 4 => 8 * 2 ^ 20
  | 5 => 16 * 2 ^ 20
  | _ => 0

def imgWord (h : List Byte) (i : Nat) : Nat := leNat ((h.drop (4 * i)).take 4)

/-- MAGIC, KIND and MEMBER. -/
def headerOk (kind : Nat) (h : List Byte) : Bool :=
  imgWord h 0 == 0x51464D57 && fieldOf (imgWord h 1) 31 24 == kind && fieldOf (imgWord h 1) 23 16 == 0x40

/-- The image that a header and a body make. -/
def imageFrom (kind : Nat) (h body : List Byte) : Image where
  kind := kind
  build := fieldOf (imgWord h 1) 15 0
  settingsVersion := fieldOf (imgWord h 2) 31 16
  compat := fieldOf (imgWord h 2) 15 8
  svn := fieldOf (imgWord h 2) 7 0
  magicOk := true
  digest := digestOf ((h.drop 16).take 64)
  bodyOk := decide (sha512 body = digestOf ((h.drop 16).take 64))
  signed := Config.firmwareSigned (sha512 (h.take 80)) (BitVec.ofNat 1056 (leNat ((h.drop 80).take 132)))

def State.images (s : State) (kind : Nat) : ImageState := tget (ImageState.factory kind) s.boot.images kind

def State.setImages (s : State) (kind : Nat) (x : ImageState) : State :=
  { s with boot := { s.boot with images := tput s.boot.images kind x } }

def State.stageEnds (s : State) (status : Nat) : State :=
  { s with boot := { s.boot with staging := none, stageStatus := status } }

/-- An image that failed a check before it was written: its slot is left unstaged. -/
def State.unstaged (s : State) (kind : Nat) : State := s.setImages kind { s.images kind with staged := false }

/-- An image in its inactive slot, if what was read back matches. -/
def State.stageSlot (s : State) (i : Image) : State :=
  let x := s.images i.kind
  let slot := 1 - x.active
  s.setImages i.kind (if i.bodyOk then { x with slots := x.slots.set slot (some i), next := slot, staged := true, triedOnce := false }
    else { x with slots := x.slots.set slot none, staged := false })

def stageOutcome (i : Image) : Nat := if i.bodyOk then 1 else 4

def State.stageWrite (s : State) (i : Image) : State := (s.stageSlot i).stageEnds (stageOutcome i)

/-- STAGE_COMMAND with START: the header is checked and the flash write begins. -/
def State.stageStart (s : State) (kind : Nat) : State :=
  let a := s.reg64 Reg.BOOT_STAGE_SRC_LO
  let n := s.reg Reg.BOOT_STAGE_LENGTH
  if s.boot.staging.isSome || decide (kind = 0) || decide (4 < kind) then s.refuse clsBoot Reg.BOOT_STAGE_COMMAND
  else if !(zSpace a == 0 && s.ownMapped a (max n 512)) || decide (n < 512) then (s.unstaged kind).stageEnds 2
  else
    let h := (s.nocServe true 0 (zOff a) n).readMem hostReader 0 (zOff a) 512
    if h.bad.isSome || !headerOk kind h.data then (h.s.unstaged kind).stageEnds 2
    else if maxBody kind < imgWord h.data 3 ∨ n ≠ 512 + imgWord h.data 3 then (h.s.unstaged kind).stageEnds 3
    else
      let b := h.s.readMem hostReader 0 (zOff a + 512) (imgWord h.data 3)
      let i := imageFrom kind h.data b.data
      { b.s with boot := { b.s.boot with staging := some { i with bodyOk := i.bodyOk && b.bad.isNone }, stageStatus := 0 } }

def execStageStart (kind : Nat) (s : State) : Result := done (s.stageStart kind)

def execStagingComplete (s : State) : Result :=
  done (match s.boot.staging with
  | some i => s.stageWrite i
  | none => s)

/-! #### Parlour's own image (R472, R479) -/

def parlourBuffer : Nat := 512 + 16 * 2 ^ 20

def execParlourStageOffsetWrite (v : Word) (s : State) : Result := done (s.setReg Reg.BOOT_PARLOUR_STAGE_OFFSET v.toNat)

/-- Words appended to the staging buffer; none beyond the largest image. -/
def State.stageAppend (s : State) (data : List Word) : State :=
  let off := s.reg Reg.BOOT_PARLOUR_STAGE_OFFSET
  let bs := data.flatMap (fun w => leBytes 4 w.toNat)
  if parlourBuffer < off + bs.length then s.refuse clsBoot Reg.BOOT_PARLOUR_STAGE_OFFSET
  else (s.setCells (setBytes s.mem.cells (stagingKey off) bs)).setReg Reg.BOOT_PARLOUR_STAGE_OFFSET (off + bs.length)

def execParlourStageAppend (data : List Word) (s : State) : Result := done (s.stageAppend data)

/-- PARLOUR_COMMIT ends; a staging of a die-side image goes on. -/
def State.commitEnds (s : State) (status : Nat) : State := { s with boot := { s.boot with stageStatus := status } }

def State.parlourCommit (s : State) : State :=
  let n := s.reg Reg.BOOT_PARLOUR_STAGE_OFFSET
  let h := bytesAt s.mem.cells (stagingKey 0) 512
  if n < 512 || !headerOk 5 h then (s.unstaged 5).commitEnds 2
  else if maxBody 5 < imgWord h 3 ∨ n ≠ 512 + imgWord h 3 then (s.unstaged 5).commitEnds 3
  else
    let i := imageFrom 5 h (bytesAt s.mem.cells (stagingKey 512) (imgWord h 3))
    (s.stageSlot i).commitEnds (stageOutcome i)

def execParlourCommit (s : State) : Result := done s.parlourCommit

/-! ### Verification (R473, R474) -/

/-- An image passes. -/
def State.imagePasses (s : State) (kind : Nat) (i : Option Image) : Bool :=
  match i with
  | none => false
  | some x => x.magicOk && x.kind == kind && decide (s.boot.svnFused ≤ x.svn) && x.signed && x.bodyOk

/-- The slot an image is booted from: NEXT first, then the other; whether it fell back. -/
def State.chooseSlot (s : State) (kind : Nat) : Option (Nat × Bool) :=
  let x := s.images kind
  if s.imagePasses kind (x.slots.getD x.next none) then some (x.next, false)
  else if s.imagePasses kind (x.slots.getD (1 - x.next) none) then some (1 - x.next, true)
  else none

/-- An image staged and booted once without a successful start goes back to the slot of the last one (R474). -/
def State.revertTried (s : State) (kind : Nat) : State :=
  let x := s.images kind
  if x.staged && x.triedOnce then s.setImages kind { x with next := x.active, triedOnce := false } else s

/-- An image boots from a slot, and runs. -/
def State.bootSlot (s : State) (kind slot : Nat) (fell : Bool) : State :=
  let x := s.images kind
  s.setImages kind { x with booted := some slot, fellBack := fell, running := x.slots.getD slot none,
                            triedOnce := x.staged && slot == x.next }

/-- Parlour boots its own image; with none that passes it does not start. -/
def State.bootParlour (s : State) : State :=
  let s := s.revertTried 5
  match s.chooseSlot 5 with
  | some (slot, fell) =>
    let s := s.bootSlot 5 slot fell
    let s := { s with power := { s.power with parlour := true } }
    if fell then s.event clsBoot 0 evState 0 else s
  | none =>
    let s := s.setImages 5 { s.images 5 with booted := none, running := none }
    ({ s with power := { s.power with parlour := false } }).raise { code := 0x0C01, cls := clsBoot, inst := 0, addr := 4 }

/-- PARLOUR_ACTIVATE: Parlour restarts; missing acknowledgements do not count for 2 s. -/
def State.parlourActivate (s : State) : State :=
  if s.planRuns then s.refuse clsBoot Reg.BOOT_PARLOUR_ACTIVATE
  else
    let s := s.parlourRestart.bootParlour
    { s with safety := { s.safety with suspended := some (s.clock.now + 1400000000) } }

def execParlourActivate (s : State) : Result := done s.parlourActivate

/-! ### Security version, activation -/

/-- SVN_COMMIT, and whether it is ignored: v above SVN_FUSED and no greater than the SVN of any image. -/
def State.svnCommit (s : State) (v : Word) : State × Bool :=
  let v := v.toNat % 256
  let least := (s.boot.images.flatMap (fun x => x.2.slots)).all (fun i => match i with
    | some x => decide (v ≤ x.svn)
    | none => true)
  if s.boot.svnFused < v ∧ least then ({ s with boot := { s.boot with svnFused := v } }, false)
  else (s.refuse clsBoot Reg.BOOT_SVN_COMMIT, true)

def execSvnCommit (v : Word) (s : State) : Result := done (s.svnCommit v).1

/-- A write of ACTIVATE_AT_PHASE_HI. -/
def State.activateArm (s : State) (hi : Word) : State :=
  let s := s.setReg Reg.BOOT_ACTIVATE_AT_PHASE_HI hi.toNat
  let t := s.reg64 Reg.BOOT_ACTIVATE_AT_PHASE_LO
  if s.clock.locked && decide (s.phaseNat + 1024 * 4096 ≤ t) && s.power.restore.isNone then
    { s with boot := { s.boot with armed := some (BitVec.ofNat 64 t) } }
  else s.refuse clsBoot Reg.BOOT_ACTIVATE_AT_PHASE_HI

def execActivateArm (hi : Word) (s : State) : Result := done (s.activateArm hi)

def State.activateCancel (s : State) : State := { s with boot := { s.boot with armed := none } }

def execActivateCancel (s : State) : Result := done s.activateCancel

/-! ### A successful start (R474, R481) -/

/-- Awaiting plan is reached: ACTIVE takes the slots booted, a candidate generation becomes current. -/
def State.startSucceeded (s : State) : State :=
  let ended := fun (x : ImageState) =>
    { x with active := x.booted.getD x.active, staged := false, triedOnce := false }
  let images := s.boot.images.map (fun x => (x.1, ended x.2))
  let s := { s with boot := { s.boot with images := images } }
  let s := if s.boot.migration then s.putSettings s.areaInUse { s.boot.settings with current := true } else s
  let s := { s with boot := { s.boot with migration := false } }
  s.setReg Reg.POWER_START_MS ((s.clock.now - s.power.releasedAt) / 700000)

/-- SYNC_INTERVAL_END: the first lock of a start makes it a successful one. -/
def execSyncIntervalEnd (s : State) : Result :=
  done (let t := s.syncInterval
    if !s.clock.everLocked && t.clock.everLocked then t.startSucceeded else t)

end Sys2Proof.Machine
end

