-- ==== Sys2Proof/Machine/Power.lean ====
section
/-!
DEFINITION. Supplies, start-up, clocks and temperature (chapter 15; R473 to R475, R478, R481, R502 to R509). Commands:
AUX_RAIL_UP, AUX_RAIL_LOSS, BULK_NODE_CROSSING, INPUT_QUALIFIED, RAILS_IN_REGULATION, DIE_START, STACK_TRAINED,
TIER_TRAINED, START_TIMEOUT, SUPPLY_WARNING, SUPPLY_CLEAR, SUPPLY_RESUME, SUPPLY_HOLD, SUPPLY_RESET, SENSE_BLADE_UNMATE,
SENSE_BLADE_MATE, DROOP_TRIP, DROOP_RECOVER, THERMAL_SAMPLE, THERMAL_TRIP_TIMER, REFCLK_PORT_LOSS, REFCLK_DIE_LOSS,
REFCLK_DIE_RETURN, REFCLK_DIE_TIMEOUT, ACTIVATION_TICK.
-/

namespace Sys2Proof.Machine

/-! ### What a die reset leaves (Table 15.3) -/

/-- Registers that keep their value: POWER's, which Parlour serves, but for its Pail; the receivers of SAFETY page 2;
across a warm restart the code maps and Churn positions too. -/
def keptReg (warm : Bool) (a : Nat) : Bool :=
  (fieldOf a 31 24 == clsPower && a != Reg.PAIL_LEVEL clsPower 0) || (fieldOf a 31 24 == clsSafety && fieldOf a 15 12 == 2) ||
  (warm && fieldOf a 31 24 == clsHbm && (fieldOf a 15 12 == 2 || a % 0x10000 == 0x1024 || a % 0x10000 == 0x1028))

/-- Memory across a die reset: a warm restart keeps the stacks and the tier; Parlour's staging buffer always stays. -/
def Memory.afterReset (m : Memory) (warm : Bool) : Memory :=
  { Memory.reset with
    cells := m.cells.filter (fun c => decide (stagingKey 0 ≤ c.1) || (warm && decide (c.1 < scratchKey 0 0)))
    errs := if warm then m.errs else []
    recoded := if warm then m.recoded else []
    churn := if warm then m.churn else [] }

/-- What an update engine's memory keeps across a warm restart: undo and the commands to be completed (R308). -/
def UpdUnit.afterReset (u : UpdUnit) : UpdUnit :=
  { UpdUnit.reset with undo := u.undo, sepUndo := u.sepUndo, kept := u.kept, ruleOf := u.ruleOf }

/-- A staging in progress is abandoned: its slot holds no image and is not staged (R478). -/
def State.abandonStaging (s : State) : State :=
  match s.boot.staging with
  | none => s
  | some i =>
    let x := s.images i.kind
    s.setImages i.kind { x with slots := x.slots.set (1 - x.active) none, next := x.active, staged := false, triedOnce := false }

/-- The settings areas when the die stops: a generation that was being written fails its HMAC (R482). -/
def BootState.torn (b : BootState) : List (List (Option Settings)) :=
  match b.writing with
  | none => b.areas
  | some k => b.areas.set k ((b.areas.getD k []).map (fun c => c.map (fun x => { x with usable := false })))

def BootState.afterReset (b : BootState) (warm : Bool) : BootState :=
  { b with
    staging := none
    stageStatus := if warm && b.staging.isSome then 5 else 0
    armed := none
    bind := if b.bind = .changed then .bound else b.bind
    confirmed := false
    seenKey := 0
    inForce := []
    factoryOk := false
    fallback := false
    areas := b.torn
    writing := none }

/-- Parlour holds the die in reset. -/
def PowerState.afterReset (p : PowerState) (warm : Bool) : PowerState :=
  { p with
    die := false
    started := false
    booting := 0
    timedOut := []
    halted := false
    hold := false
    cleared := none
    heldOut := false
    droop := []
    overAt := none
    capUnmet := false
    trained := []
    tiers := []
    restore := none
    tierKeys := if warm then p.tierKeys else [] }

/-- Parlour holds the stop and what it first saw (Table 14.6); the rest of SAFETY_STATUS takes its reset values (Table 14.7). -/
def SafetyState.afterReset (f : SafetyState) : SafetyState :=
  { f with
    blocked := false
    detectedAt := none
    reportSent := false
    reportAcked := false
    selftestOk := false
    hbMisses := 0
    hbLost := false
    plLost := false
    hbSlot := none
    plMisses := 0
    parlourAlive := false
    suspended := none }

/-- Every unit of the die and of both chiplets restarts. -/
def State.dieReset (s : State) (warm : Bool) : State :=
  let s := s.abandonStaging
  { s with
    mem := s.mem.afterReset warm
    regs := s.regs.filter (fun r => keptReg warm r.1)
    clock := { Clock.reset with now := s.clock.now, ticks := s.clock.ticks }
    run := RunState.reset
    seps := []
    upds := if warm then (List.range 12).foldl (fun t i => tputD UpdUnit.reset t i (s.upd i).afterReset) [] else []
    mirrors := []
    fab := Fabric.reset
    ctl := { Control.reset with free := s.ctl.free }
    safety := s.safety.afterReset
    power := s.power.afterReset warm
    boot := s.boot.afterReset warm }

/-- R449: the conversion off, the die in reset, the state Standby. -/
def State.supplyReset (s : State) (cause : Nat) : State :=
  let s := s.dieReset false
  { s with power := { s.power with conversion := false, inputOk := false, resetCause := cause, restarting := false } }

/-! ### The rails (R437, R503, R504, R507) -/

/-- AUX_RAIL_UP: Parlour starts, boots its image and holds the switch's enable; its report counters start anew (R435). -/
def State.auxUp (s : State) : State :=
  if s.power.aux then s
  else
    let s := (s.setReg Reg.SAFETY_REPORTS_SENT 0).setReg Reg.SAFETY_REPORTS_ACKED 0
    let p := { s.power with aux := true, startedAt := s.clock.now, resetCause := 0, bootCount := 0, limitAt := s.clock.now, limitMs := 0 }
    ({ s with power := p }).bootParlour

def execAuxRailUp (s : State) : Result := done s.auxUp

/-- AUX_RAIL_LOSS: Off. What stays lies in flash: images, settings, fuses, receivers. -/
def State.auxLost (s : State) : State :=
  if s.power.aux then
    let t := s.dieReset false
    { t with
      mem := Memory.reset
      regs := t.regs.filter (fun r => fieldOf r.1 31 24 == clsSafety)
      safety := SafetyState.reset
      power := { PowerState.reset with mated := s.power.mated, refclkDie := s.power.refclkDie, throttle := false }
      boot := { t.boot with stageStatus := 0 } }
  else s

def execAuxRailLoss (s : State) : Result := done s.auxLost

def execSenseBladeMate (s : State) : Result := done { s with power := { s.power with mated := true } }

/-- SENSE_BLADE_UNMATE: the switch opens; the node then falls through the levels of R445. -/
def execSenseBladeUnmate (s : State) : Result := done { s with power := { s.power with mated := false } }

/-- BULK_NODE_CROSSING before the conversion is enabled: through the closed switch the node rises, or it falls. -/
def State.bulkCrossing (s : State) (rising : Bool) : State :=
  if s.power.conversion then s
  else if rising then
    if s.power.aux && s.power.mated then { s with power := { s.power with bulk := true } } else s
  else { s with power := { s.power with bulk := false } }

def execBulkNodeCrossing (rising : Bool) (s : State) : Result := done (s.bulkCrossing rising)

/-- INPUT_QUALIFIED: the node stayed above 46.5 V for 20 ms. Stage 2 waits for the input; its end stands for the 60 ms that
Table 15.2 gives it (log entry 45). -/
def State.inputQualified (s : State) : State :=
  if s.power.parlour && s.power.mated && s.power.bulk && !s.power.conversion then
    { s with power := { s.power with conversion := true, inputOk := true, limitAt := s.clock.now, limitMs := 60 } }
  else s

def execInputQualified (s : State) : Result := done s.inputQualified

/-- RAILS_IN_REGULATION: die reset is released; the state becomes Starting. -/
def State.railsUp (s : State) : State :=
  if s.power.parlour && s.power.conversion && !s.power.die then
    { s with power := { s.power with die := true, bootCount := s.power.bootCount + 1, releasedAt := s.clock.now,
                                     warm := s.power.restarting, restarting := false } }
  else s

def execRailsInRegulation (s : State) : Result := done s.railsUp

/-! ### The start of the die (R77, R438, R473 to R475, R481 to R483) -/

def State.imageInvalid (s : State) (item : Nat) : State :=
  let s := { s with power := { s.power with halted := true } }
  s.raise { code := 0x0C01, cls := clsBoot, inst := 0, addr := item }

def dieKinds : List Nat := [1, 2, 3, 4]

/-- COMPAT of the image a kind is booted from. -/
def State.compatOf (s : State) (kind slot : Nat) : Option Nat := (((s.images kind).slots.getD slot none)).map (·.compat)

def State.bootImage (s : State) (kind slot : Nat) (fell : Bool) : State :=
  let s := s.bootSlot kind slot fell
  if fell then ({ s with boot := { s.boot with fallback := true } }).event clsBoot 0 evState 0 else s

/-- The slots of the four die-side images, NEXT first (R473); the first kind without any. -/
def State.slotsChosen (s : State) : List (Nat × Option (Nat × Bool)) := dieKinds.map (fun k => (k, s.chooseSlot k))

/-- All from the slots of the last successful start (R474); one whose NEXT is another slot fell back (Table 16.10). -/
def State.bootActive (s : State) : State :=
  match dieKinds.find? (fun k => !s.imagePasses k ((s.images k).slots.getD (s.images k).active none)) with
  | some k => s.imageInvalid (k - 1)
  | none =>
    let t := dieKinds.foldl (fun (t : State) k =>
      t.bootSlot k (t.images k).active ((t.images k).active != (t.images k).next)) s
    { t with boot := { t.boot with fallback := true } }

def State.bootImages (s : State) : State :=
  let s := dieKinds.foldl (fun t k => t.revertTried k) s
  let pick := s.slotsChosen
  match pick.find? (fun x => x.2.isNone) with
  | some x => s.imageInvalid (x.1 - 1)
  | none =>
    let t := pick.foldl (fun (t : State) x => match x.2 with
      | some (slot, fell) => t.bootImage x.1 slot fell
      | none => t) s
    let compats := pick.map (fun x => match x.2 with
      | some (slot, _) => s.compatOf x.1 slot
      | none => none)
    if compats.dedup.length ≤ 1 then t else t.bootActive

/-- SETTINGS_VERSION of the Steward that runs. -/
def State.ownFormat (s : State) : Nat :=
  let x := s.images 1
  match x.slots.getD (x.booted.getD x.active) none with
  | some i => i.settingsVersion
  | none => 0

/-- Generations a start may use, of either flash device's copy; the one of highest GEN. -/
def State.bestSettings (s : State) : Option Settings :=
  (s.boot.areas.flatten.filterMap id).foldl (fun (best : Option Settings) x =>
    if x.usable && decide (x.format ≤ s.ownFormat) then
      match best with
      | none => some x
      | some b => if b.gen < x.gen then some x else some b
    else best) none

/-- R481, R482. -/
def State.takeSettings (s : State) : State :=
  match s.bestSettings with
  | none =>
    let s := { s with boot := { s.boot with settings := Settings.none_, migration := false, bind := .unbound } }
    s.raise { code := 0x0C02, cls := clsBoot, inst := 0 }
  | some x =>
    let s := { s with boot := { s.boot with settings := x, migration := !x.current } }
    if x.format < s.ownFormat then
      let t := s.putSettings (1 - s.areaInUse) { x with gen := x.gen + 1, format := s.ownFormat, current := false }
      { t with boot := { t.boot with migration := true } }
    else s

/-- The binding of the settings in use. -/
def State.takeBinding (s : State) : State :=
  let b := match s.boot.settings.twin with
    | none => BindState.unbound
    | some _ => if s.boot.bind = .unbound then .bound else s.boot.bind
  { s with boot := { s.boot with bind := b } }

/-- R438: the number Parlour holds is written, locked against a later write. -/
def State.takeNumber (s : State) : State :=
  match s.power.moduleNumber with
  | some n => s.setReg (Reg.FABRIC_MODULE_NUMBER 0) (2 ^ 12 + n % 4096)
  | none => s

/-- Stage 4 of Table 15.2: images, entropy tests, factory calibration; then the settings, the number and SVN_FUSED as
measured. -/
def State.bootSteward (s : State) (r : StartReport) : State :=
  let s := s.bootImages
  if s.power.halted then s
  else if 3 ≤ r.entropyFails then
    ({ s with power := { s.power with halted := true } }).event clsBoot 0 evState 0
  else if !r.calibrationOk then s.imageInvalid 5
  else
    let s := (((s.takeSettings).takeBinding).takeCalibration).takeNumber
    { s with boot := { s.boot with svnStart := s.boot.svnFused } }

/-- Stages 5 and 6: the chiplets' images, then the rest; a unit that mismatches twice halts the start (R475). With stage 6
the lane generators are seeded, and the blocks are in service. -/
def State.loadImages (s : State) (r : StartReport) : State :=
  match r.readBackBad with
  | some kind => s.imageInvalid (kind.val - 1)
  | none =>
    let s := { s with power := { s.power with booting := max s.power.booting r.ended.val } }
    if r.ended = 3 then
      let s := s.seedAll
      { s with power := { s.power with started := true } }
    else s

/-- DIE_START, as far as stages 4 to 6 have come. -/
def State.dieStart (s : State) (r : StartReport) : State :=
  if !s.power.die || s.power.started || s.power.halted || r.ended = 0 then s
  else
    let s := if s.power.booting = 0 then s.bootSteward r else s
    if s.power.halted then s else s.loadImages r

def execDieStart (r : StartReport) (s : State) : Result := done (s.dieStart r)

/-- STACK_TRAINED (R259): after a cold power-up the default code map, and every block written as zero. -/
def State.stackTrained (s : State) (st : Nat) : State :=
  if !s.power.die || !s.power.started || s.power.trained.contains st then s
  else
    let s := { s with power := { s.power with trained := s.power.trained ++ [st] } }
    let s := s.setChurn st ⟨s.clock.ticks, 0⟩
    if s.power.warm then s
    else
      let lo := st * stackBytes
      let inStack := fun (blk : Nat) => decide (lo ≤ 64 * blk) && decide (64 * blk < lo + stackBytes)
      { s with
        mem := { s.mem with cells := zeroBytes s.mem.cells lo stackBytes, errs := s.mem.errs.filter (fun e => !inStack e.1) }
        regs := s.regs.filter (fun r => !(fieldOf r.1 31 16 == clsHbm * 256 + st && fieldOf r.1 15 12 == 2)) }

def execStackTrained (st : Fin 12) (s : State) : Result := done (s.stackTrained st)

/-- A 256-bit key from the die's entropy source, of those that a draw stands for (R77). -/
def tierKey (draw i : Nat) : BitVec 256 :=
  Config.entropy (16 * draw + 4 * i) ++ Config.entropy (16 * draw + 4 * i + 1) ++ Config.entropy (16 * draw + 4 * i + 2) ++
    Config.entropy (16 * draw + 4 * i + 3)

/-- TIER_TRAINED: a chiplet's packages; at a cold power-up its keys are drawn and its contents are lost (R274). -/
def State.tierTrained (s : State) (c : Nat) : State :=
  if !s.power.die || !s.power.started || s.power.tiers.contains c then s
  else
    let s := { s with power := { s.power with tiers := s.power.tiers ++ [c] } }
    if s.power.warm then s
    else
      let d := s.draw
      { d.2 with power := { d.2.power with tierKeys := tput d.2.power.tierKeys c (tierKey d.1 0, tierKey d.1 1) } }

def execTierTrained (c : Fin 2) (s : State) : Result := done (s.tierTrained c)

/-- The limit of a stage, in ms (Table 15.2). -/
def stageLimit (g : Nat) : Option Nat := [none, some 60, none, some 100, some 600, some 650, some 900, some 1300, some 3000].getD g none

/-- START_TIMEOUT: the stage in progress has a limit and did not end by it; once for each stage. -/
def State.startTimeout (s : State) : State :=
  let g := s.startStage
  if !(stageLimit g).any (fun ms => decide (s.limitCycle ms ≤ s.clock.now)) || s.power.timedOut.contains g then s
  else
    let s := { s with power := { s.power with timedOut := g :: s.power.timedOut } }
    s.raise { code := 0x0B03, cls := clsPower, inst := 0, addr := g }

def execStartTimeout (s : State) : Result := done s.startTimeout

/-! ### Untrusted segments (R446, R447, R450) -/

/-- A segment released and not ended is declared untrusted. -/
def State.distrust (s : State) (c : Nat) : State :=
  match (s.core c).seg with
  | some g => s.setSeg c { g with untrusted := true }
  | none => s

/-- It reloads and reruns (R46); a reload under way is issued again. A third attempt made untrusted meets its limit here, at
the resume, with no address (log entry 53). -/
def State.rerunUntrusted (s : State) (c : Nat) : State :=
  match (s.core c).seg with
  | none => s
  | some g =>
    if !g.untrusted then s
    else if 3 ≤ g.attempt ∧ g.status ≠ .reloading then s.raise (segFault c g 0x0106 0)
    else
      let s := ((s.setSeg c { g with status := .reloading, untrusted := false }).askOrigins c g).bump Reg.POWER_UNTRUSTED_RERUNS
      if g.status = .reloading then s else s.bump (Reg.CORE_RERUNS c)

def allCores : List Nat := List.range 64

def quarterCores (q : Nat) : List Nat := (List.range 16).map (· + 16 * q)

/-! ### Supply hold (R446 to R448, R509) -/

def State.enterHold (s : State) : State :=
  if s.power.hold then s
  else
    let s := { s with power := { s.power with hold := true, holdAt := s.clock.now, heldOut := false } }
    let s := (List.range 8).foldl (fun t h => t.setHerd h { t.herd h with frozen := true }) s
    allCores.foldl (fun t c => t.distrust c) s

/-- A warning, of the input or of the die's clock: counted; an earlier clear no longer leads to a resume. -/
def State.warn (s : State) : State :=
  let s := (s.enterHold).bump Reg.POWER_SUPPLY_WARNINGS
  { s with power := { s.power with cleared := none, warnAt := s.clock.now } }

def execSupplyWarning (s : State) : Result :=
  done (if s.power.conversion && s.power.inputOk then
    ({ s with power := { s.power with inputOk := false } }).warn else s)

/-- Input and clock both well: the resume is due. -/
def State.wellAgain (s : State) : State :=
  if s.power.hold && s.power.inputOk && s.power.refclkDie then
    { s with power := { s.power with cleared := some s.phaseNat } }
  else s

def execSupplyClear (s : State) : Result :=
  done (if s.power.hold && !s.power.inputOk then ({ s with power := { s.power with inputOk := true } }).wellAgain else s)

def execRefclkDieLoss (s : State) : Result :=
  done (if s.power.conversion && s.power.refclkDie then
    ({ s with power := { s.power with refclkDie := false } }).warn else s)

def execRefclkDieReturn (s : State) : Result :=
  done (if s.power.refclkDie then s else ({ s with power := { s.power with refclkDie := true } }).wellAgain)

/-- REFCLK_DIE_TIMEOUT: as a supply reset. -/
def execRefclkDieTimeout (s : State) : Result :=
  done (if s.power.conversion && !s.power.refclkDie then s.supplyReset 1 else s)

/-- Tick 16 of the first slot edge at least 16 ticks after a clear. -/
def resumeTick (clear : Nat) : Nat := roundUp (clear + 16) 4096 + 16

/-- An update engine takes up again: the batch written in the hold is undone and computed again; a working pass starts
from its first batch. -/
def State.redoBatch (s : State) (st : Nat) : State :=
  match (s.upd st).cur with
  | none => s
  | some r =>
    let s := if r.redo then s.bump Reg.POWER_UNTRUSTED_BATCHES else s
    if r.pass = .working then
      if (s.upd st).acking.contains r.shard then s
      else s.setRun st (some { r with redo := false, batch := 0, summary := 0, retries := [] })
    else if r.redo then
      let u := s.undoBatch st r.shard r.cmd.reader
      if u.2 then u.1.setRun st (some { r with redo := false })
      else (u.1.inconsistent st r.shard).abandon st r.cmd (u.1.zAddr 0 ((u.1.undoAt st 1).getD 0))
    else s

/-- A Separator goes on with its next batch (R159). -/
def State.resumeSep (s : State) (st : Nat) : State :=
  s.setSep st { s.sep st with cur := (s.sep st).cur.map (fun r => { r with held := false }) }

/-- The warm restart of R453, at the armed tick or at the resume. -/
def State.activate (s : State) : State :=
  let s := if s.planRuns then s.planStop else s
  let s := s.dieReset true
  { s with power := { s.power with restarting := true, resetCause := 3, limitAt := s.clock.now, limitMs := 0 } }

def State.activationDue (s : State) : Bool := s.boot.armed.any (fun t => decide (t.toNat ≤ s.phaseNat))

/-- SUPPLY_RESUME. -/
def State.supplyResume (s : State) : State :=
  match s.power.cleared with
  | none => s
  | some t =>
    if !s.power.hold || decide (s.phaseNat < resumeTick t) then s
    else
      let s := s.bump Reg.POWER_SUPPLY_RESUMES
      let s := s.setReg Reg.POWER_HOLD_TICKS_LAST (min (2 ^ 32 - 1) (ticksSince s s.power.warnAt))
      let s := { s with power := { s.power with hold := false, cleared := none, heldOut := false } }
      if s.activationDue then s.activate
      else
        let s := (List.range 8).foldl (fun t h => t.resume h) s
        let s := allCores.foldl (fun t c => if t.power.droop.any (fun d => d.1 == c / 16) then t else t.rerunUntrusted c) s
        ((List.range 12).foldl (fun t i => ((t.redoBatch i).resumeSep i).intakeHeld i) s).redIntake

def execSupplyResume (s : State) : Result := done s.supplyResume

/-- HOLD_LIMIT, 0 taken as 1. -/
def State.holdLimit (s : State) : Nat := max 1 (fieldOf (s.reg Reg.POWER_HOLD_LIMIT) 15 0)

/-- SUPPLY_HOLD: longer than HOLD_LIMIT slots, once in a hold. -/
def State.holdTooLong (s : State) : State :=
  if s.power.hold && !s.power.heldOut && decide (s.holdLimit * 4096 < ticksSince s s.power.holdAt) then
    ({ s with power := { s.power with heldOut := true } }).raise
      { code := 0x0B02, cls := clsPower, inst := 0, addr := s.reg Reg.POWER_INPUT_MV % 2 ^ 16 }
  else s

def execSupplyHold (s : State) : Result := done s.holdTooLong

/-- SUPPLY_RESET: through 42.0 V. -/
def execSupplyReset (s : State) : Result :=
  done (if s.power.conversion then
    let t := s.supplyReset 1
    { t with power := { t.power with bulk := false } }
  else s)

/-! ### Droop (R450) -/

/-- Herds with a core in a quarter. -/
def State.quarterHerds (s : State) (q : Nat) : List Nat := ((quarterCores q).map (fun c => (s.core c).herd)).dedup

/-- DROOP_TRIP; a further trip of a quarter that has not recovered counts too. -/
def State.droopTrip (s : State) (q : Nat) : State :=
  if !s.power.die then s
  else
    let others := s.power.droop.filter (fun d => d.1 != q)
    let s := { s with power := { s.power with droop := others ++ [(q, s.clock.now)] } }
    let s := (s.bump Reg.POWER_DROOP_EVENTS).setReg Reg.POWER_LAST_DROOP (s.slot % 2 ^ 30 * 4 + q)
    let s := (s.quarterHerds q).foldl (fun t h => t.setHerd h { t.herd h with frozen := true }) s
    (quarterCores q).foldl (fun t c => t.distrust c) s

def execDroopTrip (q : Fin 4) (s : State) : Result := done (s.droopTrip q)

/-- DROOP_RECOVER: 64 core cycles above the level. -/
def State.droopRecover (s : State) (q : Nat) : State :=
  if s.power.droop.any (fun d => d.1 == q) then
    let s := { s with power := { s.power with droop := s.power.droop.filter (fun d => d.1 != q) } }
    let s := (s.quarterHerds q).foldl (fun t h => t.resume h) s
    if s.power.hold then s else (quarterCores q).foldl (fun t c => t.rerunUntrusted c) s
  else s

def execDroopRecover (q : Fin 4) (s : State) : Result := done (s.droopRecover q)

/-! ### Temperature (R451) -/

/-- TEMP_THROTTLE, the nearest of 760 to 832. -/
def State.throttleAt (s : State) : Int := (clampTo 760 832 (fieldOf (s.reg Reg.POWER_THERMAL_CONFIG) 11 0) : Nat)

/-- What Parlour measures (R457). -/
def State.measure (s : State) (t : Sample) : State :=
  let s := (s.setReg Reg.POWER_INPUT_MV (t.inputMv % 2 ^ 16)).setReg Reg.POWER_INPUT_MA (t.inputMa % 2 ^ 16)
  let s := (s.setReg Reg.POWER_SLOT_POWER (t.slotW % 4096)).setReg Reg.POWER_STEP_POWER (t.stepW % 4096)
  s.setReg Reg.POWER_IDLE_POWER (t.idleW % 4096)

/-- A level that Parlour watches, with an event when it is passed. -/
def State.passes (s : State) (was is : Bool) : State := if is && !was then s.event clsPower 0 evState 0 else s

/-- THERMAL_SAMPLE: the temperatures, whatever the die's state; at 105 °C the fault, when that is passed and whenever a plan
runs; at 110 °C the conversion goes off. -/
def State.thermal (s : State) (t : Sample) : State :=
  if !s.power.parlour then s
  else
    let s := s.measure t
    let die := t.dieC8 + s.calValue (0x14 + t.quarter.val)
    let cool := t.coolantC8 + s.calValue 0x18
    let s := (s.setReg Reg.POWER_TEMP_DIE (unsignedOf 16 die)).setReg Reg.POWER_TEMP_COOLANT (unsignedOf 16 cool)
    let hot := decide (s.throttleAt < die)
    let high := decide (320 < cool)
    let s := (s.passes s.power.throttle hot).passes s.power.coolant high
    let over_ := decide (840 ≤ die)
    let stops := over_ && s.power.die && (!s.power.overtemp || s.planRuns)
    let at_ := if !over_ then none else if stops && s.planRuns then some s.clock.now else s.power.overAt
    let s := { s with power := { s.power with throttle := hot, coolant := high, overtemp := over_, overAt := at_ } }
    let s := if stops then s.raise { code := 0x0B01, cls := clsPower, inst := 0, addr := t.quarter } else s
    if 880 ≤ die ∧ s.power.conversion then s.supplyReset 2 else s

def execThermalSample (t : Sample) (s : State) : Result := done (s.thermal t)

/-- THERMAL_TRIP_TIMER: 1 s after the plan stop the junction is still at 105 °C or above. -/
def execThermalTripTimer (s : State) : Result :=
  done (match s.power.overAt with
  | some t => if s.power.overtemp && decide (t + 700000000 ≤ s.clock.now) then s.supplyReset 2 else s
  | none => s)

/-! ### Clocks, activation -/

/-- REFCLK_PORT_LOSS: every port of the chiplet loses link. -/
def execRefclkPortLoss (c : Fin 2) (s : State) : Result :=
  done ((List.range 4).foldl (fun t i => t.portDown (4 * c.val + i)) s)

/-- ACTIVATION_TICK (R478): in a supply hold it waits for the resume. -/
def execActivationTick (s : State) : Result :=
  done (if s.power.die && s.activationDue && !s.power.hold then s.activate else s)

end Sys2Proof.Machine
end

