-- ==== Sys2Proof/Machine/PlanImage.lean ====
section
/-!
DEFINITION. A plan image (chapter 17): header and directory (R489, R490), relocation (R497, R498), and the sections read
into the tables of `Plan` (R491, R521, R522). A descriptor whose 256 bytes are zero is no descriptor (log entry 33).
-/

namespace Sys2Proof.Machine

/-! ### Refusals (R494) -/

/-- The first check that failed: section, class of Table 17.3, entry, word. -/
structure Refuse where
  section_ : Nat
  cls   : Nat
  entry : Nat
  word  : Nat
deriving DecidableEq, Repr, Inhabited

abbrev Check := Option Refuse

def need (ok : Bool) (section_ cls entry word : Nat) : Check := if ok then none else some ⟨section_, cls, entry, word⟩

def firstOf (cs : List Check) : Check := cs.findSome? id

def clsImage : Nat := 1
def clsReserved : Nat := 2
def clsLimit : Nat := 3
def clsReference : Nat := 4
def clsRegion : Nat := 5
def clsMode : Nat := 6
def clsTiming : Nat := 7
def clsSystem : Nat := 8
def clsRelocation : Nat := 9

/-- RESULT_HI for the header and the directory. -/
def wholeImage : Nat := 0xFFFFFFFF

def Refuse.result (r : Refuse) : Nat := r.entry * 2 ^ 32 + r.section_ * 2 ^ 24 + r.cls * 2 ^ 16 + r.word % 2 ^ 16

/-! ### Bytes -/

def dwordIn (bs : List Byte) (i : Nat) : Nat := wordIn bs i + 2 ^ 32 * wordIn bs (i + 1)

def slice (bs : List Byte) (off n : Nat) : List Byte := (bs.drop off).take n

/-- The records of n bytes of a run of bytes. -/
def recordsOf (n : Nat) (bs : List Byte) : List (List Byte) :=
  (List.range (bs.length / n)).map (fun i => slice bs (n * i) n)

/-- The first word with a reserved bit set, by the reserved bits of each word. -/
def reservedWord (masks : List (Nat × Nat)) (bs : List Byte) : Option Nat :=
  (masks.find? (fun m => wordIn bs m.1 &&& m.2 != 0)).map (·.1)

def noReserved (masks : List (Nat × Nat)) (section_ entry : Nat) (bs : List Byte) : Check :=
  match reservedWord masks bs with
  | some w => some ⟨section_, clsReserved, entry, w⟩
  | none => none

def allOnes : Nat := 0xFFFFFFFF

/-! ### Header and directory (R489, R490; step 1 of R493) -/

def secVariants : Nat := 1
def secSchedules : Nat := 2
def secDescriptors : Nat := 3
def secHerds : Nat := 4
def secGangs : Nat := 5
def secCodeMap : Nat := 6
def secRegions : Nat := 7
def secShards : Nat := 8
def secRules : Nat := 9
def secMilk : Nat := 10
def secCompletions : Nat := 11
def secMirror : Nat := 12
def secReductions : Nat := 13
def secPeers : Nat := 14
def secExport : Nat := 15
def secPreload : Nat := 16
def secReloc : Nat := 17
def secPatches : Nat := 18

def required : List Nat := [1, 2, 3, 6, 7, 10, 17]

/-- A directory entry: ID, offset, length, and whether a reserved field is set. -/
structure DirEntry where
  id   : Nat
  off  : Nat
  len  : Nat
  reservedSet : Bool
deriving DecidableEq, Repr, Inhabited

def dirOf (img : List Byte) : List DirEntry :=
  (List.range (fieldOf (wordIn img 2) 31 16)).map (fun i =>
    let e := slice img (512 + 16 * i) 16
    ⟨wordIn e 0 % 256, wordIn e 1, wordIn e 2, wordIn e 0 / 256 != 0 || wordIn e 3 != 0⟩)

/-- CONTENT_DIGEST's bytes: RELOC and words 24 to 39 of the header as zeros. -/
def contentBytes (img : List Byte) (dir : List DirEntry) : List Byte :=
  let zero := fun (bs : List Byte) (off n : Nat) => bs.take off ++ List.replicate n 0 ++ bs.drop (off + n)
  let img := zero img 96 64
  match dir.find? (fun e => e.id == secReloc) with
  | some e => zero img e.off e.len
  | none => img

def dirCheck (img : List Byte) : Check :=
  let dir := dirOf img
  let bad := fun (w : Nat) => some (⟨0, clsImage, wholeImage, w⟩ : Refuse)
  let fence := 512 + 16 * dir.length
  let overlaps := fun (e f : DirEntry) => decide (e.off < f.off + f.len) && decide (f.off < e.off + e.len)
  let one := fun (i : Nat) (e : DirEntry) =>
    if e.reservedSet then some (⟨0, clsReserved, wholeImage, 0⟩ : Refuse)
    else if e.id = 0 ∨ 18 < e.id ∨ (dir.take i).any (fun f => f.id == e.id) then bad 0
    else if e.off % 512 ≠ 0 ∨ e.off < fence ∨ (dir.take i).any (overlaps e) then bad 1
    else if img.length < e.off + e.len then bad 2
    else none
  firstOf ((dir.mapIdx one) ++ [need (required.all (fun r => dir.any (fun e => e.id == r))) 0 clsImage wholeImage 2])

/-- Step 1. -/
def imageCheck (img : List Byte) : Check :=
  firstOf [
    need (decide (512 ≤ img.length) && wordIn img 0 == 0x514B504E) 0 clsImage wholeImage 0,
    need (wordIn img 1 % 2 ^ 16 == 1) 0 clsImage wholeImage 1,
    need (decide (512 + 16 * fieldOf (wordIn img 2) 31 16 ≤ img.length)) 0 clsImage wholeImage 2,
    dirCheck img,
    need (decide (sha512 (contentBytes img (dirOf img)) = digestOf (slice img 96 64))) 0 clsImage wholeImage 24]

/-! ### Sections and relocation (R497, R498; step 2) -/

abbrev Sections := Tab (List Byte)

def sectionsOf (img : List Byte) : Sections :=
  (dirOf img).foldl (fun t e => tput t e.id (slice img e.off e.len)) []

def sec (ss : Sections) (id : Nat) : List Byte := tget [] ss id

def modulesIn (img : List Byte) : Nat := wordIn img 3 % 2 ^ 13

/-- The module map. -/
def moduleMap (n : Nat) (reloc : List Byte) : List Nat := (List.range n).map (fun i => leNat (slice reloc (2 * i) 2) % 4096)

def hbmShift (n : Nat) (reloc : List Byte) (s : Nat) : Int := signedOf 32 (leNat (slice reloc (2 * n + 4 * s) 4))

def lpShift (n : Nat) (reloc : List Byte) (c : Nat) : Int := signedOf 32 (leNat (slice reloc (2 * n + 48 + 4 * c) 4))

/-- Step 1 of R498 on one code region word: the word, or none when it leaves its stack. -/
def shiftRegion (sh : Int) (w : Nat) : Option Nat :=
  if bitOf w 31 then
    let f : Int := (fieldOf w 11 0 : Nat) + sh
    let l : Int := (fieldOf w 23 12 : Nat) + sh
    if f < 0 ∨ 3071 < l ∨ l < 0 ∨ 3071 < f then none
    else some (setField (setField w 11 0 f.toNat) 23 12 l.toNat)
  else some w

def codeWords (bs : List Byte) : List Nat := (List.range (bs.length / 4)).map (wordIn bs)

/-- The code map moved. -/
def shiftCodeMap (n : Nat) (reloc map : List Byte) : List Byte × Check :=
  let ws := (codeWords map).mapIdx (fun i w => shiftRegion (hbmShift n reloc (i / 64)) w)
  (ws.flatMap (fun w => leBytes 4 (w.getD 0)),
   firstOf (ws.mapIdx (fun i w => need w.isSome secCodeMap clsRelocation i 0)))

/-- An address moved by a patch of a kind. -/
def patchAddr (n : Nat) (reloc : List Byte) (kind a : Nat) : Option Nat :=
  let map := moduleMap n reloc
  if kind = 1 then (map[zEndpoint a]?).map (fun e => e * 2 ^ 52 + a % 2 ^ 52)
  else if kind = 2 then
    match if zSpace a = 0 then stackOf (zOff a) else none with
    | none => none
    | some (st, o) =>
      let o' : Int := (o : Int) + hbmShift n reloc st * 2 ^ 24
      if 0 ≤ o' ∧ o' < (stackBytes : Int) then some (a - o + o'.toNat) else none
  else
    if zSpace a ≠ 1 ∨ 2 ^ 40 ≤ zOff a then none
    else
      let c := lpChip (zOff a)
      let o : Nat := zOff a - c * 2 ^ 39
      let o' : Int := (o : Int) + lpShift n reloc c * 2 ^ 24
      if 0 ≤ o' ∧ o' < 2 ^ 39 then some (a - o + o'.toNat) else none

/-- One patch entry. -/
def patchOne (n : Nat) (reloc : List Byte) (ss : Sections) (i : Nat) (e : List Byte) : Sections × Check :=
  let w0 := wordIn e 0
  let off := wordIn e 1
  let kind := fieldOf w0 31 28
  let id := fieldOf w0 27 20
  let bad := fun (cls w : Nat) => (ss, some (⟨secPatches, cls, i, w⟩ : Refuse))
  if w0 % 2 ^ 20 ≠ 0 ∨ kind = 0 ∨ 3 < kind then bad clsReserved 0
  else
    match tfind ss id with
    | none => bad clsRelocation 0
    | some bs =>
      if id = secReloc ∨ id = secPatches then bad clsRelocation 0
      else if off % 4 ≠ 0 ∨ bs.length < off + 8 then bad clsRelocation 1
      else
        match patchAddr n reloc kind (leNat (slice bs off 8)) with
        | none => bad clsRelocation 0
        | some a => (tput ss id (bs.take off ++ leBytes 8 a ++ bs.drop (off + 8)), none)

/-- Step 2: the sections as relocated, or the first refusal. -/
def relocate (img : List Byte) (ss : Sections) : Sections × Check :=
  let n := modulesIn img
  let reloc := sec ss secReloc
  let sizes := firstOf [
    need (decide (1 ≤ n) && decide (n ≤ 4096)) 0 clsLimit wholeImage 3,
    need (decide (wordIn img 2 % 4096 < n)) 0 clsLimit wholeImage 2,
    need (reloc.length == 2 * n + 56) secReloc clsImage 0 0,
    need ((sec ss secCodeMap).length == 3072) secCodeMap clsImage 0 0,
    need ((sec ss secPatches).length % 8 == 0) secPatches clsImage 0 0,
    firstOf ((List.range n).map (fun i => need (decide (leNat (slice reloc (2 * i) 2) < 4096)) secReloc clsReserved i 0))]
  match sizes with
  | some r => (ss, some r)
  | none =>
    let m := shiftCodeMap n reloc (sec ss secCodeMap)
    match m.2 with
    | some r => (ss, some r)
    | none =>
      ((recordsOf 8 (sec ss secPatches)).mapIdx (fun i e => (i, e))).foldl
        (fun (a : Sections × Check) (x : Nat × List Byte) => match a.2 with
          | some _ => a
          | none => patchOne n reloc a.1 x.1 x.2) (tput ss secCodeMap m.1, none)

/-! ### Records -/

/-- Table 17.9. -/
def parseVariant (r : List Byte) : Variant :=
  let w := wordIn r 0
  ⟨fieldOf w 3 0, fieldOf w 7 4, fieldOf w 9 8, wordIn r 1, wordIn r 2, r.drop 512⟩

def variantReserved : List (Nat × Nat) := (0, 0xFFFFFC00) :: (List.range 125).map (fun i => (i + 3, allOnes))

/-- Table 02.1. -/
def parseEntry (r : List Byte) : Entry :=
  let w1 := wordIn r 1
  let w4 := wordIn r 4
  { startSlot := wordIn r 0, cls := fieldOf w1 23 20, waitWindow := fieldOf w1 19 17, descIndex := fieldOf w1 9 0,
    waitMask := BitVec.ofNat 64 (dwordIn r 2), signalEn := bitOf w4 31, signalCore := fieldOf w4 13 8,
    signalTok := fieldOf w4 5 0, slack := fieldOf (wordIn r 5) 23 0 }

def entryReserved : List (Nat × Nat) :=
  [(1, 0xFF01FC00), (4, 0x7FFFC0C0), (5, 0xFF000000), (6, allOnes), (7, allOnes)]

/-- Table 08.1. -/
def parseLevel (r : List Byte) (l : Nat) : Level :=
  let w := wordIn r (34 + 5 * l)
  let st := fun (i : Nat) => signedOf 32 (wordIn r (34 + 5 * l + i))
  ⟨fieldOf w 29 27, fieldOf w 26 24, fieldOf w 23 0, st 1, st 2, st 3, st 4⟩

def descReserved : List (Nat × Nat) :=
  [(0, 0x00800000), (1, 0xFC000000), (2, 0xFC000000), (5, 0xFF000000), (6, 0xFF000000), (7, 0xF8000000),
   (8, 0xF0000000), (9, 0xF0000000), (10, 0xF0000000), (11, 0xFF000000), (12, 0xFF000000), (13, 0xFF000000),
   (29, 0xFFFFFC00), (30, 0xFFFF0000), (31, allOnes), (32, allOnes), (33, allOnes)] ++
  (List.range 6).map (fun l => (34 + 5 * l, 0xC0000000))

def parseModes (r : List Byte) : DescModes :=
  let w0 := wordIn r 0
  let w1 := wordIn r 1
  let w2 := wordIn r 2
  let w7 := wordIn r 7
  { rowFn := fieldOf w0 31 24, rowStat := fieldOf w0 22 20, statOnly := bitOf w0 19, peeled := bitOf w0 18,
    budget := fieldOf w0 17 16, unchecked := bitOf w0 15, act := fieldOf w0 14 12, drainFunc := fieldOf w0 11 8,
    stochastic := bitOf w0 7, gradStream := bitOf w0 6, transpose := fieldOf w0 5 4, fixedAnchor := bitOf w0 3,
    windowed := bitOf w0 2, mode := fieldOf w0 1 0, tileRows := fieldOf w1 25 16, outFormat := fieldOf w1 15 12,
    auxFormat := fieldOf w1 11 8, wFormat := fieldOf w1 7 4, aFormat := fieldOf w1 3 0,
    anchorFixed := signedOf 10 (fieldOf w2 25 16), margin := signedOf 6 (fieldOf w2 15 10), tiles := fieldOf w2 9 0,
    outToken := fieldOf w7 26 19, outFq := fieldOf w7 18 13, outGang := fieldOf w7 12 8, outCore := fieldOf w7 7 2,
    outRoute := fieldOf w7 1 0 }

def parseAddrs (r : List Byte) : DescAddrs :=
  { drainConst := BitVec.ofNat 32 (wordIn r 3), statEps := BitVec.ofNat 32 (wordIn r 4), groupPitch := fieldOf (wordIn r 5) 23 0,
    statSpan := fieldOf (wordIn r 6) 23 0, aBase := wordIn r 14, valueBase := wordIn r 15, bitmapBase := wordIn r 16,
    scaleBase := wordIn r 17, outBase := wordIn r 18, auxBase := wordIn r 19, outRemote := BitVec.ofNat 64 (dwordIn r 20),
    summaryA := wordIn r 22, summaryW := wordIn r 23, summaryOut := wordIn r 24, scatterPeel := wordIn r 25,
    statOut := wordIn r 26, statAux := wordIn r 27, fetchList := wordIn r 28, fetchCount := fieldOf (wordIn r 29) 9 0,
    outCol0 := fieldOf (wordIn r 30) 15 0 }

def parseDesc (r : List Byte) : Desc :=
  let f := fun (i : Nat) => fieldOf (wordIn r i) 23 0
  let v := fun (i : Nat) => fieldOf (wordIn r i) 27 24
  { modes := parseModes r, addrs := parseAddrs r, ext := (f 8, f 9, f 10), shapeVar := (v 8, v 9, v 10),
    shapeOff := (f 11, f 12, f 13), levels := (List.range 6).map (parseLevel r), reservedSet := (reservedWord descReserved r).isSome }

def isZero (bs : List Byte) : Bool := bs.all (· == 0)

/-- The descriptors of a plan with their bytes, by 1,024c + i. -/
def descRecords (ss : Sections) : Tab (List Byte) :=
  ((recordsOf 256 (sec ss secDescriptors)).mapIdx (fun i r => (i, r))).filter (fun x => !isZero x.2)

/-- Table 17.10. -/
def parseGang (r : List Byte) : List Nat :=
  (List.range (fieldOf (wordIn r 0) 4 0)).map (fun i => ((r.getD (4 + i) 0).toNat))

/-- Table 10.3. -/
def parseRegion (r : List Byte) : Region :=
  let w0 := wordIn r 0
  let w5 := wordIn r 5
  { space := fieldOf w0 31 28, role := fieldOf w0 27 24, code := fieldOf w0 23 22, owned := bitOf w0 4, peeled := bitOf w0 3,
    noOrigin := bitOf w0 2, fullBlock := bitOf w0 1, kept := bitOf w0 0, base := BitVec.ofNat 64 (dwordIn r 1),
    size := wordIn r 3 + 2 ^ 32 * fieldOf (wordIn r 4) 15 0, origin := fieldOf (wordIn r 4) 31 16,
    format := fieldOf w5 17 14, budget := fieldOf w5 13 12, shard := fieldOf w5 11 0,
    liveFirst := wordIn r 6, liveLast := wordIn r 7,
    reservedSet := fieldOf w0 21 5 != 0 || fieldOf w5 31 18 != 0 }

def regionReserved : List (Nat × Nat) := [(0, 0x003FFFE0), (5, 0xFFFC0000)]

/-- Table 17.11. -/
def parseShard (r : List Byte) : ShardRec :=
  let w := wordIn r 0
  ⟨fieldOf w 15 12, fieldOf w 11 0, (List.range 5).map (fun i => BitVec.ofNat 32 (wordIn r (i + 1)))⟩

/-- Table 11.2. -/
def parseRule (r : List Byte) : Rule :=
  let w0 := wordIn r 0
  let f := fun (i : Nat) => BitVec.ofNat 32 (wordIn r i)
  { kind := fieldOf w0 3 0, moments := fieldOf w0 5 4, biasCorr := bitOf w0 6, nesterov := bitOf w0 7,
    lrHp := fieldOf w0 15 12, wdHp := fieldOf w0 19 16, beta1 := f 1, beta2 := f 2, eps := f 3, gradScale := f 4,
    dirScale := f 5, empty := isZero r, reservedSet := fieldOf w0 31 20 != 0 || fieldOf w0 11 8 != 0 || wordIn r 6 != 0 || wordIn r 7 != 0 }

/-- Table 17.12. -/
def parseMilk (r : List Byte) : MilkRec :=
  let w := wordIn r 0
  ⟨fieldOf w 25 20, fieldOf w 19 10, fieldOf w 9 0, fieldOf (wordIn r 1) 13 0, BitVec.ofNat 64 (dwordIn r 2)⟩

/-- Table 17.13. -/
def parseCompletion (r : List Byte) : CompletionRec :=
  let w := wordIn r 0
  ⟨fieldOf w 15 12, fieldOf w 11 0, (List.range (fieldOf w 19 16)).map (fun i =>
    (fieldOf (wordIn r (i + 1)) 15 10, fieldOf (wordIn r (i + 1)) 9 0))⟩

/-- Table 17.16. -/
def parsePlace (r : List Byte) : Place :=
  let w := wordIn r 0
  ⟨fieldOf w 31 20, fieldOf w 19 16, fieldOf w 11 0, BitVec.ofNat 64 (dwordIn r 1), BitVec.ofNat 64 (dwordIn r 3), wordIn r 5⟩

/-- Table 12.8. -/
def parseRed (r : List Byte) : RedEntry :=
  let w0 := wordIn r 0
  let w4 := wordIn r 4
  { op := fieldOf w0 31 30, engine := fieldOf w0 29 29, expect := fieldOf w0 28 16, signalEn := bitOf w0 15,
    signalCore := fieldOf w0 11 6, signalTok := fieldOf w0 5 0, dest := BitVec.ofNat 64 (dwordIn r 1), length := wordIn r 3,
    hold := bitOf w4 16, stack := fieldOf w4 15 12, shard := fieldOf w4 11 0, reservedSet := false }

def redReserved : List (Nat × Nat) := [(0, 0x00007000), (4, 0xFFFE0000), (5, allOnes), (6, allOnes), (7, allOnes)]

/-- Table 17.15: the runs of PRELOAD, each with its place in the section; `fuel` bounds their number. -/
def parseRuns : Nat → Nat → List Byte → List (Nat × List Byte × List Byte)
  | 0, _, _ => []
  | fuel + 1, off, bs =>
    if bs.length ≤ off then []
    else
      let h := slice bs off 16
      let n := wordIn h 1
      (off, h, slice bs (off + 16) n) :: parseRuns fuel (roundUp (off + 16 + n) 16) bs

def runsIn (ss : Sections) : List (Nat × List Byte × List Byte) :=
  parseRuns ((sec ss secPreload).length / 16 + 1) 0 (sec ss secPreload)

def parseRun (h data : List Byte) : Preload := ⟨fieldOf (wordIn h 0) 3 0, BitVec.ofNat 64 (dwordIn h 2), data⟩

/-! ### Indexed sections (R491, R521) -/

/-- Record k of an index: offset, word 1. -/
def indexAt (bs : List Byte) (k : Nat) : Nat × Nat := (wordIn bs (2 * k), wordIn bs (2 * k + 1))

def scheduleTable (bs : List Byte) (k : Nat) : List (List Byte) :=
  let x := indexAt bs k
  recordsOf 32 (slice bs x.1 (32 * (x.2 % 2 ^ 16)))

def redTable (bs : List Byte) (v : Nat) : List (List Byte) :=
  let x := indexAt bs v
  recordsOf 32 (slice bs x.1 (32 * (x.2 % 2 ^ 13)))

/-! ### The plan -/

def tabOf {α : Type} (xs : List (Nat × α)) : Tab α := xs.foldl (fun t x => tput t x.1 x.2) []

/-- The tables of a plan whose checks have passed. -/
def planOf (img : List Byte) (ss : Sections) : Plan :=
  let n := modulesIn img
  let reloc := sec ss secReloc
  let map := moduleMap n reloc
  let mm := sec ss secMirror
  { moduleIndex := wordIn img 2 % 4096
    systemModules := n
    portRates := fieldOf (wordIn img 4) 31 16
    planeSet := wordIn img 4 % 4
    lowEscape := BitVec.ofNat 32 (wordIn img 5)
    metaDrop := BitVec.ofNat 32 (wordIn img 6)
    systemDigest := digestOf (slice img 32 64)
    planDigest := sha512 img
    relocDigest := sha512 reloc
    shapeMax := (List.range 15).map (fun i => wordIn img (40 + i) % 2 ^ 24)
    hpInit := (List.range 16).map (fun i => BitVec.ofNat 32 (wordIn img (56 + i)))
    variants := (recordsOf 1024 (sec ss secVariants)).map parseVariant
    schedules := tabOf (((List.range 1024).map (fun k => (k, (scheduleTable (sec ss secSchedules) k).map parseEntry))).filter
      (fun x => !x.2.isEmpty))
    descs := (descRecords ss).map (fun x => (x.1, parseDesc x.2))
    herds := (sec ss secHerds).map (fun b => b.toNat % 8)
    gangs := tabOf (((recordsOf 32 (sec ss secGangs)).mapIdx (fun i r => (i, parseGang r))).filter (fun x => !x.2.isEmpty))
    codeMap := (codeWords (sec ss secCodeMap)).mapIdx (fun i w => (i, BitVec.ofNat 32 w))
    regions := (recordsOf 32 (sec ss secRegions)).map parseRegion
    shards := (recordsOf 32 (sec ss secShards)).map parseShard
    rules := (recordsOf 32 (sec ss secRules)).map parseRule
    milkRuns := (recordsOf 16 (sec ss secMilk)).map parseMilk
    completions := (recordsOf 48 (sec ss secCompletions)).map parseCompletion
    twinIndex := if mm.isEmpty then none else some (wordIn mm 0 % 4096)
    places := (recordsOf 32 (mm.drop 16)).map parsePlace
    reductions := tabOf ((List.range 16).flatMap (fun v =>
      (redTable (sec ss secReductions) v).mapIdx (fun i r => (4096 * v + i, parseRed r))))
    peers := (recordsOf 2 (sec ss secPeers)).map (fun r => map.getD (leNat r % 4096) 0)
    exportMap := sec ss secExport
    preload := (runsIn ss).map (fun x => parseRun x.2.1 x.2.2)
    moduleMap := map }

end Sys2Proof.Machine
end

