-- ==== Sys2Proof/Machine/PlanChecks.lean ====
section
/-!
DEFINITION. The load checks of a plan (Table 17.4, step 3 of R493): section by section in ascending ID, entry by entry.
Each check names the section, the class of Table 17.3, the entry and the word of R494.
-/

namespace Sys2Proof.Machine

/-- What the checks look at: the module, the header, the sections as relocated, and the plan they make. -/
structure Loading where
  s    : State
  img  : List Byte
  ss   : Sections
  plan : Plan

def Loading.recs (l : Loading) (id n : Nat) : List (Nat × List Byte) := (recordsOf n (sec l.ss id)).mapIdx (fun i r => (i, r))

/-- A section of whole records after `head` bytes. -/
def Loading.whole (l : Loading) (id head n : Nat) : Check :=
  let len := (sec l.ss id).length
  need (len == 0 || (decide (head ≤ len) && (len - head) % n == 0)) id clsImage 0 0

/-! ### Header (R499) -/

def headerReserved : List (Nat × Nat) :=
  [(1, 0x00FF0000), (2, 0x0000F000), (3, 0xFFFFE000), (4, 0x0000FFFC)] ++ (List.range 15).map (fun i => (40 + i, 0xFF000000)) ++
  [(55, allOnes)] ++ (List.range 56).map (fun i => (72 + i, allOnes))

def Loading.headerCheck (l : Loading) : Check :=
  let sys := fun (ok : Bool) (code : Nat) => need ok 0 clsSystem wholeImage code
  let cfg := fun (p : Nat) => l.s.reg (Reg.PORT_PORT_CONFIG p)
  firstOf [
    noReserved headerReserved 0 wholeImage l.img,
    sys (fieldOf (wordIn l.img 1) 31 24 == 0x40) 1,
    sys (l.s.numbered && l.plan.moduleMap.getD l.plan.moduleIndex 0 == l.s.moduleNum) 2,
    sys ((List.range 8).all (fun p => fieldOf (cfg p) 1 0 == fieldOf l.plan.portRates (2 * p + 1) (2 * p))) 3,
    sys ((List.range 8).all (fun p => !bitOf l.plan.planeSet (p / 4) || bitOf (cfg p) 8)) 4,
    sys (match l.plan.twinIndex with
      | none => true
      | some i => l.s.twin.any (fun t => l.plan.moduleMap[i]? == some t)) 5,
    sys (let n := l.s.reg (Reg.FABRIC_SYSTEM_SIZE 0) % 2 ^ 13
      decide (n ≠ 0) && n == l.plan.systemModules) 6]

/-! ### Regions: footprints -/

/-- The state the plan would leave, as far as the checks of footprints look at it. -/
def Loading.asIf (l : Loading) : State :=
  let s := { l.s with run := { l.s.run with plan := some l.plan } }
  l.plan.shapeMax.zipIdx.foldl (fun t x => t.setReg (Reg.PHASE_SHAPE_MAX (x.2 + 1)) x.1) s

/-- A Zarixon run within one region, or within one window of this module (R519). -/
def Loading.external (l : Loading) (a n : Nat) : Bool := l.s.external l.plan a n

/-- Bytes of two regions of one space meet, rounded to `unit` bytes. -/
def Region.meets (unit : Nat) (a b : Region) : Bool :=
  let ab := a.base.toNat
  let bb := b.base.toNat
  let cores := bitOf ab 26 && bitOf bb 26 && fieldOf ab 25 20 != fieldOf bb 25 20
  let lo := fun (x : Nat) => x / unit * unit
  let hi := fun (x : Nat) => roundUp x unit
  let ao := if a.space = 0 then spOff ab else ab
  let bo := if b.space = 0 then spOff bb else bb
  a.space == b.space && !(a.space == 0 && cores) && decide (0 < a.size) && decide (0 < b.size) &&
    decide (lo ao < hi (bo + b.size)) && decide (lo bo < hi (ao + a.size))

/-- Live spans that share a slot (Table 10.3). -/
def Region.liveMeets (a b : Region) : Bool :=
  a.spans.any (fun x => b.spans.any (fun y => decide (x.1 ≤ y.2) && decide (y.1 ≤ x.2)))

/-! ### VARIANTS (R53, R521, R346) -/

def Loading.variantCheck (l : Loading) : Check :=
  let vs := l.plan.variants
  let no := fun (cls i w : Nat) (ok : Bool) => need ok secVariants cls i w
  firstOf ([l.whole secVariants 0 1024, no clsLimit 16 0 (decide (vs.length ≤ 16)), no clsReference 0 0 (!vs.isEmpty)] ++
    (l.recs secVariants 1024).map (fun x =>
      let v := parseVariant x.2
      let before := vs.take x.1
      firstOf [noReserved variantReserved secVariants x.1 x.2,
        no clsLimit x.1 0 (decide (v.planes ≠ 0) && !before.any (fun o => o.number == v.number)),
        no clsLimit x.1 1 (decide (0 < v.stepSlots)),
        no clsLimit x.1 2 (v.planes == l.plan.planeSet || v.firstStep == allOnes),
        no clsReference x.1 0 (!before.any (fun o => o.rung == v.rung && o.planes == v.planes) &&
          vs.any (fun o => o.rung == v.rung && o.planes == l.plan.planeSet))]))

/-! ### SCHEDULES (R32 to R36, R54, R421, R491) -/

/-- An index of tables of 32-byte entries: record number, offset, count. -/
def indexCheck (section_ records maxCount widthBits : Nat) (bs : List Byte) (named : Nat → Bool) : Check :=
  let rec_ := fun (k : Nat) => indexAt bs k
  let size := fun (k : Nat) => 32 * ((rec_ k).2 % 2 ^ widthBits)
  let no := fun (cls k w : Nat) (ok : Bool) => need ok section_ cls (0x80000000 + k) w
  firstOf ((List.range records).map (fun k =>
    let x := rec_ k
    firstOf [no clsLimit k 1 (decide (x.2 / 2 ^ widthBits = 0)),
      no clsLimit k 1 (decide (x.2 % 2 ^ widthBits ≤ maxCount)),
      no clsLimit k 1 (size k == 0 || named k),
      no clsRegion k 0 (x.1 % 32 == 0 && (size k == 0 || decide (x.1 + size k ≤ bs.length) &&
        (List.range k).all (fun j => size j == 0 || decide (x.1 + size k ≤ (rec_ j).1) || decide ((rec_ j).1 + size j ≤ x.1))))]))

/-- A STRONG region of role PLAN of this module's HBM with room for a table (R491; log entry 44). -/
def Plan.tableFits (p : Plan) (bytes : Nat) : Bool :=
  p.regions.any (fun r => r.space == 1 && r.role == 13 && decide (bytes ≤ r.size))

def Plan.descExists (p : Plan) (core ix : Nat) : Bool := (tfind p.descs (1024 * core + ix)).isSome

/-- Distances from each entry to the next one of its table, across the boundary too, with that entry. -/
def nextOf (es : List Entry) (steps i : Nat) : Option (Nat × Entry) :=
  match es[i]?, es[i + 1]?, es.head? with
  | some e, some n, _ => some (n.startSlot - e.startSlot, n)
  | some e, none, some n => some (steps - e.startSlot + n.startSlot, n)
  | _, _, _ => none

/-- The longest distance between milk-run starts, across the boundary too. -/
def milkGap (es : List Entry) (steps : Nat) : Option Nat :=
  let ms := (es.filter (fun e => e.cls == 3)).map (fun e => e.startSlot)
  match ms.head?, ms.getLast? with
  | some a, some z => some (((ms.zip (ms.drop 1)).map (fun x => x.2 - x.1)).foldl max (steps - z + a))
  | _, _ => none

def Loading.entryCheck (l : Loading) (v : Variant) (core k : Nat) (rs : List (List Byte)) (i : Nat) (r : List Byte) : Check :=
  let es := rs.map parseEntry
  let e := parseEntry r
  let no := fun (cls w : Nat) (ok : Bool) => need ok secSchedules cls (k * 2 ^ 14 + i) w
  let idle := e.cls == 4 || e.cls == 5
  firstOf [
    noReserved entryReserved secSchedules (k * 2 ^ 14 + i) r,
    no clsReserved 1 (decide (e.cls ≤ 5) && decide (e.waitWindow ≤ 4) && (!idle || e.descIndex == 0)),
    no clsTiming 0 (match es[i - 1]? with
      | some p => i == 0 || decide (p.startSlot < e.startSlot)
      | none => true),
    no clsTiming 0 (if i + 1 = es.length then e.cls == 5 && e.startSlot + 1 == v.stepSlots else e.cls != 5),
    no clsReference 1 (idle || l.plan.descExists core e.descIndex),
    no clsReference 1 (e.cls != 3 || l.plan.milkRuns.any (fun m => m.core == core && m.desc == e.descIndex)),
    no clsTiming 5 (e.cls != 3 || decide (e.slack ≤ 2048)),
    no clsTiming 0 (match nextOf es v.stepSlots i with
      | some (d, n) => (e.cls != 3 || decide (2 ≤ d)) && decide (d + ceilDiv n.slack 4096 ≤ 2048)
      | none => true)]

def Loading.tableCheck (l : Loading) (v : Variant) (core : Nat) : Check :=
  let k := 64 * v.number + core
  let rs := scheduleTable (sec l.ss secSchedules) k
  let es := rs.map parseEntry
  firstOf ((need (!es.isEmpty) secSchedules clsTiming (k * 2 ^ 14) 0) ::
    (need (l.plan.tableFits (32 * rs.length)) secSchedules clsRegion (0x80000000 + k) 0) :: (rs.mapIdx (l.entryCheck v core k rs)) ++
    [need ((milkGap es v.stepSlots).any (fun g => decide (g ≤ 1530))) secSchedules clsTiming (k * 2 ^ 14) 0])

def Loading.scheduleCheck (l : Loading) : Check :=
  let bs := sec l.ss secSchedules
  firstOf ([need (decide (8192 ≤ bs.length)) secSchedules clsImage 0 0, l.whole secSchedules 8192 32,
      indexCheck secSchedules 1024 16384 16 bs (fun k => (l.plan.variant (k / 64)).isSome)] ++
    (List.range 16).flatMap (fun n => match l.plan.variant n with
      | some v => (List.range 64).map (l.tableCheck v)
      | none => []))

/-! ### DESCRIPTORS -/

/-- The streamed operand at a walk point (R210): the rows of its bricks that hold valid positions. -/
def Desc.runA (d : Desc) (p : Pt) : List (Nat × Nat) :=
  let fmt := d.streamFmt
  let row := brickRow fmt
  let n := d.valid d.planned p (if d.kind = .scatter then 2 else 3)
  let k0 := if d.kind = .scatter then 0 else p.xK
  if d.modes.transpose = 1 then
    (List.range (ceilDiv (d.valid d.planned p 1) 256)).flatMap (fun mb =>
      (List.range (ceilDiv (k0 + n) 256 - k0 / 256)).map (fun i =>
        let lo := max k0 (256 * (k0 / 256 + i))
        let hi := min (k0 + n) (256 * (k0 / 256 + i + 1))
        (turnedAt d (d.addrA p) (256 * mb) lo, (hi - lo) * row)))
  else match d.kind with
    | .scatter => wholeBricks (d.addrA p) fmt d.modes.tileRows 0 n
    | .row => wholeBricks (d.addrA p) fmt d.modes.tileRows 0 256
    | _ => wholeBricks (d.addrA p) fmt d.modes.tileRows 0 (p.xK % 256 + n)

/-- The planes of the resident operand at a walk point: value, bitmap, scale. -/
def Desc.runW (d : Desc) (p : Pt) : List (Nat × Nat) × List (Nat × Nat) × List (Nat × Nat) :=
  let n := d.valid d.planned p 2
  match d.kind with
  | .row => ([], [], [])
  | k =>
    if d.modes.budget ≠ 0 then
      let per := (List.range n).map (sparseAcc d p)
      let plane := fun (op : Nat) => per.flatMap (fun rs => (rs.filter (fun r => r.1 == op)).map (·.2))
      (plane 2, plane 1, plane 3)
    else if k = .outer then ([], [], [])
    else if d.modes.transpose = 2 then ([(d.addrW p, n * brickRow d.modes.wFormat)], [], [])
    else ([(d.addrW p, n * recordBytes d.modes.wFormat)], [], [])

/-- Whether a tensor is read through AUX, through TENSOR (R240): the gradient of masked-outer mode comes through AUX. -/
def Desc.auxTensor (d : Desc) : Bool :=
  match d.kind with
  | .row => [1, 4, 5, 6].contains d.modes.rowFn
  | .outer => true
  | _ => d.modes.drainFunc == 7

def Desc.tableTensor (d : Desc) : Bool := [3, 4].contains d.modes.rowStat || (d.kind == .row && d.modes.rowFn == 2)

/-- The AUX tensor at a walk point (R181, R238): the bricks of the drain's own columns. -/
def Desc.runAux (d : Desc) (p : Pt) : List (Nat × Nat) :=
  let n := d.valid d.planned p 2
  let rows := d.modes.tileRows
  if !d.auxTensor then []
  else match d.kind with
    | .outer => wholeBricks (d.addrAux p) 0 rows 0 n
    | .scatter => wholeBricks (d.addrAux p) d.modes.auxFormat rows 0 (d.valid d.planned p 3)
    | _ => wholeBricks (d.addrAux p) d.modes.auxFormat rows d.addrs.outCol0 (d.addrs.outCol0 + n)

/-- Whether an anchor is formed from summary bytes (R94). -/
def Desc.summed (d : Desc) : Bool := d.modes.windowed && !d.modes.fixedAnchor && d.kind != .row

/-- Inputs of a descriptor with the word of their base: the operands over whole layout blocks (R210, R231), vector tables,
summaries, the fetch list (log entry 53). -/
def Desc.inputRuns (d : Desc) : List (Nat × List (Nat × Nat)) :=
  let ps := d.plannedPts
  let over_ := fun (f : Pt → List (Nat × Nat)) => (ps.flatMap f).map wholeRun
  let at_ := fun (on : Bool) (a n : Nat) => if on then [(a, n)] else []
  [(14, over_ d.runA), (15, over_ (fun p => (d.runW p).1)), (16, over_ (fun p => (d.runW p).2.1)),
   (17, over_ (fun p => (d.runW p).2.2)), (19, over_ d.runAux ++ at_ d.auxTable d.addrs.auxBase 32),
   (22, at_ d.summed d.addrs.summaryA 1), (23, at_ d.summed d.addrs.summaryW 1),
   (27, at_ d.statTable d.addrs.statAux 32), (28, at_ (d.addrs.fetchCount != 0) d.addrs.fetchList (64 * d.addrs.fetchCount))]

/-- What linked peeled passes read (R178): the gradient's columns behind the sparse rows, and the tensor from its base to the
end of its region. -/
def Loading.peelRuns (l : Loading) (core : Nat) (d : Desc) : List (Nat × List (Nat × Nat)) :=
  if d.peelPasses = 0 then []
  else
    let t := l.asIf
    let a := d.addrs.scatterPeel
    let n := (t.peelShape core d).1
    [(14, (d.plannedPts.flatMap (fun p => wholeBricks (d.peelBase p) d.streamFmt d.modes.tileRows d.ext.2.1 (d.ext.2.1 + n))).map
        wholeRun),
     (25, match t.regionAt (spCore core a) (spOff a) with
       | some r => [(a, spOff (r.2.base.toNat % 2 ^ 32) + r.2.size - spOff a)]
       | none => [(a, 1)])]

def Loading.inputRuns (l : Loading) (core : Nat) (d : Desc) : List (Nat × List (Nat × Nat)) :=
  (d.inputRuns ++ l.peelRuns core d).filter (fun x => !x.2.isEmpty)

/-- Remote bytes of OUT_ROUTE 3. -/
def Desc.remoteRuns (d : Desc) : List (Nat × Nat) :=
  if d.modes.outRoute = 3 then d.plannedPts.flatMap (fun p => (d.runOut p).map (fun r => (d.remoteAt p + r.1, r.2))) else []

/-- The extent of some runs: its first address and its length. -/
def hullOf (rs : List (Nat × Nat)) : Nat × Nat :=
  let lo := rs.foldl (fun m r => min m r.1) ((rs.head?.map (·.1)).getD 0)
  (lo, rs.foldl (fun m r => max m (r.1 + r.2)) lo - lo)

/-- Statistic pairs (R194). -/
def Desc.statRuns (d : Desc) : List (Nat × Nat) :=
  if d.modes.rowStat = 0 then [] else [(d.addrs.statOut, 8 * d.ext.1 * d.statGroups)]

/-- T_nest of R206. -/
def Desc.nest (d : Desc) : Nat :=
  match (d.used.filter (fun x => x.2.tag == d.redTag)).getLast? with
  | none => 1
  | some top => ((d.used.filter (fun x => x.2.tag != d.redTag && decide (x.2.order < top.2.order))).map (fun x => x.2.bound)).foldl (· * ·) 1

/-- T of R105. -/
def Desc.tileMax (d : Desc) : Nat := (if d.modes.windowed then 960 else 192) / d.tileRowsV

/-- Products per entry at the planned extents (R91, R111): one for each streamed row in masked-outer mode (R182), else a
full chunk for each reduction step that is not skipped (R209). -/
def Desc.products (d : Desc) : Nat :=
  if d.kind = .outer then d.ext.1
  else ceilDiv (d.planned.of d.redTag) (max 1 (d.unitOf d.redTag)) * d.termStep

/-- Operands in the depth classes the engine can multiply (R64, R169). -/
def Desc.classesOk (d : Desc) : Bool :=
  let m := d.modes
  match d.kind with
  | .product => m.wFormat != 6 && (m.gradStream || (m.aFormat != 6 && depthOf m.aFormat == depthOf m.wFormat))
  | .scatter => m.wFormat != 6
  | .outer => m.aFormat != 6
  | .row => true

/-- R187. -/
def Desc.transposeOk (d : Desc) : Bool :=
  let m := d.modes
  let served := if m.transpose = 2 then m.wFormat else d.streamFmt
  m.transpose == 0 || (d.kind != .outer && (m.transpose == 1 || m.budget == 0) && [0, 1, 2].contains served)

/-- Reserved bits of the scratchpad addresses among the base words (Table 08.2): OUT_BASE but for OUT_ROUTE 3, summaries but
for none, SCALE_BASE but for BF16. -/
def Desc.baseReserved (d : Desc) : List (Nat × Nat) :=
  let a := d.addrs
  let sums := [(22, a.summaryA), (23, a.summaryW), (24, a.summaryOut)].filter (fun x => x.2 != allOnes)
  ([(14, a.aBase), (15, a.valueBase), (16, a.bitmapBase)] ++ (if isMx d.modes.wFormat then [(17, a.scaleBase)] else []) ++
    (if d.modes.outRoute = 3 then [] else [(18, a.outBase)]) ++ [(19, a.auxBase)] ++ sums ++
    [(25, a.scatterPeel), (26, a.statOut), (27, a.statAux), (28, a.fetchList)])

/-- What a descriptor alone must meet (R111, R138, R182, R190, R197, R219 to R222). GROUP_PITCH is checked where a bitmap is used:
BUDGET not 0, or MODE 2; R138 does not limit its condition so (log entry 53). -/
def Desc.modeChecks (d : Desc) (no : Nat → Nat → Bool → Check) : List Check :=
  let m := d.modes
  let a := d.addrs
  let mx := m.outFormat != 0 && m.outFormat != 6
  let back := m.mode != 0 || m.gradStream
  (d.baseReserved.map (fun x => no clsReserved x.1 (decide (x.2 < 2 ^ 27)))) ++
  [no clsReserved 0 (decide (m.mode < 3) && decide (m.act < 4) && decide (m.drainFunc < 8) && decide (m.rowStat < 5) &&
      decide (m.transpose < 3) && decide (m.rowFn < 10)),
   no clsReserved 1 ([m.aFormat, m.wFormat, m.auxFormat, m.outFormat].all (fun f => decide (f < 7))),
   no clsLimit 1 (decide (1 ≤ m.tileRows) && decide (m.tileRows ≤ 960)),
   no clsMode 0 (m.rowFn == 0 || (m.mode == 0 && !d.used.any (fun x => x.2.tag == 3))),
   no clsMode 1 (d.classesOk),
   no clsMode 1 (!back || m.outFormat == 0),
   no clsMode 0 ((m.mode != 1 || [0, 1, 7].contains m.drainFunc) && (m.mode != 2 || decide (m.drainFunc < 2))),
   no clsMode 0 (!m.gradStream || m.mode == 0),
   no clsMode 0 (m.mode != 2 || m.windowed),
   no clsMode 0 d.transposeOk,
   no clsMode 0 (!(d.auxTensor && d.tableTensor)),
   no clsMode 30 (!mx || a.outCol0 % 32 == 0),
   no clsMode 0 (!m.peeled || m.budget == 0),
   no clsLimit 9 (!m.peeled || decide (d.ext.2.1 ≤ 256)),
   no clsLimit 30 (!m.peeled || a.outCol0 % 32 == 0),
   no clsRegion 15 (m.budget == 0 || a.valueBase % 512 == 0),
   no clsRegion 16 (m.budget == 0 || a.bitmapBase % 512 == 0),
   no clsRegion 17 (m.budget == 0 || !isMx m.wFormat || a.scaleBase % 512 == 0),
   no clsRegion 18 (m.mode != 2 || m.budget != 0 || (a.outBase + if m.outRoute = 3 then a.outRemote.toNat else 0) % 32 == 0),
   no clsLimit 5 ((m.budget == 0 && m.mode != 2) || (a.groupPitch % 8 == 0 && decide (ceilDiv d.ext.2.2 16 ≤ a.groupPitch))),
   no clsLimit 6 (a.statSpan % 32 == 0),
   no clsLimit 6 (m.rowStat == 0 || decide (d.ext.1 * d.statGroups ≤ 4096)),
   no clsMode 25 (a.scatterPeel == 0 || (m.mode == 1 && m.drainFunc != 7)),
   no clsReference 22 (!d.summed || a.summaryA != allOnes),
   no clsReference 23 (!d.summed || a.summaryW != allOnes),
   no clsLimit 7 (decide (m.outFq < 62))]

/-- R202, R206, R210, R235 on the levels. -/
def Desc.loopChecks (d : Desc) (no : Nat → Nat → Bool → Check) : List Check :=
  let here := (d.levels.zipIdx).filter (fun x => x.1.bound != 0)
  let orders := here.map (fun x => x.1.order)
  let perm := (List.range here.length).all (fun o => (orders.filter (· == o)).length == 1)
  let outer := fun (t : Nat) => (d.used.filter (fun x => x.2.tag == t)).getLast?
  let place := fun (t : Nat) => ((outer t).map (·.1)).getD 0
  (d.levels.zipIdx).map (fun x => no clsReserved (34 + 5 * x.2) (decide (x.1.tag ≤ 4) && (x.1.bound == 0 || x.1.tag != 0))) ++
  [no clsLimit (34 + 5 * ((here.head?.map (·.2)).getD 0)) perm] ++
  [1, 2, 3].map (fun t => match outer t with
    | some x => no clsLimit (34 + 5 * place t) (x.2.bound == ceilDiv (d.planned.of t) (d.span x.2))
    | none => no clsLimit (7 + t) (t == 3 && d.kind == .row || decide (d.planned.of t ≤ d.unitOf t))) ++
  (here.filter (fun x => x.1.tag == 3)).map (fun x =>
    let sp := d.span x.1
    let pitch := brickPitch d.streamFmt d.modes.tileRows
    no clsLimit (35 + 5 * x.2) (x.1.strideA == 0 || (sp % 256 == 0 && x.1.strideA * 32 == ((pitch * (sp / 256) : Nat) : Int)))) ++
  [no clsLimit 2 (decide (d.nest ≤ d.modes.tiles) && decide (1 ≤ d.modes.tiles) && decide (d.modes.tiles ≤ d.tileMax)),
   no clsLimit (7 + d.redTag) (d.kind == .row || decide (d.products ≤ if d.modes.windowed then 2 ^ 24 else 2 ^ 48))]

/-- A region of a bitmap plane: by its role, or that of the region it is reloaded from (R197; log entry 44). -/
def Plan.bitmapRegion (p : Plan) (r : Region) : Bool :=
  let is := fun (x : Region) => x.role == 4 || x.role == 7
  is r || (p.regions[r.origin]?).any is

/-- The run of a descriptor's summary byte, where it writes one. -/
def Desc.sumRuns (d : Desc) : List (Nat × Nat) :=
  if d.addrs.summaryOut = allOnes ∨ d.modes.statOnly then [] else [(d.addrs.summaryOut, 1)]

/-- Footprints: each in one region, the output apart from the inputs, budgets as the regions say (R49, R138, R197, R210). -/
def Loading.footChecks (l : Loading) (core : Nat) (d : Desc) (no : Nat → Nat → Bool → Check) : List Check :=
  let ins := l.inputRuns core d
  let reg := l.plan.regionOf
  let at_ := fun (i : Nat) => l.plan.regions[i]?
  let inIx := ins.filterMap (fun x => reg core x.2)
  let outs := l.plan.outRuns core d
  let sum := d.sumRuns
  let outIx := outs.filterMap (fun x => reg x.1 x.2) ++ (reg core d.statRuns).toList ++
    (if sum.isEmpty then none else reg core sum).toList
  let far := hullOf d.remoteRuns
  let holds := fun (w : Nat) (f : Region → Bool) => match (ins.find? (fun x => x.1 == w)).bind (fun x => (reg core x.2).bind at_) with
    | some r => f r
    | none => true
  ins.map (fun x => no clsRegion x.1 (reg core x.2).isSome) ++
  outs.map (fun x => no clsRegion 18 (x.2.isEmpty || (reg x.1 x.2).isSome)) ++
  [no clsRegion 20 (d.remoteRuns.isEmpty || l.external far.1 far.2),
   no clsRegion 24 (sum.isEmpty || (reg core sum).isSome),
   no clsRegion 26 (d.modes.rowStat == 0 || (reg core d.statRuns).isSome),
   no clsMode 14 (holds 14 (fun r => r.budget == 0)), no clsMode 15 (holds 15 (fun r => r.budget == d.modes.budget)),
   no clsMode 16 (holds 16 (fun r => r.budget == d.modes.budget)), no clsMode 17 (holds 17 (fun r => r.budget == d.modes.budget)),
   no clsMode 16 (d.kind != .outer || d.modes.budget == 0 || holds 16 l.plan.bitmapRegion),
   no clsRegion 25 (d.peelPasses == 0 || ((l.asIf.regionAt (spCore core d.addrs.scatterPeel) (spOff d.addrs.scatterPeel)).any
     (fun r => r.2.peeled))),
   no clsRegion 18 (outIx.all (fun o => inIx.all (fun i => match at_ o, at_ i with
     | some x, some y => !x.meets 1 y
     | _, _ => true)))]

/-- R243 for a descriptor: no FULL_BLOCK region is the destination of a PEELED drain or of OUT_ROUTE 3, and no earlier
descriptor writes its blocks. -/
def Loading.fullCheck (l : Loading) (core : Nat) (d : Desc) (before : List (Nat × Desc)) (no : Nat → Nat → Bool → Check) : Check :=
  let mine := l.plan.fullBlocks core d
  let remote := d.remoteRuns.any (fun x => l.plan.regions.any (fun r => r.fullBlock && r.inExternal x.1))
  firstOf [
    no clsRegion 18 (!(d.modes.peeled && !mine.isEmpty) && !remote),
    no clsRegion 18 (mine.isEmpty || before.all (fun y => !(l.plan.fullBlocks (y.1 / 1024) y.2).any mine.contains))]

/-- An address of a module of the module map, or of a host (R374). -/
def Loading.inMap (l : Loading) (a : Nat) : Bool := zSpace a == 4 || l.plan.moduleMap.contains (zEndpoint a)

/-- Endpoints a scheduled frame may go to (R374): this module, and those of PEERS. -/
def Loading.reaches (l : Loading) (a : Nat) : Bool :=
  zEndpoint a == l.s.moduleNum || bitOf (zSpace a) 2 || l.plan.peers.contains (zEndpoint a)

def Loading.descCheck (l : Loading) (x : Nat × List Byte) (before : List (Nat × Desc)) : Check :=
  let core := x.1 / 1024
  let d := parseDesc x.2
  let no := fun (cls w : Nat) (ok : Bool) => need ok secDescriptors cls x.1 w
  let vars := [(8, d.shapeVar.1), (9, d.shapeVar.2.1), (10, d.shapeVar.2.2)]
  let milk := l.plan.milkRuns.any (fun m => m.core == core && m.desc == x.1 % 1024)
  (firstOf (noReserved descReserved secDescriptors x.1 x.2 :: d.modeChecks no)).orElse (fun _ =>
  (firstOf (vars.map (fun v => no clsReference v.1 (v.2 == 0 || decide (l.plan.shapeMax.getD (v.2 - 1) 0 ≠ 0))) ++
    [no clsReference 7 (d.modes.outRoute != 2 || !(tget [] l.plan.gangs d.modes.outGang).isEmpty),
     no clsMode 0 (!(milk && d.modes.stochastic)),
     no clsReference 20 (d.modes.outRoute != 3 || l.reaches d.addrs.outRemote.toNat)] ++ d.loopChecks no)).orElse (fun _ =>
  (firstOf (l.footChecks core d no)).orElse (fun _ => l.fullCheck core d before no)))

/-- Descriptors in order, each with those before it. -/
def Loading.descChecks (l : Loading) : List (Nat × List Byte) → List (Nat × Desc) → Check
  | [], _ => none
  | x :: xs, before => (l.descCheck x before).orElse (fun _ => l.descChecks xs (before ++ [(x.1, parseDesc x.2)]))

/-! ### HERDS, GANGS, CODE_MAP -/

def Loading.herdCheck (l : Loading) : Check :=
  let bs := sec l.ss secHerds
  firstOf (need (bs.isEmpty || bs.length == 64) secHerds clsImage 0 0 ::
    bs.mapIdx (fun i b => need (decide (b.toNat < 8)) secHerds clsReserved i 0))

def Loading.gangCheck (l : Loading) : Check :=
  let no := fun (cls i w : Nat) (ok : Bool) => need ok secGangs cls i w
  firstOf ([l.whole secGangs 0 32, no clsLimit 32 0 (decide ((sec l.ss secGangs).length ≤ 32 * 32))] ++
    (l.recs secGangs 32).map (fun x =>
      let g := parseGang x.2
      let size := fieldOf (wordIn x.2 0) 4 0
      let rest := (List.range (16 - size)).map (fun i => (x.2.getD (4 + size + i) 0).toNat)
      firstOf [noReserved [(0, 0xFFFFFFE0), (5, allOnes), (6, allOnes), (7, allOnes)] secGangs x.1 x.2,
        no clsLimit x.1 0 ([0, 2, 4, 8, 16].contains size),
        no clsReserved x.1 1 (g.all (fun c => decide (c < 64)) && rest.all (· == 255)),
        no clsLimit x.1 1 (g.dedup.length == g.length),
        no clsMode x.1 1 (decide ((g.map (fun c => l.plan.herds.getD c 0)).dedup.length ≤ 1))]))

def Loading.codeMapCheck (l : Loading) : Check :=
  let ws := codeWords (sec l.ss secCodeMap)
  let on := fun (w : Nat) => bitOf w 31
  let no := fun (cls i : Nat) (ok : Bool) => need ok secCodeMap cls i 0
  firstOf (ws.mapIdx (fun i w => firstOf [
    no clsReserved i (fieldOf w 30 26 == 0 && fieldOf w 25 24 != 3),
    no clsLimit i (!on w || (decide (fieldOf w 11 0 ≤ fieldOf w 23 12) && decide (fieldOf w 23 12 ≤ 3071))),
    no clsRegion i (!on w || (List.range (i % 64)).all (fun j =>
      let o := ws.getD (i / 64 * 64 + j) 0
      !on o || decide (fieldOf o 23 12 < fieldOf w 11 0) || decide (fieldOf w 23 12 < fieldOf o 11 0)))]))

/-! ### REGIONS (R14, R190, R268, R396) -/

/-- The code of the one valid code region of the plan that holds a run of a stack. -/
def Plan.codeOfRun (p : Plan) (a n : Nat) : Option Nat :=
  match stackOf a, stackOf (a + n - 1) with
  | some (st, o), some (st', o') =>
    if st ≠ st' then none
    else (List.range 64).findSome? (fun i =>
      let w := (tget (0 : Word) p.codeMap (64 * st + i)).toNat
      if bitOf w 31 && decide (fieldOf w 11 0 ≤ o / unit16) && decide (o' / unit16 ≤ fieldOf w 23 12) then some (fieldOf w 25 24)
      else none)
  | _, _ => none

/-- The rings of a queue: offset and length. -/
def QueuePair.rings (q : QueuePair) : List (Nat × Nat) := [(q.sqBase, 64 * 2 ^ q.sqExp), (q.cqBase, 16 * 2 ^ q.cqExp)]

def Loading.ringMeets (l : Loading) (r : Region) : Bool :=
  let off := zOff r.base.toNat
  r.space == 1 && l.s.ctl.queues.any (fun q => q.2.enable && q.2.rings.any (fun x =>
    decide (x.1 < off + r.size) && decide (off < x.1 + x.2)))

/-- Regions of a shard by role, where the shard is owned. -/
def Plan.shardRegions (p : Plan) (st shard role : Nat) : List Region :=
  (p.regionsIn st role).filter (fun r => r.shard == shard)

def Plan.shardWhole (p : Plan) (st shard : Nat) : Bool :=
  let one := fun (role : Nat) => (p.shardRegions st shard role).length == 1
  let bf := (p.shardRegions st shard 6).any (fun r => r.format == 0)
  [1, 4, 5, 6, 7].all one && (bf || one 8)

def Loading.regionCheck (l : Loading) : Check :=
  let rs := l.plan.regions
  let no := fun (cls i w : Nat) (ok : Bool) => need ok secRegions cls i w
  firstOf ([l.whole secRegions 0 32, no clsLimit 16384 0 (decide (rs.length ≤ 16384))] ++
    (l.recs secRegions 32).map (fun x =>
      let r := parseRegion x.2
      let a := r.base.toNat
      let st := ((stackOf (zOff a)).map (·.1)).getD 12
      firstOf [noReserved regionReserved secRegions x.1 x.2,
        no clsReserved x.1 0 (decide (r.space < 4) && decide (r.code < 3) && (r.space == 1 || r.code == 0)),
        no clsReserved x.1 5 (decide (r.format < 7)),
        no clsReserved x.1 1 (r.space != 0 || fieldOf a 31 27 == 0),
        no clsRegion x.1 1 (match r.space with
          | 0 => true
          | 1 => zEndpoint a == l.s.moduleNum && zSpace a == 0 && l.plan.codeOfRun (zOff a) (max 1 r.size) == some r.code
          | 2 => zEndpoint a == l.s.moduleNum && zSpace a == 1 && decide (zOff a + r.size ≤ 2 ^ 40)
          | _ => zEndpoint a != l.s.moduleNum && l.inMap a),
        no clsRegion x.1 0 (r.space != 1 || !(stateSetRole r.role || r.role == 13) || r.code == 0),
        no clsRegion x.1 0 (!r.kept || r.code != 2),
        no clsRegion x.1 1 ((rs.take x.1).all (fun o => !(o.meets 1 r && o.liveMeets r))),
        no clsReference x.1 4 (r.origin == 0xFFFF || decide (r.origin < rs.length)),
        no clsRegion x.1 4 (r.origin == 0xFFFF || (!r.noOrigin && (rs[r.origin]?).any (fun o => o.space != 0 && decide (r.size ≤ o.size)))),
        no clsRegion x.1 1 (!r.fullBlock || r.space != 0 || (rs.zipIdx).all (fun y =>
          y.2 == x.1 || !(r.meets 512 y.1 && r.liveMeets y.1))),
        no clsRegion x.1 5 (!r.owned || r.role == 0 || decide (10 < r.role) || (r.space == 1 && l.plan.shardWhole st r.shard)),
        no clsRegion x.1 1 (!l.ringMeets r)]))

/-! ### SHARDS, RULES, MILK_RUNS, COMPLETIONS (R161, R323, R416, R521) -/

def Loading.shardCheck (l : Loading) : Check :=
  let no := fun (cls i w : Nat) (ok : Bool) => need ok secShards cls i w
  let owned := l.plan.ownedShards
  firstOf ([l.whole secShards 0 32] ++
    (l.recs secShards 32).map (fun x =>
      let r := parseShard x.2
      firstOf [noReserved [(0, 0xFFFF0000), (3, 0xFF000000), (4, 0xFF000000), (5, 0xFF000000), (6, allOnes), (7, allOnes)] secShards x.1 x.2,
        no clsReference x.1 0 (decide (r.stack < 12)),
        no clsLimit x.1 0 (!(l.plan.shards.take x.1).any (fun o => o.stack == r.stack && o.shard == r.shard))]) ++
    (List.range 12).map (fun st => no clsRegion st 0
      (!owned.any (fun x => x.1 == st) || decide (2 ≤ (l.plan.regionsIn st 12).length))))

/-- The FP32 value nearest 0.981, as a code (R161). -/
def decayLimit : Nat := 0x3F7B22D1

/-- A decay rate above it: a positive code above, infinity or NaN. -/
def decayOver (w : Word) : Bool := !bitOf w.toNat 31 && decide (decayLimit < w.toNat)

def Loading.ruleCheck (l : Loading) : Check :=
  let no := fun (cls i w : Nat) (ok : Bool) => need ok secRules cls i w
  firstOf ([l.whole secRules 0 32, no clsLimit 32 0 (decide (l.plan.rules.length ≤ 32))] ++
    (l.recs secRules 32).map (fun x =>
      let r := parseRule x.2
      firstOf [noReserved [(0, 0xFFF00F00), (6, allOnes), (7, allOnes)] secRules x.1 x.2,
        no clsReserved x.1 0 (decide (r.kind < 5) && decide (r.moments < 3)),
        no clsLimit x.1 0 (match r.kind with
          | 0 => r.moments == 0
          | 1 => r.moments == 1
          | 2 => r.moments == 2
          | 3 => r.moments == 2
          | _ => decide (r.moments < 2)),
        no clsMode x.1 0 ((!r.biasCorr || r.kind == 2) && (!r.nesterov || r.kind == 1)),
        no clsLimit x.1 1 (!(r.biasCorr && decayOver r.beta1)),
        no clsLimit x.1 2 (!(r.biasCorr && decayOver r.beta2))]))

/-- Bytes at a Zarixon address of this module as PRELOAD leaves them, where one run writes them all. -/
def Plan.preExt (p : Plan) (a n : Nat) : Option (List Byte) :=
  p.preload.reverse.findSome? (fun r =>
    if r.space ≠ 0 ∧ r.addr.toNat ≤ a ∧ a + n ≤ r.addr.toNat + r.data.length then some ((r.data.drop (a - r.addr.toNat)).take n)
    else none)

/-- Bytes at a die scratchpad address of a core as PRELOAD leaves them, or as a fill that it places copies them there. -/
def Loading.placedBytes (l : Loading) (core a n : Nat) : Option (List Byte) :=
  (l.plan.preBytes (spCore core a) (spOff a) n).orElse (fun _ =>
    l.plan.fetchEntries.findSome? (fun y =>
      let f := parseFetchBytes y.2.2.2
      if f.kind = 0 ∧ f.dir = 0 then
        (List.range f.count).findSome? (fun (i : Nat) =>
          let d := spKey y.1 (spAdd f.sp (f.spPitch * (i : Int)))
          if d ≤ spKey core a ∧ spKey core a + n ≤ d + f.rowBytes then
            l.plan.preExt (f.ext.toNat + i * f.extPitch + (spKey core a - d)) n
          else none)
      else none))

/-- The commands that fetch lists of the plan write to windows of this module, by their first two words. -/
def Loading.placedCommands (l : Loading) : List (Window × List Byte) :=
  l.plan.fetchEntries.filterMap (fun x =>
    let e := parseFetchBytes x.2.2.2
    let a := e.ext.toNat
    let own := e.dir = 1 ∧ zEndpoint a = l.s.moduleNum ∧ zSpace a = 0
    match (if own then windowAt (zOff a) else none), l.placedBytes x.1 e.sp 8 with
    | some w, some bs => some (w, bs)
    | _, _ => none)

/-- The update commands among them: stack, shard, rule. -/
def Loading.placedUpdates (l : Loading) : List (Nat × Nat × Nat) :=
  l.placedCommands.filterMap (fun x => match x.1 with
    | .upd st _ =>
      if wordIn x.2 0 % 8 = opUpdate then some (st, wordIn x.2 1 % 4096, fieldOf (wordIn x.2 0) 7 3) else none
    | _ => none)

/-- Destination budgets of the PRUNEs among them, for a shard. -/
def Loading.prunedTo (l : Loading) (stack shard : Nat) : List Nat :=
  l.placedCommands.filterMap (fun x => match x.1 with
    | .sep st _ =>
      if st = stack ∧ wordIn x.2 0 % 8 = opPrune ∧ wordIn x.2 1 % 4096 = shard then some (fieldOf (wordIn x.2 0) 6 5) else none
    | _ => none)

/-- OWNED shards that the plan shows to be of a DIRECTION rule (R323; log entry 44): those whose UPDATE the plan places with
such a rule, and all of them where the plan has no other rule. -/
def Loading.directionShards (l : Loading) : List (Nat × Nat) :=
  let dir := fun (r : Nat) => (l.plan.rules[r]?).any (fun x => x.kind == 4)
  let named := l.plan.rules.filter (fun r => !r.empty)
  let only := !named.isEmpty && named.all (fun r => r.kind == 4)
  l.plan.ownedShards.filter (fun x => only || l.placedUpdates.any (fun u => u.1 == x.1 && u.2.1 == x.2 && dir u.2.2))

/-- Regions a descriptor reads, and those it writes, by index. -/
def Loading.reads (l : Loading) (key : Nat) (d : Desc) : List Nat :=
  (l.inputRuns (key / 1024) d).filterMap (fun x => l.plan.regionOf (key / 1024) x.2)

def Loading.writes (l : Loading) (key : Nat) (d : Desc) : List Nat :=
  (l.plan.outRuns (key / 1024) d ++ [(key / 1024, d.statRuns), (key / 1024, d.sumRuns)]).filterMap (fun x =>
    if x.2.isEmpty then none else l.plan.regionOf x.1 x.2)

def Loading.milkCheck (l : Loading) : Check :=
  let ms := l.plan.milkRuns
  let no := fun (cls i w : Nat) (ok : Bool) => need ok secMilk cls i w
  let isMilk := fun (key : Nat) => ms.any (fun m => 1024 * m.core + m.desc == key)
  firstOf ([l.whole secMilk 0 16] ++
    (l.recs secMilk 16).map (fun x =>
      let m := parseMilk x.2
      let ix := fieldOf (wordIn x.2 1) 13 0
      let outs := match tfind l.plan.descs (1024 * m.core + m.desc) with
        | some d => l.writes (1024 * m.core + m.desc) d
        | none => []
      firstOf [noReserved [(0, 0xFC000000), (1, 0xFFFFC000)] secMilk x.1 x.2,
        no clsReference x.1 0 (l.plan.descExists m.core m.desc),
        no clsReference x.1 1 (decide (ix < l.plan.regions.length)),
        no clsRegion x.1 1 ((l.plan.regions[ix]?).any (fun r => r.role == 13)),
        no clsReference x.1 0 (!(ms.take x.1).any (fun o => o.core == m.core && o.order == m.order)),
        no clsRegion x.1 0 (l.plan.descs.all (fun y => isMilk y.1 || (l.reads y.1 y.2).all (fun i =>
          outs.all (fun o => match l.plan.regions[i]?, l.plan.regions[o]? with
            | some a, some b => !a.meets 1 b
            | _, _ => true))))]) ++
    (List.range 64).map (fun c =>
      let mine := ms.filter (fun m => m.core == c)
      no clsReference 0 0 (!mine.isEmpty && (List.range mine.length).all (fun o => mine.any (fun m => m.order == o)))))

def Loading.completionCheck (l : Loading) : Check :=
  let no := fun (cls i w : Nat) (ok : Bool) => need ok secCompletions cls i w
  let pairBits := (List.range 8).map (fun i => (i + 1, 0xFFFF0000))
  firstOf (l.whole secCompletions 0 48 ::
    (l.recs secCompletions 48).map (fun x =>
      let c := parseCompletion x.2
      let n := fieldOf (wordIn x.2 0) 19 16
      firstOf ([noReserved ((0, 0xFFF00000) :: pairBits ++ [(9, allOnes), (10, allOnes), (11, allOnes)]) secCompletions x.1 x.2,
        no clsLimit x.1 0 (decide (1 ≤ n) && decide (n ≤ 8)),
        no clsReference x.1 0 (decide (c.stack < 12) && !(l.plan.shardRegions c.stack c.shard 1).isEmpty)] ++
        (List.range 8).map (fun i => if i < n then
            no clsReference x.1 (i + 1) ((c.pairs[i]?).any (fun p => l.plan.descExists p.1 p.2))
          else no clsReserved x.1 (i + 1) (decide (wordIn x.2 (i + 1) = 0))))) ++
    l.directionShards.map (fun x => no clsReference 0 0 (l.plan.completions.any (fun c => c.stack == x.1 && c.shard == x.2))))

/-! ### MIRROR_MAP (R323, R522) -/

/-- Bytes of the largest image of a shard of this module (R311): 4 per slot and 2 per group, at the budget of its master and
those that the plan's PRUNEs give it (R314). -/
def Loading.largestImage (l : Loading) (st shard : Nat) : Nat :=
  match l.plan.shards.find? (fun x => x.stack == st && x.shard == shard) with
  | none => 0
  | some x =>
    let groups := (x.words.getD 2 0).toNat % 2 ^ 24 * ((x.words.getD 4 0).toNat % 2 ^ 24)
    (((l.plan.shardRegions st shard 1).map (·.budget) ++ l.prunedTo st shard).map (fun b =>
      groups * (4 * budgetOf b + if b = 0 then 0 else 2))).foldl max 0

def Loading.mirrorCheck (l : Loading) : Check :=
  let mm := sec l.ss secMirror
  let twin := wordIn mm 0 % 4096
  let ps := l.plan.places
  let no := fun (cls i w : Nat) (ok : Bool) => need ok secMirror cls i w
  let held := fun (p : Place) => p.owner != l.plan.moduleIndex
  let meets := fun (a n b m : Nat) => decide (a < b + m) && decide (b < a + n)
  let gens := fun (p : Place) => [(p.gen0.toNat, p.bytes), (p.gen1.toNat, p.bytes)]
  let own := fun (a n : Nat) => zEndpoint a == l.s.moduleNum && zSpace a == 1 &&
    l.plan.regions.any (fun r => r.space == 2 && r.inExternal a && r.inExternal (a + n - 1))
  let head := if mm.isEmpty then []
    else [noReserved [(0, 0xFFFFF000), (1, allOnes), (2, allOnes), (3, allOnes)] secMirror wholeImage mm,
      no clsReference wholeImage 0 (decide (twin < l.plan.systemModules))]
  firstOf ([l.whole secMirror 16 32] ++ head ++
    ((recordsOf 32 (mm.drop 16)).zipIdx).map (fun x =>
      let p := parsePlace x.1
      let i := x.2
      firstOf [noReserved [(0, 0x0000F000), (6, allOnes), (7, allOnes)] secMirror i x.1,
        no clsReference i 0 (p.owner == l.plan.moduleIndex || p.owner == twin),
        no clsReference i 0 (decide (p.stack < 12)),
        no clsLimit i 5 (p.bytes % 512 == 0 && decide (64 < p.bytes) && (held p || decide (64 + l.largestImage p.stack p.shard ≤ p.bytes))),
        no clsRegion i 1 (p.gen0.toNat % 512 == 0), no clsRegion i 3 (p.gen1.toNat % 512 == 0),
        no clsReference i 1 (l.inMap p.gen0.toNat), no clsReference i 3 (l.inMap p.gen1.toNat),
        no clsRegion i 1 (!held p || own p.gen0.toNat p.bytes), no clsRegion i 3 (!held p || own p.gen1.toNat p.bytes),
        no clsRegion i 3 (!held p || !meets p.gen0.toNat p.bytes p.gen1.toNat p.bytes),
        no clsRegion i 1 (!held p || ((ps.take i).filter held).all (fun o => (gens o).all (fun g =>
          (gens p).all (fun h => !meets g.1 g.2 h.1 h.2))))]) ++
    l.plan.ownedShards.map (fun x => no clsReference 0 0
      (ps.any (fun p => p.owner == l.plan.moduleIndex && p.stack == x.1 && p.shard == x.2))))

/-! ### REDUCTIONS, PEERS, EXPORT_MAP (R359, R374, R521) -/

/-- Units that an engine sums over every table, up to an entry. -/
def unitsOf (es : List RedEntry) (engine : Nat) : Nat :=
  ((es.filter (fun e => e.engine == engine)).map (fun e => ceilDiv e.length 512)).foldl (· + ·) 0

def Loading.reductionCheck (l : Loading) : Check :=
  let bs := sec l.ss secReductions
  if bs.isEmpty then none
  else
    let all := (List.range 16).flatMap (fun v => (redTable bs v).zipIdx.map (fun x => (4096 * v + x.2, x.1)))
    let es := all.map (fun x => parseRed x.2)
    firstOf ([l.whole secReductions 128 32, indexCheck secReductions 16 4096 13 bs (fun v => (l.plan.variant v).isSome)] ++
      (all.zipIdx).map (fun x =>
        let e := parseRed x.1.2
        let no := fun (cls w : Nat) (ok : Bool) => need ok secReductions cls x.1.1 w
        let a := e.dest.toNat
        firstOf [noReserved redReserved secReductions x.1.1 x.1.2,
          no clsReserved 0 (decide (e.op < 2)),
          no clsLimit 0 (decide (1 ≤ e.expect) && decide (e.expect ≤ 4096)),
          no clsLimit 3 (e.op != 0 || e.length % 2 == 0),
          no clsRegion 1 (a % 512 == 0 && zEndpoint a == l.s.moduleNum && l.external a (max 1 e.length)),
          no clsLimit 3 (decide (unitsOf (es.take (x.2 + 1)) e.engine ≤ 2 ^ 23)),
          no clsReference 4 (!e.hold || (decide (e.stack < 12) && !(l.plan.shardRegions e.stack e.shard 1).isEmpty))]))

def Loading.peerCheck (l : Loading) : Check :=
  let no := fun (cls i : Nat) (ok : Bool) => need ok secPeers cls i 0
  let ns := (recordsOf 2 (sec l.ss secPeers)).map leNat
  firstOf (l.whole secPeers 0 2 :: ns.mapIdx (fun i n => firstOf [
    no clsReserved i (decide (n < 4096)),
    no clsReference i (decide (n < l.plan.systemModules)),
    no clsLimit i (n != l.plan.moduleIndex && (i == 0 || decide (ns.getD (i - 1) 0 < n)))]))

def Loading.exportCheck (l : Loading) : Check :=
  let bs := sec l.ss secExport
  if bs.isEmpty then none
  else
    let n := wordIn bs 0
    firstOf ([need (decide (16 + 16 * n ≤ bs.length)) secExport clsImage 0 0,
        noReserved [(1, allOnes), (2, allOnes), (3, allOnes)] secExport wholeImage bs] ++
      (List.range (min n (bs.length / 16))).map (fun i =>
        let r := slice bs (16 + 16 * i) 16
        firstOf [noReserved [(3, allOnes)] secExport i r,
          need (wordIn r 2 % 4 == 0 && decide (wordIn r 2 + 4 * wordIn r 1 ≤ bs.length)) secExport clsRegion i 2]))

/-! ### PRELOAD and its fetch lists (R252, R253, R374) -/

def Loading.runCheck (l : Loading) (i : Nat) (h data : List Byte) : Check :=
  let r := parseRun h data
  let a := r.addr.toNat
  let n := wordIn h 1
  let no := fun (cls w : Nat) (ok : Bool) => need ok secPreload cls i w
  firstOf [noReserved [(0, 0xFFFFFFF0)] secPreload i h,
    no clsReserved 0 (decide (r.space < 3)),
    need (data.length == n) secPreload clsImage i 1,
    no clsLimit 1 (decide (1 ≤ n)),
    no clsReserved 2 (r.space != 0 || fieldOf a 31 27 == 0),
    no clsReserved 3 (r.space != 0 || wordIn h 3 == 0),
    no clsRegion 2 (if r.space = 0 then (runCores a).all (fun c => (l.plan.regionOf c [(a, n)]).isSome)
      else zEndpoint a == l.s.moduleNum && l.plan.regions.any (fun g => g.space == r.space && g.inExternal a && g.inExternal (a + n - 1)))]

def fetchReserved : List (Nat × Nat) :=
  [(0, 0x1F), (1, 0xF8000000), (4, 0xFF000000), (5, 0xFF000000), (8, 0xF8000000), (10, 0xFF000000), (11, 0xFFFFFFF0),
   (14, allOnes), (15, allOnes)]

/-- One fetch-list entry at its planned count; `at_` is its first byte within its run. -/
def Loading.fetchCheck (l : Loading) (core run at_ : Nat) (r : List Byte) : Check :=
  let e := parseFetchBytes r
  let t := l.asIf
  let no := fun (cls w : Nat) (ok : Bool) => need ok secPreload cls run (at_ / 4 + w)
  let a := e.ext.toNat
  let n := e.count
  firstOf [
    need ((reservedWord fetchReserved r).isNone) secPreload clsReserved run (at_ / 4 + (reservedWord fetchReserved r).getD 0),
    no clsReserved 0 (decide (e.kind < 4) && decide (e.dir < 3) && decide (e.elem < 3)),
    no clsReserved 2 (e.dir != 2 || fieldOf (wordIn r 2) 31 27 == 0),
    no clsReserved 3 (e.dir != 2 || wordIn r 3 == 0),
    no clsLimit 0 (decide (e.fq < 62)),
    no clsMode 0 (e.spaceOk (zEndpoint a == l.s.moduleNum)),
    no clsLimit 4 (e.rowBytes != 0 && (e.kind != 1 || e.rowBytes % 512 == 0) && (e.kind != 2 || e.rowBytes % e.pieces == 0)),
    no clsLimit 5 (n != 0),
    no clsReference 0 (e.shapeVar == 0 || decide (l.plan.shapeMax.getD (e.shapeVar - 1) 0 ≠ 0)),
    no clsRegion 1 (t.runsOk core (e.sources n) && (e.dir != 0 || t.runsOk core (e.dests n))),
    no clsRegion 2 (e.dir != 2 || t.runsOk core (e.dests n)),
    no clsRegion 8 (t.runsOk core (e.listRun n)),
    no clsRegion 2 (e.kind != 0 || decide (2 ≤ e.dir) || decide (2 ≤ zSpace a) || l.external a ((n - 1) * e.extPitch + e.rowBytes)),
    no clsRegion 2 ((e.overlap core n).isNone),
    no clsReference 3 (decide (2 ≤ e.dir) || l.reaches a)]

/-- Every entry of the fetch lists that PRELOAD places, and R243 among them: none fills a block of a FULL_BLOCK region that a
descriptor or an entry before it writes. -/
def Loading.fetchChecks (l : Loading) : Check :=
  let es := l.plan.fetchEntries.dedup
  let descs := l.plan.descs.flatMap (fun x => l.plan.fullBlocks (x.1 / 1024) x.2)
  let full := fun (x : Nat × Nat × Nat × List Byte) => let e := parseFetchBytes x.2.2.2; l.plan.fetchFull x.1 e e.count
  firstOf ((es.map (fun x => l.fetchCheck x.1 x.2.1 x.2.2.1 x.2.2.2)) ++
    (es.zipIdx).map (fun x =>
      let mine := full x.1
      need (mine.isEmpty || !(mine.any descs.contains || (es.take x.2).any (fun y => (full y).any mine.contains)))
        secPreload clsRegion x.1.2.1 (x.1.2.2.1 / 4 + 1)))

/-! #### Scheduled frames (R353, R374) -/

/-- Frames that an entry or a drain puts on a port, or brings to it (log entry 34). -/
structure Frames where
  received : Bool
  port     : Nat
  count    : Nat

/-- Scheduled traffic goes to modules other than this one (R352). -/
def Loading.away (l : Loading) (a : Nat) : Bool := zEndpoint a != l.s.moduleNum && zSpace a != 4

/-- Frames of n rows of some bytes each: rows that follow each other share frames (R334, R342). -/
def rowFrames (n bytes : Nat) (joined : Bool) : Nat := if joined then ceilDiv (n * bytes) 8192 else n * ceilDiv bytes 8192

/-- Frames of a fetch-list entry in a variant: writes by their data on the sending port, reads by their answers on the port
that receives them, and the GATHERs that ask for blocks, of 510 coordinates each, on the sending port (R348). -/
def Loading.framesOf (l : Loading) (v : Variant) (core : Nat) (r : List Byte) : List Frames :=
  let e := parseFetchBytes r
  let a := e.ext.toNat
  let q := 64 * core + e.fq
  let out := portFor (planeOf (some v) q) (zEndpoint a) q
  let back := portFor (planeOf (some v) q) l.s.moduleNum q
  let joined := e.kind == 0 && e.extPitch == e.rowBytes
  if decide (2 ≤ e.dir) || !l.away a then []
  else if e.dir = 1 then [⟨false, out, rowFrames e.count e.rowBytes joined⟩]
  else if e.kind = 1 then
    [⟨false, out, ceilDiv e.count 510⟩,
     ⟨true, back, e.count / 510 * ceilDiv (510 * e.rowBytes) 8192 + ceilDiv (e.count % 510 * e.rowBytes) 8192⟩]
  else [⟨true, back, rowFrames e.count e.rowBytes joined⟩]

/-- Frames of a descriptor's drains under OUT_ROUTE 3. -/
def Loading.drainFrames (l : Loading) (v : Variant) (core : Nat) (d : Desc) : List Frames :=
  let a := d.addrs.outRemote.toNat
  let q := 64 * core + d.modes.outFq
  if d.modes.outRoute = 3 ∧ l.away a then
    [⟨false, portFor (planeOf (some v) q) (zEndpoint a) q, (d.remoteRuns.map (fun r => ceilDiv r.2 8192)).foldl (· + ·) 0⟩]
  else []

/-- Frames of the segment that runs a descriptor. -/
def Loading.segFrames (l : Loading) (v : Variant) (core ix : Nat) : List Frames :=
  match tfind l.plan.descs (1024 * core + ix) with
  | none => []
  | some d => (l.plan.listEntries core d).flatMap (fun x => l.framesOf v core x.2.2.2) ++ l.drainFrames v core d

/-- Frames per slot on a port at its rate. -/
def Plan.portLimit (p : Plan) (port : Nat) : Nat := 60 * 2 ^ fieldOf p.portRates (2 * port + 1) (2 * port)

def Loading.frameCheck (l : Loading) : Check :=
  let placed := fun (v : Variant) => allCores.flatMap (fun c =>
    ((tget [] l.plan.schedules (64 * v.number + c)).zipIdx).flatMap (fun x =>
      if x.1.cls = 4 ∨ x.1.cls = 5 then []
      else (l.segFrames v c x.1.descIndex).map (fun f => (x.1.startSlot, f, (64 * v.number + c) * 2 ^ 14 + x.2))))
  firstOf (l.plan.variants.map (fun v =>
    let fs := placed v
    firstOf (fs.map (fun f =>
      let same := fs.filter (fun g => g.1 == f.1 && g.2.1.received == f.2.1.received && g.2.1.port == f.2.1.port)
      let sum := (same.map (fun g => g.2.1.count)).foldl (· + ·) 0
      need (decide (sum ≤ l.plan.portLimit f.2.1.port)) secSchedules clsTiming f.2.2 0))))

/-- Queues whose traffic leaves the module: those of remote drains and entries, and the units of stacks with owned
shards (R346). -/
def Loading.liveQueues (l : Loading) : List Nat :=
  (l.plan.descs.filterMap (fun x =>
    if x.2.modes.outRoute = 3 ∧ zEndpoint x.2.addrs.outRemote.toNat ≠ l.s.moduleNum then some (64 * (x.1 / 1024) + x.2.modes.outFq) else none)) ++
  (l.plan.fetchEntries.filterMap (fun x =>
    let e := parseFetchBytes x.2.2.2
    if decide (e.dir < 2) && zEndpoint e.ext.toNat != l.s.moduleNum then some (64 * x.1 + e.fq) else none)) ++
  (l.plan.ownedShards.flatMap (fun x => [64 * x.1 + 63, 64 * (12 + x.1) + 63]))

def Loading.planeMapCheck (l : Loading) : Check :=
  let qs := l.liveQueues.dedup
  firstOf ((l.plan.variants.zipIdx).map (fun x => firstOf (qs.map (fun q =>
    need (bitOf x.1.planes (planeOf (some x.1) q)) secVariants clsMode x.2 (128 + q / 32)))))

/-! ### All of them -/

/-- The checks of a list in order, up to the first that refuses. -/
def firstRefusal : List (Unit → Check) → Check
  | [] => none
  | c :: cs => match c () with
    | some r => some r
    | none => firstRefusal cs

/-- The checks of the header, the variants, the tables and the descriptors. -/
def Loading.checkTables (l : Loading) : List (Unit → Check) :=
  [fun _ => l.headerCheck, fun _ => l.variantCheck, fun _ => l.planeMapCheck, fun _ => l.scheduleCheck, fun _ => l.frameCheck,
   fun _ => need (decide ((sec l.ss secDescriptors).length = 16777216)) secDescriptors clsImage 0 0,
   fun _ => l.descChecks (descRecords l.ss) [], fun _ => l.herdCheck, fun _ => l.gangCheck, fun _ => l.codeMapCheck]

/-- The checks of the regions, the shards, the fabric's records and the preload runs. -/
def Loading.checkRecords (l : Loading) : List (Unit → Check) :=
  [fun _ => l.regionCheck, fun _ => l.shardCheck, fun _ => l.ruleCheck, fun _ => l.milkCheck, fun _ => l.completionCheck,
   fun _ => l.mirrorCheck, fun _ => l.reductionCheck, fun _ => l.peerCheck, fun _ => l.exportCheck,
   fun _ => firstOf ((runsIn l.ss).mapIdx (fun i x => l.runCheck i x.2.1 x.2.2)), fun _ => l.fetchChecks]

/-- Step 3 of R493. -/
def Loading.check (l : Loading) : Check :=
  firstRefusal (l.checkTables ++ l.checkRecords)

end Sys2Proof.Machine
end

