-- ==== Sys2Proof/Machine/Queue.lean ====
section
/-!
DEFINITION. Queue pairs (R395 to R400): the queue table of space 3, its enables, the start of a submission entry, the
operations of Table 13.11 but PLAN_LOAD, and the completion ring. Readings: log entry 35.
-/

namespace Sys2Proof.Machine

def QueuePair.reset : QueuePair := ⟨false, false, 0, 0, 0, 0, 0, 0, 0, 0, 0, true, []⟩

def State.pair (s : State) (q : Nat) : QueuePair := tget QueuePair.reset s.ctl.queues q

def State.setPair (s : State) (q : Nat) (p : QueuePair) : State :=
  { s with ctl := { s.ctl with queues := tputD QueuePair.reset s.ctl.queues q p } }

/-- Entries 0 to 15 are reserved (R395). -/
def pairReserved (q : Nat) : Bool := decide (q < 16)

/-- The entry as space 3 shows it (Table 13.9). -/
def QueuePair.words (p : QueuePair) : List Nat :=
  [bnat p.enable * 2 ^ 31 + bnat p.error * 2 ^ 30 + p.sqExp * 2 ^ 12 + p.cqExp * 2 ^ 8 + p.cause,
   p.sqBase % 2 ^ 32, p.sqBase / 2 ^ 32, p.cqBase % 2 ^ 32, p.cqBase / 2 ^ 32, p.sqTail, p.sqHead, p.cqTail, p.cqHead,
   0, 0, 0, 0, 0, 0, 0]

def QueuePair.bytes (p : QueuePair) : List Byte := p.words.flatMap (leBytes 4)

/-- Bytes of space 3. -/
def State.queueBytes (s : State) (off n : Nat) : List Byte :=
  (((List.range ((off + n + 63) / 64 - off / 64)).flatMap (fun i => (s.pair (off / 64 + i)).bytes)).drop (off % 64)).take n

/-! ### Enabling (R396) -/

/-- A ring lies within one valid code region of its stack. -/
def State.inOneCode (s : State) (off n : Nat) : Bool :=
  match stackOf off, stackOf (off + n - 1) with
  | some (st, a), some (st', b) => st == st' && (List.range 64).any (fun i =>
      let w := s.reg (Reg.HBM_CODE_REGION st i)
      bitOf w 31 && decide (fieldOf w 11 0 ≤ a / unit16) && decide (b / unit16 ≤ fieldOf w 23 12))
  | _, _ => false

def sizeOk (e : Nat) : Bool := decide (4 ≤ e) && decide (e ≤ 15)

/-- A ring shares a byte with the rings of another enabled queue, or with a region of the loaded plan. -/
def State.ringTaken (s : State) (q : Nat) (r : Nat × Nat) : Bool :=
  s.ctl.queues.any (fun x => x.1 != q && x.2.enable && x.2.rings.any (fun y => overlap r.1 r.2 y.1 y.2)) ||
  (match s.run.plan with
   | some p => p.regions.any (fun g => g.space == 1 && overlap r.1 r.2 (zOff g.base.toNat) g.size)
   | none => false)

/-- ERROR_CAUSE: the first check that fails. -/
def State.enableCause (s : State) (q : Nat) (p : QueuePair) : Nat :=
  if !(sizeOk p.sqExp && sizeOk p.cqExp) then 1
  else if p.rings.any (fun r => r.1 % 64 != 0) then 2
  else if !p.rings.all (fun r => s.inOneCode r.1 r.2) then 3
  else if p.rings.any (s.ringTaken q) then 4
  else 0

/-- A write or a doorbell that the queue manager refuses or ignores: the event names the queue's entry in space 3 (R390). -/
def State.pairRefused (s : State) (q : Nat) : State := s.event clsQmgr 0 evRefused (s.zAddr 3 (64 * q))

/-- The sizes of word 0 of a queue that is not enabled, and ENABLE set: the queue is enabled or the cause recorded. -/
def State.queueEnable (s : State) (q : Nat) (word0 : Nat) : State :=
  let p := s.pair q
  if pairReserved q || p.enable then s.pairRefused q
  else
    let p := { p with sqExp := fieldOf word0 15 12, cqExp := fieldOf word0 11 8 }
    if !bitOf word0 31 then s.setPair q p
    else
      let cause := s.enableCause q p
      if cause = 0 then
        s.setPair q { p with enable := true, error := false, cause := 0, sqTail := 0, sqHead := 0, cqTail := 0, cqHead := 0, phase := true }
      else ((s.setPair q { p with error := true, cause := cause }).bump Reg.QMGR_QUEUE_ERRORS).pairRefused q

def execQueueEnable (q : Fin 4096) (word0 : Word) (s : State) : Result := done (s.queueEnable q word0.toNat)

def State.queueDisable (s : State) (q : Nat) : State :=
  if pairReserved q then s.pairRefused q else s.setPair q { s.pair q with enable := false }

def execQueueDisable (q : Fin 4096) (s : State) : Result := done (s.queueDisable q)

/-- A write of a word of an entry that is ignored (R395, R396): of a reserved entry, and of an enabled one but for ENABLE. -/
def QueuePair.ignores (p : QueuePair) (q w v : Nat) : Bool :=
  pairReserved q || (p.enable && (w == 0 && (fieldOf v 15 12 != p.sqExp || fieldOf v 11 8 != p.cqExp) ||
    (decide (1 ≤ w) && decide (w ≤ 4))))

/-- A write of one word of an entry (R395, R396): RO words and a reserved entry take nothing. -/
def State.queueWord (s : State) (q w v : Nat) : State :=
  let p := s.pair q
  let s := if p.ignores q w v then s.pairRefused q else s
  if pairReserved q then s
  else if w = 0 then (if !p.enable then s.queueEnable q v else if bitOf v 31 then s else s.queueDisable q)
  else if p.enable then s
  else if w = 1 then s.setPair q { p with sqBase := p.sqBase / 2 ^ 32 * 2 ^ 32 + v }
  else if w = 2 then s.setPair q { p with sqBase := v % 2 ^ 16 * 2 ^ 32 + p.sqBase % 2 ^ 32 }
  else if w = 3 then s.setPair q { p with cqBase := p.cqBase / 2 ^ 32 * 2 ^ 32 + v }
  else if w = 4 then s.setPair q { p with cqBase := v % 2 ^ 16 * 2 ^ 32 + p.cqBase % 2 ^ 32 }
  else s

/-- A write of space 3: the bytes merged into the words they touch, the bases before word 0 of each entry; and the offset of
the first word whose write is ignored. -/
def State.queueWrite (s : State) (off : Nat) (bs : List Byte) : State × Option Nat :=
  let n := bs.length
  if n = 0 then (s, none)
  else
    (List.range ((off + n + 63) / 64 - off / 64)).foldl (fun (a : State × Option Nat) i =>
      let t := a.1
      let q := off / 64 + i
      let old := (t.pair q).bytes
      let merged := (List.range 64).map (fun j => if off ≤ 64 * q + j ∧ 64 * q + j < off + n then bs.getD (64 * q + j - off) 0 else old.getD j 0)
      let touched := fun (w : Nat) => decide (off < 64 * q + 4 * w + 4) && decide (64 * q + 4 * w < off + n)
      let lost := (List.range 16).find? (fun w => touched w && (t.pair q).ignores q w (wordIn merged w))
      ((if pairReserved q && lost.isSome then t.pairRefused q else
          [1, 2, 3, 4, 0].foldl (fun u w => if touched w then u.queueWord q w (wordIn merged w) else u) t),
        a.2.orElse (fun _ => lost.map (fun w => 64 * q + 4 * w)))) (s, none)

/-! ### Doorbells (R398) -/

/-- A new SQ_TAIL must not pass SQ_HEAD: the ring would be full at the entry before it. -/
def QueuePair.tailOk (p : QueuePair) (ix : Nat) : Bool :=
  let n := 2 ^ p.sqExp
  decide (ix < n) && decide ((ix + n - p.sqTail) % n ≤ (p.sqHead + 2 * n - p.sqTail - 1) % n)

/-- A new CQ_HEAD must not pass CQ_TAIL. -/
def QueuePair.headOk (p : QueuePair) (ix : Nat) : Bool :=
  let n := 2 ^ p.cqExp
  decide (ix < n) && decide ((ix + n - p.cqHead) % n ≤ (p.cqTail + n - p.cqHead) % n)

/-- A doorbell, and whether it was taken. -/
def State.doorbell (s : State) (completion : Bool) (q ix : Nat) : State × Bool :=
  let p := s.pair q
  if !pairReserved q && p.enable && (if completion then p.headOk ix else p.tailOk ix) then
    (s.setPair q (if completion then { p with cqHead := ix } else { p with sqTail := ix }), true)
  else ((s.bump Reg.QMGR_QUEUE_ERRORS).pairRefused q, false)

/-! ### Entries (R397, R399, R400) -/

def stOk : Nat := 0
def stBusy : Nat := 1
def stBadOpcode : Nat := 2
def stBadAddress : Nat := 3
def stBadLength : Nat := 4
def stBadArgument : Nat := 5
def stIgnored : Nat := 6
def stMemError : Nat := 7
def stQueueError : Nat := 8
def stLogGap : Nat := 9

/-- An entry in progress ends: its completion is written and its place given back. -/
def State.entryDone (s : State) (q ix tag status result : Nat) : State :=
  let p := s.pair q
  let rec_ := leBytes 4 tag ++ leBytes 4 (status * 2 ^ 24 + ix % 2 ^ 16 * 2 ^ 8 + bnat p.phase) ++ leBytes 8 result
  let s := (s.writeHbm hostReader (p.cqBase + 16 * p.cqTail) rec_).s
  let t := (p.cqTail + 1) % 2 ^ p.cqExp
  (s.setPair q { p with
      cqTail := t, phase := if t = 0 then !p.phase else p.phase, busy := p.busy.filter (fun e => e.1 != ix) }).bump Reg.QMGR_SUBMISSIONS

def entOp (e : List Word) : Nat := fieldOf ((e.getD 0 0).toNat) 31 24
def entWord (e : List Word) (i : Nat) : Nat := (e.getD i 0).toNat
def entTag (e : List Word) : Nat := entWord e 1
def entSrc (e : List Word) : Nat := entWord e 2 + 2 ^ 32 * entWord e 3
def entDst (e : List Word) : Nat := entWord e 4 + 2 ^ 32 * entWord e 5
def entLen (e : List Word) : Nat := entWord e 6 + 2 ^ 32 * (entWord e 7 % 2 ^ 16)
def entPattern (e : List Word) : Nat := entWord e 8 + 2 ^ 32 * entWord e 9
def entFence (e : List Word) : Bool := bitOf (entWord e 0) 16 || entOp e == 5

/-- A chiplet's engine reads memory (R399, R404). -/
def State.engineRead (s : State) (space off n : Nat) : Got := (s.nocServe false space off n).readMem hostReader space off n

def entReserved (e : List Word) : Bool :=
  entWord e 0 &&& 0x00FEFFFF != 0 || entWord e 7 / 2 ^ 16 != 0 || (List.range 6).any (fun i => entWord e (10 + i) != 0)

/-- The addresses an operation uses: SRC, DST. -/
def entAddrs (e : List Word) : List Nat :=
  match entOp e with
  | 1 => [entSrc e, entDst e]
  | 2 => [entDst e]
  | 3 => [entSrc e]
  | 4 => [entSrc e]
  | _ => []

/-- Completions the ring has room for. -/
def QueuePair.room (p : QueuePair) : Nat := (p.cqHead + 2 * 2 ^ p.cqExp - p.cqTail - 1) % 2 ^ p.cqExp

def QueuePair.mayStart (p : QueuePair) : Bool :=
  p.enable && p.sqHead != p.sqTail && decide (p.busy.length < 8) && decide (p.busy.length < p.room)

/-- The next entry of a queue waits as a fence until the entries before it have completed. -/
def State.fenceWaits (s : State) (p : QueuePair) : Bool :=
  !p.busy.isEmpty && entFence (cmdWords (bytesAt s.mem.cells (p.sqBase + 64 * p.sqHead) 64))

/-- A queue whose next entry may start now. -/
def State.canStart (s : State) (p : QueuePair) : Bool := p.mayStart && !s.fenceWaits p

/-- Places from one queue to another in the round of 4,096. -/
def turnsTo (last q : Nat) : Nat := (q + 4096 - (last + 1) % 4096) % 4096

/-- It is this queue's turn among those that wait for its chiplet's engine: even queues for P0, odd ones for P1 (R399). -/
def State.hasTurn (s : State) (q : Nat) : Bool :=
  let last := tget 4095 s.ctl.turns (q % 2)
  !s.ctl.queues.any (fun x => x.1 % 2 == q % 2 && s.canStart x.2 && decide (turnsTo last x.1 < turnsTo last q))

def State.takeTurn (s : State) (q : Nat) : State := { s with ctl := { s.ctl with turns := tput s.ctl.turns (q % 2) q } }

/-- SUBMISSION_START: the next entry is read, and is in progress or complete with the reason it is not executed. A
fence holds it until every earlier entry has completed; the queues of an engine take turns. -/
def State.submissionStart (s : State) (q : Nat) : State :=
  let p := s.pair q
  if !s.canStart p || !s.hasTurn q then s
  else
    let s := s.takeTurn q
    let g := s.engineRead 0 (p.sqBase + 64 * p.sqHead) 64
    let e := cmdWords g.data
    let next := { p with sqHead := (p.sqHead + 1) % 2 ^ p.sqExp }
    let ends := fun (tag status : Nat) => (g.s.setPair q next).entryDone q p.sqHead tag status 0
    if g.bad.isSome then
      let d := g.s.draw
      (d.2.setPair q next).entryDone q p.sqHead (Config.freeWord d.1).toNat stMemError 0
    else if 5 < entOp e then ends (entTag e) stBadOpcode
    else if entReserved e || (entAddrs e).any (fun a => zEndpoint a != s.moduleNum || decide (1 < zSpace a)) then ends (entTag e) stBadArgument
    else g.s.setPair q { next with busy := p.busy ++ [(p.sqHead, e)] }

def execSubmissionStart (q : Fin 4096) (s : State) : Result := done (s.submissionStart q)

/-- The entry in progress at an index, if its operation is the one named. -/
def State.entry (s : State) (q ix op : Nat) : Option (List Word) :=
  match (s.pair q).busy.find? (fun e => e.1 == ix) with
  | some e => if entOp e.2 = op then some e.2 else none
  | none => none

/-- A write by a queue pair or a control message of mapped bytes, or of one window: an intake window takes it, a command
window refuses it (R519). -/
def State.hostStore (s : State) (space off : Nat) (bs : List Byte) : Put :=
  match if space = 0 then windowAt off else none with
  | some (.intake st slot o) => ⟨s.intakeRun st (slot * 2 ^ 28 + o) bs, bs.length, none⟩
  | some (.upd st o) => ⟨s.windowWrite clsUpd st .other o bs, 0, none⟩
  | some (.sep st o) => ⟨s.windowWrite clsSep st .other o bs, 0, none⟩
  | none => s.writeMem hostReader space off bs

/-- Where a run of bytes of a write lies: memory, an intake window, a command window, or nothing mapped. -/
inductive Goes where
  | memory
  | intake
  | command
  | nowhere
deriving DecidableEq, Repr

def State.goes (s : State) (space off n : Nat) : Goes :=
  match if space = 0 then windowAt off else none with
  | some (.intake _ slot o) => if slot < 16 ∧ o + n ≤ 2 ^ 28 then .intake else .nowhere
  | some (.upd _ o) => if o + n ≤ 64 then .command else .nowhere
  | some (.sep _ o) => if o + n ≤ 64 then .command else .nowhere
  | none => if s.mapped space off n then .memory else .nowhere

/-- SQ_NOP. -/
def State.sqNop (s : State) (q ix : Nat) : State :=
  match s.entry q ix 0 with
  | some e => s.entryDone q ix (entTag e) stOk 0
  | none => s

def execSqNop (q : Fin 4096) (index : Nat) (s : State) : Result := done (s.sqNop q index)

/-- FENCE: it started after every earlier entry of its queue had completed. -/
def State.sqFence (s : State) (q ix : Nat) : State :=
  match s.entry q ix 5 with
  | some e => s.entryDone q ix (entTag e) stOk 0
  | none => s

def execSqFence (q : Fin 4096) (index : Nat) (s : State) : Result := done (s.sqFence q index)

/-- The bytes an entry writes at its destination, once they are at hand; `bad` when not every byte could be read. -/
def State.entryStore (s : State) (q ix : Nat) (e : List Word) (bs : List Byte) (bad : Bool) : State :=
  match s.goes (zSpace (entDst e)) (zOff (entDst e)) (entLen e) with
  | .nowhere => s.entryDone q ix (entTag e) stBadAddress 0
  | .command => (s.hostStore (zSpace (entDst e)) (zOff (entDst e)) bs).s.entryDone q ix (entTag e) stBadArgument 0
  | _ =>
    let p := s.hostStore (zSpace (entDst e)) (zOff (entDst e)) bs
    p.s.entryDone q ix (entTag e) (if bad || p.bad.isSome then stMemError else stOk) p.done

/-- COPY. -/
def State.sqCopy (s : State) (q ix : Nat) : State :=
  match s.entry q ix 1 with
  | none => s
  | some e =>
    let n := entLen e
    if zSpace (entSrc e) = zSpace (entDst e) ∧ overlap (entSrc e) n (entDst e) n then s.entryDone q ix (entTag e) stBadArgument 0
    else if n = 0 then s.entryDone q ix (entTag e) stOk 0
    else if !s.mapped (zSpace (entSrc e)) (zOff (entSrc e)) n ∨ s.goes (zSpace (entDst e)) (zOff (entDst e)) n = .nowhere then
      s.entryDone q ix (entTag e) stBadAddress 0
    else
      let g := s.engineRead (zSpace (entSrc e)) (zOff (entSrc e)) n
      g.s.entryStore q ix e g.data g.bad.isSome

def execCopy (q : Fin 4096) (index : Nat) (s : State) : Result := done (s.sqCopy q index)

/-- FILL. -/
def State.sqFill (s : State) (q ix : Nat) : State :=
  match s.entry q ix 2 with
  | none => s
  | some e =>
    let n := entLen e
    if n % 8 ≠ 0 then s.entryDone q ix (entTag e) stBadArgument 0
    else if n = 0 then s.entryDone q ix (entTag e) stOk 0
    else s.entryStore q ix e ((List.range (n / 8)).flatMap (fun _ => leBytes 8 (entPattern e))) false

def execFill (q : Fin 4096) (index : Nat) (s : State) : Result := done (s.sqFill q index)

/-- DIGEST. -/
def State.sqDigest (s : State) (q ix : Nat) : State :=
  match s.entry q ix 3 with
  | none => s
  | some e =>
    let n := entLen e
    if n = 0 then s.entryDone q ix (entTag e) stOk (crc64 [])
    else if !s.mapped (zSpace (entSrc e)) (zOff (entSrc e)) n then s.entryDone q ix (entTag e) stBadAddress 0
    else
      let g := s.engineRead (zSpace (entSrc e)) (zOff (entSrc e)) n
      if g.bad.isSome then g.s.entryDone q ix (entTag e) stMemError 0
      else g.s.entryDone q ix (entTag e) stOk (crc64 g.data)

def execDigest (q : Fin 4096) (index : Nat) (s : State) : Result := done (s.sqDigest q index)

end Sys2Proof.Machine
end

