-- ==== Sys2Proof/Machine/Load.lean ====
section
/-!
DEFINITION. PLAN_LOAD (R492 to R496): the image read, checked and relocated, and what acceptance does. Readings: log
entry 36.
-/

namespace Sys2Proof.Machine

/-! ### Acceptance (R496) -/

/-- The code a code map gives a unit of a stack. -/
def mapCode (map : Tab Word) (stack unit : Nat) : Option Nat :=
  (List.range 64).findSome? (fun i =>
    let w := (tget 0 map (64 * stack + i)).toNat
    if bitOf w 31 && decide (fieldOf w 11 0 ≤ unit) && decide (unit ≤ fieldOf w 23 12) then some (fieldOf w 25 24) else none)

/-- Units of a stack that keep their contents: in a valid region before and after, under one code (R266). -/
def State.keepsUnit (s : State) (map : Tab Word) (stack unit : Nat) : Bool :=
  match s.codeOfUnit stack unit, mapCode map stack unit with
  | some a, some b => a == b
  | _, _ => false

/-- Units that gain a new code, or that were in no valid region. -/
def State.newUnits (s : State) (map : Tab Word) : List Nat :=
  (List.range 12).flatMap (fun st => ((List.range 3072).filter (fun u =>
    (mapCode map st u).isSome && !s.keepsUnit map st u)).map (fun u => 4096 * st + u))

/-- Space-0 offset of a unit. -/
def unitOff (k : Nat) : Nat := k / 4096 * stackBytes + k % 4096 * unit16

/-- Units written as zero with valid check bits; no line of them stays cached. -/
def State.zeroUnits (s : State) (us : List Nat) : State :=
  let inside := fun (off : Nat) => match stackOf off with
    | some (st, o) => us.contains (4096 * st + o / unit16)
    | none => false
  let clean := fun (c : Cache) => { c with
    lines := c.lines.filter (fun l => !inside (128 * l)), fresh := c.fresh.filter (fun l => !inside (128 * l)),
    errs := c.errs.filter (fun e => !inside (128 * e.1)) }
  { s with mem := { s.mem with
      cells := s.mem.cells.filter (fun c => !(decide (c.1 < 2 ^ 48) && inside c.1)),
      errs := s.mem.errs.filter (fun e => !inside (64 * e.1)),
      recoded := s.mem.recoded.filter (fun r => !us.contains r.1),
      cache := s.mem.cache.map (fun c => (c.1, clean c.2)) } }

/-- Step 1: page 2 of every stack. -/
def State.writeCodeMap (s : State) (map : Tab Word) : State :=
  let t := map.foldl (fun t e => t.setReg (Reg.HBM_CODE_REGION (e.1 / 64) (e.1 % 64)) e.2.toNat) s
  (List.range 12).foldl (fun u st => u.recode st (s.codeOfUnit st)) t

/-- A region of a stack whose every unit is kept. -/
def State.keepsRegion (s : State) (map : Tab Word) (r : Region) : Bool :=
  match stackOf (zOff r.base.toNat) with
  | none => false
  | some (st, o) =>
    (List.range ((o + r.size - 1) / unit16 + 1 - o / unit16)).all (fun i => s.keepsUnit map st (o / unit16 + i))

/-- One journal entry: words 9 to 13 from the shard table, words 0 to 8 kept or zero (R303). -/
def State.loadJournal (s : State) (r : ShardRec) (keep : Bool) : State :=
  match s.journal r.stack r.shard with
  | none => s
  | some a =>
    let c : Coded := if keep then s.readBlockBy State.oweBad (a / 64) else ⟨s, [], []⟩
    let old := if keep then patch c.wrong a (bytesAt s.mem.cells a 64) else List.replicate 64 0
    if c.bad.isEmpty then c.s.writeBlock a (old.take 36 ++ r.words.flatMap (fun w => leBytes 4 w.toNat) ++ old.drop 56)
    else c.s

/-- An interrupted command that cannot be completed, its undo contents lost (R303). -/
def State.loseInterrupted (s : State) (r : ShardRec) (undoKept : Bool) : State :=
  let st := s.shardState r.stack r.shard
  let open_ := (decide (1 ≤ st) && decide (st ≤ 5)) || decide (fieldOf (s.journalWord r.stack r.shard 0) 24 22 ≠ 0)
  if open_ && !undoKept then
    ((s.inconsistent r.stack r.shard).setJournal r.stack r.shard 0 24 22 0).event clsUpd r.stack evState 0
  else s

/-- A Separator command that a kept journal shows in progress ends there (R158): its batch is restored from the stack's
UNDO region, and it counts as truncated. -/
def State.endTruncated (s : State) (r : ShardRec) : State :=
  if fieldOf (s.journalWord r.stack r.shard 0) 24 22 = 0 then s
  else
    let t := s.endBatch r.stack r.shard
    if (s.upd r.stack).sepOwed = some r.shard then t else (t.bump (Reg.SEP_COMMANDS r.stack)).bump (Reg.SEP_TRUNCATED r.stack)

/-- Step 2. `keeps` says of a region of the new plan that it kept its contents. -/
def State.loadJournals (s : State) (p : Plan) (keeps : Region → Bool) : State :=
  let undoKept := fun (st : Nat) => (p.regionsIn st 12).all keeps
  let s := p.shards.foldl (fun t r =>
    let keep := ((p.regionsIn r.stack 11).head?).any keeps
    ((t.loadJournal r keep).loseInterrupted r (undoKept r.stack)).endTruncated r) s
  (List.range 12).foldl (fun t i =>
    t.setUpd i { t.upd i with undo := if undoKept i then (t.upd i).undo else none, sepUndo := none, sepOwed := none,
                              holding := if undoKept i then (t.upd i).holding else [] }) s

/-- Step 3: the limits, the shape registers and the hyperparameter registers. -/
def State.loadLimits (s : State) (p : Plan) : State :=
  let s := allCores.foldl (fun t c =>
    (t.setReg (Reg.CORE_LOW_ESCAPE_LIMIT c) p.lowEscape.toNat).setReg (Reg.CORE_META_DROP_LIMIT c) p.metaDrop.toNat) s
  let s := p.shapeMax.zipIdx.foldl (fun t x =>
    ((t.setReg (Reg.PHASE_SHAPE_MAX (x.2 + 1)) x.1).setReg (Reg.PHASE_SHAPE_NEXT (x.2 + 1)) x.1).setReg
      (Reg.PHASE_SHAPE_ACTIVE (x.2 + 1)) x.1) s
  p.hpInit.zipIdx.foldl (fun t x => (t.setReg (Reg.UPD_HP_NEXT x.2) x.1.toNat).setReg (Reg.UPD_HP_ACTIVE x.2) x.1.toNat) s

/-- Step 5: a run of PRELOAD; a scratchpad run with FAR = 0 goes to every core. -/
def State.preload (s : State) (r : Preload) : State :=
  let a := r.addr.toNat
  if r.space = 0 then
    (if bitOf a 26 then [fieldOf a 25 20] else allCores).foldl (fun t c => t.writeScratch c (spOff a) (r.data.map (fun b => (b, true)))) s
  else if r.space = 1 then (s.writeHbm hostReader (zOff a) r.data).s
  else (s.writeLp (zOff a) r.data).s

/-- The cores of a plan before its run: every token and signal clear, each core in its herd (R42). -/
def Plan.freshCores (p : Plan) : Tab Core :=
  tabOf ((List.range 64).filterMap (fun c =>
    let h := p.herds.getD c 0
    if h = 0 then none else some (c, { Core.reset with herd := h })))

/-- The plan takes the place of the one before; its sequencers, tokens, herds and accumulation lines begin anew. A snapshot
asked for or under way stays so (R318). -/
def State.takePlan (s : State) (p : Plan) : State :=
  let r := { RunState.reset with plan := some p, run := s.run.run, stopped := s.run.stopped, nextReq := s.run.nextReq, nextSeg := s.run.nextSeg }
  { s with
    run := { r with shapeArmed := s.run.shapeArmed, hpArmed := s.run.hpArmed, snapId := s.run.snapId, snap := s.run.snap,
                    copyBusy := s.run.copyBusy, cores := p.freshCores }
    fab := { s.fab with redLines := [], redState := [] } }

/-- Step 6: joins, and this module's digests to the peers that have joined (R500). -/
def State.meetPeers (s : State) (p : Plan) : State :=
  (p.peers.foldl (fun t n => if t.reachable n false then t.sendDigests n else t) s).joinPeers

/-- Acceptance, in the order of R496; the rule tables are the plan's own. -/
def State.accept (s : State) (p : Plan) : State :=
  let keeps := s.keepsRegion p.codeMap
  let us := s.newUnits p.codeMap
  let s := ((s.writeCodeMap p.codeMap).zeroUnits us).takePlan p
  let s := ((s.loadJournals p keeps).loadLimits p).setReg Reg.PHASE_STEP_COUNT 0
  (p.preload.foldl (fun t r => t.preload r) s).meetPeers p

/-! ### PLAN_LOAD -/

/-- Host commands queued in UPD and SEP page 2, or in progress: they end before a load starts (R492). -/
def State.hostCommands (s : State) : Bool :=
  s.seps.any (fun u => u.2.cur.isSome || !u.2.queue.isEmpty) || s.upds.any (fun u => u.2.cur.isSome || !u.2.queue.isEmpty)

/-- A PLAN_LOAD is in progress in some queue (R492). -/
def State.loading (s : State) : Bool := s.ctl.queues.any (fun q => q.2.busy.any (fun e => entOp e.2 == 4))

/-- A plan runs, a restore runs, or the module is not locked. -/
def State.loadBusy (s : State) : Bool := s.planRuns || s.power.restore.isSome || !s.clock.locked

/-- Steps 1 to 3 of R493 on an image as read: the first refusal, or the plan. -/
def State.judge (s : State) (img : List Byte) : Refuse ⊕ Plan :=
  match imageCheck img with
  | some r => .inl r
  | none =>
    let x := relocate img (sectionsOf img)
    match x.2 with
    | some r => .inl r
    | none =>
      let p := planOf img x.1
      match Loading.check ⟨s, img, x.1, p⟩ with
      | some r => .inl r
      | none => .inr p

def State.planLoad (s : State) (q ix : Nat) : State :=
  match s.entry q ix 4 with
  | none => s
  | some e =>
    let ends := fun (t : State) (status result : Nat) => t.entryDone q ix (entTag e) status result
    if s.loadBusy then ends s stBusy 0
    else if s.hostCommands then s
    else if !s.mapped (zSpace (entSrc e)) (zOff (entSrc e)) (entLen e) then ends s stBadAddress 0
    else
      let g := s.engineRead (zSpace (entSrc e)) (zOff (entSrc e)) (entLen e)
      if g.bad.isSome then ends g.s stMemError 0
      else match g.s.judge g.data with
        | .inl r => ends g.s stBadArgument r.result
        | .inr p => ends (g.s.accept p) stOk 0

/-- PLAN_LOAD: a load that finds host commands in progress waits for them. -/
def execPlanLoad (q : Fin 4096) (index : Nat) (s : State) : Result := done (s.planLoad q index)

end Sys2Proof.Machine
end

