-- ==== Sys2Proof/Machine/RunControl.lean ====
section
/-!
DEFINITION. Starting, ending, aborting and retrying a plan (R52, R57), the choice of a variant (R53, R367, R369, R370),
the latches of R212 and R298. Commands: RUN_START, RUN_END, ABORT, RETRY_ARM, VARIANT_REQUEST, SHAPE_ARM, HP_ARM.
Readings: log entry 37.
-/

namespace Sys2Proof.Machine

/-! ### Latches -/

/-- SHAPE_ACTIVE takes SHAPE_NEXT when armed (R212). -/
def State.latchShapes (s : State) : State :=
  if s.run.shapeArmed then
    let s := ((List.range 15).map (· + 1)).foldl (fun t v =>
      t.setReg (Reg.PHASE_SHAPE_ACTIVE v) (t.reg (Reg.PHASE_SHAPE_NEXT v) % 2 ^ 24)) s
    ({ s with run := { s.run with shapeArmed := false } }).bump Reg.PHASE_SHAPE_LATCHES
  else s

/-- HP_ACTIVE takes HP_NEXT when armed (R298). -/
def State.latchHp (s : State) : State :=
  if s.run.hpArmed then
    let s := (List.range 16).foldl (fun t i => t.setReg (Reg.UPD_HP_ACTIVE i) (t.reg (Reg.UPD_HP_NEXT i))) s
    ({ s with run := { s.run with hpArmed := false } }).bump Reg.UPD_HP_LATCHES
  else s

def State.armShapes (s : State) (on : Bool) : State := { s with run := { s.run with shapeArmed := on } }

def execShapeArm (s : State) : Result := done (s.armShapes true)

def State.armHp (s : State) (on : Bool) : State := { s with run := { s.run with hpArmed := on } }

def execHpArm (s : State) : Result := done (s.armHp true)

/-! ### Variants (R53) -/

/-- Every port of a plane is in service. -/
def State.planePorts (s : State) (plane : Nat) : Bool := (List.range 4).all (fun i => s.portLive (4 * plane + i))

/-- A plane returns only by a host request for a variant that uses it, with every port of it up (R370). -/
def State.regainPlanes (s : State) (p : Plan) : State :=
  match s.run.request.bind p.variant with
  | none => s
  | some v => [0, 1].foldl (fun t pl =>
      if bitOf v.planes pl && t.planeOut pl && t.planePorts pl then
        ({ t with fab := { t.fab with planeLost := tdel t.fab.planeLost pl } }).event clsFabric pl evLink 0
      else t) s

/-- The choice takes effect, or none exists. The fault's address is the variant requested; without a request the manual
gives it no value. -/
def State.takeVariant (s : State) (c : Choice) (before : Option Nat) : State :=
  let req := s.run.request
  let s := { s with run := { s.run with request := none } }
  let s := if c.refused then s.event clsPhase 0 evRefused Reg.PHASE_VARIANT_REQUEST else s
  match c.variant with
  | some v => { s with run := { s.run with variant := v, rung := c.rung, before := before } }
  | none =>
    match req with
    | some v => s.raise { code := 0x0109, cls := clsPhase, inst := 0, addr := v }
    | none =>
      let d := s.draw
      d.2.raise { code := 0x0109, cls := clsPhase, inst := 0, addr := (Config.freeWord d.1).toNat }

def State.requestVariant (s : State) (v : Nat) : State := { s with run := { s.run with request := some (v % 16) } }

def execVariantRequest (v : Word) (s : State) : Result := done (s.requestVariant v.toNat)

/-! ### Start and retry -/

def State.stepBase (s : State) : Nat := s.reg64 Reg.PHASE_STEP_BASE_LO

/-- Every peer of the peer set has joined at ZX3 and sent this plan's digests (R500). -/
def State.peersReady (s : State) (p : Plan) : Bool :=
  p.peers.all (fun n => s.fab.peers.any (fun x => x.num == n && !x.host && !x.unreachable && x.gen == 3 && p.agrees x.digests))

/-- The conditions of R57, R413, R432, R451 and R500. -/
def State.mayStart (s : State) : Bool :=
  s.clock.locked && s.run.plan.any s.peersReady && decide (s.slot + 2 ≤ s.stepBase) && !s.safety.stop &&
    s.receiverReady && s.safety.parlourAlive && !s.power.coolant

/-- A step starts at a slot: tokens, signals and requests cleared, the latches, the reductions' steps, the variant; the
self-test, the first milk runs and the completion passes are due (R22, R37, R212, R298, R362, R365, R418). -/
def State.startStep (s : State) (p : Plan) (step slot : Nat) (retry : Bool) : State :=
  let r := { s.run with stopped := false, ending := false, step := step, stepStart := slot, cores := p.freshCores }
  let r := { r with reqs := [], milkDue := allCores, selftest := true, monitor := none, firstStep := true, capRun := 0 }
  let fetches := fun (q : RemoteReq) => match q.use with
    | .fetch _ _ => true
    | _ => false
  let s := { s with
    run := { r with herds := { s with run := r }.heldHerds }
    fab := { s.fab with remote := s.fab.remote.filter (fun q => !fetches q) } }
  let s := { s with mirrors := s.mirrors.map (fun (m : Mirror) => { m with completing := false }) }
  let s := (List.range 12).foldl (fun t i => if (t.upd i).pairs.isSome then t.setUpd i { t.upd i with pairs := none } else t) s
  let s := (s.latchShapes).latchHp.redStart step retry
  let s := { s with run := { s.run with complete := s.toComplete } }
  let s := s.regainPlanes p
  s.takeVariant (s.choose p step slot) none

/-- RUN_START. -/
def State.runStart (s : State) : State × Bool :=
  if s.run.run || s.run.ending then (s, true)
  else match s.run.plan with
    | none => (s.event clsPhase 0 evRefused Reg.PHASE_RUN_CONTROL, false)
    | some p =>
      if s.mayStart then
        let first := (p.rungAt 0).getD ((p.variants.head?.map (·.rung)).getD 0)
        let s := ({ s with run := { s.run with run := true, rung := first } }).setReg Reg.PHASE_STEP_COUNT 0
        (s.startStep p 0 s.stepBase false, true)
      else (s.event clsPhase 0 evRefused Reg.PHASE_RUN_CONTROL, false)

def execRunStart (s : State) : Result := done s.runStart.1

/-- RUN_END: a stopped plan is given up, a running one ends at its next boundary. -/
def State.runEnd (s : State) : State :=
  if s.run.stopped then { s with run := { s.run with run := false, stopped := false } }
  else if s.planRuns then { s with run := { s.run with ending := true } }
  else s

def execRunEnd (s : State) : Result := done s.runEnd

/-- ABORT, and whether a plan ran. -/
def State.abort (s : State) : State × Bool :=
  if s.planRuns then (s.raise { code := 0x010A, cls := clsPhase, inst := 0 }, true)
  else (s.event clsPhase 0 evRefused Reg.PHASE_RUN_CONTROL, false)

def execAbort (s : State) : Result := done s.abort.1

/-- RETRY_ARM (R52, R413): the high word of the slot is written, and the retry accepted or refused. -/
def State.retryArm (s : State) (hi : Nat) : State × Bool :=
  let s := s.setReg Reg.PHASE_RESUME_SLOT_HI hi
  let slot := s.reg64 Reg.PHASE_RESUME_SLOT_LO
  match s.run.plan with
  | some p =>
    if s.run.stopped && s.run.run && decide (s.slot + 2 ≤ slot) && !s.safety.stop then
      (s.startStep p (s.reg Reg.PHASE_RESUME_STEP) slot true, true)
    else (s.event clsPhase 0 evRefused Reg.PHASE_RESUME_SLOT_HI, false)
  | none => (s.event clsPhase 0 evRefused Reg.PHASE_RESUME_SLOT_HI, false)

def execRetryArm (hi : Word) (s : State) : Result := done (s.retryArm hi.toNat).1

end Sys2Proof.Machine
end

