-- ==== Sys2Proof/Machine/Twin.lean ====
section
/-!
DEFINITION. The comparison of twin shard digests (R26, R372, R373, R443) and the loss of the twin (R371). Commands:
TWIN_DIGESTS, DIGEST_WAIT_EXPIRY, TWIN_LOST.
-/

namespace Sys2Proof.Machine

/-! ### What this module holds for its twin (R444) -/

/-- A place's stored header that is complete: VALID, and of that shard. -/
def heldHeader (owner : Nat) (pl : Place) (h : List Byte) : Bool :=
  bitOf (wordIn h 10) 0 && wordIn h 0 == owner * 2 ^ 20 + pl.stack * 2 ^ 16 + pl.shard

/-- The newest complete generation of a shard held for the twin. -/
def State.newest (s : State) (owner : Nat) (pl : Place) : Option (List Byte) :=
  let at_ := fun (a : DWord) => bytesAt s.mem.cells (lpKey (zOff a.toNat)) 64
  [at_ pl.gen0, at_ pl.gen1].foldl (fun m h =>
    if heldHeader owner pl h then
      match m with
      | none => some h
      | some g => if dwordIn g 1 < dwordIn h 1 then some h else some g
    else m) none

/-- The record of Table 12.20 for a place. -/
def State.recordFor (s : State) (owner : Nat) (pl : Place) : DigestRecord :=
  match s.newest owner pl with
  | some h => ⟨owner, pl.stack, pl.shard, BitVec.ofNat 64 (dwordIn h 1), false, BitVec.ofNat 64 (dwordIn h 8)⟩
  | none => ⟨owner, pl.stack, pl.shard, 0, true, 0⟩

def recordWords (r : DigestRecord) : List Byte :=
  leBytes 4 (r.owner * 2 ^ 20 + r.stack * 2 ^ 16 + r.shard) ++ leBytes 8 r.epoch.toNat ++ leBytes 4 (bnat r.absent) ++
    leBytes 8 r.digest.toNat ++ leBytes 8 0

/-- A control message's header (Table 13.1). -/
def messageHeader (opcode count reqId arg0 arg1 : Nat) : List Byte :=
  leBytes 4 (opcode * 2 ^ 24 + count * 2 ^ 8) ++ leBytes 4 reqId ++ leBytes 4 arg0 ++ leBytes 4 arg1

/-- TWIN_DIGESTS messages of at most 255 records, on the Steward's queue, class 2. -/
def State.sendRecords (s : State) (twin step : Nat) : Nat → List DigestRecord → State
  | 0, _ => s
  | fuel + 1, rs =>
    if rs.isEmpty then s
    else
      let now := rs.take 255
      let d := s.draw
      let id := flowTo twin false (d.2.basePlane stewardQueue) 2 stewardQueue
      let msg := messageHeader 0x11 now.length (Config.freeWord d.1).toNat (step % 2 ^ 32) 0 ++ now.flatMap recordWords
      (d.2.sendRun id { d.2.header 8 2 stewardQueue twin false with last := true } msg).sendRecords twin step fuel (rs.drop 255)

/-- Shards of this module that the twin mirrors. -/
def Plan.mirrored (p : Plan) : List Place := p.places.filter (fun x => x.owner == p.moduleIndex)

/-- Shards that this module mirrors for its twin. -/
def Plan.heldPlaces (p : Plan) : List Place := p.places.filter (fun x => p.twinIndex == some x.owner)

/-- At a step boundary (R26, R313, R372, R373): the records go out; a shard with MIRROR_STALE set is skipped and counted;
the digest of every other committed shard is due, from the first boundary that still waits for it, but where it came before
this boundary. -/
def State.compareTwins (s : State) (p : Plan) (step : Nat) : State :=
  match s.twin with
  | none => s
  | some t =>
    if !s.bindMutual then s
    else
      let s := if s.reachable t false then s.sendRecords t step (p.heldPlaces.length + 1) (p.heldPlaces.map (s.recordFor t)) else s
      let stale := fun (u : State) (x : Place) => bitOf (u.journalWord x.stack x.shard 0) 30
      let s := p.mirrored.foldl (fun u x => if stale u x then u.bump (Reg.UPD_MIRROR_TIMEOUTS x.stack) else u) s
      let key := fun (x : Place) => 4096 * x.stack + x.shard
      let now := (p.mirrored.filter (fun x => !stale s x && s.shardState x.stack x.shard == 0)).map key
      let old := s.fab.digestDue.filter (fun d => now.contains d.1)
      let new := now.filter (fun k => !old.any (fun d => d.1 == k) && !s.fab.digestEarly.contains (k, step % 2 ^ 32))
      { s with fab := { s.fab with digestDue := old ++ new.map (fun k => (k, s.slot)), digestEarly := [] } }

/-! ### What the twin holds for this module -/

/-- A missing acknowledgement, in the sense of R313, for a committed shard. -/
def State.mirrorMissing (s : State) (st shard : Nat) : State :=
  ((s.setJournal st shard 0 30 30 1).bump (Reg.UPD_MIRROR_TIMEOUTS st)).event clsUpd st evTimeout (s.journalAddr st shard)

def State.digestSettled (s : State) (st shard : Nat) : State :=
  { s with fab := { s.fab with digestDue := s.fab.digestDue.filter (fun d => d.1 != 4096 * st + shard) } }

/-- MASTER_CRC of a journal entry. -/
def State.masterCrc (s : State) (st shard : Nat) : Nat := s.journalWord st shard 4 + 2 ^ 32 * s.journalWord st shard 5

/-- A mismatch: the dangerous failure of R26. -/
def State.digestMismatch (s : State) (st shard : Nat) : State :=
  s.raise { code := 0x0A05, cls := clsSafety, inst := 0, addr := s.journalAddr st shard } true

/-- One record compared with this module's journal. -/
def State.compareRecord (s : State) (r : DigestRecord) : State :=
  if r.owner ≠ s.moduleNum then s.event clsFabric 0 evDiscard 0
  else
    let s := s.digestSettled r.stack r.shard
    if s.shardState r.stack r.shard ≠ 0 ∨ bitOf (s.journalWord r.stack r.shard 0) 30 ∨ (s.journal r.stack r.shard).isNone then s
    else if r.absent then s.mirrorMissing r.stack r.shard
    else if r.epoch.toNat = s.epochOf r.stack r.shard then
      if r.digest.toNat = s.masterCrc r.stack r.shard then s
      else s.digestMismatch r.stack r.shard
    else if r.epoch.toNat + 1 = s.epochOf r.stack r.shard then s
    else s.digestMismatch r.stack r.shard

/-- The message comes from the bound twin, and the binding is mutual. -/
def State.fromTwin (s : State) (f : Session) : Bool :=
  !f.parlour && !f.srcHost && s.twin == some f.src && s.bindMutual

/-- Digests of the step in progress came before this module's boundary. -/
def State.earlyDigests (s : State) (step : Nat) (records : List DigestRecord) : State :=
  if step = s.run.step % 2 ^ 32 then
    { s with fab := { s.fab with digestEarly := s.fab.digestEarly ++ records.map (fun r => (4096 * r.stack + r.shard, step)) } }
  else s

def State.twinDigests (s : State) (step : Nat) (records : List DigestRecord) : State :=
  (records.foldl (fun t r => t.compareRecord r) s).earlyDigests step records

/-- DIGEST_WAIT_EXPIRY: 64 slots have passed since the boundary (R372). -/
def State.digestExpiry (s : State) (st shard : Nat) : State :=
  match s.fab.digestDue.find? (fun d => d.1 == 4096 * st + shard) with
  | some d => if d.2 + 64 ≤ s.slot then (s.digestSettled st shard).mirrorMissing st shard else s
  | none => s

def execDigestWaitExpiry (st : Fin 12) (shard : Fin 4096) (s : State) : Result := done (s.digestExpiry st shard)

/-- TWIN_LOST: no acknowledgement from the bound twin for TWIN_LOST slots; mirrors then time out (R371). -/
def State.twinLost (s : State) : State :=
  match s.twin with
  | none => s
  | some _ => if s.twinBound && !s.twinReachable then s.event clsFabric 0 evLink 0 else s

def execTwinLost (s : State) : Result := done s.twinLost

end Sys2Proof.Machine
end

