-- ==== Sys2Proof/Machine/Boundary.lean ====
section
/-!
DEFINITION. The step boundary (R19, R35, R36, R154) with the idle slots of R451 and R452 and the end of a plan (R57).
Command: STEP_BOUNDARY. Readings: log entry 38.
-/

namespace Sys2Proof.Machine

/-! ### Idle slots (R451, R452) -/

/-- n of R452, before its clamp: ceil(S (P − C) / (C − P_idle)). With C equal to P_idle the manual states no quotient. -/
def capQuot (s p c idle : Int) : Option Int :=
  if c = idle then none
  else if c < idle then some (-((s * (p - c)) / (idle - c)))
  else some (-((-(s * (p - c))) / (c - idle)))

def State.capWatts (s : State) : Nat := clampTo 500 2000 (fieldOf (s.reg Reg.POWER_CAP_CONFIG) 11 0)

def State.unmetSteps (s : State) : Nat := max 1 (fieldOf (s.reg Reg.POWER_CAP_CONFIG) 19 16)

/-- CAP_IDLE and CAP_UNMET at the boundary of a step of `slots` slots. -/
def State.capStep (s : State) (slots : Nat) : State :=
  let p := s.reg Reg.POWER_STEP_POWER % 4096
  let c := s.capWatts
  let d := s.draw
  let q := match capQuot slots p c (s.reg Reg.POWER_IDLE_POWER % 4096 : Nat) with
    | some q => (q, s)
    | none => (((Config.freeWord d.1).toNat % 33 : Nat), d.2)
  let n := (clampInt 0 32 q.1).toNat
  let s := q.2.setReg Reg.POWER_CAP_IDLE n
  let run := if c < p ∧ n = 32 then s.run.capRun + 1 else 0
  let unmet := decide (s.unmetSteps ≤ run)
  let s := s.passes s.power.capUnmet unmet
  { s with run := { s.run with capRun := run }, power := { s.power with capUnmet := unmet } }

/-! ### The barrier -/

def State.sepsIdle (s : State) : Bool := s.seps.all (fun u => u.2.cur.isNone && u.2.queue.isEmpty)

/-- Every core has reached its BOUNDARY entry, the boundary slot has begun, no Separator command is in progress or queued,
and no herd is stalled. -/
def State.atBarrier (s : State) (v : Variant) : Bool :=
  s.run.run && !s.run.stopped && allCores.all (fun c => (s.core c).atBoundary) && decide (s.run.stepStart + v.stepSlots ≤ s.slot + 1) &&
    s.sepsIdle && !s.power.hold && s.run.herds.all (fun h => !h.2.frozen)

/-- Nothing of an ended plan is left in progress (R57). -/
def State.allEnded (s : State) : Bool :=
  s.sepsIdle && s.upds.all (fun u => u.2.cur.isNone && u.2.queue.isEmpty) && s.mirrors.isEmpty && s.run.reqs.isEmpty

/-- A plan past its last boundary has ended: ENDING clears. -/
def State.settle (s : State) : State :=
  if s.run.ending && !s.run.run && s.allEnded then { s with run := { s.run with ending := false } } else s

/-- The actions of R19, and the latches of R212 and R298. -/
def State.boundaryActions (s : State) (p : Plan) (slots : Nat) : State :=
  let s := s.latchShapes.latchHp
  let s := s.takeSnapshot
  let s := s.compareTwins p s.run.step
  s.capStep slots

/-- The next step begins at its planned slot (R35); each core waits for it at its first entry. -/
def State.nextStep (s : State) (slots : Nat) : State :=
  let start := s.run.stepStart + slots + s.idleSlots
  let s := s.setReg Reg.PHASE_IDLE_INSERT 0
  let cores := s.run.cores.map (fun k => (k.1, { k.2 with entry := 0, atBoundary := false }))
  { s with run := { s.run with step := s.run.step + 1, stepStart := start, firstStep := false, cores := cores } }

/-- STEP_BOUNDARY. -/
def State.boundary (s : State) : State :=
  match s.run.plan with
  | none => s
  | some p =>
    match p.variant s.run.variant with
    | none => s
    | some v =>
      if !s.atBarrier v then s
      else if s.run.ending then
        let s := (s.boundaryActions p v.stepSlots).bump Reg.PHASE_STEP_COUNT
        let s := s.setReg Reg.PHASE_IDLE_INSERT 0
        if s.run.stopped then s
        else ({ s with run := { s.run with run := false, firstStep := false, monitor := none } }).settle
      else
        let s := s.regainPlanes p
        let c := s.choose p (s.run.step + 1) (s.run.stepStart + v.stepSlots - 1)
        let old := s.run.variant
        match c.variant with
        | none => s.takeVariant c (some old)
        | some _ =>
          let s := s.boundaryActions p v.stepSlots
          if s.run.stopped then s
          else
            let s := (s.takeVariant c (some old)).bump Reg.PHASE_STEP_COUNT
            (s.nextStep v.stepSlots).redBoundary s.run.variant (s.run.step + 1)

def execStepBoundary (s : State) : Result := done s.boundary

end Sys2Proof.Machine
end

