-- ==== Sys2Proof/Machine/Registers.lean ====
section
/-!
DEFINITION. What a read of a register returns (Table 00.4 and the register tables of every chapter): the stored word, or
for a register that shows the machine's own state, that state. Commands: READ_CLEAR_FIELD, PHASE_LO_READ. Readings: log
entry 39.
-/

namespace Sys2Proof.Machine

/-! ### In service (R387) -/

def State.inService (s : State) (cls inst : Nat) : Bool :=
  if cls = clsPower then s.power.parlour
  else if cls = clsHbm ∨ cls = clsUpd ∨ cls = clsSep then s.power.started && s.power.trained.contains inst
  else if cls = clsLpddr then s.power.started && s.power.tiers.contains inst
  else s.power.started

/-- Registers that Parlour itself holds, whatever the die's state: SAFETY page 2, and the staging of its own image. -/
def parlourReg (addr : Nat) : Bool :=
  let page := fieldOf addr 15 12
  let off := addr % 0x1000
  (fieldOf addr 31 24 == clsSafety && page == 2) ||
    (fieldOf addr 31 24 == clsBoot && (page == 3 || (page == 2 && decide (0x1C ≤ off) && decide (off ≤ 0x24))))

def State.regInService (s : State) (addr : Nat) : Bool :=
  if parlourReg addr then s.power.parlour else s.inService (fieldOf addr 31 24) (fieldOf addr 23 16)

/-! ### Page 0 -/

/-- Table 13.22. -/
def imageKind (cls : Nat) : Option Nat :=
  if cls = clsCore then some 2
  else if cls = clsHbm ∨ cls = clsUpd ∨ cls = clsSep then some 4
  else if cls = clsPort ∨ cls = clsFabric ∨ cls = clsLpddr then some 3
  else if cls = clsQmgr ∨ cls = clsPhase ∨ cls = clsCal ∨ cls = clsBoot then some 1
  else if cls = clsPower then some 5
  else none

/-- BUILD of the image a block runs, as booted at the last start (R517). -/
def State.buildOf (s : State) (cls : Nat) : Nat :=
  match imageKind cls with
  | none => 0
  | some k => (((s.images k).running).map (·.build)).getD 0

def State.viewPage0 (s : State) (cls inst off stored : Nat) : Nat :=
  match off with
  | 0x000 => cls * 2 ^ 24 + inst * 2 ^ 16 + 0x0064
  | 0x004 => 2 ^ 24 + s.buildOf cls
  | 0x00C => bnat (!s.power.die && cls != clsPower) * 2 + bnat (s.inService cls inst)
  | _ => stored

/-! ### CORE -/

/-- STATE of SEQ_STATUS (Table 02.11). A core at the barrier awaits a slot (1); one whose release tick has passed awaits
tokens (2), also where it is start-up work, a hold or an empty entry buffer that it waits for (log entry 53). -/
def State.seqState (s : State) (c : Nat) : Nat :=
  let k := s.core c
  if k.stopped then 6
  else if (s.herd k.herd).frozen then 4
  else match k.seg with
    | some g => if g.status = .reloading then 5 else 3
    | none =>
      if !s.planRuns then 0
      else match s.nextEntry c with
        | some (_, e) => if s.phaseNat < s.releaseTick e then 1 else 2
        | none => 1

/-- Bits 32i to 32i + 31 of a set of numbers. -/
def bitsFrom (i : Nat) (p : Nat → Bool) : Nat := ((List.range 32).map (fun j => bnat (p (32 * i + j)) * 2 ^ j)).foldl (· + ·) 0

def State.seg? (s : State) (c : Nat) : Option Seg := (s.core c).seg

def Seg.draining (g : Seg) : Bool := g.tiles.any (·.done)

def Seg.pointNow (g : Seg) : Option Pt := g.todo.head?

/-- ENGINE_STATUS (Table 04.10). TILES counts a row-unit pass in progress as a tile (log entry 53). -/
def engineStatus (g : Seg) : Nat :=
  min 1023 g.tiles.length * 2 ^ 16 + (if g.desc.kind = .scatter then 1 else if g.desc.kind = .outer then 2 else 0) * 2 ^ 12 +
    bnat g.desc.modes.windowed * 2 ^ 11 + g.activeSet % 2 * 2 ^ 10 + bnat g.shadow.isSome * 2 ^ 9 + bnat g.draining * 2 ^ 8

/-- SPARSE_STATUS of the active resident tile (Table 05.10); the resident operand of a linked peeled pass is dense (R178),
and a tile of BUDGET 0 is decoded in no metadata mode. -/
def sparseStatus (g : Seg) : Nat :=
  match g.active, g.pointNow with
  | some _, some p =>
    let budget := if p.peel then 0 else g.desc.modes.budget % 4
    let sparse := decide (budget ≠ 0)
    budget * 2 ^ 10 + bnat (sparse && g.desc.modes.unchecked) * 2 ^ 9 +
      bnat (!p.peel && decide (ceilDiv (g.desc.rowBytes p) 1280 = 2)) * 2 ^ 8 + (if sparse then g.desc.groups else 0)
  | _, _ => 0

/-- BWD_STATUS (Table 07.8). -/
def bwdStatus (g : Seg) : Nat :=
  g.desc.modes.rowStat % 8 * 2 ^ 7 + g.desc.modes.transpose % 4 * 2 ^ 5 + bnat g.desc.modes.gradStream * 2 ^ 4 +
    bnat (g.desc.kind == .outer && g.draining) * 2 ^ 3 + bnat (g.pointNow.any (·.peel)) * 4

/-- LOOP_STATUS (Table 08.9). -/
def loopStatus (g : Seg) : Nat :=
  min 1023 ((g.pointNow.map (·.tile)).getD 0) * 2 ^ 9 + bnat g.zeroShape * 2 ^ 8 + bnat (g.desc.kind == .row) * 2 ^ 7 +
    g.desc.modes.outRoute % 4 * 2 ^ 5 + g.desc.used.length % 8

/-- ENTRY of SEQ_STATUS: the running segment's entry, else the next to release; at the barrier, the BOUNDARY entry. -/
def Core.entryNow (k : Core) : Nat := (k.seg.bind (·.entry)).getD (if k.atBoundary then k.entry - 1 else k.entry)

/-- A value of the running segment, 0 when none runs. -/
def State.ofSeg (s : State) (c : Nat) (f : Seg → Nat) : Nat := ((s.seg? c).map f).getD 0

def State.viewCore (s : State) (c page off stored : Nat) : Nat :=
  let k := s.core c
  if page = 1 then
    if off = 0x000 then
      s.run.variant * 2 ^ 24 + k.herd * 2 ^ 20 + s.seqState c * 2 ^ 14 + k.entryNow % 2 ^ 14
    else if off = 0x004 then s.ofSeg c (fun g => ceilDiv (g.slipNow s.clock.now) 7 % 2 ^ 24)
    else if 0x020 ≤ off ∧ off < 0x040 then bitsFrom ((off - 0x020) / 4) k.complete
    else if off = 0x040 ∨ off = 0x044 then k.signals.toNat / 2 ^ (8 * (off - 0x040)) % 2 ^ 32
    else stored
  else if page = 2 ∧ off = 0 then s.ofSeg c engineStatus
  else if page = 4 ∧ off = 0 then s.ofSeg c sparseStatus
  else if page = 5 ∧ off = 0 then s.ofSeg c bwdStatus
  else if page = 6 ∧ off = 0 then s.ofSeg c loopStatus
  else if page = 6 ∧ 0x004 ≤ off ∧ off < 0x01C then s.ofSeg c (fun g => g.loops.getD ((off - 0x004) / 4) 0 % 2 ^ 24)
  else stored

/-! ### Memories and base dies -/

/-- HBM_STATUS (Table 10.13): code-region writing and self-refresh end before the registers can be read. -/
def State.hbmStatus (s : State) (st : Nat) : Nat :=
  let trained := s.power.trained.contains st
  bnat (s.power.hold || s.power.restarting) * 2 ^ 4 + bnat (s.churning st) * 2 ^ 3 + bnat (s.power.warm && !trained) * 2 + bnat trained

/-- HBM page 1: the status, and CHURN_LAG (R279). -/
def State.viewHbm (s : State) (st page off stored : Nat) : Nat :=
  if page = 1 ∧ off = 0x000 then s.hbmStatus st
  else if page = 1 ∧ off = 0x034 then s.churnLag st
  else stored

def State.lpddrStatus (s : State) (c : Nat) : Nat :=
  let trained := s.power.tiers.contains c
  bnat (tfind s.power.tierKeys c).isSome * 4 + bnat (s.power.warm && !trained) * 2 + bnat trained

/-- The shard an update engine is busy with, and the opcode; the completion segments of a DIRECTION shard are part of its
completion pass (R308). -/
def UpdUnit.busyWith (u : UpdUnit) : Option (Nat × Nat) :=
  match u.cur, u.pairs with
  | some r, _ => some (r.shard, if r.completing then 7 else updOp r.cmd)
  | none, some p => some (p.1, 7)
  | none, none => none

/-- UPD_STATUS (Table 11.10). -/
def State.updStatus (s : State) (st : Nat) : Nat :=
  let u := s.upd st
  min 16 u.queue.length * 2 ^ 8 + (match u.busyWith with
    | some b => b.1 * 2 ^ 20 + s.shardState st b.1 * 2 ^ 16 + b.2
    | none => 0)

/-- SEP_STATUS (Table 06.7). -/
def State.sepStatus (s : State) (st : Nat) : Nat :=
  let u := s.sep st
  (u.slots.map (fun x => 2 ^ (16 + x.1 % 16))).foldl (· + ·) 0 + min 16 u.queue.length * 2 ^ 8 +
    (u.cur.map (·.opcode)).getD 0 % 8

/-- The commands of a base die that have not ended: queued, running, and waiting for a mirror's acknowledgement (R292). -/
def State.commandsOf (s : State) (cls st : Nat) : List BaseCmd :=
  if cls = clsSep then (s.sep st).queue ++ ((s.sep st).cur.map (·.cmd)).toList
  else
    let u := s.upd st
    u.queue ++ (u.cur.map (·.cmd)).toList ++ (u.cur.map (·.upds)).getD [] ++
      (s.mirrors.filter (fun m => m.stack == st)).flatMap (·.upds)

/-- A host command is queued or running (Table 06.10). -/
def State.hostBusy (s : State) (cls st : Nat) : Bool := (s.commandsOf cls st).any (fun c => c.src == .host)

def State.viewUpd (s : State) (st page off stored : Nat) : Nat :=
  if page = 1 ∧ off = 0x000 then s.updStatus st
  else if page = 1 ∧ off = 0x008 then windowBase st % 2 ^ 32
  else if page = 1 ∧ off = 0x00C then windowBase st / 2 ^ 32
  else if page = 2 ∧ off = 0x044 then stored + bnat (s.hostBusy clsUpd st)
  else if page = 3 ∧ off = 0x000 then bnat s.run.hpArmed
  else stored

def State.viewSep (s : State) (st page off stored : Nat) : Nat :=
  if page = 1 ∧ off = 0x000 then s.sepStatus st
  else if page = 1 ∧ off = 0x008 then (windowBase st + 0x1000) % 2 ^ 32
  else if page = 1 ∧ off = 0x00C then windowBase st / 2 ^ 32
  else if page = 1 ∧ off = 0x010 then windowBase st % 2 ^ 32
  else if page = 1 ∧ off = 0x014 then (windowBase st + 2 ^ 32) / 2 ^ 32
  else if page = 2 ∧ off = 0x044 then stored + bnat (s.hostBusy clsSep st)
  else stored

/-! ### Ports and fabric -/

/-- PORT_STATUS (Table 12.11). -/
def State.portStatus (s : State) (p : Nat) : Nat :=
  let v := s.port p
  let speed := fieldOf (s.reg (Reg.PORT_PORT_CONFIG p)) 1 0
  (if v.linkUp then 2 ^ speed * 2 ^ 8 + speed else 0) + bnat v.macsecUp * 2 ^ 5 + bnat v.fecLock * 2 ^ 4 + bnat v.linkUp * 2 ^ 3 +
    (if 4 ≤ p then 4 else 0)

/-- A plane loss waits for a boundary: the variant that runs still uses the plane (R367). -/
def State.switchPending (s : State) (c : Nat) : Bool :=
  s.planRuns && s.planeOut c && ((s.run.plan.bind (fun p => p.variant s.run.variant)).any (fun v => bitOf v.planes c))

/-- FABRIC_STATUS (Table 12.14). -/
def State.fabricStatus (s : State) (c : Nat) : Nat :=
  let up := ((List.range 4).map (fun i => bnat (s.portLive (4 * c + i)) * 2 ^ (4 + i))).foldl (· + ·) 0
  (s.twin.getD 0) % 4096 * 2 ^ 12 + bnat s.twinReachable * 2 ^ 11 + bnat s.saturated * 2 ^ 10 +
    bnat (s.switchPending c) * 2 ^ 9 + bnat (s.power.die && !s.planeOut c) * 2 ^ 8 + up +
    bnat (s.clock.ptpValid.contains c) * 2 ^ 3

/-- Entries of the active variant's table that an engine sums. -/
def State.redEntries (s : State) (c : Nat) : Nat :=
  match s.run.plan with
  | none => 0
  | some p => (p.reductions.filter (fun e => e.1 / 4096 == s.run.variant && e.2.engine == c)).length

/-- Lines of an engine that hold a completed unit (R361). -/
def State.linesHeld (s : State) (c : Nat) : Nat :=
  (s.fab.redLines.filter (fun l => l.full && ((s.redEntry l.entry).map (·.engine)) == some c)).length

def State.viewFabric (s : State) (c page off stored : Nat) : Nat :=
  if page = 1 ∧ off = 0x000 then s.fabricStatus c
  else if page = 1 ∧ (off = 0x004 ∨ off = 0x048) then s.reg (regAddr clsFabric 0 1 off)
  else if page = 1 ∧ off = 0x020 then (s.fab.peers.filter (fun p => p.plane == c && !p.unreachable)).length % 2 ^ 13
  else if page = 2 ∧ off = 0x000 then s.linesHeld c * 2 ^ 16 + s.linesBusy c
  else if page = 2 ∧ off = 0x018 then s.redEntries c % 2 ^ 13
  else stored

/-! ### QMGR, PHASE -/

def State.viewQmgr (s : State) (page off stored : Nat) : Nat :=
  if page = 1 then
    match off with
    | 0x000 => (s.ctl.queues.filter (fun q => q.2.enable)).length % 2 ^ 13
    | 0x004 => s.attn
    | 0x008 => s.attnConditions
    | 0x010 => (s.ctl.log.head?.map (·.seq)).getD 0
    | 0x014 => s.ctl.nextSeq % 2 ^ 32
    | _ => stored
  else stored

/-- LOCK_STATUS (Table 02.5). -/
def State.lockStatus (s : State) : Nat :=
  min 255 s.clock.goodRun * 2 ^ 8 + bnat s.clock.everLocked * 4 + bnat s.clock.holdover * 2 + bnat s.clock.locked

/-- VARIANT_STATUS (Table 02.8): what R53 would choose at the coming boundary. -/
def State.variantStatus (s : State) : Nat :=
  match s.run.plan with
  | some p =>
    if s.run.run && !s.run.stopped && !s.run.ending then
      let slots := ((p.variant s.run.variant).map (·.stepSlots)).getD 0
      let c := (s.regainPlanes p).choose p (s.run.step + 1) (s.run.stepStart + slots - 1)
      let next := c.variant.getD s.run.variant
      let due := next != s.run.variant
      (if due then c.cause * 2 ^ 9 + 2 ^ 8 else 0) + next % 16 * 2 ^ 4 + s.run.variant % 16
    else s.run.variant % 16
  | none => s.run.variant % 16

/-- RUN_CONTROL (Table 02.9): from a write of 0 on RUN reads 0, and ENDING shows that the plan is ending (R57). -/
def State.runControl (s : State) : Nat :=
  bnat s.run.stopped * 2 ^ 8 + bnat s.run.ending * 4 + bnat (s.run.run && !s.run.ending)

def State.viewPhase (s : State) (page off stored : Nat) : Nat :=
  if page = 1 ∧ off = 0x000 then s.phaseNat % 2 ^ 32
  else if page = 1 ∧ off = 0x008 then s.lockStatus
  else if page = 2 ∧ off = 0x00C then s.variantStatus
  else if page = 2 ∧ off = 0x018 then s.runControl
  else if page = 3 ∧ off = 0x000 then bnat s.run.shapeArmed
  else stored

/-! ### SAFETY, POWER -/

def State.viewSafety (s : State) (page off stored : Nat) : Nat :=
  let f := s.safety
  if page = 1 then
    match off with
    | 0x000 => s.safetyStatus
    | 0x004 => f.detectSeq.toNat
    | 0x008 => f.firstCode.toNat % 2 ^ 16
    | 0x00C => f.firstPhase.toNat % 2 ^ 32
    | 0x010 => f.firstPhase.toNat / 2 ^ 32
    | 0x014 => f.suspectFrom.toNat % 2 ^ 32
    | 0x018 => f.suspectFrom.toNat / 2 ^ 32
    | 0x01C => f.suspectTo.toNat % 2 ^ 32
    | 0x020 => f.suspectTo.toNat / 2 ^ 32
    | _ => stored
  else if page = 2 ∧ off = 0x014 then
    (s.receivers.map (fun r => bnat (f.joined.contains r.2) * 2 ^ (4 + r.1) + bnat (f.ackedBy.contains r.2) * 2 ^ r.1)).foldl (· + ·) 0
  else stored

/-- POWER_STATUS (Table 15.8). -/
def State.powerStatus (s : State) : Nat :=
  let p := s.power
  s.startStage * 2 ^ 20 + s.moduleState * 2 ^ 16 + bnat p.capUnmet * 2 ^ 10 + bnat (s.reg Reg.POWER_CAP_IDLE % 64 != 0) * 2 ^ 9 +
    bnat p.coolant * 2 ^ 8 + bnat p.throttle * 2 ^ 7 + bnat p.overtemp * 2 ^ 6 + bnat (!p.droop.isEmpty) * 2 ^ 5 + bnat p.hold * 2 ^ 4 +
    bnat p.restore.isSome * 2 ^ 3 + bnat p.warm * 4 + bnat p.conversion * 2 + bnat p.inputOk

/-- RESTORE_STATUS (Table 15.11). -/
def State.restoreStatus (s : State) : Nat :=
  (s.power.restore.map (fun r => min 0xFFFF ((r.jobs.map (fun j => j.left.length)).foldl (· + ·) 0))).getD 0 * 2 ^ 16 +
    bnat s.power.restoreDone * 4 +
    bnat s.power.restoreFailed * 2 + bnat s.power.restore.isSome

def State.viewPower (s : State) (page off stored : Nat) : Nat :=
  if page = 1 ∧ off = 0x000 then s.powerStatus
  else if page = 1 ∧ off = 0x04C then s.power.resetCause
  else if page = 2 ∧ off = 0x008 then s.restoreStatus
  else stored

/-! ### CAL, BOOT, COPY -/

def State.viewCal (s : State) (page off stored : Nat) : Nat :=
  let id := s.reg Reg.CAL_CAL_SELECT % 2 ^ 16
  let show_ := fun (f : Int × Int × Int × Int × Int → Int) => ((Config.factoryCal id).map (fun x => unsignedOf 32 (f x))).getD 0
  if page = 1 then
    match off with
    | 0x000 => bnat (s.boot.inForce != s.boot.settings.offsets) * 2 ^ 17 + bnat s.boot.factoryOk * 2 ^ 16 + Config.factoryCount % 2 ^ 16
    | 0x008 => show_ (fun x => x.1)
    | 0x00C => show_ (fun x => x.2.1)
    | 0x010 => show_ (fun x => x.2.2.1)
    | 0x014 => show_ (fun x => x.2.2.2.1)
    | 0x018 => show_ (fun x => x.2.2.2.2)
    | 0x01C => show_ (fun _ => tget 0 s.boot.inForce id)
    | 0x020 => show_ (fun _ => s.calValue id)
    | _ => stored
  else if page = 2 ∧ off = 0x00C then s.boot.settings.offsets.length % 2 ^ 16
  else stored

/-- BOOT_STATUS (Table 16.9). -/
def State.bootStatus (s : State) : Nat :=
  s.boot.settings.format % 2 ^ 16 * 2 ^ 16 + bnat s.boot.migration * 2 ^ 4 + bnat s.boot.armed.isSome * 2 ^ 3 +
    bnat s.boot.staging.isSome * 4 + bnat s.boot.fallback * 2 + bnat Config.debugEnabled

/-- IMAGE_SLOTS (Table 16.10). -/
def State.imageSlots (s : State) : Nat :=
  (([1, 2, 3, 4, 5] : List Nat).map (fun k =>
    let x := s.images k
    (bnat x.staged * 8 + bnat x.fellBack * 4 + x.next % 2 * 2 + x.active % 2) * 2 ^ (4 * (k - 1)))).foldl (· + ·) 0

def BindState.code : BindState → Nat
  | .unbound => 0
  | .bound => 1
  | .awaiting => 2
  | .changed => 3

/-- BIND_STATUS (Table 16.11). -/
def State.bindStatus (s : State) : Nat :=
  s.boot.settings.bindGen % 256 * 2 ^ 24 + (s.twin.getD 0) % 4096 * 2 ^ 12 + s.boot.bind.code

def State.viewBoot (s : State) (page off stored : Nat) : Nat :=
  if page = 1 then
    if 0x040 ≤ off ∧ off < 0x080 then
      ((s.boot.settings.twin.map (fun t => wordIn (digestBytes t.2) ((off - 0x040) / 4))).getD 0)
    else match off with
    | 0x000 => s.bootStatus
    | 0x010 => s.imageSlots
    | 0x014 => s.power.bootCount.toNat
    | 0x018 => s.boot.svnFused
    | 0x020 => s.bindStatus
    | 0x024 => Config.serial.toNat % 2 ^ 32
    | 0x028 => Config.serial.toNat / 2 ^ 32
    | _ => stored
  else if page = 2 ∧ off = 0x010 then bnat s.boot.staging.isSome * 2 ^ 8 + s.boot.stageStatus % 8
  else if page = 2 ∧ off = 0x084 then
    ((List.range 4).map (fun i => bnat (tfind s.boot.settings.anchors i).isSome * 2 ^ i)).foldl (· + ·) 0
  else stored

def ReqWhat.kind : ReqWhat → Nat
  | .fetch e _ => e.kind
  | .tile _ _ => 0

/-- A request that reads and writes no external line: a local copy, a TRANSPOSE (Table 09.7). -/
def ReqWhat.within : ReqWhat → Bool
  | .fetch e _ => e.dir == 2
  | .tile _ _ => false

/-- COPY_STATUS (Table 09.11). -/
def State.copyStatus (s : State) (e : Nat) : Nat :=
  let queued := min 255 (s.run.reqs.filter (fun r => r.engine == e && !r.started)).length
  match s.run.reqs.find? (fun r => tfind s.run.copyBusy e == some r.id) with
  | some r => (if r.what.within then 0 else Config.linesOut e s.clock.now % 65) * 2 ^ 13 + queued * 2 ^ 5 + 2 ^ 4 + r.what.kind % 16
  | none => queued * 2 ^ 5

/-! ### Reads -/

/-- The value a register shows. -/
def State.view (s : State) (addr : Nat) : Nat :=
  let cls := fieldOf addr 31 24
  let inst := fieldOf addr 23 16
  let page := fieldOf addr 15 12
  let off := addr % 0x1000
  let stored := s.reg addr
  if page = 0 then s.viewPage0 cls inst off stored
  else match cls with
  | 1 => s.viewCore inst page off stored
  | 2 => if page = 1 ∧ off = 0 then (if s.power.started then Config.nocLinks inst % 16 else 0) else stored
  | 4 => s.viewHbm inst page off stored
  | 5 => s.viewUpd inst page off stored
  | 6 => s.viewSep inst page off stored
  | 7 => if page = 1 ∧ off = 0 then s.portStatus inst else stored
  | 8 => s.viewFabric inst page off stored
  | 9 => if page = 1 ∧ off = 0 then s.lpddrStatus inst else stored
  | 10 => s.viewQmgr page off stored
  | 11 => s.viewPhase page off stored
  | 12 => s.viewSafety page off stored
  | 13 => s.viewPower page off stored
  | 14 => s.viewCal page off stored
  | 15 => s.viewBoot page off stored
  | 16 => if page = 1 ∧ off = 0 then s.copyStatus inst else stored
  | _ => stored

/-- Bits of a register that are WO or reserved read as zero; a reserved offset reads as zero (Table 00.4, R12). -/
def readMask (addr : Nat) : Nat :=
  match rowOf addr with
  | some r => 2 ^ 32 - 1 - r.wo % 2 ^ 32
  | none => 0

/-- A word of an existing page (R401). -/
def regStands (addr : Nat) : Bool :=
  addr % 4 == 0 && (pageRows (fieldOf addr 31 24) (fieldOf addr 23 16) (fieldOf addr 15 12)).isSome

/-- A read of a register: its value, and what the read does. An RC field takes its reset value; a
read of PHASE_LO latches PHASE_HI. A block not in service reads as zero. -/
def State.readReg (s : State) (addr : Nat) : Nat × State :=
  if !regStands addr || !s.regInService addr then (0, s)
  else
    let v := s.view addr &&& readMask addr
    let rc := ((rowOf addr).map (·.rc)).getD 0
    if addr = Reg.PHASE_PHASE_LO then (v, s.setReg Reg.PHASE_PHASE_HI (s.phaseNat / 2 ^ 32))
    else if rc = 0 then (v, s)
    else (v, s.setReg addr (resetOf addr).toNat)

/-- READ_CLEAR_FIELD: a read of a register with an RC field. -/
def execReadClearField (addr : Word) (s : State) : Result := done (s.readReg addr.toNat).2

/-- PHASE_LO_READ. -/
def execPhaseLoRead (s : State) : Result := done (s.readReg Reg.PHASE_PHASE_LO).2

end Sys2Proof.Machine
end

