-- ==== Sys2Proof/Machine/Writes.lean ====
section
/-!
DEFINITION. Writes of registers: by access code (Table 00.4), or with a behaviour of their own. Every write answers
whether it is reported as IGNORED (R386). Commands: SEP_CMD_SUBMIT, UPD_CMD_SUBMIT, FLIP_MASK_ARM, EVENT_LATCH_CLEAR,
CLEAR_COUNTERS, MODULE_NUMBER_WRITE, CODE_REGION_WORD_WRITE, PORT_CONFIG_WRITE, PAIL_CONFIG_WRITE,
PLAIN_REGISTER_WRITE. Readings: log entry 39.
-/

namespace Sys2Proof.Machine

/-! ### By access code -/

/-- The new value of a register whose row is `r`, from its old value and the value written. -/
def RegRow.next (r : RegRow) (old v : Nat) : Nat :=
  let keep := old &&& (2 ^ 32 - 1 - r.rw % 2 ^ 32)
  ((keep ||| (v &&& r.rw)) ^^^ (keep &&& v &&& r.w1c)) % 2 ^ 32

/-- RW and W1C fields take the write; RO, WO and RC fields and reserved bits do not. An RWL register takes only the first
write after a reset. -/
def State.writePlain (s : State) (addr v : Nat) : State × Bool :=
  match rowOf addr with
  | none => (s, false)
  | some r =>
    if r.rwl ≠ 0 then
      if s.ctl.rwl.contains addr then (s, true)
      else (({ s with ctl := { s.ctl with rwl := addr :: s.ctl.rwl } }).setReg addr (v &&& r.rwl), false)
    else (s.setReg addr (r.next (s.reg addr) v), false)

/-- A write ignored under a rule of the block's chapter: the event of Table 13.6, and IGNORED. -/
def State.ignored (s : State) (addr : Nat) : State × Bool :=
  (s.event (fieldOf addr 31 24) (fieldOf addr 23 16) evRefused addr, true)

/-! ### Page 0 -/

/-- CONTROL.CLEAR_COUNTERS. -/
def State.clearCounters (s : State) (cls inst : Nat) : State :=
  (((s.setReg (Reg.COUNTER_0 cls inst) 0).setReg (Reg.COUNTER_1 cls inst) 0).setReg (Reg.COUNTER_2 cls inst) 0).setReg
    (Reg.COUNTER_3 cls inst) 0

def execClearCounters (b : Blk) (s : State) : Result :=
  done (if blkStands b && s.inService b.cls b.inst then s.clearCounters b.cls b.inst else s)

/-- A write of ones to EVENT_LATCH. -/
def State.clearLatch (s : State) (cls inst bits : Nat) : State :=
  let a := Reg.EVENT_LATCH cls inst
  s.setReg a (s.reg a ^^^ (s.reg a &&& bits &&& 0xFF))

def execEventLatchClear (b : Blk) (bits : Word) (s : State) : Result :=
  done (if blkStands b && s.inService b.cls b.inst then s.clearLatch b.cls b.inst bits.toNat else s)

/-- A write of PAIL_CONFIG: a THRESHOLD below the level lowers the level (R282). -/
def State.pailConfig (s : State) (cls inst v : Nat) : State :=
  let s := s.setReg (Reg.PAIL_CONFIG cls inst) (v &&& 0x1FFFFF)
  let l := s.reg (Reg.PAIL_LEVEL cls inst)
  let t := s.pailThreshold cls inst
  if t < fieldOf l 15 0 then s.setReg (Reg.PAIL_LEVEL cls inst) (setField l 15 0 t) else s

def execPailConfigWrite (b : Blk) (w : Word) (s : State) : Result :=
  done (if blkStands b && s.inService b.cls b.inst then s.pailConfig b.cls b.inst w.toNat else s)

/-- Classes that have a flip mask (R283). -/
def flipClass (cls : Nat) : Bool := cls == clsCore || cls == clsMsc || cls == clsHbm || cls == clsLpddr

/-- A write of FLIP_MASK_HI arms the mask; for HBM and LPDDR not while a plan runs (R284). -/
def State.armFlip (s : State) (cls inst hi : Nat) : State × Bool :=
  if !flipClass cls then (s, false)
  else if (cls == clsHbm || cls == clsLpddr) && s.planRuns then s.ignored (Reg.FLIP_MASK_HI cls inst)
  else
    let s := s.setReg (Reg.FLIP_MASK_HI cls inst) hi
    (s.setReg (flipSelect cls inst) (setField (s.reg (flipSelect cls inst)) 31 31 1), false)

def execFlipMaskArm (b : Blk) (hi : Word) (s : State) : Result :=
  done (if blkStands b && s.inService b.cls b.inst then (s.armFlip b.cls b.inst hi.toNat).1 else s)

/-! ### HBM page 2 (R287) -/

/-- A valid region word in itself: code not reserved, FIRST to LAST inside the stack. -/
def codeWordOk (w : Nat) : Bool :=
  fieldOf w 25 24 != 3 && (!bitOf w 31 || (decide (fieldOf w 11 0 ≤ fieldOf w 23 12) && decide (fieldOf w 23 12 ≤ 3071)))

/-- Two valid region words share a unit. -/
def codeWordsMeet (a b : Nat) : Bool :=
  bitOf a 31 && bitOf b 31 && decide (fieldOf a 11 0 ≤ fieldOf b 23 12) && decide (fieldOf b 11 0 ≤ fieldOf a 23 12)

def State.codeRegionWrite (s : State) (st i v : Nat) : State × Bool :=
  let a := Reg.HBM_CODE_REGION st i
  let w := v &&& 0x83FFFFFF
  let meets := (List.range 64).any (fun j => j != i && codeWordsMeet w (s.reg (Reg.HBM_CODE_REGION st j)))
  if s.planRuns || !codeWordOk w || meets then s.ignored a
  else ((s.setReg a w).recode st (s.codeOfUnit st), false)

def execCodeRegionWordWrite (st : Fin 12) (i : Fin 64) (w : Word) (s : State) : Result :=
  done (if s.inService clsHbm st then (s.codeRegionWrite st i w.toNat).1 else s)

/-! ### Base-die commands of the host (R165, R322) -/

/-- A write of 1 to CMD_SUBMIT: the command words queue as a host command, while no plan runs, none is being loaded (R492)
and the queue has room. -/
def State.cmdSubmit (s : State) (cls st : Nat) : State × Bool :=
  let sep := cls == clsSep
  let a := if sep then Reg.SEP_CMD_SUBMIT st else Reg.UPD_CMD_SUBMIT st
  let full := decide (16 ≤ (if sep then (s.sep st).queue else (s.upd st).queue).length)
  if s.planRuns || s.loading || full then s.ignored a
  else
    let word := fun (i : Nat) => BitVec.ofNat 32 (s.reg (if sep then Reg.SEP_CMD_WORD st i else Reg.UPD_CMD_WORD st i))
    let c : BaseCmd := ⟨(List.range 16).map word, .host⟩
    let s := (s.setReg (if sep then Reg.SEP_CMD_STATUS st else Reg.UPD_CMD_STATUS st) 0).setReg
      (if sep then Reg.SEP_CMD_FAULT_ADDR st else Reg.UPD_CMD_FAULT_ADDR st) 0
    if sep then (s.setSep st { s.sep st with queue := (s.sep st).queue ++ [c] }, false)
    else (s.setUpd st { s.upd st with queue := (s.upd st).queue ++ [c] }, false)

def execSepCmdSubmit (st : Fin 12) (s : State) : Result :=
  done (if s.inService clsSep st then (s.cmdSubmit clsSep st).1 else s)

def execUpdCmdSubmit (st : Fin 12) (s : State) : Result :=
  done (if s.inService clsUpd st then (s.cmdSubmit clsUpd st).1 else s)

/-! ### Ports, module number -/

/-- A write of PORT_CONFIG (R376). -/
def State.portConfig (s : State) (p v : Nat) : State × Bool :=
  let a := Reg.PORT_PORT_CONFIG p
  let now := fieldOf (s.reg a) 1 0
  let held := s.planRuns && fieldOf v 1 0 != now
  let speed := if s.planRuns then now else fieldOf v 1 0
  let s := s.setReg a (bnat (bitOf v 8) * 2 ^ 8 + speed)
  let s := if bitOf v 8 then s else s.portDown p
  if held then s.ignored a else (s, false)

def execPortConfigWrite (p : Fin 8) (w : Word) (s : State) : Result :=
  done (if s.inService clsPort p then (s.portConfig p w.toNat).1 else s)

/-- The first write of FABRIC[0].MODULE_NUMBER: Parlour keeps it (R438), and the bound twin may be joined. -/
def State.numberWrite (s : State) (v : Nat) : State × Bool :=
  if s.numbered then (s, true)
  else
    let s := s.setReg (Reg.FABRIC_MODULE_NUMBER 0) (2 ^ 12 + v % 4096)
    (({ s with power := { s.power with moduleNumber := some (v % 4096) } }).joinTwin, false)

def execModuleNumberWrite (v : Word) (s : State) : Result :=
  done (if s.inService clsFabric 0 then (s.numberWrite v.toNat).1 else s)

/-! ### The other registers with a behaviour of their own -/

/-- An action taken only when a bit of the value written is 1. -/
def whenBit (v i : Nat) (f : State → State × Bool) (x : State × Bool) : State × Bool :=
  if bitOf v i then
    let y := f x.1
    (y.1, x.2 || y.2)
  else x

def quiet (f : State → State) (s : State) : State × Bool := (f s, false)

/-- RUN_CONTROL: a write of 1 to ABORT acts alone. An ABORT without a plan running is ignored (R57). -/
def State.runControlWrite (s : State) (v : Nat) : State × Bool :=
  if bitOf v 1 then
    let r := s.abort
    (r.1, !r.2)
  else if bitOf v 0 then (s.runStart.1, false)
  else (s.runEnd, false)

/-- Registers of PHASE. -/
def State.writePhase (s : State) (addr v : Nat) : State × Bool :=
  if (addr = Reg.PHASE_STEP_BASE_LO ∨ addr = Reg.PHASE_STEP_BASE_HI) ∧ bitOf s.runControl 0 then s.ignored addr
  else if addr = Reg.PHASE_VARIANT_REQUEST then (s.requestVariant v, false)
  else if addr = Reg.PHASE_RUN_CONTROL then s.runControlWrite v
  else if addr = Reg.PHASE_RESUME_SLOT_HI then ((s.retryArm v).1, false)
  else if addr = Reg.PHASE_SHAPE_CONTROL then (s.armShapes (bitOf v 0), false)
  else s.writePlain addr v

/-- Registers of POWER, CAL and SAFETY. -/
def State.writeSystem (s : State) (addr v : Nat) : State × Bool :=
  if addr = Reg.SAFETY_SAFE_RELEASE then s.safeRelease (BitVec.ofNat 32 v)
  else if addr = Reg.SAFETY_STOP_REQUEST then whenBit v 0 (quiet State.stopRequest) (s, false)
  else if addr = Reg.POWER_RESTORE_CONTROL then
    whenBit v 1 (quiet State.restoreAbort) (whenBit v 0 (quiet (fun t => t.restoreStart (bitOf v 2))) (s, false))
  else if addr = Reg.CAL_USER_COMMAND then
    whenBit v 2 State.userClearAll (whenBit v 1 State.userClear (whenBit v 0 State.userSet (s, false)))
  else s.writePlain addr v

/-- Registers of BOOT; some are reached through Parlour's port only (R472, R479). -/
def State.writeBoot (s : State) (parlour : Bool) (addr v : Nat) : State × Bool :=
  if parlourReg addr && !parlour then s.ignored addr
  else if fieldOf addr 15 12 = 3 then (s.stageAppend [BitVec.ofNat 32 v], false)
  else if addr = Reg.BOOT_PARLOUR_COMMIT then whenBit v 0 (quiet State.parlourCommit) (s, false)
  else if addr = Reg.BOOT_PARLOUR_ACTIVATE then whenBit v 0 (quiet State.parlourActivate) (s, false)
  else if addr = Reg.BOOT_ACTIVATE_AT_PHASE_HI then (s.activateArm (BitVec.ofNat 32 v), false)
  else if addr = Reg.BOOT_ACTIVATE_CANCEL then whenBit v 0 (quiet State.activateCancel) (s, false)
  else if addr = Reg.BOOT_SVN_COMMIT then s.svnCommit (BitVec.ofNat 32 v)
  else if addr = Reg.BOOT_STAGE_COMMAND then whenBit v 8 (quiet (fun t => t.stageStart (v % 8))) (s, false)
  else if addr = Reg.BOOT_BIND_COMMAND then whenBit v 1 State.unbindCmd (whenBit v 0 State.bindCmd (s, false))
  else if addr = Reg.BOOT_ANCHOR_COMMAND then
    whenBit v 9 (fun t => t.anchorClear (v % 4)) (whenBit v 8 (fun t => t.anchorSet (v % 4)) (s, false))
  else s.writePlain addr v

/-- Page 0 of any block. -/
def State.writePage0 (s : State) (addr v : Nat) : State × Bool :=
  let cls := fieldOf addr 31 24
  let inst := fieldOf addr 23 16
  let off := addr % 0x1000
  if off = 0x008 then (if bitOf v 0 then s.clearCounters cls inst else s, false)
  else if off = 0x018 then (s.clearLatch cls inst v, false)
  else if off = 0x020 then (s.pailConfig cls inst v, false)
  else if off = 0x024 ∧ !flipClass cls then (s, false)
  else if off = 0x028 then s.armFlip cls inst v
  else s.writePlain addr v

/-- A write of one register, and whether it is reported as IGNORED. -/
def State.writeReg (s : State) (parlour : Bool) (addr v : Nat) : State × Bool :=
  let cls := fieldOf addr 31 24
  let inst := fieldOf addr 23 16
  let page := fieldOf addr 15 12
  let off := addr % 0x1000
  if !regStands addr then (s, false)
  else if !s.regInService addr then (s, true)
  else if page = 0 then s.writePage0 addr v
  else match cls with
  | 4 => if page = 2 ∧ off < 0x100 then s.codeRegionWrite inst (off / 4) v else s.writePlain addr v
  | 5 =>
    if page = 2 ∧ off = 0x040 then whenBit v 0 (fun t => t.cmdSubmit clsUpd inst) (s, false)
    else if addr = Reg.UPD_HP_CONTROL then (s.armHp (bitOf v 0), false)
    else if addr = Reg.UPD_SNAP_REQUEST then (s.snapRequest v, false)
    else s.writePlain addr v
  | 6 => if page = 2 ∧ off = 0x040 then whenBit v 0 (fun t => t.cmdSubmit clsSep inst) (s, false) else s.writePlain addr v
  | 7 => if page = 1 ∧ off = 0x004 then s.portConfig inst v else s.writePlain addr v
  | 8 =>
    if addr = Reg.FABRIC_MODULE_NUMBER 0 then s.numberWrite v
    else if inst = 1 ∧ page = 1 ∧ (off = 0x004 ∨ off = 0x048) then (s, false)
    else s.writePlain addr v
  | 10 => if addr = Reg.QMGR_ATTN_ACK then whenBit v 0 State.ackIdentity (s, false) else s.writePlain addr v
  | 11 => s.writePhase addr v
  | 12 => s.writeSystem addr v
  | 13 => s.writeSystem addr v
  | 14 => s.writeSystem addr v
  | 15 => s.writeBoot parlour addr v
  | _ => s.writePlain addr v

/-- PLAIN_REGISTER_WRITE: a write from a control session on an Ethernet port. -/
def execPlainRegisterWrite (addr v : Word) (s : State) : Result :=
  done (s.writeReg false addr.toNat v.toNat).1

end Sys2Proof.Machine
end

