-- ==== Sys2Proof/Machine/Control.lean ====
section
/-!
DEFINITION. Control messages and their replies (R379 to R387, R393, R464). Commands: NOP, REG_READ, REG_WRITE, REG_MODIFY,
MEM_READ, MEM_WRITE, DOORBELL_SUBMISSION_TAIL, DOORBELL_COMPLETION_HEAD, EVENT_FETCH, ATTEST, TWIN_DIGESTS. Readings: log
entry 40.
-/

namespace Sys2Proof.Machine

/-! ### Replies -/

/-- What a message did, and the fields of its reply. -/
structure Answer where
  s      : State
  status : Nat := 0
  count  : Nat := 0
  detail : Nat := 0
  data   : List Byte := []
deriving DecidableEq, Repr

/-- Table 13.3. -/
def replyBytes (f : Session) (opcode attn status retry count detail : Nat) (data : List Byte) : List Byte :=
  leBytes 4 (opcode * 2 ^ 24 + attn * 2 ^ 16 + status * 2 ^ 8 + 1) ++ leBytes 4 f.reqId.toNat ++
    leBytes 4 (retry * 2 ^ 16 + count) ++ leBytes 4 detail ++ data

/-- The one reply to a message (R382, R385): through Parlour, or in the control flow to the sender on the same QUEUE. -/
def State.sendReply (s : State) (f : Session) (opcode retry : Nat) (a : Answer) : State :=
  if f.parlour then
    s.sendMgmt f.src f.srcHost f.queue (replyBytes f opcode s.attn a.status retry a.count a.detail a.data)
  else
    s.sendRun (flowTo f.src f.srcHost (f.port.val / 4) 2 f.queue) { s.header 8 2 f.queue f.src f.srcHost with last := true }
      (replyBytes f opcode s.attn a.status retry a.count a.detail a.data)

/-- A control session stands (R379, R429). -/
def State.hasSession (s : State) (f : Session) : Bool :=
  if f.parlour then s.power.parlour && s.safety.joined.contains f.src
  else s.joinedOn f.src f.srcHost (f.port.val / 4) && s.portLive f.port.val

/-- Messages on an Ethernet port are served: not until phase lock, nor again in state 3, which the end of holdover enters
(R387, Table 15.1). -/
def State.ethernetOpen (s : State) : Bool := s.clock.everLocked && s.moduleState != 3

def State.bumpQmgr (s : State) (addr : Nat) : State := if s.inService clsQmgr 0 then s.bump addr else s

/-- Statuses under which something was done (R386). -/
def doneStatus (st : Nat) : Bool := [stOk, stIgnored, stMemError, stLogGap].contains st

/-- Serving a message: the queue it came on, the state it may be served in (R387), what it does, the reply. -/
def State.serve (s : State) (f : Session) (opcode : Nat) (early : Bool) (act : State → Answer) : State :=
  if !s.hasSession f then s
  else if f.queue < 16 ∨ 4095 < f.queue then
    let d := s.draw
    d.2.sendReply f opcode 0 ⟨d.2, stBadArgument, 0, (Config.freeWord d.1).toNat, []⟩
  else if !f.parlour && !s.ethernetOpen && !early then
    let s := s.bumpQmgr Reg.QMGR_BUSY_REPLIES
    s.sendReply f opcode (if s.acquiring then 512 else 4096) ⟨s, stBusy, 0, 0, []⟩
  else
    let a := act s
    let s := if doneStatus a.status then a.s.bumpQmgr Reg.QMGR_CONTROL_MSGS else a.s
    s.sendReply f opcode (if a.status = stBusy then 2048 else 0) a

def State.badOpcode (s : State) : Answer := ⟨s, stBadOpcode, 0, 0, []⟩
def State.badLength (s : State) : Answer := ⟨s, stBadLength, 0, 0, []⟩
def State.badAddress (s : State) (a : Nat) : Answer := ⟨s, stBadAddress, 0, a % 2 ^ 32, []⟩
def State.badArgument (s : State) (word : Nat) : Answer := ⟨s, stBadArgument, 0, word, []⟩

/-! ### Registers (R384) -/

/-- The checks of a register access: COUNT in range, a page that exists, a run within it. -/
def State.regCheck (s : State) (addr n most : Nat) : Option Answer :=
  if n = 0 ∨ most < n then some s.badLength
  else if !regStands addr then some (s.badAddress addr)
  else if 0x1000 < addr % 0x1000 + 4 * n then some s.badLength
  else none

def State.readRegs (s : State) (addr : Nat) : Nat → State × List Byte
  | 0 => (s, [])
  | n + 1 =>
    let r := s.readReg addr
    let t := r.2.readRegs (addr + 4) n
    (t.1, leBytes 4 r.1 ++ t.2)

def State.regReadAct (s : State) (n addr : Nat) : Answer :=
  match s.regCheck addr n 1024 with
  | some a => a
  | none =>
    let r := s.readRegs addr n
    ⟨r.1, stOk, n, 0, r.2⟩

/-- A register that takes writes: one with a writable field, or the staging window; a flip mask only in a class that has one
(R403). -/
def takesWrites (addr : Nat) : Bool :=
  !(fieldOf addr 15 12 == 0 && (addr % 0x1000 == 0x024 || addr % 0x1000 == 0x028) && !flipClass (fieldOf addr 31 24)) &&
  ((fieldOf addr 31 24 == clsBoot && fieldOf addr 15 12 == 3) ||
  (match rowOf addr with
   | some r => r.rw != 0 || r.w1c != 0 || r.wo != 0 || r.rwl != 0
   | none => false))

/-- One write of a control message, counted in its block: COUNTER_3 when reported as IGNORED, else COUNTER_2. The write of
CLEAR_COUNTERS is counted before it clears. -/
def State.messageWrite (s : State) (parlour : Bool) (addr v : Nat) : State × Bool :=
  let cls := fieldOf addr 31 24
  let inst := fieldOf addr 23 16
  let w := s.writeReg parlour addr v
  if !takesWrites addr || !s.inService cls inst then w
  else if w.2 then (w.1.bump (Reg.COUNTER_3 cls inst), true)
  else if addr % 0x10000 = 0x008 ∧ bitOf v 0 then w
  else (w.1.bump (Reg.COUNTER_2 cls inst), false)

/-- Writes in ascending order, with the address of the first that is ignored. -/
def State.writeRegs (s : State) (parlour : Bool) (addr : Nat) (first : Option Nat) : List Nat → State × Option Nat
  | [] => (s, first)
  | v :: vs =>
    let w := s.messageWrite parlour addr v
    w.1.writeRegs parlour (addr + 4) (if w.2 then first.orElse (fun _ => some addr) else first) vs

def ignoredAnswer (s : State) (n : Nat) (first : Option Nat) (data : List Byte) : Answer :=
  match first with
  | some a => ⟨s, stIgnored, n, a, data⟩
  | none => ⟨s, stOk, n, 0, data⟩

def State.regWriteAct (s : State) (parlour : Bool) (addr : Nat) (vs : List Nat) : Answer :=
  match s.regCheck addr vs.length 1024 with
  | some a => a
  | none =>
    let w := s.writeRegs parlour addr none vs
    ignoredAnswer w.1 vs.length w.2 []

/-- One access of REG_MODIFY: (old and not mask) or (value and mask). -/
def merged (old v mask : Nat) : Nat := (old &&& (2 ^ 32 - 1 - mask % 2 ^ 32)) ||| (v &&& mask % 2 ^ 32)

/-- Value and mask pairs in ascending order; the old values come back. -/
def State.modifyRegs (s : State) (parlour : Bool) (addr : Nat) (first : Option Nat) : List (Nat × Nat) → State × Option Nat × List Byte
  | [] => (s, first, [])
  | (v, mask) :: vs =>
    let r := s.readReg addr
    let w := r.2.messageWrite parlour addr (merged r.1 v mask)
    let t := w.1.modifyRegs parlour (addr + 4) (if w.2 then first.orElse (fun _ => some addr) else first) vs
    (t.1, t.2.1, leBytes 4 r.1 ++ t.2.2)

def State.regModifyAct (s : State) (parlour : Bool) (addr : Nat) (vs : List (Nat × Nat)) : Answer :=
  match s.regCheck addr vs.length 512 with
  | some a => a
  | none =>
    let w := s.modifyRegs parlour addr none vs
    ignoredAnswer w.1 vs.length w.2.1 w.2.2

/-! ### Memory (R384) -/

/-- Bytes of this module's space 0, 1 or 3 that a control message may name. -/
def State.messageMapped (s : State) (a n : Nat) : Bool :=
  zEndpoint a == s.moduleNum &&
    (if zSpace a = 3 then decide (zOff a + n ≤ 64 * 4096) else decide (zSpace a < 2) && s.mapped (zSpace a) (zOff a) n)

/-- The memory, window or queue memory that an address lies in is in service: with the die without power, in reset or
starting, Parlour's session reaches none (R16, R387; log entry 40). -/
def State.memServed (s : State) (space off : Nat) : Bool :=
  if space = 0 then
    match windowAt off with
    | some (.upd st _) => s.inService clsUpd st
    | some (.sep st _) => s.inService clsSep st
    | some (.intake st _ _) => s.inService clsSep st
    | none => s.inService clsHbm (off / stackBytes)
  else if space = 1 then s.inService clsLpddr (lpChip off)
  else s.inService clsQmgr 0

def State.memReadAct (s : State) (n a : Nat) : Answer :=
  if n = 0 ∨ 4096 < n then s.badLength
  else if !s.messageMapped a n then s.badAddress a
  else if !s.memServed (zSpace a) (zOff a) then ⟨s, stOk, n, 0, List.replicate n 0⟩
  else if zSpace a = 3 then ⟨s, stOk, n, 0, s.queueBytes (zOff a) n⟩
  else
    let g := (s.nocServe true (zSpace a) (zOff a) n).readMem hostReader (zSpace a) (zOff a) n
    match g.bad with
    | none => ⟨g.s, stOk, n, 0, g.data⟩
    | some u => ⟨g.s, stMemError, g.data.length, g.s.zAddr (zSpace a) u % 2 ^ 32, g.data⟩

/-- A write of memory, after which an armed HBM mask is applied (R283). -/
def State.memStore (s : State) (a : Nat) (bs : List Byte) : Answer :=
  let p := (s.nocStore (zSpace a) (zOff a) bs.length).hostStore (zSpace a) (zOff a) bs
  let t := if zSpace a = 0 ∧ (windowAt (zOff a)).isNone then p.s.flipHbm (zOff a) p.done else p.s
  match p.bad with
  | none => ⟨t, stOk, bs.length, 0, []⟩
  | some u => ⟨t, stMemError, p.done, t.zAddr (zSpace a) u % 2 ^ 32, []⟩

def State.memWriteAct (s : State) (a : Nat) (bs : List Byte) : Answer :=
  let n := bs.length
  if n = 0 ∨ 4096 < n then s.badLength
  else if zEndpoint a ≠ s.moduleNum then s.badAddress a
  else if zSpace a = 3 then
    if 64 * 4096 < zOff a + n then s.badAddress a
    else if !s.memServed 3 (zOff a) then ⟨s, stIgnored, n, a % 2 ^ 32, []⟩
    else
      let w := s.queueWrite (zOff a) bs
      ignoredAnswer w.1 n (w.2.map (fun o => w.1.zAddr 3 o % 2 ^ 32)) []
  else if 1 < zSpace a then s.badAddress a
  else match s.goes (zSpace a) (zOff a) n, s.memServed (zSpace a) (zOff a) with
    | .nowhere, _ => s.badAddress a
    | _, false => ⟨s, stIgnored, n, a % 2 ^ 32, []⟩
    | .command, _ => (s.hostStore (zSpace a) (zOff a) bs).s.badAddress a
    | _, _ => s.memStore a bs

/-! ### Doorbells, the log, attestation -/

def State.doorbellAct (s : State) (completion : Bool) (q ix : Nat) : Answer :=
  if 4095 < q then s.badArgument 2
  else if 0xFFFF < ix then s.badArgument 3
  else
    let d := s.doorbell completion q ix
    ⟨d.1, if d.2 then stOk else stQueueError, 0, if d.2 then 0 else q, []⟩

/-- Table 13.7 as bytes. -/
def LogRecord.bytes (r : LogRecord) : List Byte :=
  let w := leBytes 4
  w (r.kind * 2 ^ 24 + r.core % 256 * 2 ^ 16 + r.code % 2 ^ 16) ++ w (r.entry % 2 ^ 16 * 2 ^ 16 + r.desc % 2 ^ 16) ++
    (List.range 6).flatMap (fun i => w (r.loops.getD i 0 % 2 ^ 24)) ++ leBytes 8 r.phase.toNat ++ leBytes 8 r.addr.toNat ++
    w r.step.toNat ++ w (r.cls * 2 ^ 24 + r.inst % 256 * 2 ^ 16 + r.attempt % 256 * 2 ^ 8 + bnat r.first) ++ w r.seq ++ w 0

/-- EVENT_FETCH (R393): records below ACK_SEQ are freed, then those from FROM_SEQ returned. -/
def State.eventFetchAct (s : State) (n from_ ack : Nat) : Answer :=
  if n = 0 ∨ 127 < n then s.badLength
  else
    let s := { s with ctl := { s.ctl with log := s.ctl.log.filter (fun r => decide (ack ≤ r.seq)) } }
    let rs := (s.ctl.log.filter (fun r => decide (from_ ≤ r.seq))).take n
    let gap := s.ctl.log.head?.any (fun r => decide (from_ < r.seq))
    ⟨s, if gap then stLogGap else stOk, rs.length, s.ctl.nextSeq % 2 ^ 32, rs.flatMap LogRecord.bytes⟩

/-- Digest of the image a kind booted; zero when none did (Table 16.3). -/
def State.imageDigest (s : State) (kind : Nat) : BitVec 512 := (((s.images kind).running).map (·.digest)).getD 0

/-- A record of the settings store: its word of KIND, VERSION and BYTES, and its contents (R480); the layout of the contents,
and version 1, are the model's. -/
def recordOf (kind : Nat) (bs : List Byte) : List Byte :=
  if bs.isEmpty then [] else leBytes 4 (kind * 2 ^ 24 + 2 ^ 16 + bs.length % 2 ^ 16) ++ bs

/-- The USER_CALIBRATION record in force. -/
def State.userRecord (s : State) : List Byte :=
  recordOf 3 <| s.boot.inForce.flatMap (fun x => leBytes 4 x.1 ++ leBytes 4 (unsignedOf 32 x.2))

/-- The TWIN_BINDING record in force. -/
def State.bindingRecord (s : State) : List Byte :=
  match s.boot.settings.twin with
  | some (t, key) => recordOf 2 (leBytes 4 (s.boot.settings.bindGen * 2 ^ 24 + t) ++ digestBytes key)
  | none => []

/-- A measurement of something absent is zero (R465). -/
def hashOf (bs : List Byte) : BitVec 512 := if bs.isEmpty then 0 else sha512 bs

/-- Table 16.3; images and fuses as the last start found them. -/
def State.measurements (s : State) : List (BitVec 512) :=
  [s.imageDigest 1, s.imageDigest 2, s.imageDigest 3, s.imageDigest 4, s.imageDigest 5, hashOf Config.factoryTable,
   hashOf s.userRecord, sha512 (Config.fuseBlock ++ leBytes 4 s.boot.svnStart), hashOf s.bindingRecord,
   (s.run.plan.map (·.planDigest)).getD 0]

/-- Bytes 0 to 895 of the report (Table 16.2). -/
def State.attestBody (s : State) (nonce : List Byte) : List Byte :=
  let w := leBytes 4
  let number := if s.numbered then s.moduleNum else 0xFFF
  let phase := if s.clock.everLocked then s.phaseNat else 0
  let flags := bnat s.boot.migration * 2 ^ 4 + bnat s.boot.armed.isSome * 2 ^ 3 + bnat s.safety.stop * 4 + bnat s.boot.fallback * 2 +
    bnat Config.debugEnabled
  w (896 * 2 ^ 16 + 1) ++ w (0x0064 * 2 ^ 16 + number) ++ leBytes 8 Config.serial.toNat ++ leBytes 8 phase ++
    w s.power.bootCount.toNat ++ w (s.moduleState * 2 ^ 24 + s.attn * 2 ^ 16 + s.boot.svnFused % 256 * 2 ^ 8 + flags) ++ w s.imageSlots ++
    w s.bindStatus ++ w (Config.certificates.length % 2 ^ 16) ++ List.replicate 84 0 ++ nonce ++
    s.measurements.flatMap digestBytes ++ List.replicate 64 0

/-- Attestation requests that wait at once (R440). -/
def signingMax : Nat := 64

/-- ATTEST: a freshly signed report and the certificates (R464); BUSY while as many wait as the queue holds (R440). -/
def State.attestAct (s : State) (nonce : List Byte) : Answer :=
  if nonce.length ≠ 64 then s.badArgument 0
  else if signingMax ≤ s.ctl.signing then ⟨s, stBusy, 0, 0, []⟩
  else
    let body := s.attestBody nonce
    let d := s.draw
    let report := body ++ leBytes 132 (Config.sign (sha512 body) d.1).toNat ++ Config.certificates
    ⟨{ d.2 with ctl := { d.2.ctl with signing := d.2.ctl.signing + 1 } }, stOk, report.length, 0, report⟩

/-- TWIN_DIGESTS, from the bound twin alone (R373). -/
def State.digestsAct (s : State) (f : Session) (step : Nat) (records : List DigestRecord) : Answer :=
  if !s.fromTwin f then s.badOpcode
  else if records.isEmpty ∨ 255 < records.length then s.badLength
  else ⟨s.twinDigests step records, stOk, 0, 0, []⟩

/-! ### The commands -/

def execNop (f : Session) (s : State) : Result := done (s.serve f 0x00 true (fun t => ⟨t, stOk, 0, 0, []⟩))

def execRegRead (f : Session) (count : Nat) (addr : Word) (s : State) : Result :=
  done (s.serve f 0x01 false (fun t => t.regReadAct count addr.toNat))

def execRegWrite (f : Session) (addr : Word) (data : List Word) (s : State) : Result :=
  done (s.serve f 0x02 false (fun t => t.regWriteAct f.parlour addr.toNat (data.map (·.toNat))))

def execRegModify (f : Session) (addr : Word) (data : List (Word × Word)) (s : State) : Result :=
  done (s.serve f 0x03 false (fun t => t.regModifyAct f.parlour addr.toNat (data.map (fun x => (x.1.toNat, x.2.toNat)))))

def execMemRead (f : Session) (count : Nat) (addr : DWord) (s : State) : Result :=
  done (s.serve f 0x04 false (fun t => t.memReadAct count addr.toNat))

def execMemWrite (f : Session) (addr : DWord) (data : List Byte) (s : State) : Result :=
  done (s.serve f 0x05 false (fun t => t.memWriteAct addr.toNat data))

def execDoorbellSubmissionTail (f : Session) (queue index : Nat) (s : State) : Result :=
  done (s.serve f 0x06 false (fun t => t.doorbellAct false queue index))

def execDoorbellCompletionHead (f : Session) (queue index : Nat) (s : State) : Result :=
  done (s.serve f 0x06 false (fun t => t.doorbellAct true queue index))

def execEventFetch (f : Session) (count fromSeq ackSeq : Nat) (s : State) : Result :=
  done (s.serve f 0x07 false (fun t => t.eventFetchAct count fromSeq ackSeq))

def execAttest (f : Session) (nonce : List Byte) (s : State) : Result :=
  done (s.serve f 0x08 true (fun t => t.attestAct nonce))

def execTwinDigests (f : Session) (step : Word) (records : List DigestRecord) (s : State) : Result :=
  done (s.serve f 0x11 false (fun t => t.digestsAct f step.toNat records))

/-! ### Messages as they arrive in frames -/

/-- Bytes of data that a message of an opcode carries for its COUNT. -/
def messageData (opcode count : Nat) : Nat :=
  match opcode with
  | 0x02 => 4 * count
  | 0x03 => 8 * count
  | 0x05 => count
  | 0x08 => count
  | 0x11 => 32 * count
  | _ => 0

/-- The first word of the header with a reserved field that is not zero (R386). -/
def messageReserved (bs : List Byte) : Option Nat :=
  let op := fieldOf (wordIn bs 0) 31 24
  let zero := fun (w : Nat) (x : Nat) => if x = 0 then none else some w
  (zero 0 (fieldOf (wordIn bs 0) 7 1)).orElse (fun _ =>
    match op with
    | 0x00 => (zero 2 (wordIn bs 2)).orElse (fun _ => zero 3 (wordIn bs 3))
    | 0x01 => zero 3 (wordIn bs 3)
    | 0x02 => zero 3 (wordIn bs 3)
    | 0x03 => zero 3 (wordIn bs 3)
    | 0x06 => zero 2 (fieldOf (wordIn bs 2) 30 12)
    | 0x08 => (zero 2 (wordIn bs 2)).orElse (fun _ => zero 3 (wordIn bs 3))
    | 0x11 => zero 3 (wordIn bs 3)
    | _ => none)

/-- A record of Table 12.20. -/
def parseDigest (r : List Byte) : DigestRecord where
  owner := fieldOf (wordIn r 0) 31 20
  stack := fieldOf (wordIn r 0) 19 16
  shard := fieldOf (wordIn r 0) 11 0
  epoch := BitVec.ofNat 64 (dwordIn r 1)
  absent := bitOf (wordIn r 3) 0
  digest := BitVec.ofNat 64 (dwordIn r 4)

/-- What a message in a frame asks for. A safety report's opcode, and any other, is no opcode here (R383, R430). -/
def State.messageAct (f : Session) (bs : List Byte) (s : State) : Answer :=
  let op := fieldOf (wordIn bs 0) 31 24
  let n := fieldOf (wordIn bs 0) 23 8
  let arg := dwordIn bs 2
  let addr := wordIn bs 2
  let data := bs.drop 16
  if (8 < op ∧ op ≠ 0x11) ∨ (op = 0x11 ∧ !s.fromTwin f) then s.badOpcode
  else match messageReserved bs with
    | some w => s.badArgument w
    | none =>
      if data.length < messageData op n ∨ ((op = 0 ∨ op = 6) ∧ n ≠ 0) then s.badLength
      else match op with
        | 0x00 => ⟨s, stOk, 0, 0, []⟩
        | 0x01 => s.regReadAct n addr
        | 0x02 => s.regWriteAct f.parlour addr ((List.range n).map (wordIn data))
        | 0x03 => s.regModifyAct f.parlour addr ((List.range n).map (fun i => (wordIn data (2 * i), wordIn data (2 * i + 1))))
        | 0x04 => s.memReadAct n arg
        | 0x05 => s.memWriteAct arg (data.take n)
        | 0x06 => s.doorbellAct (bitOf addr 31) (addr % 4096) (wordIn bs 3)
        | 0x07 => s.eventFetchAct n (wordIn bs 2) (wordIn bs 3)
        | 0x08 => s.attestAct (data.take n)
        | _ => s.digestsAct f (wordIn bs 2) ((recordsOf 32 (data.take (32 * n))).map parseDigest)

/-- A whole message; a reply (REPLY 1) asks for nothing. -/
def State.message (s : State) (f : Session) (bs : List Byte) : State :=
  if bitOf (wordIn bs 0) 0 then s
  else
    let f := { f with reqId := BitVec.ofNat 32 (wordIn bs 1) }
    let op := fieldOf (wordIn bs 0) 31 24
    s.serve f op (op == 0x00 || op == 0x08) (State.messageAct f bs)

end Sys2Proof.Machine
end

