-- ==== Sys2Proof/Machine/Scratch.lean ====
section
/-!
DEFINITION. The scratchpad side of the copy engines and fabric engines: why a request stops, and how its data enter the
scratchpads (R241, R242, R277). Readings: log entry 43.
-/

namespace Sys2Proof.Machine

/-! ### How a request ends early -/

def reqFault (r : Req) (code cls inst addr : Nat) : FaultAt :=
  { code := code, cls := cls, inst := inst, addr := addr, core := r.core, entry := r.entry, desc := r.desc }

/-- A fault of the engine that carries the request out. -/
def engineFault (r : Req) (code addr : Nat) : FaultAt :=
  if r.engine < 16 then reqFault r code clsCopy r.engine addr else reqFault r code clsFabric (r.engine - 16) addr

def Req.reader (r : Req) : Reader := segReader r.core r.entry r.desc

/-- Why a request stops: a fault to raise, or one that its memory read has raised. -/
inductive Stop where
  | fault (f : FaultAt)
  | parity (core off : Nat)
  | raised
deriving DecidableEq, Repr

/-- A byte with wrong parity in a run that a request reads: the request stops; while no plan runs it is only counted
(R277, Table 10.5). -/
def State.parityRead (s : State) (core off n : Nat) : State × Option Stop :=
  match s.scratchParity core off n with
  | none => (s, none)
  | some o => if s.planRuns then (s, some (.parity core o)) else (s.parityHit core 0 o, none)

/-- The first such byte of some runs of cores and offsets. -/
def State.parityReads (s : State) (runs : List (Nat × Nat × Nat)) : State × Option Stop :=
  runs.foldl (fun (a : State × Option Stop) x => if a.2.isSome then a else a.1.parityRead x.1 x.2.1 x.2.2) (s, none)

/-- The request leaves its queue; its blocks are no longer pending (R248, Table 10.2, Table 10.5). -/
def State.requestStops (s : State) (r : Req) (why : Stop) : State :=
  let s := s.dropRequest r.id
  match why with
  | .fault f => s.raise f
  | .parity core off => (s.parityHit core 0 off).raise (engineFault r 0x0704 (dieAddr r.core core off))
  | .raised => s

/-! ### Writing scratchpad (R241, R242) -/

/-- Runs of (core, offset, data) with neighbours joined. -/
def joinRuns : List (Nat × Nat × List Byte) → List (Nat × Nat × List Byte)
  | [] => []
  | x :: xs =>
    match joinRuns xs with
    | y :: ys => if y.1 = x.1 ∧ y.2.1 = x.2.1 + x.2.2.length then (x.1, x.2.1, x.2.2 ++ y.2.2) :: ys else x :: y :: ys
    | [] => [x]

def wordsTouched (off n : Nat) : Nat := if n = 0 then 0 else (off + n - 1) / 32 + 1 - off / 32

/-- Words that a run covers in part: offsets of each. -/
def partRuns (off n : Nat) : List Nat :=
  let a := off / 32
  let b := (off + n - 1) / 32
  if n = 0 then []
  else (if off % 32 ≠ 0 ∨ off + n < 32 * a + 32 then [32 * a] else []) ++
    (if b ≠ a ∧ (off + n) % 32 ≠ 0 then [32 * b] else [])

structure Filling where
  s     : State
  whole : List Nat
  stop  : Option Stop

/-- Words that a write of whole blocks writes: all 16 of a block met first, and those touched in the others (R242, R256). -/
def wholeWords (core off n : Nat) (seen all : List Nat) : Nat :=
  16 * (all.length - seen.length) +
    ((List.range (wordsTouched off n)).filter (fun i => seen.contains ((scratchKey core off / 32 + i) / 16))).length

/-- One run written as its destination region chooses; a masked write reads the words it covers in part. -/
def fillRun (r : Req) (f : Filling) (x : Nat × Nat × List Byte) : Filling :=
  let core := x.1
  let off := x.2.1
  let bs := x.2.2.mapIdx (fun i b => (off + i, b, (255 : Byte)))
  let count := fun (n : Nat) (s : State) => if r.engine < 16 then s.bumpBy (Reg.COPY_WORDS_WRITTEN r.engine) n else s
  if f.stop.isSome then f
  else if ((f.s.regionAt core off).map (fun g => g.2.fullBlock)).getD false then
    let w := f.s.wholeBlocks r.core core f.whole bs
    ⟨count (wholeWords core off bs.length f.whole w.2) (w.1.putBytes core bs), w.2, none⟩
  else
    let parts := partRuns off bs.length
    let p := f.s.parityReads (parts.map (fun w => (core, w, 32)))
    match p.2 with
    | some w => { f with s := p.1, stop := some w }
    | none => ⟨count (wordsTouched off bs.length) ((p.1.putBytes core bs).bumpBy (Reg.CORE_RMW_WORDS r.core) parts.length), f.whole, none⟩

/-- Data of an answer at a key of the scratchpads; blocks of a FULL_BLOCK region were written whole when the request
started. -/
def State.fillKey (s : State) (r : Req) (key : Nat) (bs : List Byte) : Filling :=
  let core := (key - 2 ^ 49) / 2 ^ 20
  let off := (key - 2 ^ 49) % 2 ^ 20
  if bs.isEmpty then ⟨s, [], none⟩
  else fillRun r ⟨s, (List.range bs.length).map (fun i => (key + i) / 512), none⟩ (core, off, bs)

/-- Rows written in order: die address, data. -/
def State.fillRows (s : State) (r : Req) (rows : List (Nat × List Byte)) : Filling :=
  (joinRuns (rows.map (fun x => (spCore r.core x.1, spOff x.1, x.2)))).foldl (fillRun r) ⟨s, [], none⟩

end Sys2Proof.Machine
end

