-- ==== Sys2Proof/Machine/FabricRx.lean ====
section
/-!
DEFINITION. The receiving side at the ports: the checks of a frame (R333, R335, R344), ordered delivery of blocks (R336,
R337), late blocks (R354), credits (R355, R356), and what each type of frame does here (Table 12.4). Commands: WRITE, READ,
READ_DATA, ACK, NAK, WRITE_DONE, CREDIT_REQ, CREDIT_GRANT, CONTROL, GATHER, REDUCE, NOTICE, ACK_TIMER, NAK_TIMER. Readings:
log entry 41.
-/

namespace Sys2Proof.Machine

/-! ### Receiving flows -/

def State.rxFlow (s : State) (id : FlowId) : RxFlow :=
  (s.fab.rx.find? (fun f => f.id == id)).getD ⟨id, 0, [], 0, 0, none, []⟩

def State.setRx (s : State) (f : RxFlow) : State :=
  if s.fab.rx.any (fun g => g.id == f.id) then
    { s with fab := { s.fab with rx := s.fab.rx.map (fun g => if g.id = f.id then f else g) } }
  else { s with fab := { s.fab with rx := s.fab.rx ++ [f] } }

/-- The flow of a frame from its source. -/
def frameFlow (r : Rx) : FlowId := ⟨r.hdr.src, r.hdr.srcHost, r.port.val / 4, r.hdr.cls, r.hdr.queue⟩

/-- The receiving flow a frame's blocks belong to. -/
def State.rxId (s : State) (r : Rx) : FlowId := movedFlow s (s.fab.rx.map (·.id)) (frameFlow r)

/-- The sending flow an acknowledgement is about. -/
def State.txId (s : State) (r : Rx) : FlowId := movedFlow s (s.fab.tx.map (·.id)) (frameFlow r)

/-- A frame without blocks back to the source of a flow, in the same class on the same queue. -/
def State.answer (s : State) (id : FlowId) (h : Hdr → Hdr) (type : Nat) : State :=
  s.sendBare id { h (s.header type id.cls id.queue id.peer id.host) with last := true }

/-- Cumulative receipt up to the block before the expected one (R337). -/
def State.sendAck (s : State) (id : FlowId) : State :=
  let f := s.rxFlow id
  (s.setRx { f with unacked := 0 }).answer id (fun h => { h with seq := f.expect - 1 }) 3

def State.sendNak (s : State) (id : FlowId) (busy : Bool) : State :=
  s.answer id (fun h => { h with seq := (s.rxFlow id).expect, len := BitVec.ofNat 32 (bnat busy) }) 4

/-! ### Delivery in order (R336) -/

/-- What became of a block at its destination: taken, refused for want of a line (R364), or discarded at admission. -/
inductive Taken where
  | yes
  | busy
  | no
deriving DecidableEq, Repr

structure Delivery where
  s : State
  taken : Taken

/-- An acknowledgement is owed, the first of its batch since now. -/
def RxFlow.owe (f : RxFlow) (n now : Nat) : RxFlow :=
  { f with unacked := f.unacked + n, sinceAck := if f.unacked = 0 then now else f.sinceAck }

/-- An unscheduled block that is accepted uses up a credit granted to its source (R355). -/
def State.spendCredit (s : State) (id : FlowId) (plane : Nat) : State :=
  let c := s.creditOf id.peer id.host plane
  if id.cls = 1 ∧ 0 < c.granted then s.setCredit { c with granted := c.granted - 1 } else s

/-- Held blocks in sequence, as far as they go; what cannot be taken leaves the flow waiting for it again. -/
def State.advance (deliver : State → FlowId → Cargo → Delivery) (plane : Nat) : Nat → State → FlowId → State
  | 0, s, _ => s
  | n + 1, s, id =>
    let f := s.rxFlow id
    match f.held.find? (fun b => b.1 == f.expect) with
    | none => s.setRx { f with gapSince := if f.held.isEmpty then none else f.gapSince.orElse (fun _ => some s.clock.now) }
    | some b =>
      let d := deliver s id b.2
      let g := d.s.rxFlow id
      let rest := g.held.filter (fun x => x.1 != f.expect)
      match d.taken with
      | .yes =>
        State.advance deliver plane n ((d.s.setRx ({ g with expect := f.expect + 1, held := rest, gapSince := none }.owe 1
          s.clock.now)).spendCredit id plane) id
      | .busy => (d.s.setRx { g with held := rest, gapSince := none }).sendNak id true
      | .no => d.s.setRx { g with held := rest, gapSince := none }

/-- A scheduled block more than one slot after the slot of its PHASE_TAG (R354). -/
def State.lateTag (s : State) (h : Hdr) : Bool :=
  let d := (BitVec.ofNat 32 s.slot - h.phaseTag).toNat
  h.cls == 0 && decide (1 < d) && decide (d < 2 ^ 31)

/-- One block: its CRC, its place in the flow, and what follows from it. -/
def State.arrive (s : State) (deliver : State → FlowId → Cargo → Delivery) (port : Nat) (id : FlowId) (c : Cargo) (crc : Word) : State :=
  if crc.toNat ≠ crc32c c.data then (s.bump (Reg.FABRIC_CRC_FAILS (port / 4))).sendNak id false
  else
    let f := s.rxFlow id
    let d := (c.hdr.seq - f.expect).toNat
    if 2 ^ 31 ≤ d ∨ (d < 1024 ∧ f.held.any (fun b => b.1 == c.hdr.seq)) then
      (s.bump (Reg.FABRIC_DUP_BLOCKS (port / 4))).setRx (if 2 ^ 31 ≤ d ∧ f.unacked = 0 then f.owe 1 s.clock.now else f)
    else if 1024 ≤ d then s
    else
      let s := if s.lateTag c.hdr then s.bump (Reg.PORT_LATE_BLOCKS port) else s
      let s := s.setRx { f with held := f.held ++ [(c.hdr.seq, c)] }
      let s := State.advance deliver (port / 4) (f.held.length + 2) s id
      if 64 ≤ (s.rxFlow id).unacked then s.sendAck id else s

/-- The blocks of a frame, each with the header that places it: block 1 follows block 0 in sequence and in address. -/
def frameCargo (r : Rx) : List (Cargo × Word) :=
  match r.blocks with
  | [] => []
  | [b] => [(⟨r.hdr, b.data⟩, b.crc)]
  | b :: x :: _ =>
    let h := r.hdr
    let second := { h with seq := h.seq + 1, addr := h.addr + BitVec.ofNat 64 b.data.length }
    [(⟨{ h with last := false }, b.data⟩, b.crc), (⟨second, x.data⟩, x.crc)]

/-! ### The checks of a frame -/

/-- A frame's type is one the agreed generation has, its form that of its header. -/
def typeOk (gen type : Nat) (r : Rx) : Bool :=
  r.hdr.gen == gen && r.hdr.type == type && decide (type ≤ 12) && (decide (type < 10) || decide (2 ≤ gen)) &&
    decide (r.hdr.cls < 3) && r.formed

/-- The highest packet number received from a port of a peer under the key of a frame (R344). -/
def Peer.highest (x : Peer) (r : Rx) : Nat := tget 0 (if r.newKey then x.seen else x.oldSeen) r.srcPort.val

/-- A packet within the replay window of 1,024 packets. -/
def Peer.inWindow (x : Peer) (r : Rx) : Bool := decide (1 ≤ r.packet) && decide (x.highest r < r.packet + 1024)

/-- The peer's record once a packet of its has passed: the first under a new key ends the old one. -/
def Peer.took (x : Peer) (r : Rx) : Peer :=
  let n := max (x.highest r) r.packet
  if r.newKey then { x with oldKey := none, oldSeen := [], seen := tput x.seen r.srcPort.val n }
  else { x with oldSeen := tput x.oldSeen r.srcPort.val n }

/-- A frame at a port: a discarded one is a lost block; any other goes on to `act`. -/
def State.receive (s : State) (type : Nat) (r : Rx) (act : State → State) : State :=
  let p := r.port.val
  if !s.power.die || !s.portLive p || !s.numbered then s
  else
    let s := (s.bumpBy (Reg.PORT_FEC_CORRECTED p) r.fecFixed).bumpBy (Reg.PORT_FEC_UNCORRECTED p) r.fecBad
    let s := s.bump (Reg.PORT_FRAMES_RX p)
    match s.peerOn r.hdr.src r.hdr.srcHost (p / 4) with
    | none => s.bump (Reg.PORT_ICV_FAILS p)
    | some peer =>
      if !r.icvOk || (!r.newKey && peer.oldKey.isNone) then s.bump (Reg.PORT_ICV_FAILS p)
      else if !peer.inWindow r then s.bump (Reg.PORT_REPLAY_DROPS p)
      else
        let s := s.modPeer peer.num peer.host peer.plane (fun x => x.took r)
        if !r.udpOk then s.bump (Reg.FABRIC_CRC_FAILS (p / 4))
        else if !typeOk peer.gen type r || r.hdr.dstHost || r.hdr.dst != s.moduleNum then s.bump (Reg.PORT_FRAMES_DISCARDED p)
        else act s

/-- A frame with blocks. -/
def State.receiveBlocks (s : State) (type : Nat) (r : Rx) (deliver : State → FlowId → Cargo → Delivery) : State :=
  s.receive type r (fun t =>
    let id := t.rxId r
    (frameCargo r).foldl (fun u x => u.arrive deliver r.port.val id x.1 x.2) t)

def taken (s : State) : Delivery := ⟨s, .yes⟩

/-! ### WRITE (R331, R347, R312, R444) -/

def State.refuseRemote (s : State) (id : FlowId) (h : Hdr) : State := s.emit (.unmapped id.peer id.host h.tag h.addr)

/-- The place for the twin's shards that a run of space 1 touches: place, generation, offset within it (R522). -/
def State.placeAt (s : State) (off n : Nat) : Option (Place × Nat × Nat) :=
  match s.run.plan with
  | none => none
  | some p => (p.places.filter (fun x => x.owner != p.moduleIndex)).findSome? (fun x =>
      [0, 1].findSome? (fun g =>
        let a := zOff (x.gen g)
        if a < off + n ∧ off < a + x.bytes then some (x, g, off - a) else none))

/-- The twin, over a mutual binding (R467). -/
def State.isTwin (s : State) (id : FlowId) : Bool := !id.host && s.twin == some id.peer && s.bindMutual

def setAt (bs : List Byte) (o : Nat) (new : List Byte) : List Byte := bs.take o ++ new ++ bs.drop (o + new.length)

/-- A mirror image whose last block is written: its CRC-64 is checked, and it is complete and acknowledged, or left
incomplete (R312). -/
def State.mirrorWritten (s : State) (id : FlowId) (x : Place) (g : Nat) : State :=
  let a := zOff (x.gen g)
  let r := s.readLp a 64
  let h := r.data
  let d := if 64 + hdrLength h ≤ x.bytes then r.s.readLp (a + 64) (hdrLength h) else ⟨r.s, [], none⟩
  let s := d.s
  if r.bad.isNone ∧ d.bad.isNone ∧ 64 + hdrLength h ≤ x.bytes ∧ crc64 d.data = hdrCrc h then
    let w := s.writeLp a (setAt (setAt h 32 (leBytes 8 (hdrCrc h))) 40 (leBytes 4 1))
    w.s.emit (.mirrorAck id.peer x.stack x.shard (BitVec.ofNat 64 (hdrEpoch h)))
  else s.event clsLpddr (lpChip a) evMemory (s.zAddr 1 a)

/-- A block of a mirror image: VALID is clear from the moment the generation begins to be written. -/
def State.mirrorBlock (s : State) (id : FlowId) (c : Cargo) (x : Place × Nat × Nat) : State :=
  let off := zOff c.hdr.addr.toNat
  let bs := if off = zOff (x.1.gen x.2.1) ∧ 44 ≤ c.data.length then setAt c.data 40 (leBytes 4 0) else c.data
  let s := (s.writeLp off bs).s
  if c.hdr.last then s.mirrorWritten id x.1 x.2.1 else s

/-- Register words written through space 2 (R331). -/
def State.storeRegs (s : State) (o : Nat) (bs : List Byte) : Option State :=
  let n := bs.length
  if o < 2 ^ 32 ∧ o % 4 = 0 ∧ n % 4 = 0 ∧ o % 0x1000 + n ≤ 0x1000 ∧ regStands o then
    some ((List.range (n / 4)).foldl (fun t i => (t.writeReg false (o + 4 * i) (wordIn bs i)).1) s)
  else none

/-- A block of a WRITE goes to what its address names; the last one is answered. -/
def State.writeBlockIn (s : State) (id : FlowId) (c : Cargo) : State :=
  let a := c.hdr.addr.toNat
  let n := c.data.length
  let no := s.refuseRemote id c.hdr
  let ends := fun (t : State) => if c.hdr.last then t.answer id (fun h => { h with tag := c.hdr.tag }) 5 else t
  if zEndpoint a ≠ s.moduleNum then no
  else match zSpace a with
    | 0 => match s.goes 0 (zOff a) n with
      | .nowhere => no
      | .command => (s.hostStore 0 (zOff a) c.data).s.refuseRemote id c.hdr
      | _ =>
        let p := s.hostStore 0 (zOff a) c.data
        match p.bad with
        | none => ends p.s
        | some _ => p.s.emit (.memError id.peer id.host c.hdr.tag c.hdr.addr)
    | 1 =>
      if !s.mapped 1 (zOff a) n then no
      else match s.placeAt (zOff a) n with
        | none => ends (s.writeLp (zOff a) c.data).s
        | some x => if s.isTwin id then ends (s.mirrorBlock id c x) else no
    | 2 => match s.storeRegs (zOff a) c.data with
      | some t => ends t
      | none => no
    | 3 => if zOff a + n ≤ 64 * 4096 then ends (s.queueWrite (zOff a) c.data).1 else no
    | _ => no

/-- A block of a WRITE waits behind a request of its flow that was issued before it and waits (R347). -/
def writeWaits (ahead : List (FlowId × Cargo)) (id : FlowId) (c : Cargo) : Bool :=
  ahead.any (fun x => x.1 == id && decide ((c.hdr.seq - x.2.hdr.seq).toNat < 2 ^ 31))

/-- A request of another endpoint waits. -/
def State.holdRequest (s : State) (id : FlowId) (c : Cargo) : State :=
  { s with fab := { s.fab with heldReads := s.fab.heldReads ++ [(id, c)] } }

/-- A write goes to its place; one for an intake window whose buffer is full is held (R151). -/
def State.writeRequest (s : State) (id : FlowId) (c : Cargo) : State :=
  if writeWaits s.fab.heldReads id c || (s.intakeHolds c.hdr.addr.toNat c.data.length).isSome then s.holdRequest id c else s.writeBlockIn id c

def execWrite (r : Rx) (s : State) : Result :=
  done (s.receiveBlocks 0 r (fun t id c => taken (t.writeRequest id c)))

/-! ### READ and GATHER (R347, R348, R23) -/

/-- Bytes another endpoint reads: none when they are not there, with whether an uncorrectable read is the reason. -/
structure Fetched where
  s    : State
  data : Option (List Byte)
  bad  : Bool

/-- A read of this module's own spaces. -/
def State.readOwn (s : State) (rd : Reader) (a n : Nat) : Fetched :=
  let no : Fetched := ⟨s, none, false⟩
  match zSpace a with
  | 2 =>
    let o := zOff a
    if o < 2 ^ 32 ∧ o % 4 = 0 ∧ n % 4 = 0 ∧ o % 0x1000 + n ≤ 0x1000 ∧ regStands o then
      let r := s.readRegs o (n / 4)
      ⟨r.1, some r.2, false⟩
    else no
  | 3 => if zOff a + n ≤ 64 * 4096 then ⟨s, some (s.queueBytes (zOff a) n), false⟩ else no
  | sp =>
    if 1 < sp ∨ !s.mapped sp (zOff a) n then no
    else
      let g := s.readMem rd sp (zOff a) n
      match g.bad with
      | none => ⟨g.s, some g.data, false⟩
      | some _ => ⟨g.s, none, true⟩

/-- A read by another endpoint: the twin alone reads what is held for it. -/
def State.readFor (s : State) (id : FlowId) (a n : Nat) : Fetched :=
  if zEndpoint a ≠ s.moduleNum ∨ (zSpace a = 1 ∧ (s.placeAt (zOff a) n).isSome ∧ !s.isTwin id) then ⟨s, none, false⟩
  else (s.nocServe false (zSpace a) (zOff a) n).readOwn hostReader a n

/-- Runs read in turn. -/
def State.readAll (s : State) (id : FlowId) : List (Nat × Nat) → Fetched
  | [] => ⟨s, some [], false⟩
  | x :: xs =>
    let a := s.readFor id x.1 x.2
    match a.data with
    | none => a
    | some bs =>
      let b := a.s.readAll id xs
      { b with data := b.data.map (bs ++ ·) }

/-- The runs a request asks for: those of a READ, the rows of a GATHER (Table 12.7). -/
def Cargo.runs (c : Cargo) : List (Nat × Nat) :=
  let a := c.hdr.addr.toNat
  if c.hdr.type = 10 then
    let row := wordIn c.data 2
    (List.range ((c.data.length - 16) / 8)).map (fun i =>
      (a + wordIn c.data (4 + 2 * i) * dwordIn c.data 0 + wordIn c.data (5 + 2 * i), row))
  else if c.hdr.len = 0 then [] else [(a, c.hdr.len.toNat)]

/-- The answer to a request: READ_DATA in its class on its queue, or the error. -/
def State.serveRead (s : State) (id : FlowId) (c : Cargo) : State :=
  let g := s.readAll id c.runs
  match g.data with
  | some bs =>
    let h := g.s.header 2 id.cls id.queue id.peer id.host
    g.s.sendRun id { h with tag := c.hdr.tag, addr := 0, phaseTag := if id.cls = 0 then c.hdr.phaseTag else 0, last := true } bs
  | none => g.s.emit (if g.bad then .memError id.peer id.host c.hdr.tag c.hdr.addr else .unmapped id.peer id.host c.hdr.tag c.hdr.addr)

/-- A block issued before a READ, which names the number after it, is still missing. -/
def State.missing (s : State) (id : FlowId) (c : Cargo) : Bool :=
  let d := (c.hdr.seq - (s.rxFlow id).expect).toNat
  c.hdr.type == 1 && decide (0 < d) && decide (d < 1024)

/-- A request waits while the update engine writes a working copy it reads, behind one of its flow that waits, and for
blocks of its flow that were issued before it (R23, R347). -/
def State.mustWait (s : State) (ahead : List (FlowId × Cargo)) (id : FlowId) (c : Cargo) : Bool :=
  ahead.any (fun x => x.1 == id) || s.missing id c || c.runs.any (fun x => localHbm s x.1 && s.workingHeld (zOff x.1) x.2)

def State.readRequest (s : State) (id : FlowId) (c : Cargo) : State :=
  if s.mustWait s.fab.heldReads id c then s.holdRequest id c else s.serveRead id c

/-! ### REDUCE (R347, R359, R364) -/

def State.redBlock (s : State) (plane : Nat) (c : Cargo) : Delivery :=
  let d := s.reduceBlock plane (c.hdr.tag.toNat / 2 ^ 20) (c.hdr.tag.toNat % 2 ^ 20) c.hdr.addr.toNat c.data
  ⟨d.s, if d.busy then .busy else .yes⟩

/-- A contribution waits behind a request of its flow that was issued before it and waits (R347). -/
def State.redRequest (s : State) (plane : Nat) (id : FlowId) (c : Cargo) : Delivery :=
  if writeWaits s.fab.heldReads id c then ⟨s.holdRequest id c, .yes⟩ else s.redBlock plane c

/-- A contribution that waited: where it now finds no line, it waits on. -/
def State.redAgain (s : State) (id : FlowId) (c : Cargo) : State :=
  let d := s.redRequest (s.livePlane id.plane) id c
  if d.taken = .yes then d.s else s.holdRequest id c

def execReduce (r : Rx) (s : State) : Result :=
  done (s.receiveBlocks 11 r (fun t id c => t.redRequest (r.port.val / 4) id c))

/-- Requests that waited, once they need not. -/
def State.serveHeld (s : State) : State :=
  s.fab.heldReads.foldl (fun t x =>
    if x.2.hdr.type = 0 then t.writeRequest x.1 x.2
    else if x.2.hdr.type = 11 then t.redAgain x.1 x.2
    else t.readRequest x.1 x.2)
    { s with fab := { s.fab with heldReads := [] } }

def execRead (r : Rx) (s : State) : Result :=
  done (s.receive 1 r (fun t => t.readRequest (t.rxId r) ⟨r.hdr, []⟩))

/-- A GATHER whose block 0 is whole. -/
def State.gatherBlock (s : State) (id : FlowId) (c : Cargo) : State :=
  if 16 ≤ c.data.length ∧ wordIn c.data 2 % 512 = 0 ∧ wordIn c.data 3 = 0 then s.readRequest id c else s.refuseRemote id c.hdr

def execGather (r : Rx) (s : State) : Result :=
  done (s.receiveBlocks 10 r (fun t id c => taken (t.gatherBlock id c)))

/-! ### Answers to this module's requests (R347) -/

/-- This module's request of a tag to a peer. -/
def State.remoteOf (s : State) (id : FlowId) (tag : Word) : Option RemoteReq :=
  s.fab.remote.find? (fun r => r.tag == tag && r.peer == id.peer && r.host == id.host)

def State.modRemote (s : State) (tag : Word) (f : RemoteReq → RemoteReq) : State :=
  { s with fab := { s.fab with remote := s.fab.remote.map (fun r => if r.tag = tag then f r else r) } }

/-- A fetch-queue request whose last message has been answered is carried out. -/
def State.fetchAnswered (s : State) (id : Nat) : State :=
  if s.fab.remote.any (fun r => match r.use with
    | .fetch q _ => q == id
    | _ => false) then s else s.requestReady id

/-- The part of a block that goes to one run of the result. -/
def piece (o : Nat) (bs : List Byte) (d : Nat × Nat × Nat) : Nat × List Byte :=
  let lo := max o d.1
  let hi := min (o + bs.length) (d.1 + d.2.2)
  (d.2.1 + (lo - d.1), (bs.drop (lo - o)).take (hi - lo))

/-- Data of an answer to a fetch-queue request, at their places in its result; the request stops at a byte with wrong
parity in a word written in part. -/
def State.fillPieces (s : State) (q o : Nat) (bs : List Byte) (dest : List (Nat × Nat × Nat)) : State :=
  match s.run.reqs.find? (fun x => x.id == q) with
  | none => s
  | some req =>
    let f := dest.foldl (fun (f : Filling) d =>
      if f.stop.isSome then f
      else
        let p := piece o bs d
        f.s.fillKey req p.1 p.2) ⟨s, [], none⟩
    match f.stop with
    | none => f.s
    | some w => f.s.requestStops req w

/-- An answer that is an error: the request ends, and the requester raises the fault with its address (R331, Table 10.2;
log entry 41). -/
def State.errorAnswer (s : State) (id : FlowId) (tag : Word) (e : AnswerError) : State :=
  match s.remoteOf id tag with
  | none => s
  | some r =>
    let code := match e with
      | .unmapped => 0x0702
      | .uncorrectable => 0x0701
    let s := State.endRequest code s r
    match r.use with
    | .mirror st _ => s.raise { code := code, cls := clsUpd, inst := st, addr := r.addr.toNat }
    | _ => s

/-- A whole answer to the base dies or a restore. -/
def State.answered (s : State) (r : RemoteReq) (n : Nat) : State :=
  let t := s.dropRemote r.tag
  match r.use with
  | .import_ st payload => t.importGot st payload (joinParts n r.got) (((r.got.find? (fun p => p.1 == n)).map (·.2)).getD [])
  | .headers st sh g => t.headerGot st sh g (joinParts n r.got)
  | .image st sh g off => t.imageGot st sh g off (joinParts n r.got)
  | .fetch q _ => t.fetchAnswered q
  | _ => t

/-- Bytes of an answer that have come. -/
def RemoteReq.come (r : RemoteReq) (n : Nat) : Nat := ((r.got.filter (fun p => p.1 < n)).map (fun p => p.2.length)).foldl (· + ·) 0

/-- A READ_DATA block, at its offset in the result. -/
def State.dataBlock (s : State) (id : FlowId) (c : Cargo) : State :=
  match s.remoteOf id c.hdr.tag with
  | none => s
  | some r =>
    let o := c.hdr.addr.toNat
    match r.use with
    | .fetch q dest =>
      let s := s.fillPieces q o c.data dest
      let left := r.left - c.data.length
      if left = 0 then s.answered { r with left := 0 } 0 else s.modRemote r.tag (fun x => { x with left := left })
    | .import_ _ _ | .headers _ _ _ | .image _ _ _ _ =>
      let r' := { r with got := r.got ++ [(o, c.data)] }
      if r.left ≤ r'.come r.left then s.answered r' r.left else s.modRemote r.tag (fun _ => r')
    | _ => s

def execReadData (r : Rx) (s : State) : Result :=
  done (match r.error with
  | none => s.receiveBlocks 2 r (fun t id c => taken (t.dataBlock id c))
  | some e => s.receive 2 r (fun t => t.errorAnswer (frameFlow r) r.hdr.tag e))

/-- WRITE_DONE: every block of a write is in the destination's memory. -/
def State.writeDone (s : State) (id : FlowId) (tag : Word) : State :=
  match s.remoteOf id tag with
  | none => s
  | some r => match r.use with
    | .export_ st => (s.dropRemote tag).exportSent st
    | .ship st sh => s.shipAck st sh
    | .mirror _ _ => s.dropRemote tag
    | .fetch q _ => (s.dropRemote tag).fetchAnswered q
    | _ => s

def execWriteDone (r : Rx) (s : State) : Result :=
  done (s.receive 5 r (fun t => match r.error with
    | none => t.writeDone (frameFlow r) r.hdr.tag
    | some e => t.errorAnswer (frameFlow r) r.hdr.tag e))

/-! ### Acknowledgements (R338, R364) -/

/-- ACK: the blocks up to SEQ leave the retry store. -/
def State.acked (s : State) (id : FlowId) (seq : Word) : State :=
  let f := s.txFlow id
  let gone := fun (b : TxBlock) => b.sent && b.cargo.hdr.nblk != 0 && decide ((seq - b.cargo.hdr.seq).toNat < 2 ^ 31)
  if f.blocks.any gone then
    let s := s.setTx { f with blocks := f.blocks.filter (fun b => !gone b) }
    if !id.host && s.twin == some id.peer then { s with fab := { s.fab with lastTwinAck := s.slot } } else s
  else s

def execAck (r : Rx) (s : State) : Result := done (s.receive 3 r (fun t => t.acked (t.txId r) r.hdr.seq))

/-- NAK: the block is sent again at once, or with BUSY after RETRY_TIMEOUT ticks. -/
def State.nakked (s : State) (id : FlowId) (seq : Word) (busy : Bool) : State :=
  if busy then
    s.setTx ((s.txFlow id).modBlock seq (fun b => { b with busy := true, again := false, sentAt := s.clock.now }))
  else s.resend id seq true

def execNak (r : Rx) (s : State) : Result :=
  done (s.receive 4 r (fun t => t.nakked (t.txId r) r.hdr.seq (bitOf r.hdr.len.toNat 0)))

/-- ACK_TIMER: 200 ticks since the first block not acknowledged. -/
def execAckTimer (f : FlowId) (s : State) : Result :=
  done (if 0 < (s.rxFlow f).unacked ∧ 200 ≤ ticksSince s (s.rxFlow f).sinceAck then s.sendAck f else s)

/-- NAK_TIMER: the expected block has not come within 100 ticks of one above it. -/
def execNakTimer (f : FlowId) (s : State) : Result :=
  done (match (s.rxFlow f).gapSince with
  | none => s
  | some t =>
    if 100 ≤ ticksSince s t then (s.setRx { s.rxFlow f with gapSince := some s.clock.now }).sendNak f false else s)

/-! ### Credits (R356) -/

/-- CREDIT_REQ: the peer's entry is set, or refreshed, and free credits are granted. -/
def State.creditReq (s : State) (peer : Nat) (host : Bool) (plane : Nat) : State :=
  let c := s.creditOf peer host plane
  (s.setCredit { c with wants := c.wants.orElse (fun _ => some s.slot) }).grantAll plane

def execCreditReq (r : Rx) (s : State) : Result :=
  done (s.receive 6 r (fun t => t.creditReq r.hdr.src r.hdr.srcHost (r.port.val / 4)))

def State.creditGrant (s : State) (peer : Nat) (host : Bool) (plane n : Nat) : State :=
  let c := s.creditOf peer host plane
  s.setCredit { c with held := c.held + n, asked := none }

def execCreditGrant (r : Rx) (s : State) : Result :=
  done (s.receive 7 r (fun t => t.creditGrant r.hdr.src r.hdr.srcHost (r.port.val / 4) r.hdr.len.toNat))

/-! ### CONTROL (R355, R382) -/

/-- The session a control flow stands for. -/
def sessionOf (port : Fin 8) (id : FlowId) : Session := ⟨false, port, id.peer, id.host, id.queue, 0⟩

/-- A block of a control message: the message is served once its last block is there; one that finds 256 others waiting at
its port is discarded. -/
def State.controlBlock (s : State) (port : Fin 8) (id : FlowId) (c : Cargo) : Delivery :=
  let f := s.rxFlow id
  let bs := f.partial_ ++ c.data
  if !c.hdr.last then taken (s.setRx { f with partial_ := bs })
  else
    let p := s.port port.val
    if 256 ≤ p.admitted then ⟨s.bump Reg.QMGR_ADMIT_DISCARDS, .no⟩
    else
      let s := (s.setRx { f with partial_ := [] }).setPort port.val { p with admitted := p.admitted + 1 }
      taken (s.message (sessionOf port id) bs)

def execControl (r : Rx) (s : State) : Result :=
  done (s.receiveBlocks 8 r (fun t id c => t.controlBlock r.port id c))

/-! ### NOTICE (R367) -/

/-- The slot whose low 32 bits a header carries, at or before the present one. -/
def State.slotOfTag (s : State) (tag : Word) : Nat := s.slot - (BitVec.ofNat 32 s.slot - tag).toNat

def State.notice (s : State) (plane : Nat) (tag : Word) : State :=
  if plane < 2 then s.losePlane plane (s.slotOfTag tag) else s

def execNotice (r : Rx) (s : State) : Result :=
  done (s.receive 12 r (fun t => t.notice r.hdr.len.toNat r.hdr.phaseTag))

end Sys2Proof.Machine
end

