-- ==== Sys2Proof/Machine/CopyEngine.lean ====
section
/-!
DEFINITION. The copy engines and the fabric engines' side of a fetch-queue request (R244 to R252, R342, R347, R348):
which request an engine takes next, what it moves, the messages a request to another endpoint becomes, and its
completion. Commands: COPY_REQUEST_START, FETCH_COMPLETE. Readings: log entry 43.
-/

namespace Sys2Proof.Machine

/-! ### Which request is next (R249, R250, R23) -/

/-- Runs of scratchpad a request reads: its source, its coordinate list or index tensor. -/
def Req.reads (r : Req) : List (Nat × Nat) :=
  match r.what with
  | .fetch e _ => e.sources r.count ++ e.listRun r.count
  | .tile _ _ => []

/-- Some block it reads is pending for another request. -/
def State.sourcePending (s : State) (r : Req) : Bool :=
  let mine := blocksOf r.core r.reads
  s.run.reqs.any (fun x => x.id != r.id && x.blocks.any mine.contains)

/-- A 64-bit address. -/
def zAdd (a d : Nat) : Nat := (a + d) % 2 ^ 64

/-- Row i of a request at its external side (Table 09.7): its address, and whether it is in range. -/
def State.rowAt (s : State) (r : Req) (e : FetchEntry) (i : Nat) : Nat × Bool :=
  let ext := e.ext.toNat
  let at_ := fun (o : Nat) => natAt s.mem.cells (spKey r.core (spAdd e.list o)) 4
  match e.kind with
  | 0 => (zAdd ext (i * e.extPitch), true)
  | 1 =>
    let row := at_ (8 * i)
    let col := at_ (8 * i + 4)
    (zAdd ext (row * e.extPitch + col * e.rowBytes), decide (row < e.tableRows) && decide (col < e.colBlocks))
  | _ => (zAdd ext (at_ (4 * i) * e.extPitch), decide (at_ (4 * i) < e.tableRows))

/-- The address, where it is in range. -/
def State.extRow (s : State) (r : Req) (e : FetchEntry) (i : Nat) : Option Nat :=
  if (s.rowAt r e i).2 then some (s.rowAt r e i).1 else none

/-- The rows of a request up to the first out of range under IDX_MODE 0 (R248): index and address of each. -/
def State.extRows (s : State) (r : Req) (e : FetchEntry) : List (Nat × Option Nat) × Option Nat :=
  let all := (List.range r.count).map (fun i => (i, s.extRow r e i))
  let ok := all.takeWhile (fun x => x.2.isSome || e.zeroFill)
  (ok, if ok.length < all.length then some (spAdd e.list ((if e.kind = 1 then 8 else 4) * ok.length)) else none)

/-- A read of this module's memory that the update engine holds (R23). -/
def State.readHeld (s : State) (r : Req) : Bool :=
  match r.what with
  | .fetch e _ =>
    e.dir == 0 && (List.range 12).any (fun st => !(s.upd st).holding.isEmpty) &&
      (s.extRows r e).1.any (fun x => x.2.any (fun a => localHbm s a && s.workingHeld (zOff a) e.rowBytes))
  | .tile _ _ => false

/-- An earlier request of its queue has not started. -/
def State.behind (s : State) (r : Req) : Bool :=
  s.run.reqs.any (fun x => x.core == r.core && x.fq == r.fq && decide (x.id < r.id) && !x.started)

def earlier (a b : Req) : Bool :=
  decide (a.issuedAt < b.issuedAt) || (a.issuedAt == b.issuedAt && (decide (a.core < b.core) || (a.core == b.core && decide (a.id < b.id))))

/-- Requests an engine has not started, that nothing of their queue holds back. -/
def State.engineQueue (s : State) (e : Nat) : List Req :=
  s.run.reqs.filter (fun r => r.engine == e && !r.started && !s.behind r)

def firstReq : List Req → Option Req
  | [] => none
  | r :: rs => match firstReq rs with
    | none => some r
    | some x => if earlier x r then some x else some r

def State.engineFree (s : State) (e : Nat) : Bool :=
  !s.run.reqs.any (fun r => tfind s.run.copyBusy e == some r.id)

/-- A copy engine takes requests in order of arrival, one at a time; a fabric engine takes any queue's next. -/
def State.nextRequest (s : State) (e : Nat) : Option Req :=
  if s.power.hold then none
  else
    let ok := fun (r : Req) => !s.sourcePending r && !s.readHeld r
    if e < 16 then
      if s.engineFree e then (firstReq (s.engineQueue e)).bind (fun r => if ok r then some r else none) else none
    else firstReq ((s.engineQueue e).filter ok)

/-- A copy engine waits for pending source blocks (R250). -/
def State.copyWaits (s : State) (e : Nat) : Bool :=
  !s.power.hold && s.engineFree e && (firstReq (s.engineQueue e)).any s.sourcePending

/-! ### Reading (R246 to R248) -/

structure Rows where
  s    : State
  rows : List (Nat × List Byte)
  stop : Option Stop

/-- The pieces of row i at the scratchpad side. -/
def FetchEntry.pieces' (e : FetchEntry) (i : Nat) (bs : List Byte) : List (Nat × List Byte) :=
  let a := spAdd e.sp (e.spPitch * i)
  if e.kind = 2 then
    let n := e.rowBytes / e.pieces
    (List.range e.pieces).map (fun j => (spAdd a (j * e.piecePitch : Nat), (bs.drop (n * j)).take n))
  else [(a, bs)]

/-- Rows out of range are counted at the copy engine of the request's queue (R248, R249). -/
def State.rangeMisses (s : State) (r : Req) (n : Nat) : State :=
  s.bumpBy (Reg.COPY_RANGE_MISSES (4 * (r.core / 16) + r.fq % 4)) n

/-- Bytes that the network carries to a core from a stack of another quarter (R4, R13, R404). -/
def State.nocRead (s : State) (r : Req) (a n : Nat) : State :=
  match if localHbm s a then stackOf (zOff a) else none with
  | some x => if x.1 / 3 = r.core / 16 then s else s.nocSend (16 * (x.1 / 3)) n
  | none => s

/-- Bytes that the network carries from a core to a stack of another quarter, or to a port chiplet. -/
def State.nocWrite (s : State) (r : Req) (a n : Nat) : State :=
  match if localHbm s a then stackOf (zOff a) else none with
  | some x => if x.1 / 3 = r.core / 16 then s else s.nocSend r.core n
  | none => s.nocSend r.core n

/-- Rows of a fill from this module's own memory, in order, up to one that cannot be read. -/
def readRow (r : Req) (e : FetchEntry) (g : Rows) (x : Nat × Option Nat) : Rows :=
  if g.stop.isSome then g
  else match x.2 with
    | none => { g with s := g.s.rangeMisses r 1, rows := g.rows ++ e.pieces' x.1 (List.replicate e.rowBytes 0) }
    | some a =>
      let d := (g.s.nocRead r a e.rowBytes).readOwn r.reader a e.rowBytes
      let s := if r.engine < 16 then d.s.bumpBy (Reg.COPY_LINES_READ r.engine) ((zOff a + e.rowBytes - 1) / 128 + 1 - zOff a / 128) else d.s
      match d.data with
      | some bs => { g with s := s, rows := g.rows ++ e.pieces' x.1 bs }
      | none => { g with s := s, stop := some (if d.bad then .raised else .fault (engineFault r 0x0702 a)) }

/-- Rows of a write or local request, from scratchpad. -/
structure Sources where
  s    : State
  rows : List (List Byte)
  stop : Option Stop

def State.sourceRows (s : State) (r : Req) (e : FetchEntry) : Sources :=
  (e.sources r.count).foldl (fun (g : Sources) x =>
    if g.stop.isSome then g
    else
      let core := spCore r.core x.1
      let p := (g.s.farAccess r.core core (wordsTouched (spOff x.1) x.2) x.2).parityRead core (spOff x.1) x.2
      ⟨p.1, if p.2.isSome then g.rows else g.rows ++ [scratchBytesAt g.s core (spOff x.1) x.2], p.2⟩) ⟨s, [], none⟩

/-- The coordinate list or index tensor holds a byte with wrong parity. -/
def State.listBad (s : State) (r : Req) (e : FetchEntry) : State × Option Stop :=
  let s := (e.listRun r.count).foldl (fun t x =>
    t.farAccess r.core (spCore r.core x.1) (wordsTouched (spOff x.1) x.2) x.2) s
  s.parityReads ((e.listRun r.count).map (fun x => (spCore r.core x.1, spOff x.1, x.2)))

/-! ### Writing this module's own spaces (R332, R519) -/

structure Stored where
  s    : State
  stop : Option Stop

def State.storeOwn (s : State) (r : Req) (a : Nat) (bs : List Byte) : Stored :=
  let no : Stored := ⟨s, some (.fault (engineFault r 0x0702 a))⟩
  match zSpace a with
  | 0 => match s.goes 0 (zOff a) bs.length, windowAt (zOff a) with
    | .intake, some (.intake st slot o) => ⟨s.intakeRun st (slot * 2 ^ 28 + o) bs, none⟩
    | .memory, _ =>
      let p := s.writeMem r.reader 0 (zOff a) bs
      ⟨p.s, p.bad.map (fun _ => .raised)⟩
    | _, _ => no
  | 1 =>
    if s.mapped 1 (zOff a) bs.length then
      let p := s.writeLp (zOff a) bs r.reader
      ⟨p.s, p.bad.map (fun _ => .raised)⟩
    else no
  | 2 => match s.storeRegs (zOff a) bs with
    | some t => ⟨t, none⟩
    | none => no
  | 3 => if zOff a + bs.length ≤ 64 * 4096 then ⟨(s.queueWrite (zOff a) bs).1, none⟩ else no
  | _ => no

def State.storeRuns (s : State) (r : Req) (runs : List (Nat × List Byte)) : Stored :=
  runs.foldl (fun (g : Stored) x =>
    if g.stop.isSome then g else (g.s.nocWrite r x.1 x.2.length).storeOwn r x.1 x.2) ⟨s, none⟩

/-- The command window an address of this module lies in. -/
def State.commandAt (s : State) (a : Nat) : Option (Nat × Nat × Nat) :=
  if localHbm s a then
    match windowAt (zOff a) with
    | some (.upd st o) => some (clsUpd, st, o)
    | some (.sep st o) => some (clsSep, st, o)
    | _ => none
  else none

/-! ### The end of a request's own work -/

/-- Started, and waiting or not for what others still owe it. -/
def State.begun (s : State) (r : Req) (waiting : Bool) : State :=
  let s := { s with run := { s.run with reqs := s.run.reqs.map (fun x =>
      if x.id = r.id then { x with started := true, waiting := waiting } else x) } }
  if r.engine < 16 then { s with run := { s.run with copyBusy := tput s.run.copyBusy r.engine r.id } } else s

def State.carried (s : State) (r : Req) (stop : Option Stop) : State :=
  match stop with
  | none => s.begun r false
  | some w => s.requestStops r w

/-! ### Requests this module serves itself -/

/-- Elements of a row turned into a column (R252). -/
def FetchEntry.turned (e : FetchEntry) (row : Nat) (bs : List Byte) : List (Nat × List Byte) :=
  let n := elemSize e
  (List.range (bs.length / n)).map (fun c => (spAdd e.ext.toNat ((c * e.extPitch + row * n : Nat) : Int), (bs.drop (n * c)).take n))

/-- A layout base of the request is not a multiple of 512 (R232). -/
def FetchEntry.misaligned (e : FetchEntry) : Bool :=
  e.kind != 3 && (decide (e.sp % 512 ≠ 0) || (e.kind == 2 && decide (1 < e.pieces) && decide (e.piecePitch % 512 ≠ 0)) ||
    (e.dir == 2 && decide (e.ext.toNat % 512 ≠ 0)))

def State.fillOwn (s : State) (r : Req) (e : FetchEntry) : State :=
  let l := s.listBad r e
  let s := l.1
  match l.2 with
  | some w => s.requestStops r w
  | none =>
    let x := s.extRows r e
    let g := x.1.foldl (readRow r e) ⟨s, [], none⟩
    let f := g.s.fillRows r g.rows
    f.s.carried r (f.stop.orElse (fun _ => g.stop.orElse (fun _ => x.2.map (fun a => Stop.fault (engineFault r 0x0602 a)))))

def State.localMove (s : State) (r : Req) (e : FetchEntry) : State :=
  let x := s.sourceRows r e
  let rows := if e.kind = 3 then ((x.rows.mapIdx (fun i b => e.turned i b)).flatten)
    else x.rows.mapIdx (fun i b => (spAdd e.ext.toNat ((i * e.extPitch : Nat) : Int), b))
  let s := x.s
  let s := if e.kind = 3 ∧ r.engine < 16 then s.bumpBy (Reg.COPY_TRANSPOSED_BYTES r.engine) ((x.rows.map (·.length)).foldl (· + ·) 0) else s
  let f := s.fillRows r rows
  f.s.carried r (f.stop.orElse (fun _ => x.stop))

/-- Rows of a write with their addresses: one out of range under IDX_MODE 1 is written as zero and counted (R248). -/
structure Outgoing where
  s    : State
  rows : List (Nat × List Byte)
  stop : Option Stop

def State.writeRows (s : State) (r : Req) (e : FetchEntry) : Outgoing :=
  let l := s.listBad r e
  match l.2 with
  | some w => ⟨l.1, [], some w⟩
  | none =>
    let x := l.1.sourceRows r e
    let y := x.s.extRows r e
    let pairs := x.rows.zip y.1
    ⟨x.s.rangeMisses r (pairs.filter (fun z => z.2.2.isNone)).length,
     pairs.map (fun z => match z.2.2 with
       | some a => (a, z.1)
       | none => ((x.s.rowAt r e z.2.1).1, List.replicate z.1.length 0)),
     x.stop.orElse (fun _ => y.2.map (fun a => Stop.fault (engineFault r 0x0602 a)))⟩

/-- A write into a command window: one write of 64 bytes, or a form that the unit refuses (R142, R292). -/
def State.commandRequest (s : State) (r : Req) (w : Nat × Nat × Nat) (rows : List (Nat × List Byte)) (stop : Option Stop) : State :=
  match stop, rows with
  | some x, _ => s.requestStops r x
  | none, [row] => s.windowWrite w.1 w.2.1 (.core (BitVec.ofNat 6 r.core).toFin r.id) w.2.2 row.2
  | none, _ => s.windowWrite w.1 w.2.1 (.core (BitVec.ofNat 6 r.core).toFin r.id) w.2.2 []

def State.writeOwn (s : State) (r : Req) (rows : List (Nat × List Byte)) (stop : Option Stop) : State :=
  match rows.head?.bind (fun x => s.commandAt x.1) with
  | some w => s.commandRequest r w rows stop
  | none =>
    let g := s.storeRuns r rows
    g.s.carried r (g.stop.orElse (fun _ => stop))

/-! ### Requests to other endpoints (R342, R347, R348) -/

/-- Runs at rising addresses with neighbours joined. -/
def joinExt : List (Nat × List Byte) → List (Nat × List Byte)
  | [] => []
  | x :: xs =>
    match joinExt xs with
    | y :: ys => if y.1 = x.1 + x.2.length then (x.1, x.2 ++ y.2) :: ys else x :: y :: ys
    | [] => [x]

structure Line where
  id : FlowId
  h  : Hdr

/-- Flow and header of a core's message of a type (R345, R346, R352). -/
def State.line (s : State) (r : Req) (type a : Nat) : Line :=
  let q := 64 * r.core + r.fq
  let p := peerOf a
  let c := s.coreClass r.slot p.1 p.2
  ⟨flowTo p.1 p.2 (s.planeFor q) c.1 q, { s.header type c.1 q p.1 p.2 with phaseTag := c.2 }⟩

/-- WRITE messages of a request under one TAG, the last block marked. -/
def State.writeAway (s : State) (r : Req) (runs : List (Nat × List Byte)) : State :=
  match runs.head? with
  | none => s.begun r false
  | some x =>
    let p := peerOf x.1
    let t := s.nextTag
    let n := (runs.map (fun y => y.2.length)).foldl (· + ·) 0
    let s := (t.2.nocWrite r x.1 n).addRemote ⟨t.1, p.1, p.2, BitVec.ofNat 64 x.1, n, .fetch r.id [], []⟩
    let s := (runs.zipIdx).foldl (fun u y =>
      let l := u.line r 0 y.1.1
      u.sendRun l.id { l.h with tag := t.1, addr := BitVec.ofNat 64 y.1.1, last := y.2 + 1 == runs.length } y.1.2) s
    s.begun r true

/-- Where the pieces of a result go: offset in the result, key of the scratchpads, length. -/
def resultDest (r : Req) (e : FetchEntry) (rows : List Nat) : List (Nat × Nat × Nat) :=
  rows.mapIdx (fun k i => (k * e.rowBytes, spKey r.core (spAdd e.sp (e.spPitch * i)), e.rowBytes))

/-- Rows next to each other at the peer, as one READ each: first row's address, rows. -/
def joinReads (n : Nat) : List (Nat × Nat) → List (Nat × List Nat)
  | [] => []
  | (i, a) :: xs =>
    match joinReads n xs with
    | (b, is) :: ys => if b = a + n ∧ n * (is.length + 1) < 2 ^ 32 then (a, i :: is) :: ys else (a, [i]) :: (b, is) :: ys
    | [] => [(a, [i])]

/-- A READ of rows that lie together. -/
def State.readAway (s : State) (r : Req) (e : FetchEntry) (x : Nat × List Nat) : State :=
  let p := peerOf x.1
  let t := s.nextTag
  let n := e.rowBytes * x.2.length
  let s := t.2.addRemote ⟨t.1, p.1, p.2, BitVec.ofNat 64 x.1, n, .fetch r.id (resultDest r e x.2), []⟩
  let l := s.line r 1 x.1
  s.sendBare l.id { l.h with tag := t.1, addr := BitVec.ofNat 64 x.1, len := BitVec.ofNat 32 n, last := true }

/-- A GATHER of at most 510 coordinates (Table 12.7). -/
def State.gatherAway (s : State) (r : Req) (e : FetchEntry) (rows : List Nat) : State :=
  let a := e.ext.toNat
  let p := peerOf a
  let t := s.nextTag
  let s := t.2.addRemote ⟨t.1, p.1, p.2, e.ext, e.rowBytes * rows.length, .fetch r.id (resultDest r e rows), []⟩
  let coord := fun (i : Nat) =>
    let w := fun (o : Nat) => natAt s.mem.cells (spKey r.core (spAdd e.list (8 * i + o : Nat))) 4
    leBytes 4 (w 0) ++ leBytes 4 (w 4 * e.rowBytes)
  let l := s.line r 10 a
  s.enqueue l.id { l.h with tag := t.1, addr := e.ext, last := true }
    (leBytes 8 e.extPitch ++ leBytes 4 e.rowBytes ++ leBytes 4 0 ++ rows.flatMap coord)

def chunks {α : Type} (n : Nat) (xs : List α) : List (List α) :=
  (List.range (ceilDiv xs.length n)).map (fun i => (xs.drop (n * i)).take n)

/-- Destination blocks of FULL_BLOCK regions are written whole from the start, rows out of range with zero. -/
def State.awayZero (s : State) (r : Req) (e : FetchEntry) (rows : List (Nat × Option Nat)) : Filling :=
  let dests : List (Nat × Option Nat) := rows.map (fun x => (spAdd e.sp (e.spPitch * x.1), x.2))
  let whole := fun (a : Nat) => ((s.regionAt (spCore r.core a) (spOff a)).map (fun g => g.2.fullBlock)).getD false
  s.fillRows r (dests.filterMap (fun (d : Nat × Option Nat) =>
    if d.2.isNone || whole d.1 then some (d.1, List.replicate e.rowBytes (0 : Byte)) else none))

def State.fillAway (s : State) (r : Req) (e : FetchEntry) : State :=
  let l := s.listBad r e
  let s := l.1
  match l.2 with
  | some w => s.requestStops r w
  | none =>
    let x := s.extRows r e
    match x.2 with
    | some a => s.requestStops r (.fault (engineFault r 0x0602 a))
    | none =>
      let f := s.awayZero r e x.1
      match f.stop with
      | some w => f.s.requestStops r w
      | none =>
        let rows := x.1.filterMap (fun y => y.2.map (fun a => (y.1, a)))
        let s := f.s.rangeMisses r (x.1.length - rows.length)
        let s := if e.kind = 1 then (chunks 510 (rows.map (·.1))).foldl (fun t c => t.gatherAway r e c) s
          else (joinReads e.rowBytes rows).foldl (fun t c => t.readAway r e c) s
        s.begun r (!rows.isEmpty)

/-- A request whose peer cannot be asked: unreachable, or below the generation it needs. -/
def State.awayFault (s : State) (r : Req) (a : Nat) (blockList : Bool) : Option FaultAt :=
  let p := peerOf a
  if !s.reachable p.1 p.2 then some (reqFault r 0x0902 clsFabric (s.planeFor (64 * r.core + r.fq)) a)
  else if blockList ∧ s.genOf p.1 p.2 < 2 then some (reqFault r 0x0901 clsCore r.core a)
  else none

/-! ### A tile's request (R217) -/

/-- Bytes of a tile in ascending runs; bits outside a byte's mask are those now there. -/
def State.tileRuns (s : State) (bytes : List (Nat × Byte × Byte)) (a : Nat) : List (Nat × List Byte) :=
  let sorted : List (Nat × Byte × Byte) := bytes.foldl (fun t b => tput t b.1 b.2) []
  let old := fun (o : Nat) =>
    if zEndpoint a = s.moduleNum ∧ zSpace a < 2 then byteAt s.mem.cells (if zSpace a = 0 then zOff a + o else lpKey (zOff a + o)) else 0
  (runsOf sorted).map (fun x => (zAdd a x.1, x.2.mapIdx (fun i b => (old (x.1 + i) &&& ~~~b.2) ||| (b.1 &&& b.2))))

/-! ### The commands -/

/-- A request is carried out, as far as this module goes. -/
def State.carryOut (s : State) (r : Req) : State :=
  match r.what with
  | .tile bytes addr =>
    let a := addr.toNat
    if s.isOwn a then s.writeOwn r (s.tileRuns bytes a) none
    else match s.awayFault r a false with
      | some f => s.requestStops r (.fault f)
      | none => s.writeAway r (s.tileRuns bytes a)
  | .fetch e _ =>
    let a := e.ext.toNat
    let s := if e.misaligned ∧ r.engine < 16 then s.bump (Reg.COPY_MISALIGNED_REQUESTS r.engine) else s
    if e.dir = 2 then s.localMove r e
    else if s.isOwn a then
      if e.dir = 0 then s.fillOwn r e
      else
        let w := s.writeRows r e
        w.s.writeOwn r w.rows w.stop
    else match s.awayFault r a (e.kind = 1) with
      | some f => s.requestStops r (.fault f)
      | none =>
        if e.dir = 0 then s.fillAway r e
        else
          let w := s.writeRows r e
          let t := w.s.writeAway r (joinExt w.rows)
          match w.stop with
          | some x => t.requestStops r x
          | none => t

def State.copyStart (s : State) (e : Nat) : State :=
  match s.nextRequest e with
  | none => s
  | some r => s.carryOut r

def execCopyRequestStart (e : Fin 18) (s : State) : Result := done (s.copyStart e)

/-- FETCH_COMPLETE: the request leaves its queue, its blocks are no longer pending, its token counts it (R37, R41). -/
def State.fetchComplete (s : State) (id : Nat) : State :=
  match s.run.reqs.find? (fun r => r.id == id) with
  | none => s
  | some r =>
    if !r.started || r.waiting then s
    else
      let s := { s with run := { s.run with
        reqs := s.run.reqs.filter (fun x => x.id != id), copyBusy := s.run.copyBusy.filter (fun x => x.2 != id) } }
      let s := if r.engine < 16 then s.bump (Reg.COPY_REQUESTS r.engine) else s
      match r.token with
      | some t => s.requestDone r.core t
      | none => s

def execFetchComplete (request : Nat) (s : State) : Result := done (s.fetchComplete request)

end Sys2Proof.Machine
end

