-- ==== Sys2Proof/Machine/Dispatch.lean ====
section
/-! DEFINITION. One arm per row of the opcode table: a direct call of its meaning. -/

namespace Sys2Proof.Machine

def exec (i : Instr) (s : State) : Host.Outcome State Fault Refusal :=
  match i with
  | .nop f => Sys2Proof.Machine.execNop f s
  | .regRead f count addr => Sys2Proof.Machine.execRegRead f count addr s
  | .regWrite f addr data => Sys2Proof.Machine.execRegWrite f addr data s
  | .regModify f addr data => Sys2Proof.Machine.execRegModify f addr data s
  | .memRead f count addr => Sys2Proof.Machine.execMemRead f count addr s
  | .memWrite f addr data => Sys2Proof.Machine.execMemWrite f addr data s
  | .doorbellSubmissionTail f queue index => Sys2Proof.Machine.execDoorbellSubmissionTail f queue index s
  | .doorbellCompletionHead f queue index => Sys2Proof.Machine.execDoorbellCompletionHead f queue index s
  | .eventFetch f count fromSeq ackSeq => Sys2Proof.Machine.execEventFetch f count fromSeq ackSeq s
  | .attest f nonce => Sys2Proof.Machine.execAttest f nonce s
  | .twinDigests f step records => Sys2Proof.Machine.execTwinDigests f step records s
  | .safetyReportReply receiver status reqId => Sys2Proof.Machine.execSafetyReportReply receiver status reqId s
  | .submissionStart q => Sys2Proof.Machine.execSubmissionStart q s
  | .sqNop q index => Sys2Proof.Machine.execSqNop q index s
  | .copy q index => Sys2Proof.Machine.execCopy q index s
  | .fill q index => Sys2Proof.Machine.execFill q index s
  | .digest q index => Sys2Proof.Machine.execDigest q index s
  | .planLoad q index => Sys2Proof.Machine.execPlanLoad q index s
  | .sqFence q index => Sys2Proof.Machine.execSqFence q index s
  | .queueEnable q word0 => Sys2Proof.Machine.execQueueEnable q word0 s
  | .queueDisable q => Sys2Proof.Machine.execQueueDisable q s
  | .runStart => Sys2Proof.Machine.execRunStart s
  | .runEnd => Sys2Proof.Machine.execRunEnd s
  | .abort => Sys2Proof.Machine.execAbort s
  | .retryArm hi => Sys2Proof.Machine.execRetryArm hi s
  | .variantRequest v => Sys2Proof.Machine.execVariantRequest v s
  | .shapeArm => Sys2Proof.Machine.execShapeArm s
  | .hpArm => Sys2Proof.Machine.execHpArm s
  | .snapRequest id => Sys2Proof.Machine.execSnapRequest id s
  | .sepCmdSubmit st => Sys2Proof.Machine.execSepCmdSubmit st s
  | .updCmdSubmit st => Sys2Proof.Machine.execUpdCmdSubmit st s
  | .flipMaskArm b hi => Sys2Proof.Machine.execFlipMaskArm b hi s
  | .eventLatchClear b bits => Sys2Proof.Machine.execEventLatchClear b bits s
  | .clearCounters b => Sys2Proof.Machine.execClearCounters b s
  | .attnAckIdentity => Sys2Proof.Machine.execAttnAckIdentity s
  | .safeRelease v => Sys2Proof.Machine.execSafeRelease v s
  | .stopRequest => Sys2Proof.Machine.execStopRequest s
  | .moduleNumberWrite v => Sys2Proof.Machine.execModuleNumberWrite v s
  | .codeRegionWordWrite st ix w => Sys2Proof.Machine.execCodeRegionWordWrite st ix w s
  | .portConfigWrite p w => Sys2Proof.Machine.execPortConfigWrite p w s
  | .pailConfigWrite b w => Sys2Proof.Machine.execPailConfigWrite b w s
  | .restoreStart onlyInconsistent => Sys2Proof.Machine.execRestoreStart onlyInconsistent s
  | .restoreAbort => Sys2Proof.Machine.execRestoreAbort s
  | .activateArm hi => Sys2Proof.Machine.execActivateArm hi s
  | .activateCancel => Sys2Proof.Machine.execActivateCancel s
  | .svnCommit v => Sys2Proof.Machine.execSvnCommit v s
  | .stageStart kind => Sys2Proof.Machine.execStageStart kind s
  | .bind => Sys2Proof.Machine.execBind s
  | .unbind => Sys2Proof.Machine.execUnbind s
  | .parlourStageOffsetWrite v => Sys2Proof.Machine.execParlourStageOffsetWrite v s
  | .parlourStageAppend data => Sys2Proof.Machine.execParlourStageAppend data s
  | .parlourCommit => Sys2Proof.Machine.execParlourCommit s
  | .parlourActivate => Sys2Proof.Machine.execParlourActivate s
  | .anchorSet ix => Sys2Proof.Machine.execAnchorSet ix s
  | .anchorClear ix => Sys2Proof.Machine.execAnchorClear ix s
  | .calSelectWrite id => Sys2Proof.Machine.execCalSelectWrite id s
  | .userSet => Sys2Proof.Machine.execUserSet s
  | .userClear => Sys2Proof.Machine.execUserClear s
  | .userClearAll => Sys2Proof.Machine.execUserClearAll s
  | .readClearField addr => Sys2Proof.Machine.execReadClearField addr s
  | .phaseLoRead => Sys2Proof.Machine.execPhaseLoRead s
  | .plainRegisterWrite addr v => Sys2Proof.Machine.execPlainRegisterWrite addr v s
  | .syncIntervalEnd => Sys2Proof.Machine.execSyncIntervalEnd s
  | .phaseLost => Sys2Proof.Machine.execPhaseLost s
  | .slewCorrection => Sys2Proof.Machine.execSlewCorrection s
  | .sync p t1 t2 => Sys2Proof.Machine.execSync p t1 t2 s
  | .delayResp p t3 t4 => Sys2Proof.Machine.execDelayResp p t3 t4 s
  | .segmentRelease c => Sys2Proof.Machine.execSegmentRelease c s
  | .stallCauseStart c cause => Sys2Proof.Machine.execStallCauseStart c cause s
  | .stallCauseClear c cause => Sys2Proof.Machine.execStallCauseClear c cause s
  | .herdFreeze h => Sys2Proof.Machine.execHerdFreeze h s
  | .herdResume h => Sys2Proof.Machine.execHerdResume h s
  | .late c => Sys2Proof.Machine.execLate c s
  | .passSwap c => Sys2Proof.Machine.execPassSwap c s
  | .shadowLoadComplete c => Sys2Proof.Machine.execShadowLoadComplete c s
  | .chunkSum c => Sys2Proof.Machine.execChunkSum c s
  | .drainRow c => Sys2Proof.Machine.execDrainRow c s
  | .rerunRestart c => Sys2Proof.Machine.execRerunRestart c s
  | .segmentEnd c => Sys2Proof.Machine.execSegmentEnd c s
  | .fetchComplete request => Sys2Proof.Machine.execFetchComplete request s
  | .copyRequestStart e => Sys2Proof.Machine.execCopyRequestStart e s
  | .elasticPromotion c => Sys2Proof.Machine.execElasticPromotion c s
  | .stepBoundary => Sys2Proof.Machine.execStepBoundary s
  | .safetySelftest missing => Sys2Proof.Machine.execSafetySelftest missing s
  | .initialMilkRun c => Sys2Proof.Machine.execInitialMilkRun c s
  | .completionPass st => Sys2Proof.Machine.execCompletionPass st s
  | .sepCommandArrive st src offset data => Sys2Proof.Machine.execSepCommandArrive st src offset data s
  | .prune st => Sys2Proof.Machine.execPrune st s
  | .regrow st => Sys2Proof.Machine.execRegrow st s
  | .audit st => Sys2Proof.Machine.execAudit st s
  | .collect st => Sys2Proof.Machine.execCollect st s
  | .sepBatchWrite st wrong => Sys2Proof.Machine.execSepBatchWrite st wrong s
  | .intakeWrite st offset data => Sys2Proof.Machine.execIntakeWrite st offset data s
  | .updCommandArrive st src offset data => Sys2Proof.Machine.execUpdCommandArrive st src offset data s
  | .update st => Sys2Proof.Machine.execUpdate st s
  | .apply st => Sys2Proof.Machine.execApply st s
  | .derive st => Sys2Proof.Machine.execDerive st s
  | .exportShard st => Sys2Proof.Machine.execExportShard st s
  | .importShard st => Sys2Proof.Machine.execImportShard st s
  | .updBatch st residueOk parityOk => Sys2Proof.Machine.execUpdBatch st residueOk parityOk s
  | .mirrorAck st shard epoch => Sys2Proof.Machine.execMirrorAck st shard epoch s
  | .mirrorWaitExpiry st shard => Sys2Proof.Machine.execMirrorWaitExpiry st shard s
  | .snapshotRecordAck st shard => Sys2Proof.Machine.execSnapshotRecordAck st shard s
  | .digestWaitExpiry st shard => Sys2Proof.Machine.execDigestWaitExpiry st shard s
  | .twinLost => Sys2Proof.Machine.execTwinLost s
  | .churnChunk st => Sys2Proof.Machine.execChurnChunk st s
  | .pailLeak b => Sys2Proof.Machine.execPailLeak b s
  | .invalidationAck st => Sys2Proof.Machine.execInvalidationAck st s
  | .write r => Sys2Proof.Machine.execWrite r s
  | .read r => Sys2Proof.Machine.execRead r s
  | .readData r => Sys2Proof.Machine.execReadData r s
  | .ack r => Sys2Proof.Machine.execAck r s
  | .nak r => Sys2Proof.Machine.execNak r s
  | .writeDone r => Sys2Proof.Machine.execWriteDone r s
  | .creditReq r => Sys2Proof.Machine.execCreditReq r s
  | .creditGrant r => Sys2Proof.Machine.execCreditGrant r s
  | .control r => Sys2Proof.Machine.execControl r s
  | .join o => Sys2Proof.Machine.execJoin o s
  | .gather r => Sys2Proof.Machine.execGather r s
  | .reduce r => Sys2Proof.Machine.execReduce r s
  | .redHoldRelease entry unit => Sys2Proof.Machine.execRedHoldRelease entry unit s
  | .notice r => Sys2Proof.Machine.execNotice r s
  | .pauseFrame p => Sys2Proof.Machine.execPauseFrame p s
  | .ackTimer f => Sys2Proof.Machine.execAckTimer f s
  | .nakTimer f => Sys2Proof.Machine.execNakTimer f s
  | .retryTimeout f seq => Sys2Proof.Machine.execRetryTimeout f seq s
  | .frameSend p => Sys2Proof.Machine.execFrameSend p s
  | .creditReturn c => Sys2Proof.Machine.execCreditReturn c s
  | .macsecRekey peer host => Sys2Proof.Machine.execMacsecRekey peer host s
  | .joinRetryTimer peer host plane => Sys2Proof.Machine.execJoinRetryTimer peer host plane s
  | .portUp p => Sys2Proof.Machine.execPortUp p s
  | .portDown p => Sys2Proof.Machine.execPortDown p s
  | .portDownHoldExpiry p => Sys2Proof.Machine.execPortDownHoldExpiry p s
  | .slotEdge parlourAcks => Sys2Proof.Machine.execSlotEdge parlourAcks s
  | .heartbeatIntervalExpiry => Sys2Proof.Machine.execHeartbeatIntervalExpiry s
  | .safetyLockstepMismatch => Sys2Proof.Machine.execSafetyLockstepMismatch s
  | .parlourLockstepReset => Sys2Proof.Machine.execParlourLockstepReset s
  | .stopAcksComplete => Sys2Proof.Machine.execStopAcksComplete s
  | .safetyReportSend => Sys2Proof.Machine.execSafetyReportSend s
  | .reportResendTimer => Sys2Proof.Machine.execReportResendTimer s
  | .auxRailUp => Sys2Proof.Machine.execAuxRailUp s
  | .auxRailLoss => Sys2Proof.Machine.execAuxRailLoss s
  | .inputQualified => Sys2Proof.Machine.execInputQualified s
  | .railsInRegulation => Sys2Proof.Machine.execRailsInRegulation s
  | .dieStart r => Sys2Proof.Machine.execDieStart r s
  | .stackTrained st => Sys2Proof.Machine.execStackTrained st s
  | .startTimeout => Sys2Proof.Machine.execStartTimeout s
  | .supplyWarning => Sys2Proof.Machine.execSupplyWarning s
  | .supplyClear => Sys2Proof.Machine.execSupplyClear s
  | .supplyResume => Sys2Proof.Machine.execSupplyResume s
  | .supplyHold => Sys2Proof.Machine.execSupplyHold s
  | .supplyReset => Sys2Proof.Machine.execSupplyReset s
  | .senseBladeUnmate => Sys2Proof.Machine.execSenseBladeUnmate s
  | .droopTrip q => Sys2Proof.Machine.execDroopTrip q s
  | .droopRecover q => Sys2Proof.Machine.execDroopRecover q s
  | .thermalSample t => Sys2Proof.Machine.execThermalSample t s
  | .thermalTripTimer => Sys2Proof.Machine.execThermalTripTimer s
  | .refclkPortLoss c => Sys2Proof.Machine.execRefclkPortLoss c s
  | .refclkDieLoss => Sys2Proof.Machine.execRefclkDieLoss s
  | .refclkDieReturn => Sys2Proof.Machine.execRefclkDieReturn s
  | .refclkDieTimeout => Sys2Proof.Machine.execRefclkDieTimeout s
  | .activationTick => Sys2Proof.Machine.execActivationTick s
  | .senseBladeMate => Sys2Proof.Machine.execSenseBladeMate s
  | .bulkNodeCrossing rising => Sys2Proof.Machine.execBulkNodeCrossing rising s
  | .tierTrained c => Sys2Proof.Machine.execTierTrained c s
  | .stagingComplete => Sys2Proof.Machine.execStagingComplete s

end Sys2Proof.Machine
end

