-- ==== Sys2Proof/Machine/Tick.lean ====
section
/-!
DEFINITION. One cycle of the core clock, which is what a step does when no command waits (log entry 13): the phase (R27,
R29), frozen cores (R43 to R45), the cycle counters, the admission buffers and the queues of the Steward (R439 to R441),
requests of others that waited (R23, R347), a snapshot's copy that waited for working passes (R319), and what each Churn may
read (R279).
-/

namespace Sys2Proof.Machine

/-! ### The phase (R27, R29) -/

/-- A cycle of the clock; the seventh ends the tick, which adds 1 to the phase, or 0 or 2 where a correction is made. -/
def Clock.cycle (c : Clock) (counts : Bool) : Clock :=
  if !counts then { c with now := c.now + 1 }
  else if c.sub < 6 then { c with now := c.now + 1, sub := c.sub + 1 }
  else { c with now := c.now + 1, sub := 0, ticks := c.ticks + c.slew.getD 1,
                phase := c.phase + BitVec.ofNat 64 (c.slew.getD 1), slew := none }

/-- EVENT_RAW shows the causes met in the present cycle (R390). -/
def State.quietRaw (s : State) : State :=
  { s with regs := s.regs.filter (fun r => !(fieldOf r.1 15 12 == 0 && r.1 % 0x1000 == Reg.EVENT_RAW 0 0 % 0x1000)) }

/-! ### Frozen cores (R43 to R45) -/

/-- One frozen cycle of a core: counted, and slip of a segment that is not reloading. -/
def State.frozenCycle (s : State) (c : Nat) : State :=
  let s := s.bump (Reg.CORE_STALL_CYCLES c)
  match (s.core c).seg with
  | none => s
  | some g =>
    if g.status = .reloading ∨ g.untrusted then s
    else
      let g := { g with slip := g.slip + 1 }
      (s.setSeg c g).noteSlack c g

/-- SLACK_MIN follows the slip of segments that reload or are untrusted, which grows with every cycle (R45, R46). -/
def State.slackCycles (s : State) : State :=
  (List.range 64).foldl (fun t c => match (t.core c).seg with
    | some g => if g.status = .reloading ∨ g.untrusted then t.noteSlack c g else t
    | none => t) s

def State.frozenCycles (s : State) : State :=
  (List.range 64).foldl (fun t c => if (t.herd (t.core c).herd).frozen then t.frozenCycle c else t) s

/-! ### Cycle counters -/

/-- A chiplet's retry store has no room for the next new block of some flow (R340). -/
def State.retryFull (s : State) (c : Nat) : Bool :=
  s.fab.tx.any (fun f => s.livePlane f.id.plane == c && (match f.blocks.find? (fun b => !b.sent && b.cargo.hdr.nblk != 0) with
    | some b => decide (retryStore < s.retryBytes c + b.cargo.data.length)
    | none => false))

/-- Some completed unit of an engine waits for its shard's update (R361). -/
def State.redWaits (s : State) (e : Nat) : Bool :=
  s.fab.redLines.any (fun l => l.full && (s.redEntry l.entry).any (fun x => x.engine == e && s.redHeld x))

/-- The intake buffer of a Separator is full, and holds a write of the fabric or a reduced unit (R151). -/
def State.intakeFull (s : State) (st : Nat) : Bool :=
  s.fab.heldReads.any (fun x => x.2.hdr.type != 1 && s.intakeHolds x.2.hdr.addr.toNat x.2.data.length == some st) ||
    s.fab.redLines.any (fun l => l.full && (s.redEntry l.entry).any (fun e =>
      s.intakeHolds (e.unitAddr l.unit) (e.unitBytes l.unit) == some st))

def State.countCycle (s : State) : State :=
  let s := (List.range 16).foldl (fun t e => if t.copyWaits e then t.bump (Reg.COPY_PENDING_WAIT_CYCLES e) else t) s
  let s := (List.range 2).foldl (fun t c =>
    let t := if t.retryFull c then t.bump (Reg.FABRIC_RETRY_FULL_CYCLES c) else t
    if t.redWaits c then t.bump (Reg.FABRIC_RED_HOLD_CYCLES c) else t) s
  (List.range 12).foldl (fun t st => if t.intakeFull st then t.bump (Reg.SEP_INTAKE_HOLDS st) else t) s

/-- The Steward takes one message from each port's admission buffer every 100 ns (R439). -/
def State.drainAdmission (s : State) : State :=
  if s.clock.now % 70 = 0 then
    (List.range 8).foldl (fun t p =>
      if (t.port p).admitted = 0 then t else t.setPort p { t.port p with admitted := (t.port p).admitted - 1 }) s
  else s

/-- The Steward signs 100 attestation reports and completes 500 join exchanges in a second (R440, R441: at least; log
entry 50). -/
def State.drainSteward (s : State) : State :=
  let s := if s.clock.now % 7000000 = 0 then { s with ctl := { s.ctl with signing := s.ctl.signing - 1 } } else s
  if s.clock.now % 1400000 = 0 then { s with fab := { s.fab with joining := s.fab.joining - 1 } } else s

/-! ### The cycle -/

/-- The die's part of a cycle. -/
def State.dieCycle (s : State) : State :=
  let s := s.frozenCycles.slackCycles.countCycle.drainAdmission.drainSteward
  let s := if s.fab.heldReads.isEmpty then s else s.serveHeld
  let s := if s.run.snap.isSome then s.goSnapshot else s
  let s := if s.boot.writing.isSome then { s with boot := { s.boot with writing := none } } else s
  let s := if !s.mem.owed.isEmpty || s.upds.any (fun u => u.2.sepOwed.isSome) then s.payOwed else s
  s.churnOwe.settle

/-- Nothing moves in a module without its auxiliary rail; Parlour's clock runs from then on, the die's with its reset
released and its reference present (log entry 13). -/
def tick (s : State) : State :=
  if !s.power.aux then s
  else
    let counts := s.power.die && s.power.refclkDie
    let s := if counts then s.dieCycle else s
    let ends := counts && decide (6 ≤ s.clock.sub)
    let s := if counts then s.quietRaw else s
    let s := { s with clock := s.clock.cycle counts }
    if ends then s.sendDelayReqs else s

end Sys2Proof.Machine
end

