-- ==== Sys2Proof/Safety.lean ====
section
/-!
DEFINITION. What counts as a safe step and a sound state, in the terms the statements use.
-/

namespace Sys2Proof.Machine

/-- A step that answers a next state: no fault of the block, no refusal. -/
def Safe (s : State) : Prop := ∃ t, step s = .next t

/-- Keys of a table strictly rising, so that equal tables are equal data. -/
def tabWf {α : Type} (t : Tab α) : Bool := decide (t.Pairwise (fun a b => a.1 < b.1))

/-- The memory's canonical form. -/
def State.MemoryCanonical (s : State) : Prop := s.mem.wf = true

/-- The log's records rise by SEQ, below the number the next one takes, and are no more than the log holds (R391). -/
def State.LogInOrder (s : State) : Prop :=
  s.ctl.log.Pairwise (fun a b => a.seq < b.seq) ∧ (∀ r ∈ s.ctl.log, r.seq < s.ctl.nextSeq) ∧ s.ctl.log.length ≤ logCapacity

/-- The heads and tails of an enabled queue pair name entries of its rings (R395, R398). -/
def State.RingsInOrder (s : State) : Prop :=
  ∀ q, (s.pair q).enable = true → (s.pair q).sqTail < 2 ^ (s.pair q).sqExp ∧ (s.pair q).sqHead < 2 ^ (s.pair q).sqExp ∧
    (s.pair q).cqTail < 2 ^ (s.pair q).cqExp ∧ (s.pair q).cqHead < 2 ^ (s.pair q).cqExp

/-- The commands still waiting after a step are those behind the one it took. -/
def State.QueueAdvances (s t : State) : Prop := t.pending = s.pending.tail

/-- No stored bit of a stack differs from its code word, and no unit waits to be written under a new code. -/
def State.CleanStacks (s : State) : Prop := s.mem.errs = [] ∧ s.mem.recoded = []

/-- Clean stacks, of which no test mask waits to change a written word (R287). -/
def State.QuietStacks (s : State) : Prop := s.CleanStacks ∧ ∀ st : Fin 12, s.armed clsHbm st = none

/-- No line of the memory-side cache differs from its code words, and no test mask waits to change one. -/
def State.CleanCaches (s : State) : Prop := (∀ c ∈ s.mem.cache, c.2.errs = []) ∧ ∀ q : Fin 4, s.armed clsMsc q = none

/-- A run of the second tier is read as it stands: no test mask waits at its chiplet, and every burst of it comes through. -/
abbrev State.TierReads (s : State) (off n : Nat) : Prop := s.armed clsLpddr (lpChip off) = none ∧ s.lpUnread off n = none

/-- A run of the second tier is written as it stands: the data units that the write covers in part are read for their merge. -/
abbrev State.TierTakes (s : State) (off n : Nat) : Prop := ∀ u ∈ partialUnits off n, s.TierReads u 512

/-- Memory after these writes in turn. -/
def stores (cells : List Host.Cell) (ws : List (Nat × List Byte)) : List Host.Cell :=
  ws.foldl (fun cs w => setBytes cs w.1 w.2) cells

/-- An address lies in none of these runs of bytes. -/
def Outside (a : Nat) (runs : List (Nat × Nat)) : Prop := ∀ r ∈ runs, ¬ (r.1 ≤ a ∧ a < r.1 + r.2)

/-- The runs of a base die that a batch of an update command writes beside its planes: the shard's journal entry, and what
the undo region keeps of these writes. -/
def State.updRuns (s : State) (st shard : Nat) (ws : List (Nat × List Byte)) : List (Nat × Nat) :=
  ((s.journal st shard).map (·, 64)).toList ++ ((s.undoAt st 1).map (·, (ws.map (·.2.length)).foldl (· + ·) 0)).toList

/-- The log holds a fault record of a code, of a block, stamped with a phase. -/
def State.Recorded (t : State) (code cls : Nat) (phase : DWord) : Prop :=
  ∃ x ∈ t.ctl.log, x.kind = 1 ∧ x.code = code ∧ x.cls = cls ∧ x.phase = phase

/-- Where a queue pair's next completion record goes (R400). -/
def State.ringPlace (s : State) (q : Nat) : Nat := (s.pair q).cqBase + 16 * (s.pair q).cqTail

/-- A completion record (Table 13.12). -/
def completion (tag status ix : Nat) (phase : Bool) (result : Nat) : List Byte :=
  leBytes 4 tag ++ leBytes 4 (status * 2 ^ 24 + ix % 2 ^ 16 * 2 ^ 8 + bnat phase) ++ leBytes 8 result

/-- An entry in progress has completed: its record stands in the ring, the tail has moved on, its place is given back. -/
def State.Completed (s t : State) (q ix tag status result : Nat) : Prop :=
  bytesAt t.mem.cells (s.ringPlace q) 16 = completion tag status ix (s.pair q).phase result ∧
  (t.pair q).cqTail = ((s.pair q).cqTail + 1) % 2 ^ (s.pair q).cqExp ∧
  (t.pair q).busy = (s.pair q).busy.filter (fun e => e.1 != ix) ∧
  t.reg Reg.QMGR_SUBMISSIONS = (s.reg Reg.QMGR_SUBMISSIONS + 1) % 2 ^ 32

/-! ### Frames and messages -/

/-- A port hears a frame of a type: the die runs, the port is live, the module has its number, the sender has joined, and
every check of a frame (R333, R335, R344) holds. -/
def State.Hears (s : State) (type : Nat) (r : Rx) (p : Peer) : Prop :=
  s.power.die = true ∧ s.portLive r.port.val = true ∧ s.numbered = true ∧
  s.peerOn r.hdr.src r.hdr.srcHost (r.port.val / 4) = some p ∧ r.icvOk = true ∧ (r.newKey = true ∨ p.oldKey.isSome = true) ∧
  p.inWindow r = true ∧ r.udpOk = true ∧ typeOk p.gen type r = true ∧ r.hdr.dstHost = false ∧ r.hdr.dst = s.moduleNum

/-- Its one block is whole and the next of its flow, with nothing held before it. -/
def State.NextBlock (s : State) (r : Rx) (b : Block) : Prop :=
  r.blocks = [b] ∧ b.crc.toNat = crc32c b.data ∧ r.hdr.seq = (s.rxFlow (s.rxId r)).expect ∧
  (s.rxFlow (s.rxId r)).held = [] ∧ (s.rxFlow (s.rxId r)).unacked < 63

/-- The block has been taken: its flow expects the one behind it. -/
def State.TookBlock (s t : State) (r : Rx) : Prop :=
  (t.rxFlow (s.rxId r)).expect = (s.rxFlow (s.rxId r)).expect + 1 ∧ (t.rxFlow (s.rxId r)).held = []

/-- A frame of a type waits for a port, to a peer, with these fields. -/
def State.Waits (t : State) (type peer : Nat) (ok : Cargo → Prop) : Prop :=
  ∃ f ∈ t.fab.tx, ∃ b ∈ f.blocks, b.sent = false ∧ b.cargo.hdr.type = type ∧ b.cargo.hdr.dst = peer ∧ ok b.cargo

/-- A message of a session is served: the session stands, its queue is one of the queues, the module has locked or the
message may be served before (R387). -/
def State.Serves (s : State) (f : Session) (early : Bool) : Prop :=
  s.hasSession f = true ∧ 16 ≤ f.queue ∧ f.queue ≤ 4095 ∧ (f.parlour = true ∨ s.ethernetOpen = true ∨ early = true)

/-- A report as Parlour sends it to a receiver: TYPE 8, CLASS 2, queue 0, its one block with the CRC-32C of R334, to the UDP
port of REPORT_CONFIG (R429, R430); `i` numbers the receivers served at once. -/
def State.reportFrame (s : State) (r : Report) (i d : Nat) : Out :=
  let bytes := s.reportBytes r
  let h : Hdr := { s.header 8 2 0 d true with
    gen := tget 1 s.safety.gens d, nblk := 1, last := true, seq := Config.mgmtSeq (s.ctl.free + i) d,
    len := BitVec.ofNat 32 bytes.length }
  .mgmt d true (fieldOf (s.reg Reg.SAFETY_REPORT_CONFIG) 31 16) h.bytes (bytes ++ leBytes 4 (crc32c bytes))

/-- The last thing sent is the module's side of a JOIN exchange (R343, R462): a control frame's header with LAST on the
Steward's queue, the certificate chain, and a share signed by the identity key. -/
def State.SentJoin (s t : State) (peer : Nat) (host : Bool) (plane : Option Nat) : Prop :=
  ∃ share n, t.out = s.out ++ [.join peer host plane { s.header 9 2 stewardQueue peer host with last := true }.bytes
    Config.certificates share (Config.sign (sha512 (leBytes 132 share.toNat)) n)]

/-- The last thing done was to send this reply (R382, R385). -/
def State.Replied (t : State) (f : Session) (opcode status count detail : Nat) (data : List Byte) : Prop :=
  ∃ u : State, t = u.sendReply f opcode 0 ⟨u, status, count, detail, data⟩

/-! ### What a command leaves alone

A command that leaves a part of the state alone, whatever the state it acts on. -/

/-- The phase and its synchronization. -/
def leavesClock : Sys2Proof.Instr → Bool
  | .syncIntervalEnd | .phaseLost | .slewCorrection | .sync _ _ _ | .delayResp _ _ _ | .pailLeak _ | .auxRailLoss
  | .supplyResume | .supplyReset | .thermalSample _ | .thermalTripTimer | .refclkDieTimeout | .activationTick => false
  | _ => true

/-- The lane generators. -/
def leavesGenerators : Sys2Proof.Instr → Bool
  | .drainRow _ | .updBatch _ _ _ | .readData _ | .dieStart _ => false
  | _ => true

/-- The mirror images kept for the twin. -/
def leavesMirrors : Sys2Proof.Instr → Bool
  | .regWrite _ _ _ | .regModify _ _ _ | .runStart | .retryArm _ | .plainRegisterWrite _ _ | .copyRequestStart _
  | .completionPass _ | .sepBatchWrite _ _ | .mirrorAck _ _ _ | .mirrorWaitExpiry _ _ | .invalidationAck _ | .write _
  | .control _ | .auxRailLoss | .supplyResume | .supplyReset | .thermalSample _ | .thermalTripTimer | .refclkDieTimeout
  | .activationTick => false
  | _ => true

/-- Supplies, start-up and restore. -/
def leavesPower : Sys2Proof.Instr → Bool
  | .regWrite _ _ _ | .regModify _ _ _ | .moduleNumberWrite _ | .restoreStart _ | .restoreAbort | .parlourActivate
  | .plainRegisterWrite _ _ | .copyRequestStart _ | .stepBoundary | .write _ | .readData _ | .nak _ | .writeDone _
  | .control _ | .join _ | .retryTimeout _ _ | .parlourLockstepReset | .auxRailUp | .auxRailLoss | .inputQualified
  | .railsInRegulation | .dieStart _ | .stackTrained _ | .startTimeout | .supplyWarning | .supplyClear | .supplyResume
  | .supplyHold | .supplyReset | .senseBladeUnmate | .droopTrip _ | .droopRecover _ | .thermalSample _
  | .thermalTripTimer | .refclkDieLoss | .refclkDieReturn | .refclkDieTimeout | .activationTick | .senseBladeMate
  | .bulkNodeCrossing _ | .tierTrained _ => false
  | _ => true

/-- Settings, binding, images, fuses. -/
def leavesBoot : Sys2Proof.Instr → Bool
  | .regWrite _ _ _ | .regModify _ _ _ | .attnAckIdentity | .activateArm _ | .activateCancel | .svnCommit _
  | .stageStart _ | .bind | .unbind | .parlourCommit | .parlourActivate | .anchorSet _ | .anchorClear _ | .userSet
  | .userClear | .userClearAll | .plainRegisterWrite _ _ | .syncIntervalEnd | .copyRequestStart _ | .write _ | .nak _
  | .control _ | .join _ | .retryTimeout _ _ | .auxRailUp | .auxRailLoss | .dieStart _ | .supplyResume | .supplyReset
  | .thermalSample _ | .thermalTripTimer | .refclkDieTimeout | .activationTick | .stagingComplete => false
  | _ => true

/-- What the module has sent through Parlour or a port. -/
def leavesOut : Sys2Proof.Instr → Bool
  | .nop _ | .regRead _ _ _ | .regWrite _ _ _ | .regModify _ _ _ | .memRead _ _ _ | .memWrite _ _ _
  | .doorbellSubmissionTail _ _ _ | .doorbellCompletionHead _ _ _ | .eventFetch _ _ _ _ | .attest _ _
  | .twinDigests _ _ _ | .planLoad _ _ | .attnAckIdentity | .moduleNumberWrite _ | .bind | .plainRegisterWrite _ _
  | .copyRequestStart _ | .write _ | .read _ | .control _ | .join _ | .gather _ | .frameSend _ | .macsecRekey _ _
  | .joinRetryTimer _ _ _ | .portUp _ | .slotEdge _ | .safetyReportSend | .reportResendTimer => false
  | _ => true

/-- The plan and its run: sequencers, segments, requests. -/
def leavesRun : Sys2Proof.Instr → Bool
  | .nop _ | .regRead _ _ _ | .doorbellSubmissionTail _ _ _ | .doorbellCompletionHead _ _ _ | .eventFetch _ _ _ _
  | .attest _ _ | .safetyReportReply _ _ _ | .queueEnable _ _ | .queueDisable _ | .sepCmdSubmit _ | .updCmdSubmit _
  | .flipMaskArm _ _ | .eventLatchClear _ _ | .clearCounters _ | .attnAckIdentity | .safeRelease _ | .moduleNumberWrite _
  | .codeRegionWordWrite _ _ _ | .portConfigWrite _ _ | .pailConfigWrite _ _ | .restoreStart _ | .restoreAbort
  | .activateArm _ | .activateCancel | .svnCommit _ | .bind | .unbind | .parlourStageOffsetWrite _
  | .parlourStageAppend _ | .parlourCommit | .anchorSet _ | .anchorClear _ | .calSelectWrite _ | .userSet | .userClear
  | .userClearAll | .readClearField _ | .phaseLoRead | .syncIntervalEnd | .slewCorrection | .sync _ _ _
  | .delayResp _ _ _ | .elasticPromotion _ | .snapshotRecordAck _ _ | .digestWaitExpiry _ _ | .twinLost | .pailLeak _
  | .ack _ | .creditReq _ | .creditGrant _ | .notice _ | .pauseFrame _ | .ackTimer _ | .nakTimer _ | .frameSend _
  | .creditReturn _ | .macsecRekey _ _ | .joinRetryTimer _ _ _ | .portUp _ | .portDown _ | .portDownHoldExpiry _
  | .parlourLockstepReset | .stopAcksComplete | .safetyReportSend | .reportResendTimer | .inputQualified
  | .railsInRegulation | .stackTrained _ | .supplyClear | .senseBladeUnmate | .refclkPortLoss _ | .refclkDieReturn
  | .senseBladeMate | .bulkNodeCrossing _ | .tierTrained _ | .stagingComplete => true
  | _ => false

/-- The Separators. -/
def leavesSeparators : Sys2Proof.Instr → Bool
  | .regWrite _ _ _ | .regModify _ _ _ | .memRead _ _ _ | .memWrite _ _ _ | .twinDigests _ _ _ | .submissionStart _
  | .sqNop _ _ | .copy _ _ | .fill _ _ | .digest _ _ | .planLoad _ _ | .sqFence _ _ | .runStart | .abort | .retryArm _
  | .sepCmdSubmit _ | .updCmdSubmit _ | .stopRequest | .stageStart _ | .parlourActivate | .plainRegisterWrite _ _
  | .phaseLost | .segmentRelease _ | .late _ | .shadowLoadComplete _ | .chunkSum _ | .drainRow _ | .rerunRestart _
  | .segmentEnd _ | .copyRequestStart _ | .stepBoundary | .safetySelftest _ | .initialMilkRun _ | .completionPass _
  | .sepCommandArrive _ _ _ _ | .prune _ | .regrow _ | .audit _ | .collect _ | .sepBatchWrite _ _ | .intakeWrite _ _ _
  | .updCommandArrive _ _ _ _ | .update _ | .apply _ | .derive _ | .exportShard _ | .importShard _ | .updBatch _ _ _
  | .mirrorAck _ _ _ | .mirrorWaitExpiry _ _ | .churnChunk _ | .invalidationAck _ | .write _ | .read _ | .readData _
  | .nak _ | .writeDone _ | .control _ | .join _ | .gather _ | .reduce _ | .redHoldRelease _ _ | .retryTimeout _ _
  | .slotEdge _ | .heartbeatIntervalExpiry | .safetyLockstepMismatch | .auxRailUp | .auxRailLoss | .dieStart _
  | .startTimeout | .supplyResume | .supplyHold | .supplyReset | .droopRecover _ | .thermalSample _ | .thermalTripTimer
  | .refclkDieTimeout | .activationTick => false
  | _ => true

/-- The update engines. -/
def leavesUpdateEngines : Sys2Proof.Instr → Bool
  | .regWrite _ _ _ | .regModify _ _ _ | .memRead _ _ _ | .memWrite _ _ _ | .twinDigests _ _ _ | .submissionStart _
  | .sqNop _ _ | .copy _ _ | .fill _ _ | .digest _ _ | .planLoad _ _ | .sqFence _ _ | .runStart | .abort | .retryArm _
  | .sepCmdSubmit _ | .updCmdSubmit _ | .stopRequest | .stageStart _ | .parlourActivate | .plainRegisterWrite _ _
  | .phaseLost | .segmentRelease _ | .late _ | .shadowLoadComplete _ | .chunkSum _ | .drainRow _ | .rerunRestart _
  | .segmentEnd _ | .copyRequestStart _ | .stepBoundary | .safetySelftest _ | .initialMilkRun _ | .completionPass _
  | .sepCommandArrive _ _ _ _ | .prune _ | .regrow _ | .audit _ | .collect _ | .sepBatchWrite _ _ | .intakeWrite _ _ _
  | .updCommandArrive _ _ _ _ | .update _ | .apply _ | .derive _ | .exportShard _ | .importShard _ | .updBatch _ _ _
  | .mirrorAck _ _ _ | .mirrorWaitExpiry _ _ | .churnChunk _ | .invalidationAck _ | .write _ | .read _ | .readData _
  | .nak _ | .writeDone _ | .control _ | .join _ | .gather _ | .reduce _ | .redHoldRelease _ _ | .retryTimeout _ _
  | .slotEdge _ | .heartbeatIntervalExpiry | .safetyLockstepMismatch | .auxRailUp | .auxRailLoss | .dieStart _
  | .startTimeout | .supplyResume | .supplyHold | .supplyReset | .droopRecover _ | .thermalSample _ | .thermalTripTimer
  | .refclkDieTimeout | .activationTick => false
  | _ => true

/-- Ports, peers, flows, credits, reductions. -/
def leavesFabric : Sys2Proof.Instr → Bool
  | .safetyReportReply _ _ _ | .queueEnable _ _ | .queueDisable _ | .runEnd | .variantRequest _ | .shapeArm | .hpArm
  | .snapRequest _ | .sepCmdSubmit _ | .updCmdSubmit _ | .flipMaskArm _ _ | .eventLatchClear _ _ | .clearCounters _
  | .attnAckIdentity | .safeRelease _ | .codeRegionWordWrite _ _ _ | .pailConfigWrite _ _ | .restoreAbort
  | .activateArm _ | .activateCancel | .svnCommit _ | .bind | .unbind | .parlourStageOffsetWrite _
  | .parlourStageAppend _ | .parlourCommit | .anchorSet _ | .anchorClear _ | .calSelectWrite _ | .userSet | .userClear
  | .userClearAll | .readClearField _ | .phaseLoRead | .syncIntervalEnd | .slewCorrection | .sync _ _ _
  | .delayResp _ _ _ | .stallCauseStart _ _ | .stallCauseClear _ _ | .herdFreeze _ | .herdResume _ | .passSwap _
  | .fetchComplete _ | .elasticPromotion _ | .twinLost | .pailLeak _ | .pauseFrame _ | .parlourLockstepReset
  | .stopAcksComplete | .safetyReportSend | .reportResendTimer | .inputQualified | .railsInRegulation | .stackTrained _
  | .supplyWarning | .supplyClear | .senseBladeUnmate | .droopTrip _ | .refclkDieLoss | .refclkDieReturn
  | .senseBladeMate | .bulkNodeCrossing _ | .tierTrained _ | .stagingComplete => true
  | _ => false

/-- The event log and the queue pairs. -/
def leavesControl : Sys2Proof.Instr → Bool
  | .safetyReportReply _ _ _ | .runEnd | .variantRequest _ | .shapeArm | .hpArm | .eventLatchClear _ _ | .clearCounters _
  | .pailConfigWrite _ _ | .restoreAbort | .activateCancel | .parlourStageOffsetWrite _ | .parlourCommit
  | .calSelectWrite _ | .readClearField _ | .phaseLoRead | .syncIntervalEnd | .slewCorrection | .sync _ _ _
  | .delayResp _ _ _ | .stallCauseStart _ _ | .herdFreeze _ | .herdResume _ | .passSwap _ | .fetchComplete _
  | .elasticPromotion _ | .snapshotRecordAck _ _ | .pailLeak _ | .ack _ | .creditReq _ | .creditGrant _ | .pauseFrame _
  | .ackTimer _ | .nakTimer _ | .creditReturn _ | .parlourLockstepReset | .stopAcksComplete | .inputQualified
  | .railsInRegulation | .stackTrained _ | .supplyWarning | .supplyClear | .senseBladeUnmate | .droopTrip _
  | .refclkDieLoss | .refclkDieReturn | .senseBladeMate | .bulkNodeCrossing _ | .stagingComplete => true
  | _ => false

/-- Detections, reports, heartbeats. -/
def leavesSafety : Sys2Proof.Instr → Bool
  | .regWrite _ _ _ | .regModify _ _ _ | .memRead _ _ _ | .memWrite _ _ _ | .twinDigests _ _ _ | .safetyReportReply _ _ _
  | .submissionStart _ | .sqNop _ _ | .copy _ _ | .fill _ _ | .digest _ _ | .planLoad _ _ | .sqFence _ _ | .runStart
  | .abort | .retryArm _ | .safeRelease _ | .stopRequest | .stageStart _ | .parlourActivate | .plainRegisterWrite _ _
  | .phaseLost | .segmentRelease _ | .late _ | .shadowLoadComplete _ | .chunkSum _ | .drainRow _ | .rerunRestart _
  | .segmentEnd _ | .copyRequestStart _ | .stepBoundary | .safetySelftest _ | .initialMilkRun _ | .completionPass _
  | .sepCommandArrive _ _ _ _ | .prune _ | .regrow _ | .audit _ | .collect _ | .sepBatchWrite _ _ | .intakeWrite _ _ _
  | .updCommandArrive _ _ _ _ | .update _ | .apply _ | .derive _ | .exportShard _ | .importShard _ | .updBatch _ _ _
  | .mirrorAck _ _ _ | .mirrorWaitExpiry _ _ | .churnChunk _ | .invalidationAck _ | .write _ | .read _ | .readData _
  | .nak _ | .writeDone _ | .control _ | .join _ | .gather _ | .reduce _ | .redHoldRelease _ _ | .retryTimeout _ _
  | .slotEdge _ | .heartbeatIntervalExpiry | .safetyLockstepMismatch | .parlourLockstepReset | .stopAcksComplete
  | .safetyReportSend | .reportResendTimer | .auxRailUp | .auxRailLoss | .dieStart _ | .startTimeout | .supplyResume
  | .supplyHold | .supplyReset | .droopRecover _ | .thermalSample _ | .thermalTripTimer | .refclkDieTimeout
  | .activationTick => false
  | _ => true

/-- Every byte of the stacks, the second tier, the scratchpads and the staging buffer, with its code. -/
def leavesMemory : Sys2Proof.Instr → Bool
  | .regWrite _ _ _ | .regModify _ _ _ | .memRead _ _ _ | .memWrite _ _ _ | .twinDigests _ _ _ | .submissionStart _
  | .sqNop _ _ | .copy _ _ | .fill _ _ | .digest _ _ | .planLoad _ _ | .sqFence _ _ | .runStart | .abort | .retryArm _
  | .stopRequest | .codeRegionWordWrite _ _ _ | .restoreStart _ | .stageStart _ | .parlourStageAppend _
  | .parlourActivate | .plainRegisterWrite _ _ | .phaseLost | .segmentRelease _ | .late _ | .shadowLoadComplete _
  | .chunkSum _ | .drainRow _ | .rerunRestart _ | .segmentEnd _ | .copyRequestStart _ | .stepBoundary | .safetySelftest _
  | .initialMilkRun _ | .completionPass _ | .sepCommandArrive _ _ _ _ | .prune _ | .regrow _ | .audit _ | .collect _
  | .sepBatchWrite _ _ | .intakeWrite _ _ _ | .updCommandArrive _ _ _ _ | .update _ | .apply _ | .derive _
  | .exportShard _ | .importShard _ | .updBatch _ _ _ | .mirrorAck _ _ _ | .mirrorWaitExpiry _ _ | .digestWaitExpiry _ _
  | .churnChunk _ | .invalidationAck _ | .write _ | .read _ | .readData _ | .nak _ | .writeDone _ | .control _ | .join _
  | .gather _ | .reduce _ | .redHoldRelease _ _ | .retryTimeout _ _ | .slotEdge _ | .heartbeatIntervalExpiry
  | .safetyLockstepMismatch | .auxRailUp | .auxRailLoss | .dieStart _ | .stackTrained _ | .startTimeout | .supplyResume
  | .supplyHold | .supplyReset | .droopRecover _ | .thermalSample _ | .thermalTripTimer | .refclkDieTimeout
  | .activationTick => false
  | _ => true

/-- The registers an event of a block writes (R390), and the count of records lost. -/
def eventRegs (cls inst : Nat) : List Nat :=
  [Reg.EVENT_RAW cls inst, Reg.EVENT_LATCH cls inst, Reg.COUNTER_0 cls inst, Reg.QMGR_LOG_LOST]

/-- The counters of what a port receives. -/
def receiveRegs (p : Fin 8) : List Nat :=
  [Reg.PORT_FEC_CORRECTED p, Reg.PORT_FEC_UNCORRECTED p, Reg.PORT_FRAMES_RX p, Reg.PORT_FRAMES_DISCARDED p,
   Reg.PORT_ICV_FAILS p, Reg.PORT_REPLAY_DROPS p, Reg.FABRIC_CRC_FAILS (p.val / 4)]

/-- The registers that a command may write, for the commands that write few; every other register it leaves alone. -/
def mayWrite : Sys2Proof.Instr → Option (List Nat)
  | .runEnd | .variantRequest _ | .shapeArm | .hpArm | .restoreAbort | .activateCancel | .parlourCommit
  | .slewCorrection | .sync _ _ _ | .delayResp _ _ _ | .herdFreeze _ | .herdResume _
  | .ackTimer _ | .nakTimer _ | .macsecRekey _ _ | .joinRetryTimer _ _ _ | .inputQualified
  | .railsInRegulation | .supplyClear | .senseBladeUnmate | .refclkDieReturn | .senseBladeMate | .bulkNodeCrossing _
  | .tierTrained _ | .stagingComplete => some []
  | .safetyReportReply _ _ _ => some [Reg.SAFETY_REPORTS_ACKED]
  | .safetyReportSend | .reportResendTimer => some [Reg.SAFETY_REPORTS_SENT]
  | .parlourLockstepReset => some [Reg.SAFETY_REPORTS_SENT, Reg.SAFETY_REPORTS_ACKED]
  | .stopAcksComplete => some [Reg.SAFETY_BLOCK_TIME_MAX]
  | .queueEnable _ _ => some (Reg.QMGR_QUEUE_ERRORS :: eventRegs clsQmgr 0)
  | .queueDisable _ => some (eventRegs clsQmgr 0)
  | .nop _ | .eventFetch _ _ _ _ | .attest _ _ => some [Reg.QMGR_CONTROL_MSGS, Reg.QMGR_BUSY_REPLIES]
  | .doorbellSubmissionTail _ _ _ | .doorbellCompletionHead _ _ _ =>
    some (Reg.QMGR_CONTROL_MSGS :: Reg.QMGR_BUSY_REPLIES :: Reg.QMGR_QUEUE_ERRORS :: eventRegs clsQmgr 0)
  | .eventLatchClear b _ => some [Reg.EVENT_LATCH b.cls b.inst]
  | .clearCounters b =>
    some [Reg.COUNTER_0 b.cls b.inst, Reg.COUNTER_1 b.cls b.inst, Reg.COUNTER_2 b.cls b.inst, Reg.COUNTER_3 b.cls b.inst]
  | .pailConfigWrite b _ => some [Reg.PAIL_CONFIG b.cls b.inst, Reg.PAIL_LEVEL b.cls b.inst]
  | .pailLeak b => some [Reg.PAIL_LEVEL b.cls b.inst]
  | .flipMaskArm b _ => some (Reg.FLIP_MASK_HI b.cls b.inst :: flipSelect b.cls b.inst :: eventRegs b.cls b.inst)
  | .codeRegionWordWrite i j _ => some (Reg.HBM_CODE_REGION i j :: eventRegs clsHbm i)
  | .moduleNumberWrite _ => some [Reg.FABRIC_MODULE_NUMBER 0]
  | .portConfigWrite p _ => some (Reg.PORT_PORT_CONFIG p :: Reg.PORT_DOWN_EVENTS p :: eventRegs clsPort p)
  | .calSelectWrite _ => some [Reg.CAL_CAL_SELECT]
  | .parlourStageOffsetWrite _ => some [Reg.BOOT_PARLOUR_STAGE_OFFSET]
  | .parlourStageAppend _ => some (Reg.BOOT_PARLOUR_STAGE_OFFSET :: eventRegs clsBoot 0)
  | .activateArm _ => some (Reg.BOOT_ACTIVATE_AT_PHASE_HI :: eventRegs clsBoot 0)
  | .attnAckIdentity => some (eventRegs clsQmgr 0)
  | .safeRelease _ => some (eventRegs clsSafety 0)
  | .svnCommit _ | .bind | .unbind | .anchorSet _ | .anchorClear _ => some (eventRegs clsBoot 0)
  | .userSet | .userClear | .userClearAll => some (eventRegs clsCal 0)
  | .readClearField a => some [a.toNat, Reg.PHASE_PHASE_HI]
  | .phaseLoRead => some [Reg.PHASE_PHASE_LO, Reg.PHASE_PHASE_HI]
  | .snapRequest _ => some (Reg.UPD_SNAP_STATUS :: eventRegs clsUpd 0)
  | .snapshotRecordAck _ _ => some [Reg.UPD_SNAP_STATUS]
  | .sepCmdSubmit i => some (Reg.SEP_CMD_STATUS i :: Reg.SEP_CMD_FAULT_ADDR i :: eventRegs clsSep i)
  | .updCmdSubmit i => some (Reg.UPD_CMD_STATUS i :: Reg.UPD_CMD_FAULT_ADDR i :: eventRegs clsUpd i)
  | .syncIntervalEnd => some [Reg.PHASE_OFFSET, Reg.FABRIC_PTP_OFFSET 0, Reg.FABRIC_PTP_OFFSET 1, Reg.POWER_START_MS]
  | .stallCauseStart c _ =>
    some [Reg.CORE_STALL_EVENTS c, Reg.CORE_BANK_CONFLICTS c, Reg.CORE_CONFLICT_BANK c, Reg.CORE_ENTRY_UNDERRUNS c,
      Reg.QUARTER_NOC_LATE_BLOCKS (c / 16), Reg.QUARTER_NOC_CRC_RESENDS (c / 16),
      Reg.QUARTER_NOC_RETRY_FULL (c / 16)]
  | .stallCauseClear c _ => some (Reg.PAIL_LEVEL clsCore c :: eventRegs clsCore c)
  | .passSwap c =>
    some [Reg.CORE_LOAD_BUBBLES c, Reg.CORE_PEELED_PASSES c, Reg.CORE_PEEL_LINK_PASSES c, Reg.CORE_SCATTER_PASSES c]
  | .elasticPromotion c => some [Reg.CORE_ELASTIC_PROMOTIONS c]
  | .fetchComplete _ => some ((List.range 16).map Reg.COPY_REQUESTS)
  | .twinLost => some (eventRegs clsFabric 0)
  | .portUp p => some (eventRegs clsPort p)
  | .portDown p => some (Reg.PORT_DOWN_EVENTS p.port :: eventRegs clsPort p.port)
  | .portDownHoldExpiry p => some (eventRegs clsFabric (p / 4))
  | .refclkPortLoss c =>
    some ((List.range 4).flatMap (fun i => Reg.PORT_DOWN_EVENTS (4 * c + i) :: eventRegs clsPort (4 * c + i)))
  | .pauseFrame p => some [Reg.PORT_PAUSE_IGNORED p]
  | .creditReturn c => some [Reg.FABRIC_GRANTS_ISSUED c]
  | .ack r | .creditGrant r => some (receiveRegs r.port)
  | .creditReq r => some (Reg.FABRIC_GRANTS_ISSUED (r.port.val / 4) :: receiveRegs r.port)
  | .frameSend p =>
    some ((List.range 2).flatMap (fun c => [Reg.FABRIC_BLOCKS_SENT c, Reg.FABRIC_BLOCKS_RESENT c, Reg.FABRIC_SCHED_RESENDS c]) ++
      [Reg.PORT_FRAMES_TX p, Reg.PORT_SCHED_FRAMES p])
  | .droopTrip _ => some [Reg.POWER_DROOP_EVENTS, Reg.POWER_LAST_DROOP]
  | .supplyWarning | .refclkDieLoss => some [Reg.POWER_SUPPLY_WARNINGS]
  | _ => none

end Sys2Proof.Machine
end

