-- ==== Sys2Proof/Certificates/Slice0/Obligations.lean ====
section
/-!
DEFINITION. The statements about the Q64, for the provers. A statement about a command says under which hypotheses on the
state and the operands exec answers a next state with the command's own effect, and what that state holds; a statement
about a part of the state says which commands leave it alone. In every statement `done`-style answers are written out:
`exec c s = .next t`.
-/

open Sys2Proof Sys2Proof.Machine

/-! ### Supplies, start-up, clocks, temperature (chapter 15) -/

/-- R437, R503, R504, R507: the rails and the blade. Readings and choices of the model it rests on: log entry 45. -/
def Obligations.SupplyRailCommands : Prop :=
  (∀ s : State, s.power.aux = false →
    ∃ t, exec .auxRailUp s = .next t ∧ t.power.aux = true ∧ t.power.startedAt = s.clock.now ∧ t.power.resetCause = 0 ∧
      t.power.bootCount = 0 ∧ t.power.die = s.power.die) ∧
  (∀ s : State, s.power.aux = true →
    ∃ t, exec .auxRailLoss s = .next t ∧ t.power.aux = false ∧ t.power.conversion = false ∧ t.power.die = false ∧
      t.mem = Memory.reset ∧ t.run = RunState.reset ∧ t.fab = Fabric.reset ∧ t.safety = SafetyState.reset ∧
      t.boot.settings = s.boot.settings ∧ t.boot.svnFused = s.boot.svnFused ∧
      (s.boot.writing = none → t.boot.areas = s.boot.areas)) ∧
  (∀ s : State, exec .senseBladeMate s = .next { s with power := { s.power with mated := true } }) ∧
  (∀ s : State, exec .senseBladeUnmate s = .next { s with power := { s.power with mated := false } }) ∧
  (∀ s : State, s.power.conversion = false → s.power.aux = true → s.power.mated = true →
    exec (.bulkNodeCrossing true) s = .next { s with power := { s.power with bulk := true } }) ∧
  (∀ s : State, s.power.conversion = false →
    exec (.bulkNodeCrossing false) s = .next { s with power := { s.power with bulk := false } }) ∧
  (∀ s : State, s.power.parlour = true → s.power.mated = true → s.power.bulk = true → s.power.conversion = false →
    exec .inputQualified s = .next { s with power := { s.power with
      conversion := true, inputOk := true, limitAt := s.clock.now, limitMs := 60 } }) ∧
  (∀ s : State, s.power.parlour = true → s.power.conversion = true → s.power.die = false →
    exec .railsInRegulation s = .next { s with power := { s.power with
      die := true, bootCount := s.power.bootCount + 1, releasedAt := s.clock.now, warm := s.power.restarting,
      restarting := false } })

/-- R446 to R449: warnings, their end, the hold that lasts too long, the reset. Readings and choices of the model it
rests on: log entry 45. -/
def Obligations.SupplyWarningCommands : Prop :=
  (∀ s : State, s.power.conversion = true → s.power.inputOk = true →
    ∃ t, exec .supplyWarning s = .next t ∧ t.power.inputOk = false ∧ t.power.hold = true ∧ t.power.cleared = none ∧
      t.reg Reg.POWER_SUPPLY_WARNINGS = (s.reg Reg.POWER_SUPPLY_WARNINGS + 1) % 2 ^ 32 ∧
      t.mem = s.mem ∧ t.ctl = s.ctl ∧ t.clock = s.clock) ∧
  (∀ s : State, s.power.hold = true → s.power.inputOk = false →
    exec .supplyClear s = .next { s with power := { s.power with
      inputOk := true, cleared := if s.power.refclkDie then some s.phaseNat else s.power.cleared } }) ∧
  (∀ (s : State) (c : Nat), s.power.hold = true → s.power.cleared = some c → resumeTick c ≤ s.phaseNat →
      s.activationDue = false →
    ∃ t, exec .supplyResume s = .next t ∧ t.power.hold = false ∧ t.power.cleared = none) ∧
  (∀ s : State, s.power.hold = true → s.power.heldOut = false → s.holdLimit * 4096 < ticksSince s s.power.holdAt →
      s.ctl.log.length < logCapacity →
    ∃ t, exec .supplyHold s = .next t ∧ t.power.heldOut = true ∧
      ∃ x ∈ t.ctl.log, x.kind = 1 ∧ x.code = 0x0B02 ∧ x.cls = clsPower ∧ x.phase = s.clock.phase) ∧
  (∀ s : State, s.power.conversion = true →
    ∃ t, exec .supplyReset s = .next t ∧ t.power.conversion = false ∧ t.power.die = false ∧ t.power.bulk = false ∧
      t.power.resetCause = 1 ∧ t.run = RunState.reset ∧ t.fab = Fabric.reset ∧ t.ctl.log = [] ∧
      t.power.aux = s.power.aux ∧ t.boot.settings = s.boot.settings)

/-- R446, R449, R508, R509: the reference clocks of the die and of the ports. Readings and choices of the model it rests
on: log entry 45. -/
def Obligations.ReferenceClockCommands : Prop :=
  (∀ s : State, s.power.conversion = true → s.power.refclkDie = true →
    ∃ t, exec .refclkDieLoss s = .next t ∧ t.power.refclkDie = false ∧ t.power.hold = true ∧ t.power.cleared = none ∧
      t.reg Reg.POWER_SUPPLY_WARNINGS = (s.reg Reg.POWER_SUPPLY_WARNINGS + 1) % 2 ^ 32 ∧ t.mem = s.mem) ∧
  (∀ s : State, s.power.refclkDie = false →
    exec .refclkDieReturn s = .next { s with power := { s.power with
      refclkDie := true, cleared := if s.power.hold && s.power.inputOk then some s.phaseNat else s.power.cleared } }) ∧
  (∀ s : State, s.power.conversion = true → s.power.refclkDie = false →
    ∃ t, exec .refclkDieTimeout s = .next t ∧ t.power.conversion = false ∧ t.power.die = false ∧
      t.power.resetCause = 1 ∧ t.run = RunState.reset ∧ t.fab = Fabric.reset) ∧
  (∀ (s : State) (c : Fin 2) (i : Fin 4), s.portLive (4 * c + i) = true →
    ∃ t, exec (.refclkPortLoss c) s = .next t ∧ (t.port (4 * c + i)).linkUp = false ∧
      (t.port (4 * c + i)).fecLock = false ∧ (t.port (4 * c + i)).downAt = some s.clock.now ∧ t.mem = s.mem)

/-- R259, R274, R438, R444, R475: the die starts, its memories train, a stage takes too long. Readings and choices of
the model it rests on: log entry 45. -/
def Obligations.StartUpCommands : Prop :=
  (∀ (s : State) (r : StartReport), s.power.die = true → s.power.started = false → s.power.halted = false →
      s.power.booting = 0 → s.bootImages.power.halted = false → r.entropyFails < 3 → r.readBackBad = none →
      r.calibrationOk = true → r.ended ≠ 0 →
    ∃ t, exec (.dieStart r) s = .next t ∧ t.power.started = decide (r.ended = 3) ∧ t.power.booting = r.ended.val ∧
      t.boot.factoryOk = true ∧ t.boot.svnStart = s.boot.svnFused) ∧
  (∀ (s : State) (r : StartReport), s.power.die = true → s.power.started = false → s.power.halted = false →
      s.power.booting ≠ 0 → r.readBackBad = none → r.ended = 3 →
    ∃ t, exec (.dieStart r) s = .next t ∧ t.power.started = true ∧ t.boot = s.boot ∧ t.mem = s.mem) ∧
  (∀ (s : State) (i : Fin 12), s.power.die = true → s.power.started = true → i.val ∉ s.power.trained →
      s.power.warm = false →
    ∃ t, exec (.stackTrained i) s = .next t ∧ t.power.trained = s.power.trained ++ [i.val] ∧
      (∀ a, byteAt t.mem.cells a =
        if i * stackBytes ≤ a ∧ a < i * stackBytes + stackBytes then 0 else byteAt s.mem.cells a) ∧
      t.run = s.run ∧ t.fab = s.fab) ∧
  (∀ (s : State) (c : Fin 2), s.power.die = true → s.power.started = true → c.val ∉ s.power.tiers → s.power.warm = false →
    ∃ t, exec (.tierTrained c) s = .next t ∧ t.power.tiers = s.power.tiers ++ [c.val] ∧
      tfind t.power.tierKeys c = some (tierKey s.ctl.free 0, tierKey s.ctl.free 1) ∧ t.mem = s.mem ∧ t.regs = s.regs) ∧
  (∀ (s : State) (ms : Nat), stageLimit s.startStage = some ms → s.limitCycle ms ≤ s.clock.now →
      s.startStage ∉ s.power.timedOut → s.ctl.log.length < logCapacity →
    ∃ t, exec .startTimeout s = .next t ∧ t.power.timedOut = s.startStage :: s.power.timedOut ∧
      ∃ x ∈ t.ctl.log, x.kind = 1 ∧ x.code = 0x0B03 ∧ x.cls = clsPower ∧ x.addr = BitVec.ofNat 64 s.startStage)

/-- R450, R451, R478: droop, temperature, the armed activation. Readings and choices of the model it rests on: log
entries 11 and 45. -/
def Obligations.DroopAndThermalCommands : Prop :=
  (∀ (s : State) (q : Fin 4), s.power.die = true →
    ∃ t, exec (.droopTrip q) s = .next t ∧
      t.power.droop = s.power.droop.filter (fun d => d.1 != q.val) ++ [(q.val, s.clock.now)] ∧
      t.reg Reg.POWER_DROOP_EVENTS = (s.reg Reg.POWER_DROOP_EVENTS + 1) % 2 ^ 32 ∧
      t.reg Reg.POWER_LAST_DROOP = s.slot % 2 ^ 30 * 4 + q ∧ t.mem = s.mem ∧ t.ctl = s.ctl) ∧
  (∀ (s : State) (q : Fin 4) (c : Nat), (q.val, c) ∈ s.power.droop →
    ∃ t, exec (.droopRecover q) s = .next t ∧ t.power.droop = s.power.droop.filter (fun d => d.1 != q.val)) ∧
  (∀ (s : State) (m : Sample), s.power.parlour = true → m.dieC8 + s.calValue (0x14 + m.quarter.val) < 840 →
    ∃ t, exec (.thermalSample m) s = .next t ∧ t.power.overtemp = false ∧ t.power.overAt = none ∧
      t.power.throttle = decide (s.throttleAt < m.dieC8 + s.calValue (0x14 + m.quarter.val)) ∧
      t.power.coolant = decide (320 < m.coolantC8 + s.calValue 0x18) ∧
      t.reg Reg.POWER_INPUT_MV = m.inputMv % 2 ^ 16 ∧ t.reg Reg.POWER_INPUT_MA = m.inputMa % 2 ^ 16 ∧
      t.reg Reg.POWER_TEMP_DIE = unsignedOf 16 (m.dieC8 + s.calValue (0x14 + m.quarter.val)) ∧
      t.reg Reg.POWER_TEMP_COOLANT = unsignedOf 16 (m.coolantC8 + s.calValue 0x18) ∧ t.mem = s.mem) ∧
  (∀ (s : State) (c : Nat), s.power.overAt = some c → s.power.overtemp = true → c + 700000000 ≤ s.clock.now →
    ∃ t, exec .thermalTripTimer s = .next t ∧ t.power.resetCause = 2 ∧ t.power.conversion = false ∧
      t.power.die = false ∧ t.run = RunState.reset) ∧
  (∀ s : State, s.power.die = true → s.activationDue = true → s.power.hold = false →
    ∃ t, exec .activationTick s = .next t ∧ t.power.restarting = true ∧ t.power.die = false ∧ t.power.resetCause = 3 ∧
      t.boot.armed = none ∧ t.run = RunState.reset ∧ t.power.conversion = s.power.conversion)

/-! ### Functional safety (chapter 14) -/

/-- R420, R422, R423: the slot edge and the heartbeat interval. Readings and choices of the model it rests on: log entry
46. -/
def Obligations.WatchCommands : Prop :=
  (∀ s : State, s.power.die = true → s.power.parlour = true → s.tickOf = 0 →
      (s.planRuns = false ∨ s.run.monitor = none ∨ s.stalled = []) →
    ∃ t, exec (.slotEdge true) s = .next t ∧ t.safety.parlourAlive = true ∧ t.safety.plMisses = 0 ∧ t.safety.hbMisses = 0 ∧
      t.safety.hbSlot = some s.slot ∧ t.run = s.run ∧ t.mem = s.mem ∧
      ∃ c, t.out = s.out ++ [.heartbeat s.slot s.safety.detectSeq (BitVec.ofNat 32 s.safetyStatus) c]) ∧
  (∀ s : State, s.power.die = true → s.tickOf = 0 → (s.planRuns = false ∨ s.run.monitor = none ∨ s.stalled = []) →
      s.safety.suspended = none → (s.safety.plLost = true ∨ s.safety.plMisses + 1 < s.plMiss) →
    ∃ t, exec (.slotEdge false) s = .next t ∧ t.safety.parlourAlive = false ∧
      t.safety.plMisses = s.safety.plMisses + 1 ∧ t.safety.stop = s.safety.stop ∧
      t.reg Reg.SAFETY_PARLOUR_MISSED = (s.reg Reg.SAFETY_PARLOUR_MISSED + 1) % 2 ^ 32) ∧
  (∀ s : State, s.power.die = true → s.tickOf = 0 → (s.planRuns = false ∨ s.run.monitor = none ∨ s.stalled = []) →
      s.safety.suspended = none → s.safety.plLost = false → s.plMiss ≤ s.safety.plMisses + 1 →
      s.ctl.log.length < logCapacity →
    ∃ t, exec (.slotEdge false) s = .next t ∧ t.safety.stop = true ∧ t.safety.plLost = true ∧
      ∃ x ∈ t.ctl.log, x.kind = 1 ∧ x.code = 0x0A04 ∧ x.cls = clsSafety ∧ x.phase = s.clock.phase) ∧
  (∀ s : State, s.power.die = true → s.power.parlour = true → (s.safety.hbLost = true ∨ s.safety.hbMisses + 1 < s.hbMiss) →
    exec .heartbeatIntervalExpiry s = .next
      (({ s with safety := { s.safety with hbMisses := s.safety.hbMisses + 1 } }).bump Reg.SAFETY_HEARTBEATS_MISSED)) ∧
  (∀ s : State, s.power.die = true → s.power.parlour = true → s.safety.hbLost = false → s.hbMiss ≤ s.safety.hbMisses + 1 →
      s.ctl.log.length < logCapacity →
    ∃ t, exec .heartbeatIntervalExpiry s = .next t ∧ t.safety.stop = true ∧ t.safety.hbLost = true ∧
      ∃ x ∈ t.ctl.log, x.kind = 1 ∧ x.code = 0x0A03 ∧ x.cls = clsSafety ∧ x.phase = s.clock.phase)

/-- R408, R409, R411 to R413, R424 to R426: what is itself a dangerous-failure detection stops the module; the stop is
acknowledged, and released by the number of its last detection. Readings and choices of the model it rests on: log entry
47. -/
def Obligations.DetectionAndStopCommands : Prop :=
  (∀ s : State, s.ctl.log.length < logCapacity →
    ∃ t, exec .stopRequest s = .next t ∧ t.safety.stop = true ∧ t.safety.suspectTo = BitVec.allOnes 64 ∧
      t.safety.detectSeq = (if s.safety.stop then s.safety.detectSeq + 1 else 1) ∧
      t.run.stopped = (s.run.stopped || s.planRuns) ∧
      ∃ x ∈ t.ctl.log, x.kind = 1 ∧ x.code = 0x0A07 ∧ x.cls = clsSafety ∧ x.phase = s.clock.phase) ∧
  (∀ (s : State) (b : Blk), s.run.selftest = true → s.ctl.log.length < logCapacity →
    ∃ t, exec (.safetySelftest b) s = .next t ∧ t.safety.stop = true ∧ t.safety.selftestOk = false ∧
      t.run.selftest = false ∧ ∃ x ∈ t.ctl.log, x.kind = 1 ∧ x.code = 0x0A06 ∧ x.cls = clsSafety) ∧
  (∀ s : State, s.power.die = true →
    ∃ t, exec .safetyLockstepMismatch s = .next t ∧ t.safety.stop = true ∧
      t.safety.detectSeq = (if s.safety.stop then s.safety.detectSeq + 1 else 1) ∧
      t.run.stopped = (s.run.stopped || s.planRuns) ∧ t.ctl = s.ctl) ∧
  (∀ s : State, s.power.parlour = true →
    ∃ t, exec .parlourLockstepReset s = .next t ∧ t.safety.joined = [] ∧ t.safety.ackedBy = [] ∧ t.safety.hbMisses = 0 ∧
      t.safety.stop = s.safety.stop ∧ t.safety.detectSeq = s.safety.detectSeq ∧ t.power.startedAt = s.clock.now ∧
      t.reg Reg.SAFETY_REPORTS_SENT = 0 ∧ t.reg Reg.SAFETY_REPORTS_ACKED = 0) ∧
  (∀ (s : State) (c : Nat), s.safety.stop = true → s.safety.blocked = false → s.safety.detectedAt = some c →
    ∃ t, exec .stopAcksComplete s = .next t ∧ t.safety = { s.safety with blocked := true } ∧
      t.reg Reg.SAFETY_BLOCK_TIME_MAX =
        min (2 ^ 32 - 1) (max (s.reg Reg.SAFETY_BLOCK_TIME_MAX) (s.clock.now - c)) ∧
      ∀ a, a ≠ Reg.SAFETY_BLOCK_TIME_MAX → t.reg a = s.reg a) ∧
  (∀ s : State, s.safety.stop = true → s.planRuns = false → s.safety.reportAcked = true →
    exec (.safeRelease s.safety.detectSeq) s = .next { s with safety := { s.safety with
      stop := false, blocked := false, detectedAt := none, suspectTo := s.clock.phase } }) ∧
  (∀ (s : State) (v : Word), (s.safety.stop = false ∨ v ≠ s.safety.detectSeq ∨ s.planRuns = true ∨
      s.safety.reportAcked = false) →
    ∃ t, exec (.safeRelease v) s = .next t ∧ t.safety = s.safety ∧ t.run = s.run)

/-- R411, R430: a report goes to every enabled receiver that has joined, is sent again when it is due, and is
acknowledged. Readings and choices of the model it rests on: log entry 40. -/
def Obligations.SafetyReportCommands : Prop :=
  (∀ (s : State) (r : Report), s.power.parlour = true → s.safety.reports.find? (fun r => r.sentMs.isNone) = some r →
      r.record.length = 16 → (s.receivers.map (·.2)).filter s.safety.joined.contains ≠ [] →
    ∃ t, exec .safetyReportSend s = .next t ∧
      t.out = s.out ++ ((s.receivers.map (·.2)).filter s.safety.joined.contains).dedup.mapIdx (s.reportFrame r) ∧
      t.mem = s.mem ∧ t.run = s.run) ∧
  (∀ (s : State) (r : Report), s.power.parlour = true → s.safety.reports.filter s.resendDue = [r] →
      r.record.length = 16 → (s.receivers.map (·.2)).filter s.safety.joined.contains ≠ [] →
    ∃ t, exec .reportResendTimer s = .next t ∧
      t.out = s.out ++ ((s.receivers.map (·.2)).filter s.safety.joined.contains).dedup.mapIdx (s.reportFrame r)) ∧
  (∀ (s : State) (r : Report) (i receiver : Nat), s.power.parlour = true →
      s.safety.reports.find? (fun x => x.reqId == r.reqId && x.sentMs.isSome) = some r → r.acked = false →
      s.receivers.find? (fun x => x.2 == receiver) = some (i, receiver) → receiver ∈ s.safety.joined →
    ∃ t, exec (.safetyReportReply receiver 0 r.reqId) s = .next t ∧
      (∀ x ∈ t.safety.reports, x.reqId = r.reqId → x.acked = true) ∧
      t.reg Reg.SAFETY_REPORTS_ACKED = (s.reg Reg.SAFETY_REPORTS_ACKED + 1) % 2 ^ 32 ∧
      (s.safety.reports.getLast?.any (fun x => x.reqId == r.reqId) = true →
        t.safety.reportAcked = true ∧ i ∈ t.safety.ackedBy))

/-! ### Sequencers and the array (chapters 02, 04, 05, 08) -/

/-- R18, R31, R34, R36, R39, R45, R215, R277: an entry is released in a herd that runs, its tokens consumed. IDLE and
BOUNDARY entries, a BOUNDARY entry that is late, entries whose descriptor names no fetch list and no vector table, and an
entry met with wrong parity, which is read again. Readings and choices of the model it rests on: log entries 20 and 47. -/
def Obligations.SegmentReleaseCompletes : Prop :=
  (∀ (s : State) (c : Fin 64) (i : Nat) (e : Entry), (s.core c).seg = none → s.nextEntry c = some (i, e) →
      s.releasing = true → (s.core c).stopped = false → s.releaseTick e ≤ s.phaseNat → (s.core c).met e = true →
      s.herdRuns c = true → e.cls = 5 → e.signalEn = false → s.phaseNat - s.releaseTick e ≤ e.slack →
    ∃ t, exec (.segmentRelease ⟨c, .whole⟩) s = .next t ∧
      t.core c = { (s.core c).consume e with entry := i + 1, atBoundary := true } ∧
      (∀ d : Nat, d ≠ c → t.core d = s.core d) ∧ t.mem = s.mem ∧ t.ctl = s.ctl ∧
      (∀ a, a ∉ [Reg.CORE_SLACK_MIN c, Reg.COPY_REQUESTS (4 * (c / 16) + 3), Reg.COPY_LINES_READ (4 * (c / 16) + 3)] →
        t.reg a = s.reg a) ∧
      t.reg (Reg.COPY_REQUESTS (4 * (c / 16) + 3)) = (s.reg (Reg.COPY_REQUESTS (4 * (c / 16) + 3)) + 1) % 2 ^ 32 ∧
      t.reg (Reg.COPY_LINES_READ (4 * (c / 16) + 3)) = (s.reg (Reg.COPY_LINES_READ (4 * (c / 16) + 3)) + 1) % 2 ^ 32 ∧
      t.reg (Reg.CORE_SLACK_MIN c) = min (s.reg (Reg.CORE_SLACK_MIN c)) (e.slack - (s.phaseNat - s.releaseTick e))) ∧
  (∀ (s : State) (c : Fin 64) (i : Nat) (e : Entry), (s.core c).seg = none → s.nextEntry c = some (i, e) →
      s.releasing = true → (s.core c).stopped = false → s.releaseTick e ≤ s.phaseNat → (s.core c).met e = true →
      s.herdRuns c = true → e.cls = 5 → e.signalEn = false → e.slack < s.phaseNat - s.releaseTick e →
      s.ctl.log.length < logCapacity →
    ∃ t, exec (.segmentRelease ⟨c, .whole⟩) s = .next t ∧ t.run.stopped = true ∧ t.Recorded 0x0101 clsCore s.clock.phase) ∧
  (∀ (s : State) (c : Fin 64) (i : Nat) (e : Entry), (s.core c).seg = none → s.nextEntry c = some (i, e) →
      s.releasing = true → (s.core c).stopped = false → s.releaseTick e ≤ s.phaseNat → (s.core c).met e = true →
      s.herdRuns c = true → e.cls = 4 →
    ∃ t g, exec (.segmentRelease ⟨c, .whole⟩) s = .next t ∧ (t.core c).seg = some g ∧ g.entry = some i ∧ g.ent = e ∧
      g.released = s.phaseNat ∧ g.slip = 7 * (s.phaseNat - s.releaseTick e) ∧ (t.core c).entry = i + 1 ∧ t.mem = s.mem) ∧
  (∀ (s : State) (c : Fin 64) (i : Nat) (e : Entry) (d : Desc), (s.core c).seg = none → s.nextEntry c = some (i, e) →
      s.releasing = true → (s.core c).stopped = false → s.releaseTick e ≤ s.phaseNat → (s.core c).met e = true →
      s.herdRuns c = true → e.cls = 0 → s.descOf c e.descIndex = some d → s.shapeOver d = none → d.auxTable = false →
      d.statTable = false → d.addrs.fetchCount = 0 →
    ∃ t g, exec (.segmentRelease ⟨c, .whole⟩) s = .next t ∧ (t.core c).seg = some g ∧ g.entry = some i ∧ g.desc = d ∧
      g.attempt = 1 ∧ g.status = .running ∧ g.slip = 7 * (s.phaseNat - s.releaseTick e) ∧ t.mem = s.mem) ∧
  (∀ (s : State) (c : Fin 64) (i : Nat) (e : Entry) (o : Nat), (s.core c).seg = none → s.nextEntry c = some (i, e) →
      s.releasing = true → (s.core c).stopped = false → s.releaseTick e ≤ s.phaseNat → (s.core c).met e = true →
      s.herdRuns c = true →
    ∃ t, exec (.segmentRelease ⟨c, .parity o⟩) s = .next t ∧ (t.core c).entry = (s.core c).entry ∧ (t.core c).seg = none ∧
      (t.core c).refetch = (s.core c).refetch + 1 ∧ (StallCause.emptyEntry, s.clock.now) ∈ (t.core c).causes ∧
      t.herdRuns c = false ∧
      t.reg (Reg.CORE_ENTRY_UNDERRUNS c) = (s.reg (Reg.CORE_ENTRY_UNDERRUNS c) + 1) % 2 ^ 32 ∧ t.mem = s.mem)

/-- R38, R46, R418: a segment ends, restarts after its reload, and the first milk run takes its core. Readings and
choices of the model it rests on: log entries 20 and 47. -/
def Obligations.SegmentLifeCompletes : Prop :=
  (∀ (s : State) (c : Fin 64) (g : Seg), s.running c = some g → g.untrusted = false → g.todo = [] → g.tiles = [] →
      g.stats = [] → g.milk = none → g.completes = none → g.hits = 0 → g.ent.signalEn = false → (s.core c).stopped = false →
    ∃ t, exec (.segmentEnd c) s = .next t ∧ t.core c = { s.core c with seg := none } ∧ t.mem = s.mem ∧ t.regs = s.regs) ∧
  (∀ (s : State) (c : Fin 64) (g : Seg), (s.core c).seg = some g → g.status = .reloading → s.power.hold = false →
      (∀ d ∈ s.power.droop, d.1 ≠ c.val / 16) → g.tablesDue = false →
      (∀ r ∈ s.run.reqs, ¬ (r.core = c.val ∧ r.fq = reloadQueue)) →
    ∃ t g', exec (.rerunRestart c) s = .next t ∧ (t.core c).seg = some g' ∧ g'.attempt = g.attempt + 1 ∧
      g'.status = .running ∧ g'.slip = g.slipAt + (s.clock.now - g.attemptAt) ∧ g'.vat = [] ∧ g'.check = [] ∧
      t.mem = s.mem) ∧
  (∀ (s : State) (c : Fin 64) (m : MilkRec) (d : Desc), s.run.run = true → s.run.stopped = false → c.val ∈ s.run.milkDue →
      (s.core c).seg = none → s.power.hold = false →
      s.run.plan.bind (fun p => p.milkRuns.find? (fun m => m.core == c.val && m.order == 0)) = some m →
      s.descOf c m.desc = some d → d.auxTable = false → d.statTable = false →
    ∃ t g, exec (.initialMilkRun c) s = .next t ∧ (t.core c).seg = some g ∧ g.entry = none ∧ g.desc = d ∧
      g.milk = some m.signature ∧ g.attempt = 1 ∧ t.mem = s.mem)

/-- R42 to R45, R228: stalls, freezes, lateness, promotion. Readings and choices of the model it rests on: log entry 47.
-/
def Obligations.StallAndFreezeCommands : Prop :=
  (∀ (s : State) (c : Fin 64) (x : StallCause),
    ∃ t, exec (.stallCauseStart c x) s = .next t ∧
      t.core c = { s.core c with causes := (s.core c).causes ++ [(x, s.clock.now)] } ∧
      (t.herd (s.core c).herd).intervals = (s.herd (s.core c).herd).intervals ++ [⟨c, s.clock.now + 6, none⟩] ∧
      t.reg (Reg.CORE_STALL_EVENTS c) = (s.reg (Reg.CORE_STALL_EVENTS c) + 1) % 2 ^ 32 ∧ t.mem = s.mem) ∧
  (∀ (s : State) (c : Fin 64) (x : StallCause) (t0 : Nat), (s.core c).causes.find? (fun y => y.1 == x) = some (x, t0) →
    ∃ t, exec (.stallCauseClear c x) s = .next t ∧ (t.core c).causes = (s.core c).causes.erase (x, t0) ∧
      (t.herd (s.core c).herd).intervals = closeFirst c (t0 + 6) (s.clock.now + 6) (s.herd (s.core c).herd).intervals ∧
      (x ≠ .emptyEntry → t.regs = s.regs ∧ (t.core c).refetch = (s.core c).refetch) ∧
      (x = .emptyEntry → (t.core c).refetch = 0 ∧ ((s.core c).refetch = 0 → t.regs = s.regs)) ∧ t.mem = s.mem) ∧
  (∀ (c a b : Nat) (l : List Freeze),
    l.countP (fun i => i.core == c && i.start == a && i.stop.isNone) =
      (closeFirst c a b l).countP (fun i => i.core == c && i.start == a && i.stop.isNone) +
        min 1 (l.countP (fun i => i.core == c && i.start == a && i.stop.isNone)) ∧
    (closeFirst c a b l).filter (fun i => !(i.core == c && i.start == a)) = l.filter (fun i => !(i.core == c && i.start == a))) ∧
  (∀ (s : State) (h : Fin 8), (s.herd h).intervals.any (fun i => i.holds s.clock.now) = true →
    ∃ t, exec (.herdFreeze h) s = .next t ∧ t.herd h = { s.herd h with frozen := true } ∧
      (∀ k : Nat, k ≠ h → t.herd k = s.herd k) ∧ t.mem = s.mem ∧ t.regs = s.regs) ∧
  (∀ (s : State) (h : Fin 8), (s.herd h).intervals.any (fun i => i.holds s.clock.now) = false → s.heldHerd h = false →
    ∃ t, exec (.herdResume h) s = .next t ∧ (t.herd h).frozen = false ∧ (∀ k : Nat, k ≠ h → t.herd k = s.herd k) ∧
      t.mem = s.mem ∧ t.regs = s.regs) ∧
  (∀ (s : State) (c : Fin 64) (g : Seg), s.planRuns = true → (s.core c).stopped = false → (s.core c).seg = some g →
      g.entry.isSome = true → 7 * g.ent.slack < g.slipNow s.clock.now → s.ctl.log.length < logCapacity →
    ∃ t, exec (.late c) s = .next t ∧ t.run.stopped = true ∧
      ∃ x ∈ t.ctl.log, x.kind = 1 ∧ x.code = 0x0101 ∧ x.core = c.val ∧ x.desc = g.descIx) ∧
  (∀ (s : State) (c : Fin 64) (i : Nat) (e : Entry), s.planRuns = true → (s.core c).stopped = false →
      (s.core c).seg = none →
      s.nextEntry c = some (i, e) → e.slack < s.phaseNat - s.releaseTick e → s.ctl.log.length < logCapacity →
    ∃ t, exec (.late c) s = .next t ∧ t.run.stopped = true ∧
      ∃ x ∈ t.ctl.log, x.kind = 1 ∧ x.code = 0x0101 ∧ x.core = c.val ∧ x.desc = e.descIndex) ∧
  (∀ (s : State) (c : Fin 64), exec (.elasticPromotion c) s = .next (s.bump (Reg.CORE_ELASTIC_PROMOTIONS c)))

/-- R87, R88, R90, R104: a resident operand is loaded, the sets swap, and one streamed row adds exact chunk sums to the
Vat (LONG accumulation, product mode, a tile that is open). Readings and choices of the model it rests on: log entries
20 and 47. -/
def Obligations.ArrayCommands : Prop :=
  (∀ (s : State) (c : Fin 64) (g : Seg) (p : Pt), s.running c = some g → g.shadow = none → g.nextLoad = some p →
      g.desc.kind ≠ .row → g.desc.modes.transpose ≠ 2 →
      s.snagReads c (s.loadResident c g.desc p (s.segExtents g)).acc = none →
      (s.loadResident c g.desc p (s.segExtents g)).drops = [] →
    ∃ t, exec (.shadowLoadComplete c) s = .next t ∧
      (t.core c).seg = some { g with shadow := some ⟨p.pass, (s.loadResident c g.desc p (s.segExtents g)).cols⟩,
                                     kept := (s.farReads c g.kept (s.loadResident c g.desc p (s.segExtents g)).acc).2 } ∧
      t.mem = s.mem ∧ t.ctl = s.ctl) ∧
  (∀ (s : State) (c : Fin 64) (g : Seg) (r : Resident) (p : Pt) (ps : List Pt), s.running c = some g →
      g.shadow = some r → g.todo = p :: ps → p.pass = r.pass →
    ∃ t, exec (.passSwap c) s = .next t ∧
      (t.core c).seg = some { g with active := some r, shadow := none, activeSet := 1 - g.activeSet,
                                     dueAt := if g.slotBusy p then some s.clock.now else none } ∧
      t.mem = s.mem ∧ t.ctl = s.ctl) ∧
  (∀ (s : State) (c : Fin 64) (g : Seg) (r : Resident) (p : Pt) (ps : List Pt) (tl : Tile), s.running c = some g →
      g.todo = p :: ps → g.active = some r → g.desc.kind = .product → p.pass = r.pass → g.tileOf p = some tl →
      g.slotBusy p = false → g.desc.modes.transpose = 0 → g.desc.modes.windowed = false → g.badVat = [] →
      s.snagReads c (s.streamed c g.desc p (s.segExtents g) g.row).2 = none → tl.terms + g.desc.termStep ≤ 2 ^ 48 →
      s.armed clsCore c = none →
    ∃ t g', exec (.chunkSum c) s = .next t ∧ (t.core c).seg = some g' ∧
      tget [] g'.vat (g.desc.tileRowsV * tl.slot + g.row) =
        addRow none (tget [] g.vat (g.desc.tileRowsV * tl.slot + g.row)) (r.cols.map (fun col => chunkOf none (col.map
          (fun sl => Sys2Proof.Machine.Num.mul ((s.streamed c g.desc p (s.segExtents g) g.row).1.toArray.getD sl.pos (.fin 0 0)) sl.val)))) ∧
      (∀ k, k ≠ g.desc.tileRowsV * tl.slot + g.row → tget [] g'.vat k = tget [] g.vat k) ∧ t.mem = s.mem ∧ t.ctl = s.ctl)

/-- R100, R217, R238: a row of a finished tile is drained; under OUT_ROUTE 3 its bytes wait for the tile's request.
A byte with wrong parity in the check store, or a lane's generator found wrong, makes the segment rerun (R79, R277).
Readings and choices of the model it rests on: log entries 20 and 47. -/
def Obligations.DrainRowCompletes : Prop :=
  (∀ (s : State) (c : Fin 64) (g : Seg) (tl : Tile) (u : Upset), s.running c = some g → g.desc.kind = .product →
      g.tiles.find? (fun t => t.done) = some tl → g.badVat = [] → g.desc.modes.drainFunc = 0 → g.desc.modes.rowStat = 0 →
      g.desc.modes.stochastic = false → g.desc.modes.statOnly = false → g.desc.modes.outRoute = 3 →
      (∀ x ∈ g.compares tl, x.fail = false) → (s.core c).stopped = false → tl.drained + 1 < tl.rows → u.check = none →
    ∃ t g', exec (.drainRow ⟨c, u⟩) s = .next t ∧ (t.core c).seg = some g' ∧
      (∀ x ∈ g'.tiles, x.seq = tl.seq → x.drained = tl.drained + 1 ∧
        x.out = tl.out ++ placeRow g.desc (tl.drained / g.desc.rowsPer)
          (roundRow g.desc.modes.outFormat ((s.lanes g tl).map (fun l => (l.d, l.x, none))))) ∧
      t.reg (Reg.CORE_DRAIN_ROWS c) = (s.reg (Reg.CORE_DRAIN_ROWS c) + 1) % 2 ^ 32 ∧
      t.reg (Reg.CORE_RNG_FAULTS c) = (s.reg (Reg.CORE_RNG_FAULTS c) + u.gens.length) % 2 ^ 32 ∧ t.mem = s.mem ∧
      t.ctl.log = s.ctl.log) ∧
  (∀ (s : State) (c : Fin 64) (g : Seg) (tl : Tile) (u : Upset), s.running c = some g → g.desc.kind = .product →
      g.tiles.find? (fun t => t.done) = some tl → g.badVat = [] → g.desc.modes.drainFunc = 0 → g.desc.modes.rowStat = 0 →
      g.attempt < 3 → ((u.check.isSome = true ∧ g.compares tl ≠ []) ∨ (u.check = none ∧ g.desc.modes.stochastic = true ∧
        g.desc.modes.statOnly = false ∧ g.desc.modes.rowFn ≠ 9 ∧
        ∃ l ∈ s.lanes g tl, draws l.x = true ∧ ∃ i ∈ u.gens, laneGen c g.desc l.lane = 512 * c.val + i.val)) →
    ∃ t, exec (.drainRow ⟨c, u⟩) s = .next t ∧
      (t.core c).seg = some { g with status := .reloading, hits := g.hits + 1, dueAt := none } ∧
      (∃ qs, t.run.reqs = s.run.reqs ++ qs ∧ ∀ q ∈ qs, q.core = c.val ∧ q.fq = reloadQueue) ∧
        t.reg (Reg.CORE_RERUNS c) = (s.reg (Reg.CORE_RERUNS c) + 1) % 2 ^ 32 ∧ t.mem = s.mem ∧ t.ctl.log = s.ctl.log)
/-! ### The plan's run and the step (chapters 02, 08, 11) -/

/-- R53, R57, R212, R298: requests that wait for the next boundary, the end and the abort of a run. Readings and choices
of the model it rests on: log entry 37. -/
def Obligations.RunRequestCommands : Prop :=
  (∀ (s : State) (v : Word),
    exec (.variantRequest v) s = .next { s with run := { s.run with request := some (v.toNat % 16) } }) ∧
  (∀ s : State, exec .shapeArm s = .next { s with run := { s.run with shapeArmed := true } }) ∧
  (∀ s : State, exec .hpArm s = .next { s with run := { s.run with hpArmed := true } }) ∧
  (∀ s : State, s.run.stopped = true → exec .runEnd s = .next { s with run := { s.run with run := false, stopped := false } }) ∧
  (∀ s : State, s.run.stopped = false → s.planRuns = true →
    exec .runEnd s = .next { s with run := { s.run with ending := true } }) ∧
  (∀ s : State, s.planRuns = true → s.ctl.log.length < logCapacity →
    ∃ t, exec .abort s = .next t ∧ t.run.stopped = true ∧ t.run.ending = false ∧ t.Recorded 0x010A clsPhase s.clock.phase)

/-- R22, R35, R52, R53, R57, R418, R425: a plan starts, and a stopped step is retried. Readings and choices of the model
it rests on: log entry 37. -/
def Obligations.RunStartAndRetry : Prop :=
  (∀ (s : State) (p : Plan) (r : Nat) (v : Variant), s.run.run = false → s.run.ending = false → s.run.plan = some p →
      s.mayStart = true → s.run.request = none → s.fab.planeLost = [] → p.planeSet < 4 → p.rungAt 0 = some r →
      p.variants.find? (fun v => v.rung == r && v.planes == p.planeSet) = some v →
    ∃ t, exec .runStart s = .next t ∧ t.run.run = true ∧ t.run.stopped = false ∧ t.run.ending = false ∧ t.run.step = 0 ∧
      t.run.stepStart = s.stepBase ∧ t.run.variant = v.number ∧ t.run.rung = r ∧ t.run.selftest = true ∧
      t.run.milkDue = allCores ∧ t.run.reqs = [] ∧ t.run.cores = p.freshCores) ∧
  (∀ (s : State) (hi : Word) (p : Plan) (v : Variant), s.run.plan = some p → s.run.stopped = true → s.run.run = true →
      s.safety.stop = false → s.run.request = none → s.fab.planeLost = [] → p.planeSet < 4 →
      s.slot + 2 ≤ s.reg Reg.PHASE_RESUME_SLOT_LO + 2 ^ 32 * hi.toNat →
      p.variants.find? (fun v => v.rung == (p.rungAt (s.reg Reg.PHASE_RESUME_STEP)).getD s.run.rung && v.planes == p.planeSet) =
        some v →
    ∃ t, exec (.retryArm hi) s = .next t ∧ t.run.stopped = false ∧ t.run.run = true ∧
      t.run.step = s.reg Reg.PHASE_RESUME_STEP ∧
      t.run.stepStart = s.reg Reg.PHASE_RESUME_SLOT_LO + 2 ^ 32 * hi.toNat ∧ t.run.variant = v.number ∧
      t.run.selftest = true ∧ t.run.milkDue = allCores ∧ t.run.reqs = []) ∧
  (∀ s : State, s.run.run = false → s.run.ending = false → s.run.plan = none →
    ∃ t, exec .runStart s = .next t ∧ t.run = s.run ∧
      t.reg (Reg.EVENT_RAW clsPhase 0) = s.reg (Reg.EVENT_RAW clsPhase 0) ||| 2 ^ evRefused)

/-- R19, R35, R57: at the barrier the next step begins, or the plan ends. Readings and choices of the model it rests on:
log entry 38. -/
def Obligations.StepBoundaryCompletes : Prop :=
  (∀ (s : State) (p : Plan) (v : Variant) (w : Nat), s.run.plan = some p → p.variant s.run.variant = some v →
      s.atBarrier v = true → s.run.ending = false → s.run.request = none → s.twin = none → s.run.snapId = none →
      (s.choose p (s.run.step + 1) (s.run.stepStart + v.stepSlots - 1)).variant = some w →
    ∃ t, exec .stepBoundary s = .next t ∧ t.run.step = s.run.step + 1 ∧ s.run.stepStart + v.stepSlots ≤ t.run.stepStart ∧
      t.run.stepStart ≤ s.run.stepStart + v.stepSlots + 32 ∧ t.run.variant = w ∧
      (∀ k ∈ t.run.cores, k.2.entry = 0 ∧ k.2.atBoundary = false)) ∧
  (∀ (s : State) (p : Plan) (v : Variant), s.run.plan = some p → p.variant s.run.variant = some v →
      s.atBarrier v = true → s.run.ending = true → s.twin = none → s.run.snapId = none →
    ∃ t, exec .stepBoundary s = .next t ∧ t.run.run = false ∧ t.run.monitor = none)

/-! ### Queue pairs (chapter 13) -/

/-- R395, R396, R399: a queue is enabled, disabled, and its next entry started. Readings and choices of the model it
rests on: log entry 35. -/
def Obligations.QueueControlCommands : Prop :=
  (∀ (s : State) (q : Fin 4096) (w : Word), 16 ≤ q.val → (s.pair q).enable = false → bitOf w.toNat 31 = true →
      s.enableCause q { s.pair q with sqExp := fieldOf w.toNat 15 12, cqExp := fieldOf w.toNat 11 8 } = 0 →
    exec (.queueEnable q w) s = .next (s.setPair q { s.pair q with
      sqExp := fieldOf w.toNat 15 12, cqExp := fieldOf w.toNat 11 8, enable := true, error := false, cause := 0, sqTail := 0,
      sqHead := 0, cqTail := 0, cqHead := 0, phase := true })) ∧
  (∀ (s : State) (q : Fin 4096), 16 ≤ q.val →
    exec (.queueDisable q) s = .next (s.setPair q { s.pair q with enable := false })) ∧
  (∀ (s : State) (q : Fin 4096) (e : List Word), (s.pair q).mayStart = true → s.hasTurn q = true → s.CleanStacks →
      s.CleanCaches → (s.pair q).sqBase + 64 * (s.pair q).sqHead + 64 ≤ 12 * stackBytes →
      cmdWords (bytesAt s.mem.cells ((s.pair q).sqBase + 64 * (s.pair q).sqHead) 64) = e →
      s.fenceWaits (s.pair q) = false → entOp e ≤ 5 → entReserved e = false →
      (∀ a ∈ entAddrs e, zEndpoint a = s.moduleNum ∧ zSpace a ≤ 1) →
    ∃ t, exec (.submissionStart q) s = .next t ∧ t.pair q = { s.pair q with
      sqHead := ((s.pair q).sqHead + 1) % 2 ^ (s.pair q).sqExp, busy := (s.pair q).busy ++ [((s.pair q).sqHead, e)] } ∧
      t.mem.cells = s.mem.cells)

/-- R397, R400: an entry without data, or with data in the second tier, is carried out and completes; every byte outside
its destination and its completion record stays. Readings and choices of the model it rests on: log entry 35. -/
def Obligations.QueueEntryCommands : Prop :=
  (∀ (s : State) (q : Fin 4096) (ix : Nat) (e : List Word), s.entry q ix 0 = some e → s.CleanStacks →
    ∃ t, exec (.sqNop q ix) s = .next t ∧ s.Completed t q ix (entTag e) stOk 0 ∧
      (∀ a, ¬ (s.ringPlace q ≤ a ∧ a < s.ringPlace q + 16) → byteAt t.mem.cells a = byteAt s.mem.cells a)) ∧
  (∀ (s : State) (q : Fin 4096) (ix : Nat) (e : List Word), s.entry q ix 5 = some e → s.CleanStacks →
    ∃ t, exec (.sqFence q ix) s = .next t ∧ s.Completed t q ix (entTag e) stOk 0 ∧
      (∀ a, ¬ (s.ringPlace q ≤ a ∧ a < s.ringPlace q + 16) → byteAt t.mem.cells a = byteAt s.mem.cells a)) ∧
  (∀ (s : State) (q : Fin 4096) (ix : Nat) (e : List Word), s.entry q ix 2 = some e → s.CleanStacks →
      zSpace (entDst e) = 1 →
      entLen e % 8 = 0 → entLen e ≠ 0 → zOff (entDst e) + entLen e ≤ 2 ^ 40 → s.TierTakes (zOff (entDst e)) (entLen e) →
      s.ringPlace q + 16 ≤ 2 ^ 48 →
    ∃ t, exec (.fill q ix) s = .next t ∧ s.Completed t q ix (entTag e) stOk (entLen e) ∧
      (∀ i, i < entLen e → byteAt t.mem.cells (lpKey (zOff (entDst e)) + i) = (leBytes 8 (entPattern e)).getD (i % 8) 0) ∧
      (∀ a, ¬ (s.ringPlace q ≤ a ∧ a < s.ringPlace q + 16) →
        ¬ (lpKey (zOff (entDst e)) ≤ a ∧ a < lpKey (zOff (entDst e)) + entLen e) →
        byteAt t.mem.cells a = byteAt s.mem.cells a)) ∧
  (∀ (s : State) (q : Fin 4096) (ix : Nat) (e : List Word), s.entry q ix 1 = some e → s.CleanStacks →
      zSpace (entDst e) = 1 →
      zSpace (entSrc e) = 1 → overlap (entSrc e) (entLen e) (entDst e) (entLen e) = false → entLen e ≠ 0 →
      zOff (entSrc e) + entLen e ≤ 2 ^ 40 → zOff (entDst e) + entLen e ≤ 2 ^ 40 →
      s.TierReads (zOff (entSrc e)) (entLen e) → s.TierTakes (zOff (entDst e)) (entLen e) → s.ringPlace q + 16 ≤ 2 ^ 48 →
    ∃ t, exec (.copy q ix) s = .next t ∧ s.Completed t q ix (entTag e) stOk (entLen e) ∧
      (∀ i, i < entLen e → byteAt t.mem.cells (lpKey (zOff (entDst e)) + i) = byteAt s.mem.cells (lpKey (zOff (entSrc e)) + i)) ∧
      (∀ a, ¬ (s.ringPlace q ≤ a ∧ a < s.ringPlace q + 16) →
        ¬ (lpKey (zOff (entDst e)) ≤ a ∧ a < lpKey (zOff (entDst e)) + entLen e) →
        byteAt t.mem.cells a = byteAt s.mem.cells a)) ∧
  (∀ (s : State) (q : Fin 4096) (ix : Nat) (e : List Word), s.entry q ix 3 = some e → s.CleanStacks →
      zSpace (entSrc e) = 1 → zOff (entSrc e) + entLen e ≤ 2 ^ 40 → s.TierReads (zOff (entSrc e)) (entLen e) →
    ∃ t, exec (.digest q ix) s = .next t ∧
      s.Completed t q ix (entTag e) stOk (crc64 (bytesAt s.mem.cells (lpKey (zOff (entSrc e))) (entLen e))) ∧
      (∀ a, ¬ (s.ringPlace q ≤ a ∧ a < s.ringPlace q + 16) → byteAt t.mem.cells a = byteAt s.mem.cells a))

/-- R492 to R496: an image is judged. One that passes every check is accepted, and its entry completes with OK; a refused
one leaves the loaded plan, and its entry completes with BAD_ARGUMENT and the refusal. A load while a plan runs is answered
with BUSY; one that finds host commands in progress waits for them. Readings and choices of the model it rests on: log
entry 36. -/
def Obligations.PlanLoadCompletes : Prop :=
  (∀ (s : State) (q : Fin 4096) (ix : Nat) (e : List Word) (img : List Byte), s.entry q ix 4 = some e → s.loadBusy = false →
      s.hostCommands = false → zSpace (entSrc e) = 1 → zOff (entSrc e) + entLen e ≤ 2 ^ 40 →
      s.TierReads (zOff (entSrc e)) (entLen e) → img = bytesAt s.mem.cells (lpKey (zOff (entSrc e))) (entLen e) →
    exec (.planLoad q ix) s = .next (match s.judge img with
      | .inr p => (s.accept p).entryDone q ix (entTag e) stOk 0
      | .inl r => s.entryDone q ix (entTag e) stBadArgument r.result)) ∧
  (∀ (s : State) (q : Fin 4096) (ix : Nat) (e : List Word) (r : Refuse), s.entry q ix 4 = some e → s.loadBusy = false →
      s.hostCommands = false → zSpace (entSrc e) = 1 → zOff (entSrc e) + entLen e ≤ 2 ^ 40 →
      s.TierReads (zOff (entSrc e)) (entLen e) → s.CleanStacks →
      s.judge (bytesAt s.mem.cells (lpKey (zOff (entSrc e))) (entLen e)) = .inl r →
    ∃ t, exec (.planLoad q ix) s = .next t ∧ s.Completed t q ix (entTag e) stBadArgument r.result ∧ t.run = s.run ∧
      t.fab = s.fab) ∧
  (∀ (s : State) (q : Fin 4096) (ix : Nat) (e : List Word), s.entry q ix 4 = some e → s.loadBusy = true → s.CleanStacks →
    ∃ t, exec (.planLoad q ix) s = .next t ∧ s.Completed t q ix (entTag e) stBusy 0 ∧ t.run = s.run) ∧
  (∀ (s : State) (q : Fin 4096) (ix : Nat) (e : List Word), s.entry q ix 4 = some e → s.loadBusy = false →
      s.hostCommands = true → exec (.planLoad q ix) s = .next s) ∧
  (∀ (s : State) (p : Plan), (s.takePlan p).run.plan = some p ∧ (s.takePlan p).run.cores = p.freshCores ∧
    (s.takePlan p).fab.redLines = [] ∧ (s.takePlan p).run.run = s.run.run ∧ (s.takePlan p).run.snapId = s.run.snapId ∧
    (s.takePlan p).mem = s.mem)

/-! ### Register writes and reads with a behaviour of their own (chapters 00, 13) -/

/-- R390, R391, R282, Table 00.4: page 0 of a block, a plain register, a field that a read clears, the phase's high
word. Readings and choices of the model it rests on: log entry 39. -/
def Obligations.PageZeroAndPlainWrites : Prop :=
  (∀ (s : State) (b : Blk), blkStands b = true → s.inService b.cls b.inst = true →
    ∃ t, exec (.clearCounters b) s = .next t ∧ t.reg (Reg.COUNTER_0 b.cls b.inst) = 0 ∧
      t.reg (Reg.COUNTER_1 b.cls b.inst) = 0 ∧ t.reg (Reg.COUNTER_2 b.cls b.inst) = 0 ∧
      t.reg (Reg.COUNTER_3 b.cls b.inst) = 0 ∧
      (∀ a, a ∉ [Reg.COUNTER_0 b.cls b.inst, Reg.COUNTER_1 b.cls b.inst, Reg.COUNTER_2 b.cls b.inst,
        Reg.COUNTER_3 b.cls b.inst] → t.reg a = s.reg a) ∧ t.mem = s.mem ∧ t.ctl = s.ctl) ∧
  (∀ (s : State) (b : Blk) (w : Word), blkStands b = true → s.inService b.cls b.inst = true →
    ∃ t, exec (.eventLatchClear b w) s = .next t ∧
      (∀ i, i < 8 → bitOf (t.reg (Reg.EVENT_LATCH b.cls b.inst)) i =
        (bitOf (s.reg (Reg.EVENT_LATCH b.cls b.inst)) i && !bitOf w.toNat i)) ∧
      (∀ a, a ≠ Reg.EVENT_LATCH b.cls b.inst → t.reg a = s.reg a) ∧ t.mem = s.mem ∧ t.ctl = s.ctl) ∧
  (∀ (s : State) (b : Blk) (w : Word), blkStands b = true → s.inService b.cls b.inst = true →
    ∃ t, exec (.pailConfigWrite b w) s = .next t ∧ t.reg (Reg.PAIL_CONFIG b.cls b.inst) = w.toNat &&& 0x1FFFFF ∧
      fieldOf (t.reg (Reg.PAIL_LEVEL b.cls b.inst)) 15 0 =
        min (fieldOf (s.reg (Reg.PAIL_LEVEL b.cls b.inst)) 15 0) (max 1 (fieldOf w.toNat 15 0)) ∧
      fieldOf (t.reg (Reg.PAIL_LEVEL b.cls b.inst)) 31 16 = fieldOf (s.reg (Reg.PAIL_LEVEL b.cls b.inst)) 31 16 ∧
      t.mem = s.mem) ∧
  (∀ (s : State) (a v : Word) (r : RegRow), regStands a.toNat = true → s.regInService a.toNat = true →
      fieldOf a.toNat 15 12 ≠ 0 → fieldOf a.toNat 31 24 ∈ [clsCore, clsQuarter, clsMsc, clsLpddr, clsCopy] →
      rowOf a.toNat = some r → r.rwl = 0 →
    ∃ t, exec (.plainRegisterWrite a v) s = .next t ∧
      (∀ i, i < 32 → bitOf (t.reg a.toNat) i =
        if bitOf r.rw i then bitOf v.toNat i
        else (bitOf (s.reg a.toNat) i && !(bitOf r.w1c i && bitOf v.toNat i))) ∧
      (∀ b, b ≠ a.toNat → t.reg b = s.reg b) ∧ t.mem = s.mem) ∧
  (∀ (s : State) (a : Word), regStands a.toNat = true → s.regInService a.toNat = true → a.toNat ≠ Reg.PHASE_PHASE_LO →
      ((rowOf a.toNat).map (·.rc)).getD 0 ≠ 0 →
    ∃ t, exec (.readClearField a) s = .next t ∧ t.reg a.toNat = (resetOf a.toNat).toNat ∧
      (∀ b, b ≠ a.toNat → t.reg b = s.reg b) ∧ t.mem = s.mem) ∧
  (∀ s : State, s.power.started = true →
    ∃ t, exec .phaseLoRead s = .next t ∧ t.reg Reg.PHASE_PHASE_HI = s.phaseNat / 2 ^ 32 ∧
      (∀ b, b ≠ Reg.PHASE_PHASE_HI → t.reg b = s.reg b) ∧ t.clock = s.clock) ∧
  (∀ (s : State) (w : Word), ∃ t, exec (.calSelectWrite w) s = .next t ∧ t.reg Reg.CAL_CAL_SELECT = w.toNat % 2 ^ 16 ∧
    (∀ b, b ≠ Reg.CAL_CAL_SELECT → t.reg b = s.reg b) ∧ t.boot = s.boot)

/-- R284, R287, R332, R376: flip masks, code regions, the module number, port settings. Readings and choices of the
model it rests on: log entry 39. -/
def Obligations.BlockSettingWrites : Prop :=
  (∀ (s : State) (b : Blk) (w : Word), blkStands b = true → s.inService b.cls b.inst = true → flipClass b.cls = true →
      ((b.cls = clsHbm ∨ b.cls = clsLpddr) → s.planRuns = false) →
    ∃ t, exec (.flipMaskArm b w) s = .next t ∧ t.reg (Reg.FLIP_MASK_HI b.cls b.inst) = w.toNat ∧
      bitOf (t.reg (flipSelect b.cls b.inst)) 31 = true ∧
      (∀ i, i < 31 → bitOf (t.reg (flipSelect b.cls b.inst)) i = bitOf (s.reg (flipSelect b.cls b.inst)) i) ∧
      t.mem = s.mem) ∧
  (∀ (s : State) (b : Blk) (w : Word), blkStands b = true → s.inService b.cls b.inst = true →
      (b.cls = clsHbm ∨ b.cls = clsLpddr) → s.planRuns = true →
    ∃ t, exec (.flipMaskArm b w) s = .next t ∧ t.reg (flipSelect b.cls b.inst) = s.reg (flipSelect b.cls b.inst) ∧
      t.reg (Reg.EVENT_RAW b.cls b.inst) = s.reg (Reg.EVENT_RAW b.cls b.inst) ||| 2 ^ evRefused) ∧
  (∀ (s : State) (st : Fin 12) (i : Fin 64) (w : Word), s.inService clsHbm st = true → s.planRuns = false →
      codeWordOk (w.toNat &&& 0x83FFFFFF) = true →
      (∀ j < 64, j ≠ i.val → codeWordsMeet (w.toNat &&& 0x83FFFFFF) (s.reg (Reg.HBM_CODE_REGION st j)) = false) →
    ∃ t, exec (.codeRegionWordWrite st i w) s = .next t ∧ t.reg (Reg.HBM_CODE_REGION st i) = w.toNat &&& 0x83FFFFFF ∧
      (∀ b, b ≠ Reg.HBM_CODE_REGION st i → t.reg b = s.reg b) ∧ t.mem.cells = s.mem.cells) ∧
  (∀ (s : State) (st : Fin 12) (i : Fin 64) (w : Word), s.inService clsHbm st = true →
      (s.planRuns = true ∨ codeWordOk (w.toNat &&& 0x83FFFFFF) = false ∨
        ∃ j < 64, j ≠ i.val ∧ codeWordsMeet (w.toNat &&& 0x83FFFFFF) (s.reg (Reg.HBM_CODE_REGION st j)) = true) →
    ∃ t, exec (.codeRegionWordWrite st i w) s = .next t ∧
      t.reg (Reg.HBM_CODE_REGION st i) = s.reg (Reg.HBM_CODE_REGION st i) ∧ t.mem = s.mem ∧
      t.reg (Reg.EVENT_RAW clsHbm st) = s.reg (Reg.EVENT_RAW clsHbm st) ||| 2 ^ evRefused) ∧
  (∀ (s : State) (v : Word), s.inService clsFabric 0 = true → s.numbered = false →
    ∃ t, exec (.moduleNumberWrite v) s = .next t ∧ t.reg (Reg.FABRIC_MODULE_NUMBER 0) = 4096 + v.toNat % 4096 ∧
      t.power.moduleNumber = some (v.toNat % 4096) ∧ t.mem = s.mem ∧ t.run = s.run) ∧
  (∀ (s : State) (v : Word), s.numbered = true → exec (.moduleNumberWrite v) s = .next s) ∧
  (∀ (s : State) (p : Fin 8) (w : Word), s.inService clsPort p = true → s.planRuns = false → bitOf w.toNat 8 = true →
    ∃ t, exec (.portConfigWrite p w) s = .next t ∧ t.reg (Reg.PORT_PORT_CONFIG p) = 256 + fieldOf w.toNat 1 0 ∧
      (∀ b, b ≠ Reg.PORT_PORT_CONFIG p → t.reg b = s.reg b) ∧ t.fab = s.fab) ∧
  (∀ (s : State) (p : Fin 8) (w : Word), s.inService clsPort p = true → s.planRuns = false → bitOf w.toNat 8 = false →
    ∃ t, exec (.portConfigWrite p w) s = .next t ∧ t.reg (Reg.PORT_PORT_CONFIG p) = fieldOf w.toNat 1 0 ∧
      t.portLive p = false ∧ (∀ q : Fin 8, q ≠ p → t.port q = s.port q)) ∧
  (∀ (s : State) (p : Fin 8), ∃ t, exec (.pauseFrame p) s = .next t ∧
    t.reg (Reg.PORT_PAUSE_IGNORED p) = (s.reg (Reg.PORT_PAUSE_IGNORED p) + 1) % 2 ^ 32 ∧ t.fab = s.fab ∧ t.mem = s.mem)

/-- R165, R319, R320, R322: a host command is queued at a base die; a snapshot is asked for. Readings and choices of the
model it rests on: log entries 39 and 30. -/
def Obligations.HostCommandSubmission : Prop :=
  (∀ (s : State) (st : Fin 12), s.inService clsSep st = true → s.planRuns = false → s.loading = false →
      (s.sep st).queue.length < 16 →
    ∃ t, exec (.sepCmdSubmit st) s = .next t ∧
      (t.sep st).queue = (s.sep st).queue ++
        [⟨(List.range 16).map (fun i => BitVec.ofNat 32 (s.reg (Reg.SEP_CMD_WORD st i))), .host⟩] ∧
      (t.sep st).cur = (s.sep st).cur ∧ t.reg (Reg.SEP_CMD_STATUS st) = 0 ∧ t.reg (Reg.SEP_CMD_FAULT_ADDR st) = 0 ∧
      t.mem = s.mem) ∧
  (∀ (s : State) (st : Fin 12), s.inService clsSep st = true → (s.planRuns = true ∨ s.loading = true ∨
      16 ≤ (s.sep st).queue.length) →
    ∃ t, exec (.sepCmdSubmit st) s = .next t ∧ t.seps = s.seps ∧
      t.reg (Reg.EVENT_RAW clsSep st) = s.reg (Reg.EVENT_RAW clsSep st) ||| 2 ^ evRefused) ∧
  (∀ (s : State) (st : Fin 12), s.inService clsUpd st = true → s.planRuns = false → s.loading = false →
      (s.upd st).queue.length < 16 →
    ∃ t, exec (.updCmdSubmit st) s = .next t ∧
      (t.upd st).queue = (s.upd st).queue ++
        [⟨(List.range 16).map (fun i => BitVec.ofNat 32 (s.reg (Reg.UPD_CMD_WORD st i))), .host⟩] ∧
      (t.upd st).cur = (s.upd st).cur ∧ t.reg (Reg.UPD_CMD_STATUS st) = 0 ∧ t.reg (Reg.UPD_CMD_FAULT_ADDR st) = 0 ∧
      t.mem = s.mem) ∧
  (∀ (s : State) (w : Word), w ≠ 0 → bitOf (s.reg Reg.UPD_SNAP_STATUS) 17 = false →
      bitOf (s.reg Reg.UPD_SNAP_STATUS) 18 = false →
    ∃ t, exec (.snapRequest w) s = .next t ∧ t.run.snapId = some w ∧ bitOf (t.reg Reg.UPD_SNAP_STATUS) 16 = true ∧
      bitOf (t.reg Reg.UPD_SNAP_STATUS) 19 = false ∧ fieldOf (t.reg Reg.UPD_SNAP_STATUS) 15 0 = w.toNat % 2 ^ 16 ∧
      t.mem = s.mem) ∧
  (∀ (s : State) (w : Word), w ≠ 0 → (bitOf (s.reg Reg.UPD_SNAP_STATUS) 17 = true ∨
      bitOf (s.reg Reg.UPD_SNAP_STATUS) 18 = true) →
    ∃ t, exec (.snapRequest w) s = .next t ∧ t.run = s.run ∧ bitOf (t.reg Reg.UPD_SNAP_STATUS) 19 = true ∧
      t.reg (Reg.EVENT_RAW clsUpd 0) = s.reg (Reg.EVENT_RAW clsUpd 0) ||| 2 ^ evRefused) ∧
  (∀ (s : State) (st : Fin 12) (sh : Fin 4096) (r : RemoteReq),
      s.fab.remote.find? (fun r => r.use == .ship st.val sh.val) = some r →
    ∃ t, exec (.snapshotRecordAck st sh) s = .next t ∧ (∀ x ∈ t.fab.remote, x.tag ≠ r.tag) ∧
      (t.shipping = false → bitOf (t.reg Reg.UPD_SNAP_STATUS) 18 = false) ∧ t.mem = s.mem)

/-! ### Identity, settings and firmware (chapter 16) -/

/-- R480, R481, R483, R463: a change of settings writes a new complete generation beside the one in use; the offsets in
force stay until the next start. Readings and choices of the model it rests on: log entries 39 and 45. -/
def Obligations.SettingsCommands : Prop :=
  (∀ s : State, s.boot.migration = false →
    ∃ t, exec .userSet s = .next t ∧
      (∀ id, tfind t.boot.settings.offsets id = if id = s.reg Reg.CAL_USER_ID then
        some (signedOf 32 (s.reg Reg.CAL_USER_VALUE)) else tfind s.boot.settings.offsets id) ∧
      t.boot.settings.gen = s.boot.settings.gen + 1 ∧ t.boot.inForce = s.boot.inForce ∧
      t.boot.settings.twin = s.boot.settings.twin ∧ t.boot.settings.anchors = s.boot.settings.anchors ∧ t.regs = s.regs) ∧
  (∀ s : State, s.boot.migration = false →
    ∃ t, exec .userClear s = .next t ∧
      (∀ id, tfind t.boot.settings.offsets id = if id = s.reg Reg.CAL_USER_ID then none
        else tfind s.boot.settings.offsets id) ∧
      t.boot.settings.gen = s.boot.settings.gen + 1 ∧ t.boot.inForce = s.boot.inForce ∧ t.regs = s.regs) ∧
  (∀ s : State, s.boot.migration = false →
    ∃ t, exec .userClearAll s = .next t ∧ t.boot.settings.offsets = [] ∧
      t.boot.settings.gen = s.boot.settings.gen + 1 ∧ t.boot.inForce = s.boot.inForce ∧ t.regs = s.regs) ∧
  (∀ (s : State) (i : Fin 4), s.boot.migration = false →
    ∃ t, exec (.anchorSet i) s = .next t ∧
      (∀ k, tfind t.boot.settings.anchors k = if k = i.val then some s.anchorDigest else tfind s.boot.settings.anchors k) ∧
      t.boot.settings.gen = s.boot.settings.gen + 1 ∧ t.boot.settings.offsets = s.boot.settings.offsets ∧ t.regs = s.regs) ∧
  (∀ (s : State) (i : Fin 4), s.boot.migration = false →
    ∃ t, exec (.anchorClear i) s = .next t ∧
      (∀ k, tfind t.boot.settings.anchors k = if k = i.val then none else tfind s.boot.settings.anchors k) ∧
      t.boot.settings.gen = s.boot.settings.gen + 1 ∧ t.boot.settings.offsets = s.boot.settings.offsets ∧ t.regs = s.regs) ∧
  (∀ (s : State) (c : Instr), c ∈ [Instr.userSet, .userClear, .userClearAll] → s.boot.migration = true →
    ∃ t, exec c s = .next t ∧ t.boot = s.boot ∧
      t.reg (Reg.EVENT_RAW clsCal 0) = s.reg (Reg.EVENT_RAW clsCal 0) ||| 2 ^ evRefused)

/-- R466 to R468: the twin is bound, a changed identity acknowledged, the binding dissolved. Readings and choices of the
model it rests on: log entries 39 and 46. -/
def Obligations.BindingCommands : Prop :=
  (∀ (s : State) (p : Peer), s.fab.peers.find? (fun p => p.num == s.bindTwinReg && !p.host && !p.unreachable) = some p →
      (∀ n, s.twin = some n → n = s.bindTwinReg) → s.boot.migration = false →
    ∃ t, exec .bind s = .next t ∧ t.boot.settings.twin = some (s.bindTwinReg, p.key) ∧ t.boot.bind = .awaiting ∧
      t.boot.confirmed = false ∧ t.boot.settings.gen = s.boot.settings.gen + 1 ∧ t.regs = s.regs ∧ t.mem = s.mem) ∧
  (∀ s : State, s.fab.peers.find? (fun p => p.num == s.bindTwinReg && !p.host && !p.unreachable) = none →
    ∃ t, exec .bind s = .next t ∧ t.boot = s.boot ∧
      t.reg (Reg.EVENT_RAW clsBoot 0) = s.reg (Reg.EVENT_RAW clsBoot 0) ||| 2 ^ evRefused) ∧
  (∀ s : State, s.planRuns = false → s.boot.migration = false →
    ∃ t, exec .unbind s = .next t ∧ t.boot.settings.twin = none ∧ t.boot.settings.bindGen = 0 ∧ t.boot.bind = .unbound ∧
      t.boot.confirmed = false ∧
      t.boot.settings.gen = s.boot.settings.gen + 1 ∧ t.regs = s.regs ∧ t.mem = s.mem) ∧
  (∀ s : State, s.planRuns = true →
    ∃ t, exec .unbind s = .next t ∧ t.boot = s.boot ∧
      t.reg (Reg.EVENT_RAW clsBoot 0) = s.reg (Reg.EVENT_RAW clsBoot 0) ||| 2 ^ evRefused) ∧
  (∀ (s : State) (n : Nat) (k : BitVec 512), s.boot.bind = .changed → s.boot.settings.twin = some (n, k) →
      s.boot.migration = false →
    ∃ t, exec .attnAckIdentity s = .next t ∧ t.boot.settings.twin = some (n, s.boot.seenKey) ∧
      t.boot.settings.bindGen = (s.boot.settings.bindGen + 1) % 256 ∧ t.boot.bind = .awaiting ∧ t.boot.confirmed = false ∧
      t.boot.identity = false ∧ t.regs = s.regs ∧ t.mem = s.mem)

/-- R441, R462, R463, R343: who may join, on an Ethernet port and through Parlour; a peer refused leaves the peers as they
were. Readings and choices of the model it rests on: log entries 12, 46 and 50. -/
def Obligations.JoinCommands : Prop :=
  (∀ (s : State) (o : JoinOffer), o.viaParlour = true → s.power.parlour = true → s.mayJoin o = true → o.macsec = true →
      1 ≤ o.gen →
    ∃ t, exec (.join o) s = .next t ∧ o.peer ∈ t.safety.joined ∧
      (∀ n, n ≠ o.peer → (n ∈ t.safety.joined ↔ n ∈ s.safety.joined)) ∧
      tfind t.safety.gens o.peer = some (min 3 o.gen) ∧ s.SentJoin t o.peer o.host none ∧ t.fab = s.fab ∧ t.boot = s.boot) ∧
  (∀ (s : State) (o : JoinOffer), o.viaParlour = true → s.power.parlour = true → (s.mayJoin o = false ∨ o.macsec = false) →
    ∃ t, exec (.join o) s = .next t ∧ t.safety = s.safety ∧ t.fab = s.fab ∧ t.out = s.out ∧
      t.reg (Reg.EVENT_RAW clsBoot 0) = s.reg (Reg.EVENT_RAW clsBoot 0) ||| 2 ^ evRefused) ∧
  (∀ (s : State) (o : JoinOffer), o.viaParlour = false → s.power.die = true → s.power.started = true →
      s.numbered = true → s.fab.joining < 256 → s.mayJoin o = true → s.peerRoom o = true → o.macsec = true →
      o.plane < 2 → 1 ≤ o.gen →
    ∃ t, exec (.join o) s = .next t ∧ t.joinedOn o.peer o.host o.plane = true ∧
      (t.peerOn o.peer o.host o.plane).map (·.key) = some (o.chain.head?.getD 0) ∧
      (∀ w ∈ t.fab.joinWait, ¬ (w.1 = o.peer ∧ w.2.1 = o.host ∧ w.2.2.1 = o.plane))) ∧
  (∀ (s : State) (o : JoinOffer), o.viaParlour = false → s.power.die = true → s.power.started = true →
      s.numbered = true → s.fab.joining < 256 → (s.mayJoin o = false ∨ o.macsec = false) →
    ∃ t, exec (.join o) s = .next t ∧ t.fab = { s.fab with joining := s.fab.joining + 1 } ∧ t.boot = s.boot ∧
      t.safety = s.safety ∧
      t.reg (Reg.EVENT_RAW clsBoot 0) = s.reg (Reg.EVENT_RAW clsBoot 0) ||| 2 ^ evRefused) ∧
  (∀ (s : State) (o : JoinOffer), o.viaParlour = false → 256 ≤ s.fab.joining → exec (.join o) s = .next s) ∧
  (∀ (s : State) (p : Fin 8), s.power.die = true → bitOf (s.reg (Reg.PORT_PORT_CONFIG p)) 8 = true →
      s.portLive p = false →
    ∃ t, exec (.portUp p) s = .next t ∧ t.portLive p = true ∧ (t.port p).downAt = none ∧
      t.reg (Reg.EVENT_RAW clsPort p) = s.reg (Reg.EVENT_RAW clsPort p) ||| 2 ^ evLink ∧ t.mem = s.mem ∧ t.run = s.run) ∧
  (∀ (s : State) (peer : Nat) (host : Bool) (plane n at_ : Nat),
      s.fab.joinWait.find? (fun w => w.1 == peer && w.2.1 == host && w.2.2.1 == plane) =
        some (peer, host, plane, n, at_) → at_ + 2 * n ≤ s.slot → 0 < n →
    ∃ t, exec (.joinRetryTimer peer host plane) s = .next t ∧
      (peer, host, plane, min 8192 (2 * n), s.slot) ∈ t.fab.joinWait ∧
      s.SentJoin t peer host (some plane)) ∧
  (∀ (s : State) (peer : Nat) (host : Bool) (p : Peer), p ∈ s.fab.peers → p.num = peer → p.host = host →
    ∃ t, exec (.macsecRekey peer host) s = .next t ∧ (peer, host) ∈ t.fab.rekeying ∧
      (∃ h share sig, Out.join peer host (some p.plane) h Config.certificates share sig ∈ t.out) ∧
        t.fab.peers = s.fab.peers)

/-- R470 to R474: an image is checked, staged and written to the inactive slot; Parlour's own image likewise. Readings
and choices of the model it rests on: log entries 5, 45 and 46. -/
def Obligations.StagingCommands : Prop :=
  (∀ (s : State) (k a : Nat) (h : List Byte), s.boot.staging = none → 1 ≤ k → k ≤ 4 → s.CleanStacks → s.CleanCaches →
      a = s.reg64 Reg.BOOT_STAGE_SRC_LO → zSpace a = 0 → s.ownMapped a (s.reg Reg.BOOT_STAGE_LENGTH) = true →
      h = bytesAt s.mem.cells (zOff a) 512 → headerOk k h = true → imgWord h 3 ≤ maxBody k →
      s.reg Reg.BOOT_STAGE_LENGTH = 512 + imgWord h 3 →
    ∃ t x, exec (.stageStart k) s = .next t ∧ t.boot.staging = some x ∧
      x = imageFrom k h (bytesAt s.mem.cells (zOff a + 512) (imgWord h 3)) ∧ t.boot.stageStatus = 0 ∧
      t.boot.images = s.boot.images ∧ t.boot.settings = s.boot.settings) ∧
  (∀ (s : State) (k : Nat), (s.boot.staging.isSome = true ∨ k = 0 ∨ 4 < k) →
    ∃ t, exec (.stageStart k) s = .next t ∧ t.boot = s.boot ∧
      t.reg (Reg.EVENT_RAW clsBoot 0) = s.reg (Reg.EVENT_RAW clsBoot 0) ||| 2 ^ evRefused) ∧
  (∀ (s : State) (x : Image), s.boot.staging = some x → x.bodyOk = true →
    ∃ t, exec .stagingComplete s = .next t ∧ t.boot.staging = none ∧ t.boot.stageStatus = 1 ∧
      t.images x.kind = { s.images x.kind with
        slots := (s.images x.kind).slots.set (1 - (s.images x.kind).active) (some x), next := 1 - (s.images x.kind).active,
        staged := true, triedOnce := false } ∧
      (∀ k, k ≠ x.kind → t.images k = s.images k) ∧ t.mem = s.mem) ∧
  (∀ (s : State) (v : Word), ∃ t, exec (.parlourStageOffsetWrite v) s = .next t ∧
    t.reg Reg.BOOT_PARLOUR_STAGE_OFFSET = v.toNat ∧ (∀ b, b ≠ Reg.BOOT_PARLOUR_STAGE_OFFSET → t.reg b = s.reg b) ∧
    t.mem = s.mem) ∧
  (∀ (s : State) (ws : List Word), s.reg Reg.BOOT_PARLOUR_STAGE_OFFSET + 4 * ws.length ≤ parlourBuffer →
    ∃ t, exec (.parlourStageAppend ws) s = .next t ∧
      t.reg Reg.BOOT_PARLOUR_STAGE_OFFSET = s.reg Reg.BOOT_PARLOUR_STAGE_OFFSET + 4 * ws.length ∧
      bytesAt t.mem.cells (stagingKey (s.reg Reg.BOOT_PARLOUR_STAGE_OFFSET)) (4 * ws.length) =
        ws.flatMap (fun w => leBytes 4 w.toNat) ∧
      (∀ a, ¬ (stagingKey (s.reg Reg.BOOT_PARLOUR_STAGE_OFFSET) ≤ a ∧
        a < stagingKey (s.reg Reg.BOOT_PARLOUR_STAGE_OFFSET) + 4 * ws.length) →
        byteAt t.mem.cells a = byteAt s.mem.cells a) ∧ t.boot = s.boot) ∧
  (∀ (s : State) (h : List Byte) (x : Image), h = bytesAt s.mem.cells (stagingKey 0) 512 → headerOk 5 h = true →
      imgWord h 3 ≤ maxBody 5 → s.reg Reg.BOOT_PARLOUR_STAGE_OFFSET = 512 + imgWord h 3 →
      x = imageFrom 5 h (bytesAt s.mem.cells (stagingKey 512) (imgWord h 3)) →
    ∃ t, exec .parlourCommit s = .next t ∧ t.boot.staging = s.boot.staging ∧
      t.boot.stageStatus = (if x.bodyOk then 1 else 4) ∧
      t.images 5 = (if x.bodyOk
        then { s.images 5 with
          slots := (s.images 5).slots.set (1 - (s.images 5).active) (some x), next := 1 - (s.images 5).active,
          staged := true, triedOnce := false }
        else { s.images 5 with slots := (s.images 5).slots.set (1 - (s.images 5).active) none, staged := false }) ∧
      t.mem = s.mem ∧ t.regs = s.regs)

/-- R477, R479: activation of staged images, Parlour's own restart. Readings and choices of the model it rests on: log
entry 39. -/
def Obligations.ActivationCommands : Prop :=
  (∀ (s : State) (w : Word), s.clock.locked = true → s.power.restore = none →
      s.phaseNat + 1024 * 4096 ≤ s.reg Reg.BOOT_ACTIVATE_AT_PHASE_LO + 2 ^ 32 * w.toNat →
    ∃ t, exec (.activateArm w) s = .next t ∧
      t.boot.armed = some (BitVec.ofNat 64 (s.reg Reg.BOOT_ACTIVATE_AT_PHASE_LO + 2 ^ 32 * w.toNat)) ∧ t.mem = s.mem) ∧
  (∀ (s : State) (w : Word), (s.clock.locked = false ∨ s.power.restore.isSome = true ∨
      s.reg Reg.BOOT_ACTIVATE_AT_PHASE_LO + 2 ^ 32 * w.toNat < s.phaseNat + 1024 * 4096) →
    ∃ t, exec (.activateArm w) s = .next t ∧ t.boot = s.boot ∧
      t.reg (Reg.EVENT_RAW clsBoot 0) = s.reg (Reg.EVENT_RAW clsBoot 0) ||| 2 ^ evRefused) ∧
  (∀ s : State, exec .activateCancel s = .next { s with boot := { s.boot with armed := none } }) ∧
  (∀ (s : State) (k : Nat) (f : Bool), s.planRuns = false → (s.revertTried 5).chooseSlot 5 = some (k, f) →
    ∃ t, exec .parlourActivate s = .next t ∧ t.power.parlour = true ∧ (t.images 5).booted = some k ∧
      (t.images 5).fellBack = f ∧
      t.safety.joined = [] ∧ t.safety.suspended = some (s.clock.now + 1400000000) ∧ t.mem = s.mem ∧ t.fab = s.fab) ∧
  (∀ s : State, s.planRuns = true →
    ∃ t, exec .parlourActivate s = .next t ∧ t.boot = s.boot ∧ t.safety = s.safety ∧
      t.reg (Reg.EVENT_RAW clsBoot 0) = s.reg (Reg.EVENT_RAW clsBoot 0) ||| 2 ^ evRefused)

/-- R454, R455: a restore begins with the headers of its first shard, and an abort ends it after the shard in progress.
Readings and choices of the model it rests on: log entries 32 and 46. -/
def Obligations.RestoreCommands : Prop :=
  (∀ (s : State) (p : Plan) (b : Bool) (n : Nat) (shards : List (Nat × Nat)), s.run.plan = some p → s.safety.stop = false →
      s.planRuns = false → s.boot.armed = none → s.power.restore = none → s.bindMutual = true →
      fieldOf (s.reg Reg.POWER_RESTORE_SOURCE) 11 0 = n → s.twin = some n →
      p.ownedShards.filter (fun x => !b || s.shardState x.1 x.2 == 6) = shards → shards ≠ [] →
      (∀ x ∈ shards, x.1 < 12 ∧ (s.twinPlace x.1 x.2).isSome = true) →
    ∃ t r, exec (.restoreStart b) s = .next t ∧ t.power.restore = some r ∧ r.source = n ∧ r.aborting = false ∧ r.bytes = 0 ∧
      (∀ i < 12, (r.jobs.filter (fun j => j.stack == i)).flatMap (·.left) = (shards.filter (fun x => x.1 == i)).map (·.2)) ∧
      (∀ j ∈ r.jobs, j.left ≠ [] ∧ j.headers = [[], []] ∧ j.tried = [] ∧ j.got = []) ∧
      t.power.restoreDone = false ∧ t.power.restoreFailed = false ∧ t.mem = s.mem ∧ t.run = s.run) ∧
  (∀ (s : State) (b : Bool), (s.run.plan = none ∨ s.planRuns = true ∨ s.boot.armed.isSome = true ∨
      s.power.restore.isSome = true ∨ s.bindMutual = false ∨ s.safety.stop = true ∨
      s.twin ≠ some (fieldOf (s.reg Reg.POWER_RESTORE_SOURCE) 11 0)) →
    ∃ t, exec (.restoreStart b) s = .next t ∧ t.power = s.power ∧ t.fab = s.fab ∧
      t.reg (Reg.EVENT_RAW clsPower 0) = s.reg (Reg.EVENT_RAW clsPower 0) ||| 2 ^ evRefused) ∧
  (∀ (s : State) (r : Restore), s.power.restore = some r →
    exec .restoreAbort s = .next { s with power := { s.power with restore := some { r with aborting := true } } })

/-! ### The System Cycle Phase (chapters 02, 12) -/

/-- R28, R30: what the end of a sync interval does to lock and holdover. Readings and choices of the model it rests on:
log entries 26 and 27. -/
def Obligations.SyncIntervalCommands : Prop :=
  (∀ s : State, s.power.die = true → s.clock.locked = true → s.clock.everLocked = true → s.clock.holdover = false →
      gradeOf s.intervalOffset = .bad →
    ∃ t, exec .syncIntervalEnd s = .next t ∧ t.clock.holdover = true ∧ t.clock.locked = true ∧ t.clock.holdCount = 1 ∧
      t.clock.goodRun = 0 ∧ t.clock.phase = s.clock.phase) ∧
  (∀ (s : State) (x : Int), s.power.die = true → s.clock.locked = true → s.clock.everLocked = true →
      s.clock.holdover = true → s.intervalOffset = some x → x.natAbs < 50000 →
    ∃ t, exec .syncIntervalEnd s = .next t ∧ t.clock.holdover = false ∧ t.clock.locked = true ∧ t.clock.holdCount = 0 ∧
      t.clock.corr = x ∧ t.clock.goodRun = min 255 (s.clock.goodRun + 1)) ∧
  (∀ s : State, s.power.die = true → s.clock.locked = true → s.clock.everLocked = true → s.clock.holdover = true →
      gradeOf s.intervalOffset ≠ .good →
    ∃ t, exec .syncIntervalEnd s = .next t ∧ t.clock.holdover = true ∧ t.clock.locked = true ∧
      t.clock.holdCount = s.clock.holdCount + 1 ∧ t.clock.goodRun = 0) ∧
  (∀ (s : State) (x : Int), s.power.die = true → s.clock.locked = false → s.clock.everLocked = true →
      s.intervalOffset = some x → x.natAbs < 50000 →
    ∃ t, exec .syncIntervalEnd s = .next t ∧ t.clock.locked = decide (15 ≤ s.clock.goodRun) ∧ t.clock.corr = x ∧
      t.clock.phase = s.clock.phase) ∧
  (∀ (s : State) (x : Int), s.power.die = true → s.clock.locked = false → s.clock.everLocked = false →
      s.intervalOffset = some x → x.natAbs < 50000 →
    ∃ t, exec .syncIntervalEnd s = .next t ∧ t.clock.phase = s.clock.phase - BitVec.ofInt 64 (x.tdiv 10000) ∧
      t.clock.locked = decide (15 ≤ s.clock.goodRun) ∧ t.clock.everLocked = decide (15 ≤ s.clock.goodRun) ∧
      (15 ≤ s.clock.goodRun → t.boot.migration = false)) ∧
  (∀ (s : State) (x : Int), s.power.die = true → s.planeOut 0 = false → s.planeOut 1 = false →
      s.clock.planeOffset 0 = some x → (∀ y, s.clock.planeOffset 1 = some y → (x - y).natAbs < 100000) →
    s.intervalOffset = some x) ∧
  (∀ (s : State) (x y : Int), s.planeOut 0 = false → s.planeOut 1 = false → s.clock.planeOffset 0 = some x →
      s.clock.planeOffset 1 = some y → 100000 ≤ (x - y).natAbs → s.intervalOffset = none)

/-- R29, R30, R349: the phase is lost, slewed; a PTP exchange on a port. Readings and choices of the model it rests on:
log entries 26 and 47. -/
def Obligations.PhaseAndPtpCommands : Prop :=
  (∀ s : State, s.clock.holdover = true → s.reg Reg.PHASE_HOLDOVER_LIMIT % 256 < s.clock.holdCount →
      s.ctl.log.length < logCapacity →
    ∃ t, exec .phaseLost s = .next t ∧ t.clock = { s.clock with locked := false, holdover := false, holdCount := 0, goodRun := 0 } ∧
      t.Recorded 0x0108 clsPhase s.clock.phase ∧ (s.planRuns = true → t.run.stopped = true)) ∧
  (∀ s : State, s.tickOf = 2048 → s.clock.everLocked = true → s.clock.holdover = false → s.clock.slewed ≠ some s.slot →
      5000 < s.clock.corr.natAbs →
    ∃ t, exec .slewCorrection s = .next t ∧ t.clock.slewed = some s.slot ∧
      t.clock.slew = some (if 0 < s.clock.corr then 0 else 2) ∧
      t.clock.corr = (if 0 < s.clock.corr then s.clock.corr - 10000 else s.clock.corr + 10000) ∧
      t.clock.phase = s.clock.phase ∧ t.regs = s.regs ∧ t.mem = s.mem ∧ t.run = s.run) ∧
  (∀ (s : State) (p : Fin 8) (domain : Nat) (t1 t2 : Int), s.portLive p = true → s.ptpDomain p = domain →
    ∃ t, exec (.sync p ⟨domain, t1⟩ t2) s = .next t ∧
      t.clock.sync.find? (fun x => x.port == p.val) = some ⟨p, t1, stampOf t2⟩ ∧
      (∀ x ∈ s.clock.sync, x.port ≠ p.val → x ∈ t.clock.sync) ∧ p.val ∈ t.clock.delayDue ∧ t.out = s.out) ∧
  (∀ (s : State) (p : Fin 8) (domain : Nat) (t1 t2 t3 t4 : Int), s.portLive p = true → s.ptpDomain p = domain →
      p.val ∉ s.clock.delayDue → s.clock.sync.find? (fun x => x.port == p.val) = some ⟨p, t1, t2⟩ →
    ∃ t, exec (.delayResp p t3 ⟨domain, t4⟩) s = .next t ∧
      t.clock.exch = s.clock.exch ++ [(p.val, s.exchange p t1 t2 (stampOf t3) t4)] ∧
      (∀ x ∈ t.clock.sync, x.port ≠ p.val)) ∧
  (∀ (s : State) (p : Fin 8) (domain : Nat) (t1 t2 : Int), s.ptpDomain p ≠ domain →
    exec (.sync p ⟨domain, t1⟩ t2) s = .next s ∧ exec (.delayResp p t1 ⟨domain, t2⟩) s = .next s) ∧
  (∀ (s : State) (p : Fin 8), s.tickOf = 4080 → s.clock.delayDue = [p.val] → s.portLive p = true →
    ∃ t, s.sendDelayReqs = t ∧ t.out = s.out ++ [.delayReq p (s.ptpDomain p) 7 (Config.planeVlan (p.val / 4))] ∧
      t.clock.delayDue = []) ∧
  (∀ x : Int, stampOf x % 250 = 0 ∧ stampOf x ≤ x ∧ x < stampOf x + 250) ∧
  (∀ (s : State) (p : Fin 8) (t1 t2 t3 t4 : Int), s.epochPs = 0 → s.reg (Reg.PORT_PTP_ASYMMETRY p) = 0 →
      s.reg (Reg.PORT_PTP_INGRESS_ADJ p) = 0 → s.reg (Reg.PORT_PTP_EGRESS_ADJ p) = 0 →
    s.exchange p t1 t2 t3 t4 = (((t2 - t1) + (t4 - t3)) / 2, ((t2 - t1) - (t4 - t3)) / 2))

/-! ### Separators (chapter 06) -/

/-- R142, R292, R519: a core's record queues at a base die; a write by another path is not executed. Readings and
choices of the model it rests on: log entry 48. -/
def Obligations.BaseDieArrivals : Prop :=
  (∀ (s : State) (st : Fin 12) (core : Fin 64) (id : Nat) (r : Req) (bs : List Byte), s.arriving core id = some r →
      s.planRuns = true → bs.length = 64 → (s.sep st).queue.length < 16 →
    ∃ t, exec (.sepCommandArrive st (.core core id) 0 bs) s = .next t ∧
      (t.sep st).queue = (s.sep st).queue ++ [⟨cmdWords bs, .seg core r.entry r.desc id⟩] ∧
      (t.sep st).cur = (s.sep st).cur ∧
      t.upds = s.upds ∧ t.mem = s.mem ∧ t.regs = s.regs) ∧
  (∀ (s : State) (st : Fin 12) (core : Fin 64) (id : Nat) (r : Req) (bs : List Byte), s.arriving core id = some r →
      s.planRuns = true → bs.length = 64 → (s.upd st).queue.length < 16 →
    ∃ t, exec (.updCommandArrive st (.core core id) 0 bs) s = .next t ∧
      (t.upd st).queue = (s.upd st).queue ++ [⟨cmdWords bs, .seg core r.entry r.desc id⟩] ∧
      (t.upd st).cur = (s.upd st).cur ∧
      t.seps = s.seps ∧ t.mem = s.mem ∧ t.regs = s.regs) ∧
  (∀ (s : State) (st : Fin 12) (off : Nat) (bs : List Byte),
    ∃ t, exec (.sepCommandArrive st .other off bs) s = .next t ∧ t.seps = s.seps ∧ t.mem = s.mem ∧
      t.reg (Reg.EVENT_RAW clsSep st) = s.reg (Reg.EVENT_RAW clsSep st) ||| 2 ^ evDiscard) ∧
  (∀ (s : State) (st : Fin 12) (core : Fin 64) (id off : Nat) (r : Req) (bs : List Byte), s.arriving core id = some r →
      s.planRuns = true → (off ≠ 0 ∨ bs.length ≠ 64) → s.ctl.log.length < logCapacity →
    ∃ t, exec (.sepCommandArrive st (.core core id) off bs) s = .next t ∧ t.Recorded 0x0401 clsSep s.clock.phase ∧
      t.run.stopped = true)

/-- R144, R145, R150, R153, R162, R309: a well-formed record at the front of an idle Separator's queue starts; on an
INCONSISTENT shard it is refused. Readings and choices
of the model it rests on: log entries 20 and 48. -/
def Obligations.SeparatorStarts : Prop :=
  (∀ (s : State) (st : Fin 12) (c : BaseCmd) (rest : List BaseCmd) (i : Instr) (op : Nat),
      ((i = .prune st ∧ op = opPrune) ∨ (i = .regrow st ∧ op = opRegrow)) → (s.sep st).cur = none →
      (s.sep st).queue = c :: rest → sepOp c = op → s.power.hold = false → s.safety.stop = false → s.sepBad st c = [] →
      s.updating st c.shard = false → s.shardState st c.shard ≠ 6 → s.QuietStacks →
    ∃ t, exec i s = .next t ∧ (t.sep st).queue = rest ∧
      (t.sep st).cur = some ⟨c, op, 0, none, (i == .regrow st || sepFill c) &&
        (tfind (s.sep st).slots (sepSlot c)).any (fun x => x.shard == c.shard && x.delivered), false, false⟩ ∧
      (∀ x ∈ (t.sep st).slots, x.2.shard ≠ c.shard) ∧ t.mem = s.mem ∧ t.run = s.run) ∧
  (∀ (s : State) (st : Fin 12) (c : BaseCmd) (rest : List BaseCmd), (s.sep st).cur = none → (s.sep st).queue = c :: rest →
      sepOp c = opCollect → s.power.hold = false → s.safety.stop = false → s.sepBad st c = [] →
      s.updating st c.shard = false → s.shardState st c.shard ≠ 6 → s.QuietStacks →
    ∃ t, exec (.collect st) s = .next t ∧ (t.sep st).queue = rest ∧ (t.sep st).cur = none ∧
      tfind (t.sep st).slots (sepSlot c) =
        some ⟨c.shard, (sepGeo c).rows, (sepGeo c).k, (sepGeo c).pitch, c.word 5, c.word 15, false⟩ ∧
      (∀ a, byteAt t.mem.cells a =
        if planeOff st (c.word 15) 0 ≤ a ∧ a < planeOff st (c.word 15) 0 + 32 * (sepGeo c).groups then 0
        else byteAt s.mem.cells a) ∧
      t.reg (Reg.SEP_COMMANDS st) = (s.reg (Reg.SEP_COMMANDS st) + 1) % 2 ^ 32) ∧
  (∀ (s : State) (st : Fin 12) (c : BaseCmd) (rest : List BaseCmd) (a : Audit), (s.sep st).cur = none →
      (s.sep st).queue = c :: rest → sepOp c = opAudit → s.power.hold = false → s.safety.stop = false →
      s.sepBad st c = [] → s.updating st c.shard = false → s.shardState st c.shard ≠ 6 → s.QuietStacks → c.word 6 ≠ 0 →
      bitOf (c.word 0) 13 = false →
      auditOf (sepSrcB c) (sepGeo c) [bytesAt s.mem.cells (planeOff st (c.word 5) 0) (2 * (sepGeo c).groups),
        bytesAt s.mem.cells (planeOff st (c.word 6) 0) (4 * budgetOf (sepSrcB c) * (sepGeo c).groups)] = a →
    ∃ t, exec (.audit st) s = .next t ∧ (t.sep st).queue = rest ∧ (t.sep st).cur = none ∧
      bytesAt t.mem.cells (planeOff st (c.word 15) 0) 32 = a.record ∧
      (∀ x, ¬ (planeOff st (c.word 15) 0 ≤ x ∧ x < planeOff st (c.word 15) 0 + 32) →
        byteAt t.mem.cells x = byteAt s.mem.cells x) ∧
      t.reg (Reg.SEP_AUDIT_FAILS st) = (s.reg (Reg.SEP_AUDIT_FAILS st) + bnat a.firstFail.isSome) % 2 ^ 32) ∧
  (∀ (s : State) (st : Fin 12) (c : BaseCmd) (rest : List BaseCmd) (i : Instr), i ∈ [Instr.prune st, .regrow st,
      .audit st, .collect st] → (s.sep st).cur = none → (s.sep st).queue = c :: rest → sepOp c = 0 →
      s.power.hold = false → s.safety.stop = false → c.src = .host →
    ∃ t, exec i s = .next t ∧ (t.sep st).queue = rest ∧ t.mem = s.mem ∧
      fieldOf (t.reg (Reg.SEP_CMD_STATUS st)) 31 16 = 0x0401 ∧ t.reg (Reg.SEP_CMD_FAULT_ADDR st) = 0) ∧
  (∀ (s : State) (st : Fin 12) (c : BaseCmd) (rest : List BaseCmd) (i : Instr), (i, sepOp c) ∈ [(Instr.prune st, opPrune),
      (.regrow st, opRegrow), (.audit st, opAudit), (.collect st, opCollect)] → (s.sep st).cur = none →
      (s.sep st).queue = c :: rest → s.power.hold = false → s.safety.stop = false → s.sepBad st c = [] →
      s.updating st c.shard = false → s.shardState st c.shard = 6 → s.QuietStacks → c.src = .host →
    ∃ t, exec i s = .next t ∧ (t.sep st).queue = rest ∧ (t.sep st).cur = none ∧ t.mem = s.mem ∧
      fieldOf (t.reg (Reg.SEP_CMD_STATUS st)) 31 16 = 0x0401)

/-- R147 to R149, R151, R152, R157, R158: a batch of 256 groups, and a candidate record that arrives. Readings and
choices of the model it rests on: log entries 20, 42 and 48. -/
def Obligations.SeparatorWork : Prop :=
  (∀ (s : State) (st : Fin 12) (r : SepRun) (b : Batch) (wrong : List LaneError), (s.sep st).cur = some r →
      r.waiting = false →
      (s.power.hold = false ∨ r.held = false) → s.safety.stop = false → s.QuietStacks →
      r.group + 256 < (sepGeo r.cmd).groups →
      sepInPlace r.cmd = false →
      sepBatchOf r.cmd r.hasCand r.group 256
        ((sepRuns st r.cmd r.hasCand r.group 256).map (fun x => bytesAt s.mem.cells x.1 x.2)) = b →
      b.firstFail r.cmd wrong = none →
    ∃ t, exec (.sepBatchWrite st wrong) s = .next t ∧
      (∃ f, f = r.firstDrop.or ((b.ins.findIdx? (fun g => g.drops != 0)).map (· + r.group)) ∧
        (t.sep st).cur = some { r with group := r.group + 256, firstDrop := f, held := s.power.hold }) ∧
        (t.sep st).queue = (s.sep st).queue ∧
      t.mem.cells = stores s.mem.cells (b.writes st r.cmd r.group wrong) ∧
      t.reg (Reg.SEP_MASK_DROPS st) =
        (s.reg (Reg.SEP_MASK_DROPS st) + (b.ins.map (·.drops)).foldl (· + ·) 0) % 2 ^ 32 ∧ t.run = s.run ∧
        t.safety = s.safety) ∧
  (∀ (s : State) (st : Fin 12) (r : SepRun) (b : Batch) (wrong : List LaneError) (n k : Nat), (s.sep st).cur = some r →
      r.waiting = false → (s.power.hold = false ∨ r.held = false) → s.safety.stop = false → s.QuietStacks →
      s.ctl.log.length < logCapacity →
      n = min 256 ((sepGeo r.cmd).groups - r.group) →
      sepBatchOf r.cmd r.hasCand r.group n
        ((sepRuns st r.cmd r.hasCand r.group n).map (fun x => bytesAt s.mem.cells x.1 x.2)) = b →
      b.firstFail r.cmd wrong = some k →
    ∃ t, exec (.sepBatchWrite st wrong) s = .next t ∧ t.safety.stop = true ∧
      (∃ x ∈ t.ctl.log, x.kind = 1 ∧ x.code = 0x0404 ∧ x.cls = clsSep ∧ x.addr = BitVec.ofNat 64 (r.group + k)) ∧
      t.reg (Reg.SEP_MASK_DROPS st) =
        (s.reg (Reg.SEP_MASK_DROPS st) + (b.ins.map (·.drops)).foldl (· + ·) 0) % 2 ^ 32 ∧
      t.reg (Reg.SEP_CHECK_FAILS st) = (s.reg (Reg.SEP_CHECK_FAILS st) + 1) % 2 ^ 32) ∧
  (∀ (s : State) (st : Fin 12) (off : Nat) (bs : List Byte) (x : CollSlot), s.power.hold = false → s.QuietStacks →
      tfind (s.sep st).slots (off / 2 ^ 28) = some x → off % 32 = 0 → bs.length = 32 →
      off % 2 ^ 28 / 32 < x.rows * x.pitch →
    ∃ t, exec (.intakeWrite st off bs) s = .next t ∧
      (∀ a, ¬ (planeOff st x.cand (off % 2 ^ 28) ≤ a ∧ a < planeOff st x.cand (off % 2 ^ 28) + 32) →
        byteAt t.mem.cells a = byteAt s.mem.cells a) ∧
      bytesAt t.mem.cells (planeOff st x.cand (off % 2 ^ 28)) 32 =
        mergeCand (candEntries (bytesAt s.mem.cells (planeOff st x.cand (off % 2 ^ 28)) 32))
          (((wordsOf 2 bs).mapIdx (fun p k => (p, k % 2 ^ 15))).filter (fun e =>
            !bitOf (natAt s.mem.cells (planeOff st x.bitmap (2 * (off % 2 ^ 28 / 32))) 2) e.1 &&
              decide (e.1 < (⟨x.rows, x.k, x.pitch⟩ : Geo).valid (off % 2 ^ 28 / 32)))) ∧
      tfind (t.sep st).slots (off / 2 ^ 28) = some { x with delivered := true } ∧
      t.reg (Reg.SEP_CANDIDATE_GROUPS st) = (s.reg (Reg.SEP_CANDIDATE_GROUPS st) + 1) % 2 ^ 32 ∧ t.run = s.run) ∧
  (∀ (s : State) (st : Fin 12) (off : Nat) (bs : List Byte), s.power.hold = true →
    ∃ t, exec (.intakeWrite st off bs) s = .next t ∧ (t.sep st).held = (s.sep st).held ++ [(off, bs)] ∧ t.mem = s.mem ∧
      t.regs = s.regs) ∧
  (∀ (s : State) (st : Fin 12) (off : Nat) (bs : List Byte), s.power.hold = false →
      tfind (s.sep st).slots (off / 2 ^ 28) = none →
    ∃ t, exec (.intakeWrite st off bs) s = .next t ∧ t.mem = s.mem ∧ t.seps = s.seps ∧
      t.reg (Reg.SEP_STRAY_CANDIDATES st) = (s.reg (Reg.SEP_STRAY_CANDIDATES st) + 1) % 2 ^ 32)

/-! ### Update engines (chapter 11) -/

/-- R292, R294, R304 to R306, R308, R310: a well-formed record at the front of an idle update engine's queue starts; the
first batch of a moments or master pass ends; a completion pass begins. Readings and choices of the model it rests on:
log entries 28 and 48. -/
def Obligations.UpdateStarts : Prop :=
  (∀ (s : State) (st : Fin 12) (c : BaseCmd) (rest : List BaseCmd), (s.upd st).cur = none → (s.upd st).queue = c :: rest →
      updOp c = opUpdate → s.power.hold = false → s.safety.stop = false → s.updBad st c = [] →
      s.rewriting st c.shard = false → s.QuietStacks → s.shardState st c.shard = 0 → s.journalWord st c.shard 3 ≤ c.word 2 →
    ∃ t, exec (.update st) s = .next t ∧ (t.upd st).cur = some (newRun c .moments) ∧ (t.upd st).queue = rest ∧
      tfind (t.upd st).kept c.shard = some c ∧
      ((s.journal st c.shard).isSome = true → t.journalWord st c.shard 6 = s.hp (s.rule c).lrHp ∧
        t.journalWord st c.shard 7 = s.hp (s.rule c).wdHp) ∧ t.run = s.run) ∧
  (∀ (s : State) (st : Fin 12) (c : BaseCmd) (rest : List BaseCmd), (s.upd st).cur = none → (s.upd st).queue = c :: rest →
      updOp c = opUpdate → s.power.hold = false → s.safety.stop = false → s.updBad st c = [] →
      s.rewriting st c.shard = false → s.QuietStacks → s.shardState st c.shard = 0 → c.word 2 < s.journalWord st c.shard 3 →
    ∃ t, exec (.update st) s = .next t ∧ (t.upd st).cur = none ∧ (t.upd st).queue = rest ∧ t.mem = s.mem ∧
      t.reg (Reg.UPD_REPLAYS_SKIPPED st) = (s.reg (Reg.UPD_REPLAYS_SKIPPED st) + 1) % 2 ^ 32) ∧
  (∀ (s : State) (st : Fin 12) (c : BaseCmd) (rest : List BaseCmd), (s.upd st).cur = none → (s.upd st).queue = c :: rest →
      updOp c = opApply → s.power.hold = false → s.safety.stop = false → s.updBad st c = [] →
      s.rewriting st c.shard = false → s.QuietStacks → s.shardState st c.shard = 2 →
    ∃ t, exec (.apply st) s = .next t ∧ (t.upd st).cur = some (newRun (s.applyOf st c) .master) ∧
      (t.upd st).queue = rest ∧ t.mem = s.mem ∧ t.run = s.run ∧ t.regs = s.regs) ∧
  (∀ (s : State) (st : Fin 12) (c : BaseCmd) (rest : List BaseCmd), (s.upd st).cur = none → (s.upd st).queue = c :: rest →
      updOp c = opDerive → s.power.hold = false → s.safety.stop = false → s.updBad st c = [] →
      s.rewriting st c.shard = false → s.QuietStacks → s.shardState st c.shard = 0 →
    ∃ t, exec (.derive st) s = .next t ∧ (t.upd st).cur = some (newRun c .working) ∧ (t.upd st).queue = rest ∧
      tfind (t.upd st).kept c.shard = some c ∧ t.mem = s.mem ∧ t.run = s.run ∧ t.regs = s.regs) ∧
  (∀ (s : State) (st : Fin 12) (c : BaseCmd) (rest : List BaseCmd), (s.upd st).cur = none → (s.upd st).queue = c :: rest →
      updOp c = opUpdate → s.power.hold = false → s.safety.stop = false → s.updBad st c = [] →
      s.rewriting st c.shard = false → s.QuietStacks → s.shardState st c.shard ∉ [0, 5] → c.src = .host →
    ∃ t, exec (.update st) s = .next t ∧ (t.upd st).cur = none ∧ (t.upd st).queue = rest ∧ t.mem = s.mem ∧
      fieldOf (t.reg (Reg.UPD_CMD_STATUS st)) 31 16 = 0x0801) ∧
  (∀ (s : State) (st : Fin 12) (r : UpdRun) (ws : List (Nat × List Byte)), (s.upd st).cur = some r →
      s.safety.stop = false → s.power.hold = false → (r.pass = .moments ∨ r.pass = .master) → s.QuietStacks →
      r.batch = 0 → 1024 < updSlots r.cmd → (s.batchOf st r 0 1024).ws = ws →
    ∃ t, exec (.updBatch st true true) s = .next t ∧ (t.upd st).cur = some { r with batch := 1 } ∧
      (t.upd st).undo = some ⟨r.shard, 0, runsOfWrites ws⟩ ∧ t.run = s.run ∧ t.fab = s.fab) ∧
  (∀ (s : State) (st : Fin 12) (x : Nat × Nat) (l : List (Nat × Nat)) (c : BaseCmd), s.run.run = true →
      s.run.stopped = false → s.run.selftest = false → s.run.milkDue = [] → s.power.hold = false → s.safety.stop = false →
      (s.upd st).cur = none → s.firstLost = none → (s.upd st).pairs = none →
      s.run.complete.filter (fun x => x.1 == st.val &&
        !s.mirrors.any (fun m => m.stack == x.1 && m.shard == x.2 && m.completing)) = x :: l →
      s.rewriting st x.2 = false → tfind (s.upd st).kept x.2 = some c → (s.rule c).kind ≠ 4 → s.shardState st x.2 = 2 →
    ∃ t, exec (.completionPass st) s = .next t ∧
      (t.upd st).cur = some { newRun c .master with completing := true, upds := [] } ∧ t.mem = s.mem ∧ t.regs = s.regs ∧
      t.run = s.run)

/-- R316, R317: a shard's record is written to, and taken from, the second tier. Readings and choices of the model it
rests on: log entries 20, 30 and 48. -/
def Obligations.RecordCommands : Prop :=
  (∀ (s : State) (st : Fin 12) (c : BaseCmd) (rest : List BaseCmd), (s.upd st).cur = none → (s.upd st).queue = c :: rest →
      updOp c = opExport → s.power.hold = false → s.safety.stop = false → s.updBad st c = [] →
      s.rewriting st c.shard = false → s.shardState st c.shard = 0 → s.QuietStacks →
      zEndpoint (recordAddr c) = s.moduleNum → zSpace (recordAddr c) = 1 →
      zOff (recordAddr c) + 512 + payloadBytes c (updKinds c) ≤ 2 ^ 40 →
      s.TierTakes (zOff (recordAddr c)) (512 + payloadBytes c (updKinds c)) →
    ∃ t, exec (.exportShard st) s = .next t ∧ (t.upd st).queue = rest ∧ (t.upd st).cur = none ∧
      bytesAt t.mem.cells (lpKey (zOff (recordAddr c)) + 512) (payloadBytes c (updKinds c)) =
        (recordPlanes c (updKinds c)).flatMap (fun p => padTo 512 (bytesAt s.mem.cells (planeOff st (c.word p.2.1) 0) p.2.2)) ∧
      (∀ a, ¬ (lpKey (zOff (recordAddr c)) ≤ a ∧ a < lpKey (zOff (recordAddr c)) + 512 + payloadBytes c (updKinds c)) →
        byteAt t.mem.cells a = byteAt s.mem.cells a)) ∧
  (∀ (s : State) (st : Fin 12) (c : BaseCmd) (rest : List BaseCmd), (s.upd st).cur = none → (s.upd st).queue = c :: rest →
      updOp c = opExport → s.power.hold = false → s.safety.stop = false → s.updBad st c = [] →
      s.rewriting st c.shard = false → s.shardState st c.shard = 0 → s.QuietStacks → s.isOwn (recordAddr c) = false →
      s.reachable (peerOf (recordAddr c)).1 (peerOf (recordAddr c)).2 = true →
    ∃ t, exec (.exportShard st) s = .next t ∧ (t.upd st).queue = rest ∧ (t.upd st).cur = some (newRun c .sending) ∧
      t.mem = s.mem) ∧
  (∀ (s : State) (st : Fin 12) (c : BaseCmd) (rest : List BaseCmd) (h bs : List Byte), (s.upd st).cur = none →
      (s.upd st).queue = c :: rest → updOp c = opImport → s.power.hold = false → s.safety.stop = false →
      s.updBad st c = [] → s.rewriting st c.shard = false → s.shardState st c.shard ∈ [0, 6] →
      zEndpoint (recordAddr c) = s.moduleNum → zSpace (recordAddr c) = 1 →
      s.TierReads (zOff (recordAddr c)) 512 → bytesAt s.mem.cells (lpKey (zOff (recordAddr c))) 512 = h →
      zOff (recordAddr c) + 512 + headBytes c h ≤ 2 ^ 40 → s.TierReads (zOff (recordAddr c) + 512) (headBytes c h) →
      bytesAt s.mem.cells (lpKey (zOff (recordAddr c) + 512)) (headBytes c h) = bs →
      s.importOk st c (h ++ bs) = true → s.QuietStacks →
      maskOk c ((((splitPayload (recordPlanes (headCmd c (h ++ bs)) (headKinds (h ++ bs))) ((h ++ bs).drop 512)).find?
        (fun p => p.1 == 10)).map (·.2)).getD []) = true →
    ∃ t, exec (.importShard st) s = .next t ∧ (t.upd st).queue = rest ∧ (t.upd st).cur = some (newRun c .working) ∧
      tfind (t.upd st).kept c.shard = some c) ∧
  (∀ (s : State) (st : Fin 12) (c : BaseCmd) (rest : List BaseCmd), (s.upd st).cur = none → (s.upd st).queue = c :: rest →
      updOp c = opImport → s.power.hold = false → s.safety.stop = false → s.updBad st c = [] →
      s.rewriting st c.shard = false → s.shardState st c.shard ∈ [0, 6] → s.QuietStacks → s.isOwn (recordAddr c) = false →
      s.reachable (peerOf (recordAddr c)).1 (peerOf (recordAddr c)).2 = true →
    ∃ t, exec (.importShard st) s = .next t ∧ (t.upd st).queue = rest ∧ (t.upd st).cur = some (newRun c .fetching) ∧
      t.mem = s.mem)

/-- R79, R305, R306, R308: a batch of the pass in progress, one whose check fails, and the next shard of a completion
pass. Readings and choices of the model it rests on: log entries 20, 28 and 48. -/
def Obligations.UpdateWork : Prop :=
  (∀ (s : State) (st : Fin 12) (r : UpdRun) (ws : List (Nat × List Byte)), (s.upd st).cur = some r →
      s.safety.stop = false → s.power.hold = false → (r.pass = .moments ∨ r.pass = .master) → s.QuietStacks →
      1024 * r.batch + 1024 < updSlots r.cmd →
      (s.batchOf st r (1024 * r.batch) (1024 * r.batch + 1024)).ws = ws →
    ∃ t cs, exec (.updBatch st true true) s = .next t ∧ (t.upd st).cur = some { r with batch := r.batch + 1 } ∧
      t.mem.cells = stores cs ws ∧
      (∀ a, Outside a (s.updRuns st r.shard ws) → byteAt cs a = byteAt s.mem.cells a) ∧
      (t.upd st).undo = some ⟨r.shard, r.batch, runsOfWrites ws⟩ ∧ (t.upd st).queue = (s.upd st).queue ∧ t.run = s.run ∧
      t.safety = s.safety) ∧
  (∀ (s : State) (st : Fin 12) (r : UpdRun) (b : UpdBatch), (s.upd st).cur = some r → s.safety.stop = false →
      s.power.hold = false → r.pass = .working → r.shard ∉ (s.upd st).acking →
      s.snapWaits st r.shard = false → s.QuietStacks → 1024 * r.batch + 1024 < updSlots r.cmd →
      s.batchOf st r (1024 * r.batch) (1024 * r.batch + 1024) = b →
    ∃ t cs, exec (.updBatch st true true) s = .next t ∧
      (t.upd st).cur = some { r with batch := r.batch + 1, summary := max r.summary b.summary } ∧
      t.mem.cells = stores cs b.ws ∧
      (∀ a, (∀ j ∈ s.journal st r.shard, ¬ (j ≤ a ∧ a < j + 64)) → byteAt cs a = byteAt s.mem.cells a) ∧
      (∀ x, x ∈ (t.upd st).holding ↔ x = r.shard ∨ x ∈ (s.upd st).holding) ∧ (t.upd st).undo = (s.upd st).undo ∧
          t.run = s.run ∧ t.safety = s.safety) ∧
  (∀ (s : State) (st : Fin 12) (r : UpdRun) (n : Nat), (s.upd st).cur = some r → s.safety.stop = false →
      s.power.hold = false →
      r.pass ∈ [UpdPass.moments, .master, .working] →
      (r.pass = .working → r.shard ∉ (s.upd st).acking ∧ s.snapWaits st r.shard = false) → s.QuietStacks →
      tget 0 r.retries r.batch = n → n < 2 →
    ∃ t, exec (.updBatch st false true) s = .next t ∧
      (t.upd st).cur = some { r with retries := tput r.retries r.batch (n + 1), batch := if r.pass = .working then 0 else r.batch,
                                     summary := if r.pass = .working then 0 else r.summary } ∧
      t.reg (Reg.UPD_RESIDUE_FAULTS st) = (s.reg (Reg.UPD_RESIDUE_FAULTS st) + 1) % 2 ^ 32 ∧
      t.reg (Reg.UPD_BATCH_RETRIES st) = (s.reg (Reg.UPD_BATCH_RETRIES st) + 1) % 2 ^ 32 ∧ t.safety = s.safety) ∧
  (∀ (s : State) (st : Fin 12) (r : UpdRun), (s.upd st).cur = some r → s.safety.stop = false → s.power.hold = false →
      r.pass ∈ [UpdPass.moments, .master, .working] →
      (r.pass = .working → r.shard ∉ (s.upd st).acking ∧ s.snapWaits st r.shard = false) → s.QuietStacks →
      2 ≤ tget 0 r.retries r.batch →
      s.ctl.log.length < logCapacity →
    ∃ t, exec (.updBatch st false true) s = .next t ∧ t.safety.stop = true ∧ t.Recorded 0x0802 clsUpd s.clock.phase) ∧
  (∀ (s : State) (st : Fin 12) (x : Nat × Nat) (l : List (Nat × Nat)) (c : BaseCmd), s.run.run = true →
      s.run.stopped = false → s.run.selftest = false → s.run.milkDue = [] → s.power.hold = false → s.safety.stop = false →
      (s.upd st).cur = none → s.firstLost = none → (s.upd st).pairs = none →
      s.run.complete.filter (fun x => x.1 == st.val &&
        !s.mirrors.any (fun m => m.stack == x.1 && m.shard == x.2 && m.completing)) = x :: l →
      s.rewriting st x.2 = false → tfind (s.upd st).kept x.2 = some c → (s.rule c).kind ≠ 4 → (s.shardState st x.2 = 4 ∨
      s.shardState st x.2 = 5) →
    ∃ t, exec (.completionPass st) s = .next t ∧
      (t.upd st).cur = some { newRun c .working with completing := true, upds := ((s.mirrorOf st x.2).map (·.upds)).getD [] } ∧
      (∀ m, s.mirrorOf st x.2 = some m → m ∉ t.mirrors) ∧ t.mem = s.mem ∧ t.regs = s.regs)

/-- R313, R314, R371 to R373: a mirror is acknowledged, or its wait ends; a twin that no longer answers, and a digest
that did not come. Readings and choices of the model it rests on: log entries 16 and 48. -/
def Obligations.MirrorCommands : Prop :=
  (∀ (s : State) (st : Fin 12) (sh : Fin 4096) (m : Mirror),
      s.mirrors.find? (fun x => x.stack == st.val && x.shard == sh.val && x.epoch == m.epoch && !s.takenUp x) = some m →
      s.bindMutual = true → m.sep = false → s.QuietStacks →
    ∃ t, exec (.mirrorAck st sh m.epoch) s = .next t ∧ m ∉ t.mirrors ∧ t.fab.lastTwinAck = s.slot ∧
      ((s.journal st sh).isSome = true → bitOf (t.journalWord st sh 0) 30 = false ∧
        bitOf (t.journalWord st sh 0) 29 = decide (m.epoch.toNat % 2 = 1) ∧
        t.journalWord st sh 1 = m.epoch.toNat % 2 ^ 32 ∧ t.journalWord st sh 2 = m.epoch.toNat / 2 ^ 32 ∧
        t.journalWord st sh 3 = m.step % 2 ^ 32 ∧ (s.shardState st sh = 5 → t.shardState st sh = 0)) ∧
      t.reg (Reg.UPD_MIRRORS st) = (s.reg (Reg.UPD_MIRRORS st) + 1) % 2 ^ 32) ∧
  (∀ (s : State) (st : Fin 12) (sh : Fin 4096) (e : DWord),
      s.mirrors.find? (fun x => x.stack == st.val && x.shard == sh.val && x.epoch == e && !s.takenUp x) = none →
    exec (.mirrorAck st sh e) s = .next s) ∧
  (∀ (s : State) (st : Fin 12) (sh : Fin 4096) (m : Mirror),
      s.mirrors.find? (fun x => x.stack == st.val && x.shard == sh.val && !s.takenUp x) = some m → m.sep = false →
      s.QuietStacks →
      m.sentSlot + s.mirrorWait st ≤ s.slot →
    ∃ t, exec (.mirrorWaitExpiry st sh) s = .next t ∧ m ∉ t.mirrors ∧
      ((s.journal st sh).isSome = true → bitOf (t.journalWord st sh 0) 30 = true) ∧
      t.reg (Reg.UPD_MIRROR_TIMEOUTS st) = (s.reg (Reg.UPD_MIRROR_TIMEOUTS st) + 1) % 2 ^ 32 ∧
      t.reg (Reg.EVENT_RAW clsUpd st) = s.reg (Reg.EVENT_RAW clsUpd st) ||| 2 ^ evTimeout) ∧
  (∀ (s : State) (n : Nat), s.twin = some n → s.twinBound = true → s.twinReachable = false →
    ∃ t, exec .twinLost s = .next t ∧
      t.reg (Reg.EVENT_RAW clsFabric 0) = s.reg (Reg.EVENT_RAW clsFabric 0) ||| 2 ^ evLink ∧ t.mem = s.mem ∧
      t.run = s.run) ∧
  (∀ (s : State) (i : Fin 12) (sh : Fin 4096) (d : Nat × Nat), s.fab.digestDue.find? (fun d => d.1 == 4096 * i.val + sh.val) = some d →
      d.2 + 64 ≤ s.slot → s.QuietStacks →
    ∃ t, exec (.digestWaitExpiry i sh) s = .next t ∧
      (∀ e ∈ t.fab.digestDue, e.1 ≠ 4096 * i.val + sh.val) ∧
      t.reg (Reg.UPD_MIRROR_TIMEOUTS i) = (s.reg (Reg.UPD_MIRROR_TIMEOUTS i) + 1) % 2 ^ 32 ∧
      ((s.journal i sh).isSome = true → bitOf (t.journalWord i sh 0) 30 = true) ∧ t.run = s.run)

/-! ### Memory (chapter 10) -/

/-- R278 to R282, R271: the Churn reads on, the Pail leaks, the cache acknowledges. Readings and choices of the model it
rests on: log entry 46. -/
def Obligations.MemoryUnitCommands : Prop :=
  (∀ (s : State) (st : Fin 12) (p q : Nat), s.churning st = true → s.CleanStacks → s.nextChunk st (s.churnPos st) = some p →
      s.nextChunk st (p + chunkBytes) = some q → bitOf (s.reg (Reg.HBM_CHURN_CONFIG st)) 8 = false →
    ∃ t, exec (.churnChunk st) s = .next t ∧ t.churnPos st = q ∧ t.mem.cells = s.mem.cells ∧ t.run = s.run ∧
      t.ctl = s.ctl) ∧
  (∀ (s : State) (b : Blk), blkStands b = true → s.leakDue b = false → exec (.pailLeak b) s = .next s) ∧
  (∀ (s : State) (b : Blk), blkStands b = true → s.leakDue b = true →
    ∃ t, exec (.pailLeak b) s = .next t ∧ t.leakDue b = false ∧
      fieldOf (t.reg (Reg.PAIL_LEVEL b.cls b.inst)) 15 0 = fieldOf (s.reg (Reg.PAIL_LEVEL b.cls b.inst)) 15 0 - 1 ∧
      fieldOf (t.reg (Reg.PAIL_LEVEL b.cls b.inst)) 31 16 = fieldOf (s.reg (Reg.PAIL_LEVEL b.cls b.inst)) 31 16 ∧
      (∀ a, a ≠ Reg.PAIL_LEVEL b.cls b.inst → t.reg a = s.reg a) ∧ t.mem = s.mem) ∧
  (∀ (s : State) (st : Fin 12), (∀ r, (s.upd st).cur = some r → r.pass = .working → r.shard ∉ (s.upd st).acking) →
    ∃ t, exec (.invalidationAck st) s = .next t ∧
      t.upd st = { s.upd st with acking := [], holding := (s.upd st).holding.filter (fun x => x ∉ (s.upd st).acking) } ∧
      (∀ q : Fin 12, q ≠ st → t.upd q = s.upd q) ∧ t.mem = s.mem ∧ t.regs = s.regs) ∧
  (∀ (s : State) (st : Fin 12) (r : UpdRun) (e : Nat × Nat), (s.upd st).cur = some r → r.pass = .working →
      r.shard ∈ (s.upd st).acking → r.shard = r.cmd.shard → r.ending = false → r.completing = false →
      updMirror r.cmd = false → s.QuietStacks → (s.journal st r.shard).isSome = true → s.commitsTo st r.cmd = e →
    ∃ t, exec (.invalidationAck st) s = .next t ∧ (t.upd st).cur = none ∧ (t.upd st).acking = [] ∧
      r.shard ∉ (t.upd st).holding ∧ t.shardState st r.shard = 0 ∧ t.journalWord st r.shard 1 = e.1 % 2 ^ 32 ∧
      t.journalWord st r.shard 2 = e.1 / 2 ^ 32 % 2 ^ 32 ∧ t.journalWord st r.shard 3 = e.2 % 2 ^ 32)

/-! ### Control messages (chapter 13) -/

/-- R382 to R384: NOP and the register messages are served and answered. Readings and choices of the model it rests on:
log entries 16 and 40. -/
def Obligations.RegisterMessages : Prop :=
  (∀ (s : State) (f : Session), s.Serves f true →
    ∃ t, exec (.nop f) s = .next t ∧ t.Replied f 0x00 stOk 0 0 [] ∧ t.mem = s.mem ∧ t.run = s.run) ∧
  (∀ (s : State) (f : Session) (n : Nat) (a : Word), s.Serves f false → s.regCheck a.toNat n 1024 = none →
    ∃ t, exec (.regRead f n a) s = .next t ∧ t.Replied f 0x01 stOk n 0 (s.readRegs a.toNat n).2 ∧ t.mem = s.mem ∧
      t.run = s.run) ∧
  (∀ (s : State) (f : Session) (a v : Word) (r : RegRow), s.Serves f false → regStands a.toNat = true →
      s.regInService a.toNat = true → fieldOf a.toNat 15 12 ≠ 0 →
      fieldOf a.toNat 31 24 ∈ [clsCore, clsQuarter, clsMsc, clsLpddr, clsCopy] → rowOf a.toNat = some r → r.rwl = 0 →
    ∃ t, exec (.regWrite f a [v]) s = .next t ∧ t.Replied f 0x02 stOk 1 0 [] ∧
      (∀ i, i < 32 → bitOf (t.reg a.toNat) i =
        if bitOf r.rw i then bitOf v.toNat i
        else (bitOf (s.reg a.toNat) i && !(bitOf r.w1c i && bitOf v.toNat i))) ∧ t.mem = s.mem ∧ t.run = s.run) ∧
  (∀ (s : State) (f : Session) (a v m : Word) (r : RegRow), s.Serves f false → regStands a.toNat = true →
      s.regInService a.toNat = true → fieldOf a.toNat 15 12 ≠ 0 →
      fieldOf a.toNat 31 24 ∈ [clsCore, clsQuarter, clsMsc, clsLpddr, clsCopy] → rowOf a.toNat = some r → r.rwl = 0 →
      r.wo = 0 → r.rc = 0 → s.view a.toNat = s.reg a.toNat →
    ∃ t, exec (.regModify f a [(v, m)]) s = .next t ∧ t.Replied f 0x03 stOk 1 0 (leBytes 4 (s.reg a.toNat)) ∧
      (∀ i, i < 32 → bitOf r.rw i = true → bitOf (t.reg a.toNat) i =
        if bitOf m.toNat i then bitOf v.toNat i else bitOf (s.reg a.toNat) i) ∧ t.mem = s.mem ∧ t.run = s.run) ∧
  (∀ (s : State) (f : Session) (n : Nat) (a : Word), s.Serves f false → (n = 0 ∨ 1024 < n) →
    ∃ t, exec (.regRead f n a) s = .next t ∧ t.Replied f 0x01 stBadLength 0 0 [] ∧ t.mem = s.mem) ∧
  (∀ (s : State) (f : Session) (n : Nat) (a : Word), s.Serves f false → 1 ≤ n → n ≤ 1024 → regStands a.toNat = false →
    ∃ t, exec (.regRead f n a) s = .next t ∧ t.Replied f 0x01 stBadAddress 0 a.toNat [] ∧ t.mem = s.mem) ∧
  (∀ (s : State) (f : Session) (n : Nat) (a : Word), s.hasSession f = false → exec (.regRead f n a) s = .next s)

/-- R384, R440, R464, R373: memory, attestation, the twin's digests. Readings and choices of the model it rests on: log
entries 4, 5, 40 and 50. -/
def Obligations.MemoryAttestAndTwinMessages : Prop :=
  (∀ (s : State) (f : Session) (n : Nat) (a : DWord), s.Serves f false → 1 ≤ n → n ≤ 4096 →
      zEndpoint a.toNat = s.moduleNum → zSpace a.toNat = 1 → zOff a.toNat + n ≤ 2 ^ 40 →
      s.memServed 1 (zOff a.toNat) = true → s.TierReads (zOff a.toNat) n →
    ∃ t, exec (.memRead f n a) s = .next t ∧ t.Replied f 0x04 stOk n 0 (bytesAt s.mem.cells (lpKey (zOff a.toNat)) n) ∧
      t.mem = s.mem ∧ t.run = s.run) ∧
  (∀ (s : State) (f : Session) (bs : List Byte) (a : DWord), s.Serves f false → 1 ≤ bs.length → bs.length ≤ 4096 →
      zEndpoint a.toNat = s.moduleNum → zSpace a.toNat = 1 → zOff a.toNat + bs.length ≤ 2 ^ 40 →
      s.memServed 1 (zOff a.toNat) = true → s.TierTakes (zOff a.toNat) bs.length →
    ∃ t, exec (.memWrite f a bs) s = .next t ∧ t.Replied f 0x05 stOk bs.length 0 [] ∧
      bytesAt t.mem.cells (lpKey (zOff a.toNat)) bs.length = bs ∧
      (∀ x, ¬ (lpKey (zOff a.toNat) ≤ x ∧ x < lpKey (zOff a.toNat) + bs.length) →
        byteAt t.mem.cells x = byteAt s.mem.cells x) ∧ t.run = s.run) ∧
  (∀ (s : State) (f : Session) (bs : List Byte) (a : DWord), s.Serves f false → 1 ≤ bs.length → bs.length ≤ 4096 →
      zEndpoint a.toNat = s.moduleNum → s.memServed (zSpace a.toNat) (zOff a.toNat) = false →
      ((zSpace a.toNat = 3 ∧ zOff a.toNat + bs.length ≤ 64 * 4096) ∨
        (zSpace a.toNat ≤ 1 ∧ s.goes (zSpace a.toNat) (zOff a.toNat) bs.length ≠ .nowhere)) →
    ∃ t, exec (.memWrite f a bs) s = .next t ∧ t.Replied f 0x05 stIgnored bs.length (a.toNat % 2 ^ 32) [] ∧ t.mem = s.mem ∧
      t.run = s.run) ∧
  (∀ (s : State) (f : Session) (bs : List Byte) (a : DWord), s.Serves f false → 1 ≤ bs.length → bs.length ≤ 4096 →
      zEndpoint a.toNat ≠ s.moduleNum →
    ∃ t, exec (.memWrite f a bs) s = .next t ∧ t.Replied f 0x05 stBadAddress 0 (a.toNat % 2 ^ 32) [] ∧ t.mem = s.mem) ∧
  (∀ (s : State) (f : Session) (nonce : List Byte), s.Serves f true → nonce.length = 64 → s.ctl.signing < 64 →
    ∃ t, exec (.attest f nonce) s = .next t ∧
      t.Replied f 0x08 stOk (s.attestBody nonce ++ leBytes 132 (Config.sign (sha512 (s.attestBody nonce)) s.ctl.free).toNat ++
        Config.certificates).length 0 (s.attestBody nonce ++
          leBytes 132 (Config.sign (sha512 (s.attestBody nonce)) s.ctl.free).toNat ++ Config.certificates) ∧
      t.mem = s.mem ∧ t.boot = s.boot) ∧
  (∀ (s : State) (f : Session) (nonce : List Byte), s.Serves f true → nonce.length = 64 → 64 ≤ s.ctl.signing →
    ∃ t, exec (.attest f nonce) s = .next t ∧ t = s.sendReply f 0x08 2048 ⟨s, stBusy, 0, 0, []⟩) ∧
  (∀ (s : State) (f : Session) (w : Word) (d : DigestRecord), s.Serves f false → s.fromTwin f = true →
      d.owner = s.moduleNum → s.shardState d.stack d.shard = 0 → bitOf (s.journalWord d.stack d.shard 0) 30 = false →
      (s.journal d.stack d.shard).isSome = true → d.absent = false → d.epoch.toNat = s.epochOf d.stack d.shard →
      d.digest.toNat = s.masterCrc d.stack d.shard →
    ∃ t, exec (.twinDigests f w [d]) s = .next t ∧ t.Replied f 0x11 stOk 0 0 [] ∧
      (∀ x ∈ t.fab.digestDue, x.1 ≠ 4096 * d.stack + d.shard) ∧ t.safety = s.safety ∧ t.mem = s.mem) ∧
  (∀ (s : State) (f : Session) (w : Word) (d : DigestRecord), s.Serves f false → s.fromTwin f = true →
      d.owner = s.moduleNum → s.shardState d.stack d.shard = 0 → bitOf (s.journalWord d.stack d.shard 0) 30 = false →
      (s.journal d.stack d.shard).isSome = true → d.absent = false → d.epoch.toNat = s.epochOf d.stack d.shard →
      d.digest.toNat ≠ s.masterCrc d.stack d.shard → s.ctl.log.length < logCapacity →
    ∃ t, exec (.twinDigests f w [d]) s = .next t ∧ t.safety.stop = true ∧ t.Recorded 0x0A05 clsSafety s.clock.phase) ∧
  (∀ (s : State) (f : Session) (w : Word) (ds : List DigestRecord), s.Serves f false → s.fromTwin f = false →
    ∃ t, exec (.twinDigests f w ds) s = .next t ∧ t.Replied f 0x11 stBadOpcode 0 0 [] ∧ t.mem = s.mem ∧ t.safety = s.safety)

/-! ### Fetch-queue requests (chapter 09) -/

/-- R37, R41, R244, R249: a request is carried out by its engine, and completes. Readings and choices of the model it
rests on: log entries 16, 20 and 43. -/
def Obligations.FetchRequestCommands : Prop :=
  (∀ (s : State) (r : Req) (k : Nat), s.run.reqs.find? (fun x => x.id == r.id) = some r → r.started = true →
      r.waiting = false → r.token = some k →
    ∃ t, exec (.fetchComplete r.id) s = .next t ∧ t.run.reqs = s.run.reqs.filter (fun x => x.id != r.id) ∧
      (t.core r.core).token k = { (s.core r.core).token k with done := ((s.core r.core).token k).done + 1 } ∧
      t.mem = s.mem) ∧
  (∀ (s : State) (r : Req), s.run.reqs.find? (fun x => x.id == r.id) = some r → (r.started = false ∨ r.waiting = true) →
    exec (.fetchComplete r.id) s = .next s) ∧
  (∀ (s : State) (e : Fin 18) (r : Req) (bytes : List (Nat × Byte × Byte)) (a : DWord), s.nextRequest e = some r →
      r.what = .tile bytes a → zEndpoint a.toNat = s.moduleNum → zSpace a.toNat = 1 →
      (∀ x ∈ s.tileRuns bytes a.toNat, zSpace x.1 = 1 ∧ zEndpoint x.1 = s.moduleNum ∧ zOff x.1 + x.2.length ≤ 2 ^ 40 ∧
        s.TierTakes (zOff x.1) x.2.length) →
    ∃ t, exec (.copyRequestStart e) s = .next t ∧
      (∀ k, byteAt t.mem.cells k =
        byteAt (stores s.mem.cells ((s.tileRuns bytes a.toNat).map (fun x => (lpKey (zOff x.1), x.2)))) k) ∧
      (∀ x ∈ t.run.reqs, x.id = r.id → x.started = true ∧ x.waiting = false) ∧ t.run.cores = s.run.cores) ∧
  (∀ (s : State) (e : Fin 18) (r : Req) (f : FetchEntry) (o : Nat), s.nextRequest e = some r → r.what = .fetch f o →
      f.kind = 0 → f.dir = 0 → r.count = 1 → r.core < 64 → zEndpoint f.ext.toNat = s.moduleNum → zSpace f.ext.toNat = 1 →
      zOff f.ext.toNat + f.rowBytes ≤ 2 ^ 40 → f.rowBytes % 32 = 0 → 0 < f.rowBytes → f.sp < 2 ^ 20 → f.sp % 32 = 0 →
      f.sp + f.rowBytes ≤ scratchBytes → s.TierReads (zOff f.ext.toNat) f.rowBytes →
      s.armed clsCore r.core = none → (∀ g, s.regionAt r.core f.sp = some g → g.2.fullBlock = false) →
    ∃ t, exec (.copyRequestStart e) s = .next t ∧
      bytesAt t.mem.cells (scratchKey r.core f.sp) f.rowBytes =
        bytesAt s.mem.cells (lpKey (zOff f.ext.toNat)) f.rowBytes ∧
      (∀ x, ¬ (scratchKey r.core f.sp ≤ x ∧ x < scratchKey r.core f.sp + f.rowBytes) →
        byteAt t.mem.cells x = byteAt s.mem.cells x) ∧
      (∀ x ∈ t.run.reqs, x.id = r.id → x.started = true ∧ x.waiting = false) ∧ t.run.cores = s.run.cores) ∧
  (∀ (s : State) (e : Fin 18), s.nextRequest e = none → exec (.copyRequestStart e) s = .next s)

/-! ### Frames of the fabric (chapter 12) -/

/-- R331, R347: a WRITE stores its block and is answered, a READ or a GATHER is answered with the bytes; a request that
names nothing here is refused. Readings and choices of the model it rests on: log entry 41. -/
def Obligations.RequestFrames : Prop :=
  (∀ (s : State) (r : Rx) (p : Peer) (b : Block), s.Hears 0 r p → s.NextBlock r b → b.data ≠ [] →
      zEndpoint r.hdr.addr.toNat = s.moduleNum → zSpace r.hdr.addr.toNat = 1 →
      zOff r.hdr.addr.toNat + b.data.length ≤ 2 ^ 40 → s.placeAt (zOff r.hdr.addr.toNat) b.data.length = none →
      s.TierTakes (zOff r.hdr.addr.toNat) b.data.length → writeWaits s.fab.heldReads (s.rxId r) ⟨r.hdr, b.data⟩ = false →
    ∃ t, exec (.write r) s = .next t ∧
      bytesAt t.mem.cells (lpKey (zOff r.hdr.addr.toNat)) b.data.length = b.data ∧
      (∀ x, ¬ (lpKey (zOff r.hdr.addr.toNat) ≤ x ∧ x < lpKey (zOff r.hdr.addr.toNat) + b.data.length) →
        byteAt t.mem.cells x = byteAt s.mem.cells x) ∧ s.TookBlock t r ∧
      (r.hdr.last = true → t.Waits 5 r.hdr.src (fun c => c.hdr.tag = r.hdr.tag)) ∧ t.run = s.run) ∧
  (∀ (s : State) (r : Rx) (p : Peer) (b : Block), s.Hears 0 r p → s.NextBlock r b →
      writeWaits s.fab.heldReads (s.rxId r) ⟨r.hdr, b.data⟩ = true →
    ∃ t, exec (.write r) s = .next t ∧ t.mem = s.mem ∧ s.TookBlock t r ∧
      t.fab.heldReads = s.fab.heldReads ++ [(s.rxId r, ⟨r.hdr, b.data⟩)] ∧ t.fab.tx = s.fab.tx ∧ t.run = s.run) ∧
  (∀ (s : State) (r : Rx) (p : Peer) (b : Block), s.Hears 0 r p → s.NextBlock r b →
      zEndpoint r.hdr.addr.toNat ≠ s.moduleNum → writeWaits s.fab.heldReads (s.rxId r) ⟨r.hdr, b.data⟩ = false →
    ∃ t, exec (.write r) s = .next t ∧ t.mem = s.mem ∧ s.TookBlock t r ∧
      Out.unmapped (s.rxId r).peer (s.rxId r).host r.hdr.tag r.hdr.addr ∈ t.out) ∧
  (∀ (s : State) (r : Rx) (p : Peer), s.Hears 1 r p → 1 ≤ r.hdr.len.toNat → r.hdr.len.toNat ≤ 4096 →
      zEndpoint r.hdr.addr.toNat = s.moduleNum → zSpace r.hdr.addr.toNat = 1 →
      zOff r.hdr.addr.toNat + r.hdr.len.toNat ≤ 2 ^ 40 → s.placeAt (zOff r.hdr.addr.toNat) r.hdr.len.toNat = none →
      s.TierReads (zOff r.hdr.addr.toNat) r.hdr.len.toNat → (∀ x ∈ s.fab.heldReads, x.1 ≠ s.rxId r) →
      s.missing (s.rxId r) ⟨r.hdr, []⟩ = false →
    ∃ t, exec (.read r) s = .next t ∧ t.mem = s.mem ∧ t.run = s.run ∧
      t.Waits 2 (s.rxId r).peer (fun c => c.hdr.tag = r.hdr.tag ∧
        c.data = bytesAt s.mem.cells (lpKey (zOff r.hdr.addr.toNat)) r.hdr.len.toNat)) ∧
  (∀ (s : State) (r : Rx) (p : Peer), s.Hears 1 r p →
      (s.fab.heldReads.any (fun x => x.1 == s.rxId r) || s.missing (s.rxId r) ⟨r.hdr, []⟩) = true →
    ∃ t, exec (.read r) s = .next t ∧ t.mem = s.mem ∧ t.fab.heldReads = s.fab.heldReads ++ [(s.rxId r, ⟨r.hdr, []⟩)] ∧
      t.fab.tx = s.fab.tx) ∧
  (∀ (s : State) (r : Rx) (p : Peer) (b : Block) (a : Nat), s.Hears 10 r p → s.NextBlock r b → b.data.length = 24 →
      wordIn b.data 2 % 512 = 0 → 1 ≤ wordIn b.data 2 → wordIn b.data 2 ≤ 4096 → wordIn b.data 3 = 0 →
      r.hdr.addr.toNat + wordIn b.data 4 * dwordIn b.data 0 + wordIn b.data 5 = a →
      zEndpoint a = s.moduleNum → zSpace a = 1 → zOff a + wordIn b.data 2 ≤ 2 ^ 40 →
      s.placeAt (zOff a) (wordIn b.data 2) = none → s.TierReads (zOff a) (wordIn b.data 2) →
      (∀ x ∈ s.fab.heldReads, x.1 ≠ s.rxId r) →
    ∃ t, exec (.gather r) s = .next t ∧ t.mem = s.mem ∧ s.TookBlock t r ∧
      t.Waits 2 (s.rxId r).peer (fun c => c.hdr.tag = r.hdr.tag ∧
        c.data = bytesAt s.mem.cells (lpKey (zOff a)) (wordIn b.data 2)))

/-- R338, R347: answers to this module's own requests and acknowledgements of its blocks. Readings and choices of the
model it rests on: log entry 41. -/
def Obligations.AnswerFrames : Prop :=
  (∀ (s : State) (r : Rx) (p : Peer) (b : Block) (q : RemoteReq) (x : Req) (key n : Nat), s.Hears 2 r p → r.error = none →
      s.NextBlock r b → s.remoteOf (s.rxId r) r.hdr.tag = some q → q.use = .fetch x.id [(0, key, n)] →
      s.run.reqs.find? (fun y => y.id == x.id) = some x → b.data.length < q.left →
      r.hdr.addr.toNat + b.data.length ≤ n → 2 ^ 49 ≤ key → key + n ≤ 2 ^ 50 → (key - 2 ^ 49) % 2 ^ 20 + n ≤ scratchBytes →
      s.armed clsCore ((key - 2 ^ 49) / 2 ^ 20) = none → s.mem.badScratch = [] →
    ∃ t, exec (.readData r) s = .next t ∧ s.TookBlock t r ∧
      bytesAt t.mem.cells (key + r.hdr.addr.toNat) b.data.length = b.data ∧
      (∀ a, ¬ (key + r.hdr.addr.toNat ≤ a ∧ a < key + r.hdr.addr.toNat + b.data.length) →
        byteAt t.mem.cells a = byteAt s.mem.cells a) ∧
      t.remoteOf (s.rxId r) r.hdr.tag = some { q with left := q.left - b.data.length } ∧ t.run = s.run) ∧
  (∀ (s : State) (r : Rx) (p : Peer), s.Hears 3 r p →
    ∃ t, exec (.ack r) s = .next t ∧
      (∀ b ∈ (t.txFlow (s.txId r)).blocks, b ∈ (s.txFlow (s.txId r)).blocks ∧
        ¬ (b.sent = true ∧ b.cargo.hdr.nblk ≠ 0 ∧ (r.hdr.seq - b.cargo.hdr.seq).toNat < 2 ^ 31)) ∧
      (∀ b ∈ (s.txFlow (s.txId r)).blocks,
        ¬ (b.sent = true ∧ b.cargo.hdr.nblk ≠ 0 ∧ (r.hdr.seq - b.cargo.hdr.seq).toNat < 2 ^ 31) →
        b ∈ (t.txFlow (s.txId r)).blocks) ∧ t.mem = s.mem ∧ t.run = s.run) ∧
  (∀ (s : State) (r : Rx) (p : Peer) (b : TxBlock), s.Hears 4 r p → (s.txFlow (s.txId r)).block r.hdr.seq = some b →
      bitOf r.hdr.len.toNat 0 = true →
    ∃ t, exec (.nak r) s = .next t ∧ (t.txFlow (s.txId r)).block r.hdr.seq =
        some { b with busy := true, again := false, sentAt := s.clock.now } ∧ t.mem = s.mem ∧ t.run = s.run) ∧
  (∀ (s : State) (r : Rx) (p : Peer) (b : TxBlock), s.Hears 4 r p → (s.txFlow (s.txId r)).block r.hdr.seq = some b →
      bitOf r.hdr.len.toNat 0 = false → b.resends < s.retryLimit (s.livePlane (s.txId r).plane) →
    ∃ t, exec (.nak r) s = .next t ∧ (t.txFlow (s.txId r)).block r.hdr.seq =
        some { b with again := true, busy := false, resends := b.resends + 1 } ∧ t.mem = s.mem ∧ t.run = s.run) ∧
  (∀ (s : State) (r : Rx) (p : Peer) (q : RemoteReq) (st sh : Nat), s.Hears 5 r p → r.error = none →
      s.remoteOf (frameFlow r) r.hdr.tag = some q → q.use = .mirror st sh →
    ∃ t, exec (.writeDone r) s = .next t ∧ t.fab.remote = s.fab.remote.filter (fun x => x.tag != r.hdr.tag) ∧
      t.mem = s.mem ∧ t.run = s.run) ∧
  (∀ (s : State) (r : Rx) (p : Peer) (q : RemoteReq) (id : Nat) (d : List (Nat × Nat × Nat)), s.Hears 5 r p →
      r.error = none →
      s.remoteOf (frameFlow r) r.hdr.tag = some q → q.use = .fetch id d →
      (∀ x ∈ s.fab.remote, x.tag ≠ r.hdr.tag → ∀ g, x.use ≠ .fetch id g) →
    ∃ t, exec (.writeDone r) s = .next t ∧ (∀ x ∈ t.fab.remote, x.tag ≠ r.hdr.tag) ∧
      (∀ x ∈ t.run.reqs, x.id = id → x.waiting = false) ∧ t.mem = s.mem) ∧
  (∀ (s : State) (i : Instr) (r : Rx) (p : Peer) (q : RemoteReq) (x : Req) (d : List (Nat × Nat × Nat)) (e : AnswerError),
      ((i = .writeDone r ∧ s.Hears 5 r p) ∨ (i = .readData r ∧ s.Hears 2 r p)) → r.error = some e →
      s.remoteOf (frameFlow r) r.hdr.tag = some q → q.use = .fetch x.id d →
      s.run.reqs.find? (fun y => y.id == x.id) = some x →
      s.ctl.log.length < logCapacity →
    ∃ t, exec i s = .next t ∧ t.Recorded (if e = .unmapped then 0x0702 else 0x0701) clsFabric s.clock.phase ∧
      (∀ y ∈ t.run.reqs, y.id ≠ x.id) ∧ (∀ y ∈ t.fab.remote, y.tag ≠ r.hdr.tag))

/-- R355 to R357: credits asked for, granted and given back. Readings and choices of the model it rests on: log entry
46. -/
def Obligations.CreditCommands : Prop :=
  (∀ (s : State) (r : Rx) (p : Peer), s.Hears 6 r p → s.pool (r.port.val / 4) = 0 →
    ∃ t, exec (.creditReq r) s = .next t ∧ t.mem = s.mem ∧ t.run = s.run ∧
      t.creditOf r.hdr.src r.hdr.srcHost (r.port.val / 4) = { s.creditOf r.hdr.src r.hdr.srcHost (r.port.val / 4) with
        wants := some ((s.creditOf r.hdr.src r.hdr.srcHost (r.port.val / 4)).wants.getD s.slot) }) ∧
  (∀ (s : State) (r : Rx) (p : Peer), s.Hears 6 r p → s.fab.credits = [] → 0 < s.pool (r.port.val / 4) →
      s.power.restore = none →
    ∃ t, exec (.creditReq r) s = .next t ∧
      t.creditOf r.hdr.src r.hdr.srcHost (r.port.val / 4) = ⟨r.hdr.src, r.hdr.srcHost, r.port.val / 4, 0,
        min (s.pool (r.port.val / 4)) (s.grantMax (r.port.val / 4)), none, none⟩ ∧
      t.pool (r.port.val / 4) = s.pool (r.port.val / 4) - s.grantMax (r.port.val / 4) ∧
      t.Waits 7 r.hdr.src (fun c => c.hdr.len.toNat = min (s.pool (r.port.val / 4)) (s.grantMax (r.port.val / 4)))) ∧
  (∀ (s : State) (r : Rx) (p : Peer), s.Hears 7 r p →
    ∃ t, exec (.creditGrant r) s = .next t ∧
      (t.creditOf r.hdr.src r.hdr.srcHost (r.port.val / 4)).held =
        (s.creditOf r.hdr.src r.hdr.srcHost (r.port.val / 4)).held + r.hdr.len.toNat ∧
      (t.creditOf r.hdr.src r.hdr.srcHost (r.port.val / 4)).granted =
        (s.creditOf r.hdr.src r.hdr.srcHost (r.port.val / 4)).granted ∧ t.mem = s.mem ∧ t.run = s.run) ∧
  (∀ (s : State) (c : Fin 2), s.pool c + s.grantedOn c < 1024 →
      (∀ x ∈ s.fab.credits, x.plane = c.val → x.wants = none) →
    ∃ t, exec (.creditReturn c) s = .next t ∧ t.pool c = s.pool c + 1 ∧ t.fab.credits = s.fab.credits ∧ t.mem = s.mem)

/-- R338, R382, R359, R360, R367: a control message and a contribution of a reduction come in, a finished unit of a
reduction is stored; a plane's loss is told. Readings and choices of the model it rests on: log entries 40, 41 and 46.
-/
def Obligations.OtherFrames : Prop :=
  (∀ (s : State) (r : Rx) (p : Peer) (b : Block), s.Hears 8 r p → s.NextBlock r b → r.hdr.last = true →
      (s.rxFlow (s.rxId r)).partial_ = [] → (s.port r.port.val).admitted < 256 → b.data.length = 16 →
      wordIn b.data 0 = 0 → wordIn b.data 2 = 0 → wordIn b.data 3 = 0 → p.unreachable = false → 16 ≤ r.hdr.queue →
      r.hdr.queue ≤ 4095 →
    ∃ t, exec (.control r) s = .next t ∧ (t.port r.port.val).admitted = (s.port r.port.val).admitted + 1 ∧
      t.Waits 8 r.hdr.src (fun c => c.data.length = 16 ∧ fieldOf (wordIn c.data 0) 15 0 = 1 ∧
        wordIn c.data 1 = wordIn b.data 1) ∧ t.mem = s.mem ∧ t.run = s.run) ∧
  (∀ (s : State) (r : Rx) (p : Peer) (b : Block) (v : Nat) (e : RedEntry), s.Hears 11 r p → s.NextBlock r b →
      b.data.length = 512 → r.hdr.addr.toNat % 512 = 0 → r.hdr.addr.toNat + 512 ≤ e.length →
      s.variantOf (r.hdr.tag.toNat % 2 ^ 20) = some v →
      s.redEntry (redKey v (r.hdr.tag.toNat / 2 ^ 20)) = some e →
      (s.redState (redKey v (r.hdr.tag.toNat / 2 ^ 20))).step % 2 ^ 20 = r.hdr.tag.toNat % 2 ^ 20 →
      s.unitClosed (redKey v (r.hdr.tag.toNat / 2 ^ 20)) (r.hdr.addr.toNat / 512) = false →
      s.redLine (redKey v (r.hdr.tag.toNat / 2 ^ 20)) (r.hdr.addr.toNat / 512) = none → s.linesBusy e.engine < linesMax →
      1 < e.expect → writeWaits s.fab.heldReads (s.rxId r) ⟨r.hdr, b.data⟩ = false →
    ∃ t l, exec (.reduce r) s = .next t ∧ s.TookBlock t r ∧
      t.redLine (redKey v (r.hdr.tag.toNat / 2 ^ 20)) (r.hdr.addr.toNat / 512) = some l ∧ l.count = 1 ∧
      (e.op ≠ 1 → l.sums = (wordsOf 2 b.data).map (fun w => (redValue w).1)) ∧
      (e.op = 1 → l.sums = b.data.map (fun x => max 0 (x.toNat : Int))) ∧ t.mem = s.mem ∧ t.run = s.run) ∧
  (∀ (s : State) (u : Nat) (l : RedLine) (e : RedEntry), s.fab.redLines.find?
        (fun x => s.lineFree x && x.entry % 4096 == l.entry % 4096 && x.unit == u) = some l →
      s.redEntry l.entry = some e → l.residueOk e.op = true →
      s.redMapped (e.unitAddr u) (e.unitBytes u) = true → zSpace (e.unitAddr u) = 1 →
      s.TierTakes (zOff (e.unitAddr u)) (l.bytes e.op).1.length →
      (s.redState l.entry).done.length + 1 < e.units →
    ∃ t, exec (.redHoldRelease (l.entry % 4096) u) s = .next t ∧ t.redLine l.entry u = none ∧
      bytesAt t.mem.cells (lpKey (zOff (e.unitAddr u))) (l.bytes e.op).1.length = (l.bytes e.op).1 ∧
      (∀ x, ¬ (lpKey (zOff (e.unitAddr u)) ≤ x ∧ x < lpKey (zOff (e.unitAddr u)) + (l.bytes e.op).1.length) →
        byteAt t.mem.cells x = byteAt s.mem.cells x) ∧
      (t.redState l.entry).done = (s.redState l.entry).done ++ [u] ∧
      t.reg (Reg.FABRIC_RED_UNITS_WRITTEN e.engine) = (s.reg (Reg.FABRIC_RED_UNITS_WRITTEN e.engine) + 1) % 2 ^ 32) ∧
  (∀ (s : State) (r : Rx) (p : Peer), s.Hears 12 r p → r.hdr.len.toNat < 2 → s.planeOut r.hdr.len.toNat = false →
    ∃ t, exec (.notice r) s = .next t ∧ tfind t.fab.planeLost r.hdr.len.toNat = some (s.slotOfTag r.hdr.phaseTag) ∧
      t.reg (Reg.EVENT_RAW clsFabric r.hdr.len.toNat) =
        s.reg (Reg.EVENT_RAW clsFabric r.hdr.len.toNat) ||| 2 ^ evLink ∧ t.mem = s.mem ∧ t.run = s.run)

/-- R333, R334, R337, R338, R344, R366, R367: timers of flows, frames that leave, ports that come and go; and no frame is heard on a
port that is down. Readings and choices of the model it rests on: log entries 41 and 46. -/
def Obligations.FlowAndPortCommands : Prop :=
  (∀ (s : State) (f : FlowId), 0 < (s.rxFlow f).unacked → 200 ≤ ticksSince s (s.rxFlow f).sinceAck →
    ∃ t, exec (.ackTimer f) s = .next t ∧ (t.rxFlow f).unacked = 0 ∧ (t.rxFlow f).expect = (s.rxFlow f).expect ∧
      t.Waits 3 f.peer (fun c => c.hdr.seq = (s.rxFlow f).expect - 1) ∧ t.mem = s.mem ∧ t.run = s.run) ∧
  (∀ (s : State) (f : FlowId) (g : Nat), (s.rxFlow f).gapSince = some g → 100 ≤ ticksSince s g →
    ∃ t, exec (.nakTimer f) s = .next t ∧ (t.rxFlow f).gapSince = some s.clock.now ∧
      t.Waits 4 f.peer (fun c => c.hdr.seq = (s.rxFlow f).expect) ∧ t.mem = s.mem ∧ t.run = s.run) ∧
  (∀ (s : State) (f : FlowId) (q : Word) (b : TxBlock), (s.txFlow f).block q = some b → b.again = false → b.busy = false →
      s.retryTimeout (s.livePlane f.plane) ≤ ticksSince s b.sentAt → b.resends < s.retryLimit (s.livePlane f.plane) →
    ∃ t, exec (.retryTimeout f q) s = .next t ∧
      (t.txFlow f).block q = some { b with again := true, resends := b.resends + 1 } ∧ t.mem = s.mem ∧ t.run = s.run) ∧
  (∀ (s : State) (p : Fin 8) (o : Offer) (pr : Peer), s.power.die = true → s.portLive p = true → s.numbered = true →
      s.peerOn o.block.cargo.hdr.dst o.block.cargo.hdr.dstHost (p.val / 4) = some pr →
      bestOffer ((s.fab.tx.filter (fun f => s.flowPort f.id == p.val &&
        s.joinedOn f.id.peer f.id.host (s.livePlane f.id.plane) && s.keyLeft p f.id)).flatMap (s.offers p)) = some o →
      (tget 0 pr.sent p + 1 < rekeyFrom ∨
        (o.block.cargo.hdr.dst, o.block.cargo.hdr.dstHost) ∈ s.fab.rekeying) →
    ∃ t h body, exec (.frameSend p) s = .next t ∧ t.out = s.out ++ [.frame p (s.envelope p pr h body) h.bytes body] ∧
      h.type = o.block.cargo.hdr.type ∧ h.seq = o.block.cargo.hdr.seq ∧ h.dst = o.block.cargo.hdr.dst ∧ h.resend = o.again ∧
      (o.block.cargo.hdr.nblk ≠ 0 → (⟨o.block.cargo.data, BitVec.ofNat 32 (crc32c o.block.cargo.data)⟩ : Block).bytes <+: body) ∧
      t.peerOn h.dst h.dstHost (p.val / 4) = some { pr with sent := tput pr.sent p (tget 0 pr.sent p + 1) } ∧
      t.reg (Reg.PORT_FRAMES_TX p) = (s.reg (Reg.PORT_FRAMES_TX p) + 1) % 2 ^ 32 ∧ t.mem = s.mem ∧ t.run = s.run) ∧
  (∀ (s : State) (p : Fin 8) (o : Offer) (pr : Peer), s.power.die = true → s.portLive p = true → s.numbered = true →
      s.peerOn o.block.cargo.hdr.dst o.block.cargo.hdr.dstHost (p.val / 4) = some pr →
      bestOffer ((s.fab.tx.filter (fun f => s.flowPort f.id == p.val &&
        s.joinedOn f.id.peer f.id.host (s.livePlane f.id.plane) && s.keyLeft p f.id)).flatMap (s.offers p)) = some o →
      rekeyFrom ≤ tget 0 pr.sent p + 1 → (o.block.cargo.hdr.dst, o.block.cargo.hdr.dstHost) ∉ s.fab.rekeying →
    ∃ t, exec (.frameSend p) s = .next t ∧ (o.block.cargo.hdr.dst, o.block.cargo.hdr.dstHost) ∈ t.fab.rekeying ∧
      (∃ h share sig, Out.join o.block.cargo.hdr.dst o.block.cargo.hdr.dstHost (some (p.val / 4)) h Config.certificates share sig ∈
        t.out)) ∧
  (∀ (s : State) (p : Fin 8) (w : LinkPart), s.portLive p = false →
    ∃ t, exec (.portDown ⟨p, w⟩) s = .next t ∧ t.port p = (s.port p).lose w ∧ t.regs = s.regs ∧ t.mem = s.mem ∧
      t.run = s.run) ∧
  (∀ (s : State) (p : Fin 8) (w : LinkPart), s.portLive p = true →
    ∃ t, exec (.portDown ⟨p, w⟩) s = .next t ∧ t.portLive p = false ∧ (t.port p).downAt = some s.clock.now ∧
      t.reg (Reg.PORT_DOWN_EVENTS p) = (s.reg (Reg.PORT_DOWN_EVENTS p) + 1) % 2 ^ 32 ∧
      (∀ q : Fin 8, q ≠ p → t.port q = s.port q) ∧ t.mem = s.mem ∧ t.run = s.run) ∧
  (∀ (s : State) (p : Fin 8) (c : Nat), s.power.die = true → s.downSince p = some c → c ≤ s.clock.now →
      s.portDownHold (p / 4) ≤ ticksSince s c →
      s.planeOut (p / 4) = false →
    ∃ t, exec (.portDownHoldExpiry p) s = .next t ∧ tfind t.fab.planeLost (p / 4) = some s.slot ∧
      t.reg (Reg.EVENT_RAW clsFabric (p / 4)) = s.reg (Reg.EVENT_RAW clsFabric (p / 4)) ||| 2 ^ evLink ∧
      t.mem = s.mem ∧ t.run = s.run) ∧
  (∀ (s : State) (r : Rx) (c : Instr), c ∈ [Instr.write r, .read r, .readData r, .ack r, .nak r, .writeDone r, .creditReq r,
      .creditGrant r, .control r, .gather r, .reduce r, .notice r] → s.portLive r.port.val = false → exec c s = .next s)

/-! ### Register messages of one rule -/

/-- R398: a doorbell sets the tail or the head, or is answered with QUEUE_ERROR and changes nothing. A tail may be moved
on by less than the room left in its ring, a head by no more than the records it has not passed. Readings and choices of
the model it rests on: log entry 35. -/
def Obligations.DoorbellCommands : Prop :=
  (∀ (s : State) (f : Session) (q ix n : Nat), s.Serves f false → q ≤ 4095 → ix ≤ 0xFFFF → n = 2 ^ (s.pair q).sqExp →
      ((s.pair q).enable = true → (s.pair q).sqTail < n ∧ (s.pair q).sqHead < n) →
    ∃ t, exec (.doorbellSubmissionTail f q ix) s = .next t ∧ t.mem = s.mem ∧ t.run = s.run ∧
      (if 16 ≤ q ∧ (s.pair q).enable = true ∧ ix < n ∧
          (ix + n - (s.pair q).sqTail) % n + ((s.pair q).sqTail + n - (s.pair q).sqHead) % n < n
       then t.Replied f 0x06 stOk 0 0 [] ∧ t.pair q = { s.pair q with sqTail := ix } ∧ (∀ p, p ≠ q → t.pair p = s.pair p)
       else t.Replied f 0x06 stQueueError 0 q [] ∧ t.ctl.queues = s.ctl.queues)) ∧
  (∀ (s : State) (f : Session) (q ix n : Nat), s.Serves f false → q ≤ 4095 → ix ≤ 0xFFFF → n = 2 ^ (s.pair q).cqExp →
      ((s.pair q).enable = true → (s.pair q).cqTail < n ∧ (s.pair q).cqHead < n) →
    ∃ t, exec (.doorbellCompletionHead f q ix) s = .next t ∧ t.mem = s.mem ∧ t.run = s.run ∧
      (if 16 ≤ q ∧ (s.pair q).enable = true ∧ ix < n ∧
          (ix + n - (s.pair q).cqHead) % n ≤ ((s.pair q).cqTail + n - (s.pair q).cqHead) % n
       then t.Replied f 0x06 stOk 0 0 [] ∧ t.pair q = { s.pair q with cqHead := ix } ∧ (∀ p, p ≠ q → t.pair p = s.pair p)
       else t.Replied f 0x06 stQueueError 0 q [] ∧ t.ctl.queues = s.ctl.queues))

/-- R393: records below ACK_SEQ are freed first; then up to COUNT records from FROM_SEQ on are returned, in sequence
order; LOG_GAP when FROM_SEQ is below the oldest held; an ACK_SEQ at or below the oldest frees nothing. Any session may.
-/
def Obligations.EventFetchCommand : Prop :=
  ∀ (s : State) (f : Session) (n first ack : Nat) (held rs : List LogRecord), s.Serves f false → 1 ≤ n → n ≤ 127 →
      s.ctl.log.Pairwise (fun a b => a.seq < b.seq) → held = s.ctl.log.filter (fun r => decide (ack ≤ r.seq)) →
      rs = (held.filter (fun r => decide (first ≤ r.seq))).take n →
    ∃ t, exec (.eventFetch f n first ack) s = .next t ∧ t.ctl.log = held ∧ rs.Pairwise (fun a b => a.seq < b.seq) ∧
      (∀ x ∈ rs, x ∈ s.ctl.log ∧ ack ≤ x.seq ∧ first ≤ x.seq) ∧ rs.length ≤ n ∧
      (rs.length < n → ∀ x ∈ held, first ≤ x.seq → x ∈ rs) ∧
      (∀ x ∈ rs, ∀ y ∈ held, first ≤ y.seq → y.seq < x.seq → y ∈ rs) ∧
      (∀ o, s.ctl.log.head? = some o → ack ≤ o.seq → held = s.ctl.log) ∧
      t.Replied f 0x07 (if held.head?.any (fun o => decide (first < o.seq)) then stLogGap else stOk) rs.length
        (s.ctl.nextSeq % 2 ^ 32) (rs.flatMap LogRecord.bytes) ∧ t.mem = s.mem ∧ t.run = s.run

/-- R432: without a receiver, or without Parlour, a plan does not start, and the refusal latches an event. While RUN is
1 already a write of 1 changes nothing (R57, log entry 37). -/
def Obligations.RunNeedsReceiverAndParlour : Prop :=
  (∀ s : State, s.run.run = false → s.run.ending = false → ¬ (s.receiverReady = true ∧ s.safety.parlourAlive = true) →
    ∃ t, exec .runStart s = .next t ∧ t.run = s.run ∧ t.mem = s.mem ∧ t.clock = s.clock ∧
      bitOf (t.reg (Reg.EVENT_RAW clsPhase 0)) evRefused = true ∧
      (bitOf (s.reg (Reg.EVENT_ENABLE clsPhase 0)) evRefused = true →
        bitOf (t.reg (Reg.EVENT_LATCH clsPhase 0)) evRefused = true)) ∧
  (∀ s : State, (s.run.run = true ∨ s.run.ending = true) → exec .runStart s = .next s)

/-- R476: SVN_COMMIT burns the fuses to a version above SVN_FUSED that no image of any slot falls short of; any other
write is ignored and reported as IGNORED; no step of the block lowers the fused version. -/
def Obligations.SecurityVersionFuses : Prop :=
  (∀ (s : State) (w : Word), s.boot.svnFused < w.toNat % 256 →
      (∀ x ∈ s.boot.images, ∀ i ∈ x.2.slots, ∀ m, i = some m → w.toNat % 256 ≤ m.svn) →
    exec (.svnCommit w) s = .next { s with boot := { s.boot with svnFused := w.toNat % 256 } }) ∧
  (∀ (s : State) (w : Word), (w.toNat % 256 ≤ s.boot.svnFused ∨
      ∃ x ∈ s.boot.images, ∃ m, some m ∈ x.2.slots ∧ m.svn < w.toNat % 256) →
    (∃ t, exec (.svnCommit w) s = .next t ∧ t.boot = s.boot ∧ t.mem = s.mem ∧ t.run = s.run) ∧
      ∀ p, s.regInService Reg.BOOT_SVN_COMMIT = true → (s.writeReg p Reg.BOOT_SVN_COMMIT w.toNat).2 = true) ∧
  (∀ s t : State, step s = .next t → s.boot.svnFused ≤ t.boot.svnFused)

/-! ### Sparse groups (chapter 05) -/

/-- R122, R123: which positions of a group its slots take, and what CHECKED decoding drops. A slot beyond the list is
idle. -/
def Obligations.GroupDecoding : Prop :=
  (∀ (b v w m : Nat) (codes : List Nat), v ≤ 16 → w < 2 ^ 16 → m = w &&& (1 <<< v - 1) →
      codes = (decodeGroup false b v w).1 →
    codes.length = min b (setBits m).length ∧ codes.Pairwise (fun i j => i < j) ∧ (∀ i ∈ codes, bitOf m i = true) ∧
    (∀ i j, bitOf m i = true → i ∉ codes → j ∈ codes → j < i) ∧
    (decodeGroup false b v w).2.1 = (setBits w).length - (setBits m).length ∧
    (decodeGroup false b v w).2.2 = (setBits m).length - codes.length) ∧
  (∀ (b v w : Nat) (codes : List Nat), w < 2 ^ 16 → codes = (decodeGroup true b v w).1 →
    codes.length = b ∧ (codes.take (setBits w).length).Pairwise (fun i j => i < j) ∧
    (∀ i ∈ codes.take (setBits w).length, bitOf w i = true) ∧
    (∀ i j, bitOf w i = true → i ∉ codes.take (setBits w).length → j ∈ codes.take (setBits w).length → j < i) ∧
    (∀ j, (setBits w).length ≤ j → j < b → codes[j]? = some 15) ∧ (decodeGroup true b v w).2 = (0, 0)) ∧
  (∀ w i : Nat, w < 2 ^ 16 → (bitOf w i = true ↔ i ∈ setBits w))

/-! ### Steps -/

/-- A step takes the command at the front of the queue, with the queue's rest; it always answers a next state. Readings
and choices of the model it rests on: log entry 16. -/
def Obligations.StepTakesTheFront : Prop :=
  (∀ (s : State) (c : Instr) (rest : List Instr), step { s with pending := c :: rest } = exec c { s with pending := rest }) ∧
  (∀ s : State, Safe s)

/-- Log entry 13 (the model's choice): with no command waiting a step is one cycle of the core clock. It moves nothing
in a module without its auxiliary rail, and adds 1 to the phase on every seventh cycle that counts (R27). A guard band that
begins sends the Delay_Reqs that are due (R350). -/
def Obligations.IdleStep : Prop :=
  (∀ s : State, s.pending = [] → s.power.aux = false → step s = .next s) ∧
  (∀ s : State, s.pending = [] → s.power.aux = true → s.power.die = false →
    step s = .next { s with clock := { s.clock with now := s.clock.now + 1 } }) ∧
  (∀ s : State, s.pending = [] → s.power.aux = true → s.power.die = true → s.power.refclkDie = true →
    ∃ t, step s = .next t ∧ t.pending = [] ∧ t.clock.now = s.clock.now + 1 ∧
      t.clock.sub = (if s.clock.sub < 6 then s.clock.sub + 1 else 0) ∧
      (s.clock.slew = none → t.clock.phase = if s.clock.sub < 6 then s.clock.phase else s.clock.phase + 1) ∧
      t.clock.locked = s.clock.locked ∧ (s.fab.heldReads = [] → t.power = s.power ∧ (s.boot.writing = none →
      t.boot = s.boot)) ∧
      (6 ≤ s.clock.sub → s.clock.slew = none → s.tickOf = 4079 → t.clock.delayDue = []))

/-- Right after reset: no supply, no plan, nothing joined, credits unlent, the log empty, every register at the reset
value of its table (R355, R391, Table 15.1), memory with nothing listed, in its canonical form, log and rings in order.
Readings and choices of the model it rests on: log entries 1, 2, 14 and 15. -/
def Obligations.ResetState : Prop :=
  State.reset.power.aux = false ∧ State.reset.power.die = false ∧ State.reset.run.run = false ∧
  State.reset.run.plan = none ∧
  State.reset.clock.locked = false ∧ State.reset.safety.stop = false ∧ State.reset.safety.parlourAlive = false ∧
  (∀ c : Fin 2, State.reset.pool c = 1024) ∧ State.reset.fab.credits = [] ∧ State.reset.fab.peers = [] ∧
  State.reset.ctl.log = [] ∧ State.reset.ctl.nextSeq = 1 ∧ State.reset.pending = [] ∧ State.reset.out = [] ∧
  State.reset.mem.cells = [] ∧ State.reset.MemoryCanonical ∧ State.reset.LogInOrder ∧ State.reset.RingsInOrder ∧
  (∀ a, State.reset.reg a = (resetOf a).toNat) ∧ State.reset.reg Reg.PHASE_SYNC_CONFIG = 7 ∧
  (∀ c : Fin 64, State.reset.reg (Reg.CORE_META_DROP_LIMIT c) = 0xFFFFFFFF ∧
    State.reset.reg (Reg.CORE_LOW_ESCAPE_LIMIT c) = 0xFFFFFFFF) ∧
  State.reset.hbMiss = 4 ∧ State.reset.plMiss = 16

/-! ### Frames and invariants -/

/-- What the commands leave alone of the clock, generators, mirrors, supplies, settings, and what was sent; the queue
always. -/
def Obligations.FrameOfClockPowerAndBoot : Prop :=
  ∀ (c : Instr) (s t : State), exec c s = .next t →
    t.pending = s.pending ∧ (leavesClock c = true → t.clock = s.clock) ∧ (leavesGenerators c = true → t.gens = s.gens) ∧
    (leavesMirrors c = true → t.mirrors = s.mirrors) ∧ (leavesPower c = true → t.power = s.power) ∧
    (leavesBoot c = true → t.boot = s.boot) ∧ (leavesOut c = true → t.out = s.out)

/-- What the commands leave alone of the run, the base dies' engines, the fabric, the log and the queue pairs, safety.
-/
def Obligations.FrameOfRunEnginesAndFabric : Prop :=
  ∀ (c : Instr) (s t : State), exec c s = .next t →
    (leavesRun c = true → t.run = s.run) ∧ (leavesSeparators c = true → t.seps = s.seps) ∧
    (leavesUpdateEngines c = true → t.upds = s.upds) ∧ (leavesFabric c = true → t.fab = s.fab) ∧
    (leavesControl c = true → t.ctl = s.ctl) ∧ (leavesSafety c = true → t.safety = s.safety)

/-- A command that stores nothing leaves every byte, in every address space, as it read before. -/
def Obligations.FrameOfMemory : Prop :=
  ∀ (c : Instr) (s t : State), exec c s = .next t → leavesMemory c = true →
    (∀ a, byteAt t.mem.cells a = byteAt s.mem.cells a) ∧ t.mem = s.mem

/-- A command that writes few registers leaves every other register as it was. -/
def Obligations.FrameOfRegisters : Prop :=
  ∀ (c : Instr) (s t : State) (l : List Nat), exec c s = .next t → mayWrite c = some l →
    ∀ a, a ∉ l → t.reg a = s.reg a

/-- Every step keeps the memory's canonical form: addresses strictly rising, no byte listed that reads as an unlisted
one. -/
def Obligations.EveryStepKeepsMemoryCanonical : Prop :=
  ∀ s t : State, s.MemoryCanonical → step s = .next t → t.MemoryCanonical

/-- Every step keeps the log rising by SEQ, below the next number, within its capacity (R391), and every enabled queue
pair's heads and tails below the sizes of its rings (R395). Readings and choices of the model it rests on: log entry 49.
-/
def Obligations.EveryStepKeepsLogAndRingsInOrder : Prop :=
  ∀ s t : State, s.LogInOrder → s.RingsInOrder → step s = .next t → t.LogInOrder ∧ t.RingsInOrder
end

