-- ==== Sys2Proof/Laws/Frame.lean ====
section
/-!
SUPPORT. What an operation leaves alone: `s.hide m` forgets the parts of the state that the mask m names, and each operation of
the model has one lemma saying that it leaves the rest as it was. Bits of a mask: 0 regs, 1 clock, 2 run, 3 seps, 4 upds, 5 mirrors, 6 fab, 7 ctl, 8 safety, 9 power, 10 boot, 11 gens, 12 out, 13 pending,
14 all of memory but its cells, 15 its cells.
-/

namespace Sys2Proof.Machine

/-- The state with the parts that a mask names forgotten: bit 14 all of memory but its cells, bit 15 its cells. -/
def State.hide (m : Nat) (s : State) : State where
  mem := if m.testBit 15 then Memory.reset else if m.testBit 14 then { Memory.reset with cells := s.mem.cells } else s.mem
  regs := if m.testBit 0 then State.reset.regs else s.regs
  clock := if m.testBit 1 then State.reset.clock else s.clock
  run := if m.testBit 2 then State.reset.run else s.run
  seps := if m.testBit 3 then State.reset.seps else s.seps
  upds := if m.testBit 4 then State.reset.upds else s.upds
  mirrors := if m.testBit 5 then State.reset.mirrors else s.mirrors
  fab := if m.testBit 6 then State.reset.fab else s.fab
  ctl := if m.testBit 7 then State.reset.ctl else s.ctl
  safety := if m.testBit 8 then State.reset.safety else s.safety
  power := if m.testBit 9 then State.reset.power else s.power
  boot := if m.testBit 10 then State.reset.boot else s.boot
  gens := if m.testBit 11 then State.reset.gens else s.gens
  out := if m.testBit 12 then State.reset.out else s.out
  pending := if m.testBit 13 then State.reset.pending else s.pending

/-- Forgetting more than a mask names. -/
theorem hide_hide {m k : Nat} (h : m &&& k = m) (s : State) : (s.hide m).hide k = s.hide k := by
  have hb : ∀ i, m.testBit i = true → k.testBit i = true := by
    intro i hi; have := congrArg (fun x => Nat.testBit x i) h; simp only [Nat.testBit_and, hi, Bool.true_and] at this; exact this
  simp only [State.hide, State.mk.injEq]
  refine ⟨?_, ?_, ?_, ?_, ?_, ?_, ?_, ?_, ?_, ?_, ?_, ?_, ?_, ?_, ?_⟩
  · by_cases h15 : m.testBit 15 = true
    · simp [hb 15 h15]
    · by_cases h14 : m.testBit 14 = true
      · simp [h14, h15, hb 14 h14]
      · simp [h14, h15]

  · by_cases hi : m.testBit 0 = true <;> simp [hi]; exact fun hk => absurd (hb 0 hi) (by simp [hk])
  · by_cases hi : m.testBit 1 = true <;> simp [hi]; exact fun hk => absurd (hb 1 hi) (by simp [hk])
  · by_cases hi : m.testBit 2 = true <;> simp [hi]; exact fun hk => absurd (hb 2 hi) (by simp [hk])
  · by_cases hi : m.testBit 3 = true <;> simp [hi]; exact fun hk => absurd (hb 3 hi) (by simp [hk])
  · by_cases hi : m.testBit 4 = true <;> simp [hi]; exact fun hk => absurd (hb 4 hi) (by simp [hk])
  · by_cases hi : m.testBit 5 = true <;> simp [hi]; exact fun hk => absurd (hb 5 hi) (by simp [hk])
  · by_cases hi : m.testBit 6 = true <;> simp [hi]; exact fun hk => absurd (hb 6 hi) (by simp [hk])
  · by_cases hi : m.testBit 7 = true <;> simp [hi]; exact fun hk => absurd (hb 7 hi) (by simp [hk])
  · by_cases hi : m.testBit 8 = true <;> simp [hi]; exact fun hk => absurd (hb 8 hi) (by simp [hk])
  · by_cases hi : m.testBit 9 = true <;> simp [hi]; exact fun hk => absurd (hb 9 hi) (by simp [hk])
  · by_cases hi : m.testBit 10 = true <;> simp [hi]; exact fun hk => absurd (hb 10 hi) (by simp [hk])
  · by_cases hi : m.testBit 11 = true <;> simp [hi]; exact fun hk => absurd (hb 11 hi) (by simp [hk])
  · by_cases hi : m.testBit 12 = true <;> simp [hi]; exact fun hk => absurd (hb 12 hi) (by simp [hk])
  · by_cases hi : m.testBit 13 = true <;> simp [hi]; exact fun hk => absurd (hb 13 hi) (by simp [hk])

/-- What a mask leaves alone, a larger one does too. -/
theorem hide_mono {m k : Nat} {s t : State} (e : t.hide m = s.hide m) (h : m &&& k = m) : t.hide k = s.hide k := by
  rw [← hide_hide h, e, hide_hide h]


@[simp] theorem hide_mem (m : Nat) (x : State) (v : Memory) (h : m / 32768 % 2 = 1) : State.hide m (State.mk v x.regs x.clock x.run x.seps x.upds x.mirrors x.fab x.ctl x.safety x.power x.boot x.gens x.out x.pending) = x.hide m := by
  have h : m.testBit 15 = true := by rw [Nat.testBit_eq_decide_div_mod_eq]; exact decide_eq_true h
  simp [State.hide, h]

@[simp] theorem hide_regs (m : Nat) (x : State) (v : Tab Word) (h : m / 1 % 2 = 1) : State.hide m (State.mk x.mem v x.clock x.run x.seps x.upds x.mirrors x.fab x.ctl x.safety x.power x.boot x.gens x.out x.pending) = x.hide m := by
  have h : m.testBit 0 = true := by rw [Nat.testBit_eq_decide_div_mod_eq]; exact decide_eq_true h
  simp [State.hide, h]

@[simp] theorem hide_clock (m : Nat) (x : State) (v : Clock) (h : m / 2 % 2 = 1) : State.hide m (State.mk x.mem x.regs v x.run x.seps x.upds x.mirrors x.fab x.ctl x.safety x.power x.boot x.gens x.out x.pending) = x.hide m := by
  have h : m.testBit 1 = true := by rw [Nat.testBit_eq_decide_div_mod_eq]; exact decide_eq_true h
  simp [State.hide, h]

@[simp] theorem hide_run (m : Nat) (x : State) (v : RunState) (h : m / 4 % 2 = 1) : State.hide m (State.mk x.mem x.regs x.clock v x.seps x.upds x.mirrors x.fab x.ctl x.safety x.power x.boot x.gens x.out x.pending) = x.hide m := by
  have h : m.testBit 2 = true := by rw [Nat.testBit_eq_decide_div_mod_eq]; exact decide_eq_true h
  simp [State.hide, h]

@[simp] theorem hide_seps (m : Nat) (x : State) (v : Tab SepUnit) (h : m / 8 % 2 = 1) : State.hide m (State.mk x.mem x.regs x.clock x.run v x.upds x.mirrors x.fab x.ctl x.safety x.power x.boot x.gens x.out x.pending) = x.hide m := by
  have h : m.testBit 3 = true := by rw [Nat.testBit_eq_decide_div_mod_eq]; exact decide_eq_true h
  simp [State.hide, h]

@[simp] theorem hide_upds (m : Nat) (x : State) (v : Tab UpdUnit) (h : m / 16 % 2 = 1) : State.hide m (State.mk x.mem x.regs x.clock x.run x.seps v x.mirrors x.fab x.ctl x.safety x.power x.boot x.gens x.out x.pending) = x.hide m := by
  have h : m.testBit 4 = true := by rw [Nat.testBit_eq_decide_div_mod_eq]; exact decide_eq_true h
  simp [State.hide, h]

@[simp] theorem hide_mirrors (m : Nat) (x : State) (v : List Mirror) (h : m / 32 % 2 = 1) : State.hide m (State.mk x.mem x.regs x.clock x.run x.seps x.upds v x.fab x.ctl x.safety x.power x.boot x.gens x.out x.pending) = x.hide m := by
  have h : m.testBit 5 = true := by rw [Nat.testBit_eq_decide_div_mod_eq]; exact decide_eq_true h
  simp [State.hide, h]

@[simp] theorem hide_fab (m : Nat) (x : State) (v : Fabric) (h : m / 64 % 2 = 1) : State.hide m (State.mk x.mem x.regs x.clock x.run x.seps x.upds x.mirrors v x.ctl x.safety x.power x.boot x.gens x.out x.pending) = x.hide m := by
  have h : m.testBit 6 = true := by rw [Nat.testBit_eq_decide_div_mod_eq]; exact decide_eq_true h
  simp [State.hide, h]

@[simp] theorem hide_ctl (m : Nat) (x : State) (v : Control) (h : m / 128 % 2 = 1) : State.hide m (State.mk x.mem x.regs x.clock x.run x.seps x.upds x.mirrors x.fab v x.safety x.power x.boot x.gens x.out x.pending) = x.hide m := by
  have h : m.testBit 7 = true := by rw [Nat.testBit_eq_decide_div_mod_eq]; exact decide_eq_true h
  simp [State.hide, h]

@[simp] theorem hide_safety (m : Nat) (x : State) (v : SafetyState) (h : m / 256 % 2 = 1) : State.hide m (State.mk x.mem x.regs x.clock x.run x.seps x.upds x.mirrors x.fab x.ctl v x.power x.boot x.gens x.out x.pending) = x.hide m := by
  have h : m.testBit 8 = true := by rw [Nat.testBit_eq_decide_div_mod_eq]; exact decide_eq_true h
  simp [State.hide, h]

@[simp] theorem hide_power (m : Nat) (x : State) (v : PowerState) (h : m / 512 % 2 = 1) : State.hide m (State.mk x.mem x.regs x.clock x.run x.seps x.upds x.mirrors x.fab x.ctl x.safety v x.boot x.gens x.out x.pending) = x.hide m := by
  have h : m.testBit 9 = true := by rw [Nat.testBit_eq_decide_div_mod_eq]; exact decide_eq_true h
  simp [State.hide, h]

@[simp] theorem hide_boot (m : Nat) (x : State) (v : BootState) (h : m / 1024 % 2 = 1) : State.hide m (State.mk x.mem x.regs x.clock x.run x.seps x.upds x.mirrors x.fab x.ctl x.safety x.power v x.gens x.out x.pending) = x.hide m := by
  have h : m.testBit 10 = true := by rw [Nat.testBit_eq_decide_div_mod_eq]; exact decide_eq_true h
  simp [State.hide, h]

@[simp] theorem hide_gens (m : Nat) (x : State) (v : Generators) (h : m / 2048 % 2 = 1) : State.hide m (State.mk x.mem x.regs x.clock x.run x.seps x.upds x.mirrors x.fab x.ctl x.safety x.power x.boot v x.out x.pending) = x.hide m := by
  have h : m.testBit 11 = true := by rw [Nat.testBit_eq_decide_div_mod_eq]; exact decide_eq_true h
  simp [State.hide, h]

@[simp] theorem hide_out (m : Nat) (x : State) (v : List Out) (h : m / 4096 % 2 = 1) : State.hide m (State.mk x.mem x.regs x.clock x.run x.seps x.upds x.mirrors x.fab x.ctl x.safety x.power x.boot x.gens v x.pending) = x.hide m := by
  have h : m.testBit 12 = true := by rw [Nat.testBit_eq_decide_div_mod_eq]; exact decide_eq_true h
  simp [State.hide, h]

@[simp] theorem hide_pending (m : Nat) (x : State) (v : List Instr) (h : m / 8192 % 2 = 1) : State.hide m (State.mk x.mem x.regs x.clock x.run x.seps x.upds x.mirrors x.fab x.ctl x.safety x.power x.boot x.gens x.out v) = x.hide m := by
  have h : m.testBit 13 = true := by rw [Nat.testBit_eq_decide_div_mod_eq]; exact decide_eq_true h
  simp [State.hide, h]

@[simp] theorem hide_memRest (m : Nat) (x : State) (e r bs bt tb lp ow ca ch) (h : m / 16384 % 2 = 1) : State.hide m (State.mk ⟨x.mem.cells, e, r, bs, bt, tb, lp, ow, ca, ch⟩ x.regs x.clock x.run x.seps x.upds x.mirrors x.fab x.ctl x.safety x.power x.boot x.gens x.out x.pending) = x.hide m := by
  have h : m.testBit 14 = true := by rw [Nat.testBit_eq_decide_div_mod_eq]; exact decide_eq_true h
  simp [State.hide, h, Memory.reset]


/-- A mask that a smaller one is part of. -/
theorem sub_mask {a b m : Nat} (h : b &&& m = b) (k : a &&& b = a) : a &&& m = a := by
  rw [← k, Nat.and_assoc, h]

@[simp] theorem foldl_hide {α : Type} (m : Nat) (f : State → α → State) (l : List α) (s : State) (h : ∀ t x, (f t x).hide m = t.hide m) :
    (l.foldl f s).hide m = s.hide m := by
  induction l generalizing s with
  | nil => rfl
  | cons x xs ih => simp [ih, h]
@[simp] theorem ite_hide (m : Nat) (c : Prop) [Decidable c] (a b : State) : (if c then a else b).hide m = if c then a.hide m else b.hide m := by split <;> rfl
@[simp] theorem ite_fst {α β : Type} (c : Prop) [Decidable c] (a b : α × β) : (if c then a else b).1 = if c then a.1 else b.1 := by split <;> rfl
@[simp] theorem ite_snd {α β : Type} (c : Prop) [Decidable c] (a b : α × β) : (if c then a else b).2 = if c then a.2 else b.2 := by split <;> rfl


@[simp] theorem foldl_fst_hide {α : Type} {β : Type} (m : Nat) (f : (State × β) → α → (State × β)) (l : List α) (b : State × β) (h : ∀ t x, (f t x).1.hide m = t.1.hide m) :
    (l.foldl f b).1.hide m = b.1.hide m := by
  induction l generalizing b with
  | nil => rfl
  | cons x xs ih => exact (ih _).trans (h _ _)

@[simp] theorem foldl_snd_hide {α : Type} {β : Type} (m : Nat) (f : (β × State) → α → (β × State)) (l : List α) (b : β × State) (h : ∀ t x, (f t x).2.hide m = t.2.hide m) :
    (l.foldl f b).2.hide m = b.2.hide m := by
  induction l generalizing b with
  | nil => rfl
  | cons x xs ih => exact (ih _).trans (h _ _)

@[simp] theorem foldl_Answer_hide {α : Type} (m : Nat) (f : (Answer) → α → (Answer)) (l : List α) (b : Answer) (h : ∀ t x, (f t x).s.hide m = t.s.hide m) :
    (l.foldl f b).s.hide m = b.s.hide m := by
  induction l generalizing b with
  | nil => rfl
  | cons x xs ih => exact (ih _).trans (h _ _)

@[simp] theorem foldl_Coded_hide {α : Type} (m : Nat) (f : (Coded) → α → (Coded)) (l : List α) (b : Coded) (h : ∀ t x, (f t x).s.hide m = t.s.hide m) :
    (l.foldl f b).s.hide m = b.s.hide m := by
  induction l generalizing b with
  | nil => rfl
  | cons x xs ih => exact (ih _).trans (h _ _)

@[simp] theorem foldl_Delivery_hide {α : Type} (m : Nat) (f : (Delivery) → α → (Delivery)) (l : List α) (b : Delivery) (h : ∀ t x, (f t x).s.hide m = t.s.hide m) :
    (l.foldl f b).s.hide m = b.s.hide m := by
  induction l generalizing b with
  | nil => rfl
  | cons x xs ih => exact (ih _).trans (h _ _)

@[simp] theorem foldl_Fetched_hide {α : Type} (m : Nat) (f : (Fetched) → α → (Fetched)) (l : List α) (b : Fetched) (h : ∀ t x, (f t x).s.hide m = t.s.hide m) :
    (l.foldl f b).s.hide m = b.s.hide m := by
  induction l generalizing b with
  | nil => rfl
  | cons x xs ih => exact (ih _).trans (h _ _)

@[simp] theorem foldl_Filling_hide {α : Type} (m : Nat) (f : (Filling) → α → (Filling)) (l : List α) (b : Filling) (h : ∀ t x, (f t x).s.hide m = t.s.hide m) :
    (l.foldl f b).s.hide m = b.s.hide m := by
  induction l generalizing b with
  | nil => rfl
  | cons x xs ih => exact (ih _).trans (h _ _)

@[simp] theorem foldl_Got_hide {α : Type} (m : Nat) (f : (Got) → α → (Got)) (l : List α) (b : Got) (h : ∀ t x, (f t x).s.hide m = t.s.hide m) :
    (l.foldl f b).s.hide m = b.s.hide m := by
  induction l generalizing b with
  | nil => rfl
  | cons x xs ih => exact (ih _).trans (h _ _)

@[simp] theorem foldl_Loading_hide {α : Type} (m : Nat) (f : (Loading) → α → (Loading)) (l : List α) (b : Loading) (h : ∀ t x, (f t x).s.hide m = t.s.hide m) :
    (l.foldl f b).s.hide m = b.s.hide m := by
  induction l generalizing b with
  | nil => rfl
  | cons x xs ih => exact (ih _).trans (h _ _)

@[simp] theorem foldl_Put_hide {α : Type} (m : Nat) (f : (Put) → α → (Put)) (l : List α) (b : Put) (h : ∀ t x, (f t x).s.hide m = t.s.hide m) :
    (l.foldl f b).s.hide m = b.s.hide m := by
  induction l generalizing b with
  | nil => rfl
  | cons x xs ih => exact (ih _).trans (h _ _)

@[simp] theorem foldl_Reduced_hide {α : Type} (m : Nat) (f : (Reduced) → α → (Reduced)) (l : List α) (b : Reduced) (h : ∀ t x, (f t x).s.hide m = t.s.hide m) :
    (l.foldl f b).s.hide m = b.s.hide m := by
  induction l generalizing b with
  | nil => rfl
  | cons x xs ih => exact (ih _).trans (h _ _)

@[simp] theorem foldl_Rows_hide {α : Type} (m : Nat) (f : (Rows) → α → (Rows)) (l : List α) (b : Rows) (h : ∀ t x, (f t x).s.hide m = t.s.hide m) :
    (l.foldl f b).s.hide m = b.s.hide m := by
  induction l generalizing b with
  | nil => rfl
  | cons x xs ih => exact (ih _).trans (h _ _)

@[simp] theorem foldl_Runs_hide {α : Type} (m : Nat) (f : (Runs) → α → (Runs)) (l : List α) (b : Runs) (h : ∀ t x, (f t x).s.hide m = t.s.hide m) :
    (l.foldl f b).s.hide m = b.s.hide m := by
  induction l generalizing b with
  | nil => rfl
  | cons x xs ih => exact (ih _).trans (h _ _)

@[simp] theorem foldl_Stored_hide {α : Type} (m : Nat) (f : (Stored) → α → (Stored)) (l : List α) (b : Stored) (h : ∀ t x, (f t x).s.hide m = t.s.hide m) :
    (l.foldl f b).s.hide m = b.s.hide m := by
  induction l generalizing b with
  | nil => rfl
  | cons x xs ih => exact (ih _).trans (h _ _)

@[simp] theorem foldl_UpdBatch_hide {α : Type} (m : Nat) (f : (UpdBatch) → α → (UpdBatch)) (l : List α) (b : UpdBatch) (h : ∀ t x, (f t x).s.hide m = t.s.hide m) :
    (l.foldl f b).s.hide m = b.s.hide m := by
  induction l generalizing b with
  | nil => rfl
  | cons x xs ih => exact (ih _).trans (h _ _)

@[simp] theorem ite_Answer_s (c : Prop) [Decidable c] (a b : Answer) : (if c then a else b).s = if c then a.s else b.s := by split <;> rfl

@[simp] theorem ite_Coded_s (c : Prop) [Decidable c] (a b : Coded) : (if c then a else b).s = if c then a.s else b.s := by split <;> rfl

@[simp] theorem ite_Delivery_s (c : Prop) [Decidable c] (a b : Delivery) : (if c then a else b).s = if c then a.s else b.s := by split <;> rfl

@[simp] theorem ite_Fetched_s (c : Prop) [Decidable c] (a b : Fetched) : (if c then a else b).s = if c then a.s else b.s := by split <;> rfl

@[simp] theorem ite_Filling_s (c : Prop) [Decidable c] (a b : Filling) : (if c then a else b).s = if c then a.s else b.s := by split <;> rfl

@[simp] theorem ite_Got_s (c : Prop) [Decidable c] (a b : Got) : (if c then a else b).s = if c then a.s else b.s := by split <;> rfl

@[simp] theorem ite_Loading_s (c : Prop) [Decidable c] (a b : Loading) : (if c then a else b).s = if c then a.s else b.s := by split <;> rfl

@[simp] theorem ite_Put_s (c : Prop) [Decidable c] (a b : Put) : (if c then a else b).s = if c then a.s else b.s := by split <;> rfl

@[simp] theorem ite_Reduced_s (c : Prop) [Decidable c] (a b : Reduced) : (if c then a else b).s = if c then a.s else b.s := by split <;> rfl

@[simp] theorem ite_Rows_s (c : Prop) [Decidable c] (a b : Rows) : (if c then a else b).s = if c then a.s else b.s := by split <;> rfl

@[simp] theorem ite_Runs_s (c : Prop) [Decidable c] (a b : Runs) : (if c then a else b).s = if c then a.s else b.s := by split <;> rfl

@[simp] theorem ite_Stored_s (c : Prop) [Decidable c] (a b : Stored) : (if c then a else b).s = if c then a.s else b.s := by split <;> rfl

@[simp] theorem ite_UpdBatch_s (c : Prop) [Decidable c] (a b : UpdBatch) : (if c then a else b).s = if c then a.s else b.s := by split <;> rfl

@[simp] theorem foldl_ChunkRead_hide {α : Type} (m : Nat) (f : (ChunkRead) → α → (ChunkRead)) (l : List α) (b : ChunkRead) (h : ∀ t x, (f t x).s.hide m = t.s.hide m) :
    (l.foldl f b).s.hide m = b.s.hide m := by
  induction l generalizing b with
  | nil => rfl
  | cons x xs ih => exact (ih _).trans (h _ _)

@[simp] theorem ite_ChunkRead_s (c : Prop) [Decidable c] (a b : ChunkRead) : (if c then a else b).s = if c then a.s else b.s := by split <;> rfl

@[simp] theorem foldl_Formed_hide {α : Type} (m : Nat) (f : (Formed) → α → (Formed)) (l : List α) (b : Formed) (h : ∀ t x, (f t x).s.hide m = t.s.hide m) :
    (l.foldl f b).s.hide m = b.s.hide m := by
  induction l generalizing b with
  | nil => rfl
  | cons x xs ih => exact (ih _).trans (h _ _)

@[simp] theorem ite_Formed_s (c : Prop) [Decidable c] (a b : Formed) : (if c then a else b).s = if c then a.s else b.s := by split <;> rfl

@[simp] theorem foldl_Outgoing_hide {α : Type} (m : Nat) (f : (Outgoing) → α → (Outgoing)) (l : List α) (b : Outgoing) (h : ∀ t x, (f t x).s.hide m = t.s.hide m) :
    (l.foldl f b).s.hide m = b.s.hide m := by
  induction l generalizing b with
  | nil => rfl
  | cons x xs ih => exact (ih _).trans (h _ _)

@[simp] theorem ite_Outgoing_s (c : Prop) [Decidable c] (a b : Outgoing) : (if c then a else b).s = if c then a.s else b.s := by split <;> rfl

@[simp] theorem foldl_Sources_hide {α : Type} (m : Nat) (f : (Sources) → α → (Sources)) (l : List α) (b : Sources) (h : ∀ t x, (f t x).s.hide m = t.s.hide m) :
    (l.foldl f b).s.hide m = b.s.hide m := by
  induction l generalizing b with
  | nil => rfl
  | cons x xs ih => exact (ih _).trans (h _ _)

@[simp] theorem ite_Sources_s (c : Prop) [Decidable c] (a b : Sources) : (if c then a else b).s = if c then a.s else b.s := by split <;> rfl

end Sys2Proof.Machine
end

