-- ==== Sys2Proof/Laws/FrameMemory.lean ====
section
/-! SUPPORT. What the operations of shared operations, the phase and memory leave alone, one lemma each (masks: Laws/Frame.lean). -/

namespace Sys2Proof.Machine

@[simp] theorem State.setCells_hide (m : Nat) (hm : 49152 &&& m = 49152) : ∀ a0 a1, (State.setCells a0 a1).hide m = a0.hide m := by
  intro a0 a1
  refine hide_mono ?_ hm
  unfold State.setCells
  simp [-List.foldl_cons, -List.foldl_nil]

@[simp] theorem State.setReg_hide (m : Nat) (hm : 1 &&& m = 1) : ∀ a0 a1 a2, (State.setReg a0 a1 a2).hide m = a0.hide m := by
  intro a0 a1 a2
  refine hide_mono ?_ hm
  unfold State.setReg
  simp [-List.foldl_cons, -List.foldl_nil]

@[simp] theorem State.bump_hide (m : Nat) (hm : 1 &&& m = 1) : ∀ a0 a1, (State.bump a0 a1).hide m = a0.hide m := by
  intro a0 a1
  refine hide_mono ?_ hm
  unfold State.bump
  simp [-List.foldl_cons, -List.foldl_nil]

@[simp] theorem State.bumpBy_hide (m : Nat) (hm : 1 &&& m = 1) : ∀ a0 a1 a2, (State.bumpBy a0 a1 a2).hide m = a0.hide m := by
  intro a0 a1 a2
  refine hide_mono ?_ hm
  unfold State.bumpBy
  simp [-List.foldl_cons, -List.foldl_nil]

@[simp] theorem State.bumpSat_hide (m : Nat) (hm : 1 &&& m = 1) : ∀ a0 a1 a2 a3, (State.bumpSat a0 a1 a2 a3).hide m = a0.hide m := by
  intro a0 a1 a2 a3
  refine hide_mono ?_ hm
  unfold State.bumpSat
  simp [-List.foldl_cons, -List.foldl_nil]

@[simp] theorem State.setReg64_hide (m : Nat) (hm : 1 &&& m = 1) : ∀ a0 a1 a2, (State.setReg64 a0 a1 a2).hide m = a0.hide m := by
  intro a0 a1 a2
  refine hide_mono ?_ hm
  unfold State.setReg64
  simp [-List.foldl_cons, -List.foldl_nil]

@[simp] theorem State.emit_hide (m : Nat) (hm : 4096 &&& m = 4096) : ∀ a0 a1, (State.emit a0 a1).hide m = a0.hide m := by
  intro a0 a1
  refine hide_mono ?_ hm
  unfold State.emit
  simp [-List.foldl_cons, -List.foldl_nil]

@[simp] theorem State.draw_hide (m : Nat) (hm : 128 &&& m = 128) : ∀ a0, (State.draw a0).2.hide m = a0.hide m := by
  intro a0
  refine hide_mono ?_ hm
  unfold State.draw
  simp [-List.foldl_cons, -List.foldl_nil]

@[simp] theorem State.setCore_hide (m : Nat) (hm : 4 &&& m = 4) : ∀ a0 a1 a2, (State.setCore a0 a1 a2).hide m = a0.hide m := by
  intro a0 a1 a2
  refine hide_mono ?_ hm
  unfold State.setCore
  simp [-List.foldl_cons, -List.foldl_nil]

@[simp] theorem State.setSep_hide (m : Nat) (hm : 8 &&& m = 8) : ∀ a0 a1 a2, (State.setSep a0 a1 a2).hide m = a0.hide m := by
  intro a0 a1 a2
  refine hide_mono ?_ hm
  unfold State.setSep
  simp [-List.foldl_cons, -List.foldl_nil]

@[simp] theorem State.setUpd_hide (m : Nat) (hm : 16 &&& m = 16) : ∀ a0 a1 a2, (State.setUpd a0 a1 a2).hide m = a0.hide m := by
  intro a0 a1 a2
  refine hide_mono ?_ hm
  unfold State.setUpd
  simp [-List.foldl_cons, -List.foldl_nil]

@[simp] theorem State.logAppend_hide (m : Nat) (hm : 129 &&& m = 129) : ∀ a0 a1, (State.logAppend a0 a1).hide m = a0.hide m := by
  intro a0 a1
  refine hide_mono ?_ hm
  unfold State.logAppend
  simp [-List.foldl_cons, -List.foldl_nil]

@[simp] theorem State.event_hide (m : Nat) (hm : 129 &&& m = 129) : ∀ a0 a1 a2 a3 a4, (State.event a0 a1 a2 a3 a4).hide m = a0.hide m := by
  intro a0 a1 a2 a3 a4
  refine hide_mono ?_ hm
  unfold State.event
  simp [-List.foldl_cons, -List.foldl_nil]

@[simp] theorem State.pail_hide (m : Nat) (hm : 129 &&& m = 129) : ∀ a0 a1 a2 a3, (State.pail a0 a1 a2 a3).hide m = a0.hide m := by
  intro a0 a1 a2 a3
  refine hide_mono ?_ hm
  unfold State.pail
  simp [-List.foldl_cons, -List.foldl_nil]

@[simp] theorem State.encoded_hide (m : Nat) (hm : 16384 &&& m = 16384) : ∀ a0 a1, (State.encoded a0 a1).hide m = a0.hide m := by
  intro a0 a1
  refine hide_mono ?_ hm
  unfold State.encoded
  (repeat' split) <;> simp [-List.foldl_cons, -List.foldl_nil]

@[simp] theorem State.encodeRun_hide (m : Nat) (hm : 16384 &&& m = 16384) : ∀ a0 a1 a2, (State.encodeRun a0 a1 a2).hide m = a0.hide m := by
  intro a0 a1 a2
  refine hide_mono ?_ hm
  unfold State.encodeRun
  simp [-List.foldl_cons, -List.foldl_nil]

@[simp] theorem State.setErr_hide (m : Nat) (hm : 16384 &&& m = 16384) : ∀ a0 a1 a2, (State.setErr a0 a1 a2).hide m = a0.hide m := by
  intro a0 a1 a2
  refine hide_mono ?_ hm
  unfold State.setErr
  simp [-List.foldl_cons, -List.foldl_nil]

@[simp] theorem State.recode_hide (m : Nat) (hm : 16384 &&& m = 16384) : ∀ a0 a1 a2, (State.recode a0 a1 a2).hide m = a0.hide m := by
  intro a0 a1 a2
  refine hide_mono ?_ hm
  unfold State.recode
  refine foldl_hide _ _ _ _ (fun t u => ?_)
  split
  · rfl
  · split
    · rfl
    · rfl

@[simp] theorem State.correct_hide (m : Nat) (hm : 129 &&& m = 129) : ∀ a0 a1 a2, (State.correct a0 a1 a2).hide m = a0.hide m := by
  intro a0 a1 a2
  refine hide_mono ?_ hm
  unfold State.correct
  simp [-List.foldl_cons, -List.foldl_nil]

@[simp] theorem codeUnit_hide (m : Nat) (hm : 49281 &&& m = 49281) : ∀ (a0 : State → Nat → State) a1 a2 a3 a4 a5, (∀ t o, (a0 t o).hide m = t.hide m) →
    (codeUnit a0 a1 a2 a3 a4 a5).s.hide m = a5.s.hide m := by
  intro a0 a1 a2 a3 a4 a5 h
  have e1 : ∀ (x : State), x.draw.2.hide m = x.hide m := fun x => State.draw_hide m (sub_mask hm (by decide)) ..
  have e2 : ∀ (x : State) a b, (x.setErr a b).hide m = x.hide m := fun x a b => State.setErr_hide m (sub_mask hm (by decide)) ..
  have e3 : ∀ (x : State) a, (x.encoded a).hide m = x.hide m := fun x a => State.encoded_hide m (sub_mask hm (by decide)) ..
  have e4 : ∀ (x : State) a b, (x.correct a b).hide m = x.hide m := fun x a b => State.correct_hide m (sub_mask hm (by decide)) ..
  have e5 : ∀ (x : State) a, (x.setCells a).hide m = x.hide m := fun x a => State.setCells_hide m (sub_mask hm (by decide)) ..
  unfold codeUnit
  dsimp only
  split
  · rfl
  · exact (e4 ..).trans ((e3 ..).trans (e2 ..))
  · exact h ..
  · split
    · exact (h ..).trans (e1 _)
    · exact (e4 ..).trans ((e3 ..).trans ((e5 ..).trans ((e2 ..).trans (e1 _))))
    · exact e1 _

@[simp] theorem State.readBlockBy_hide (m : Nat) (hm : 49281 &&& m = 49281) : ∀ s (bad : State → Nat → State) blk, (∀ t o, (bad t o).hide m = t.hide m) →
    (State.readBlockBy s bad blk).s.hide m = s.hide m := by
  intro s bad blk h
  unfold State.readBlockBy
  extract_lets code
  split
  · exact codeUnit_hide m hm _ _ _ _ _ _ h
  · split
    · rfl
    · exact foldl_Coded_hide _ _ _ _ (fun t x => codeUnit_hide m hm _ _ _ _ _ _ h)

@[simp] theorem State.invalidate_hide (m : Nat) (hm : 16385 &&& m = 16385) : ∀ a0 a1 a2, (State.invalidate a0 a1 a2).hide m = a0.hide m := by
  intro a0 a1 a2
  refine hide_mono ?_ hm
  unfold State.invalidate
  (repeat' split) <;> simp [-List.foldl_cons, -List.foldl_nil]

@[simp] theorem State.writeBlock_hide (m : Nat) (hm : 49153 &&& m = 49153) : ∀ a0 a1 a2, (State.writeBlock a0 a1 a2).hide m = a0.hide m := by
  intro a0 a1 a2
  refine hide_mono ?_ hm
  unfold State.writeBlock
  simp [-List.foldl_cons, -List.foldl_nil]

@[simp] theorem State.oweBad_hide (m : Nat) (hm : 16384 &&& m = 16384) : ∀ a0 a1, (State.oweBad a0 a1).hide m = a0.hide m := by
  intro a0 a1
  refine hide_mono ?_ hm
  unfold State.oweBad
  simp [-List.foldl_cons, -List.foldl_nil]

@[simp] theorem State.editJournal_hide (m : Nat) (hm : 49281 &&& m = 49281) : ∀ a0 a1 a2 a3 a4, (State.editJournal a0 a1 a2 a3 a4).hide m = a0.hide m := by
  intro a0 a1 a2 a3 a4
  refine hide_mono ?_ hm
  unfold State.editJournal
  (repeat' split) <;> simp [-List.foldl_cons, -List.foldl_nil]

@[simp] theorem State.setJournalWord_hide (m : Nat) (hm : 49281 &&& m = 49281) : ∀ a0 a1 a2 a3 a4, (State.setJournalWord a0 a1 a2 a3 a4).hide m = a0.hide m := by
  intro a0 a1 a2 a3 a4
  refine hide_mono ?_ hm
  unfold State.setJournalWord
  (repeat' split) <;> simp [-List.foldl_cons, -List.foldl_nil]

@[simp] theorem State.setJournal_hide (m : Nat) (hm : 49281 &&& m = 49281) : ∀ a0 a1 a2 a3 a4 a5 a6, (State.setJournal a0 a1 a2 a3 a4 a5 a6).hide m = a0.hide m := by
  intro a0 a1 a2 a3 a4 a5 a6
  refine hide_mono ?_ hm
  unfold State.setJournal
  simp [-List.foldl_cons, -List.foldl_nil]

@[simp] theorem State.dropRequests_hide (m : Nat) (hm : 4 &&& m = 4) : ∀ a0 a1, (State.dropRequests a0 a1).hide m = a0.hide m := by
  intro a0 a1
  refine hide_mono ?_ hm
  unfold State.dropRequests
  simp [-List.foldl_cons, -List.foldl_nil]

@[simp] theorem State.hostDone_hide (m : Nat) (hm : 1 &&& m = 1) : ∀ a0 a1 a2 a3 a4, (State.hostDone a0 a1 a2 a3 a4).hide m = a0.hide m := by
  intro a0 a1 a2 a3 a4
  refine hide_mono ?_ hm
  unfold State.hostDone
  simp [-List.foldl_cons, -List.foldl_nil]

@[simp] theorem State.stopSep_hide (m : Nat) (hm : 49309 &&& m = 49309) : ∀ a0 a1, (State.stopSep a0 a1).hide m = a0.hide m := by
  intro a0 a1
  refine hide_mono ?_ hm
  unfold State.stopSep
  try dsimp only
  (repeat' split) <;> simp [-List.foldl_cons, -List.foldl_nil]

@[simp] theorem State.stopUpd_hide (m : Nat) (hm : 20 &&& m = 20) : ∀ a0 a1, (State.stopUpd a0 a1).hide m = a0.hide m := by
  intro a0 a1
  refine hide_mono ?_ hm
  unfold State.stopUpd
  try dsimp only
  (repeat' split) <;> simp [-List.foldl_cons, -List.foldl_nil]

@[simp] theorem State.stopBases_hide (m : Nat) (hm : 49309 &&& m = 49309) : ∀ a0, (State.stopBases a0).hide m = a0.hide m := by
  intro a0
  refine hide_mono ?_ hm
  unfold State.stopBases
  simp [-List.foldl_cons, -List.foldl_nil]

@[simp] theorem State.bubbles_hide (m : Nat) (hm : 1 &&& m = 1) : ∀ a0 a1 a2, (State.bubbles a0 a1 a2).hide m = a0.hide m := by
  intro a0 a1 a2
  refine hide_mono ?_ hm
  unfold State.bubbles
  (repeat' split) <;> simp [-List.foldl_cons, -List.foldl_nil]

@[simp] theorem State.cutWaits_hide (m : Nat) (hm : 1 &&& m = 1) : ∀ a0, (State.cutWaits a0).hide m = a0.hide m := by
  intro a0
  refine hide_mono ?_ hm
  unfold State.cutWaits
  simp (disch := (first | (intros; simp [-List.foldl_cons, -List.foldl_nil]; done) | (intros; split <;> (simp [-List.foldl_cons, -List.foldl_nil]; done)) | fail)) [-List.foldl_cons, -List.foldl_nil]

@[simp] theorem State.planStop_hide (m : Nat) (hm : 49309 &&& m = 49309) : ∀ a0, (State.planStop a0).hide m = a0.hide m := by
  intro a0
  refine hide_mono ?_ hm
  unfold State.planStop
  simp [-List.foldl_cons, -List.foldl_nil]

@[simp] theorem State.safeSep_hide (m : Nat) (hm : 29 &&& m = 29) : ∀ a0 a1, (State.safeSep a0 a1).hide m = a0.hide m := by
  intro a0 a1
  refine hide_mono ?_ hm
  unfold State.safeSep
  try dsimp only
  (repeat' split) <;> simp [-List.foldl_cons, -List.foldl_nil]

@[simp] theorem State.safeUpd_hide (m : Nat) (hm : 21 &&& m = 21) : ∀ a0 a1, (State.safeUpd a0 a1).hide m = a0.hide m := by
  intro a0 a1
  refine hide_mono ?_ hm
  unfold State.safeUpd
  try dsimp only
  (repeat' split) <;> simp [-List.foldl_cons, -List.foldl_nil]

@[simp] theorem State.safeBases_hide (m : Nat) (hm : 29 &&& m = 29) : ∀ a0, (State.safeBases a0).hide m = a0.hide m := by
  intro a0
  refine hide_mono ?_ hm
  unfold State.safeBases
  simp [-List.foldl_cons, -List.foldl_nil]

@[simp] theorem State.safeSends_hide (m : Nat) (hm : 69 &&& m = 69) : ∀ a0, (State.safeSends a0).hide m = a0.hide m := by
  intro a0
  refine hide_mono ?_ hm
  unfold State.safeSends
  rfl

@[simp] theorem State.detect_hide (m : Nat) (hm : 349 &&& m = 349) : ∀ a0 a1, (State.detect a0 a1).hide m = a0.hide m := by
  intro a0 a1
  refine hide_mono ?_ hm
  unfold State.detect
  simp [-List.foldl_cons, -List.foldl_nil]

@[simp] theorem State.faultRecord_hide (m : Nat) (hm : 129 &&& m = 129) : ∀ a0 a1 a2, (State.faultRecord a0 a1 a2).hide m = a0.hide m := by
  intro a0 a1 a2
  refine hide_mono ?_ hm
  unfold State.faultRecord
  simp [-List.foldl_cons, -List.foldl_nil]

@[simp] theorem State.raise_hide (m : Nat) (hm : 49629 &&& m = 49629) : ∀ a0 a1 a2, (State.raise a0 a1 a2).hide m = a0.hide m := by
  intro a0 a1 a2
  refine hide_mono ?_ hm
  unfold State.raise
  simp [-List.foldl_cons, -List.foldl_nil]

theorem done_hide : ∀ a0 t, done a0 = .next t → t.hide 0 = a0.hide 0 := by
  intro a0 t h
  simp only [done, done, Host.Outcome.next.injEq] at h
  subst h
  simp [-List.foldl_cons, -List.foldl_nil]

@[simp] theorem State.setPort_hide (m : Nat) (hm : 64 &&& m = 64) : ∀ a0 a1 a2, (State.setPort a0 a1 a2).hide m = a0.hide m := by
  intro a0 a1 a2
  refine hide_mono ?_ hm
  unfold State.setPort
  simp [-List.foldl_cons, -List.foldl_nil]

@[simp] theorem State.setClock_hide (m : Nat) (hm : 2 &&& m = 2) : ∀ a0 a1, (State.setClock a0 a1).hide m = a0.hide m := by
  intro a0 a1
  refine hide_mono ?_ hm
  unfold State.setClock
  simp [-List.foldl_cons, -List.foldl_nil]

@[simp] theorem State.syncSeen_hide (m : Nat) (hm : 2 &&& m = 2) : ∀ a0 a1 a2 a3 a4, (State.syncSeen a0 a1 a2 a3 a4).hide m = a0.hide m := by
  intro a0 a1 a2 a3 a4
  refine hide_mono ?_ hm
  unfold State.syncSeen
  simp [-List.foldl_cons, -List.foldl_nil]

theorem execSync_hide : ∀ a0 a1 a2 a3 t, execSync a0 a1 a2 a3 = .next t → t.hide 2 = a3.hide 2 := by
  intro a0 a1 a2 a3 t h
  simp only [execSync, done, Host.Outcome.next.injEq] at h
  subst h
  simp [-List.foldl_cons, -List.foldl_nil]

@[simp] theorem State.sendDelayReqs_hide (m : Nat) (hm : 4098 &&& m = 4098) : ∀ a0, (State.sendDelayReqs a0).hide m = a0.hide m := by
  intro a0
  refine hide_mono ?_ hm
  unfold State.sendDelayReqs
  simp [-List.foldl_cons, -List.foldl_nil]

@[simp] theorem State.delaySeen_hide (m : Nat) (hm : 2 &&& m = 2) : ∀ a0 a1 a2 a3 a4, (State.delaySeen a0 a1 a2 a3 a4).hide m = a0.hide m := by
  intro a0 a1 a2 a3 a4
  refine hide_mono ?_ hm
  unfold State.delaySeen
  (repeat' split) <;> simp [-List.foldl_cons, -List.foldl_nil]

theorem execDelayResp_hide : ∀ a0 a1 a2 a3 t, execDelayResp a0 a1 a2 a3 = .next t → t.hide 2 = a3.hide 2 := by
  intro a0 a1 a2 a3 t h
  simp only [execDelayResp, done, Host.Outcome.next.injEq] at h
  subst h
  simp [-List.foldl_cons, -List.foldl_nil]

@[simp] theorem State.showOffsets_hide (m : Nat) (hm : 1 &&& m = 1) : ∀ a0 a1, (State.showOffsets a0 a1).hide m = a0.hide m := by
  intro a0 a1
  refine hide_mono ?_ hm
  unfold State.showOffsets
  repeat' (first | (simp [-List.foldl_cons, -List.foldl_nil]; done) | (simp (disch := (first | (intros; simp [-List.foldl_cons, -List.foldl_nil]; done) | (intros; split <;> (simp [-List.foldl_cons, -List.foldl_nil]; done)) | (intros; (repeat' split) <;> (simp [-List.foldl_cons, -List.foldl_nil]; done)) | (intros; dsimp only; (repeat' split) <;> (simp [-List.foldl_cons, -List.foldl_nil]; done)) | fail)) [-List.foldl_cons, -List.foldl_nil]; done) | split)

@[simp] theorem State.syncInterval_hide (m : Nat) (hm : 3 &&& m = 3) : ∀ a0, (State.syncInterval a0).hide m = a0.hide m := by
  intro a0
  refine hide_mono ?_ hm
  unfold State.syncInterval
  simp [-List.foldl_cons, -List.foldl_nil]

@[simp] theorem State.phaseLost_hide (m : Nat) (hm : 49631 &&& m = 49631) : ∀ a0, (State.phaseLost a0).hide m = a0.hide m := by
  intro a0
  refine hide_mono ?_ hm
  unfold State.phaseLost
  simp [-List.foldl_cons, -List.foldl_nil]

theorem execPhaseLost_hide : ∀ a0 t, execPhaseLost a0 = .next t → t.hide 49631 = a0.hide 49631 := by
  intro a0 t h
  simp only [execPhaseLost, done, Host.Outcome.next.injEq] at h
  subst h
  simp [-List.foldl_cons, -List.foldl_nil]

@[simp] theorem State.slewNow_hide (m : Nat) (hm : 2 &&& m = 2) : ∀ a0, (State.slewNow a0).hide m = a0.hide m := by
  intro a0
  refine hide_mono ?_ hm
  unfold State.slewNow
  simp [-List.foldl_cons, -List.foldl_nil]

theorem execSlewCorrection_hide : ∀ a0 t, execSlewCorrection a0 = .next t → t.hide 2 = a0.hide 2 := by
  intro a0 t h
  simp only [execSlewCorrection, done, Host.Outcome.next.injEq] at h
  subst h
  simp [-List.foldl_cons, -List.foldl_nil]

@[simp] theorem State.roundedFor_hide (m : Nat) (hm : 2048 &&& m = 2048) : ∀ a0 a1 a2, (State.roundedFor a0 a1 a2).hide m = a0.hide m := by
  intro a0 a1 a2
  refine hide_mono ?_ hm
  unfold State.roundedFor
  simp [-List.foldl_cons, -List.foldl_nil]

@[simp] theorem State.seedAll_hide (m : Nat) (hm : 2176 &&& m = 2176) : ∀ a0, (State.seedAll a0).hide m = a0.hide m := by
  intro a0
  refine hide_mono ?_ hm
  rfl

@[simp] theorem State.upset_hide (m : Nat) (hm : 2048 &&& m = 2048) : ∀ a0 a1, (State.upset a0 a1).hide m = a0.hide m := by
  intro a0 a1
  refine hide_mono ?_ hm
  unfold State.upset
  simp [-List.foldl_cons, -List.foldl_nil]

@[simp] theorem State.reseed_hide (m : Nat) (hm : 2176 &&& m = 2176) : ∀ a0 a1, (State.reseed a0 a1).hide m = a0.hide m := by
  intro a0 a1
  refine hide_mono ?_ hm
  unfold State.reseed
  simp [-List.foldl_cons, -List.foldl_nil]

@[simp] theorem State.uncorrectable_hide (m : Nat) (hm : 49629 &&& m = 49629) : ∀ a0 a1 a2 a3, (State.uncorrectable a0 a1 a2 a3).hide m = a0.hide m := by
  intro a0 a1 a2 a3
  refine hide_mono ?_ hm
  unfold State.uncorrectable
  simp [-List.foldl_cons, -List.foldl_nil]

@[simp] theorem State.readBlock_hide (m : Nat) (hm : 49629 &&& m = 49629) : ∀ a0 a1 a2, (State.readBlock a0 a1 a2).s.hide m = a0.hide m := by
  intro a0 a1 a2
  refine hide_mono ?_ hm
  unfold State.readBlock
  (repeat' split) <;> simp [-List.foldl_cons, -List.foldl_nil]

@[simp] theorem State.disarm_hide (m : Nat) (hm : 1 &&& m = 1) : ∀ a0 a1 a2, (State.disarm a0 a1 a2).hide m = a0.hide m := by
  intro a0 a1 a2
  refine hide_mono ?_ hm
  unfold State.disarm
  simp [-List.foldl_cons, -List.foldl_nil]

@[simp] theorem State.setCache_hide (m : Nat) (hm : 16384 &&& m = 16384) : ∀ a0 a1 a2, (State.setCache a0 a1 a2).hide m = a0.hide m := by
  intro a0 a1 a2
  refine hide_mono ?_ hm
  unfold State.setCache
  simp [-List.foldl_cons, -List.foldl_nil]

@[simp] theorem State.fillLine_hide (m : Nat) (hm : 49629 &&& m = 49629) : ∀ a0 a1 a2 a3, (State.fillLine a0 a1 a2 a3).s.hide m = a0.hide m := by
  intro a0 a1 a2 a3
  refine hide_mono ?_ hm
  unfold State.fillLine
  try dsimp only
  (repeat' split) <;> simp [-List.foldl_cons, -List.foldl_nil]

@[simp] theorem State.prefetch_hide (m : Nat) (hm : 49629 &&& m = 49629) : ∀ a0 a1 a2 a3, (State.prefetch a0 a1 a2 a3).hide m = a0.hide m := by
  intro a0 a1 a2 a3
  refine hide_mono ?_ hm
  unfold State.prefetch
  simp [-List.foldl_cons, -List.foldl_nil]

@[simp] theorem State.stream_hide (m : Nat) (hm : 49629 &&& m = 49629) : ∀ a0 a1 a2 a3, (State.stream a0 a1 a2 a3).hide m = a0.hide m := by
  intro a0 a1 a2 a3
  refine hide_mono ?_ hm
  unfold State.stream
  try dsimp only
  (repeat' split) <;> simp [-List.foldl_cons, -List.foldl_nil]

@[simp] theorem State.readLine_hide (m : Nat) (hm : 49629 &&& m = 49629) : ∀ a0 a1 a2, (State.readLine a0 a1 a2).s.hide m = a0.hide m := by
  intro a0 a1 a2
  refine hide_mono ?_ hm
  have e1 : ∀ (x : State) q v, (x.setCache q v).hide 49629 = x.hide 49629 := fun x q v => State.setCache_hide _ rfl ..
  have e2 : ∀ (x : State) r, (x.bump r).hide 49629 = x.hide 49629 := fun x r => State.bump_hide _ rfl ..
  have e3 : ∀ (x : State) a b c, (x.pail a b c).hide 49629 = x.hide 49629 := fun x a b c => State.pail_hide _ rfl ..
  have e4 : ∀ (x : State) r l b, (x.fillLine r l b).s.hide 49629 = x.hide 49629 := fun x r l b => State.fillLine_hide _ rfl ..
  have e5 : ∀ (x : State) q l b, (x.stream q l b).hide 49629 = x.hide 49629 := fun x q l b => State.stream_hide _ rfl ..
  have e6 : ∀ (x : State), x.draw.2.hide 49629 = x.hide 49629 := fun x => State.draw_hide _ rfl ..
  unfold State.readLine
  extract_lets q c miss refetch was s1 s2 s3 s4 m' fixed wrong d
  have hr : ∀ x : State, (refetch x).s.hide 49629 = x.hide 49629 := fun x => (e4 ..).trans ((e3 ..).trans ((e2 ..).trans (e1 ..)))
  have hf : ∀ x : State, (fixed x).hide 49629 = x.hide 49629 := fun x => e1 ..
  have hm : ∀ x : State, (miss x).s.hide 49629 = x.hide 49629 := fun x => (e5 ..).trans (e4 ..)
  have h1 : s1.hide 49629 = a0.hide 49629 := e2 ..
  clear_value s1 refetch fixed miss
  have h2 : s2.hide 49629 = a0.hide 49629 := by simp only [s2]; split <;> simp only [e2, h1]
  clear_value s2
  have h3 : s3.hide 49629 = a0.hide 49629 := (e1 ..).trans h2
  clear_value s3
  have h4 : s4.hide 49629 = a0.hide 49629 := by simp only [s4]; split <;> simp only [e5, h3]
  clear_value s4
  split
  · split
    · exact h4
    · exact (e3 ..).trans ((e2 ..).trans ((hf _).trans h4))
    · exact (hr _).trans h4
    · split
      · exact (hr _).trans ((e6 _).trans h4)
      · exact (e3 ..).trans ((e2 ..).trans ((hf _).trans ((e6 _).trans h4)))
      · exact (e6 _).trans h4
  · exact (hm _).trans (e2 ..)

@[simp] theorem finishRead_hide (m : Nat) (hm : 0 &&& m = 0) : ∀ a0 a1 a2 a3, (finishRead a0 a1 a2 a3).s.hide m = a0.s.hide m := by
  intro a0 a1 a2 a3
  refine hide_mono ?_ hm
  unfold finishRead
  (repeat' split) <;> simp [-List.foldl_cons, -List.foldl_nil]

@[simp] theorem State.readHbm_hide (m : Nat) (hm : 49629 &&& m = 49629) : ∀ a0 a1 a2 a3, (State.readHbm a0 a1 a2 a3).s.hide m = a0.hide m := by
  intro a0 a1 a2 a3
  refine hide_mono ?_ hm
  unfold State.readHbm
  simp [-List.foldl_cons, -List.foldl_nil]

@[simp] theorem State.readStack_hide (m : Nat) (hm : 49629 &&& m = 49629) : ∀ a0 a1 a2 a3, (State.readStack a0 a1 a2 a3).s.hide m = a0.hide m := by
  intro a0 a1 a2 a3
  refine hide_mono ?_ hm
  unfold State.readStack
  simp [-List.foldl_cons, -List.foldl_nil]

@[simp] theorem State.readUnit_hide (m : Nat) (hm : 49629 &&& m = 49629) : ∀ a0 a1 a2, (State.readUnit a0 a1 a2).s.hide m = a0.hide m := by
  intro a0 a1 a2
  refine hide_mono ?_ hm
  unfold State.readUnit
  try dsimp only
  (repeat' split) <;> simp [-List.foldl_cons, -List.foldl_nil]

@[simp] theorem State.mergeUnit_hide (m : Nat) (hm : 49629 &&& m = 49629) : ∀ a0 a1 a2, (State.mergeUnit a0 a1 a2).1.hide m = a0.hide m := by
  intro a0 a1 a2
  refine hide_mono ?_ hm
  unfold State.mergeUnit
  dsimp only
  split <;> simp [-List.foldl_cons, -List.foldl_nil]

@[simp] theorem clearErrs_hide (m : Nat) (hm : 16384 &&& m = 16384) : ∀ a0 a1 a2, (clearErrs a0 a1 a2).hide m = a0.hide m := by
  intro a0 a1 a2
  refine hide_mono ?_ hm
  unfold clearErrs
  simp [-List.foldl_cons, -List.foldl_nil]

@[simp] theorem updateLines_hide (m : Nat) (hm : 16384 &&& m = 16384) : ∀ a0 a1 a2, (updateLines a0 a1 a2).hide m = a0.hide m := by
  intro a0 a1 a2
  refine hide_mono ?_ hm
  unfold updateLines
  simp [-List.foldl_cons, -List.foldl_nil]

@[simp] theorem State.storeHbm_hide (m : Nat) (hm : 49152 &&& m = 49152) : ∀ a0 a1 a2, (State.storeHbm a0 a1 a2).hide m = a0.hide m := by
  intro a0 a1 a2
  refine hide_mono ?_ hm
  unfold State.storeHbm
  simp [-List.foldl_cons, -List.foldl_nil]

@[simp] theorem State.writeHbm_hide (m : Nat) (hm : 49629 &&& m = 49629) : ∀ a0 a1 a2 a3, (State.writeHbm a0 a1 a2 a3).s.hide m = a0.hide m := by
  intro a0 a1 a2 a3
  refine hide_mono ?_ hm
  unfold State.writeHbm
  extract_lets n u0 last u1 p0 a p1 b
  have ha : a.1.hide 49629 = a0.hide 49629 := by
    simp only [a]; split
    · exact State.mergeUnit_hide _ rfl ..
    · rfl
  clear_value a
  have hb : b.1.hide 49629 = a0.hide 49629 := by
    simp only [b]; split
    · exact (State.mergeUnit_hide _ rfl ..).trans ha
    · exact ha
  clear_value b
  split
  · rfl
  · split
    · exact ha
    · split
      · exact (State.storeHbm_hide _ rfl ..).trans hb
      · exact (State.storeHbm_hide _ rfl ..).trans hb

@[simp] theorem State.writeStack_hide (m : Nat) (hm : 49629 &&& m = 49629) : ∀ a0 a1 a2 a3, (State.writeStack a0 a1 a2 a3).s.hide m = a0.hide m := by
  intro a0 a1 a2 a3
  refine hide_mono ?_ hm
  unfold State.writeStack
  simp [-List.foldl_cons, -List.foldl_nil]

@[simp] theorem State.flipHbm_hide (m : Nat) (hm : 16385 &&& m = 16385) : ∀ a0 a1 a2, (State.flipHbm a0 a1 a2).hide m = a0.hide m := by
  intro a0 a1 a2
  refine hide_mono ?_ hm
  unfold State.flipHbm
  try dsimp only
  (repeat' split) <;> simp [-List.foldl_cons, -List.foldl_nil]

@[simp] theorem State.flipLp_hide (m : Nat) (hm : 129 &&& m = 129) : ∀ a0 a1, (State.flipLp a0 a1).1.hide m = a0.hide m := by
  intro a0 a1
  refine hide_mono ?_ hm
  unfold State.flipLp
  try dsimp only
  (repeat' split) <;> simp [-List.foldl_cons, -List.foldl_nil]

@[simp] theorem State.lpFail_hide (m : Nat) (hm : 49629 &&& m = 49629) : ∀ a0 a1 a2, (State.lpFail a0 a1 a2).hide m = a0.hide m := by
  intro a0 a1 a2
  refine hide_mono ?_ hm
  unfold State.lpFail
  simp [-List.foldl_cons, -List.foldl_nil]

@[simp] theorem State.readLp_hide (m : Nat) (hm : 49629 &&& m = 49629) : ∀ a0 a1 a2 a3, (State.readLp a0 a1 a2 a3).s.hide m = a0.hide m := by
  intro a0 a1 a2 a3
  refine hide_mono ?_ hm
  unfold State.readLp
  try dsimp only
  (repeat' split) <;> simp [-List.foldl_cons, -List.foldl_nil]

@[simp] theorem State.mergeLp_hide (m : Nat) (hm : 49629 &&& m = 49629) : ∀ a0 a1 a2, (State.mergeLp a0 a1 a2).1.hide m = a0.hide m := by
  intro a0 a1 a2
  refine hide_mono ?_ hm
  unfold State.mergeLp
  simp [-List.foldl_cons, -List.foldl_nil]

@[simp] theorem State.writeLp_hide (m : Nat) (hm : 49629 &&& m = 49629) : ∀ a0 a1 a2 a3, (State.writeLp a0 a1 a2 a3).s.hide m = a0.hide m := by
  intro a0 a1 a2 a3
  refine hide_mono ?_ hm
  unfold State.writeLp
  try dsimp only
  (repeat' split) <;> simp [-List.foldl_cons, -List.foldl_nil]

@[simp] theorem State.readMem_hide (m : Nat) (hm : 49629 &&& m = 49629) : ∀ a0 a1 a2 a3 a4, (State.readMem a0 a1 a2 a3 a4).s.hide m = a0.hide m := by
  intro a0 a1 a2 a3 a4
  refine hide_mono ?_ hm
  unfold State.readMem
  simp [-List.foldl_cons, -List.foldl_nil]

@[simp] theorem State.writeMem_hide (m : Nat) (hm : 49629 &&& m = 49629) : ∀ a0 a1 a2 a3 a4, (State.writeMem a0 a1 a2 a3 a4).s.hide m = a0.hide m := by
  intro a0 a1 a2 a3 a4
  refine hide_mono ?_ hm
  unfold State.writeMem
  simp [-List.foldl_cons, -List.foldl_nil]

@[simp] theorem State.flipScratch_hide (m : Nat) (hm : 49153 &&& m = 49153) : ∀ a0 a1 a2, (State.flipScratch a0 a1 a2).hide m = a0.hide m := by
  intro a0 a1 a2
  refine hide_mono ?_ hm
  unfold State.flipScratch
  (repeat' split) <;> simp [-List.foldl_cons, -List.foldl_nil]

@[simp] theorem State.writeScratch_hide (m : Nat) (hm : 49153 &&& m = 49153) : ∀ a0 a1 a2 a3, (State.writeScratch a0 a1 a2 a3).hide m = a0.hide m := by
  intro a0 a1 a2 a3
  refine hide_mono ?_ hm
  unfold State.writeScratch
  simp [-List.foldl_cons, -List.foldl_nil]

@[simp] theorem State.parityHit_hide (m : Nat) (hm : 1 &&& m = 1) : ∀ a0 a1 a2 a3, (State.parityHit a0 a1 a2 a3).hide m = a0.hide m := by
  intro a0 a1 a2 a3
  refine hide_mono ?_ hm
  unfold State.parityHit
  simp [-List.foldl_cons, -List.foldl_nil]

end Sys2Proof.Machine
end

