-- ==== Sys2Proof/Laws/FrameCore.lean ====
section
/-! SUPPORT. What the operations of cores leave alone, one lemma each (masks: Laws/Frame.lean). -/

namespace Sys2Proof.Machine

@[simp] theorem State.setSeg_hide (m : Nat) (hm : 4 &&& m = 4) : ∀ a0 a1 a2, (State.setSeg a0 a1 a2).hide m = a0.hide m := by
  intro a0 a1 a2
  refine hide_mono ?_ hm
  unfold State.setSeg
  simp [-List.foldl_cons, -List.foldl_nil]

@[simp] theorem State.nocSend_hide (m : Nat) (hm : 1 &&& m = 1) : ∀ a0 a1 a2, (State.nocSend a0 a1 a2).hide m = a0.hide m := by
  intro a0 a1 a2
  refine hide_mono ?_ hm
  unfold State.nocSend
  simp [-List.foldl_cons, -List.foldl_nil]

@[simp] theorem State.nocServe_hide (m : Nat) (hm : 1 &&& m = 1) : ∀ a0 a1 a2 a3 a4, (State.nocServe a0 a1 a2 a3 a4).hide m = a0.hide m := by
  intro a0 a1 a2 a3 a4
  refine hide_mono ?_ hm
  unfold State.nocServe
  (repeat' split) <;> simp [-List.foldl_cons, -List.foldl_nil]

@[simp] theorem State.nocStore_hide (m : Nat) (hm : 1 &&& m = 1) : ∀ a0 a1 a2 a3, (State.nocStore a0 a1 a2 a3).hide m = a0.hide m := by
  intro a0 a1 a2 a3
  refine hide_mono ?_ hm
  unfold State.nocStore
  (repeat' split) <;> simp [-List.foldl_cons, -List.foldl_nil]

@[simp] theorem State.farAccess_hide (m : Nat) (hm : 1 &&& m = 1) : ∀ a0 a1 a2 a3 a4, (State.farAccess a0 a1 a2 a3 a4).hide m = a0.hide m := by
  intro a0 a1 a2 a3 a4
  refine hide_mono ?_ hm
  unfold State.farAccess
  simp [-List.foldl_cons, -List.foldl_nil]

@[simp] theorem State.readRun_hide (m : Nat) (hm : 1 &&& m = 1) : ∀ a0 a1 a2, (State.readRun a0 a1 a2).1.hide m = a1.1.hide m := by
  intro a0 a1 a2
  refine hide_mono ?_ hm
  unfold State.readRun
  split
  · rfl
  · simp [-List.foldl_cons, -List.foldl_nil]

@[simp] theorem State.farReads_hide (m : Nat) (hm : 1 &&& m = 1) : ∀ a0 a1 a2 a3, (State.farReads a0 a1 a2 a3).1.hide m = a0.hide m := by
  intro a0 a1 a2 a3
  refine hide_mono ?_ hm
  unfold State.farReads
  simp [-List.foldl_cons, -List.foldl_nil]

@[simp] theorem State.reloadReq_hide (m : Nat) (hm : 4 &&& m = 4) : ∀ a0 a1 a2 a3 a4 a5, (State.reloadReq a0 a1 a2 a3 a4 a5).hide m = a0.hide m := by
  intro a0 a1 a2 a3 a4 a5
  refine hide_mono ?_ hm
  unfold State.reloadReq
  simp [-List.foldl_cons, -List.foldl_nil]

@[simp] theorem State.askOrigins_hide (m : Nat) (hm : 4 &&& m = 4) : ∀ a0 a1 a2, (State.askOrigins a0 a1 a2).hide m = a0.hide m := by
  intro a0 a1 a2
  refine hide_mono ?_ hm
  unfold State.askOrigins
  simp (disch := (first | (intros; simp [-List.foldl_cons, -List.foldl_nil]; done) | (intros; split <;> (simp [-List.foldl_cons, -List.foldl_nil]; done)) | fail)) [-List.foldl_cons, -List.foldl_nil]

@[simp] theorem State.rerunAt_hide (m : Nat) (hm : 49629 &&& m = 49629) : ∀ a0 a1 a2 a3 a4 a5, (State.rerunAt a0 a1 a2 a3 a4 a5).hide m = a0.hide m := by
  intro a0 a1 a2 a3 a4 a5
  refine hide_mono ?_ hm
  unfold State.rerunAt
  simp [-List.foldl_cons, -List.foldl_nil]

@[simp] theorem State.rerun_hide (m : Nat) (hm : 49629 &&& m = 49629) : ∀ a0 a1 a2 a3 a4 a5, (State.rerun a0 a1 a2 a3 a4 a5).hide m = a0.hide m := by
  intro a0 a1 a2 a3 a4 a5
  refine hide_mono ?_ hm
  unfold State.rerun
  simp [-List.foldl_cons, -List.foldl_nil]

@[simp] theorem State.snagged_hide (m : Nat) (hm : 49629 &&& m = 49629) : ∀ a0 a1 a2 a3, (State.snagged a0 a1 a2 a3).hide m = a0.hide m := by
  intro a0 a1 a2 a3
  refine hide_mono ?_ hm
  unfold State.snagged
  (repeat' split) <;> simp [-List.foldl_cons, -List.foldl_nil]

@[simp] theorem State.noteSlip_hide (m : Nat) (hm : 1 &&& m = 1) : ∀ a0 a1 a2 a3, (State.noteSlip a0 a1 a2 a3).hide m = a0.hide m := by
  intro a0 a1 a2 a3
  refine hide_mono ?_ hm
  unfold State.noteSlip
  simp [-List.foldl_cons, -List.foldl_nil]

@[simp] theorem State.noteSlack_hide (m : Nat) (hm : 1 &&& m = 1) : ∀ a0 a1 a2, (State.noteSlack a0 a1 a2).hide m = a0.hide m := by
  intro a0 a1 a2
  refine hide_mono ?_ hm
  unfold State.noteSlack
  simp [-List.foldl_cons, -List.foldl_nil]

@[simp] theorem State.startAttempt_hide (m : Nat) (hm : 5 &&& m = 5) : ∀ a0 a1 a2, (State.startAttempt a0 a1 a2).hide m = a0.hide m := by
  intro a0 a1 a2
  refine hide_mono ?_ hm
  unfold State.startAttempt
  simp [-List.foldl_cons, -List.foldl_nil]

@[simp] theorem State.readTables_hide (m : Nat) (hm : 1 &&& m = 1) : ∀ a0 a1 a2, (State.readTables a0 a1 a2).1.hide m = a0.hide m := by
  intro a0 a1 a2
  refine hide_mono ?_ hm
  unfold State.readTables
  try dsimp only
  (repeat' split) <;> simp [-List.foldl_cons, -List.foldl_nil]

@[simp] theorem State.restart_hide (m : Nat) (hm : 49629 &&& m = 49629) : ∀ a0 a1 a2, (State.restart a0 a1 a2).hide m = a0.hide m := by
  intro a0 a1 a2
  refine hide_mono ?_ hm
  unfold State.restart
  try dsimp only
  (repeat' split) <;> simp [-List.foldl_cons, -List.foldl_nil]

theorem execRerunRestart_hide : ∀ a0 a1 t, execRerunRestart a0 a1 = .next t → t.hide 49629 = a1.hide 49629 := by
  intro a0 a1 t h
  simp only [execRerunRestart, done, Host.Outcome.next.injEq] at h
  subst h
  (repeat' split) <;> simp [-List.foldl_cons, -List.foldl_nil]

@[simp] theorem State.countDrops_hide (m : Nat) (hm : 1 &&& m = 1) : ∀ a0 a1 a2, (State.countDrops a0 a1 a2).1.hide m = a0.hide m := by
  intro a0 a1 a2
  refine hide_mono ?_ hm
  unfold State.countDrops
  simp [-List.foldl_cons, -List.foldl_nil]

@[simp] theorem State.fillTbuf_hide (m : Nat) (hm : 16385 &&& m = 16385) : ∀ a0 a1 a2, (State.fillTbuf a0 a1 a2).hide m = a0.hide m := by
  intro a0 a1 a2
  refine hide_mono ?_ hm
  unfold State.fillTbuf
  try dsimp only
  (repeat' split) <;> simp [-List.foldl_cons, -List.foldl_nil]

@[simp] theorem State.tbufSnag_hide (m : Nat) (hm : 16384 &&& m = 16384) : ∀ a0 a1, (State.tbufSnag a0 a1).1.hide m = a0.hide m := by
  intro a0 a1
  refine hide_mono ?_ hm
  unfold State.tbufSnag
  simp [-List.foldl_cons, -List.foldl_nil]

@[simp] theorem State.shadowLoad_hide (m : Nat) (hm : 49629 &&& m = 49629) : ∀ a0 a1, (State.shadowLoad a0 a1).hide m = a0.hide m := by
  intro a0 a1
  refine hide_mono ?_ hm
  unfold State.shadowLoad
  split
  · rfl
  · split
    · extract_lets d turned t l f s1 sa s2 side s3 base s4 dr
      split
      · rfl
      · have ht : t.1.hide 49629 = a0.hide 49629 := by simp only [t]; split <;> simp [-List.foldl_cons, -List.foldl_nil]
        clear_value t l
        split
        · exact (State.snagged_hide _ rfl ..).trans ht
        · have h1 : s1.hide 49629 = a0.hide 49629 := (State.farReads_hide _ rfl ..).trans ht
          have h2 : s2.hide 49629 = a0.hide 49629 := by
            simp only [s2]; split
            · split <;> simpa [sa] using h1
            · exact h1
          clear_value s2
          have h3 : s3.hide 49629 = a0.hide 49629 := by simp only [s3]; split <;> simpa using h2
          clear_value s3
          have h4 : s4.hide 49629 = a0.hide 49629 := by simp only [s4]; split <;> simpa using h3
          clear_value s4
          have h5 : dr.1.hide 49629 = a0.hide 49629 := (State.countDrops_hide _ rfl ..).trans h4
          clear_value dr
          split
          · exact (State.raise_hide _ rfl ..).trans h5
          · exact (State.setSeg_hide _ rfl ..).trans h5
    · rfl

theorem execShadowLoadComplete_hide : ∀ a0 a1 t, execShadowLoadComplete a0 a1 = .next t → t.hide 49629 = a1.hide 49629 := by
  intro a0 a1 t h
  simp only [execShadowLoadComplete, done, Host.Outcome.next.injEq] at h
  subst h
  simp [-List.foldl_cons, -List.foldl_nil]

@[simp] theorem State.passSwap_hide (m : Nat) (hm : 5 &&& m = 5) : ∀ a0 a1, (State.passSwap a0 a1).hide m = a0.hide m := by
  intro a0 a1
  refine hide_mono ?_ hm
  unfold State.passSwap
  (repeat' split) <;> simp [-List.foldl_cons, -List.foldl_nil]

theorem execPassSwap_hide : ∀ a0 a1 t, execPassSwap a0 a1 = .next t → t.hide 5 = a1.hide 5 := by
  intro a0 a1 t h
  simp only [execPassSwap, done, Host.Outcome.next.injEq] at h
  subst h
  simp [-List.foldl_cons, -List.foldl_nil]

@[simp] theorem State.openTile_hide (m : Nat) (hm : 1 &&& m = 1) : ∀ a0 a1 a2 a3, (State.openTile a0 a1 a2 a3).1.hide m = a0.hide m := by
  intro a0 a1 a2 a3
  refine hide_mono ?_ hm
  unfold State.openTile
  simp [-List.foldl_cons, -List.foldl_nil]

@[simp] theorem State.countRow_hide (m : Nat) (hm : 1 &&& m = 1) : ∀ a0 a1 a2 a3 a4 a5, (State.countRow a0 a1 a2 a3 a4 a5).hide m = a0.hide m := by
  intro a0 a1 a2 a3 a4 a5
  refine hide_mono ?_ hm
  unfold State.countRow
  simp [-List.foldl_cons, -List.foldl_nil]

@[simp] theorem State.flipVat_hide (m : Nat) (hm : 1 &&& m = 1) : ∀ a0 a1 a2 a3, (State.flipVat a0 a1 a2 a3).1.hide m = a0.hide m := by
  intro a0 a1 a2 a3
  refine hide_mono ?_ hm
  unfold State.flipVat
  try dsimp only
  (repeat' split) <;> simp [-List.foldl_cons, -List.foldl_nil]

@[simp] theorem State.addChunk_hide (m : Nat) (hm : 49629 &&& m = 49629) : ∀ a0 a1 a2 a3 a4 a5, (State.addChunk a0 a1 a2 a3 a4 a5).hide m = a0.hide m := by
  intro a0 a1 a2 a3 a4 a5
  refine hide_mono ?_ hm
  unfold State.addChunk
  try dsimp only
  (repeat' split) <;> simp [-List.foldl_cons, -List.foldl_nil]

@[simp] theorem State.chunkSum_hide (m : Nat) (hm : 49629 &&& m = 49629) : ∀ a0 a1, (State.chunkSum a0 a1).hide m = a0.hide m := by
  intro a0 a1
  refine hide_mono ?_ hm
  unfold State.chunkSum
  split
  · rfl
  · split
    · extract_lets d e m' opens acc strip tb bad snag f s1 o s2 g1 g2 adds t
      split
      · rfl
      · have hs : ∀ x : State, (strip x).hide 49629 = x.hide 49629 := by
          intro x; simp only [strip]; split <;> simp [-List.foldl_cons, -List.foldl_nil]
        have ht : tb.1.hide 49629 = a0.hide 49629 := by
          simp only [tb]; split
          · exact (State.tbufSnag_hide _ rfl ..).trans (hs _)
          · rfl
        clear_value tb snag
        split
        · exact (State.snagged_hide _ rfl ..).trans ht
        · have h1 : s1.hide 49629 = a0.hide 49629 := (State.countRow_hide _ rfl ..).trans ((State.farReads_hide _ rfl ..).trans ht)
          clear_value s1
          have h2 : s2.hide 49629 = a0.hide 49629 := by
            simp only [s2, o]; split
            · exact h1
            · exact (State.openTile_hide _ rfl ..).trans ((State.bubbles_hide _ rfl ..).trans h1)
          clear_value s2 t
          split
          · exact (State.raise_hide _ rfl ..).trans ((State.bump_hide _ rfl ..).trans h2)
          · exact (State.addChunk_hide _ rfl ..).trans h2
    · rfl

theorem execChunkSum_hide : ∀ a0 a1 t, execChunkSum a0 a1 = .next t → t.hide 49629 = a1.hide 49629 := by
  intro a0 a1 t h
  simp only [execChunkSum, done, Host.Outcome.next.injEq] at h
  subst h
  simp [-List.foldl_cons, -List.foldl_nil]

@[simp] theorem State.requestDone_hide (m : Nat) (hm : 4 &&& m = 4) : ∀ a0 a1 a2, (State.requestDone a0 a1 a2).hide m = a0.hide m := by
  intro a0 a1 a2
  refine hide_mono ?_ hm
  unfold State.requestDone
  simp [-List.foldl_cons, -List.foldl_nil]

@[simp] theorem State.signal_hide (m : Nat) (hm : 49629 &&& m = 49629) : ∀ a0 a1 a2, (State.signal a0 a1 a2).hide m = a0.hide m := by
  intro a0 a1 a2
  refine hide_mono ?_ hm
  unfold State.signal
  simp [-List.foldl_cons, -List.foldl_nil]

@[simp] theorem State.issue_hide (m : Nat) (hm : 49629 &&& m = 49629) : ∀ a0 a1 a2 a3 a4 a5 a6 a7 a8 a9 a10, (State.issue a0 a1 a2 a3 a4 a5 a6 a7 a8 a9 a10).hide m = a0.hide m := by
  intro a0 a1 a2 a3 a4 a5 a6 a7 a8 a9 a10
  refine hide_mono ?_ hm
  unfold State.issue
  simp [-List.foldl_cons, -List.foldl_nil]

@[simp] theorem State.issueFetch_hide (m : Nat) (hm : 49629 &&& m = 49629) : ∀ a0 a1 a2 a3, (State.issueFetch a0 a1 a2 a3).hide m = a0.hide m := by
  intro a0 a1 a2 a3
  refine hide_mono ?_ hm
  unfold State.issueFetch
  try dsimp only
  (repeat' split) <;> simp [-List.foldl_cons, -List.foldl_nil]

@[simp] theorem State.issueList_hide (m : Nat) (hm : 49629 &&& m = 49629) : ∀ a0 a1 a2, (State.issueList a0 a1 a2).hide m = a0.hide m := by
  intro a0 a1 a2
  refine hide_mono ?_ hm
  unfold State.issueList
  simp (disch := (first | (intros; simp [-List.foldl_cons, -List.foldl_nil]; done) | (intros; split <;> (simp [-List.foldl_cons, -List.foldl_nil]; done)) | (intros; (repeat' split) <;> (simp [-List.foldl_cons, -List.foldl_nil]; done)) | (intros; dsimp only; (repeat' split) <;> (simp [-List.foldl_cons, -List.foldl_nil]; done)) | fail)) [-List.foldl_cons, -List.foldl_nil]

@[simp] theorem State.modPeer_hide (m : Nat) (hm : 64 &&& m = 64) : ∀ a0 a1 a2 a3 a4, (State.modPeer a0 a1 a2 a3 a4).hide m = a0.hide m := by
  intro a0 a1 a2 a3 a4
  refine hide_mono ?_ hm
  unfold State.modPeer
  simp [-List.foldl_cons, -List.foldl_nil]

@[simp] theorem State.setTx_hide (m : Nat) (hm : 64 &&& m = 64) : ∀ a0 a1, (State.setTx a0 a1).hide m = a0.hide m := by
  intro a0 a1
  refine hide_mono ?_ hm
  unfold State.setTx
  simp [-List.foldl_cons, -List.foldl_nil]

@[simp] theorem State.enqueue_hide (m : Nat) (hm : 64 &&& m = 64) : ∀ a0 a1 a2 a3, (State.enqueue a0 a1 a2 a3).hide m = a0.hide m := by
  intro a0 a1 a2 a3
  refine hide_mono ?_ hm
  unfold State.enqueue
  simp [-List.foldl_cons, -List.foldl_nil]

@[simp] theorem State.sendRun_hide (m : Nat) (hm : 64 &&& m = 64) : ∀ a0 a1 a2 a3, (State.sendRun a0 a1 a2 a3).hide m = a0.hide m := by
  intro a0 a1 a2 a3
  refine hide_mono ?_ hm
  unfold State.sendRun
  simp [-List.foldl_cons, -List.foldl_nil]

@[simp] theorem State.sendBare_hide (m : Nat) (hm : 64 &&& m = 64) : ∀ a0 a1 a2, (State.sendBare a0 a1 a2).hide m = a0.hide m := by
  intro a0 a1 a2
  refine hide_mono ?_ hm
  unfold State.sendBare
  simp [-List.foldl_cons, -List.foldl_nil]

@[simp] theorem State.nextTag_hide (m : Nat) (hm : 64 &&& m = 64) : ∀ a0, (State.nextTag a0).2.hide m = a0.hide m := by
  intro a0
  refine hide_mono ?_ hm
  unfold State.nextTag
  simp [-List.foldl_cons, -List.foldl_nil]

@[simp] theorem State.addRemote_hide (m : Nat) (hm : 64 &&& m = 64) : ∀ a0 a1, (State.addRemote a0 a1).hide m = a0.hide m := by
  intro a0 a1
  refine hide_mono ?_ hm
  unfold State.addRemote
  simp [-List.foldl_cons, -List.foldl_nil]

@[simp] theorem State.dropRemote_hide (m : Nat) (hm : 64 &&& m = 64) : ∀ a0 a1, (State.dropRemote a0 a1).hide m = a0.hide m := by
  intro a0 a1
  refine hide_mono ?_ hm
  unfold State.dropRemote
  simp [-List.foldl_cons, -List.foldl_nil]

@[simp] theorem State.dropRequest_hide (m : Nat) (hm : 68 &&& m = 68) : ∀ a0 a1, (State.dropRequest a0 a1).hide m = a0.hide m := by
  intro a0 a1
  refine hide_mono ?_ hm
  unfold State.dropRequest
  rfl

@[simp] theorem State.requestFault_hide (m : Nat) (hm : 49629 &&& m = 49629) : ∀ a0 a1 a2 a3 a4 a5, (State.requestFault a0 a1 a2 a3 a4 a5).hide m = a0.hide m := by
  intro a0 a1 a2 a3 a4 a5
  refine hide_mono ?_ hm
  unfold State.requestFault
  simp [-List.foldl_cons, -List.foldl_nil]

@[simp] theorem State.failRequest_hide (m : Nat) (hm : 49629 &&& m = 49629) : ∀ a0 a1 a2, (State.failRequest a0 a1 a2).hide m = a0.hide m := by
  intro a0 a1 a2
  refine hide_mono ?_ hm
  unfold State.failRequest
  try dsimp only
  (repeat' split) <;> simp [-List.foldl_cons, -List.foldl_nil]

@[simp] theorem State.putBytes_hide (m : Nat) (hm : 49153 &&& m = 49153) : ∀ a0 a1 a2, (State.putBytes a0 a1 a2).hide m = a0.hide m := by
  intro a0 a1 a2
  refine hide_mono ?_ hm
  unfold State.putBytes
  simp [-List.foldl_cons, -List.foldl_nil]

@[simp] theorem State.clearBlock_hide (m : Nat) (hm : 49152 &&& m = 49152) : ∀ a0 a1, (State.clearBlock a0 a1).hide m = a0.hide m := by
  intro a0 a1
  refine hide_mono ?_ hm
  unfold State.clearBlock
  simp [-List.foldl_cons, -List.foldl_nil]

@[simp] theorem State.wholeBlocks_hide (m : Nat) (hm : 49153 &&& m = 49153) : ∀ a0 a1 a2 a3 a4, (State.wholeBlocks a0 a1 a2 a3 a4).1.hide m = a0.hide m := by
  intro a0 a1 a2 a3 a4
  refine hide_mono ?_ hm
  unfold State.wholeBlocks
  simp [-List.foldl_cons, -List.foldl_nil]

@[simp] theorem State.storeRow_hide (m : Nat) (hm : 49153 &&& m = 49153) : ∀ a0 a1 a2 a3 a4 a5 a6 a7 a8, (State.storeRow a0 a1 a2 a3 a4 a5 a6 a7 a8).1.hide m = a0.hide m := by
  intro a0 a1 a2 a3 a4 a5 a6 a7 a8
  refine hide_mono ?_ hm
  unfold State.storeRow
  simp (disch := (first | (intros; simp [-List.foldl_cons, -List.foldl_nil]; done) | (intros; split <;> (simp [-List.foldl_cons, -List.foldl_nil]; done)) | (intros; (repeat' split) <;> (simp [-List.foldl_cons, -List.foldl_nil]; done)) | (intros; dsimp only; (repeat' split) <;> (simp [-List.foldl_cons, -List.foldl_nil]; done)) | fail)) [-List.foldl_cons, -List.foldl_nil]

@[simp] theorem State.countCompares_hide (m : Nat) (hm : 49629 &&& m = 49629) : ∀ a0 a1 a2 a3, (State.countCompares a0 a1 a2 a3).hide m = a0.hide m := by
  intro a0 a1 a2 a3
  refine hide_mono ?_ hm
  unfold State.countCompares
  try dsimp only
  (repeat' split) <;> simp [-List.foldl_cons, -List.foldl_nil]

@[simp] theorem State.reseedAll_hide (m : Nat) (hm : 2177 &&& m = 2177) : ∀ a0 a1, (State.reseedAll a0 a1).hide m = a0.hide m := by
  intro a0 a1
  refine hide_mono ?_ hm
  unfold State.reseedAll
  simp [-List.foldl_cons, -List.foldl_nil]

@[simp] theorem State.countRounded_hide (m : Nat) (hm : 1 &&& m = 1) : ∀ a0 a1 a2 a3, (State.countRounded a0 a1 a2 a3).hide m = a0.hide m := by
  intro a0 a1 a2 a3
  refine hide_mono ?_ hm
  unfold State.countRounded
  simp [-List.foldl_cons, -List.foldl_nil]

@[simp] theorem State.drewRow_hide (m : Nat) (hm : 2048 &&& m = 2048) : ∀ a0 a1 a2, (State.drewRow a0 a1 a2).hide m = a0.hide m := by
  intro a0 a1 a2
  refine hide_mono ?_ hm
  unfold State.drewRow
  simp [-List.foldl_cons, -List.foldl_nil]

@[simp] theorem State.storeAt_hide (m : Nat) (hm : 49153 &&& m = 49153) : ∀ a0 a1 a2 a3, (State.storeAt a0 a1 a2 a3).1.hide m = a0.hide m := by
  intro a0 a1 a2 a3
  refine hide_mono ?_ hm
  unfold State.storeAt
  dsimp only
  split
  · rfl
  · split
    · rfl
    · split <;> simp [-List.foldl_cons, -List.foldl_nil]

@[simp] theorem State.closeTile_hide (m : Nat) (hm : 49629 &&& m = 49629) : ∀ a0 a1 a2 a3, (State.closeTile a0 a1 a2 a3).hide m = a0.hide m := by
  intro a0 a1 a2 a3
  refine hide_mono ?_ hm
  unfold State.closeTile
  try dsimp only
  (repeat' split) <;> simp [-List.foldl_cons, -List.foldl_nil]

@[simp] theorem State.drainTile_hide (m : Nat) (hm : 51677 &&& m = 51677) : ∀ a0 a1 a2 a3 a4, (State.drainTile a0 a1 a2 a3 a4).hide m = a0.hide m := by
  intro a0 a1 a2 a3 a4
  refine hide_mono ?_ hm
  unfold State.drainTile
  extract_lets d p vr bad ls acc snag vs bg s1 f s2 g1 g2 quiet r s3 s4 base off s5 bs band turned s6 held go sorted tb sorted2 g3 w cs t' s7
  have h1 : s1.hide 51677 = a0.hide 51677 := State.reseedAll_hide _ rfl ..
  clear_value s1 snag bg
  split
  · exact (State.snagged_hide _ rfl ..).trans h1
  · split
    · exact (State.rerunAt_hide _ rfl ..).trans h1
    · have h2 : s2.hide 51677 = a0.hide 51677 := (State.bump_hide _ rfl ..).trans ((State.farReads_hide _ rfl ..).trans h1)
      clear_value s2
      have h3 : s3.hide 51677 = a0.hide 51677 := (State.drewRow_hide _ rfl ..).trans h2
      clear_value s3
      have h4 : s4.hide 51677 = a0.hide 51677 := by
        simp only [s4]; split
        · exact h3
        · exact (State.countRounded_hide _ rfl ..).trans h3
      clear_value s4
      have h5 : s5.hide 51677 = a0.hide 51677 := by simp only [s5]; split <;> simpa using h4
      clear_value s5
      have h6 : s6.hide 51677 = a0.hide 51677 := by simp only [s6]; split <;> simpa using h5
      clear_value s6
      have ht : tb.1.hide 51677 = a0.hide 51677 := by
        simp only [tb]; split
        · exact (State.tbufSnag_hide _ rfl ..).trans ((State.fillTbuf_hide _ rfl ..).trans h6)
        · exact h6
      clear_value tb sorted2
      have hw : w.1.hide 51677 = a0.hide 51677 := by
        simp only [w]; split
        · exact ht
        · split
          · exact ht
          · exact (State.storeRow_hide _ rfl ..).trans ht
      clear_value w
      split
      · exact (State.snagged_hide _ rfl ..).trans hw
      · have h7 : s7.hide 51677 = a0.hide 51677 := (State.countCompares_hide _ rfl ..).trans ((State.setSeg_hide _ rfl ..).trans hw)
        clear_value s7
        split
        · exact h7
        · split
          · exact (State.closeTile_hide _ rfl ..).trans h7
          · exact h7

@[simp] theorem State.rowPass_hide (m : Nat) (hm : 51677 &&& m = 51677) : ∀ a0 a1 a2 a3 a4 a5, (State.rowPass a0 a1 a2 a3 a4 a5).hide m = a0.hide m := by
  intro a0 a1 a2 a3 a4 a5
  refine hide_mono ?_ hm
  unfold State.rowPass
  extract_lets d e m' ls acc snag vs bg s1 f s2 opens g1 g2 quiet lse r s3 s4 base s5 s6 bs g3 rows t0 base2 w ends t g4 s7 s8
  have h1 : s1.hide 51677 = a0.hide 51677 := State.reseedAll_hide _ rfl ..
  clear_value s1 snag bg
  split
  · exact (State.snagged_hide _ rfl ..).trans h1
  · split
    · exact (State.rerunAt_hide _ rfl ..).trans h1
    · have h2 : s2.hide 51677 = a0.hide 51677 := (State.farReads_hide _ rfl ..).trans h1
      clear_value s2
      have h3 : s3.hide 51677 = a0.hide 51677 := by
        simp only [s3]; split
        · exact h2
        · exact (State.drewRow_hide _ rfl ..).trans h2
      clear_value s3
      have h4 : s4.hide 51677 = a0.hide 51677 := by
        simp only [s4]; split
        · exact h3
        · exact (State.countRounded_hide _ rfl ..).trans h3
      clear_value s4
      have h5 : s5.hide 51677 = a0.hide 51677 := by simp only [s5]; split <;> simpa using h4
      clear_value s5
      have h6 : s6.hide 51677 = a0.hide 51677 := by simp only [s6]; split <;> simpa using h5
      clear_value s6
      have hw : w.1.hide 51677 = a0.hide 51677 := by
        simp only [w]; split
        · exact h6
        · exact (State.storeRow_hide _ rfl ..).trans h6
      clear_value w
      split
      · exact (State.snagged_hide _ rfl ..).trans hw
      · have h7 : s7.hide 51677 = a0.hide 51677 := by simp only [s7]; split <;> simpa using hw
        clear_value s7
        have h8 : s8.hide 51677 = a0.hide 51677 := (State.setSeg_hide _ rfl ..).trans h7
        clear_value s8
        split
        · exact (State.closeTile_hide _ rfl ..).trans h8
        · exact h8

@[simp] theorem State.drainRow_hide (m : Nat) (hm : 51677 &&& m = 51677) : ∀ a0 a1 a2, (State.drainRow a0 a1 a2).hide m = a0.hide m := by
  intro a0 a1 a2
  refine hide_mono ?_ hm
  unfold State.drainRow
  try dsimp only
  (repeat' split) <;> simp [-List.foldl_cons, -List.foldl_nil]

theorem execDrainRow_hide : ∀ a0 a1 t, execDrainRow a0 a1 = .next t → t.hide 51677 = a1.hide 51677 := by
  intro a0 a1 t h
  simp only [execDrainRow, done, Host.Outcome.next.injEq] at h
  subst h
  simp [-List.foldl_cons, -List.foldl_nil]

@[simp] theorem State.startMonitor_hide (m : Nat) (hm : 4 &&& m = 4) : ∀ a0, (State.startMonitor a0).hide m = a0.hide m := by
  intro a0
  refine hide_mono ?_ hm
  unfold State.startMonitor
  simp [-List.foldl_cons, -List.foldl_nil]

@[simp] theorem State.setHerd_hide (m : Nat) (hm : 4 &&& m = 4) : ∀ a0 a1 a2, (State.setHerd a0 a1 a2).hide m = a0.hide m := by
  intro a0 a1 a2
  refine hide_mono ?_ hm
  unfold State.setHerd
  simp [-List.foldl_cons, -List.foldl_nil]

@[simp] theorem State.occupy_hide (m : Nat) (hm : 4 &&& m = 4) : ∀ a0 a1 a2, (State.occupy a0 a1 a2).hide m = a0.hide m := by
  intro a0 a1 a2
  refine hide_mono ?_ hm
  unfold State.occupy
  simp [-List.foldl_cons, -List.foldl_nil]

@[simp] theorem rowPassCount_hide (m : Nat) (hm : 1 &&& m = 1) : ∀ a0 a1 a2, (rowPassCount a0 a1 a2).hide m = a0.hide m := by
  intro a0 a1 a2
  refine hide_mono ?_ hm
  unfold rowPassCount
  simp [-List.foldl_cons, -List.foldl_nil]

@[simp] theorem State.begin_hide (m : Nat) (hm : 49629 &&& m = 49629) : ∀ a0 a1 a2, (State.begin a0 a1 a2).hide m = a0.hide m := by
  intro a0 a1 a2
  refine hide_mono ?_ hm
  unfold State.begin
  try dsimp only
  (repeat' split) <;> simp [-List.foldl_cons, -List.foldl_nil]

@[simp] theorem State.countCause_hide (m : Nat) (hm : 1 &&& m = 1) : ∀ a0 a1 a2, (State.countCause a0 a1 a2).hide m = a0.hide m := by
  intro a0 a1 a2
  refine hide_mono ?_ hm
  unfold State.countCause
  (repeat' split) <;> simp [-List.foldl_cons, -List.foldl_nil]

@[simp] theorem State.stallStart_hide (m : Nat) (hm : 5 &&& m = 5) : ∀ a0 a1 a2, (State.stallStart a0 a1 a2).hide m = a0.hide m := by
  intro a0 a1 a2
  refine hide_mono ?_ hm
  unfold State.stallStart
  simp [-List.foldl_cons, -List.foldl_nil]

@[simp] theorem State.releaseBoundary_hide (m : Nat) (hm : 49629 &&& m = 49629) : ∀ a0 a1 a2 a3 a4, (State.releaseBoundary a0 a1 a2 a3 a4).hide m = a0.hide m := by
  intro a0 a1 a2 a3 a4
  refine hide_mono ?_ hm
  unfold State.releaseBoundary
  simp [-List.foldl_cons, -List.foldl_nil]

@[simp] theorem State.releaseEntry_hide (m : Nat) (hm : 49629 &&& m = 49629) : ∀ a0 a1 a2 a3, (State.releaseEntry a0 a1 a2 a3).hide m = a0.hide m := by
  intro a0 a1 a2 a3
  refine hide_mono ?_ hm
  unfold State.releaseEntry
  simp [-List.foldl_cons, -List.foldl_nil]

@[simp] theorem State.refetchEntry_hide (m : Nat) (hm : 5 &&& m = 5) : ∀ a0 a1 a2, (State.refetchEntry a0 a1 a2).hide m = a0.hide m := by
  intro a0 a1 a2
  refine hide_mono ?_ hm
  unfold State.refetchEntry
  simp [-List.foldl_cons, -List.foldl_nil]

@[simp] theorem State.entryUnread_hide (m : Nat) (hm : 49629 &&& m = 49629) : ∀ a0 a1 a2 a3 a4, (State.entryUnread a0 a1 a2 a3 a4).hide m = a0.hide m := by
  intro a0 a1 a2 a3 a4
  refine hide_mono ?_ hm
  unfold State.entryUnread
  (repeat' split) <;> simp [-List.foldl_cons, -List.foldl_nil]

@[simp] theorem State.entryFetched_hide (m : Nat) (hm : 1 &&& m = 1) : ∀ a0 a1 a2, (State.entryFetched a0 a1 a2).hide m = a0.hide m := by
  intro a0 a1 a2
  refine hide_mono ?_ hm
  unfold State.entryFetched
  simp [-List.foldl_cons, -List.foldl_nil]

@[simp] theorem State.release_hide (m : Nat) (hm : 49629 &&& m = 49629) : ∀ a0 a1 a2, (State.release a0 a1 a2).hide m = a0.hide m := by
  intro a0 a1 a2
  refine hide_mono ?_ hm
  unfold State.release
  (repeat' split) <;> simp [-List.foldl_cons, -List.foldl_nil]

theorem execSegmentRelease_hide : ∀ a0 a1 t, execSegmentRelease a0 a1 = .next t → t.hide 49629 = a1.hide 49629 := by
  intro a0 a1 t h
  simp only [execSegmentRelease, done, Host.Outcome.next.injEq] at h
  subst h
  simp [-List.foldl_cons, -List.foldl_nil]

@[simp] theorem State.writePair_hide (m : Nat) (hm : 49153 &&& m = 49153) : ∀ a0 a1 a2 a3 a4, (State.writePair a0 a1 a2 a3 a4).1.hide m = a0.hide m := by
  intro a0 a1 a2 a3 a4
  refine hide_mono ?_ hm
  unfold State.writePair
  simp [-List.foldl_cons, -List.foldl_nil]

@[simp] theorem State.writeStats_hide (m : Nat) (hm : 49153 &&& m = 49153) : ∀ a0 a1 a2, (State.writeStats a0 a1 a2).1.hide m = a0.hide m := by
  intro a0 a1 a2
  refine hide_mono ?_ hm
  unfold State.writeStats
  refine foldl_fst_hide _ _ _ _ (fun t x => ?_)
  by_cases h : t.2.2.isSome = true
  · rw [if_pos h]
  · rw [if_neg h]
    have hw := State.writePair_hide 49153 rfl t.1 a1 a2 x.1 (statWords a2.desc.modes.rowStat a2.desc.addrs.statEps.toNat x.2)
    revert hw
    generalize State.writePair t.1 a1 a2 x.1 (statWords a2.desc.modes.rowStat a2.desc.addrs.statEps.toNat x.2) = w
    intro hw
    obtain ⟨w1, w2⟩ := w
    cases w2 <;> exact hw

@[simp] theorem State.milkEnd_hide (m : Nat) (hm : 49629 &&& m = 49629) : ∀ a0 a1 a2, (State.milkEnd a0 a1 a2).hide m = a0.hide m := by
  intro a0 a1 a2
  refine hide_mono ?_ hm
  unfold State.milkEnd
  cases a2.milk with
  | none => rfl
  | some want =>
    dsimp only
    generalize crc64More a2.signature.toNat a2.sigTail = q
    split
    · refine (State.setCore_hide _ rfl ..).trans ?_
      cases ((a0.bump Reg.SAFETY_MILK_RUNS).core a1).milkLast with
      | none => exact State.bump_hide _ rfl ..
      | some t => exact (State.setReg_hide _ rfl ..).trans (State.bump_hide _ rfl ..)
    · exact (State.raise_hide _ rfl ..).trans (State.bump_hide _ rfl ..)

@[simp] theorem State.pailHits_hide (m : Nat) (hm : 129 &&& m = 129) : ∀ a0 a1 a2, (State.pailHits a0 a1 a2).hide m = a0.hide m := by
  intro a0 a1 a2
  refine hide_mono ?_ hm
  unfold State.pailHits
  simp [-List.foldl_cons, -List.foldl_nil]

@[simp] theorem State.pairDone_hide (m : Nat) (hm : 16 &&& m = 16) : ∀ a0 a1, (State.pairDone a0 a1).hide m = a0.hide m := by
  intro a0 a1
  refine hide_mono ?_ hm
  unfold State.pairDone
  (repeat' split) <;> simp [-List.foldl_cons, -List.foldl_nil]

@[simp] theorem State.leaveCore_hide (m : Nat) (hm : 20 &&& m = 20) : ∀ a0 a1 a2, (State.leaveCore a0 a1 a2).hide m = a0.hide m := by
  intro a0 a1 a2
  refine hide_mono ?_ hm
  unfold State.leaveCore
  simp [-List.foldl_cons, -List.foldl_nil]

@[simp] theorem State.segmentEnd_hide (m : Nat) (hm : 49629 &&& m = 49629) : ∀ a0 a1, (State.segmentEnd a0 a1).hide m = a0.hide m := by
  intro a0 a1
  refine hide_mono ?_ hm
  unfold State.segmentEnd
  try dsimp only
  (repeat' split) <;> simp [-List.foldl_cons, -List.foldl_nil]

theorem execSegmentEnd_hide : ∀ a0 a1 t, execSegmentEnd a0 a1 = .next t → t.hide 49629 = a1.hide 49629 := by
  intro a0 a1 t h
  simp only [execSegmentEnd, done, Host.Outcome.next.injEq] at h
  subst h
  simp [-List.foldl_cons, -List.foldl_nil]

theorem execStallCauseStart_hide : ∀ a0 a1 a2 t, execStallCauseStart a0 a1 a2 = .next t → t.hide 5 = a2.hide 5 := by
  intro a0 a1 a2 t h
  simp only [execStallCauseStart, done, Host.Outcome.next.injEq] at h
  subst h
  simp [-List.foldl_cons, -List.foldl_nil]

@[simp] theorem State.refetched_hide (m : Nat) (hm : 133 &&& m = 133) : ∀ a0 a1, (State.refetched a0 a1).hide m = a0.hide m := by
  intro a0 a1
  refine hide_mono ?_ hm
  unfold State.refetched
  simp [-List.foldl_cons, -List.foldl_nil]

@[simp] theorem State.stallClear_hide (m : Nat) (hm : 133 &&& m = 133) : ∀ a0 a1 a2, (State.stallClear a0 a1 a2).hide m = a0.hide m := by
  intro a0 a1 a2
  refine hide_mono ?_ hm
  unfold State.stallClear
  try dsimp only
  (repeat' split) <;> simp [-List.foldl_cons, -List.foldl_nil]

theorem execStallCauseClear_hide : ∀ a0 a1 a2 t, execStallCauseClear a0 a1 a2 = .next t → t.hide 133 = a2.hide 133 := by
  intro a0 a1 a2 t h
  simp only [execStallCauseClear, done, Host.Outcome.next.injEq] at h
  subst h
  simp [-List.foldl_cons, -List.foldl_nil]

@[simp] theorem State.freeze_hide (m : Nat) (hm : 4 &&& m = 4) : ∀ a0 a1, (State.freeze a0 a1).hide m = a0.hide m := by
  intro a0 a1
  refine hide_mono ?_ hm
  unfold State.freeze
  simp [-List.foldl_cons, -List.foldl_nil]

theorem execHerdFreeze_hide : ∀ a0 a1 t, execHerdFreeze a0 a1 = .next t → t.hide 4 = a1.hide 4 := by
  intro a0 a1 t h
  simp only [execHerdFreeze, done, Host.Outcome.next.injEq] at h
  subst h
  simp [-List.foldl_cons, -List.foldl_nil]

@[simp] theorem State.resume_hide (m : Nat) (hm : 4 &&& m = 4) : ∀ a0 a1, (State.resume a0 a1).hide m = a0.hide m := by
  intro a0 a1
  refine hide_mono ?_ hm
  unfold State.resume
  simp [-List.foldl_cons, -List.foldl_nil]

theorem execHerdResume_hide : ∀ a0 a1 t, execHerdResume a0 a1 = .next t → t.hide 4 = a1.hide 4 := by
  intro a0 a1 t h
  simp only [execHerdResume, done, Host.Outcome.next.injEq] at h
  subst h
  simp [-List.foldl_cons, -List.foldl_nil]

@[simp] theorem State.late_hide (m : Nat) (hm : 49629 &&& m = 49629) : ∀ a0 a1, (State.late a0 a1).hide m = a0.hide m := by
  intro a0 a1
  refine hide_mono ?_ hm
  unfold State.late
  (repeat' split) <;> simp [-List.foldl_cons, -List.foldl_nil]

theorem execLate_hide : ∀ a0 a1 t, execLate a0 a1 = .next t → t.hide 49629 = a1.hide 49629 := by
  intro a0 a1 t h
  simp only [execLate, done, Host.Outcome.next.injEq] at h
  subst h
  simp [-List.foldl_cons, -List.foldl_nil]

theorem execElasticPromotion_hide : ∀ a0 a1 t, execElasticPromotion a0 a1 = .next t → t.hide 1 = a1.hide 1 := by
  intro a0 a1 t h
  simp only [execElasticPromotion, done, Host.Outcome.next.injEq] at h
  subst h
  simp [-List.foldl_cons, -List.foldl_nil]

@[simp] theorem State.selftestPassed_hide (m : Nat) (hm : 261 &&& m = 261) : ∀ a0, (State.selftestPassed a0).hide m = a0.hide m := by
  intro a0
  refine hide_mono ?_ hm
  unfold State.selftestPassed
  split
  · exact (State.bump_hide _ rfl ..).trans rfl
  · rfl

theorem execSafetySelftest_hide : ∀ a0 a1 t, execSafetySelftest a0 a1 = .next t → t.hide 49629 = a1.hide 49629 := by
  intro a0 a1 t h
  simp only [execSafetySelftest, done, Host.Outcome.next.injEq] at h
  subst h
  split
  · exact (State.raise_hide _ rfl ..).trans rfl
  · rfl

@[simp] theorem State.firstMilk_hide (m : Nat) (hm : 49629 &&& m = 49629) : ∀ a0 a1, (State.firstMilk a0 a1).hide m = a0.hide m := by
  intro a0 a1
  refine hide_mono ?_ hm
  unfold State.firstMilk
  try dsimp only
  (repeat' split) <;> simp [-List.foldl_cons, -List.foldl_nil]

theorem execInitialMilkRun_hide : ∀ a0 a1 t, execInitialMilkRun a0 a1 = .next t → t.hide 49629 = a1.hide 49629 := by
  intro a0 a1 t h
  simp only [execInitialMilkRun, done, Host.Outcome.next.injEq] at h
  subst h
  simp [-List.foldl_cons, -List.foldl_nil]

end Sys2Proof.Machine
end

