-- ==== Sys2Proof/Laws/FrameBase.lean ====
section
/-! SUPPORT. What the operations of base dies leave alone, one lemma each (masks: Laws/Frame.lean). -/

namespace Sys2Proof.Machine

@[simp] theorem State.readRuns_hide (m : Nat) (hm : 49629 &&& m = 49629) : ∀ a0 a1 a2, (State.readRuns a0 a1 a2).s.hide m = a0.hide m := by
  intro a0 a1 a2
  refine hide_mono ?_ hm
  unfold State.readRuns
  simp [-List.foldl_cons, -List.foldl_nil]

@[simp] theorem State.writeRuns_hide (m : Nat) (hm : 49629 &&& m = 49629) : ∀ a0 a1 a2, (State.writeRuns a0 a1 a2).hide m = a0.hide m := by
  intro a0 a1 a2
  refine hide_mono ?_ hm
  unfold State.writeRuns
  simp [-List.foldl_cons, -List.foldl_nil]

@[simp] theorem State.requestReady_hide (m : Nat) (hm : 4 &&& m = 4) : ∀ a0 a1, (State.requestReady a0 a1).hide m = a0.hide m := by
  intro a0 a1
  refine hide_mono ?_ hm
  unfold State.requestReady
  simp [-List.foldl_cons, -List.foldl_nil]

@[simp] theorem State.cmdEnd_hide (m : Nat) (hm : 5 &&& m = 5) : ∀ a0 a1 a2 a3 a4 a5, (State.cmdEnd a0 a1 a2 a3 a4 a5).hide m = a0.hide m := by
  intro a0 a1 a2 a3 a4 a5
  refine hide_mono ?_ hm
  unfold State.cmdEnd
  (repeat' split) <;> simp [-List.foldl_cons, -List.foldl_nil]

@[simp] theorem State.cmdFault_hide (m : Nat) (hm : 49629 &&& m = 49629) : ∀ a0 a1 a2 a3 a4 a5 a6, (State.cmdFault a0 a1 a2 a3 a4 a5 a6).hide m = a0.hide m := by
  intro a0 a1 a2 a3 a4 a5 a6
  refine hide_mono ?_ hm
  unfold State.cmdFault
  (repeat' split) <;> simp [-List.foldl_cons, -List.foldl_nil]

@[simp] theorem State.cmdFail_hide (m : Nat) (hm : 49629 &&& m = 49629) : ∀ a0 a1 a2 a3 a4 a5 a6, (State.cmdFail a0 a1 a2 a3 a4 a5 a6).hide m = a0.hide m := by
  intro a0 a1 a2 a3 a4 a5 a6
  refine hide_mono ?_ hm
  unfold State.cmdFail
  simp [-List.foldl_cons, -List.foldl_nil]

@[simp] theorem State.setEpoch_hide (m : Nat) (hm : 49281 &&& m = 49281) : ∀ a0 a1 a2 a3, (State.setEpoch a0 a1 a2 a3).hide m = a0.hide m := by
  intro a0 a1 a2 a3
  refine hide_mono ?_ hm
  unfold State.setEpoch
  simp [-List.foldl_cons, -List.foldl_nil]

@[simp] theorem State.setState_hide (m : Nat) (hm : 49281 &&& m = 49281) : ∀ a0 a1 a2 a3, (State.setState a0 a1 a2 a3).hide m = a0.hide m := by
  intro a0 a1 a2 a3
  refine hide_mono ?_ hm
  unfold State.setState
  simp [-List.foldl_cons, -List.foldl_nil]

@[simp] theorem State.setBatch_hide (m : Nat) (hm : 49281 &&& m = 49281) : ∀ a0 a1 a2 a3, (State.setBatch a0 a1 a2 a3).hide m = a0.hide m := by
  intro a0 a1 a2 a3
  refine hide_mono ?_ hm
  unfold State.setBatch
  simp [-List.foldl_cons, -List.foldl_nil]

@[simp] theorem State.inconsistent_hide (m : Nat) (hm : 49281 &&& m = 49281) : ∀ a0 a1 a2, (State.inconsistent a0 a1 a2).hide m = a0.hide m := by
  intro a0 a1 a2
  refine hide_mono ?_ hm
  unfold State.inconsistent
  simp [-List.foldl_cons, -List.foldl_nil]

@[simp] theorem State.openJournal_hide (m : Nat) (hm : 49629 &&& m = 49629) : ∀ a0 a1 a2 a3, (State.openJournal a0 a1 a2 a3).1.hide m = a0.hide m := by
  intro a0 a1 a2 a3
  refine hide_mono ?_ hm
  unfold State.openJournal
  (repeat' split) <;> simp [-List.foldl_cons, -List.foldl_nil]

@[simp] theorem State.saveUndo_hide (m : Nat) (hm : 49629 &&& m = 49629) : ∀ a0 a1 a2 a3 a4, (State.saveUndo a0 a1 a2 a3 a4).s.hide m = a0.hide m := by
  intro a0 a1 a2 a3 a4
  refine hide_mono ?_ hm
  unfold State.saveUndo
  try dsimp only
  (repeat' split) <;> simp [-List.foldl_cons, -List.foldl_nil]

@[simp] theorem State.restoreBatch_hide (m : Nat) (hm : 49629 &&& m = 49629) : ∀ a0 a1 a2 a3 a4, (State.restoreBatch a0 a1 a2 a3 a4).1.hide m = a0.hide m := by
  intro a0 a1 a2 a3 a4
  refine hide_mono ?_ hm
  unfold State.restoreBatch
  (repeat' split) <;> simp [-List.foldl_cons, -List.foldl_nil]

@[simp] theorem State.endBatch_hide (m : Nat) (hm : 49629 &&& m = 49629) : ∀ a0 a1 a2, (State.endBatch a0 a1 a2).hide m = a0.hide m := by
  intro a0 a1 a2
  refine hide_mono ?_ hm
  unfold State.endBatch
  (repeat' split) <;> simp [-List.foldl_cons, -List.foldl_nil]

@[simp] theorem State.paySep_hide (m : Nat) (hm : 49629 &&& m = 49629) : ∀ a0 a1, (State.paySep a0 a1).hide m = a0.hide m := by
  intro a0 a1
  refine hide_mono ?_ hm
  unfold State.paySep
  (repeat' split) <;> simp [-List.foldl_cons, -List.foldl_nil]

@[simp] theorem State.payOwed_hide (m : Nat) (hm : 49629 &&& m = 49629) : ∀ a0, (State.payOwed a0).hide m = a0.hide m := by
  intro a0
  refine hide_mono ?_ hm
  unfold State.payOwed
  simp [-List.foldl_cons, -List.foldl_nil]

@[simp] theorem State.sendImage_hide (m : Nat) (hm : 64 &&& m = 64) : ∀ a0 a1 a2 a3 a4 a5 a6 a7, (State.sendImage a0 a1 a2 a3 a4 a5 a6 a7).hide m = a0.hide m := by
  intro a0 a1 a2 a3 a4 a5 a6 a7
  refine hide_mono ?_ hm
  unfold State.sendImage
  simp [-List.foldl_cons, -List.foldl_nil]

@[simp] theorem State.completed_hide (m : Nat) (hm : 5 &&& m = 5) : ∀ a0 a1 a2, (State.completed a0 a1 a2).hide m = a0.hide m := by
  intro a0 a1 a2
  refine hide_mono ?_ hm
  unfold State.completed
  simp [-List.foldl_cons, -List.foldl_nil]

@[simp] theorem State.needsNone_hide (m : Nat) (hm : 4 &&& m = 4) : ∀ a0 a1 a2, (State.needsNone a0 a1 a2).hide m = a0.hide m := by
  intro a0 a1 a2
  refine hide_mono ?_ hm
  unfold State.needsNone
  simp [-List.foldl_cons, -List.foldl_nil]

@[simp] theorem State.endSep_hide (m : Nat) (hm : 49629 &&& m = 49629) : ∀ a0 a1, (State.endSep a0 a1).hide m = a0.hide m := by
  intro a0 a1
  refine hide_mono ?_ hm
  unfold State.endSep
  (repeat' split) <;> simp [-List.foldl_cons, -List.foldl_nil]

@[simp] theorem State.forget_hide (m : Nat) (hm : 16 &&& m = 16) : ∀ a0 a1 a2, (State.forget a0 a1 a2).hide m = a0.hide m := by
  intro a0 a1 a2
  refine hide_mono ?_ hm
  unfold State.forget
  simp [-List.foldl_cons, -List.foldl_nil]

@[simp] theorem State.mirrorCommits_hide (m : Nat) (hm : 49297 &&& m = 49297) : ∀ a0 a1, (State.mirrorCommits a0 a1).hide m = a0.hide m := by
  intro a0 a1
  refine hide_mono ?_ hm
  unfold State.mirrorCommits
  simp [-List.foldl_cons, -List.foldl_nil]

@[simp] theorem State.mirrorMarks_hide (m : Nat) (hm : 49281 &&& m = 49281) : ∀ a0 a1 a2, (State.mirrorMarks a0 a1 a2).hide m = a0.hide m := by
  intro a0 a1 a2
  refine hide_mono ?_ hm
  unfold State.mirrorMarks
  simp [-List.foldl_cons, -List.foldl_nil]

@[simp] theorem State.mirrorEnds_hide (m : Nat) (hm : 49661 &&& m = 49661) : ∀ a0 a1 a2, (State.mirrorEnds a0 a1 a2).hide m = a0.hide m := by
  intro a0 a1 a2
  refine hide_mono ?_ hm
  unfold State.mirrorEnds
  simp [-List.foldl_cons, -List.foldl_nil]

@[simp] theorem State.startMirror_hide (m : Nat) (hm : 49661 &&& m = 49661) : ∀ a0 a1 a2 a3 a4 a5 a6 a7 a8 a9, (State.startMirror a0 a1 a2 a3 a4 a5 a6 a7 a8 a9).1.hide m = a0.hide m := by
  intro a0 a1 a2 a3 a4 a5 a6 a7 a8 a9
  refine hide_mono ?_ hm
  unfold State.startMirror
  try dsimp only
  (repeat' split) <;> simp [-List.foldl_cons, -List.foldl_nil]

theorem execMirrorAck_hide : ∀ a0 a1 a2 a3 t, execMirrorAck a0 a1 a2 a3 = .next t → t.hide 49661 = a3.hide 49661 := by
  intro a0 a1 a2 a3 t h
  simp only [execMirrorAck, done, Host.Outcome.next.injEq] at h
  subst h
  (repeat' split) <;> simp [-List.foldl_cons, -List.foldl_nil]

theorem execMirrorWaitExpiry_hide : ∀ a0 a1 a2 t, execMirrorWaitExpiry a0 a1 a2 = .next t → t.hide 49661 = a2.hide 49661 := by
  intro a0 a1 a2 t h
  simp only [execMirrorWaitExpiry, done, Host.Outcome.next.injEq] at h
  subst h
  (repeat' split) <;> simp [-List.foldl_cons, -List.foldl_nil]

@[simp] theorem State.countBatch_hide (m : Nat) (hm : 1 &&& m = 1) : ∀ a0 a1 a2 a3, (State.countBatch a0 a1 a2 a3).hide m = a0.hide m := by
  intro a0 a1 a2 a3
  refine hide_mono ?_ hm
  unfold State.countBatch
  simp [-List.foldl_cons, -List.foldl_nil]

@[simp] theorem State.dropSep_hide (m : Nat) (hm : 49289 &&& m = 49289) : ∀ a0 a1 a2, (State.dropSep a0 a1 a2).hide m = a0.hide m := by
  intro a0 a1 a2
  refine hide_mono ?_ hm
  unfold State.dropSep
  (repeat' split) <;> simp [-List.foldl_cons, -List.foldl_nil]

@[simp] theorem State.sepUnread_hide (m : Nat) (hm : 49293 &&& m = 49293) : ∀ a0 a1 a2 a3, (State.sepUnread a0 a1 a2 a3).hide m = a0.hide m := by
  intro a0 a1 a2 a3
  refine hide_mono ?_ hm
  unfold State.sepUnread
  (repeat' split) <;> simp [-List.foldl_cons, -List.foldl_nil]

@[simp] theorem State.supersede_hide (m : Nat) (hm : 49661 &&& m = 49661) : ∀ a0 a1 a2, (State.supersede a0 a1 a2).1.hide m = a0.hide m := by
  intro a0 a1 a2
  refine hide_mono ?_ hm
  unfold State.supersede
  (repeat' split) <;> simp [-List.foldl_cons, -List.foldl_nil]

@[simp] theorem State.sepFinish_hide (m : Nat) (hm : 49661 &&& m = 49661) : ∀ a0 a1 a2, (State.sepFinish a0 a1 a2).hide m = a0.hide m := by
  intro a0 a1 a2
  refine hide_mono ?_ hm
  unfold State.sepFinish
  try dsimp only
  (repeat' split) <;> simp [-List.foldl_cons, -List.foldl_nil]

@[simp] theorem State.sepUndoBatch_hide (m : Nat) (hm : 49629 &&& m = 49629) : ∀ a0 a1 a2 a3, (State.sepUndoBatch a0 a1 a2 a3).s.hide m = a0.hide m := by
  intro a0 a1 a2 a3
  refine hide_mono ?_ hm
  unfold State.sepUndoBatch
  simp [-List.foldl_cons, -List.foldl_nil]

@[simp] theorem State.sepCheckFail_hide (m : Nat) (hm : 49629 &&& m = 49629) : ∀ a0 a1 a2 a3, (State.sepCheckFail a0 a1 a2 a3).hide m = a0.hide m := by
  intro a0 a1 a2 a3
  refine hide_mono ?_ hm
  unfold State.sepCheckFail
  try dsimp only
  (repeat' split) <;> simp [-List.foldl_cons, -List.foldl_nil]

@[simp] theorem State.sepBatchDone_hide (m : Nat) (hm : 49661 &&& m = 49661) : ∀ a0 a1 a2 a3 a4, (State.sepBatchDone a0 a1 a2 a3 a4).hide m = a0.hide m := by
  intro a0 a1 a2 a3 a4
  refine hide_mono ?_ hm
  unfold State.sepBatchDone
  simp [-List.foldl_cons, -List.foldl_nil]

@[simp] theorem State.sepBatch_hide (m : Nat) (hm : 49661 &&& m = 49661) : ∀ a0 a1 a2, (State.sepBatch a0 a1 a2).hide m = a0.hide m := by
  intro a0 a1 a2
  refine hide_mono ?_ hm
  unfold State.sepBatch
  split
  · rfl
  · split
    · rfl
    · extract_lets c n cands d b ws s1 u s2
      have hd : d.s.hide 49661 = a0.hide 49661 := State.readRuns_hide _ rfl ..
      clear_value d
      split
      · exact (State.sepUnread_hide _ rfl ..).trans hd
      · have h1 : s1.hide 49661 = a0.hide 49661 := (State.bumpBy_hide _ rfl ..).trans hd
        clear_value s1
        have hu : u.s.hide 49661 = a0.hide 49661 := by
          simp only [u]; split
          · exact (State.sepUndoBatch_hide _ rfl ..).trans h1
          · exact h1
        clear_value u
        split
        · exact (State.sepUnread_hide _ rfl ..).trans hu
        · have h2 : s2.hide 49661 = a0.hide 49661 := (State.writeRuns_hide _ rfl ..).trans hu
          clear_value s2
          split
          · exact (State.sepCheckFail_hide _ rfl ..).trans h2
          · exact (State.sepBatchDone_hide _ rfl ..).trans h2

theorem execSepBatchWrite_hide : ∀ a0 a1 a2 t, execSepBatchWrite a0 a1 a2 = .next t → t.hide 49661 = a2.hide 49661 := by
  intro a0 a1 a2 t h
  simp only [execSepBatchWrite, done, Host.Outcome.next.injEq] at h
  subst h
  simp [-List.foldl_cons, -List.foldl_nil]

@[simp] theorem State.takeSlot_hide (m : Nat) (hm : 9 &&& m = 9) : ∀ a0 a1 a2, (State.takeSlot a0 a1 a2).1.hide m = a0.hide m := by
  intro a0 a1 a2
  refine hide_mono ?_ hm
  unfold State.takeSlot
  simp [-List.foldl_cons, -List.foldl_nil]

@[simp] theorem State.startRewrite_hide (m : Nat) (hm : 9 &&& m = 9) : ∀ a0 a1 a2, (State.startRewrite a0 a1 a2).hide m = a0.hide m := by
  intro a0 a1 a2
  refine hide_mono ?_ hm
  unfold State.startRewrite
  simp [-List.foldl_cons, -List.foldl_nil]

@[simp] theorem State.zeroStack_hide (m : Nat) (hm : 49629 &&& m = 49629) : ∀ a0 a1 a2 a3, (State.zeroStack a0 a1 a2 a3).hide m = a0.hide m := by
  intro a0 a1 a2 a3
  refine hide_mono ?_ hm
  unfold State.zeroStack
  simp [-List.foldl_cons, -List.foldl_nil]

@[simp] theorem State.collectNow_hide (m : Nat) (hm : 49629 &&& m = 49629) : ∀ a0 a1 a2, (State.collectNow a0 a1 a2).hide m = a0.hide m := by
  intro a0 a1 a2
  refine hide_mono ?_ hm
  unfold State.collectNow
  simp [-List.foldl_cons, -List.foldl_nil]

@[simp] theorem State.auditNow_hide (m : Nat) (hm : 49629 &&& m = 49629) : ∀ a0 a1 a2, (State.auditNow a0 a1 a2).hide m = a0.hide m := by
  intro a0 a1 a2
  refine hide_mono ?_ hm
  unfold State.auditNow
  try dsimp only
  (repeat' split) <;> simp [-List.foldl_cons, -List.foldl_nil]

@[simp] theorem State.sepGo_hide (m : Nat) (hm : 49629 &&& m = 49629) : ∀ a0 a1 a2 a3, (State.sepGo a0 a1 a2 a3).hide m = a0.hide m := by
  intro a0 a1 a2 a3
  refine hide_mono ?_ hm
  unfold State.sepGo
  simp [-List.foldl_cons, -List.foldl_nil]

@[simp] theorem State.sepStart_hide (m : Nat) (hm : 49629 &&& m = 49629) : ∀ a0 a1 a2, (State.sepStart a0 a1 a2).hide m = a0.hide m := by
  intro a0 a1 a2
  refine hide_mono ?_ hm
  unfold State.sepStart
  try dsimp only
  (repeat' split) <;> simp [-List.foldl_cons, -List.foldl_nil]

theorem execPrune_hide : ∀ a0 a1 t, execPrune a0 a1 = .next t → t.hide 49629 = a1.hide 49629 := by
  intro a0 a1 t h
  simp only [execPrune, done, Host.Outcome.next.injEq] at h
  subst h
  simp [-List.foldl_cons, -List.foldl_nil]

theorem execRegrow_hide : ∀ a0 a1 t, execRegrow a0 a1 = .next t → t.hide 49629 = a1.hide 49629 := by
  intro a0 a1 t h
  simp only [execRegrow, done, Host.Outcome.next.injEq] at h
  subst h
  simp [-List.foldl_cons, -List.foldl_nil]

theorem execAudit_hide : ∀ a0 a1 t, execAudit a0 a1 = .next t → t.hide 49629 = a1.hide 49629 := by
  intro a0 a1 t h
  simp only [execAudit, done, Host.Outcome.next.injEq] at h
  subst h
  simp [-List.foldl_cons, -List.foldl_nil]

theorem execCollect_hide : ∀ a0 a1 t, execCollect a0 a1 = .next t → t.hide 49629 = a1.hide 49629 := by
  intro a0 a1 t h
  simp only [execCollect, done, Host.Outcome.next.injEq] at h
  subst h
  simp [-List.foldl_cons, -List.foldl_nil]

@[simp] theorem State.arrived_hide (m : Nat) (hm : 4 &&& m = 4) : ∀ a0 a1, (State.arrived a0 a1).hide m = a0.hide m := by
  intro a0 a1
  refine hide_mono ?_ hm
  unfold State.arrived
  simp [-List.foldl_cons, -List.foldl_nil]

@[simp] theorem State.windowWrite_hide (m : Nat) (hm : 49629 &&& m = 49629) : ∀ a0 a1 a2 a3 a4 a5, (State.windowWrite a0 a1 a2 a3 a4 a5).hide m = a0.hide m := by
  intro a0 a1 a2 a3 a4 a5
  refine hide_mono ?_ hm
  unfold State.windowWrite
  (repeat' split) <;> simp [-List.foldl_cons, -List.foldl_nil]

theorem execSepCommandArrive_hide : ∀ a0 a1 a2 a3 a4 t, execSepCommandArrive a0 a1 a2 a3 a4 = .next t → t.hide 49629 = a4.hide 49629 := by
  intro a0 a1 a2 a3 a4 t h
  simp only [execSepCommandArrive, done, Host.Outcome.next.injEq] at h
  subst h
  simp [-List.foldl_cons, -List.foldl_nil]

@[simp] theorem State.intake_hide (m : Nat) (hm : 49629 &&& m = 49629) : ∀ a0 a1 a2 a3, (State.intake a0 a1 a2 a3).hide m = a0.hide m := by
  intro a0 a1 a2 a3
  refine hide_mono ?_ hm
  unfold State.intake
  try dsimp only
  (repeat' split) <;> simp [-List.foldl_cons, -List.foldl_nil]

@[simp] theorem State.intakeRun_hide (m : Nat) (hm : 49629 &&& m = 49629) : ∀ a0 a1 a2 a3, (State.intakeRun a0 a1 a2 a3).hide m = a0.hide m := by
  intro a0 a1 a2 a3
  refine hide_mono ?_ hm
  unfold State.intakeRun
  simp [-List.foldl_cons, -List.foldl_nil]

@[simp] theorem State.intakeHeld_hide (m : Nat) (hm : 49629 &&& m = 49629) : ∀ a0 a1, (State.intakeHeld a0 a1).hide m = a0.hide m := by
  intro a0 a1
  refine hide_mono ?_ hm
  unfold State.intakeHeld
  simp [-List.foldl_cons, -List.foldl_nil]

theorem execIntakeWrite_hide : ∀ a0 a1 a2 a3 t, execIntakeWrite a0 a1 a2 a3 = .next t → t.hide 49629 = a3.hide 49629 := by
  intro a0 a1 a2 a3 t h
  simp only [execIntakeWrite, done, Host.Outcome.next.injEq] at h
  subst h
  simp [-List.foldl_cons, -List.foldl_nil]

theorem execUpdCommandArrive_hide : ∀ a0 a1 a2 a3 a4 t, execUpdCommandArrive a0 a1 a2 a3 a4 = .next t → t.hide 49629 = a4.hide 49629 := by
  intro a0 a1 a2 a3 a4 t h
  simp only [execUpdCommandArrive, done, Host.Outcome.next.injEq] at h
  subst h
  simp [-List.foldl_cons, -List.foldl_nil]

@[simp] theorem State.setRun_hide (m : Nat) (hm : 16 &&& m = 16) : ∀ a0 a1 a2, (State.setRun a0 a1 a2).hide m = a0.hide m := by
  intro a0 a1 a2
  refine hide_mono ?_ hm
  unfold State.setRun
  simp [-List.foldl_cons, -List.foldl_nil]

@[simp] theorem State.abandon_hide (m : Nat) (hm : 21 &&& m = 21) : ∀ a0 a1 a2 a3, (State.abandon a0 a1 a2 a3).hide m = a0.hide m := by
  intro a0 a1 a2 a3
  refine hide_mono ?_ hm
  unfold State.abandon
  (repeat' split) <;> simp [-List.foldl_cons, -List.foldl_nil]

@[simp] theorem State.commitNow_hide (m : Nat) (hm : 49301 &&& m = 49301) : ∀ a0 a1 a2, (State.commitNow a0 a1 a2).hide m = a0.hide m := by
  intro a0 a1 a2
  refine hide_mono ?_ hm
  unfold State.commitNow
  simp [-List.foldl_cons, -List.foldl_nil]

@[simp] theorem State.updFinish_hide (m : Nat) (hm : 49661 &&& m = 49661) : ∀ a0 a1 a2, (State.updFinish a0 a1 a2).hide m = a0.hide m := by
  intro a0 a1 a2
  refine hide_mono ?_ hm
  unfold State.updFinish
  try dsimp only
  (repeat' split) <;> simp [-List.foldl_cons, -List.foldl_nil]

@[simp] theorem State.awaitAck_hide (m : Nat) (hm : 16 &&& m = 16) : ∀ a0 a1 a2, (State.awaitAck a0 a1 a2).hide m = a0.hide m := by
  intro a0 a1 a2
  refine hide_mono ?_ hm
  unfold State.awaitAck
  simp [-List.foldl_cons, -List.foldl_nil]

@[simp] theorem State.cacheAcked_hide (m : Nat) (hm : 49661 &&& m = 49661) : ∀ a0 a1, (State.cacheAcked a0 a1).hide m = a0.hide m := by
  intro a0 a1
  refine hide_mono ?_ hm
  unfold State.cacheAcked
  try dsimp only
  (repeat' split) <;> simp [-List.foldl_cons, -List.foldl_nil]

theorem execInvalidationAck_hide : ∀ a0 a1 t, execInvalidationAck a0 a1 = .next t → t.hide 49661 = a1.hide 49661 := by
  intro a0 a1 t h
  simp only [execInvalidationAck, done, Host.Outcome.next.injEq] at h
  subst h
  simp [-List.foldl_cons, -List.foldl_nil]

@[simp] theorem State.momentsDone_hide (m : Nat) (hm : 49301 &&& m = 49301) : ∀ a0 a1 a2, (State.momentsDone a0 a1 a2).hide m = a0.hide m := by
  intro a0 a1 a2
  refine hide_mono ?_ hm
  unfold State.momentsDone
  simp [-List.foldl_cons, -List.foldl_nil]

@[simp] theorem badRead_hide (m : Nat) (hm : 0 &&& m = 0) : ∀ a0 a1, (badRead a0 a1).s.hide m = a0.s.hide m := by
  intro a0 a1
  refine hide_mono ?_ hm
  unfold badRead
  simp [-List.foldl_cons, -List.foldl_nil]

@[simp] theorem State.momentsBatch_hide (m : Nat) (hm : 49629 &&& m = 49629) : ∀ a0 a1 a2 a3 a4, (State.momentsBatch a0 a1 a2 a3 a4).s.hide m = a0.hide m := by
  intro a0 a1 a2 a3 a4
  refine hide_mono ?_ hm
  unfold State.momentsBatch
  simp [-List.foldl_cons, -List.foldl_nil]

@[simp] theorem State.masterBatch_hide (m : Nat) (hm : 49629 &&& m = 49629) : ∀ a0 a1 a2 a3 a4, (State.masterBatch a0 a1 a2 a3 a4).s.hide m = a0.hide m := by
  intro a0 a1 a2 a3 a4
  refine hide_mono ?_ hm
  unfold State.masterBatch
  simp [-List.foldl_cons, -List.foldl_nil]

@[simp] theorem State.workingBatch_hide (m : Nat) (hm : 49629 &&& m = 49629) : ∀ a0 a1 a2 a3 a4, (State.workingBatch a0 a1 a2 a3 a4).s.hide m = a0.hide m := by
  intro a0 a1 a2 a3 a4
  refine hide_mono ?_ hm
  unfold State.workingBatch
  simp [-List.foldl_cons, -List.foldl_nil]

@[simp] theorem State.batchOf_hide (m : Nat) (hm : 49629 &&& m = 49629) : ∀ a0 a1 a2 a3 a4, (State.batchOf a0 a1 a2 a3 a4).s.hide m = a0.hide m := by
  intro a0 a1 a2 a3 a4
  refine hide_mono ?_ hm
  unfold State.batchOf
  (repeat' split) <;> simp [-List.foldl_cons, -List.foldl_nil]

@[simp] theorem State.batchUnread_hide (m : Nat) (hm : 49629 &&& m = 49629) : ∀ a0 a1 a2 a3 a4, (State.batchUnread a0 a1 a2 a3 a4).hide m = a0.hide m := by
  intro a0 a1 a2 a3 a4
  refine hide_mono ?_ hm
  unfold State.batchUnread
  simp [-List.foldl_cons, -List.foldl_nil]

@[simp] theorem State.undoBatch_hide (m : Nat) (hm : 49629 &&& m = 49629) : ∀ a0 a1 a2 a3, (State.undoBatch a0 a1 a2 a3).1.hide m = a0.hide m := by
  intro a0 a1 a2 a3
  refine hide_mono ?_ hm
  unfold State.undoBatch
  (repeat' split) <;> simp [-List.foldl_cons, -List.foldl_nil]

@[simp] theorem State.rngFault_hide (m : Nat) (hm : 2177 &&& m = 2177) : ∀ a0 a1, (State.rngFault a0 a1).1.hide m = a0.hide m := by
  intro a0 a1
  refine hide_mono ?_ hm
  unfold State.rngFault
  simp [-List.foldl_cons, -List.foldl_nil]

@[simp] theorem State.batchFailed_hide (m : Nat) (hm : 49629 &&& m = 49629) : ∀ a0 a1 a2 a3, (State.batchFailed a0 a1 a2 a3).hide m = a0.hide m := by
  intro a0 a1 a2 a3
  refine hide_mono ?_ hm
  unfold State.batchFailed
  simp [-List.foldl_cons, -List.foldl_nil]

@[simp] theorem State.openBatch_hide (m : Nat) (hm : 49629 &&& m = 49629) : ∀ a0 a1 a2 a3, (State.openBatch a0 a1 a2 a3).hide m = a0.hide m := by
  intro a0 a1 a2 a3
  refine hide_mono ?_ hm
  unfold State.openBatch
  (repeat' split) <;> simp [-List.foldl_cons, -List.foldl_nil]

@[simp] theorem State.closeBatch_hide (m : Nat) (hm : 49301 &&& m = 49301) : ∀ a0 a1 a2 a3, (State.closeBatch a0 a1 a2 a3).hide m = a0.hide m := by
  intro a0 a1 a2 a3
  refine hide_mono ?_ hm
  unfold State.closeBatch
  (repeat' split) <;> simp [-List.foldl_cons, -List.foldl_nil]

theorem batchOf_counts_hide (m) (hm : 1 &&& m = 1) : ∀ s st r s0 s1 x, ((State.batchOf s st r s0 s1).counts x).hide m = x.hide m := by
  intro s st r s0 s1 x
  unfold State.batchOf
  split
  · unfold State.momentsBatch
    extract_lets
    (repeat' split) <;> first | rfl | exact (State.bumpBy_hide _ hm ..).trans ((State.bumpBy_hide _ hm ..).trans (State.bumpBy_hide _ hm ..))
  · unfold State.masterBatch
    extract_lets
    (repeat' split) <;> first | rfl | exact (State.bumpBy_hide _ hm ..).trans ((State.bumpBy_hide _ hm ..).trans (State.bumpBy_hide _ hm ..))
  · unfold State.workingBatch
    extract_lets
    (repeat' split) <;> first | rfl | exact State.bumpBy_hide _ hm ..

@[simp] theorem State.updBatch_hide (m : Nat) (hm : 51677 &&& m = 51677) : ∀ a0 a1 a2 a3, (State.updBatch a0 a1 a2 a3).hide m = a0.hide m := by
  intro a0 a1 a2 a3
  refine hide_mono ?_ hm
  unfold State.updBatch
  extract_lets p s
  have hs : s.hide 51677 = a0.hide 51677 := by
    simp only [s, p]; split
    · rfl
    · exact State.rngFault_hide _ rfl ..
  clear_value s p
  split
  · exact hs
  · rename_i r _
    split
    · exact hs
    · extract_lets n s0 s1 b t s2 s3
      have hb : b.s.hide 51677 = a0.hide 51677 := (State.batchOf_hide _ rfl ..).trans hs
      have hc : ∀ x : State, (b.counts x).hide 51677 = x.hide 51677 := fun x => batchOf_counts_hide _ rfl ..
      have ht : t.hide 51677 = a0.hide 51677 := (State.roundedFor_hide _ rfl ..).trans hb
      clear_value b t
      split
      · exact (State.batchUnread_hide _ rfl ..).trans ht
      · split
        · exact (State.batchFailed_hide _ rfl ..).trans ((State.openBatch_hide _ rfl ..).trans ((State.bump_hide _ rfl ..).trans ht))
        · split
          · exact (State.batchFailed_hide _ rfl ..).trans ((State.openBatch_hide _ rfl ..).trans ht)
          · exact (State.closeBatch_hide _ rfl ..).trans ((hc _).trans ((State.writeRuns_hide _ rfl ..).trans ((State.openBatch_hide _ rfl ..).trans ht)))

theorem execUpdBatch_hide : ∀ a0 a1 a2 a3 t, execUpdBatch a0 a1 a2 a3 = .next t → t.hide 51677 = a3.hide 51677 := by
  intro a0 a1 a2 a3 t h
  simp only [execUpdBatch, done, Host.Outcome.next.injEq] at h
  subst h
  simp [-List.foldl_cons, -List.foldl_nil]

@[simp] theorem State.keep_hide (m : Nat) (hm : 16 &&& m = 16) : ∀ a0 a1 a2, (State.keep a0 a1 a2).hide m = a0.hide m := by
  intro a0 a1 a2
  refine hide_mono ?_ hm
  unfold State.keep
  simp [-List.foldl_cons, -List.foldl_nil]

@[simp] theorem State.updateNow_hide (m : Nat) (hm : 49301 &&& m = 49301) : ∀ a0 a1 a2, (State.updateNow a0 a1 a2).hide m = a0.hide m := by
  intro a0 a1 a2
  refine hide_mono ?_ hm
  unfold State.updateNow
  simp [-List.foldl_cons, -List.foldl_nil]

@[simp] theorem State.applyNow_hide (m : Nat) (hm : 16 &&& m = 16) : ∀ a0 a1 a2, (State.applyNow a0 a1 a2).hide m = a0.hide m := by
  intro a0 a1 a2
  refine hide_mono ?_ hm
  unfold State.applyNow
  simp [-List.foldl_cons, -List.foldl_nil]

@[simp] theorem State.deriveNow_hide (m : Nat) (hm : 16 &&& m = 16) : ∀ a0 a1 a2, (State.deriveNow a0 a1 a2).hide m = a0.hide m := by
  intro a0 a1 a2
  refine hide_mono ?_ hm
  unfold State.deriveNow
  simp [-List.foldl_cons, -List.foldl_nil]

@[simp] theorem State.updGo_hide (m : Nat) (hm : 49629 &&& m = 49629) : ∀ a0 a1 a2 a3 a4, (∀ t c, (a4 t c).hide m = t.hide m) →
    (State.updGo a0 a1 a2 a3 a4).hide m = a0.hide m := by
  intro a0 a1 a2 a3 a4 h
  unfold State.updGo
  extract_lets j
  have hj : j.1.hide m = a0.hide m := State.openJournal_hide m (sub_mask hm (by decide)) ..
  clear_value j
  split
  · exact (State.cmdEnd_hide m (sub_mask hm (by decide)) ..).trans hj
  · split
    · exact (State.cmdFail_hide m (sub_mask hm (by decide)) ..).trans hj
    · exact (h ..).trans hj

@[simp] theorem State.updStart_hide (m : Nat) (hm : 49629 &&& m = 49629) : ∀ a0 a1 a2 a3, (∀ t c, (a3 t c).hide m = t.hide m) →
    (State.updStart a0 a1 a2 a3).hide m = a0.hide m := by
  intro a0 a1 a2 a3 h
  unfold State.updStart
  dsimp only
  split
  · have e : ∀ (x : State) i c w f z, (x.cmdFail clsUpd i c w f z).hide m = x.hide m := fun x i c w f z =>
      State.cmdFail_hide m (sub_mask hm (by decide)) ..
    split
    · rfl
    · split
      · exact (State.cmdEnd_hide m (sub_mask hm (by decide)) ..).trans ((State.event_hide m (sub_mask hm (by decide)) ..).trans (State.setUpd_hide m (sub_mask hm (by decide)) ..))
      · split
        · exact (e ..).trans (State.setUpd_hide m (sub_mask hm (by decide)) ..)
        · split
          · rfl
          · exact (State.updGo_hide m hm _ _ _ _ _ h).trans (State.setUpd_hide m (sub_mask hm (by decide)) ..)
  · rfl

theorem execUpdate_hide : ∀ a0 a1 t, execUpdate a0 a1 = .next t → t.hide 49629 = a1.hide 49629 := by
  intro a0 a1 t h
  simp only [execUpdate, done, Host.Outcome.next.injEq] at h
  subst h
  simp [-List.foldl_cons, -List.foldl_nil]

theorem execApply_hide : ∀ a0 a1 t, execApply a0 a1 = .next t → t.hide 49629 = a1.hide 49629 := by
  intro a0 a1 t h
  simp only [execApply, done, Host.Outcome.next.injEq] at h
  subst h
  simp [-List.foldl_cons, -List.foldl_nil]

theorem execDerive_hide : ∀ a0 a1 t, execDerive a0 a1 = .next t → t.hide 49629 = a1.hide 49629 := by
  intro a0 a1 t h
  simp only [execDerive, done, Host.Outcome.next.injEq] at h
  subst h
  simp [-List.foldl_cons, -List.foldl_nil]

@[simp] theorem State.incomplete_hide (m : Nat) (hm : 49629 &&& m = 49629) : ∀ a0 a1 a2, (State.incomplete a0 a1 a2).hide m = a0.hide m := by
  intro a0 a1 a2
  refine hide_mono ?_ hm
  unfold State.incomplete
  simp [-List.foldl_cons, -List.foldl_nil]

@[simp] theorem State.completeMaster_hide (m : Nat) (hm : 16 &&& m = 16) : ∀ a0 a1 a2 a3, (State.completeMaster a0 a1 a2 a3).hide m = a0.hide m := by
  intro a0 a1 a2 a3
  refine hide_mono ?_ hm
  unfold State.completeMaster
  simp [-List.foldl_cons, -List.foldl_nil]

@[simp] theorem State.completeWorking_hide (m : Nat) (hm : 48 &&& m = 48) : ∀ a0 a1 a2 a3, (State.completeWorking a0 a1 a2 a3).hide m = a0.hide m := by
  intro a0 a1 a2 a3
  refine hide_mono ?_ hm
  unfold State.completeWorking
  try dsimp only
  (repeat' split) <;> simp [-List.foldl_cons, -List.foldl_nil]

@[simp] theorem State.completeRest_hide (m : Nat) (hm : 48 &&& m = 48) : ∀ a0 a1 a2 a3, (State.completeRest a0 a1 a2 a3).hide m = a0.hide m := by
  intro a0 a1 a2 a3
  refine hide_mono ?_ hm
  unfold State.completeRest
  simp [-List.foldl_cons, -List.foldl_nil]

@[simp] theorem State.completePairs_hide (m : Nat) (hm : 49661 &&& m = 49661) : ∀ a0 a1 a2 a3 a4, (State.completePairs a0 a1 a2 a3 a4).hide m = a0.hide m := by
  intro a0 a1 a2 a3 a4
  refine hide_mono ?_ hm
  unfold State.completePairs
  try dsimp only
  (repeat' split) <;> simp [-List.foldl_cons, -List.foldl_nil]

@[simp] theorem State.completeDirection_hide (m : Nat) (hm : 49661 &&& m = 49661) : ∀ a0 a1 a2 a3, (State.completeDirection a0 a1 a2 a3).hide m = a0.hide m := by
  intro a0 a1 a2 a3
  refine hide_mono ?_ hm
  unfold State.completeDirection
  (repeat' split) <;> simp [-List.foldl_cons, -List.foldl_nil]

@[simp] theorem State.completeShard_hide (m : Nat) (hm : 49661 &&& m = 49661) : ∀ a0 a1 a2, (State.completeShard a0 a1 a2).hide m = a0.hide m := by
  intro a0 a1 a2
  refine hide_mono ?_ hm
  unfold State.completeShard
  (repeat' split) <;> simp [-List.foldl_cons, -List.foldl_nil]

@[simp] theorem State.completionPass_hide (m : Nat) (hm : 49661 &&& m = 49661) : ∀ a0 a1, (State.completionPass a0 a1).hide m = a0.hide m := by
  intro a0 a1
  refine hide_mono ?_ hm
  unfold State.completionPass
  (repeat' split) <;> simp [-List.foldl_cons, -List.foldl_nil]

theorem execCompletionPass_hide : ∀ a0 a1 t, execCompletionPass a0 a1 = .next t → t.hide 49661 = a1.hide 49661 := by
  intro a0 a1 t h
  simp only [execCompletionPass, done, Host.Outcome.next.injEq] at h
  subst h
  simp [-List.foldl_cons, -List.foldl_nil]

@[simp] theorem State.formRecord_hide (m : Nat) (hm : 49629 &&& m = 49629) : ∀ a0 a1 a2 a3 a4, (State.formRecord a0 a1 a2 a3 a4).s.hide m = a0.hide m := by
  intro a0 a1 a2 a3 a4
  refine hide_mono ?_ hm
  unfold State.formRecord
  simp [-List.foldl_cons, -List.foldl_nil]

@[simp] theorem State.sendTo_hide (m : Nat) (hm : 64 &&& m = 64) : ∀ a0 a1 a2 a3 a4, (State.sendTo a0 a1 a2 a3 a4).hide m = a0.hide m := by
  intro a0 a1 a2 a3 a4
  refine hide_mono ?_ hm
  unfold State.sendTo
  simp [-List.foldl_cons, -List.foldl_nil]

@[simp] theorem State.readFrom_hide (m : Nat) (hm : 64 &&& m = 64) : ∀ a0 a1 a2 a3 a4, (State.readFrom a0 a1 a2 a3 a4).hide m = a0.hide m := by
  intro a0 a1 a2 a3 a4
  refine hide_mono ?_ hm
  unfold State.readFrom
  simp [-List.foldl_cons, -List.foldl_nil]

@[simp] theorem State.writeRecord_hide (m : Nat) (hm : 49629 &&& m = 49629) : ∀ a0 a1 a2 a3 a4, (State.writeRecord a0 a1 a2 a3 a4).s.hide m = a0.hide m := by
  intro a0 a1 a2 a3 a4
  refine hide_mono ?_ hm
  unfold State.writeRecord
  simp [-List.foldl_cons, -List.foldl_nil]

@[simp] theorem State.exportNow_hide (m : Nat) (hm : 49629 &&& m = 49629) : ∀ a0 a1 a2, (State.exportNow a0 a1 a2).hide m = a0.hide m := by
  intro a0 a1 a2
  refine hide_mono ?_ hm
  unfold State.exportNow
  try dsimp only
  (repeat' split) <;> simp [-List.foldl_cons, -List.foldl_nil]

theorem execExportShard_hide : ∀ a0 a1 t, execExportShard a0 a1 = .next t → t.hide 49629 = a1.hide 49629 := by
  intro a0 a1 t h
  simp only [execExportShard, done, Host.Outcome.next.injEq] at h
  subst h
  simp [-List.foldl_cons, -List.foldl_nil]

@[simp] theorem State.exportSent_hide (m : Nat) (hm : 21 &&& m = 21) : ∀ a0 a1, (State.exportSent a0 a1).hide m = a0.hide m := by
  intro a0 a1
  refine hide_mono ?_ hm
  unfold State.exportSent
  (repeat' split) <;> simp [-List.foldl_cons, -List.foldl_nil]

@[simp] theorem State.importPlanes_hide (m : Nat) (hm : 49629 &&& m = 49629) : ∀ a0 a1 a2 a3, (State.importPlanes a0 a1 a2 a3).hide m = a0.hide m := by
  intro a0 a1 a2 a3
  refine hide_mono ?_ hm
  unfold State.importPlanes
  simp (disch := (first | (intros; simp [-List.foldl_cons, -List.foldl_nil]; done) | (intros; split <;> (simp [-List.foldl_cons, -List.foldl_nil]; done)) | fail)) [-List.foldl_cons, -List.foldl_nil]

@[simp] theorem State.importRecord_hide (m : Nat) (hm : 49629 &&& m = 49629) : ∀ a0 a1 a2 a3, (State.importRecord a0 a1 a2 a3).hide m = a0.hide m := by
  intro a0 a1 a2 a3
  refine hide_mono ?_ hm
  unfold State.importRecord
  simp [-List.foldl_cons, -List.foldl_nil]

@[simp] theorem State.importNow_hide (m : Nat) (hm : 49629 &&& m = 49629) : ∀ a0 a1 a2, (State.importNow a0 a1 a2).hide m = a0.hide m := by
  intro a0 a1 a2
  refine hide_mono ?_ hm
  unfold State.importNow
  extract_lets a h n p
  have hh : h.s.hide 49629 = a0.hide 49629 := State.readMem_hide _ rfl ..
  have hp : p.s.hide 49629 = a0.hide 49629 := (State.readMem_hide _ rfl ..).trans hh
  clear_value h p
  (repeat' split) <;> simp [hh, hp]

theorem execImportShard_hide : ∀ a0 a1 t, execImportShard a0 a1 = .next t → t.hide 49629 = a1.hide 49629 := by
  intro a0 a1 t h
  simp only [execImportShard, done, Host.Outcome.next.injEq] at h
  subst h
  simp [-List.foldl_cons, -List.foldl_nil]

@[simp] theorem State.importGot_hide (m : Nat) (hm : 49629 &&& m = 49629) : ∀ a0 a1 a2 a3 a4, (State.importGot a0 a1 a2 a3 a4).hide m = a0.hide m := by
  intro a0 a1 a2 a3 a4
  refine hide_mono ?_ hm
  unfold State.importGot
  (repeat' split) <;> simp [-List.foldl_cons, -List.foldl_nil]

@[simp] theorem State.shipRecord_hide (m : Nat) (hm : 49629 &&& m = 49629) : ∀ a0 a1 a2 a3 a4, (State.shipRecord a0 a1 a2 a3 a4).hide m = a0.hide m := by
  intro a0 a1 a2 a3 a4
  refine hide_mono ?_ hm
  unfold State.shipRecord
  simp [-List.foldl_cons, -List.foldl_nil]

@[simp] theorem stageShard_hide (m : Nat) (hm : 49629 &&& m = 49629) : ∀ a0 a1, (stageShard a0 a1).1.hide m = a0.1.hide m := by
  intro a0 a1
  refine hide_mono ?_ hm
  unfold stageShard
  extract_lets f s1
  have hf : f.s.hide 49629 = a0.1.hide 49629 := State.formRecord_hide _ rfl ..
  clear_value f
  split
  · exact (State.shipRecord_hide _ rfl ..).trans ((State.writeRecord_hide _ rfl ..).trans hf)
  · exact hf

@[simp] theorem State.setSnap_hide (m : Nat) (hm : 1 &&& m = 1) : ∀ a0 a1 a2 a3, (State.setSnap a0 a1 a2 a3).hide m = a0.hide m := by
  intro a0 a1 a2 a3
  refine hide_mono ?_ hm
  unfold State.setSnap
  simp [-List.foldl_cons, -List.foldl_nil]

@[simp] theorem State.goSnapshot_hide (m : Nat) (hm : 49629 &&& m = 49629) : ∀ a0, (State.goSnapshot a0).hide m = a0.hide m := by
  intro a0
  refine hide_mono ?_ hm
  unfold State.goSnapshot
  split
  · rfl
  · simp [-List.foldl_cons, -List.foldl_nil]

@[simp] theorem State.takeSnapshot_hide (m : Nat) (hm : 49629 &&& m = 49629) : ∀ a0, (State.takeSnapshot a0).hide m = a0.hide m := by
  intro a0
  refine hide_mono ?_ hm
  unfold State.takeSnapshot
  (repeat' split) <;> simp [-List.foldl_cons, -List.foldl_nil]

@[simp] theorem State.snapRequest_hide (m : Nat) (hm : 133 &&& m = 133) : ∀ a0 a1, (State.snapRequest a0 a1).hide m = a0.hide m := by
  intro a0 a1
  refine hide_mono ?_ hm
  unfold State.snapRequest
  simp [-List.foldl_cons, -List.foldl_nil]

theorem execSnapRequest_hide : ∀ a0 a1 t, execSnapRequest a0 a1 = .next t → t.hide 133 = a1.hide 133 := by
  intro a0 a1 t h
  simp only [execSnapRequest, done, Host.Outcome.next.injEq] at h
  subst h
  simp [-List.foldl_cons, -List.foldl_nil]

@[simp] theorem State.shipAck_hide (m : Nat) (hm : 65 &&& m = 65) : ∀ a0 a1 a2, (State.shipAck a0 a1 a2).hide m = a0.hide m := by
  intro a0 a1 a2
  refine hide_mono ?_ hm
  unfold State.shipAck
  (repeat' split) <;> simp [-List.foldl_cons, -List.foldl_nil]

theorem execSnapshotRecordAck_hide : ∀ a0 a1 a2 t, execSnapshotRecordAck a0 a1 a2 = .next t → t.hide 65 = a2.hide 65 := by
  intro a0 a1 a2 t h
  simp only [execSnapshotRecordAck, done, Host.Outcome.next.injEq] at h
  subst h
  simp [-List.foldl_cons, -List.foldl_nil]

end Sys2Proof.Machine
end

