-- ==== Sys2Proof/Laws/FrameFabric.lean ====
section
/-! SUPPORT. What the operations of the memory tiers, reductions, restores and the sending side leave alone, one lemma each (masks: Laws/Frame.lean). -/

namespace Sys2Proof.Machine

@[simp] theorem State.countGroup_hide (m : Nat) (hm : 49629 &&& m = 49629) : ∀ a0 a1 a2 a3, (State.countGroup a0 a1 a2 a3).hide m = a0.hide m := by
  intro a0 a1 a2 a3
  refine hide_mono ?_ hm
  unfold State.countGroup
  (repeat' split) <;> simp [-List.foldl_cons, -List.foldl_nil]

@[simp] theorem State.compareShard_hide (m : Nat) (hm : 49629 &&& m = 49629) : ∀ a0 a1 a2 a3 a4 a5, (State.compareShard a0 a1 a2 a3 a4 a5).1.hide m = a0.hide m := by
  intro a0 a1 a2 a3 a4 a5
  refine hide_mono ?_ hm
  unfold State.compareShard
  simp [-List.foldl_cons, -List.foldl_nil]

@[simp] theorem State.setChurn_hide (m : Nat) (hm : 16384 &&& m = 16384) : ∀ a0 a1 a2, (State.setChurn a0 a1 a2).hide m = a0.hide m := by
  intro a0 a1 a2
  refine hide_mono ?_ hm
  unfold State.setChurn
  simp [-List.foldl_cons, -List.foldl_nil]

@[simp] theorem State.churnPass_hide (m : Nat) (hm : 16385 &&& m = 16385) : ∀ a0 a1, (State.churnPass a0 a1).hide m = a0.hide m := by
  intro a0 a1
  refine hide_mono ?_ hm
  unfold State.churnPass
  simp [-List.foldl_cons, -List.foldl_nil]

@[simp] theorem State.churnPaid_hide (m : Nat) (hm : 16384 &&& m = 16384) : ∀ a0 a1 a2, (State.churnPaid a0 a1 a2).hide m = a0.hide m := by
  intro a0 a1 a2
  refine hide_mono ?_ hm
  unfold State.churnPaid
  simp [-List.foldl_cons, -List.foldl_nil]

@[simp] theorem State.churnOwe_hide (m : Nat) (hm : 16384 &&& m = 16384) : ∀ a0, (State.churnOwe a0).hide m = a0.hide m := by
  intro a0
  refine hide_mono ?_ hm
  unfold State.churnOwe
  simp [-List.foldl_cons, -List.foldl_nil]

@[simp] theorem State.readChunk_hide (m : Nat) (hm : 49629 &&& m = 49629) : ∀ a0 a1 a2, (State.readChunk a0 a1 a2).s.hide m = a0.hide m := by
  intro a0 a1 a2
  refine hide_mono ?_ hm
  unfold State.readChunk
  simp [-List.foldl_cons, -List.foldl_nil]

@[simp] theorem State.churnChunk_hide (m : Nat) (hm : 49629 &&& m = 49629) : ∀ a0 a1, (State.churnChunk a0 a1).hide m = a0.hide m := by
  intro a0 a1
  refine hide_mono ?_ hm
  unfold State.churnChunk
  try dsimp only
  (repeat' split) <;> simp [-List.foldl_cons, -List.foldl_nil]

theorem execChurnChunk_hide : ∀ a0 a1 t, execChurnChunk a0 a1 = .next t → t.hide 49629 = a1.hide 49629 := by
  intro a0 a1 t h
  simp only [execChurnChunk, done, Host.Outcome.next.injEq] at h
  subst h
  simp [-List.foldl_cons, -List.foldl_nil]

@[simp] theorem State.pailLeak_hide (m : Nat) (hm : 3 &&& m = 3) : ∀ a0 a1, (State.pailLeak a0 a1).hide m = a0.hide m := by
  intro a0 a1
  refine hide_mono ?_ hm
  unfold State.pailLeak
  simp [-List.foldl_cons, -List.foldl_nil]

theorem execPailLeak_hide : ∀ a0 a1 t, execPailLeak a0 a1 = .next t → t.hide 3 = a1.hide 3 := by
  intro a0 a1 t h
  simp only [execPailLeak, done, Host.Outcome.next.injEq] at h
  subst h
  simp [-List.foldl_cons, -List.foldl_nil]

@[simp] theorem State.setRedState_hide (m : Nat) (hm : 64 &&& m = 64) : ∀ a0 a1 a2, (State.setRedState a0 a1 a2).hide m = a0.hide m := by
  intro a0 a1 a2
  refine hide_mono ?_ hm
  unfold State.setRedState
  simp [-List.foldl_cons, -List.foldl_nil]

@[simp] theorem State.dropLine_hide (m : Nat) (hm : 64 &&& m = 64) : ∀ a0 a1 a2, (State.dropLine a0 a1 a2).hide m = a0.hide m := by
  intro a0 a1 a2
  refine hide_mono ?_ hm
  unfold State.dropLine
  simp [-List.foldl_cons, -List.foldl_nil]

@[simp] theorem State.setLine_hide (m : Nat) (hm : 64 &&& m = 64) : ∀ a0 a1, (State.setLine a0 a1).hide m = a0.hide m := by
  intro a0 a1
  refine hide_mono ?_ hm
  unfold State.setLine
  simp [-List.foldl_cons, -List.foldl_nil]

@[simp] theorem State.redFinish_hide (m : Nat) (hm : 49629 &&& m = 49629) : ∀ a0 a1 a2, (State.redFinish a0 a1 a2).hide m = a0.hide m := by
  intro a0 a1 a2
  refine hide_mono ?_ hm
  unfold State.redFinish
  simp [-List.foldl_cons, -List.foldl_nil]

@[simp] theorem State.redPut_hide (m : Nat) (hm : 49629 &&& m = 49629) : ∀ a0 a1 a2, (State.redPut a0 a1 a2).s.hide m = a0.hide m := by
  intro a0 a1 a2
  refine hide_mono ?_ hm
  unfold State.redPut
  (repeat' split) <;> simp [-List.foldl_cons, -List.foldl_nil]

@[simp] theorem State.redWrite_hide (m : Nat) (hm : 49629 &&& m = 49629) : ∀ a0 a1 a2, (State.redWrite a0 a1 a2).hide m = a0.hide m := by
  intro a0 a1 a2
  refine hide_mono ?_ hm
  unfold State.redWrite
  try dsimp only
  (repeat' split) <;> simp [-List.foldl_cons, -List.foldl_nil]

@[simp] theorem State.redAdd_hide (m : Nat) (hm : 49629 &&& m = 49629) : ∀ a0 a1 a2 a3 a4, (State.redAdd a0 a1 a2 a3 a4).hide m = a0.hide m := by
  intro a0 a1 a2 a3 a4
  refine hide_mono ?_ hm
  unfold State.redAdd
  simp [-List.foldl_cons, -List.foldl_nil]

@[simp] theorem State.reduceBlock_hide (m : Nat) (hm : 49629 &&& m = 49629) : ∀ a0 a1 a2 a3 a4 a5, (State.reduceBlock a0 a1 a2 a3 a4 a5).s.hide m = a0.hide m := by
  intro a0 a1 a2 a3 a4 a5
  refine hide_mono ?_ hm
  unfold State.reduceBlock
  try dsimp only
  (repeat' split) <;> simp [-List.foldl_cons, -List.foldl_nil]

@[simp] theorem State.redRelease_hide (m : Nat) (hm : 49629 &&& m = 49629) : ∀ a0 a1 a2, (State.redRelease a0 a1 a2).hide m = a0.hide m := by
  intro a0 a1 a2
  refine hide_mono ?_ hm
  unfold State.redRelease
  (repeat' split) <;> simp [-List.foldl_cons, -List.foldl_nil]

@[simp] theorem State.redIntake_hide (m : Nat) (hm : 49629 &&& m = 49629) : ∀ a0, (State.redIntake a0).hide m = a0.hide m := by
  intro a0
  refine hide_mono ?_ hm
  unfold State.redIntake
  simp (disch := (first | (intros; simp [-List.foldl_cons, -List.foldl_nil]; done) | (intros; split <;> (simp [-List.foldl_cons, -List.foldl_nil]; done)) | fail)) [-List.foldl_cons, -List.foldl_nil]

theorem execRedHoldRelease_hide : ∀ a0 a1 a2 t, execRedHoldRelease a0 a1 a2 = .next t → t.hide 49629 = a2.hide 49629 := by
  intro a0 a1 a2 t h
  simp only [execRedHoldRelease, done, Host.Outcome.next.injEq] at h
  subst h
  simp [-List.foldl_cons, -List.foldl_nil]

@[simp] theorem State.redStart_hide (m : Nat) (hm : 64 &&& m = 64) : ∀ a0 a1 a2, (State.redStart a0 a1 a2).hide m = a0.hide m := by
  intro a0 a1 a2
  refine hide_mono ?_ hm
  unfold State.redStart
  (repeat' split) <;> simp [-List.foldl_cons, -List.foldl_nil]

@[simp] theorem State.redBoundary_hide (m : Nat) (hm : 64 &&& m = 64) : ∀ a0 a1 a2, (State.redBoundary a0 a1 a2).hide m = a0.hide m := by
  intro a0 a1 a2
  refine hide_mono ?_ hm
  unfold State.redBoundary
  simp [-List.foldl_cons, -List.foldl_nil]

@[simp] theorem State.setRestore_hide (m : Nat) (hm : 512 &&& m = 512) : ∀ a0 a1, (State.setRestore a0 a1).hide m = a0.hide m := by
  intro a0 a1
  refine hide_mono ?_ hm
  unfold State.setRestore
  simp [-List.foldl_cons, -List.foldl_nil]

@[simp] theorem State.setJob_hide (m : Nat) (hm : 512 &&& m = 512) : ∀ a0 a1, (State.setJob a0 a1).hide m = a0.hide m := by
  intro a0 a1
  refine hide_mono ?_ hm
  unfold State.setJob
  simp [-List.foldl_cons, -List.foldl_nil]

@[simp] theorem State.endJob_hide (m : Nat) (hm : 512 &&& m = 512) : ∀ a0 a1 a2, (State.endJob a0 a1 a2).hide m = a0.hide m := by
  intro a0 a1 a2
  refine hide_mono ?_ hm
  unfold State.endJob
  (repeat' split) <;> simp [-List.foldl_cons, -List.foldl_nil]

@[simp] theorem State.askHeaders_hide (m : Nat) (hm : 576 &&& m = 576) : ∀ a0 a1 a2, (State.askHeaders a0 a1 a2).hide m = a0.hide m := by
  intro a0 a1 a2
  refine hide_mono ?_ hm
  unfold State.askHeaders
  (repeat' split) <;> simp [-List.foldl_cons, -List.foldl_nil]

@[simp] theorem State.nextShard_hide (m) (hm : 49857 &&& m = 49857) : ∀ a0 a1 a2, (State.nextShard a0 a1 a2).hide m = a1.hide m := by
  intro a0; induction a0 with
  | zero => intro a1 a2; exact State.endJob_hide _ (sub_mask hm (by decide)) ..
  | succ n ih =>
    intro a1 a2
    unfold State.nextShard
    extract_lets j
    clear_value j
    split
    · exact State.endJob_hide _ (sub_mask hm (by decide)) ..
    · extract_lets s
      have hs : s.hide m = a1.hide m :=
        (State.bump_hide _ (sub_mask hm (by decide)) ..).trans (State.inconsistent_hide _ (sub_mask hm (by decide)) ..)
      clear_value s
      split
      · exact State.endJob_hide _ (sub_mask hm (by decide)) ..
      · split
        · exact State.askHeaders_hide _ (sub_mask hm (by decide)) ..
        · refine (ih _ _).trans (Eq.trans (hide_mono (m := 512) ?_ (sub_mask hm (by decide))) hs)
          rfl

@[simp] theorem State.restoreOn_hide (m : Nat) (hm : 49857 &&& m = 49857) : ∀ a0 a1, (State.restoreOn a0 a1).hide m = a0.hide m := by
  intro a0 a1
  refine hide_mono ?_ hm
  unfold State.restoreOn
  simp [-List.foldl_cons, -List.foldl_nil]

@[simp] theorem State.restoreLost_hide (m : Nat) (hm : 49857 &&& m = 49857) : ∀ a0 a1 a2, (State.restoreLost a0 a1 a2).hide m = a0.hide m := by
  intro a0 a1 a2
  refine hide_mono ?_ hm
  unfold State.restoreLost
  simp [-List.foldl_cons, -List.foldl_nil]

@[simp] theorem State.askPart_hide (m : Nat) (hm : 576 &&& m = 576) : ∀ a0 a1 a2, (State.askPart a0 a1 a2).hide m = a0.hide m := by
  intro a0 a1 a2
  refine hide_mono ?_ hm
  unfold State.askPart
  (repeat' split) <;> simp [-List.foldl_cons, -List.foldl_nil]

@[simp] theorem State.writePart_hide (m : Nat) (hm : 49629 &&& m = 49629) : ∀ a0 a1 a2 a3 a4, (State.writePart a0 a1 a2 a3 a4).hide m = a0.hide m := by
  intro a0 a1 a2 a3 a4
  refine hide_mono ?_ hm
  unfold State.writePart
  simp [-List.foldl_cons, -List.foldl_nil]

@[simp] theorem State.restorePlanes_hide (m : Nat) (hm : 51677 &&& m = 51677) : ∀ a0 a1 a2 a3 a4, (State.restorePlanes a0 a1 a2 a3 a4).1.hide m = a0.hide m := by
  intro a0 a1 a2 a3 a4
  refine hide_mono ?_ hm
  unfold State.restorePlanes
  simp [-List.foldl_cons, -List.foldl_nil]

@[simp] theorem State.restoreSteps_hide (m : Nat) (hm : 1 &&& m = 1) : ∀ a0 a1, (State.restoreSteps a0 a1).hide m = a0.hide m := by
  intro a0 a1
  refine hide_mono ?_ hm
  unfold State.restoreSteps
  simp [-List.foldl_cons, -List.foldl_nil]

@[simp] theorem State.askImage_hide (m : Nat) (hm : 49857 &&& m = 49857) : ∀ a0 a1 a2, (State.askImage a0 a1 a2).hide m = a0.hide m := by
  intro a0 a1 a2
  refine hide_mono ?_ hm
  unfold State.askImage
  (repeat' split) <;> simp [-List.foldl_cons, -List.foldl_nil]

@[simp] theorem State.imageWhole_hide (m : Nat) (hm : 52189 &&& m = 52189) : ∀ a0 a1 a2 a3, (State.imageWhole a0 a1 a2 a3).hide m = a0.hide m := by
  intro a0 a1 a2 a3
  refine hide_mono ?_ hm
  unfold State.imageWhole
  simp [-List.foldl_cons, -List.foldl_nil]

@[simp] theorem State.imageGot_hide (m : Nat) (hm : 52189 &&& m = 52189) : ∀ a0 a1 a2 a3 a4 a5, (State.imageGot a0 a1 a2 a3 a4 a5).hide m = a0.hide m := by
  intro a0 a1 a2 a3 a4 a5
  refine hide_mono ?_ hm
  unfold State.imageGot
  (repeat' split) <;> simp [-List.foldl_cons, -List.foldl_nil]

@[simp] theorem State.headerGot_hide (m : Nat) (hm : 49857 &&& m = 49857) : ∀ a0 a1 a2 a3 a4, (State.headerGot a0 a1 a2 a3 a4).hide m = a0.hide m := by
  intro a0 a1 a2 a3 a4
  refine hide_mono ?_ hm
  unfold State.headerGot
  (repeat' split) <;> simp [-List.foldl_cons, -List.foldl_nil]

@[simp] theorem State.restoreCut_hide (m : Nat) (hm : 49857 &&& m = 49857) : ∀ a0 a1 a2, (State.restoreCut a0 a1 a2).hide m = a0.hide m := by
  intro a0 a1 a2
  refine hide_mono ?_ hm
  unfold State.restoreCut
  (repeat' split) <;> simp [-List.foldl_cons, -List.foldl_nil]

@[simp] theorem State.restoreAll_hide (m : Nat) (hm : 49857 &&& m = 49857) : ∀ a0 a1 a2, (State.restoreAll a0 a1 a2).hide m = a0.hide m := by
  intro a0 a1 a2
  refine hide_mono ?_ hm
  unfold State.restoreAll
  simp [-List.foldl_cons, -List.foldl_nil]

@[simp] theorem State.restoreStart_hide (m : Nat) (hm : 49857 &&& m = 49857) : ∀ a0 a1, (State.restoreStart a0 a1).hide m = a0.hide m := by
  intro a0 a1
  refine hide_mono ?_ hm
  unfold State.restoreStart
  (repeat' split) <;> simp [-List.foldl_cons, -List.foldl_nil]

theorem execRestoreStart_hide : ∀ a0 a1 t, execRestoreStart a0 a1 = .next t → t.hide 49857 = a1.hide 49857 := by
  intro a0 a1 t h
  simp only [execRestoreStart, done, Host.Outcome.next.injEq] at h
  subst h
  simp [-List.foldl_cons, -List.foldl_nil]

@[simp] theorem State.restoreAbort_hide (m : Nat) (hm : 512 &&& m = 512) : ∀ a0, (State.restoreAbort a0).hide m = a0.hide m := by
  intro a0
  refine hide_mono ?_ hm
  unfold State.restoreAbort
  (repeat' split) <;> simp [-List.foldl_cons, -List.foldl_nil]

theorem execRestoreAbort_hide : ∀ a0 t, execRestoreAbort a0 = .next t → t.hide 512 = a0.hide 512 := by
  intro a0 t h
  simp only [execRestoreAbort, done, Host.Outcome.next.injEq] at h
  subst h
  simp [-List.foldl_cons, -List.foldl_nil]

@[simp] theorem State.losePlane_hide (m : Nat) (hm : 193 &&& m = 193) : ∀ a0 a1 a2, (State.losePlane a0 a1 a2).hide m = a0.hide m := by
  intro a0 a1 a2
  refine hide_mono ?_ hm
  unfold State.losePlane
  simp [-List.foldl_cons, -List.foldl_nil]

@[simp] theorem State.sendNotices_hide (m : Nat) (hm : 64 &&& m = 64) : ∀ a0 a1, (State.sendNotices a0 a1).hide m = a0.hide m := by
  intro a0 a1
  refine hide_mono ?_ hm
  unfold State.sendNotices
  (repeat' split) <;> simp [-List.foldl_cons, -List.foldl_nil]

@[simp] theorem State.planeFails_hide (m : Nat) (hm : 193 &&& m = 193) : ∀ a0 a1, (State.planeFails a0 a1).hide m = a0.hide m := by
  intro a0 a1
  refine hide_mono ?_ hm
  unfold State.planeFails
  simp [-List.foldl_cons, -List.foldl_nil]

@[simp] theorem State.dropFlows_hide (m : Nat) (hm : 64 &&& m = 64) : ∀ a0 a1 a2, (State.dropFlows a0 a1 a2).hide m = a0.hide m := by
  intro a0 a1 a2
  refine hide_mono ?_ hm
  unfold State.dropFlows
  simp [-List.foldl_cons, -List.foldl_nil]

@[simp] theorem State.endUse_hide (m : Nat) (hm : 50141 &&& m = 50141) : ∀ a0 a1 a2, (State.endUse a0 a1 a2).hide m = a0.hide m := by
  intro a0 a1 a2
  refine hide_mono ?_ hm
  unfold State.endUse
  (repeat' split) <;> simp [-List.foldl_cons, -List.foldl_nil]

@[simp] theorem State.endRequest_hide (m : Nat) (hm : 50141 &&& m = 50141) : ∀ a0 a1 a2, (State.endRequest a0 a1 a2).hide m = a1.hide m := by
  intro a0 a1 a2
  refine hide_mono ?_ hm
  unfold State.endRequest
  simp [-List.foldl_cons, -List.foldl_nil]

@[simp] theorem State.endRequests_hide (m : Nat) (hm : 50141 &&& m = 50141) : ∀ a0 a1, (State.endRequests a0 a1).hide m = a0.hide m := by
  intro a0 a1
  refine hide_mono ?_ hm
  unfold State.endRequests
  simp [-List.foldl_cons, -List.foldl_nil]

@[simp] theorem State.unconfirm_hide (m : Nat) (hm : 1024 &&& m = 1024) : ∀ a0 a1 a2, (State.unconfirm a0 a1 a2).hide m = a0.hide m := by
  intro a0 a1 a2
  refine hide_mono ?_ hm
  unfold State.unconfirm
  simp [-List.foldl_cons, -List.foldl_nil]

@[simp] theorem State.cutOff_hide (m : Nat) (hm : 51165 &&& m = 51165) : ∀ a0 a1 a2, (State.cutOff a0 a1 a2).hide m = a0.hide m := by
  intro a0 a1 a2
  refine hide_mono ?_ hm
  unfold State.cutOff
  simp [-List.foldl_cons, -List.foldl_nil]

@[simp] theorem State.cutPlane_hide (m : Nat) (hm : 50141 &&& m = 50141) : ∀ a0 a1 a2 a3, (State.cutPlane a0 a1 a2 a3).hide m = a0.hide m := by
  intro a0 a1 a2 a3
  refine hide_mono ?_ hm
  unfold State.cutPlane
  simp [-List.foldl_cons, -List.foldl_nil]

@[simp] theorem State.unreachable_hide (m : Nat) (hm : 51165 &&& m = 51165) : ∀ a0 a1 a2 a3, (State.unreachable a0 a1 a2 a3).hide m = a0.hide m := by
  intro a0 a1 a2 a3
  refine hide_mono ?_ hm
  unfold State.unreachable
  simp [-List.foldl_cons, -List.foldl_nil]

@[simp] theorem State.resend_hide (m : Nat) (hm : 51165 &&& m = 51165) : ∀ a0 a1 a2 a3, (State.resend a0 a1 a2 a3).hide m = a0.hide m := by
  intro a0 a1 a2 a3
  refine hide_mono ?_ hm
  unfold State.resend
  try dsimp only
  (repeat' split) <;> simp [-List.foldl_cons, -List.foldl_nil]

theorem execRetryTimeout_hide : ∀ a0 a1 a2 t, execRetryTimeout a0 a1 a2 = .next t → t.hide 51165 = a2.hide 51165 := by
  intro a0 a1 a2 t h
  simp only [execRetryTimeout, done, Host.Outcome.next.injEq] at h
  subst h
  (repeat' split) <;> simp [-List.foldl_cons, -List.foldl_nil]

@[simp] theorem State.setCredit_hide (m : Nat) (hm : 64 &&& m = 64) : ∀ a0 a1, (State.setCredit a0 a1).hide m = a0.hide m := by
  intro a0 a1
  refine hide_mono ?_ hm
  unfold State.setCredit
  simp [-List.foldl_cons, -List.foldl_nil]

@[simp] theorem State.setPool_hide (m : Nat) (hm : 64 &&& m = 64) : ∀ a0 a1 a2, (State.setPool a0 a1 a2).hide m = a0.hide m := by
  intro a0 a1 a2
  refine hide_mono ?_ hm
  unfold State.setPool
  simp [-List.foldl_cons, -List.foldl_nil]

@[simp] theorem State.grantOne_hide (m : Nat) (hm : 64 &&& m = 64) : ∀ a0 a1 a2, (State.grantOne a0 a1 a2).hide m = a0.hide m := by
  intro a0 a1 a2
  refine hide_mono ?_ hm
  unfold State.grantOne
  simp [-List.foldl_cons, -List.foldl_nil]

@[simp] theorem State.grantAll_hide (m : Nat) (hm : 65 &&& m = 65) : ∀ a0 a1, (State.grantAll a0 a1).hide m = a0.hide m := by
  intro a0 a1
  refine hide_mono ?_ hm
  unfold State.grantAll
  simp (disch := (first | (intros; simp [-List.foldl_cons, -List.foldl_nil]; done) | fail)) [-List.foldl_cons, -List.foldl_nil]

theorem execCreditReturn_hide : ∀ a0 a1 t, execCreditReturn a0 a1 = .next t → t.hide 65 = a1.hide 65 := by
  intro a0 a1 t h
  simp only [execCreditReturn, done, Host.Outcome.next.injEq] at h
  subst h
  simp [-List.foldl_cons, -List.foldl_nil]

@[simp] theorem State.sendJoin_hide (m : Nat) (hm : 4224 &&& m = 4224) : ∀ a0 a1 a2 a3, (State.sendJoin a0 a1 a2 a3).hide m = a0.hide m := by
  intro a0 a1 a2 a3
  refine hide_mono ?_ hm
  unfold State.sendJoin
  simp [-List.foldl_cons, -List.foldl_nil]

@[simp] theorem State.sendMgmt_hide (m : Nat) (hm : 4224 &&& m = 4224) : ∀ a0 a1 a2 a3 a4, (State.sendMgmt a0 a1 a2 a3 a4).hide m = a0.hide m := by
  intro a0 a1 a2 a3 a4
  refine hide_mono ?_ hm
  unfold State.sendMgmt
  simp [-List.foldl_cons, -List.foldl_nil]

@[simp] theorem State.rekey_hide (m : Nat) (hm : 4288 &&& m = 4288) : ∀ a0 a1 a2 a3, (State.rekey a0 a1 a2 a3).hide m = a0.hide m := by
  intro a0 a1 a2 a3
  refine hide_mono ?_ hm
  unfold State.rekey
  simp [-List.foldl_cons, -List.foldl_nil]

@[simp] theorem State.sendFrame_hide (m : Nat) (hm : 4288 &&& m = 4288) : ∀ a0 a1 a2 a3, (State.sendFrame a0 a1 a2 a3).hide m = a0.hide m := by
  intro a0 a1 a2 a3
  refine hide_mono ?_ hm
  unfold State.sendFrame
  (repeat' split) <;> simp [-List.foldl_cons, -List.foldl_nil]

@[simp] theorem State.rotateTx_hide (m : Nat) (hm : 64 &&& m = 64) : ∀ a0 a1, (State.rotateTx a0 a1).hide m = a0.hide m := by
  intro a0 a1
  refine hide_mono ?_ hm
  unfold State.rotateTx
  simp [-List.foldl_cons, -List.foldl_nil]

@[simp] theorem State.countFrame_hide (m : Nat) (hm : 1 &&& m = 1) : ∀ a0 a1 a2 a3 a4, (State.countFrame a0 a1 a2 a3 a4).hide m = a0.hide m := by
  intro a0 a1 a2 a3 a4
  refine hide_mono ?_ hm
  unfold State.countFrame
  simp [-List.foldl_cons, -List.foldl_nil]

@[simp] theorem State.putFrame_hide (m : Nat) (hm : 4289 &&& m = 4289) : ∀ a0 a1 a2, (State.putFrame a0 a1 a2).hide m = a0.hide m := by
  intro a0 a1 a2
  refine hide_mono ?_ hm
  unfold State.putFrame
  simp [-List.foldl_cons, -List.foldl_nil]

@[simp] theorem State.frameSend_hide (m : Nat) (hm : 4289 &&& m = 4289) : ∀ a0 a1, (State.frameSend a0 a1).hide m = a0.hide m := by
  intro a0 a1
  refine hide_mono ?_ hm
  unfold State.frameSend
  try dsimp only
  (repeat' split) <;> simp [-List.foldl_cons, -List.foldl_nil]

theorem execFrameSend_hide : ∀ a0 a1 t, execFrameSend a0 a1 = .next t → t.hide 4289 = a1.hide 4289 := by
  intro a0 a1 t h
  simp only [execFrameSend, done, Host.Outcome.next.injEq] at h
  subst h
  simp [-List.foldl_cons, -List.foldl_nil]

@[simp] theorem State.portUp_hide (m : Nat) (hm : 193 &&& m = 193) : ∀ a0 a1, (State.portUp a0 a1).hide m = a0.hide m := by
  intro a0 a1
  refine hide_mono ?_ hm
  unfold State.portUp
  simp [-List.foldl_cons, -List.foldl_nil]

@[simp] theorem State.portLoses_hide (m : Nat) (hm : 193 &&& m = 193) : ∀ a0 a1 a2, (State.portLoses a0 a1 a2).hide m = a0.hide m := by
  intro a0 a1 a2
  refine hide_mono ?_ hm
  unfold State.portLoses
  simp [-List.foldl_cons, -List.foldl_nil]

@[simp] theorem State.portDown_hide (m : Nat) (hm : 193 &&& m = 193) : ∀ a0 a1, (State.portDown a0 a1).hide m = a0.hide m := by
  intro a0 a1
  refine hide_mono ?_ hm
  unfold State.portDown
  simp [-List.foldl_cons, -List.foldl_nil]

theorem execPortDown_hide : ∀ a0 a1 t, execPortDown a0 a1 = .next t → t.hide 193 = a1.hide 193 := by
  intro a0 a1 t h
  simp only [execPortDown, done, Host.Outcome.next.injEq] at h
  subst h
  simp [-List.foldl_cons, -List.foldl_nil]

theorem execPortDownHoldExpiry_hide : ∀ a0 a1 t, execPortDownHoldExpiry a0 a1 = .next t → t.hide 193 = a1.hide 193 := by
  intro a0 a1 t h
  simp only [execPortDownHoldExpiry, done, Host.Outcome.next.injEq] at h
  subst h
  (repeat' split) <;> simp [-List.foldl_cons, -List.foldl_nil]

theorem execPauseFrame_hide : ∀ a0 a1 t, execPauseFrame a0 a1 = .next t → t.hide 1 = a1.hide 1 := by
  intro a0 a1 t h
  simp only [execPauseFrame, done, Host.Outcome.next.injEq] at h
  subst h
  simp [-List.foldl_cons, -List.foldl_nil]

theorem execMacsecRekey_hide : ∀ a0 a1 a2 t, execMacsecRekey a0 a1 a2 = .next t → t.hide 4288 = a2.hide 4288 := by
  intro a0 a1 a2 t h
  simp only [execMacsecRekey, done, Host.Outcome.next.injEq] at h
  subst h
  simp [-List.foldl_cons, -List.foldl_nil]

end Sys2Proof.Machine
end

