-- ==== Sys2Proof/Laws/FrameStart.lean ====
section
/-! SUPPORT. What the operations of safety, start-up and firmware leave alone, one lemma each (masks: Laws/Frame.lean). -/

namespace Sys2Proof.Machine

@[simp] theorem State.schedCheck_hide (m : Nat) (hm : 49629 &&& m = 49629) : ∀ a0, (State.schedCheck a0).hide m = a0.hide m := by
  intro a0
  refine hide_mono ?_ hm
  unfold State.schedCheck
  simp [-List.foldl_cons, -List.foldl_nil]

@[simp] theorem State.sendHeartbeat_hide (m : Nat) (hm : 4096 &&& m = 4096) : ∀ a0, (State.sendHeartbeat a0).hide m = a0.hide m := by
  intro a0
  refine hide_mono ?_ hm
  unfold State.sendHeartbeat
  simp [-List.foldl_cons, -List.foldl_nil]

@[simp] theorem State.parlourAck_hide (m : Nat) (hm : 49629 &&& m = 49629) : ∀ a0 a1, (State.parlourAck a0 a1).hide m = a0.hide m := by
  intro a0 a1
  refine hide_mono ?_ hm
  unfold State.parlourAck
  simp [-List.foldl_cons, -List.foldl_nil]

@[simp] theorem State.saturation_hide (m : Nat) (hm : 65 &&& m = 65) : ∀ a0 a1, (State.saturation a0 a1).hide m = a0.hide m := by
  intro a0 a1
  refine hide_mono ?_ hm
  unfold State.saturation
  simp [-List.foldl_cons, -List.foldl_nil]

@[simp] theorem State.slotEdge_hide (m : Nat) (hm : 53725 &&& m = 53725) : ∀ a0 a1, (State.slotEdge a0 a1).hide m = a0.hide m := by
  intro a0 a1
  refine hide_mono ?_ hm
  unfold State.slotEdge
  simp [-List.foldl_cons, -List.foldl_nil]

theorem execSlotEdge_hide : ∀ a0 a1 t, execSlotEdge a0 a1 = .next t → t.hide 53725 = a1.hide 53725 := by
  intro a0 a1 t h
  simp only [execSlotEdge, done, Host.Outcome.next.injEq] at h
  subst h
  simp [-List.foldl_cons, -List.foldl_nil]

@[simp] theorem State.heartbeatMissed_hide (m : Nat) (hm : 49629 &&& m = 49629) : ∀ a0, (State.heartbeatMissed a0).hide m = a0.hide m := by
  intro a0
  refine hide_mono ?_ hm
  unfold State.heartbeatMissed
  simp [-List.foldl_cons, -List.foldl_nil]

theorem execHeartbeatIntervalExpiry_hide : ∀ a0 t, execHeartbeatIntervalExpiry a0 = .next t → t.hide 49629 = a0.hide 49629 := by
  intro a0 t h
  simp only [execHeartbeatIntervalExpiry, done, Host.Outcome.next.injEq] at h
  subst h
  simp [-List.foldl_cons, -List.foldl_nil]

@[simp] theorem State.lockstep_hide (m : Nat) (hm : 49629 &&& m = 49629) : ∀ a0, (State.lockstep a0).hide m = a0.hide m := by
  intro a0
  refine hide_mono ?_ hm
  unfold State.lockstep
  simp [-List.foldl_cons, -List.foldl_nil]

theorem execSafetyLockstepMismatch_hide : ∀ a0 t, execSafetyLockstepMismatch a0 = .next t → t.hide 49629 = a0.hide 49629 := by
  intro a0 t h
  simp only [execSafetyLockstepMismatch, done, Host.Outcome.next.injEq] at h
  subst h
  simp [-List.foldl_cons, -List.foldl_nil]

@[simp] theorem State.parlourRestart_hide (m : Nat) (hm : 769 &&& m = 769) : ∀ a0, (State.parlourRestart a0).hide m = a0.hide m := by
  intro a0
  refine hide_mono ?_ hm
  exact (State.setReg_hide _ rfl ..).trans ((State.setReg_hide _ rfl ..).trans rfl)

theorem execParlourLockstepReset_hide : ∀ a0 t, execParlourLockstepReset a0 = .next t → t.hide 769 = a0.hide 769 := by
  intro a0 t h
  simp only [execParlourLockstepReset, done, Host.Outcome.next.injEq] at h
  subst h
  simp [-List.foldl_cons, -List.foldl_nil]

@[simp] theorem State.stopAcked_hide (m : Nat) (hm : 257 &&& m = 257) : ∀ a0, (State.stopAcked a0).hide m = a0.hide m := by
  intro a0
  refine hide_mono ?_ hm
  unfold State.stopAcked
  simp [-List.foldl_cons, -List.foldl_nil]

theorem execStopAcksComplete_hide : ∀ a0 t, execStopAcksComplete a0 = .next t → t.hide 257 = a0.hide 257 := by
  intro a0 t h
  simp only [execStopAcksComplete, done, Host.Outcome.next.injEq] at h
  subst h
  simp [-List.foldl_cons, -List.foldl_nil]

@[simp] theorem State.safeRelease_hide (m : Nat) (hm : 385 &&& m = 385) : ∀ a0 a1, (State.safeRelease a0 a1).1.hide m = a0.hide m := by
  intro a0 a1
  refine hide_mono ?_ hm
  unfold State.safeRelease
  simp [-List.foldl_cons, -List.foldl_nil]

theorem execSafeRelease_hide : ∀ a0 a1 t, execSafeRelease a0 a1 = .next t → t.hide 385 = a1.hide 385 := by
  intro a0 a1 t h
  simp only [execSafeRelease, done, Host.Outcome.next.injEq] at h
  subst h
  simp [-List.foldl_cons, -List.foldl_nil]

@[simp] theorem State.stopRequest_hide (m : Nat) (hm : 49629 &&& m = 49629) : ∀ a0, (State.stopRequest a0).hide m = a0.hide m := by
  intro a0
  refine hide_mono ?_ hm
  unfold State.stopRequest
  simp [-List.foldl_cons, -List.foldl_nil]

theorem execStopRequest_hide : ∀ a0 t, execStopRequest a0 = .next t → t.hide 49629 = a0.hide 49629 := by
  intro a0 t h
  simp only [execStopRequest, done, Host.Outcome.next.injEq] at h
  subst h
  simp [-List.foldl_cons, -List.foldl_nil]

@[simp] theorem State.modReport_hide (m : Nat) (hm : 256 &&& m = 256) : ∀ a0 a1 a2, (State.modReport a0 a1 a2).hide m = a0.hide m := by
  intro a0 a1 a2
  refine hide_mono ?_ hm
  unfold State.modReport
  simp [-List.foldl_cons, -List.foldl_nil]

@[simp] theorem State.sendReport_hide (m : Nat) (hm : 4481 &&& m = 4481) : ∀ a0 a1, (State.sendReport a0 a1).hide m = a0.hide m := by
  intro a0 a1
  refine hide_mono ?_ hm
  unfold State.sendReport
  simp [-List.foldl_cons, -List.foldl_nil]

@[simp] theorem State.reportSend_hide (m : Nat) (hm : 4481 &&& m = 4481) : ∀ a0, (State.reportSend a0).hide m = a0.hide m := by
  intro a0
  refine hide_mono ?_ hm
  unfold State.reportSend
  (repeat' split) <;> simp [-List.foldl_cons, -List.foldl_nil]

theorem execSafetyReportSend_hide : ∀ a0 t, execSafetyReportSend a0 = .next t → t.hide 4481 = a0.hide 4481 := by
  intro a0 t h
  simp only [execSafetyReportSend, done, Host.Outcome.next.injEq] at h
  subst h
  simp [-List.foldl_cons, -List.foldl_nil]

theorem execReportResendTimer_hide : ∀ a0 t, execReportResendTimer a0 = .next t → t.hide 4481 = a0.hide 4481 := by
  intro a0 t h
  simp only [execReportResendTimer, done, Host.Outcome.next.injEq] at h
  subst h
  simp [-List.foldl_cons, -List.foldl_nil]

@[simp] theorem State.reportReply_hide (m : Nat) (hm : 257 &&& m = 257) : ∀ a0 a1 a2 a3, (State.reportReply a0 a1 a2 a3).hide m = a0.hide m := by
  intro a0 a1 a2 a3
  refine hide_mono ?_ hm
  unfold State.reportReply
  (repeat' split) <;> simp [-List.foldl_cons, -List.foldl_nil]

theorem execSafetyReportReply_hide : ∀ a0 a1 a2 a3 t, execSafetyReportReply a0 a1 a2 a3 = .next t → t.hide 257 = a3.hide 257 := by
  intro a0 a1 a2 a3 t h
  simp only [execSafetyReportReply, done, Host.Outcome.next.injEq] at h
  subst h
  simp [-List.foldl_cons, -List.foldl_nil]

@[simp] theorem State.refuse_hide (m : Nat) (hm : 129 &&& m = 129) : ∀ a0 a1 a2, (State.refuse a0 a1 a2).hide m = a0.hide m := by
  intro a0 a1 a2
  refine hide_mono ?_ hm
  unfold State.refuse
  simp [-List.foldl_cons, -List.foldl_nil]

@[simp] theorem State.putSettings_hide (m : Nat) (hm : 1024 &&& m = 1024) : ∀ a0 a1 a2, (State.putSettings a0 a1 a2).hide m = a0.hide m := by
  intro a0 a1 a2
  refine hide_mono ?_ hm
  unfold State.putSettings
  simp [-List.foldl_cons, -List.foldl_nil]

@[simp] theorem State.newSettings_hide (m : Nat) (hm : 1024 &&& m = 1024) : ∀ a0 a1, (State.newSettings a0 a1).hide m = a0.hide m := by
  intro a0 a1
  refine hide_mono ?_ hm
  unfold State.newSettings
  simp [-List.foldl_cons, -List.foldl_nil]

@[simp] theorem State.changeSettings_hide (m : Nat) (hm : 1153 &&& m = 1153) : ∀ a0 a1 a2 a3, (State.changeSettings a0 a1 a2 a3).1.hide m = a0.hide m := by
  intro a0 a1 a2 a3
  refine hide_mono ?_ hm
  unfold State.changeSettings
  simp [-List.foldl_cons, -List.foldl_nil]

@[simp] theorem State.takeCalibration_hide (m : Nat) (hm : 1025 &&& m = 1025) : ∀ a0, (State.takeCalibration a0).hide m = a0.hide m := by
  intro a0
  refine hide_mono ?_ hm
  unfold State.takeCalibration
  simp [-List.foldl_cons, -List.foldl_nil]

theorem execCalSelectWrite_hide : ∀ a0 a1 t, execCalSelectWrite a0 a1 = .next t → t.hide 1 = a1.hide 1 := by
  intro a0 a1 t h
  simp only [execCalSelectWrite, done, Host.Outcome.next.injEq] at h
  subst h
  simp [-List.foldl_cons, -List.foldl_nil]

@[simp] theorem State.userSet_hide (m : Nat) (hm : 1153 &&& m = 1153) : ∀ a0, (State.userSet a0).1.hide m = a0.hide m := by
  intro a0
  refine hide_mono ?_ hm
  unfold State.userSet
  simp [-List.foldl_cons, -List.foldl_nil]

@[simp] theorem State.userClear_hide (m : Nat) (hm : 1153 &&& m = 1153) : ∀ a0, (State.userClear a0).1.hide m = a0.hide m := by
  intro a0
  refine hide_mono ?_ hm
  unfold State.userClear
  simp [-List.foldl_cons, -List.foldl_nil]

@[simp] theorem State.userClearAll_hide (m : Nat) (hm : 1153 &&& m = 1153) : ∀ a0, (State.userClearAll a0).1.hide m = a0.hide m := by
  intro a0
  refine hide_mono ?_ hm
  unfold State.userClearAll
  simp [-List.foldl_cons, -List.foldl_nil]

theorem execUserSet_hide : ∀ a0 t, execUserSet a0 = .next t → t.hide 1153 = a0.hide 1153 := by
  intro a0 t h
  simp only [execUserSet, done, Host.Outcome.next.injEq] at h
  subst h
  simp [-List.foldl_cons, -List.foldl_nil]

theorem execUserClear_hide : ∀ a0 t, execUserClear a0 = .next t → t.hide 1153 = a0.hide 1153 := by
  intro a0 t h
  simp only [execUserClear, done, Host.Outcome.next.injEq] at h
  subst h
  simp [-List.foldl_cons, -List.foldl_nil]

theorem execUserClearAll_hide : ∀ a0 t, execUserClearAll a0 = .next t → t.hide 1153 = a0.hide 1153 := by
  intro a0 t h
  simp only [execUserClearAll, done, Host.Outcome.next.injEq] at h
  subst h
  simp [-List.foldl_cons, -List.foldl_nil]

@[simp] theorem State.anchorSet_hide (m : Nat) (hm : 1153 &&& m = 1153) : ∀ a0 a1, (State.anchorSet a0 a1).1.hide m = a0.hide m := by
  intro a0 a1
  refine hide_mono ?_ hm
  unfold State.anchorSet
  simp [-List.foldl_cons, -List.foldl_nil]

@[simp] theorem State.anchorClear_hide (m : Nat) (hm : 1153 &&& m = 1153) : ∀ a0 a1, (State.anchorClear a0 a1).1.hide m = a0.hide m := by
  intro a0 a1
  refine hide_mono ?_ hm
  unfold State.anchorClear
  simp [-List.foldl_cons, -List.foldl_nil]

theorem execAnchorSet_hide : ∀ a0 a1 t, execAnchorSet a0 a1 = .next t → t.hide 1153 = a1.hide 1153 := by
  intro a0 a1 t h
  simp only [execAnchorSet, done, Host.Outcome.next.injEq] at h
  subst h
  simp [-List.foldl_cons, -List.foldl_nil]

theorem execAnchorClear_hide : ∀ a0 a1 t, execAnchorClear a0 a1 = .next t → t.hide 1153 = a1.hide 1153 := by
  intro a0 a1 t h
  simp only [execAnchorClear, done, Host.Outcome.next.injEq] at h
  subst h
  simp [-List.foldl_cons, -List.foldl_nil]

@[simp] theorem State.startJoin_hide (m : Nat) (hm : 4288 &&& m = 4288) : ∀ a0 a1 a2 a3, (State.startJoin a0 a1 a2 a3).hide m = a0.hide m := by
  intro a0 a1 a2 a3
  refine hide_mono ?_ hm
  unfold State.startJoin
  simp [-List.foldl_cons, -List.foldl_nil]

@[simp] theorem State.joinTwin_hide (m : Nat) (hm : 4288 &&& m = 4288) : ∀ a0, (State.joinTwin a0).hide m = a0.hide m := by
  intro a0
  refine hide_mono ?_ hm
  unfold State.joinTwin
  (repeat' split) <;> simp [-List.foldl_cons, -List.foldl_nil]

theorem execPortUp_hide : ∀ a0 a1 t, execPortUp a0 a1 = .next t → t.hide 4289 = a1.hide 4289 := by
  intro a0 a1 t h
  simp only [execPortUp, done, Host.Outcome.next.injEq] at h
  subst h
  simp [-List.foldl_cons, -List.foldl_nil]

@[simp] theorem State.joinPeers_hide (m : Nat) (hm : 4288 &&& m = 4288) : ∀ a0, (State.joinPeers a0).hide m = a0.hide m := by
  intro a0
  refine hide_mono ?_ hm
  unfold State.joinPeers
  repeat' (first | (simp [-List.foldl_cons, -List.foldl_nil]; done) | (simp (disch := (first | (intros; simp [-List.foldl_cons, -List.foldl_nil]; done) | (intros; split <;> (simp [-List.foldl_cons, -List.foldl_nil]; done)) | (intros; (repeat' split) <;> (simp [-List.foldl_cons, -List.foldl_nil]; done)) | (intros; dsimp only; (repeat' split) <;> (simp [-List.foldl_cons, -List.foldl_nil]; done)) | fail)) [-List.foldl_cons, -List.foldl_nil]; done) | split)

@[simp] theorem State.joinRetry_hide (m : Nat) (hm : 4288 &&& m = 4288) : ∀ a0 a1 a2 a3, (State.joinRetry a0 a1 a2 a3).hide m = a0.hide m := by
  intro a0 a1 a2 a3
  refine hide_mono ?_ hm
  unfold State.joinRetry
  (repeat' split) <;> simp [-List.foldl_cons, -List.foldl_nil]

theorem execJoinRetryTimer_hide : ∀ a0 a1 a2 a3 t, execJoinRetryTimer a0 a1 a2 a3 = .next t → t.hide 4288 = a3.hide 4288 := by
  intro a0 a1 a2 a3 t h
  simp only [execJoinRetryTimer, done, Host.Outcome.next.injEq] at h
  subst h
  simp [-List.foldl_cons, -List.foldl_nil]

@[simp] theorem State.awaitTwin_hide (m : Nat) (hm : 5248 &&& m = 5248) : ∀ a0 a1, (State.awaitTwin a0 a1).hide m = a0.hide m := by
  intro a0 a1
  refine hide_mono ?_ hm
  unfold State.awaitTwin
  simp [-List.foldl_cons, -List.foldl_nil]

@[simp] theorem State.bindCmd_hide (m : Nat) (hm : 5249 &&& m = 5249) : ∀ a0, (State.bindCmd a0).1.hide m = a0.hide m := by
  intro a0
  refine hide_mono ?_ hm
  unfold State.bindCmd
  try dsimp only
  (repeat' split) <;> simp [-List.foldl_cons, -List.foldl_nil]

theorem execBind_hide : ∀ a0 t, execBind a0 = .next t → t.hide 5249 = a0.hide 5249 := by
  intro a0 t h
  simp only [execBind, done, Host.Outcome.next.injEq] at h
  subst h
  simp [-List.foldl_cons, -List.foldl_nil]

@[simp] theorem State.unbindCmd_hide (m : Nat) (hm : 1153 &&& m = 1153) : ∀ a0, (State.unbindCmd a0).1.hide m = a0.hide m := by
  intro a0
  refine hide_mono ?_ hm
  unfold State.unbindCmd
  simp [-List.foldl_cons, -List.foldl_nil]

theorem execUnbind_hide : ∀ a0 t, execUnbind a0 = .next t → t.hide 1153 = a0.hide 1153 := by
  intro a0 t h
  simp only [execUnbind, done, Host.Outcome.next.injEq] at h
  subst h
  simp [-List.foldl_cons, -List.foldl_nil]

@[simp] theorem State.ackIdentity_hide (m : Nat) (hm : 5249 &&& m = 5249) : ∀ a0, (State.ackIdentity a0).1.hide m = a0.hide m := by
  intro a0
  refine hide_mono ?_ hm
  unfold State.ackIdentity
  (repeat' split) <;> simp [-List.foldl_cons, -List.foldl_nil]

theorem execAttnAckIdentity_hide : ∀ a0 t, execAttnAckIdentity a0 = .next t → t.hide 5249 = a0.hide 5249 := by
  intro a0 t h
  simp only [execAttnAckIdentity, done, Host.Outcome.next.injEq] at h
  subst h
  simp [-List.foldl_cons, -List.foldl_nil]

@[simp] theorem State.joinBinding_hide (m : Nat) (hm : 1217 &&& m = 1217) : ∀ a0 a1, (State.joinBinding a0 a1).hide m = a0.hide m := by
  intro a0 a1
  refine hide_mono ?_ hm
  unfold State.joinBinding
  split
  · rfl
  · split
    · rfl
    · split
      · rfl
      · exact (State.event_hide _ rfl ..).trans rfl

@[simp] theorem State.sendDigests_hide (m : Nat) (hm : 4096 &&& m = 4096) : ∀ a0 a1, (State.sendDigests a0 a1).hide m = a0.hide m := by
  intro a0 a1
  refine hide_mono ?_ hm
  unfold State.sendDigests
  (repeat' split) <;> simp [-List.foldl_cons, -List.foldl_nil]

@[simp] theorem State.freshFlows_hide (m : Nat) (hm : 64 &&& m = 64) : ∀ a0 a1, (State.freshFlows a0 a1).hide m = a0.hide m := by
  intro a0 a1
  refine hide_mono ?_ hm
  unfold State.freshFlows
  simp [-List.foldl_cons, -List.foldl_nil]

@[simp] theorem State.joinEthernet_hide (m : Nat) (hm : 55261 &&& m = 55261) : ∀ a0 a1, (State.joinEthernet a0 a1).hide m = a0.hide m := by
  intro a0 a1
  refine hide_mono ?_ hm
  unfold State.joinEthernet
  simp [-List.foldl_cons, -List.foldl_nil]

@[simp] theorem State.joinSeen_hide (m : Nat) (hm : 55261 &&& m = 55261) : ∀ a0 a1, (State.joinSeen a0 a1).hide m = a0.hide m := by
  intro a0 a1
  refine hide_mono ?_ hm
  unfold State.joinSeen
  simp [-List.foldl_cons, -List.foldl_nil]

theorem execJoin_hide : ∀ a0 a1 t, execJoin a0 a1 = .next t → t.hide 55261 = a1.hide 55261 := by
  intro a0 a1 t h
  simp only [execJoin, done, Host.Outcome.next.injEq] at h
  subst h
  simp [-List.foldl_cons, -List.foldl_nil]

@[simp] theorem State.setImages_hide (m : Nat) (hm : 1024 &&& m = 1024) : ∀ a0 a1 a2, (State.setImages a0 a1 a2).hide m = a0.hide m := by
  intro a0 a1 a2
  refine hide_mono ?_ hm
  unfold State.setImages
  simp [-List.foldl_cons, -List.foldl_nil]

@[simp] theorem State.stageEnds_hide (m : Nat) (hm : 1024 &&& m = 1024) : ∀ a0 a1, (State.stageEnds a0 a1).hide m = a0.hide m := by
  intro a0 a1
  refine hide_mono ?_ hm
  unfold State.stageEnds
  simp [-List.foldl_cons, -List.foldl_nil]

@[simp] theorem State.unstaged_hide (m : Nat) (hm : 1024 &&& m = 1024) : ∀ a0 a1, (State.unstaged a0 a1).hide m = a0.hide m := by
  intro a0 a1
  refine hide_mono ?_ hm
  unfold State.unstaged
  simp [-List.foldl_cons, -List.foldl_nil]

@[simp] theorem State.stageSlot_hide (m : Nat) (hm : 1024 &&& m = 1024) : ∀ a0 a1, (State.stageSlot a0 a1).hide m = a0.hide m := by
  intro a0 a1
  refine hide_mono ?_ hm
  unfold State.stageSlot
  simp [-List.foldl_cons, -List.foldl_nil]

@[simp] theorem State.stageWrite_hide (m : Nat) (hm : 1024 &&& m = 1024) : ∀ a0 a1, (State.stageWrite a0 a1).hide m = a0.hide m := by
  intro a0 a1
  refine hide_mono ?_ hm
  unfold State.stageWrite
  simp [-List.foldl_cons, -List.foldl_nil]

@[simp] theorem State.stageStart_hide (m : Nat) (hm : 50653 &&& m = 50653) : ∀ a0 a1, (State.stageStart a0 a1).hide m = a0.hide m := by
  intro a0 a1
  refine hide_mono ?_ hm
  unfold State.stageStart
  simp [-List.foldl_cons, -List.foldl_nil]

theorem execStageStart_hide : ∀ a0 a1 t, execStageStart a0 a1 = .next t → t.hide 50653 = a1.hide 50653 := by
  intro a0 a1 t h
  simp only [execStageStart, done, Host.Outcome.next.injEq] at h
  subst h
  simp [-List.foldl_cons, -List.foldl_nil]

theorem execStagingComplete_hide : ∀ a0 t, execStagingComplete a0 = .next t → t.hide 1024 = a0.hide 1024 := by
  intro a0 t h
  simp only [execStagingComplete, done, Host.Outcome.next.injEq] at h
  subst h
  (repeat' split) <;> simp [-List.foldl_cons, -List.foldl_nil]

theorem execParlourStageOffsetWrite_hide : ∀ a0 a1 t, execParlourStageOffsetWrite a0 a1 = .next t → t.hide 1 = a1.hide 1 := by
  intro a0 a1 t h
  simp only [execParlourStageOffsetWrite, done, Host.Outcome.next.injEq] at h
  subst h
  simp [-List.foldl_cons, -List.foldl_nil]

@[simp] theorem State.stageAppend_hide (m : Nat) (hm : 49281 &&& m = 49281) : ∀ a0 a1, (State.stageAppend a0 a1).hide m = a0.hide m := by
  intro a0 a1
  refine hide_mono ?_ hm
  unfold State.stageAppend
  simp [-List.foldl_cons, -List.foldl_nil]

theorem execParlourStageAppend_hide : ∀ a0 a1 t, execParlourStageAppend a0 a1 = .next t → t.hide 49281 = a1.hide 49281 := by
  intro a0 a1 t h
  simp only [execParlourStageAppend, done, Host.Outcome.next.injEq] at h
  subst h
  simp [-List.foldl_cons, -List.foldl_nil]

@[simp] theorem State.commitEnds_hide (m : Nat) (hm : 1024 &&& m = 1024) : ∀ a0 a1, (State.commitEnds a0 a1).hide m = a0.hide m := by
  intro a0 a1
  refine hide_mono ?_ hm
  unfold State.commitEnds
  simp [-List.foldl_cons, -List.foldl_nil]

@[simp] theorem State.parlourCommit_hide (m : Nat) (hm : 1024 &&& m = 1024) : ∀ a0, (State.parlourCommit a0).hide m = a0.hide m := by
  intro a0
  refine hide_mono ?_ hm
  unfold State.parlourCommit
  simp [-List.foldl_cons, -List.foldl_nil]

theorem execParlourCommit_hide : ∀ a0 t, execParlourCommit a0 = .next t → t.hide 1024 = a0.hide 1024 := by
  intro a0 t h
  simp only [execParlourCommit, done, Host.Outcome.next.injEq] at h
  subst h
  simp [-List.foldl_cons, -List.foldl_nil]

@[simp] theorem State.revertTried_hide (m : Nat) (hm : 1024 &&& m = 1024) : ∀ a0 a1, (State.revertTried a0 a1).hide m = a0.hide m := by
  intro a0 a1
  refine hide_mono ?_ hm
  unfold State.revertTried
  simp [-List.foldl_cons, -List.foldl_nil]

@[simp] theorem State.bootSlot_hide (m : Nat) (hm : 1024 &&& m = 1024) : ∀ a0 a1 a2 a3, (State.bootSlot a0 a1 a2 a3).hide m = a0.hide m := by
  intro a0 a1 a2 a3
  refine hide_mono ?_ hm
  unfold State.bootSlot
  simp [-List.foldl_cons, -List.foldl_nil]

@[simp] theorem State.bootParlour_hide (m : Nat) (hm : 51165 &&& m = 51165) : ∀ a0, (State.bootParlour a0).hide m = a0.hide m := by
  intro a0
  refine hide_mono ?_ hm
  unfold State.bootParlour
  dsimp only
  split
  · rename_i slot fell _
    split
    · exact (State.event_hide _ rfl ..).trans ((hide_power 51165 _ _ rfl).trans
        ((State.bootSlot_hide _ rfl ..).trans (State.revertTried_hide _ rfl ..)))
    · exact (hide_power 51165 _ _ rfl).trans ((State.bootSlot_hide _ rfl ..).trans (State.revertTried_hide _ rfl ..))
  · exact (State.raise_hide _ rfl ..).trans ((hide_power 51165 _ _ rfl).trans
      ((State.setImages_hide _ rfl ..).trans (State.revertTried_hide _ rfl ..)))

@[simp] theorem State.parlourActivate_hide (m : Nat) (hm : 51165 &&& m = 51165) : ∀ a0, (State.parlourActivate a0).hide m = a0.hide m := by
  intro a0
  refine hide_mono ?_ hm
  unfold State.parlourActivate
  simp [-List.foldl_cons, -List.foldl_nil]

theorem execParlourActivate_hide : ∀ a0 t, execParlourActivate a0 = .next t → t.hide 51165 = a0.hide 51165 := by
  intro a0 t h
  simp only [execParlourActivate, done, Host.Outcome.next.injEq] at h
  subst h
  simp [-List.foldl_cons, -List.foldl_nil]

@[simp] theorem State.svnCommit_hide (m : Nat) (hm : 1153 &&& m = 1153) : ∀ a0 a1, (State.svnCommit a0 a1).1.hide m = a0.hide m := by
  intro a0 a1
  refine hide_mono ?_ hm
  unfold State.svnCommit
  simp [-List.foldl_cons, -List.foldl_nil]

theorem execSvnCommit_hide : ∀ a0 a1 t, execSvnCommit a0 a1 = .next t → t.hide 1153 = a1.hide 1153 := by
  intro a0 a1 t h
  simp only [execSvnCommit, done, Host.Outcome.next.injEq] at h
  subst h
  simp [-List.foldl_cons, -List.foldl_nil]

@[simp] theorem State.activateArm_hide (m : Nat) (hm : 1153 &&& m = 1153) : ∀ a0 a1, (State.activateArm a0 a1).hide m = a0.hide m := by
  intro a0 a1
  refine hide_mono ?_ hm
  unfold State.activateArm
  simp [-List.foldl_cons, -List.foldl_nil]

theorem execActivateArm_hide : ∀ a0 a1 t, execActivateArm a0 a1 = .next t → t.hide 1153 = a1.hide 1153 := by
  intro a0 a1 t h
  simp only [execActivateArm, done, Host.Outcome.next.injEq] at h
  subst h
  simp [-List.foldl_cons, -List.foldl_nil]

@[simp] theorem State.activateCancel_hide (m : Nat) (hm : 1024 &&& m = 1024) : ∀ a0, (State.activateCancel a0).hide m = a0.hide m := by
  intro a0
  refine hide_mono ?_ hm
  unfold State.activateCancel
  simp [-List.foldl_cons, -List.foldl_nil]

theorem execActivateCancel_hide : ∀ a0 t, execActivateCancel a0 = .next t → t.hide 1024 = a0.hide 1024 := by
  intro a0 t h
  simp only [execActivateCancel, done, Host.Outcome.next.injEq] at h
  subst h
  simp [-List.foldl_cons, -List.foldl_nil]

@[simp] theorem State.startSucceeded_hide (m : Nat) (hm : 1025 &&& m = 1025) : ∀ a0, (State.startSucceeded a0).hide m = a0.hide m := by
  intro a0
  refine hide_mono ?_ hm
  unfold State.startSucceeded
  simp [-List.foldl_cons, -List.foldl_nil]

theorem execSyncIntervalEnd_hide : ∀ a0 t, execSyncIntervalEnd a0 = .next t → t.hide 1027 = a0.hide 1027 := by
  intro a0 t h
  simp only [execSyncIntervalEnd, done, Host.Outcome.next.injEq] at h
  subst h
  simp [-List.foldl_cons, -List.foldl_nil]

@[simp] theorem State.abandonStaging_hide (m : Nat) (hm : 1024 &&& m = 1024) : ∀ a0, (State.abandonStaging a0).hide m = a0.hide m := by
  intro a0
  refine hide_mono ?_ hm
  unfold State.abandonStaging
  (repeat' split) <;> simp [-List.foldl_cons, -List.foldl_nil]

@[simp] theorem State.dieReset_hide (m : Nat) (hm : 51199 &&& m = 51199) : ∀ a0 a1, (State.dieReset a0 a1).hide m = a0.hide m := by
  intro a0 a1
  refine hide_mono ?_ hm
  unfold State.dieReset
  extract_lets s
  have hs : s.hide 51199 = a0.hide 51199 := State.abandonStaging_hide _ rfl ..
  clear_value s
  exact Eq.trans rfl hs

@[simp] theorem State.supplyReset_hide (m : Nat) (hm : 51199 &&& m = 51199) : ∀ a0 a1, (State.supplyReset a0 a1).hide m = a0.hide m := by
  intro a0 a1
  refine hide_mono ?_ hm
  unfold State.supplyReset
  simp [-List.foldl_cons, -List.foldl_nil]

@[simp] theorem State.auxUp_hide (m : Nat) (hm : 51165 &&& m = 51165) : ∀ a0, (State.auxUp a0).hide m = a0.hide m := by
  intro a0
  refine hide_mono ?_ hm
  unfold State.auxUp
  simp [-List.foldl_cons, -List.foldl_nil]

theorem execAuxRailUp_hide : ∀ a0 t, execAuxRailUp a0 = .next t → t.hide 51165 = a0.hide 51165 := by
  intro a0 t h
  simp only [execAuxRailUp, done, Host.Outcome.next.injEq] at h
  subst h
  simp [-List.foldl_cons, -List.foldl_nil]

@[simp] theorem State.auxLost_hide (m : Nat) (hm : 51199 &&& m = 51199) : ∀ a0, (State.auxLost a0).hide m = a0.hide m := by
  intro a0
  refine hide_mono ?_ hm
  unfold State.auxLost
  split
  · extract_lets t
    have ht : t.hide 51199 = a0.hide 51199 := State.dieReset_hide _ rfl ..
    clear_value t
    exact Eq.trans rfl ht
  · rfl

theorem execAuxRailLoss_hide : ∀ a0 t, execAuxRailLoss a0 = .next t → t.hide 51199 = a0.hide 51199 := by
  intro a0 t h
  simp only [execAuxRailLoss, done, Host.Outcome.next.injEq] at h
  subst h
  simp [-List.foldl_cons, -List.foldl_nil]

theorem execSenseBladeMate_hide : ∀ a0 t, execSenseBladeMate a0 = .next t → t.hide 512 = a0.hide 512 := by
  intro a0 t h
  simp only [execSenseBladeMate, done, Host.Outcome.next.injEq] at h
  subst h
  simp [-List.foldl_cons, -List.foldl_nil]

theorem execSenseBladeUnmate_hide : ∀ a0 t, execSenseBladeUnmate a0 = .next t → t.hide 512 = a0.hide 512 := by
  intro a0 t h
  simp only [execSenseBladeUnmate, done, Host.Outcome.next.injEq] at h
  subst h
  simp [-List.foldl_cons, -List.foldl_nil]

@[simp] theorem State.bulkCrossing_hide (m : Nat) (hm : 512 &&& m = 512) : ∀ a0 a1, (State.bulkCrossing a0 a1).hide m = a0.hide m := by
  intro a0 a1
  refine hide_mono ?_ hm
  unfold State.bulkCrossing
  simp [-List.foldl_cons, -List.foldl_nil]

theorem execBulkNodeCrossing_hide : ∀ a0 a1 t, execBulkNodeCrossing a0 a1 = .next t → t.hide 512 = a1.hide 512 := by
  intro a0 a1 t h
  simp only [execBulkNodeCrossing, done, Host.Outcome.next.injEq] at h
  subst h
  simp [-List.foldl_cons, -List.foldl_nil]

@[simp] theorem State.inputQualified_hide (m : Nat) (hm : 512 &&& m = 512) : ∀ a0, (State.inputQualified a0).hide m = a0.hide m := by
  intro a0
  refine hide_mono ?_ hm
  unfold State.inputQualified
  simp [-List.foldl_cons, -List.foldl_nil]

theorem execInputQualified_hide : ∀ a0 t, execInputQualified a0 = .next t → t.hide 512 = a0.hide 512 := by
  intro a0 t h
  simp only [execInputQualified, done, Host.Outcome.next.injEq] at h
  subst h
  simp [-List.foldl_cons, -List.foldl_nil]

@[simp] theorem State.railsUp_hide (m : Nat) (hm : 512 &&& m = 512) : ∀ a0, (State.railsUp a0).hide m = a0.hide m := by
  intro a0
  refine hide_mono ?_ hm
  unfold State.railsUp
  simp [-List.foldl_cons, -List.foldl_nil]

theorem execRailsInRegulation_hide : ∀ a0 t, execRailsInRegulation a0 = .next t → t.hide 512 = a0.hide 512 := by
  intro a0 t h
  simp only [execRailsInRegulation, done, Host.Outcome.next.injEq] at h
  subst h
  simp [-List.foldl_cons, -List.foldl_nil]

@[simp] theorem State.imageInvalid_hide (m : Nat) (hm : 50141 &&& m = 50141) : ∀ a0 a1, (State.imageInvalid a0 a1).hide m = a0.hide m := by
  intro a0 a1
  refine hide_mono ?_ hm
  unfold State.imageInvalid
  simp [-List.foldl_cons, -List.foldl_nil]

@[simp] theorem State.bootImage_hide (m : Nat) (hm : 1153 &&& m = 1153) : ∀ a0 a1 a2 a3, (State.bootImage a0 a1 a2 a3).hide m = a0.hide m := by
  intro a0 a1 a2 a3
  refine hide_mono ?_ hm
  unfold State.bootImage
  simp [-List.foldl_cons, -List.foldl_nil]

@[simp] theorem State.bootActive_hide (m : Nat) (hm : 51165 &&& m = 51165) : ∀ a0, (State.bootActive a0).hide m = a0.hide m := by
  intro a0
  refine hide_mono ?_ hm
  unfold State.bootActive
  (repeat' split) <;> simp [-List.foldl_cons, -List.foldl_nil]

@[simp] theorem State.bootImages_hide (m : Nat) (hm : 51165 &&& m = 51165) : ∀ a0, (State.bootImages a0).hide m = a0.hide m := by
  intro a0
  refine hide_mono ?_ hm
  unfold State.bootImages
  try dsimp only
  repeat' (first | (simp [-List.foldl_cons, -List.foldl_nil]; done) | (simp (disch := (first | (intros; simp [-List.foldl_cons, -List.foldl_nil]; done) | (intros; split <;> (simp [-List.foldl_cons, -List.foldl_nil]; done)) | (intros; (repeat' split) <;> (simp [-List.foldl_cons, -List.foldl_nil]; done)) | (intros; dsimp only; (repeat' split) <;> (simp [-List.foldl_cons, -List.foldl_nil]; done)) | fail)) [-List.foldl_cons, -List.foldl_nil]; done) | split)

@[simp] theorem State.takeSettings_hide (m : Nat) (hm : 50653 &&& m = 50653) : ∀ a0, (State.takeSettings a0).hide m = a0.hide m := by
  intro a0
  refine hide_mono ?_ hm
  unfold State.takeSettings
  (repeat' split) <;> simp [-List.foldl_cons, -List.foldl_nil]

@[simp] theorem State.takeBinding_hide (m : Nat) (hm : 1024 &&& m = 1024) : ∀ a0, (State.takeBinding a0).hide m = a0.hide m := by
  intro a0
  refine hide_mono ?_ hm
  unfold State.takeBinding
  simp [-List.foldl_cons, -List.foldl_nil]

@[simp] theorem State.takeNumber_hide (m : Nat) (hm : 1 &&& m = 1) : ∀ a0, (State.takeNumber a0).hide m = a0.hide m := by
  intro a0
  refine hide_mono ?_ hm
  unfold State.takeNumber
  (repeat' split) <;> simp [-List.foldl_cons, -List.foldl_nil]

@[simp] theorem State.bootSteward_hide (m : Nat) (hm : 51165 &&& m = 51165) : ∀ a0 a1, (State.bootSteward a0 a1).hide m = a0.hide m := by
  intro a0 a1
  refine hide_mono ?_ hm
  unfold State.bootSteward
  simp [-List.foldl_cons, -List.foldl_nil]

@[simp] theorem State.loadImages_hide (m : Nat) (hm : 52189 &&& m = 52189) : ∀ a0 a1, (State.loadImages a0 a1).hide m = a0.hide m := by
  intro a0 a1
  refine hide_mono ?_ hm
  unfold State.loadImages
  (repeat' split) <;> simp [-List.foldl_cons, -List.foldl_nil]

@[simp] theorem State.dieStart_hide (m : Nat) (hm : 53213 &&& m = 53213) : ∀ a0 a1, (State.dieStart a0 a1).hide m = a0.hide m := by
  intro a0 a1
  refine hide_mono ?_ hm
  unfold State.dieStart
  (repeat' split) <;> simp [-List.foldl_cons, -List.foldl_nil]

theorem execDieStart_hide : ∀ a0 a1 t, execDieStart a0 a1 = .next t → t.hide 53213 = a1.hide 53213 := by
  intro a0 a1 t h
  simp only [execDieStart, done, Host.Outcome.next.injEq] at h
  subst h
  simp [-List.foldl_cons, -List.foldl_nil]

@[simp] theorem State.stackTrained_hide (m : Nat) (hm : 49665 &&& m = 49665) : ∀ a0 a1, (State.stackTrained a0 a1).hide m = a0.hide m := by
  intro a0 a1
  refine hide_mono ?_ hm
  unfold State.stackTrained
  split
  · rfl
  · extract_lets s lo inStack
    split
    · rfl
    · rfl

theorem execStackTrained_hide : ∀ a0 a1 t, execStackTrained a0 a1 = .next t → t.hide 49665 = a1.hide 49665 := by
  intro a0 a1 t h
  simp only [execStackTrained, done, Host.Outcome.next.injEq] at h
  subst h
  simp [-List.foldl_cons, -List.foldl_nil]

@[simp] theorem State.tierTrained_hide (m : Nat) (hm : 640 &&& m = 640) : ∀ a0 a1, (State.tierTrained a0 a1).hide m = a0.hide m := by
  intro a0 a1
  refine hide_mono ?_ hm
  unfold State.tierTrained
  simp [-List.foldl_cons, -List.foldl_nil]

theorem execTierTrained_hide : ∀ a0 a1 t, execTierTrained a0 a1 = .next t → t.hide 640 = a1.hide 640 := by
  intro a0 a1 t h
  simp only [execTierTrained, done, Host.Outcome.next.injEq] at h
  subst h
  simp [-List.foldl_cons, -List.foldl_nil]

@[simp] theorem State.startTimeout_hide (m : Nat) (hm : 50141 &&& m = 50141) : ∀ a0, (State.startTimeout a0).hide m = a0.hide m := by
  intro a0
  refine hide_mono ?_ hm
  unfold State.startTimeout
  simp [-List.foldl_cons, -List.foldl_nil]

theorem execStartTimeout_hide : ∀ a0 t, execStartTimeout a0 = .next t → t.hide 50141 = a0.hide 50141 := by
  intro a0 t h
  simp only [execStartTimeout, done, Host.Outcome.next.injEq] at h
  subst h
  simp [-List.foldl_cons, -List.foldl_nil]

@[simp] theorem State.distrust_hide (m : Nat) (hm : 4 &&& m = 4) : ∀ a0 a1, (State.distrust a0 a1).hide m = a0.hide m := by
  intro a0 a1
  refine hide_mono ?_ hm
  unfold State.distrust
  (repeat' split) <;> simp [-List.foldl_cons, -List.foldl_nil]

@[simp] theorem State.rerunUntrusted_hide (m : Nat) (hm : 49629 &&& m = 49629) : ∀ a0 a1, (State.rerunUntrusted a0 a1).hide m = a0.hide m := by
  intro a0 a1
  refine hide_mono ?_ hm
  unfold State.rerunUntrusted
  (repeat' split) <;> simp [-List.foldl_cons, -List.foldl_nil]

@[simp] theorem State.enterHold_hide (m : Nat) (hm : 516 &&& m = 516) : ∀ a0, (State.enterHold a0).hide m = a0.hide m := by
  intro a0
  refine hide_mono ?_ hm
  unfold State.enterHold
  simp [-List.foldl_cons, -List.foldl_nil]

@[simp] theorem State.warn_hide (m : Nat) (hm : 517 &&& m = 517) : ∀ a0, (State.warn a0).hide m = a0.hide m := by
  intro a0
  refine hide_mono ?_ hm
  unfold State.warn
  simp [-List.foldl_cons, -List.foldl_nil]

theorem execSupplyWarning_hide : ∀ a0 t, execSupplyWarning a0 = .next t → t.hide 517 = a0.hide 517 := by
  intro a0 t h
  simp only [execSupplyWarning, done, Host.Outcome.next.injEq] at h
  subst h
  simp [-List.foldl_cons, -List.foldl_nil]

@[simp] theorem State.wellAgain_hide (m : Nat) (hm : 512 &&& m = 512) : ∀ a0, (State.wellAgain a0).hide m = a0.hide m := by
  intro a0
  refine hide_mono ?_ hm
  unfold State.wellAgain
  simp [-List.foldl_cons, -List.foldl_nil]

theorem execSupplyClear_hide : ∀ a0 t, execSupplyClear a0 = .next t → t.hide 512 = a0.hide 512 := by
  intro a0 t h
  simp only [execSupplyClear, done, Host.Outcome.next.injEq] at h
  subst h
  simp [-List.foldl_cons, -List.foldl_nil]

theorem execRefclkDieLoss_hide : ∀ a0 t, execRefclkDieLoss a0 = .next t → t.hide 517 = a0.hide 517 := by
  intro a0 t h
  simp only [execRefclkDieLoss, done, Host.Outcome.next.injEq] at h
  subst h
  simp [-List.foldl_cons, -List.foldl_nil]

theorem execRefclkDieReturn_hide : ∀ a0 t, execRefclkDieReturn a0 = .next t → t.hide 512 = a0.hide 512 := by
  intro a0 t h
  simp only [execRefclkDieReturn, done, Host.Outcome.next.injEq] at h
  subst h
  simp [-List.foldl_cons, -List.foldl_nil]

theorem execRefclkDieTimeout_hide : ∀ a0 t, execRefclkDieTimeout a0 = .next t → t.hide 51199 = a0.hide 51199 := by
  intro a0 t h
  simp only [execRefclkDieTimeout, done, Host.Outcome.next.injEq] at h
  subst h
  simp [-List.foldl_cons, -List.foldl_nil]

@[simp] theorem State.redoBatch_hide (m : Nat) (hm : 49629 &&& m = 49629) : ∀ a0 a1, (State.redoBatch a0 a1).hide m = a0.hide m := by
  intro a0 a1
  refine hide_mono ?_ hm
  unfold State.redoBatch
  (repeat' split) <;> simp [-List.foldl_cons, -List.foldl_nil]

@[simp] theorem State.resumeSep_hide (m : Nat) (hm : 8 &&& m = 8) : ∀ a0 a1, (State.resumeSep a0 a1).hide m = a0.hide m := by
  intro a0 a1
  refine hide_mono ?_ hm
  unfold State.resumeSep
  simp [-List.foldl_cons, -List.foldl_nil]

@[simp] theorem State.activate_hide (m : Nat) (hm : 51199 &&& m = 51199) : ∀ a0, (State.activate a0).hide m = a0.hide m := by
  intro a0
  refine hide_mono ?_ hm
  unfold State.activate
  simp [-List.foldl_cons, -List.foldl_nil]

@[simp] theorem State.supplyResume_hide (m : Nat) (hm : 51199 &&& m = 51199) : ∀ a0, (State.supplyResume a0).hide m = a0.hide m := by
  intro a0
  refine hide_mono ?_ hm
  unfold State.supplyResume
  (repeat' split) <;> simp [-List.foldl_cons, -List.foldl_nil]

theorem execSupplyResume_hide : ∀ a0 t, execSupplyResume a0 = .next t → t.hide 51199 = a0.hide 51199 := by
  intro a0 t h
  simp only [execSupplyResume, done, Host.Outcome.next.injEq] at h
  subst h
  simp [-List.foldl_cons, -List.foldl_nil]

@[simp] theorem State.holdTooLong_hide (m : Nat) (hm : 50141 &&& m = 50141) : ∀ a0, (State.holdTooLong a0).hide m = a0.hide m := by
  intro a0
  refine hide_mono ?_ hm
  unfold State.holdTooLong
  simp [-List.foldl_cons, -List.foldl_nil]

theorem execSupplyHold_hide : ∀ a0 t, execSupplyHold a0 = .next t → t.hide 50141 = a0.hide 50141 := by
  intro a0 t h
  simp only [execSupplyHold, done, Host.Outcome.next.injEq] at h
  subst h
  simp [-List.foldl_cons, -List.foldl_nil]

theorem execSupplyReset_hide : ∀ a0 t, execSupplyReset a0 = .next t → t.hide 51199 = a0.hide 51199 := by
  intro a0 t h
  simp only [execSupplyReset, done, Host.Outcome.next.injEq] at h
  subst h
  simp [-List.foldl_cons, -List.foldl_nil]

@[simp] theorem State.droopTrip_hide (m : Nat) (hm : 517 &&& m = 517) : ∀ a0 a1, (State.droopTrip a0 a1).hide m = a0.hide m := by
  intro a0 a1
  refine hide_mono ?_ hm
  unfold State.droopTrip
  simp [-List.foldl_cons, -List.foldl_nil]

theorem execDroopTrip_hide : ∀ a0 a1 t, execDroopTrip a0 a1 = .next t → t.hide 517 = a1.hide 517 := by
  intro a0 a1 t h
  simp only [execDroopTrip, done, Host.Outcome.next.injEq] at h
  subst h
  simp [-List.foldl_cons, -List.foldl_nil]

@[simp] theorem State.droopRecover_hide (m : Nat) (hm : 50141 &&& m = 50141) : ∀ a0 a1, (State.droopRecover a0 a1).hide m = a0.hide m := by
  intro a0 a1
  refine hide_mono ?_ hm
  unfold State.droopRecover
  simp [-List.foldl_cons, -List.foldl_nil]

theorem execDroopRecover_hide : ∀ a0 a1 t, execDroopRecover a0 a1 = .next t → t.hide 50141 = a1.hide 50141 := by
  intro a0 a1 t h
  simp only [execDroopRecover, done, Host.Outcome.next.injEq] at h
  subst h
  simp [-List.foldl_cons, -List.foldl_nil]

@[simp] theorem State.measure_hide (m : Nat) (hm : 1 &&& m = 1) : ∀ a0 a1, (State.measure a0 a1).hide m = a0.hide m := by
  intro a0 a1
  refine hide_mono ?_ hm
  unfold State.measure
  simp [-List.foldl_cons, -List.foldl_nil]

@[simp] theorem State.passes_hide (m : Nat) (hm : 129 &&& m = 129) : ∀ a0 a1 a2, (State.passes a0 a1 a2).hide m = a0.hide m := by
  intro a0 a1 a2
  refine hide_mono ?_ hm
  unfold State.passes
  simp [-List.foldl_cons, -List.foldl_nil]

@[simp] theorem State.thermal_hide (m : Nat) (hm : 51199 &&& m = 51199) : ∀ a0 a1, (State.thermal a0 a1).hide m = a0.hide m := by
  intro a0 a1
  refine hide_mono ?_ hm
  unfold State.thermal
  simp [-List.foldl_cons, -List.foldl_nil]

theorem execThermalSample_hide : ∀ a0 a1 t, execThermalSample a0 a1 = .next t → t.hide 51199 = a1.hide 51199 := by
  intro a0 a1 t h
  simp only [execThermalSample, done, Host.Outcome.next.injEq] at h
  subst h
  simp [-List.foldl_cons, -List.foldl_nil]

theorem execThermalTripTimer_hide : ∀ a0 t, execThermalTripTimer a0 = .next t → t.hide 51199 = a0.hide 51199 := by
  intro a0 t h
  simp only [execThermalTripTimer, done, Host.Outcome.next.injEq] at h
  subst h
  (repeat' split) <;> simp [-List.foldl_cons, -List.foldl_nil]

theorem execRefclkPortLoss_hide : ∀ a0 a1 t, execRefclkPortLoss a0 a1 = .next t → t.hide 193 = a1.hide 193 := by
  intro a0 a1 t h
  simp only [execRefclkPortLoss, done, Host.Outcome.next.injEq] at h
  subst h
  simp [-List.foldl_cons, -List.foldl_nil]

theorem execActivationTick_hide : ∀ a0 t, execActivationTick a0 = .next t → t.hide 51199 = a0.hide 51199 := by
  intro a0 t h
  simp only [execActivationTick, done, Host.Outcome.next.injEq] at h
  subst h
  simp [-List.foldl_cons, -List.foldl_nil]

end Sys2Proof.Machine
end

