-- ==== Sys2Proof/Laws/FramePlan.lean ====
section
/-! SUPPORT. What the operations of queues, plans and steps leave alone, one lemma each (masks: Laws/Frame.lean). -/

namespace Sys2Proof.Machine

@[simp] theorem Loading.asIf_hide (m : Nat) (hm : 5 &&& m = 5) : ∀ a0, (Loading.asIf a0).hide m = a0.s.hide m := by
  intro a0
  refine hide_mono ?_ hm
  unfold Loading.asIf
  simp [-List.foldl_cons, -List.foldl_nil]

@[simp] theorem State.setPair_hide (m : Nat) (hm : 128 &&& m = 128) : ∀ a0 a1 a2, (State.setPair a0 a1 a2).hide m = a0.hide m := by
  intro a0 a1 a2
  refine hide_mono ?_ hm
  unfold State.setPair
  simp [-List.foldl_cons, -List.foldl_nil]

@[simp] theorem State.pairRefused_hide (m : Nat) (hm : 129 &&& m = 129) : ∀ a0 a1, (State.pairRefused a0 a1).hide m = a0.hide m := by
  intro a0 a1
  refine hide_mono ?_ hm
  unfold State.pairRefused
  simp [-List.foldl_cons, -List.foldl_nil]

@[simp] theorem State.queueEnable_hide (m : Nat) (hm : 129 &&& m = 129) : ∀ a0 a1 a2, (State.queueEnable a0 a1 a2).hide m = a0.hide m := by
  intro a0 a1 a2
  refine hide_mono ?_ hm
  unfold State.queueEnable
  simp [-List.foldl_cons, -List.foldl_nil]

theorem execQueueEnable_hide : ∀ a0 a1 a2 t, execQueueEnable a0 a1 a2 = .next t → t.hide 129 = a2.hide 129 := by
  intro a0 a1 a2 t h
  simp only [execQueueEnable, done, Host.Outcome.next.injEq] at h
  subst h
  simp [-List.foldl_cons, -List.foldl_nil]

@[simp] theorem State.queueDisable_hide (m : Nat) (hm : 129 &&& m = 129) : ∀ a0 a1, (State.queueDisable a0 a1).hide m = a0.hide m := by
  intro a0 a1
  refine hide_mono ?_ hm
  unfold State.queueDisable
  simp [-List.foldl_cons, -List.foldl_nil]

theorem execQueueDisable_hide : ∀ a0 a1 t, execQueueDisable a0 a1 = .next t → t.hide 129 = a1.hide 129 := by
  intro a0 a1 t h
  simp only [execQueueDisable, done, Host.Outcome.next.injEq] at h
  subst h
  simp [-List.foldl_cons, -List.foldl_nil]

@[simp] theorem State.queueWord_hide (m : Nat) (hm : 129 &&& m = 129) : ∀ a0 a1 a2 a3, (State.queueWord a0 a1 a2 a3).hide m = a0.hide m := by
  intro a0 a1 a2 a3
  refine hide_mono ?_ hm
  unfold State.queueWord
  simp [-List.foldl_cons, -List.foldl_nil]

@[simp] theorem State.queueWrite_hide (m : Nat) (hm : 129 &&& m = 129) : ∀ a0 a1 a2, (State.queueWrite a0 a1 a2).1.hide m = a0.hide m := by
  intro a0 a1 a2
  refine hide_mono ?_ hm
  have e1 : ∀ (x : State) q, (x.pairRefused q).hide 129 = x.hide 129 := fun x q => State.pairRefused_hide _ rfl ..
  have e2 : ∀ (x : State) q w v, (x.queueWord q w v).hide 129 = x.hide 129 := fun x q w v => State.queueWord_hide _ rfl ..
  unfold State.queueWrite
  dsimp only
  split
  · rfl
  · refine foldl_fst_hide _ _ _ _ (fun t x => ?_)
    dsimp only
    split
    · exact e1 ..
    · refine foldl_hide _ _ _ _ (fun u w => ?_)
      split
      · exact e2 ..
      · rfl

@[simp] theorem State.doorbell_hide (m : Nat) (hm : 129 &&& m = 129) : ∀ a0 a1 a2 a3, (State.doorbell a0 a1 a2 a3).1.hide m = a0.hide m := by
  intro a0 a1 a2 a3
  refine hide_mono ?_ hm
  unfold State.doorbell
  simp [-List.foldl_cons, -List.foldl_nil]

@[simp] theorem State.entryDone_hide (m : Nat) (hm : 49629 &&& m = 49629) : ∀ a0 a1 a2 a3 a4 a5, (State.entryDone a0 a1 a2 a3 a4 a5).hide m = a0.hide m := by
  intro a0 a1 a2 a3 a4 a5
  refine hide_mono ?_ hm
  unfold State.entryDone
  simp [-List.foldl_cons, -List.foldl_nil]

@[simp] theorem State.engineRead_hide (m : Nat) (hm : 49629 &&& m = 49629) : ∀ a0 a1 a2 a3, (State.engineRead a0 a1 a2 a3).s.hide m = a0.hide m := by
  intro a0 a1 a2 a3
  refine hide_mono ?_ hm
  unfold State.engineRead
  simp [-List.foldl_cons, -List.foldl_nil]

@[simp] theorem State.takeTurn_hide (m : Nat) (hm : 128 &&& m = 128) : ∀ a0 a1, (State.takeTurn a0 a1).hide m = a0.hide m := by
  intro a0 a1
  refine hide_mono ?_ hm
  unfold State.takeTurn
  simp [-List.foldl_cons, -List.foldl_nil]

@[simp] theorem State.submissionStart_hide (m : Nat) (hm : 49629 &&& m = 49629) : ∀ a0 a1, (State.submissionStart a0 a1).hide m = a0.hide m := by
  intro a0 a1
  refine hide_mono ?_ hm
  unfold State.submissionStart
  simp [-List.foldl_cons, -List.foldl_nil]

theorem execSubmissionStart_hide : ∀ a0 a1 t, execSubmissionStart a0 a1 = .next t → t.hide 49629 = a1.hide 49629 := by
  intro a0 a1 t h
  simp only [execSubmissionStart, done, Host.Outcome.next.injEq] at h
  subst h
  simp [-List.foldl_cons, -List.foldl_nil]

@[simp] theorem State.hostStore_hide (m : Nat) (hm : 49629 &&& m = 49629) : ∀ a0 a1 a2 a3, (State.hostStore a0 a1 a2 a3).s.hide m = a0.hide m := by
  intro a0 a1 a2 a3
  refine hide_mono ?_ hm
  unfold State.hostStore
  (repeat' split) <;> simp [-List.foldl_cons, -List.foldl_nil]

@[simp] theorem State.sqNop_hide (m : Nat) (hm : 49629 &&& m = 49629) : ∀ a0 a1 a2, (State.sqNop a0 a1 a2).hide m = a0.hide m := by
  intro a0 a1 a2
  refine hide_mono ?_ hm
  unfold State.sqNop
  (repeat' split) <;> simp [-List.foldl_cons, -List.foldl_nil]

theorem execSqNop_hide : ∀ a0 a1 a2 t, execSqNop a0 a1 a2 = .next t → t.hide 49629 = a2.hide 49629 := by
  intro a0 a1 a2 t h
  simp only [execSqNop, done, Host.Outcome.next.injEq] at h
  subst h
  simp [-List.foldl_cons, -List.foldl_nil]

@[simp] theorem State.sqFence_hide (m : Nat) (hm : 49629 &&& m = 49629) : ∀ a0 a1 a2, (State.sqFence a0 a1 a2).hide m = a0.hide m := by
  intro a0 a1 a2
  refine hide_mono ?_ hm
  unfold State.sqFence
  (repeat' split) <;> simp [-List.foldl_cons, -List.foldl_nil]

theorem execSqFence_hide : ∀ a0 a1 a2 t, execSqFence a0 a1 a2 = .next t → t.hide 49629 = a2.hide 49629 := by
  intro a0 a1 a2 t h
  simp only [execSqFence, done, Host.Outcome.next.injEq] at h
  subst h
  simp [-List.foldl_cons, -List.foldl_nil]

@[simp] theorem State.entryStore_hide (m : Nat) (hm : 49629 &&& m = 49629) : ∀ a0 a1 a2 a3 a4 a5, (State.entryStore a0 a1 a2 a3 a4 a5).hide m = a0.hide m := by
  intro a0 a1 a2 a3 a4 a5
  refine hide_mono ?_ hm
  unfold State.entryStore
  (repeat' split) <;> simp [-List.foldl_cons, -List.foldl_nil]

@[simp] theorem State.sqCopy_hide (m : Nat) (hm : 49629 &&& m = 49629) : ∀ a0 a1 a2, (State.sqCopy a0 a1 a2).hide m = a0.hide m := by
  intro a0 a1 a2
  refine hide_mono ?_ hm
  unfold State.sqCopy
  (repeat' split) <;> simp [-List.foldl_cons, -List.foldl_nil]

theorem execCopy_hide : ∀ a0 a1 a2 t, execCopy a0 a1 a2 = .next t → t.hide 49629 = a2.hide 49629 := by
  intro a0 a1 a2 t h
  simp only [execCopy, done, Host.Outcome.next.injEq] at h
  subst h
  simp [-List.foldl_cons, -List.foldl_nil]

@[simp] theorem State.sqFill_hide (m : Nat) (hm : 49629 &&& m = 49629) : ∀ a0 a1 a2, (State.sqFill a0 a1 a2).hide m = a0.hide m := by
  intro a0 a1 a2
  refine hide_mono ?_ hm
  unfold State.sqFill
  (repeat' split) <;> simp [-List.foldl_cons, -List.foldl_nil]

theorem execFill_hide : ∀ a0 a1 a2 t, execFill a0 a1 a2 = .next t → t.hide 49629 = a2.hide 49629 := by
  intro a0 a1 a2 t h
  simp only [execFill, done, Host.Outcome.next.injEq] at h
  subst h
  simp [-List.foldl_cons, -List.foldl_nil]

@[simp] theorem State.sqDigest_hide (m : Nat) (hm : 49629 &&& m = 49629) : ∀ a0 a1 a2, (State.sqDigest a0 a1 a2).hide m = a0.hide m := by
  intro a0 a1 a2
  refine hide_mono ?_ hm
  unfold State.sqDigest
  (repeat' split) <;> simp [-List.foldl_cons, -List.foldl_nil]

theorem execDigest_hide : ∀ a0 a1 a2 t, execDigest a0 a1 a2 = .next t → t.hide 49629 = a2.hide 49629 := by
  intro a0 a1 a2 t h
  simp only [execDigest, done, Host.Outcome.next.injEq] at h
  subst h
  simp [-List.foldl_cons, -List.foldl_nil]

@[simp] theorem State.zeroUnits_hide (m : Nat) (hm : 49152 &&& m = 49152) : ∀ a0 a1, (State.zeroUnits a0 a1).hide m = a0.hide m := by
  intro a0 a1
  refine hide_mono ?_ hm
  unfold State.zeroUnits
  simp [-List.foldl_cons, -List.foldl_nil]

@[simp] theorem State.writeCodeMap_hide (m : Nat) (hm : 16385 &&& m = 16385) : ∀ a0 a1, (State.writeCodeMap a0 a1).hide m = a0.hide m := by
  intro a0 a1
  refine hide_mono ?_ hm
  unfold State.writeCodeMap
  exact (foldl_hide _ _ _ _ (fun t x => State.recode_hide _ rfl ..)).trans (foldl_hide _ _ _ _ (fun t x => State.setReg_hide _ rfl ..))

@[simp] theorem State.loadJournal_hide (m : Nat) (hm : 49281 &&& m = 49281) : ∀ a0 a1 a2, (State.loadJournal a0 a1 a2).hide m = a0.hide m := by
  intro a0 a1 a2
  refine hide_mono ?_ hm
  unfold State.loadJournal
  (repeat' split) <;> simp [-List.foldl_cons, -List.foldl_nil]

@[simp] theorem State.loseInterrupted_hide (m : Nat) (hm : 49281 &&& m = 49281) : ∀ a0 a1 a2, (State.loseInterrupted a0 a1 a2).hide m = a0.hide m := by
  intro a0 a1 a2
  refine hide_mono ?_ hm
  unfold State.loseInterrupted
  simp [-List.foldl_cons, -List.foldl_nil]

@[simp] theorem State.endTruncated_hide (m : Nat) (hm : 49629 &&& m = 49629) : ∀ a0 a1, (State.endTruncated a0 a1).hide m = a0.hide m := by
  intro a0 a1
  refine hide_mono ?_ hm
  unfold State.endTruncated
  (repeat' split) <;> simp [-List.foldl_cons, -List.foldl_nil]

@[simp] theorem State.loadJournals_hide (m : Nat) (hm : 49629 &&& m = 49629) : ∀ a0 a1 a2, (State.loadJournals a0 a1 a2).hide m = a0.hide m := by
  intro a0 a1 a2
  refine hide_mono ?_ hm
  unfold State.loadJournals
  simp [-List.foldl_cons, -List.foldl_nil]

@[simp] theorem State.loadLimits_hide (m : Nat) (hm : 1 &&& m = 1) : ∀ a0 a1, (State.loadLimits a0 a1).hide m = a0.hide m := by
  intro a0 a1
  refine hide_mono ?_ hm
  unfold State.loadLimits
  simp [-List.foldl_cons, -List.foldl_nil]

@[simp] theorem State.preload_hide (m : Nat) (hm : 49629 &&& m = 49629) : ∀ a0 a1, (State.preload a0 a1).hide m = a0.hide m := by
  intro a0 a1
  refine hide_mono ?_ hm
  unfold State.preload
  simp [-List.foldl_cons, -List.foldl_nil]

@[simp] theorem State.takePlan_hide (m : Nat) (hm : 68 &&& m = 68) : ∀ a0 a1, (State.takePlan a0 a1).hide m = a0.hide m := by
  intro a0 a1
  refine hide_mono ?_ hm
  rfl

@[simp] theorem State.meetPeers_hide (m : Nat) (hm : 4288 &&& m = 4288) : ∀ a0 a1, (State.meetPeers a0 a1).hide m = a0.hide m := by
  intro a0 a1
  refine hide_mono ?_ hm
  unfold State.meetPeers
  simp [-List.foldl_cons, -List.foldl_nil]

@[simp] theorem State.accept_hide (m : Nat) (hm : 53725 &&& m = 53725) : ∀ a0 a1, (State.accept a0 a1).hide m = a0.hide m := by
  intro a0 a1
  refine hide_mono ?_ hm
  unfold State.accept
  simp [-List.foldl_cons, -List.foldl_nil]

@[simp] theorem State.planLoad_hide (m : Nat) (hm : 53725 &&& m = 53725) : ∀ a0 a1 a2, (State.planLoad a0 a1 a2).hide m = a0.hide m := by
  intro a0 a1 a2
  refine hide_mono ?_ hm
  unfold State.planLoad
  try dsimp only
  (repeat' split) <;> simp [-List.foldl_cons, -List.foldl_nil]

theorem execPlanLoad_hide : ∀ a0 a1 a2 t, execPlanLoad a0 a1 a2 = .next t → t.hide 53725 = a2.hide 53725 := by
  intro a0 a1 a2 t h
  simp only [execPlanLoad, done, Host.Outcome.next.injEq] at h
  subst h
  simp [-List.foldl_cons, -List.foldl_nil]

@[simp] theorem State.latchShapes_hide (m : Nat) (hm : 5 &&& m = 5) : ∀ a0, (State.latchShapes a0).hide m = a0.hide m := by
  intro a0
  refine hide_mono ?_ hm
  unfold State.latchShapes
  simp [-List.foldl_cons, -List.foldl_nil]

@[simp] theorem State.latchHp_hide (m : Nat) (hm : 5 &&& m = 5) : ∀ a0, (State.latchHp a0).hide m = a0.hide m := by
  intro a0
  refine hide_mono ?_ hm
  unfold State.latchHp
  simp [-List.foldl_cons, -List.foldl_nil]

@[simp] theorem State.armShapes_hide (m : Nat) (hm : 4 &&& m = 4) : ∀ a0 a1, (State.armShapes a0 a1).hide m = a0.hide m := by
  intro a0 a1
  refine hide_mono ?_ hm
  unfold State.armShapes
  simp [-List.foldl_cons, -List.foldl_nil]

theorem execShapeArm_hide : ∀ a0 t, execShapeArm a0 = .next t → t.hide 4 = a0.hide 4 := by
  intro a0 t h
  simp only [execShapeArm, done, Host.Outcome.next.injEq] at h
  subst h
  simp [-List.foldl_cons, -List.foldl_nil]

@[simp] theorem State.armHp_hide (m : Nat) (hm : 4 &&& m = 4) : ∀ a0 a1, (State.armHp a0 a1).hide m = a0.hide m := by
  intro a0 a1
  refine hide_mono ?_ hm
  unfold State.armHp
  simp [-List.foldl_cons, -List.foldl_nil]

theorem execHpArm_hide : ∀ a0 t, execHpArm a0 = .next t → t.hide 4 = a0.hide 4 := by
  intro a0 t h
  simp only [execHpArm, done, Host.Outcome.next.injEq] at h
  subst h
  simp [-List.foldl_cons, -List.foldl_nil]

@[simp] theorem State.regainPlanes_hide (m : Nat) (hm : 193 &&& m = 193) : ∀ a0 a1, (State.regainPlanes a0 a1).hide m = a0.hide m := by
  intro a0 a1
  refine hide_mono ?_ hm
  unfold State.regainPlanes
  (repeat' split) <;> simp [-List.foldl_cons, -List.foldl_nil]

@[simp] theorem State.takeVariant_hide (m : Nat) (hm : 49629 &&& m = 49629) : ∀ a0 a1 a2, (State.takeVariant a0 a1 a2).hide m = a0.hide m := by
  intro a0 a1 a2
  refine hide_mono ?_ hm
  unfold State.takeVariant
  try dsimp only
  (repeat' split) <;> simp [-List.foldl_cons, -List.foldl_nil]

@[simp] theorem State.requestVariant_hide (m : Nat) (hm : 4 &&& m = 4) : ∀ a0 a1, (State.requestVariant a0 a1).hide m = a0.hide m := by
  intro a0 a1
  refine hide_mono ?_ hm
  unfold State.requestVariant
  simp [-List.foldl_cons, -List.foldl_nil]

theorem execVariantRequest_hide : ∀ a0 a1 t, execVariantRequest a0 a1 = .next t → t.hide 4 = a1.hide 4 := by
  intro a0 a1 t h
  simp only [execVariantRequest, done, Host.Outcome.next.injEq] at h
  subst h
  simp [-List.foldl_cons, -List.foldl_nil]

@[simp] theorem State.startStep_hide (m : Nat) (hm : 49661 &&& m = 49661) : ∀ a0 a1 a2 a3 a4, (State.startStep a0 a1 a2 a3 a4).hide m = a0.hide m := by
  intro a0 a1 a2 a3 a4
  refine hide_mono ?_ hm
  unfold State.startStep
  extract_lets r0 r1 r fetches f1 s1 s2 s3 s4 r4 s5 s6
  have h2 : s2.hide 49661 = a0.hide 49661 := rfl
  clear_value s2
  have h3 : s3.hide 49661 = a0.hide 49661 := by
    refine Eq.trans (foldl_hide _ _ _ _ (fun t x => ?_)) h2
    split
    · exact State.setUpd_hide _ rfl ..
    · rfl
  clear_value s3
  have h4 : s4.hide 49661 = a0.hide 49661 :=
    (State.redStart_hide _ rfl ..).trans ((State.latchHp_hide _ rfl ..).trans ((State.latchShapes_hide _ rfl ..).trans h3))
  clear_value s4
  have h5 : s5.hide 49661 = a0.hide 49661 := Eq.trans rfl h4
  clear_value s5
  exact (State.takeVariant_hide _ rfl ..).trans ((State.regainPlanes_hide _ rfl ..).trans h5)

@[simp] theorem State.runStart_hide (m : Nat) (hm : 49661 &&& m = 49661) : ∀ a0, (State.runStart a0).1.hide m = a0.hide m := by
  intro a0
  refine hide_mono ?_ hm
  unfold State.runStart
  (repeat' split) <;> simp [-List.foldl_cons, -List.foldl_nil]

theorem execRunStart_hide : ∀ a0 t, execRunStart a0 = .next t → t.hide 49661 = a0.hide 49661 := by
  intro a0 t h
  simp only [execRunStart, done, Host.Outcome.next.injEq] at h
  subst h
  simp [-List.foldl_cons, -List.foldl_nil]

@[simp] theorem State.runEnd_hide (m : Nat) (hm : 4 &&& m = 4) : ∀ a0, (State.runEnd a0).hide m = a0.hide m := by
  intro a0
  refine hide_mono ?_ hm
  unfold State.runEnd
  simp [-List.foldl_cons, -List.foldl_nil]

theorem execRunEnd_hide : ∀ a0 t, execRunEnd a0 = .next t → t.hide 4 = a0.hide 4 := by
  intro a0 t h
  simp only [execRunEnd, done, Host.Outcome.next.injEq] at h
  subst h
  simp [-List.foldl_cons, -List.foldl_nil]

@[simp] theorem State.abort_hide (m : Nat) (hm : 49629 &&& m = 49629) : ∀ a0, (State.abort a0).1.hide m = a0.hide m := by
  intro a0
  refine hide_mono ?_ hm
  unfold State.abort
  simp [-List.foldl_cons, -List.foldl_nil]

theorem execAbort_hide : ∀ a0 t, execAbort a0 = .next t → t.hide 49629 = a0.hide 49629 := by
  intro a0 t h
  simp only [execAbort, done, Host.Outcome.next.injEq] at h
  subst h
  simp [-List.foldl_cons, -List.foldl_nil]

@[simp] theorem State.retryArm_hide (m : Nat) (hm : 49661 &&& m = 49661) : ∀ a0 a1, (State.retryArm a0 a1).1.hide m = a0.hide m := by
  intro a0 a1
  refine hide_mono ?_ hm
  unfold State.retryArm
  try dsimp only
  (repeat' split) <;> simp [-List.foldl_cons, -List.foldl_nil]

theorem execRetryArm_hide : ∀ a0 a1 t, execRetryArm a0 a1 = .next t → t.hide 49661 = a1.hide 49661 := by
  intro a0 a1 t h
  simp only [execRetryArm, done, Host.Outcome.next.injEq] at h
  subst h
  simp [-List.foldl_cons, -List.foldl_nil]

@[simp] theorem State.sendRecords_hide (m) (hm : 192 &&& m = 192) : ∀ a0 a1 a2 a3 a4, (State.sendRecords a0 a1 a2 a3 a4).hide m = a0.hide m := by
  intro a0 a1 a2 a3; induction a3 generalizing a0 with
  | zero => intro a4; rfl
  | succ n ih =>
    intro a4
    unfold State.sendRecords
    split
    · rfl
    · dsimp only
      exact (ih _ _).trans ((State.sendRun_hide _ (sub_mask hm (by decide)) ..).trans (State.draw_hide _ (sub_mask hm (by decide)) ..))

@[simp] theorem State.compareTwins_hide (m : Nat) (hm : 193 &&& m = 193) : ∀ a0 a1 a2, (State.compareTwins a0 a1 a2).hide m = a0.hide m := by
  intro a0 a1 a2
  refine hide_mono ?_ hm
  unfold State.compareTwins
  (repeat' split) <;> simp [-List.foldl_cons, -List.foldl_nil]

@[simp] theorem State.mirrorMissing_hide (m : Nat) (hm : 49281 &&& m = 49281) : ∀ a0 a1 a2, (State.mirrorMissing a0 a1 a2).hide m = a0.hide m := by
  intro a0 a1 a2
  refine hide_mono ?_ hm
  unfold State.mirrorMissing
  simp [-List.foldl_cons, -List.foldl_nil]

@[simp] theorem State.digestSettled_hide (m : Nat) (hm : 64 &&& m = 64) : ∀ a0 a1 a2, (State.digestSettled a0 a1 a2).hide m = a0.hide m := by
  intro a0 a1 a2
  refine hide_mono ?_ hm
  unfold State.digestSettled
  simp [-List.foldl_cons, -List.foldl_nil]

@[simp] theorem State.digestMismatch_hide (m : Nat) (hm : 49629 &&& m = 49629) : ∀ a0 a1 a2, (State.digestMismatch a0 a1 a2).hide m = a0.hide m := by
  intro a0 a1 a2
  refine hide_mono ?_ hm
  unfold State.digestMismatch
  simp [-List.foldl_cons, -List.foldl_nil]

@[simp] theorem State.compareRecord_hide (m : Nat) (hm : 49629 &&& m = 49629) : ∀ a0 a1, (State.compareRecord a0 a1).hide m = a0.hide m := by
  intro a0 a1
  refine hide_mono ?_ hm
  unfold State.compareRecord
  simp [-List.foldl_cons, -List.foldl_nil]

@[simp] theorem State.earlyDigests_hide (m : Nat) (hm : 64 &&& m = 64) : ∀ a0 a1 a2, (State.earlyDigests a0 a1 a2).hide m = a0.hide m := by
  intro a0 a1 a2
  refine hide_mono ?_ hm
  unfold State.earlyDigests
  simp [-List.foldl_cons, -List.foldl_nil]

@[simp] theorem State.twinDigests_hide (m : Nat) (hm : 49629 &&& m = 49629) : ∀ a0 a1 a2, (State.twinDigests a0 a1 a2).hide m = a0.hide m := by
  intro a0 a1 a2
  refine hide_mono ?_ hm
  unfold State.twinDigests
  simp [-List.foldl_cons, -List.foldl_nil]

@[simp] theorem State.digestExpiry_hide (m : Nat) (hm : 49345 &&& m = 49345) : ∀ a0 a1 a2, (State.digestExpiry a0 a1 a2).hide m = a0.hide m := by
  intro a0 a1 a2
  refine hide_mono ?_ hm
  unfold State.digestExpiry
  (repeat' split) <;> simp [-List.foldl_cons, -List.foldl_nil]

theorem execDigestWaitExpiry_hide : ∀ a0 a1 a2 t, execDigestWaitExpiry a0 a1 a2 = .next t → t.hide 49345 = a2.hide 49345 := by
  intro a0 a1 a2 t h
  simp only [execDigestWaitExpiry, done, Host.Outcome.next.injEq] at h
  subst h
  simp [-List.foldl_cons, -List.foldl_nil]

@[simp] theorem State.twinLost_hide (m : Nat) (hm : 129 &&& m = 129) : ∀ a0, (State.twinLost a0).hide m = a0.hide m := by
  intro a0
  refine hide_mono ?_ hm
  unfold State.twinLost
  (repeat' split) <;> simp [-List.foldl_cons, -List.foldl_nil]

theorem execTwinLost_hide : ∀ a0 t, execTwinLost a0 = .next t → t.hide 129 = a0.hide 129 := by
  intro a0 t h
  simp only [execTwinLost, done, Host.Outcome.next.injEq] at h
  subst h
  simp [-List.foldl_cons, -List.foldl_nil]

@[simp] theorem State.capStep_hide (m : Nat) (hm : 645 &&& m = 645) : ∀ a0 a1, (State.capStep a0 a1).hide m = a0.hide m := by
  intro a0 a1
  refine hide_mono ?_ hm
  unfold State.capStep
  generalize capQuot = cq
  extract_lets p c d q n s1 run unmet s2
  have hq : q.2.hide 645 = a0.hide 645 := by
    simp only [q]
    cases cq a1 p c ↑(a0.reg Reg.POWER_IDLE_POWER % 4096) with
    | some q => rfl
    | none => exact State.draw_hide _ rfl ..
  have h1 : s1.hide 645 = a0.hide 645 := (State.setReg_hide 645 rfl q.2 Reg.POWER_CAP_IDLE n).trans hq
  have h2 : s2.hide 645 = a0.hide 645 := (State.passes_hide 645 rfl s1 _ _).trans h1
  refine Eq.trans (b := s2.hide 645) ?_ h2
  rfl

@[simp] theorem State.settle_hide (m : Nat) (hm : 4 &&& m = 4) : ∀ a0, (State.settle a0).hide m = a0.hide m := by
  intro a0
  refine hide_mono ?_ hm
  unfold State.settle
  simp [-List.foldl_cons, -List.foldl_nil]

@[simp] theorem State.boundaryActions_hide (m : Nat) (hm : 50141 &&& m = 50141) : ∀ a0 a1 a2, (State.boundaryActions a0 a1 a2).hide m = a0.hide m := by
  intro a0 a1 a2
  refine hide_mono ?_ hm
  unfold State.boundaryActions
  simp [-List.foldl_cons, -List.foldl_nil]

@[simp] theorem State.nextStep_hide (m : Nat) (hm : 5 &&& m = 5) : ∀ a0 a1, (State.nextStep a0 a1).hide m = a0.hide m := by
  intro a0 a1
  refine hide_mono ?_ hm
  unfold State.nextStep
  simp [-List.foldl_cons, -List.foldl_nil]

@[simp] theorem State.boundary_hide (m : Nat) (hm : 50141 &&& m = 50141) : ∀ a0, (State.boundary a0).hide m = a0.hide m := by
  intro a0
  refine hide_mono ?_ hm
  unfold State.boundary
  try dsimp only
  (repeat' split) <;> simp [-List.foldl_cons, -List.foldl_nil]

theorem execStepBoundary_hide : ∀ a0 t, execStepBoundary a0 = .next t → t.hide 50141 = a0.hide 50141 := by
  intro a0 t h
  simp only [execStepBoundary, done, Host.Outcome.next.injEq] at h
  subst h
  simp [-List.foldl_cons, -List.foldl_nil]

end Sys2Proof.Machine
end

