-- ==== Sys2Proof/Laws/FrameControl.lean ====
section
/-! SUPPORT. What the operations of registers and control messages leave alone, one lemma each (masks: Laws/Frame.lean). -/

namespace Sys2Proof.Machine

@[simp] theorem State.readReg_hide (m : Nat) (hm : 1 &&& m = 1) : ∀ a0 a1, (State.readReg a0 a1).2.hide m = a0.hide m := by
  intro a0 a1
  refine hide_mono ?_ hm
  unfold State.readReg
  simp [-List.foldl_cons, -List.foldl_nil]

theorem execReadClearField_hide : ∀ a0 a1 t, execReadClearField a0 a1 = .next t → t.hide 1 = a1.hide 1 := by
  intro a0 a1 t h
  simp only [execReadClearField, done, Host.Outcome.next.injEq] at h
  subst h
  simp [-List.foldl_cons, -List.foldl_nil]

theorem execPhaseLoRead_hide : ∀ a0 t, execPhaseLoRead a0 = .next t → t.hide 1 = a0.hide 1 := by
  intro a0 t h
  simp only [execPhaseLoRead, done, Host.Outcome.next.injEq] at h
  subst h
  simp [-List.foldl_cons, -List.foldl_nil]

@[simp] theorem State.writePlain_hide (m : Nat) (hm : 129 &&& m = 129) : ∀ a0 a1 a2, (State.writePlain a0 a1 a2).1.hide m = a0.hide m := by
  intro a0 a1 a2
  refine hide_mono ?_ hm
  unfold State.writePlain
  (repeat' split) <;> simp [-List.foldl_cons, -List.foldl_nil]

@[simp] theorem State.ignored_hide (m : Nat) (hm : 129 &&& m = 129) : ∀ a0 a1, (State.ignored a0 a1).1.hide m = a0.hide m := by
  intro a0 a1
  refine hide_mono ?_ hm
  unfold State.ignored
  simp [-List.foldl_cons, -List.foldl_nil]

@[simp] theorem State.clearCounters_hide (m : Nat) (hm : 1 &&& m = 1) : ∀ a0 a1 a2, (State.clearCounters a0 a1 a2).hide m = a0.hide m := by
  intro a0 a1 a2
  refine hide_mono ?_ hm
  unfold State.clearCounters
  simp [-List.foldl_cons, -List.foldl_nil]

theorem execClearCounters_hide : ∀ a0 a1 t, execClearCounters a0 a1 = .next t → t.hide 1 = a1.hide 1 := by
  intro a0 a1 t h
  simp only [execClearCounters, done, Host.Outcome.next.injEq] at h
  subst h
  simp [-List.foldl_cons, -List.foldl_nil]

@[simp] theorem State.clearLatch_hide (m : Nat) (hm : 1 &&& m = 1) : ∀ a0 a1 a2 a3, (State.clearLatch a0 a1 a2 a3).hide m = a0.hide m := by
  intro a0 a1 a2 a3
  refine hide_mono ?_ hm
  unfold State.clearLatch
  simp [-List.foldl_cons, -List.foldl_nil]

theorem execEventLatchClear_hide : ∀ a0 a1 a2 t, execEventLatchClear a0 a1 a2 = .next t → t.hide 1 = a2.hide 1 := by
  intro a0 a1 a2 t h
  simp only [execEventLatchClear, done, Host.Outcome.next.injEq] at h
  subst h
  simp [-List.foldl_cons, -List.foldl_nil]

@[simp] theorem State.pailConfig_hide (m : Nat) (hm : 1 &&& m = 1) : ∀ a0 a1 a2 a3, (State.pailConfig a0 a1 a2 a3).hide m = a0.hide m := by
  intro a0 a1 a2 a3
  refine hide_mono ?_ hm
  unfold State.pailConfig
  simp [-List.foldl_cons, -List.foldl_nil]

theorem execPailConfigWrite_hide : ∀ a0 a1 a2 t, execPailConfigWrite a0 a1 a2 = .next t → t.hide 1 = a2.hide 1 := by
  intro a0 a1 a2 t h
  simp only [execPailConfigWrite, done, Host.Outcome.next.injEq] at h
  subst h
  simp [-List.foldl_cons, -List.foldl_nil]

@[simp] theorem State.armFlip_hide (m : Nat) (hm : 129 &&& m = 129) : ∀ a0 a1 a2 a3, (State.armFlip a0 a1 a2 a3).1.hide m = a0.hide m := by
  intro a0 a1 a2 a3
  refine hide_mono ?_ hm
  unfold State.armFlip
  simp [-List.foldl_cons, -List.foldl_nil]

theorem execFlipMaskArm_hide : ∀ a0 a1 a2 t, execFlipMaskArm a0 a1 a2 = .next t → t.hide 129 = a2.hide 129 := by
  intro a0 a1 a2 t h
  simp only [execFlipMaskArm, done, Host.Outcome.next.injEq] at h
  subst h
  simp [-List.foldl_cons, -List.foldl_nil]

@[simp] theorem State.codeRegionWrite_hide (m : Nat) (hm : 16513 &&& m = 16513) : ∀ a0 a1 a2 a3, (State.codeRegionWrite a0 a1 a2 a3).1.hide m = a0.hide m := by
  intro a0 a1 a2 a3
  refine hide_mono ?_ hm
  unfold State.codeRegionWrite
  extract_lets a w meets
  split
  · exact State.ignored_hide _ rfl ..
  · dsimp only
    rw [State.recode_hide _ rfl, State.setReg_hide _ rfl]

theorem execCodeRegionWordWrite_hide : ∀ a0 a1 a2 a3 t, execCodeRegionWordWrite a0 a1 a2 a3 = .next t → t.hide 16513 = a3.hide 16513 := by
  intro a0 a1 a2 a3 t h
  simp only [execCodeRegionWordWrite, done, Host.Outcome.next.injEq] at h
  subst h
  simp [-List.foldl_cons, -List.foldl_nil]

@[simp] theorem State.cmdSubmit_hide (m : Nat) (hm : 153 &&& m = 153) : ∀ a0 a1 a2, (State.cmdSubmit a0 a1 a2).1.hide m = a0.hide m := by
  intro a0 a1 a2
  refine hide_mono ?_ hm
  unfold State.cmdSubmit
  simp [-List.foldl_cons, -List.foldl_nil]

theorem execSepCmdSubmit_hide : ∀ a0 a1 t, execSepCmdSubmit a0 a1 = .next t → t.hide 153 = a1.hide 153 := by
  intro a0 a1 t h
  simp only [execSepCmdSubmit, done, Host.Outcome.next.injEq] at h
  subst h
  simp [-List.foldl_cons, -List.foldl_nil]

theorem execUpdCmdSubmit_hide : ∀ a0 a1 t, execUpdCmdSubmit a0 a1 = .next t → t.hide 153 = a1.hide 153 := by
  intro a0 a1 t h
  simp only [execUpdCmdSubmit, done, Host.Outcome.next.injEq] at h
  subst h
  simp [-List.foldl_cons, -List.foldl_nil]

@[simp] theorem State.portConfig_hide (m : Nat) (hm : 193 &&& m = 193) : ∀ a0 a1 a2, (State.portConfig a0 a1 a2).1.hide m = a0.hide m := by
  intro a0 a1 a2
  refine hide_mono ?_ hm
  unfold State.portConfig
  simp [-List.foldl_cons, -List.foldl_nil]

theorem execPortConfigWrite_hide : ∀ a0 a1 a2 t, execPortConfigWrite a0 a1 a2 = .next t → t.hide 193 = a2.hide 193 := by
  intro a0 a1 a2 t h
  simp only [execPortConfigWrite, done, Host.Outcome.next.injEq] at h
  subst h
  simp [-List.foldl_cons, -List.foldl_nil]

@[simp] theorem State.numberWrite_hide (m : Nat) (hm : 4801 &&& m = 4801) : ∀ a0 a1, (State.numberWrite a0 a1).1.hide m = a0.hide m := by
  intro a0 a1
  refine hide_mono ?_ hm
  unfold State.numberWrite
  simp [-List.foldl_cons, -List.foldl_nil]

theorem execModuleNumberWrite_hide : ∀ a0 a1 t, execModuleNumberWrite a0 a1 = .next t → t.hide 4801 = a1.hide 4801 := by
  intro a0 a1 t h
  simp only [execModuleNumberWrite, done, Host.Outcome.next.injEq] at h
  subst h
  simp [-List.foldl_cons, -List.foldl_nil]

@[simp] theorem whenBit_hide (m) : ∀ a0 a1 (a2 : State → State × Bool) a3, (∀ t, (a2 t).1.hide m = t.hide m) →
    (whenBit a0 a1 a2 a3).1.hide m = a3.1.hide m := by
  intro a0 a1 a2 a3 h; unfold whenBit; split
  · exact h _
  · rfl

@[simp] theorem quiet_hide (m) : ∀ a0 a1, (∀ t, (a0 t).hide m = t.hide m) → (quiet a0 a1).1.hide m = a1.hide m := by
  intro a0 a1 h; exact h _

@[simp] theorem State.runControlWrite_hide (m : Nat) (hm : 49661 &&& m = 49661) : ∀ a0 a1, (State.runControlWrite a0 a1).1.hide m = a0.hide m := by
  intro a0 a1
  refine hide_mono ?_ hm
  unfold State.runControlWrite
  simp [-List.foldl_cons, -List.foldl_nil]

@[simp] theorem State.writePhase_hide (m : Nat) (hm : 49661 &&& m = 49661) : ∀ a0 a1 a2, (State.writePhase a0 a1 a2).1.hide m = a0.hide m := by
  intro a0 a1 a2
  refine hide_mono ?_ hm
  unfold State.writePhase
  simp [-List.foldl_cons, -List.foldl_nil]

@[simp] theorem State.writeSystem_hide (m : Nat) (hm : 51165 &&& m = 51165) : ∀ a0 a1 a2, (State.writeSystem a0 a1 a2).1.hide m = a0.hide m := by
  intro a0 a1 a2
  refine hide_mono ?_ hm
  unfold State.writeSystem
  split
  · exact State.safeRelease_hide _ rfl ..
  · split
    · exact whenBit_hide _ _ _ _ _ (fun t => State.stopRequest_hide _ rfl ..)
    · split
      · exact (whenBit_hide _ _ _ _ _ (fun t => State.restoreAbort_hide _ rfl ..)).trans
          (whenBit_hide _ _ _ _ _ (fun t => State.restoreStart_hide _ rfl ..))
      · split
        · exact (whenBit_hide _ _ _ _ _ (fun t => State.userClearAll_hide _ rfl ..)).trans
            ((whenBit_hide _ _ _ _ _ (fun t => State.userClear_hide _ rfl ..)).trans
              (whenBit_hide _ _ _ _ _ (fun t => State.userSet_hide _ rfl ..)))
        · exact State.writePlain_hide _ rfl ..

@[simp] theorem State.writeBoot_hide (m : Nat) (hm : 55261 &&& m = 55261) : ∀ a0 a1 a2 a3, (State.writeBoot a0 a1 a2 a3).1.hide m = a0.hide m := by
  intro a0 a1 a2 a3
  refine hide_mono ?_ hm
  unfold State.writeBoot
  split
  · exact State.ignored_hide _ rfl ..
  · split
    · exact State.stageAppend_hide _ rfl ..
    · split
      · exact whenBit_hide _ _ _ _ _ (fun t => State.parlourCommit_hide _ rfl ..)
      · split
        · exact whenBit_hide _ _ _ _ _ (fun t => State.parlourActivate_hide _ rfl ..)
        · split
          · exact State.activateArm_hide _ rfl ..
          · split
            · exact whenBit_hide _ _ _ _ _ (fun t => State.activateCancel_hide _ rfl ..)
            · split
              · exact State.svnCommit_hide _ rfl ..
              · split
                · exact whenBit_hide _ _ _ _ _ (fun t => State.stageStart_hide _ rfl ..)
                · split
                  · exact (whenBit_hide _ _ _ _ _ (fun t => State.unbindCmd_hide _ rfl ..)).trans
                      (whenBit_hide _ _ _ _ _ (fun t => State.bindCmd_hide _ rfl ..))
                  · split
                    · exact (whenBit_hide _ _ _ _ _ (fun t => State.anchorClear_hide _ rfl ..)).trans
                        (whenBit_hide _ _ _ _ _ (fun t => State.anchorSet_hide _ rfl ..))
                    · exact State.writePlain_hide _ rfl ..

@[simp] theorem State.writePage0_hide (m : Nat) (hm : 129 &&& m = 129) : ∀ a0 a1 a2, (State.writePage0 a0 a1 a2).1.hide m = a0.hide m := by
  intro a0 a1 a2
  refine hide_mono ?_ hm
  unfold State.writePage0
  simp [-List.foldl_cons, -List.foldl_nil]

@[simp] theorem State.writeReg_hide (m : Nat) (hm : 55293 &&& m = 55293) : ∀ a0 a1 a2 a3, (State.writeReg a0 a1 a2 a3).1.hide m = a0.hide m := by
  intro a0 a1 a2 a3
  refine hide_mono ?_ hm
  unfold State.writeReg
  extract_lets cls inst page off
  have hp : (a0.writePlain a2 a3).1.hide 55293 = a0.hide 55293 := State.writePlain_hide _ rfl ..
  have hs : (a0.writeSystem a2 a3).1.hide 55293 = a0.hide 55293 := State.writeSystem_hide _ rfl ..
  clear_value cls inst page off
  split
  · rfl
  split
  · rfl
  split
  · exact State.writePage0_hide _ rfl ..
  split
  · split
    · exact State.codeRegionWrite_hide _ rfl ..
    · exact hp
  · split
    · exact whenBit_hide _ _ _ _ _ (fun t => State.cmdSubmit_hide _ rfl ..)
    · split
      · exact State.armHp_hide _ rfl ..
      · split
        · exact State.snapRequest_hide _ rfl ..
        · exact hp
  · split
    · exact whenBit_hide _ _ _ _ _ (fun t => State.cmdSubmit_hide _ rfl ..)
    · exact hp
  · split
    · exact State.portConfig_hide _ rfl ..
    · exact hp
  · split
    · exact State.numberWrite_hide _ rfl ..
    · split
      · rfl
      · exact hp
  · split
    · exact whenBit_hide _ _ _ _ _ (fun t => State.ackIdentity_hide _ rfl ..)
    · exact hp
  · exact State.writePhase_hide _ rfl ..
  · exact hs
  · exact hs
  · exact hs
  · exact State.writeBoot_hide _ rfl ..
  · exact hp

theorem execPlainRegisterWrite_hide : ∀ a0 a1 a2 t, execPlainRegisterWrite a0 a1 a2 = .next t → t.hide 55293 = a2.hide 55293 := by
  intro a0 a1 a2 t h
  simp only [execPlainRegisterWrite, done, Host.Outcome.next.injEq] at h
  subst h
  simp [-List.foldl_cons, -List.foldl_nil]

@[simp] theorem State.sendReply_hide (m : Nat) (hm : 4288 &&& m = 4288) : ∀ a0 a1 a2 a3 a4, (State.sendReply a0 a1 a2 a3 a4).hide m = a0.hide m := by
  intro a0 a1 a2 a3 a4
  refine hide_mono ?_ hm
  unfold State.sendReply
  simp [-List.foldl_cons, -List.foldl_nil]

@[simp] theorem State.bumpQmgr_hide (m : Nat) (hm : 1 &&& m = 1) : ∀ a0 a1, (State.bumpQmgr a0 a1).hide m = a0.hide m := by
  intro a0 a1
  refine hide_mono ?_ hm
  unfold State.bumpQmgr
  simp [-List.foldl_cons, -List.foldl_nil]

@[simp] theorem State.serve_hide (m) (hm : 4289 &&& m = 4289) : ∀ a0 a1 a2 a3 a4, (∀ t, (a4 t).s.hide m = t.hide m) →
    (State.serve a0 a1 a2 a3 a4).hide m = a0.hide m := by
  intro a0 a1 a2 a3 a4 h
  have e1 : ∀ (x : State) f o r a, (x.sendReply f o r a).hide m = x.hide m := fun x f o r a => State.sendReply_hide m (sub_mask hm (by decide)) ..
  have e2 : ∀ (x : State) r, (x.bumpQmgr r).hide m = x.hide m := fun x r => State.bumpQmgr_hide m (sub_mask hm (by decide)) ..
  have e3 : ∀ (x : State), x.draw.2.hide m = x.hide m := fun x => State.draw_hide m (sub_mask hm (by decide)) ..
  unfold State.serve
  split
  · rfl
  · split
    · exact (e1 ..).trans (e3 _)
    · split
      · exact (e1 ..).trans (e2 ..)
      · refine (e1 ..).trans ?_
        split
        · exact (e2 ..).trans (h _)
        · exact h _

@[simp] theorem State.badOpcode_hide (m : Nat) (hm : 0 &&& m = 0) : ∀ a0, (State.badOpcode a0).s.hide m = a0.hide m := by
  intro a0
  refine hide_mono ?_ hm
  unfold State.badOpcode
  simp [-List.foldl_cons, -List.foldl_nil]

@[simp] theorem State.badLength_hide (m : Nat) (hm : 0 &&& m = 0) : ∀ a0, (State.badLength a0).s.hide m = a0.hide m := by
  intro a0
  refine hide_mono ?_ hm
  unfold State.badLength
  simp [-List.foldl_cons, -List.foldl_nil]

@[simp] theorem State.badAddress_hide (m : Nat) (hm : 0 &&& m = 0) : ∀ a0 a1, (State.badAddress a0 a1).s.hide m = a0.hide m := by
  intro a0 a1
  refine hide_mono ?_ hm
  unfold State.badAddress
  simp [-List.foldl_cons, -List.foldl_nil]

@[simp] theorem State.badArgument_hide (m : Nat) (hm : 0 &&& m = 0) : ∀ a0 a1, (State.badArgument a0 a1).s.hide m = a0.hide m := by
  intro a0 a1
  refine hide_mono ?_ hm
  unfold State.badArgument
  simp [-List.foldl_cons, -List.foldl_nil]

@[simp] theorem State.readRegs_hide (m) (hm : 1 &&& m = 1) : ∀ a0 a1 a2, (State.readRegs a0 a1 a2).1.hide m = a0.hide m := by
  intro a0 a1 a2; induction a2 generalizing a0 a1 with
  | zero => rfl
  | succ n ih => exact (ih _ _).trans (State.readReg_hide _ (sub_mask hm (by decide)) ..)

theorem State.regCheck_state : ∀ s a n k x, State.regCheck s a n k = some x → x.s = s := by
  intro s a n k x h
  unfold State.regCheck at h
  repeat' split at h
  all_goals first | (cases h; rfl) | (simp at h)

@[simp] theorem State.regReadAct_hide (m : Nat) (hm : 1 &&& m = 1) : ∀ a0 a1 a2, (State.regReadAct a0 a1 a2).s.hide m = a0.hide m := by
  intro a0 a1 a2
  refine hide_mono ?_ hm
  unfold State.regReadAct
  split
  · rename_i h; rw [State.regCheck_state _ _ _ _ _ h]
  · exact State.readRegs_hide _ rfl ..

@[simp] theorem State.messageWrite_hide (m : Nat) (hm : 55293 &&& m = 55293) : ∀ a0 a1 a2 a3, (State.messageWrite a0 a1 a2 a3).1.hide m = a0.hide m := by
  intro a0 a1 a2 a3
  refine hide_mono ?_ hm
  unfold State.messageWrite
  simp [-List.foldl_cons, -List.foldl_nil]

@[simp] theorem State.writeRegs_hide (m) (hm : 55293 &&& m = 55293) : ∀ a0 a1 a2 a3 a4, (State.writeRegs a0 a1 a2 a3 a4).1.hide m = a0.hide m := by
  intro a0 a1 a2 a3 a4; induction a4 generalizing a0 a2 a3 with
  | nil => rfl
  | cons v vs ih => exact (ih _ _ _).trans (State.messageWrite_hide _ (sub_mask hm (by decide)) ..)

@[simp] theorem ignoredAnswer_hide (m) : ∀ a0 a1 a2 a3, (ignoredAnswer a0 a1 a2 a3).s.hide m = a0.hide m := by
  intro a0 a1 a2 a3; unfold ignoredAnswer; split <;> rfl

@[simp] theorem State.regWriteAct_hide (m : Nat) (hm : 55293 &&& m = 55293) : ∀ a0 a1 a2 a3, (State.regWriteAct a0 a1 a2 a3).s.hide m = a0.hide m := by
  intro a0 a1 a2 a3
  refine hide_mono ?_ hm
  unfold State.regWriteAct
  split
  · rename_i h; rw [State.regCheck_state _ _ _ _ _ h]
  · refine Eq.trans (ignoredAnswer_hide 55293 ..) (State.writeRegs_hide _ rfl ..)

@[simp] theorem State.modifyRegs_hide (m) (hm : 55293 &&& m = 55293) : ∀ a0 a1 a2 a3 a4, (State.modifyRegs a0 a1 a2 a3 a4).1.hide m = a0.hide m := by
  intro a0 a1 a2 a3 a4; induction a4 generalizing a0 a2 a3 with
  | nil => rfl
  | cons v vs ih => exact (ih _ _ _).trans ((State.messageWrite_hide _ (sub_mask hm (by decide)) ..).trans (State.readReg_hide _ (sub_mask hm (by decide)) ..))

@[simp] theorem State.regModifyAct_hide (m : Nat) (hm : 55293 &&& m = 55293) : ∀ a0 a1 a2 a3, (State.regModifyAct a0 a1 a2 a3).s.hide m = a0.hide m := by
  intro a0 a1 a2 a3
  refine hide_mono ?_ hm
  unfold State.regModifyAct
  split
  · rename_i h; rw [State.regCheck_state _ _ _ _ _ h]
  · refine Eq.trans (ignoredAnswer_hide 55293 ..) (State.modifyRegs_hide _ rfl ..)

@[simp] theorem State.memReadAct_hide (m : Nat) (hm : 49629 &&& m = 49629) : ∀ a0 a1 a2, (State.memReadAct a0 a1 a2).s.hide m = a0.hide m := by
  intro a0 a1 a2
  refine hide_mono ?_ hm
  unfold State.memReadAct
  try dsimp only
  (repeat' split) <;> simp [-List.foldl_cons, -List.foldl_nil]

@[simp] theorem State.memStore_hide (m : Nat) (hm : 49629 &&& m = 49629) : ∀ a0 a1 a2, (State.memStore a0 a1 a2).s.hide m = a0.hide m := by
  intro a0 a1 a2
  refine hide_mono ?_ hm
  unfold State.memStore
  try dsimp only
  (repeat' split) <;> simp [-List.foldl_cons, -List.foldl_nil]

@[simp] theorem State.memWriteAct_hide (m : Nat) (hm : 49629 &&& m = 49629) : ∀ a0 a1 a2, (State.memWriteAct a0 a1 a2).s.hide m = a0.hide m := by
  intro a0 a1 a2
  refine hide_mono ?_ hm
  unfold State.memWriteAct
  try dsimp only
  (repeat' split) <;> simp [-List.foldl_cons, -List.foldl_nil]

@[simp] theorem State.doorbellAct_hide (m : Nat) (hm : 129 &&& m = 129) : ∀ a0 a1 a2 a3, (State.doorbellAct a0 a1 a2 a3).s.hide m = a0.hide m := by
  intro a0 a1 a2 a3
  refine hide_mono ?_ hm
  unfold State.doorbellAct
  simp [-List.foldl_cons, -List.foldl_nil]

@[simp] theorem State.eventFetchAct_hide (m : Nat) (hm : 128 &&& m = 128) : ∀ a0 a1 a2 a3, (State.eventFetchAct a0 a1 a2 a3).s.hide m = a0.hide m := by
  intro a0 a1 a2 a3
  refine hide_mono ?_ hm
  unfold State.eventFetchAct
  simp [-List.foldl_cons, -List.foldl_nil]

@[simp] theorem State.attestAct_hide (m : Nat) (hm : 128 &&& m = 128) : ∀ a0 a1, (State.attestAct a0 a1).s.hide m = a0.hide m := by
  intro a0 a1
  refine hide_mono ?_ hm
  unfold State.attestAct
  simp [-List.foldl_cons, -List.foldl_nil]

@[simp] theorem State.digestsAct_hide (m : Nat) (hm : 49629 &&& m = 49629) : ∀ a0 a1 a2 a3, (State.digestsAct a0 a1 a2 a3).s.hide m = a0.hide m := by
  intro a0 a1 a2 a3
  refine hide_mono ?_ hm
  unfold State.digestsAct
  simp [-List.foldl_cons, -List.foldl_nil]

theorem execNop_hide : ∀ a0 a1 t, execNop a0 a1 = .next t → t.hide 4289 = a1.hide 4289 := by
  intro a0 a1 t h
  simp only [execNop, done, Host.Outcome.next.injEq] at h
  subst h
  simp [-List.foldl_cons, -List.foldl_nil]

theorem execRegRead_hide : ∀ a0 a1 a2 a3 t, execRegRead a0 a1 a2 a3 = .next t → t.hide 4289 = a3.hide 4289 := by
  intro a0 a1 a2 a3 t h
  simp only [execRegRead, done, Host.Outcome.next.injEq] at h
  subst h
  simp [-List.foldl_cons, -List.foldl_nil]

theorem execRegWrite_hide : ∀ a0 a1 a2 a3 t, execRegWrite a0 a1 a2 a3 = .next t → t.hide 55293 = a3.hide 55293 := by
  intro a0 a1 a2 a3 t h
  simp only [execRegWrite, done, Host.Outcome.next.injEq] at h
  subst h
  simp [-List.foldl_cons, -List.foldl_nil]

theorem execRegModify_hide : ∀ a0 a1 a2 a3 t, execRegModify a0 a1 a2 a3 = .next t → t.hide 55293 = a3.hide 55293 := by
  intro a0 a1 a2 a3 t h
  simp only [execRegModify, done, Host.Outcome.next.injEq] at h
  subst h
  simp [-List.foldl_cons, -List.foldl_nil]

theorem execMemRead_hide : ∀ a0 a1 a2 a3 t, execMemRead a0 a1 a2 a3 = .next t → t.hide 53725 = a3.hide 53725 := by
  intro a0 a1 a2 a3 t h
  simp only [execMemRead, done, Host.Outcome.next.injEq] at h
  subst h
  simp [-List.foldl_cons, -List.foldl_nil]

theorem execMemWrite_hide : ∀ a0 a1 a2 a3 t, execMemWrite a0 a1 a2 a3 = .next t → t.hide 53725 = a3.hide 53725 := by
  intro a0 a1 a2 a3 t h
  simp only [execMemWrite, done, Host.Outcome.next.injEq] at h
  subst h
  simp [-List.foldl_cons, -List.foldl_nil]

theorem execDoorbellSubmissionTail_hide : ∀ a0 a1 a2 a3 t, execDoorbellSubmissionTail a0 a1 a2 a3 = .next t → t.hide 4289 = a3.hide 4289 := by
  intro a0 a1 a2 a3 t h
  simp only [execDoorbellSubmissionTail, done, Host.Outcome.next.injEq] at h
  subst h
  simp [-List.foldl_cons, -List.foldl_nil]

theorem execDoorbellCompletionHead_hide : ∀ a0 a1 a2 a3 t, execDoorbellCompletionHead a0 a1 a2 a3 = .next t → t.hide 4289 = a3.hide 4289 := by
  intro a0 a1 a2 a3 t h
  simp only [execDoorbellCompletionHead, done, Host.Outcome.next.injEq] at h
  subst h
  simp [-List.foldl_cons, -List.foldl_nil]

theorem execEventFetch_hide : ∀ a0 a1 a2 a3 a4 t, execEventFetch a0 a1 a2 a3 a4 = .next t → t.hide 4289 = a4.hide 4289 := by
  intro a0 a1 a2 a3 a4 t h
  simp only [execEventFetch, done, Host.Outcome.next.injEq] at h
  subst h
  simp [-List.foldl_cons, -List.foldl_nil]

theorem execAttest_hide : ∀ a0 a1 a2 t, execAttest a0 a1 a2 = .next t → t.hide 4289 = a2.hide 4289 := by
  intro a0 a1 a2 t h
  simp only [execAttest, done, Host.Outcome.next.injEq] at h
  subst h
  simp [-List.foldl_cons, -List.foldl_nil]

theorem execTwinDigests_hide : ∀ a0 a1 a2 a3 t, execTwinDigests a0 a1 a2 a3 = .next t → t.hide 53725 = a3.hide 53725 := by
  intro a0 a1 a2 a3 t h
  simp only [execTwinDigests, done, Host.Outcome.next.injEq] at h
  subst h
  simp [-List.foldl_cons, -List.foldl_nil]

@[simp] theorem State.messageAct_hide (m : Nat) (hm : 55293 &&& m = 55293) : ∀ a0 a1 a2, (State.messageAct a0 a1 a2).s.hide m = a2.hide m := by
  intro a0 a1 a2
  refine hide_mono ?_ hm
  unfold State.messageAct
  try dsimp only
  (repeat' split) <;> simp [-List.foldl_cons, -List.foldl_nil]

@[simp] theorem State.message_hide (m : Nat) (hm : 55293 &&& m = 55293) : ∀ a0 a1 a2, (State.message a0 a1 a2).hide m = a0.hide m := by
  intro a0 a1 a2
  refine hide_mono ?_ hm
  unfold State.message
  simp [-List.foldl_cons, -List.foldl_nil]

end Sys2Proof.Machine
end

