-- ==== Sys2Proof/Laws/FrameReceive.lean ====
section
/-! SUPPORT. What the operations of received frames, copy engines and the cycle leave alone, one lemma each (masks: Laws/Frame.lean). -/

namespace Sys2Proof.Machine

@[simp] theorem State.parityRead_hide (m : Nat) (hm : 1 &&& m = 1) : ∀ a0 a1 a2 a3, (State.parityRead a0 a1 a2 a3).1.hide m = a0.hide m := by
  intro a0 a1 a2 a3
  refine hide_mono ?_ hm
  unfold State.parityRead
  (repeat' split) <;> simp [-List.foldl_cons, -List.foldl_nil]

@[simp] theorem State.parityReads_hide (m : Nat) (hm : 1 &&& m = 1) : ∀ a0 a1, (State.parityReads a0 a1).1.hide m = a0.hide m := by
  intro a0 a1
  refine hide_mono ?_ hm
  unfold State.parityReads
  simp [-List.foldl_cons, -List.foldl_nil]

@[simp] theorem State.requestStops_hide (m : Nat) (hm : 49629 &&& m = 49629) : ∀ a0 a1 a2, (State.requestStops a0 a1 a2).hide m = a0.hide m := by
  intro a0 a1 a2
  refine hide_mono ?_ hm
  unfold State.requestStops
  (repeat' split) <;> simp [-List.foldl_cons, -List.foldl_nil]

@[simp] theorem fillRun_hide (m : Nat) (hm : 49153 &&& m = 49153) : ∀ a0 a1 a2, (fillRun a0 a1 a2).s.hide m = a1.s.hide m := by
  intro a0 a1 a2
  refine hide_mono ?_ hm
  unfold fillRun
  try dsimp only
  (repeat' split) <;> simp [-List.foldl_cons, -List.foldl_nil]

@[simp] theorem State.fillKey_hide (m : Nat) (hm : 49153 &&& m = 49153) : ∀ a0 a1 a2 a3, (State.fillKey a0 a1 a2 a3).s.hide m = a0.hide m := by
  intro a0 a1 a2 a3
  refine hide_mono ?_ hm
  unfold State.fillKey
  simp [-List.foldl_cons, -List.foldl_nil]

@[simp] theorem State.fillRows_hide (m : Nat) (hm : 49153 &&& m = 49153) : ∀ a0 a1 a2, (State.fillRows a0 a1 a2).s.hide m = a0.hide m := by
  intro a0 a1 a2
  refine hide_mono ?_ hm
  unfold State.fillRows
  simp [-List.foldl_cons, -List.foldl_nil]

@[simp] theorem State.setRx_hide (m : Nat) (hm : 64 &&& m = 64) : ∀ a0 a1, (State.setRx a0 a1).hide m = a0.hide m := by
  intro a0 a1
  refine hide_mono ?_ hm
  unfold State.setRx
  simp [-List.foldl_cons, -List.foldl_nil]

@[simp] theorem State.answer_hide (m : Nat) (hm : 64 &&& m = 64) : ∀ a0 a1 a2 a3, (State.answer a0 a1 a2 a3).hide m = a0.hide m := by
  intro a0 a1 a2 a3
  refine hide_mono ?_ hm
  unfold State.answer
  simp [-List.foldl_cons, -List.foldl_nil]

@[simp] theorem State.sendAck_hide (m : Nat) (hm : 64 &&& m = 64) : ∀ a0 a1, (State.sendAck a0 a1).hide m = a0.hide m := by
  intro a0 a1
  refine hide_mono ?_ hm
  unfold State.sendAck
  simp [-List.foldl_cons, -List.foldl_nil]

@[simp] theorem State.sendNak_hide (m : Nat) (hm : 64 &&& m = 64) : ∀ a0 a1 a2, (State.sendNak a0 a1 a2).hide m = a0.hide m := by
  intro a0 a1 a2
  refine hide_mono ?_ hm
  unfold State.sendNak
  simp [-List.foldl_cons, -List.foldl_nil]

@[simp] theorem State.spendCredit_hide (m : Nat) (hm : 64 &&& m = 64) : ∀ a0 a1 a2, (State.spendCredit a0 a1 a2).hide m = a0.hide m := by
  intro a0 a1 a2
  refine hide_mono ?_ hm
  unfold State.spendCredit
  simp [-List.foldl_cons, -List.foldl_nil]

@[simp] theorem State.advance_hide (m) (hm : 64 &&& m = 64) : ∀ (d : State → FlowId → Cargo → Delivery) p n s i, (∀ t j c, (d t j c).s.hide m = t.hide m) →
    (State.advance d p n s i).hide m = s.hide m := by
  intro d p n
  have e1 : ∀ (x : State) f, (x.setRx f).hide m = x.hide m := fun x f => State.setRx_hide m (sub_mask hm (by decide)) ..
  have e2 : ∀ (x : State) i b, (x.sendNak i b).hide m = x.hide m := fun x i b => State.sendNak_hide m (sub_mask hm (by decide)) ..
  have e3 : ∀ (x : State) i k, (x.spendCredit i k).hide m = x.hide m := fun x i k => State.spendCredit_hide m (sub_mask hm (by decide)) ..
  induction n with
  | zero => intro s i h; rfl
  | succ n ih =>
    intro s i h
    unfold State.advance
    dsimp only
    split
    · exact e1 ..
    · split
      · exact (ih _ _ h).trans ((e3 ..).trans ((e1 ..).trans (h ..)))
      · exact (e2 ..).trans ((e1 ..).trans (h ..))
      · exact (e1 ..).trans (h ..)

@[simp] theorem State.arrive_hide (m) (hm : 65 &&& m = 65) : ∀ s (d : State → FlowId → Cargo → Delivery) p i c w, (∀ t j c, (d t j c).s.hide m = t.hide m) →
    (State.arrive s d p i c w).hide m = s.hide m := by
  intro s d p i c w h
  have e0 : ∀ (x : State) r, (x.bump r).hide m = x.hide m := fun x r => State.bump_hide m (sub_mask hm (by decide)) ..
  have e1 : ∀ (x : State) f, (x.setRx f).hide m = x.hide m := fun x f => State.setRx_hide m (sub_mask hm (by decide)) ..
  have e2 : ∀ (x : State) i b, (x.sendNak i b).hide m = x.hide m := fun x i b => State.sendNak_hide m (sub_mask hm (by decide)) ..
  have e3 : ∀ (x : State) i, (x.sendAck i).hide m = x.hide m := fun x i => State.sendAck_hide m (sub_mask hm (by decide)) ..
  have e4 : ∀ k n (x : State) i, (State.advance d k n x i).hide m = x.hide m := fun k n x i => State.advance_hide m (sub_mask hm (by decide)) _ _ _ _ _ h
  unfold State.arrive
  dsimp only
  split
  · exact (e2 ..).trans (e0 ..)
  · split
    · exact (e1 ..).trans (e0 ..)
    · split
      · rfl
      · split
        · split
          · exact (e3 ..).trans ((e4 ..).trans ((e1 ..).trans (e0 ..)))
          · exact (e4 ..).trans ((e1 ..).trans (e0 ..))
        · split
          · exact (e3 ..).trans ((e4 ..).trans (e1 ..))
          · exact (e4 ..).trans (e1 ..)

@[simp] theorem State.receive_hide (m) (hm : 65 &&& m = 65) : ∀ s ty r act, (∀ t : State, (act t).hide m = t.hide m) →
    (State.receive s ty r act).hide m = s.hide m := by
  intro s ty r act h
  have e1 : ∀ (x : State) a, (x.bump a).hide m = x.hide m := fun x a => State.bump_hide _ (sub_mask hm (by decide)) ..
  have e2 : ∀ (x : State) n b p f, (x.modPeer n b p f).hide m = x.hide m := fun x n b p f => State.modPeer_hide _ (sub_mask hm (by decide)) ..
  unfold State.receive
  extract_lets p s0 s1
  have h0 : s0.hide m = s.hide m :=
    (State.bumpBy_hide _ (sub_mask hm (by decide)) ..).trans (State.bumpBy_hide _ (sub_mask hm (by decide)) ..)
  have h1 : s1.hide m = s.hide m := (e1 ..).trans h0
  clear_value s1
  split
  · rfl
  · split
    · exact (e1 ..).trans h1
    · split
      · exact (e1 ..).trans h1
      · split
        · exact (e1 ..).trans h1
        · extract_lets s2
          have h2 : s2.hide m = s.hide m := (e2 ..).trans h1
          clear_value s2
          split
          · exact (e1 ..).trans h2
          · split
            · exact (e1 ..).trans h2
            · exact (h _).trans h2

theorem State.receiveBlocks_hide (m) (hm : 65 &&& m = 65) : ∀ s ty r (d : State → FlowId → Cargo → Delivery), (∀ t j c, (d t j c).s.hide m = t.hide m) →
    (State.receiveBlocks s ty r d).hide m = s.hide m := by
  intro s ty r d h
  unfold State.receiveBlocks
  refine State.receive_hide _ hm _ _ _ _ (fun t => ?_)
  exact foldl_hide _ _ _ _ (fun u x => State.arrive_hide _ hm _ _ _ _ _ _ h)

@[simp] theorem taken_hide (m : Nat) (hm : 0 &&& m = 0) : ∀ a0, (taken a0).s.hide m = a0.hide m := by
  intro a0
  refine hide_mono ?_ hm
  unfold taken
  simp [-List.foldl_cons, -List.foldl_nil]

@[simp] theorem State.refuseRemote_hide (m : Nat) (hm : 4096 &&& m = 4096) : ∀ a0 a1 a2, (State.refuseRemote a0 a1 a2).hide m = a0.hide m := by
  intro a0 a1 a2
  refine hide_mono ?_ hm
  unfold State.refuseRemote
  simp [-List.foldl_cons, -List.foldl_nil]

@[simp] theorem State.mirrorWritten_hide (m : Nat) (hm : 53725 &&& m = 53725) : ∀ a0 a1 a2 a3, (State.mirrorWritten a0 a1 a2 a3).hide m = a0.hide m := by
  intro a0 a1 a2 a3
  refine hide_mono ?_ hm
  unfold State.mirrorWritten
  simp [-List.foldl_cons, -List.foldl_nil]

@[simp] theorem State.mirrorBlock_hide (m : Nat) (hm : 53725 &&& m = 53725) : ∀ a0 a1 a2 a3, (State.mirrorBlock a0 a1 a2 a3).hide m = a0.hide m := by
  intro a0 a1 a2 a3
  refine hide_mono ?_ hm
  unfold State.mirrorBlock
  simp [-List.foldl_cons, -List.foldl_nil]

theorem State.storeRegs_hide (m) (hm : 55293 &&& m = 55293) : ∀ s a bs t, State.storeRegs s a bs = some t → t.hide m = s.hide m := by
  intro s a bs t h
  unfold State.storeRegs at h
  extract_lets n at h
  split at h
  · injection h with h; subst h
    exact foldl_hide _ _ _ _ (fun t x => State.writeReg_hide _ hm ..)
  · cases h

@[simp] theorem State.writeBlockIn_hide (m : Nat) (hm : 55293 &&& m = 55293) : ∀ a0 a1 a2, (State.writeBlockIn a0 a1 a2).hide m = a0.hide m := by
  intro a0 a1 a2
  refine hide_mono ?_ hm
  unfold State.writeBlockIn
  extract_lets a n no ends p
  have hn : no.hide 55293 = a0.hide 55293 := State.refuseRemote_hide _ rfl ..
  have he : ∀ x : State, (ends x).hide 55293 = x.hide 55293 := fun x => by
    simp only [ends]; split
    · exact State.answer_hide _ rfl ..
    · rfl
  have hp : p.s.hide 55293 = a0.hide 55293 := State.hostStore_hide _ rfl ..
  clear_value no ends p
  split
  · exact hn
  · split
    · split
      · exact hn
      · exact (State.refuseRemote_hide _ rfl ..).trans (State.hostStore_hide _ rfl ..)
      · split
        · exact (he _).trans hp
        · exact (State.emit_hide _ rfl ..).trans hp
    · split
      · exact hn
      · split
        · exact (he _).trans (State.writeLp_hide _ rfl ..)
        · split
          · exact (he _).trans (State.mirrorBlock_hide _ rfl ..)
          · exact hn
    · split
      · rename_i h; exact (he _).trans (State.storeRegs_hide _ rfl _ _ _ _ h)
      · exact hn
    · split
      · exact (he _).trans (State.queueWrite_hide _ rfl ..)
      · exact hn
    · exact hn

@[simp] theorem State.holdRequest_hide (m : Nat) (hm : 64 &&& m = 64) : ∀ a0 a1 a2, (State.holdRequest a0 a1 a2).hide m = a0.hide m := by
  intro a0 a1 a2
  refine hide_mono ?_ hm
  unfold State.holdRequest
  simp [-List.foldl_cons, -List.foldl_nil]

@[simp] theorem State.writeRequest_hide (m : Nat) (hm : 55293 &&& m = 55293) : ∀ a0 a1 a2, (State.writeRequest a0 a1 a2).hide m = a0.hide m := by
  intro a0 a1 a2
  refine hide_mono ?_ hm
  unfold State.writeRequest
  simp [-List.foldl_cons, -List.foldl_nil]

theorem execWrite_hide : ∀ a0 a1 t, execWrite a0 a1 = .next t → t.hide 55293 = a1.hide 55293 := by
  intro a0 a1 t h
  simp only [execWrite, done, Host.Outcome.next.injEq] at h; subst h
  exact State.receiveBlocks_hide _ rfl _ _ _ _ (fun t id c => State.writeRequest_hide _ rfl ..)

@[simp] theorem State.readOwn_hide (m : Nat) (hm : 49629 &&& m = 49629) : ∀ a0 a1 a2 a3, (State.readOwn a0 a1 a2 a3).s.hide m = a0.hide m := by
  intro a0 a1 a2 a3
  refine hide_mono ?_ hm
  unfold State.readOwn
  try dsimp only
  (repeat' split) <;> simp [-List.foldl_cons, -List.foldl_nil]

@[simp] theorem State.readFor_hide (m : Nat) (hm : 49629 &&& m = 49629) : ∀ a0 a1 a2 a3, (State.readFor a0 a1 a2 a3).s.hide m = a0.hide m := by
  intro a0 a1 a2 a3
  refine hide_mono ?_ hm
  unfold State.readFor
  simp [-List.foldl_cons, -List.foldl_nil]

@[simp] theorem State.readAll_hide (m) (hm : 49629 &&& m = 49629) : ∀ a0 a1 a2, (State.readAll a0 a1 a2).s.hide m = a0.hide m := by
  intro a0 a1 a2; induction a2 generalizing a0 with
  | nil => rfl
  | cons x xs ih =>
    unfold State.readAll
    dsimp only
    split
    · exact State.readFor_hide _ (sub_mask hm (by decide)) ..
    · exact (ih _).trans (State.readFor_hide _ (sub_mask hm (by decide)) ..)

@[simp] theorem State.serveRead_hide (m : Nat) (hm : 53725 &&& m = 53725) : ∀ a0 a1 a2, (State.serveRead a0 a1 a2).hide m = a0.hide m := by
  intro a0 a1 a2
  refine hide_mono ?_ hm
  unfold State.serveRead
  try dsimp only
  (repeat' split) <;> simp [-List.foldl_cons, -List.foldl_nil]

@[simp] theorem State.readRequest_hide (m : Nat) (hm : 53725 &&& m = 53725) : ∀ a0 a1 a2, (State.readRequest a0 a1 a2).hide m = a0.hide m := by
  intro a0 a1 a2
  refine hide_mono ?_ hm
  unfold State.readRequest
  simp [-List.foldl_cons, -List.foldl_nil]

@[simp] theorem State.redBlock_hide (m : Nat) (hm : 49629 &&& m = 49629) : ∀ a0 a1 a2, (State.redBlock a0 a1 a2).s.hide m = a0.hide m := by
  intro a0 a1 a2
  refine hide_mono ?_ hm
  unfold State.redBlock
  simp [-List.foldl_cons, -List.foldl_nil]

@[simp] theorem State.redRequest_hide (m : Nat) (hm : 49629 &&& m = 49629) : ∀ a0 a1 a2 a3, (State.redRequest a0 a1 a2 a3).s.hide m = a0.hide m := by
  intro a0 a1 a2 a3
  refine hide_mono ?_ hm
  unfold State.redRequest
  simp [-List.foldl_cons, -List.foldl_nil]

@[simp] theorem State.redAgain_hide (m : Nat) (hm : 49629 &&& m = 49629) : ∀ a0 a1 a2, (State.redAgain a0 a1 a2).hide m = a0.hide m := by
  intro a0 a1 a2
  refine hide_mono ?_ hm
  unfold State.redAgain
  simp [-List.foldl_cons, -List.foldl_nil]

theorem execReduce_hide : ∀ a0 a1 t, execReduce a0 a1 = .next t → t.hide 49629 = a1.hide 49629 := by
  intro a0 a1 t h
  simp only [execReduce, done, Host.Outcome.next.injEq] at h; subst h
  exact State.receiveBlocks_hide _ rfl _ _ _ _ (fun t id c => State.redRequest_hide _ rfl ..)

@[simp] theorem State.serveHeld_hide (m : Nat) (hm : 55293 &&& m = 55293) : ∀ a0, (State.serveHeld a0).hide m = a0.hide m := by
  intro a0
  refine hide_mono ?_ hm
  unfold State.serveHeld
  simp [-List.foldl_cons, -List.foldl_nil]

theorem execRead_hide : ∀ a0 a1 t, execRead a0 a1 = .next t → t.hide 53725 = a1.hide 53725 := by
  intro a0 a1 t h
  simp only [execRead, done, Host.Outcome.next.injEq] at h
  subst h
  simp [-List.foldl_cons, -List.foldl_nil]

@[simp] theorem State.gatherBlock_hide (m : Nat) (hm : 53725 &&& m = 53725) : ∀ a0 a1 a2, (State.gatherBlock a0 a1 a2).hide m = a0.hide m := by
  intro a0 a1 a2
  refine hide_mono ?_ hm
  unfold State.gatherBlock
  simp [-List.foldl_cons, -List.foldl_nil]

theorem execGather_hide : ∀ a0 a1 t, execGather a0 a1 = .next t → t.hide 53725 = a1.hide 53725 := by
  intro a0 a1 t h
  simp only [execGather, done, Host.Outcome.next.injEq] at h; subst h
  exact State.receiveBlocks_hide _ rfl _ _ _ _ (fun t id c => State.gatherBlock_hide _ rfl ..)

@[simp] theorem State.modRemote_hide (m : Nat) (hm : 64 &&& m = 64) : ∀ a0 a1 a2, (State.modRemote a0 a1 a2).hide m = a0.hide m := by
  intro a0 a1 a2
  refine hide_mono ?_ hm
  unfold State.modRemote
  simp [-List.foldl_cons, -List.foldl_nil]

@[simp] theorem State.fetchAnswered_hide (m : Nat) (hm : 4 &&& m = 4) : ∀ a0 a1, (State.fetchAnswered a0 a1).hide m = a0.hide m := by
  intro a0 a1
  refine hide_mono ?_ hm
  unfold State.fetchAnswered
  simp [-List.foldl_cons, -List.foldl_nil]

@[simp] theorem State.fillPieces_hide (m : Nat) (hm : 49629 &&& m = 49629) : ∀ a0 a1 a2 a3 a4, (State.fillPieces a0 a1 a2 a3 a4).hide m = a0.hide m := by
  intro a0 a1 a2 a3 a4
  refine hide_mono ?_ hm
  unfold State.fillPieces
  try dsimp only
  (repeat' split) <;> simp [-List.foldl_cons, -List.foldl_nil]

@[simp] theorem State.errorAnswer_hide (m : Nat) (hm : 50141 &&& m = 50141) : ∀ a0 a1 a2 a3, (State.errorAnswer a0 a1 a2 a3).hide m = a0.hide m := by
  intro a0 a1 a2 a3
  refine hide_mono ?_ hm
  unfold State.errorAnswer
  (repeat' split) <;> simp [-List.foldl_cons, -List.foldl_nil]

@[simp] theorem State.answered_hide (m : Nat) (hm : 52189 &&& m = 52189) : ∀ a0 a1 a2, (State.answered a0 a1 a2).hide m = a0.hide m := by
  intro a0 a1 a2
  refine hide_mono ?_ hm
  unfold State.answered
  (repeat' split) <;> simp [-List.foldl_cons, -List.foldl_nil]

@[simp] theorem State.dataBlock_hide (m : Nat) (hm : 52189 &&& m = 52189) : ∀ a0 a1 a2, (State.dataBlock a0 a1 a2).hide m = a0.hide m := by
  intro a0 a1 a2
  refine hide_mono ?_ hm
  unfold State.dataBlock
  (repeat' split) <;> simp [-List.foldl_cons, -List.foldl_nil]

theorem execReadData_hide : ∀ a0 a1 t, execReadData a0 a1 = .next t → t.hide 52189 = a1.hide 52189 := by
  intro a0 a1 t h
  simp only [execReadData, done, Host.Outcome.next.injEq] at h; subst h
  split
  · exact State.receiveBlocks_hide _ rfl _ _ _ _ (fun t id c => State.dataBlock_hide _ rfl ..)
  · exact State.receive_hide _ rfl _ _ _ _ (fun t => State.errorAnswer_hide _ rfl ..)

@[simp] theorem State.writeDone_hide (m : Nat) (hm : 85 &&& m = 85) : ∀ a0 a1 a2, (State.writeDone a0 a1 a2).hide m = a0.hide m := by
  intro a0 a1 a2
  refine hide_mono ?_ hm
  unfold State.writeDone
  (repeat' split) <;> simp [-List.foldl_cons, -List.foldl_nil]

theorem execWriteDone_hide : ∀ a0 a1 t, execWriteDone a0 a1 = .next t → t.hide 50141 = a1.hide 50141 := by
  intro a0 a1 t h
  simp only [execWriteDone, done, Host.Outcome.next.injEq] at h; subst h
  refine State.receive_hide _ rfl _ _ _ _ (fun t => ?_)
  split
  · exact State.writeDone_hide _ rfl ..
  · exact State.errorAnswer_hide _ rfl ..

@[simp] theorem State.acked_hide (m : Nat) (hm : 64 &&& m = 64) : ∀ a0 a1 a2, (State.acked a0 a1 a2).hide m = a0.hide m := by
  intro a0 a1 a2
  refine hide_mono ?_ hm
  unfold State.acked
  simp [-List.foldl_cons, -List.foldl_nil]

theorem execAck_hide : ∀ a0 a1 t, execAck a0 a1 = .next t → t.hide 65 = a1.hide 65 := by
  intro a0 a1 t h
  simp only [execAck, done, Host.Outcome.next.injEq] at h
  subst h
  simp [-List.foldl_cons, -List.foldl_nil]

@[simp] theorem State.nakked_hide (m : Nat) (hm : 51165 &&& m = 51165) : ∀ a0 a1 a2 a3, (State.nakked a0 a1 a2 a3).hide m = a0.hide m := by
  intro a0 a1 a2 a3
  refine hide_mono ?_ hm
  unfold State.nakked
  simp [-List.foldl_cons, -List.foldl_nil]

theorem execNak_hide : ∀ a0 a1 t, execNak a0 a1 = .next t → t.hide 51165 = a1.hide 51165 := by
  intro a0 a1 t h
  simp only [execNak, done, Host.Outcome.next.injEq] at h
  subst h
  simp [-List.foldl_cons, -List.foldl_nil]

theorem execAckTimer_hide : ∀ a0 a1 t, execAckTimer a0 a1 = .next t → t.hide 64 = a1.hide 64 := by
  intro a0 a1 t h
  simp only [execAckTimer, done, Host.Outcome.next.injEq] at h
  subst h
  simp [-List.foldl_cons, -List.foldl_nil]

theorem execNakTimer_hide : ∀ a0 a1 t, execNakTimer a0 a1 = .next t → t.hide 64 = a1.hide 64 := by
  intro a0 a1 t h
  simp only [execNakTimer, done, Host.Outcome.next.injEq] at h
  subst h
  (repeat' split) <;> simp [-List.foldl_cons, -List.foldl_nil]

@[simp] theorem State.creditReq_hide (m : Nat) (hm : 65 &&& m = 65) : ∀ a0 a1 a2 a3, (State.creditReq a0 a1 a2 a3).hide m = a0.hide m := by
  intro a0 a1 a2 a3
  refine hide_mono ?_ hm
  unfold State.creditReq
  simp [-List.foldl_cons, -List.foldl_nil]

theorem execCreditReq_hide : ∀ a0 a1 t, execCreditReq a0 a1 = .next t → t.hide 65 = a1.hide 65 := by
  intro a0 a1 t h
  simp only [execCreditReq, done, Host.Outcome.next.injEq] at h
  subst h
  simp [-List.foldl_cons, -List.foldl_nil]

@[simp] theorem State.creditGrant_hide (m : Nat) (hm : 64 &&& m = 64) : ∀ a0 a1 a2 a3 a4, (State.creditGrant a0 a1 a2 a3 a4).hide m = a0.hide m := by
  intro a0 a1 a2 a3 a4
  refine hide_mono ?_ hm
  unfold State.creditGrant
  simp [-List.foldl_cons, -List.foldl_nil]

theorem execCreditGrant_hide : ∀ a0 a1 t, execCreditGrant a0 a1 = .next t → t.hide 65 = a1.hide 65 := by
  intro a0 a1 t h
  simp only [execCreditGrant, done, Host.Outcome.next.injEq] at h
  subst h
  simp [-List.foldl_cons, -List.foldl_nil]

@[simp] theorem State.controlBlock_hide (m : Nat) (hm : 55293 &&& m = 55293) : ∀ a0 a1 a2 a3, (State.controlBlock a0 a1 a2 a3).s.hide m = a0.hide m := by
  intro a0 a1 a2 a3
  refine hide_mono ?_ hm
  unfold State.controlBlock
  simp [-List.foldl_cons, -List.foldl_nil]

theorem execControl_hide : ∀ a0 a1 t, execControl a0 a1 = .next t → t.hide 55293 = a1.hide 55293 := by
  intro a0 a1 t h
  simp only [execControl, done, Host.Outcome.next.injEq] at h; subst h
  exact State.receiveBlocks_hide _ rfl _ _ _ _ (fun t id c => State.controlBlock_hide _ rfl ..)

@[simp] theorem State.notice_hide (m : Nat) (hm : 193 &&& m = 193) : ∀ a0 a1 a2, (State.notice a0 a1 a2).hide m = a0.hide m := by
  intro a0 a1 a2
  refine hide_mono ?_ hm
  unfold State.notice
  simp [-List.foldl_cons, -List.foldl_nil]

theorem execNotice_hide : ∀ a0 a1 t, execNotice a0 a1 = .next t → t.hide 193 = a1.hide 193 := by
  intro a0 a1 t h
  simp only [execNotice, done, Host.Outcome.next.injEq] at h
  subst h
  simp [-List.foldl_cons, -List.foldl_nil]

@[simp] theorem State.rangeMisses_hide (m : Nat) (hm : 1 &&& m = 1) : ∀ a0 a1 a2, (State.rangeMisses a0 a1 a2).hide m = a0.hide m := by
  intro a0 a1 a2
  refine hide_mono ?_ hm
  unfold State.rangeMisses
  simp [-List.foldl_cons, -List.foldl_nil]

@[simp] theorem State.nocRead_hide (m : Nat) (hm : 1 &&& m = 1) : ∀ a0 a1 a2 a3, (State.nocRead a0 a1 a2 a3).hide m = a0.hide m := by
  intro a0 a1 a2 a3
  refine hide_mono ?_ hm
  unfold State.nocRead
  (repeat' split) <;> simp [-List.foldl_cons, -List.foldl_nil]

@[simp] theorem State.nocWrite_hide (m : Nat) (hm : 1 &&& m = 1) : ∀ a0 a1 a2 a3, (State.nocWrite a0 a1 a2 a3).hide m = a0.hide m := by
  intro a0 a1 a2 a3
  refine hide_mono ?_ hm
  unfold State.nocWrite
  (repeat' split) <;> simp [-List.foldl_cons, -List.foldl_nil]

@[simp] theorem readRow_hide (m : Nat) (hm : 49629 &&& m = 49629) : ∀ a0 a1 a2 a3, (readRow a0 a1 a2 a3).s.hide m = a2.s.hide m := by
  intro a0 a1 a2 a3
  refine hide_mono ?_ hm
  unfold readRow
  try dsimp only
  (repeat' split) <;> simp [-List.foldl_cons, -List.foldl_nil]

@[simp] theorem State.sourceRows_hide (m : Nat) (hm : 1 &&& m = 1) : ∀ a0 a1 a2, (State.sourceRows a0 a1 a2).s.hide m = a0.hide m := by
  intro a0 a1 a2
  refine hide_mono ?_ hm
  unfold State.sourceRows
  simp [-List.foldl_cons, -List.foldl_nil]

@[simp] theorem State.listBad_hide (m : Nat) (hm : 1 &&& m = 1) : ∀ a0 a1 a2, (State.listBad a0 a1 a2).1.hide m = a0.hide m := by
  intro a0 a1 a2
  refine hide_mono ?_ hm
  unfold State.listBad
  simp [-List.foldl_cons, -List.foldl_nil]

@[simp] theorem State.storeOwn_hide (m : Nat) (hm : 55293 &&& m = 55293) : ∀ a0 a1 a2 a3, (State.storeOwn a0 a1 a2 a3).s.hide m = a0.hide m := by
  intro a0 a1 a2 a3
  refine hide_mono ?_ hm
  unfold State.storeOwn
  extract_lets no p
  split
  · split
    · exact State.intakeRun_hide _ rfl ..
    · exact State.writeMem_hide _ rfl ..
    · rfl
  · split
    · exact State.writeLp_hide _ rfl ..
    · rfl
  · split
    · rename_i h; exact State.storeRegs_hide _ rfl _ _ _ _ h
    · rfl
  · split
    · exact State.queueWrite_hide _ rfl ..
    · rfl
  · rfl

@[simp] theorem State.storeRuns_hide (m : Nat) (hm : 55293 &&& m = 55293) : ∀ a0 a1 a2, (State.storeRuns a0 a1 a2).s.hide m = a0.hide m := by
  intro a0 a1 a2
  refine hide_mono ?_ hm
  unfold State.storeRuns
  simp [-List.foldl_cons, -List.foldl_nil]

@[simp] theorem State.begun_hide (m : Nat) (hm : 4 &&& m = 4) : ∀ a0 a1 a2, (State.begun a0 a1 a2).hide m = a0.hide m := by
  intro a0 a1 a2
  refine hide_mono ?_ hm
  unfold State.begun
  simp [-List.foldl_cons, -List.foldl_nil]

@[simp] theorem State.carried_hide (m : Nat) (hm : 49629 &&& m = 49629) : ∀ a0 a1 a2, (State.carried a0 a1 a2).hide m = a0.hide m := by
  intro a0 a1 a2
  refine hide_mono ?_ hm
  unfold State.carried
  (repeat' split) <;> simp [-List.foldl_cons, -List.foldl_nil]

@[simp] theorem State.fillOwn_hide (m : Nat) (hm : 49629 &&& m = 49629) : ∀ a0 a1 a2, (State.fillOwn a0 a1 a2).hide m = a0.hide m := by
  intro a0 a1 a2
  refine hide_mono ?_ hm
  unfold State.fillOwn
  extract_lets l s1 x g f
  have h1 : s1.hide 49629 = a0.hide 49629 := State.listBad_hide _ rfl ..
  have hg : g.s.hide 49629 = a0.hide 49629 := (foldl_Rows_hide _ _ _ _ (fun t x => readRow_hide _ rfl ..)).trans h1
  clear_value g s1 l
  split
  · exact (State.requestStops_hide _ rfl ..).trans h1
  · exact (State.carried_hide _ rfl ..).trans ((State.fillRows_hide _ rfl ..).trans hg)

@[simp] theorem State.localMove_hide (m : Nat) (hm : 49629 &&& m = 49629) : ∀ a0 a1 a2, (State.localMove a0 a1 a2).hide m = a0.hide m := by
  intro a0 a1 a2
  refine hide_mono ?_ hm
  unfold State.localMove
  simp [-List.foldl_cons, -List.foldl_nil]

@[simp] theorem State.writeRows_hide (m : Nat) (hm : 1 &&& m = 1) : ∀ a0 a1 a2, (State.writeRows a0 a1 a2).s.hide m = a0.hide m := by
  intro a0 a1 a2
  refine hide_mono ?_ hm
  unfold State.writeRows
  try dsimp only
  (repeat' split) <;> simp [-List.foldl_cons, -List.foldl_nil]

@[simp] theorem State.commandRequest_hide (m : Nat) (hm : 49629 &&& m = 49629) : ∀ a0 a1 a2 a3 a4, (State.commandRequest a0 a1 a2 a3 a4).hide m = a0.hide m := by
  intro a0 a1 a2 a3 a4
  refine hide_mono ?_ hm
  unfold State.commandRequest
  (repeat' split) <;> simp [-List.foldl_cons, -List.foldl_nil]

@[simp] theorem State.writeOwn_hide (m : Nat) (hm : 55293 &&& m = 55293) : ∀ a0 a1 a2 a3, (State.writeOwn a0 a1 a2 a3).hide m = a0.hide m := by
  intro a0 a1 a2 a3
  refine hide_mono ?_ hm
  unfold State.writeOwn
  (repeat' split) <;> simp [-List.foldl_cons, -List.foldl_nil]

@[simp] theorem State.writeAway_hide (m : Nat) (hm : 69 &&& m = 69) : ∀ a0 a1 a2, (State.writeAway a0 a1 a2).hide m = a0.hide m := by
  intro a0 a1 a2
  refine hide_mono ?_ hm
  unfold State.writeAway
  (repeat' split) <;> simp [-List.foldl_cons, -List.foldl_nil]

@[simp] theorem State.readAway_hide (m : Nat) (hm : 64 &&& m = 64) : ∀ a0 a1 a2 a3, (State.readAway a0 a1 a2 a3).hide m = a0.hide m := by
  intro a0 a1 a2 a3
  refine hide_mono ?_ hm
  unfold State.readAway
  simp [-List.foldl_cons, -List.foldl_nil]

@[simp] theorem State.gatherAway_hide (m : Nat) (hm : 64 &&& m = 64) : ∀ a0 a1 a2 a3, (State.gatherAway a0 a1 a2 a3).hide m = a0.hide m := by
  intro a0 a1 a2 a3
  refine hide_mono ?_ hm
  unfold State.gatherAway
  simp [-List.foldl_cons, -List.foldl_nil]

@[simp] theorem State.awayZero_hide (m : Nat) (hm : 49153 &&& m = 49153) : ∀ a0 a1 a2 a3, (State.awayZero a0 a1 a2 a3).s.hide m = a0.hide m := by
  intro a0 a1 a2 a3
  refine hide_mono ?_ hm
  unfold State.awayZero
  simp [-List.foldl_cons, -List.foldl_nil]

@[simp] theorem State.fillAway_hide (m : Nat) (hm : 49629 &&& m = 49629) : ∀ a0 a1 a2, (State.fillAway a0 a1 a2).hide m = a0.hide m := by
  intro a0 a1 a2
  refine hide_mono ?_ hm
  unfold State.fillAway
  try dsimp only
  (repeat' split) <;> simp [-List.foldl_cons, -List.foldl_nil]

@[simp] theorem State.carryOut_hide (m : Nat) (hm : 55293 &&& m = 55293) : ∀ a0 a1, (State.carryOut a0 a1).hide m = a0.hide m := by
  intro a0 a1
  refine hide_mono ?_ hm
  unfold State.carryOut
  try dsimp only
  (repeat' split) <;> simp [-List.foldl_cons, -List.foldl_nil]

@[simp] theorem State.copyStart_hide (m : Nat) (hm : 55293 &&& m = 55293) : ∀ a0 a1, (State.copyStart a0 a1).hide m = a0.hide m := by
  intro a0 a1
  refine hide_mono ?_ hm
  unfold State.copyStart
  (repeat' split) <;> simp [-List.foldl_cons, -List.foldl_nil]

theorem execCopyRequestStart_hide : ∀ a0 a1 t, execCopyRequestStart a0 a1 = .next t → t.hide 55293 = a1.hide 55293 := by
  intro a0 a1 t h
  simp only [execCopyRequestStart, done, Host.Outcome.next.injEq] at h
  subst h
  simp [-List.foldl_cons, -List.foldl_nil]

@[simp] theorem State.fetchComplete_hide (m : Nat) (hm : 5 &&& m = 5) : ∀ a0 a1, (State.fetchComplete a0 a1).hide m = a0.hide m := by
  intro a0 a1
  refine hide_mono ?_ hm
  unfold State.fetchComplete
  (repeat' split) <;> simp [-List.foldl_cons, -List.foldl_nil]

theorem execFetchComplete_hide : ∀ a0 a1 t, execFetchComplete a0 a1 = .next t → t.hide 5 = a1.hide 5 := by
  intro a0 a1 t h
  simp only [execFetchComplete, done, Host.Outcome.next.injEq] at h
  subst h
  simp [-List.foldl_cons, -List.foldl_nil]

@[simp] theorem State.quietRaw_hide (m : Nat) (hm : 1 &&& m = 1) : ∀ a0, (State.quietRaw a0).hide m = a0.hide m := by
  intro a0
  refine hide_mono ?_ hm
  unfold State.quietRaw
  simp [-List.foldl_cons, -List.foldl_nil]

@[simp] theorem State.frozenCycle_hide (m : Nat) (hm : 5 &&& m = 5) : ∀ a0 a1, (State.frozenCycle a0 a1).hide m = a0.hide m := by
  intro a0 a1
  refine hide_mono ?_ hm
  unfold State.frozenCycle
  try dsimp only
  (repeat' split) <;> simp [-List.foldl_cons, -List.foldl_nil]

@[simp] theorem State.slackCycles_hide (m : Nat) (hm : 1 &&& m = 1) : ∀ a0, (State.slackCycles a0).hide m = a0.hide m := by
  intro a0
  refine hide_mono ?_ hm
  unfold State.slackCycles
  refine foldl_hide _ _ _ _ (fun t c => ?_)
  split
  · split
    · exact State.noteSlack_hide _ rfl ..
    · rfl
  · rfl

@[simp] theorem State.frozenCycles_hide (m : Nat) (hm : 5 &&& m = 5) : ∀ a0, (State.frozenCycles a0).hide m = a0.hide m := by
  intro a0
  refine hide_mono ?_ hm
  unfold State.frozenCycles
  simp [-List.foldl_cons, -List.foldl_nil]

@[simp] theorem State.countCycle_hide (m : Nat) (hm : 1 &&& m = 1) : ∀ a0, (State.countCycle a0).hide m = a0.hide m := by
  intro a0
  refine hide_mono ?_ hm
  unfold State.countCycle
  simp [-List.foldl_cons, -List.foldl_nil]

@[simp] theorem State.drainAdmission_hide (m : Nat) (hm : 64 &&& m = 64) : ∀ a0, (State.drainAdmission a0).hide m = a0.hide m := by
  intro a0
  refine hide_mono ?_ hm
  unfold State.drainAdmission
  simp [-List.foldl_cons, -List.foldl_nil]

@[simp] theorem State.drainSteward_hide (m : Nat) (hm : 192 &&& m = 192) : ∀ a0, (State.drainSteward a0).hide m = a0.hide m := by
  intro a0
  refine hide_mono ?_ hm
  unfold State.drainSteward
  simp [-List.foldl_cons, -List.foldl_nil]

@[simp] theorem State.dieCycle_hide (m : Nat) (hm : 55293 &&& m = 55293) : ∀ a0, (State.dieCycle a0).hide m = a0.hide m := by
  intro a0
  refine hide_mono ?_ hm
  unfold State.dieCycle
  simp [-List.foldl_cons, -List.foldl_nil]

@[simp] theorem tick_hide (m : Nat) (hm : 55295 &&& m = 55295) : ∀ a0, (tick a0).hide m = a0.hide m := by
  intro a0
  refine hide_mono ?_ hm
  unfold tick
  simp [-List.foldl_cons, -List.foldl_nil]

@[simp] theorem State.withFetchWord_hide (m : Nat) (hm : 8192 &&& m = 8192) : ∀ a0 a1 a2, (State.withFetchWord a0 a1 a2).hide m = a0.hide m := by
  intro a0 a1 a2
  refine hide_mono ?_ hm
  unfold State.withFetchWord
  rfl

end Sys2Proof.Machine
end

