-- ==== Sys2Proof/Laws/State.lean ====
section
/-!
SUPPORT. What each basic update of a state leaves in each part of it, one lemma per part, so that no proof unfolds a record
update.
-/

namespace Sys2Proof.Machine

@[simp] theorem State.setReg_mem (s : State) (a v : Nat) : (s.setReg a v).mem = s.mem := (rfl)
@[simp] theorem State.setReg_regs (s : State) (a v : Nat) : (s.setReg a v).regs = tputD (resetOf a) s.regs a (BitVec.ofNat 32 v) := (rfl)
@[simp] theorem State.setReg_clock (s : State) (a v : Nat) : (s.setReg a v).clock = s.clock := (rfl)
@[simp] theorem State.setReg_run (s : State) (a v : Nat) : (s.setReg a v).run = s.run := (rfl)
@[simp] theorem State.setReg_seps (s : State) (a v : Nat) : (s.setReg a v).seps = s.seps := (rfl)
@[simp] theorem State.setReg_upds (s : State) (a v : Nat) : (s.setReg a v).upds = s.upds := (rfl)
@[simp] theorem State.setReg_mirrors (s : State) (a v : Nat) : (s.setReg a v).mirrors = s.mirrors := (rfl)
@[simp] theorem State.setReg_fab (s : State) (a v : Nat) : (s.setReg a v).fab = s.fab := (rfl)
@[simp] theorem State.setReg_ctl (s : State) (a v : Nat) : (s.setReg a v).ctl = s.ctl := (rfl)
@[simp] theorem State.setReg_safety (s : State) (a v : Nat) : (s.setReg a v).safety = s.safety := (rfl)
@[simp] theorem State.setReg_power (s : State) (a v : Nat) : (s.setReg a v).power = s.power := (rfl)
@[simp] theorem State.setReg_boot (s : State) (a v : Nat) : (s.setReg a v).boot = s.boot := (rfl)
@[simp] theorem State.setReg_gens (s : State) (a v : Nat) : (s.setReg a v).gens = s.gens := (rfl)
@[simp] theorem State.setReg_out (s : State) (a v : Nat) : (s.setReg a v).out = s.out := (rfl)
@[simp] theorem State.setReg_pending (s : State) (a v : Nat) : (s.setReg a v).pending = s.pending := (rfl)

@[simp] theorem State.bump_mem (s : State) (a : Nat) : (s.bump a).mem = s.mem := (rfl)
@[simp] theorem State.bump_regs (s : State) (a : Nat) : (s.bump a).regs = tputD (resetOf a) s.regs a (BitVec.ofNat 32 (s.reg a + 1)) := (rfl)
@[simp] theorem State.bump_clock (s : State) (a : Nat) : (s.bump a).clock = s.clock := (rfl)
@[simp] theorem State.bump_run (s : State) (a : Nat) : (s.bump a).run = s.run := (rfl)
@[simp] theorem State.bump_seps (s : State) (a : Nat) : (s.bump a).seps = s.seps := (rfl)
@[simp] theorem State.bump_upds (s : State) (a : Nat) : (s.bump a).upds = s.upds := (rfl)
@[simp] theorem State.bump_mirrors (s : State) (a : Nat) : (s.bump a).mirrors = s.mirrors := (rfl)
@[simp] theorem State.bump_fab (s : State) (a : Nat) : (s.bump a).fab = s.fab := (rfl)
@[simp] theorem State.bump_ctl (s : State) (a : Nat) : (s.bump a).ctl = s.ctl := (rfl)
@[simp] theorem State.bump_safety (s : State) (a : Nat) : (s.bump a).safety = s.safety := (rfl)
@[simp] theorem State.bump_power (s : State) (a : Nat) : (s.bump a).power = s.power := (rfl)
@[simp] theorem State.bump_boot (s : State) (a : Nat) : (s.bump a).boot = s.boot := (rfl)
@[simp] theorem State.bump_gens (s : State) (a : Nat) : (s.bump a).gens = s.gens := (rfl)
@[simp] theorem State.bump_out (s : State) (a : Nat) : (s.bump a).out = s.out := (rfl)
@[simp] theorem State.bump_pending (s : State) (a : Nat) : (s.bump a).pending = s.pending := (rfl)

@[simp] theorem State.bumpBy_mem (s : State) (a n : Nat) : (s.bumpBy a n).mem = s.mem := (rfl)
@[simp] theorem State.bumpBy_regs (s : State) (a n : Nat) : (s.bumpBy a n).regs = tputD (resetOf a) s.regs a (BitVec.ofNat 32 (s.reg a + n)) := (rfl)
@[simp] theorem State.bumpBy_clock (s : State) (a n : Nat) : (s.bumpBy a n).clock = s.clock := (rfl)
@[simp] theorem State.bumpBy_run (s : State) (a n : Nat) : (s.bumpBy a n).run = s.run := (rfl)
@[simp] theorem State.bumpBy_seps (s : State) (a n : Nat) : (s.bumpBy a n).seps = s.seps := (rfl)
@[simp] theorem State.bumpBy_upds (s : State) (a n : Nat) : (s.bumpBy a n).upds = s.upds := (rfl)
@[simp] theorem State.bumpBy_mirrors (s : State) (a n : Nat) : (s.bumpBy a n).mirrors = s.mirrors := (rfl)
@[simp] theorem State.bumpBy_fab (s : State) (a n : Nat) : (s.bumpBy a n).fab = s.fab := (rfl)
@[simp] theorem State.bumpBy_ctl (s : State) (a n : Nat) : (s.bumpBy a n).ctl = s.ctl := (rfl)
@[simp] theorem State.bumpBy_safety (s : State) (a n : Nat) : (s.bumpBy a n).safety = s.safety := (rfl)
@[simp] theorem State.bumpBy_power (s : State) (a n : Nat) : (s.bumpBy a n).power = s.power := (rfl)
@[simp] theorem State.bumpBy_boot (s : State) (a n : Nat) : (s.bumpBy a n).boot = s.boot := (rfl)
@[simp] theorem State.bumpBy_gens (s : State) (a n : Nat) : (s.bumpBy a n).gens = s.gens := (rfl)
@[simp] theorem State.bumpBy_out (s : State) (a n : Nat) : (s.bumpBy a n).out = s.out := (rfl)
@[simp] theorem State.bumpBy_pending (s : State) (a n : Nat) : (s.bumpBy a n).pending = s.pending := (rfl)

@[simp] theorem State.bumpSat_mem (s : State) (a n l : Nat) : (s.bumpSat a n l).mem = s.mem := (rfl)
@[simp] theorem State.bumpSat_regs (s : State) (a n l : Nat) : (s.bumpSat a n l).regs = tputD (resetOf a) s.regs a (BitVec.ofNat 32 (min l (s.reg a + n))) := (rfl)
@[simp] theorem State.bumpSat_clock (s : State) (a n l : Nat) : (s.bumpSat a n l).clock = s.clock := (rfl)
@[simp] theorem State.bumpSat_run (s : State) (a n l : Nat) : (s.bumpSat a n l).run = s.run := (rfl)
@[simp] theorem State.bumpSat_seps (s : State) (a n l : Nat) : (s.bumpSat a n l).seps = s.seps := (rfl)
@[simp] theorem State.bumpSat_upds (s : State) (a n l : Nat) : (s.bumpSat a n l).upds = s.upds := (rfl)
@[simp] theorem State.bumpSat_mirrors (s : State) (a n l : Nat) : (s.bumpSat a n l).mirrors = s.mirrors := (rfl)
@[simp] theorem State.bumpSat_fab (s : State) (a n l : Nat) : (s.bumpSat a n l).fab = s.fab := (rfl)
@[simp] theorem State.bumpSat_ctl (s : State) (a n l : Nat) : (s.bumpSat a n l).ctl = s.ctl := (rfl)
@[simp] theorem State.bumpSat_safety (s : State) (a n l : Nat) : (s.bumpSat a n l).safety = s.safety := (rfl)
@[simp] theorem State.bumpSat_power (s : State) (a n l : Nat) : (s.bumpSat a n l).power = s.power := (rfl)
@[simp] theorem State.bumpSat_boot (s : State) (a n l : Nat) : (s.bumpSat a n l).boot = s.boot := (rfl)
@[simp] theorem State.bumpSat_gens (s : State) (a n l : Nat) : (s.bumpSat a n l).gens = s.gens := (rfl)
@[simp] theorem State.bumpSat_out (s : State) (a n l : Nat) : (s.bumpSat a n l).out = s.out := (rfl)
@[simp] theorem State.bumpSat_pending (s : State) (a n l : Nat) : (s.bumpSat a n l).pending = s.pending := (rfl)

@[simp] theorem State.setReg64_mem (s : State) (a v : Nat) : (s.setReg64 a v).mem = s.mem := (rfl)
@[simp] theorem State.setReg64_regs (s : State) (a v : Nat) : (s.setReg64 a v).regs = ((s.setReg a (v % 2 ^ 32)).setReg (a + 4) (v / 2 ^ 32)).regs := (rfl)
@[simp] theorem State.setReg64_clock (s : State) (a v : Nat) : (s.setReg64 a v).clock = s.clock := (rfl)
@[simp] theorem State.setReg64_run (s : State) (a v : Nat) : (s.setReg64 a v).run = s.run := (rfl)
@[simp] theorem State.setReg64_seps (s : State) (a v : Nat) : (s.setReg64 a v).seps = s.seps := (rfl)
@[simp] theorem State.setReg64_upds (s : State) (a v : Nat) : (s.setReg64 a v).upds = s.upds := (rfl)
@[simp] theorem State.setReg64_mirrors (s : State) (a v : Nat) : (s.setReg64 a v).mirrors = s.mirrors := (rfl)
@[simp] theorem State.setReg64_fab (s : State) (a v : Nat) : (s.setReg64 a v).fab = s.fab := (rfl)
@[simp] theorem State.setReg64_ctl (s : State) (a v : Nat) : (s.setReg64 a v).ctl = s.ctl := (rfl)
@[simp] theorem State.setReg64_safety (s : State) (a v : Nat) : (s.setReg64 a v).safety = s.safety := (rfl)
@[simp] theorem State.setReg64_power (s : State) (a v : Nat) : (s.setReg64 a v).power = s.power := (rfl)
@[simp] theorem State.setReg64_boot (s : State) (a v : Nat) : (s.setReg64 a v).boot = s.boot := (rfl)
@[simp] theorem State.setReg64_gens (s : State) (a v : Nat) : (s.setReg64 a v).gens = s.gens := (rfl)
@[simp] theorem State.setReg64_out (s : State) (a v : Nat) : (s.setReg64 a v).out = s.out := (rfl)
@[simp] theorem State.setReg64_pending (s : State) (a v : Nat) : (s.setReg64 a v).pending = s.pending := (rfl)

@[simp] theorem State.emit_mem (s : State) (o : Out) : (s.emit o).mem = s.mem := (rfl)
@[simp] theorem State.emit_regs (s : State) (o : Out) : (s.emit o).regs = s.regs := (rfl)
@[simp] theorem State.emit_clock (s : State) (o : Out) : (s.emit o).clock = s.clock := (rfl)
@[simp] theorem State.emit_run (s : State) (o : Out) : (s.emit o).run = s.run := (rfl)
@[simp] theorem State.emit_seps (s : State) (o : Out) : (s.emit o).seps = s.seps := (rfl)
@[simp] theorem State.emit_upds (s : State) (o : Out) : (s.emit o).upds = s.upds := (rfl)
@[simp] theorem State.emit_mirrors (s : State) (o : Out) : (s.emit o).mirrors = s.mirrors := (rfl)
@[simp] theorem State.emit_fab (s : State) (o : Out) : (s.emit o).fab = s.fab := (rfl)
@[simp] theorem State.emit_ctl (s : State) (o : Out) : (s.emit o).ctl = s.ctl := (rfl)
@[simp] theorem State.emit_safety (s : State) (o : Out) : (s.emit o).safety = s.safety := (rfl)
@[simp] theorem State.emit_power (s : State) (o : Out) : (s.emit o).power = s.power := (rfl)
@[simp] theorem State.emit_boot (s : State) (o : Out) : (s.emit o).boot = s.boot := (rfl)
@[simp] theorem State.emit_gens (s : State) (o : Out) : (s.emit o).gens = s.gens := (rfl)
@[simp] theorem State.emit_out (s : State) (o : Out) : (s.emit o).out = s.out ++ [o] := (rfl)
@[simp] theorem State.emit_pending (s : State) (o : Out) : (s.emit o).pending = s.pending := (rfl)

@[simp] theorem State.setCells_mem (s : State) (cs : List Host.Cell) : (s.setCells cs).mem = { s.mem with cells := cs } := (rfl)
@[simp] theorem State.setCells_regs (s : State) (cs : List Host.Cell) : (s.setCells cs).regs = s.regs := (rfl)
@[simp] theorem State.setCells_clock (s : State) (cs : List Host.Cell) : (s.setCells cs).clock = s.clock := (rfl)
@[simp] theorem State.setCells_run (s : State) (cs : List Host.Cell) : (s.setCells cs).run = s.run := (rfl)
@[simp] theorem State.setCells_seps (s : State) (cs : List Host.Cell) : (s.setCells cs).seps = s.seps := (rfl)
@[simp] theorem State.setCells_upds (s : State) (cs : List Host.Cell) : (s.setCells cs).upds = s.upds := (rfl)
@[simp] theorem State.setCells_mirrors (s : State) (cs : List Host.Cell) : (s.setCells cs).mirrors = s.mirrors := (rfl)
@[simp] theorem State.setCells_fab (s : State) (cs : List Host.Cell) : (s.setCells cs).fab = s.fab := (rfl)
@[simp] theorem State.setCells_ctl (s : State) (cs : List Host.Cell) : (s.setCells cs).ctl = s.ctl := (rfl)
@[simp] theorem State.setCells_safety (s : State) (cs : List Host.Cell) : (s.setCells cs).safety = s.safety := (rfl)
@[simp] theorem State.setCells_power (s : State) (cs : List Host.Cell) : (s.setCells cs).power = s.power := (rfl)
@[simp] theorem State.setCells_boot (s : State) (cs : List Host.Cell) : (s.setCells cs).boot = s.boot := (rfl)
@[simp] theorem State.setCells_gens (s : State) (cs : List Host.Cell) : (s.setCells cs).gens = s.gens := (rfl)
@[simp] theorem State.setCells_out (s : State) (cs : List Host.Cell) : (s.setCells cs).out = s.out := (rfl)
@[simp] theorem State.setCells_pending (s : State) (cs : List Host.Cell) : (s.setCells cs).pending = s.pending := (rfl)

@[simp] theorem State.setCore_mem (s : State) (c : Nat) (k : Core) : (s.setCore c k).mem = s.mem := (rfl)
@[simp] theorem State.setCore_regs (s : State) (c : Nat) (k : Core) : (s.setCore c k).regs = s.regs := (rfl)
@[simp] theorem State.setCore_clock (s : State) (c : Nat) (k : Core) : (s.setCore c k).clock = s.clock := (rfl)
@[simp] theorem State.setCore_run (s : State) (c : Nat) (k : Core) : (s.setCore c k).run = { s.run with cores := tputD Core.reset s.run.cores c k } := (rfl)
@[simp] theorem State.setCore_seps (s : State) (c : Nat) (k : Core) : (s.setCore c k).seps = s.seps := (rfl)
@[simp] theorem State.setCore_upds (s : State) (c : Nat) (k : Core) : (s.setCore c k).upds = s.upds := (rfl)
@[simp] theorem State.setCore_mirrors (s : State) (c : Nat) (k : Core) : (s.setCore c k).mirrors = s.mirrors := (rfl)
@[simp] theorem State.setCore_fab (s : State) (c : Nat) (k : Core) : (s.setCore c k).fab = s.fab := (rfl)
@[simp] theorem State.setCore_ctl (s : State) (c : Nat) (k : Core) : (s.setCore c k).ctl = s.ctl := (rfl)
@[simp] theorem State.setCore_safety (s : State) (c : Nat) (k : Core) : (s.setCore c k).safety = s.safety := (rfl)
@[simp] theorem State.setCore_power (s : State) (c : Nat) (k : Core) : (s.setCore c k).power = s.power := (rfl)
@[simp] theorem State.setCore_boot (s : State) (c : Nat) (k : Core) : (s.setCore c k).boot = s.boot := (rfl)
@[simp] theorem State.setCore_gens (s : State) (c : Nat) (k : Core) : (s.setCore c k).gens = s.gens := (rfl)
@[simp] theorem State.setCore_out (s : State) (c : Nat) (k : Core) : (s.setCore c k).out = s.out := (rfl)
@[simp] theorem State.setCore_pending (s : State) (c : Nat) (k : Core) : (s.setCore c k).pending = s.pending := (rfl)

@[simp] theorem State.setSep_mem (s : State) (i : Nat) (u : SepUnit) : (s.setSep i u).mem = s.mem := (rfl)
@[simp] theorem State.setSep_regs (s : State) (i : Nat) (u : SepUnit) : (s.setSep i u).regs = s.regs := (rfl)
@[simp] theorem State.setSep_clock (s : State) (i : Nat) (u : SepUnit) : (s.setSep i u).clock = s.clock := (rfl)
@[simp] theorem State.setSep_run (s : State) (i : Nat) (u : SepUnit) : (s.setSep i u).run = s.run := (rfl)
@[simp] theorem State.setSep_seps (s : State) (i : Nat) (u : SepUnit) : (s.setSep i u).seps = tputD SepUnit.reset s.seps i u := (rfl)
@[simp] theorem State.setSep_upds (s : State) (i : Nat) (u : SepUnit) : (s.setSep i u).upds = s.upds := (rfl)
@[simp] theorem State.setSep_mirrors (s : State) (i : Nat) (u : SepUnit) : (s.setSep i u).mirrors = s.mirrors := (rfl)
@[simp] theorem State.setSep_fab (s : State) (i : Nat) (u : SepUnit) : (s.setSep i u).fab = s.fab := (rfl)
@[simp] theorem State.setSep_ctl (s : State) (i : Nat) (u : SepUnit) : (s.setSep i u).ctl = s.ctl := (rfl)
@[simp] theorem State.setSep_safety (s : State) (i : Nat) (u : SepUnit) : (s.setSep i u).safety = s.safety := (rfl)
@[simp] theorem State.setSep_power (s : State) (i : Nat) (u : SepUnit) : (s.setSep i u).power = s.power := (rfl)
@[simp] theorem State.setSep_boot (s : State) (i : Nat) (u : SepUnit) : (s.setSep i u).boot = s.boot := (rfl)
@[simp] theorem State.setSep_gens (s : State) (i : Nat) (u : SepUnit) : (s.setSep i u).gens = s.gens := (rfl)
@[simp] theorem State.setSep_out (s : State) (i : Nat) (u : SepUnit) : (s.setSep i u).out = s.out := (rfl)
@[simp] theorem State.setSep_pending (s : State) (i : Nat) (u : SepUnit) : (s.setSep i u).pending = s.pending := (rfl)

@[simp] theorem State.setUpd_mem (s : State) (i : Nat) (u : UpdUnit) : (s.setUpd i u).mem = s.mem := (rfl)
@[simp] theorem State.setUpd_regs (s : State) (i : Nat) (u : UpdUnit) : (s.setUpd i u).regs = s.regs := (rfl)
@[simp] theorem State.setUpd_clock (s : State) (i : Nat) (u : UpdUnit) : (s.setUpd i u).clock = s.clock := (rfl)
@[simp] theorem State.setUpd_run (s : State) (i : Nat) (u : UpdUnit) : (s.setUpd i u).run = s.run := (rfl)
@[simp] theorem State.setUpd_seps (s : State) (i : Nat) (u : UpdUnit) : (s.setUpd i u).seps = s.seps := (rfl)
@[simp] theorem State.setUpd_upds (s : State) (i : Nat) (u : UpdUnit) : (s.setUpd i u).upds = tputD UpdUnit.reset s.upds i u := (rfl)
@[simp] theorem State.setUpd_mirrors (s : State) (i : Nat) (u : UpdUnit) : (s.setUpd i u).mirrors = s.mirrors := (rfl)
@[simp] theorem State.setUpd_fab (s : State) (i : Nat) (u : UpdUnit) : (s.setUpd i u).fab = s.fab := (rfl)
@[simp] theorem State.setUpd_ctl (s : State) (i : Nat) (u : UpdUnit) : (s.setUpd i u).ctl = s.ctl := (rfl)
@[simp] theorem State.setUpd_safety (s : State) (i : Nat) (u : UpdUnit) : (s.setUpd i u).safety = s.safety := (rfl)
@[simp] theorem State.setUpd_power (s : State) (i : Nat) (u : UpdUnit) : (s.setUpd i u).power = s.power := (rfl)
@[simp] theorem State.setUpd_boot (s : State) (i : Nat) (u : UpdUnit) : (s.setUpd i u).boot = s.boot := (rfl)
@[simp] theorem State.setUpd_gens (s : State) (i : Nat) (u : UpdUnit) : (s.setUpd i u).gens = s.gens := (rfl)
@[simp] theorem State.setUpd_out (s : State) (i : Nat) (u : UpdUnit) : (s.setUpd i u).out = s.out := (rfl)
@[simp] theorem State.setUpd_pending (s : State) (i : Nat) (u : UpdUnit) : (s.setUpd i u).pending = s.pending := (rfl)

@[simp] theorem State.dropRequests_mem (s : State) (ids : List Nat) : (s.dropRequests ids).mem = s.mem := (rfl)
@[simp] theorem State.dropRequests_regs (s : State) (ids : List Nat) : (s.dropRequests ids).regs = s.regs := (rfl)
@[simp] theorem State.dropRequests_clock (s : State) (ids : List Nat) : (s.dropRequests ids).clock = s.clock := (rfl)
@[simp] theorem State.dropRequests_run (s : State) (ids : List Nat) : (s.dropRequests ids).run = { s.run with reqs := s.run.reqs.filter (fun r => !ids.contains r.id) } := (rfl)
@[simp] theorem State.dropRequests_seps (s : State) (ids : List Nat) : (s.dropRequests ids).seps = s.seps := (rfl)
@[simp] theorem State.dropRequests_upds (s : State) (ids : List Nat) : (s.dropRequests ids).upds = s.upds := (rfl)
@[simp] theorem State.dropRequests_mirrors (s : State) (ids : List Nat) : (s.dropRequests ids).mirrors = s.mirrors := (rfl)
@[simp] theorem State.dropRequests_fab (s : State) (ids : List Nat) : (s.dropRequests ids).fab = s.fab := (rfl)
@[simp] theorem State.dropRequests_ctl (s : State) (ids : List Nat) : (s.dropRequests ids).ctl = s.ctl := (rfl)
@[simp] theorem State.dropRequests_safety (s : State) (ids : List Nat) : (s.dropRequests ids).safety = s.safety := (rfl)
@[simp] theorem State.dropRequests_power (s : State) (ids : List Nat) : (s.dropRequests ids).power = s.power := (rfl)
@[simp] theorem State.dropRequests_boot (s : State) (ids : List Nat) : (s.dropRequests ids).boot = s.boot := (rfl)
@[simp] theorem State.dropRequests_gens (s : State) (ids : List Nat) : (s.dropRequests ids).gens = s.gens := (rfl)
@[simp] theorem State.dropRequests_out (s : State) (ids : List Nat) : (s.dropRequests ids).out = s.out := (rfl)
@[simp] theorem State.dropRequests_pending (s : State) (ids : List Nat) : (s.dropRequests ids).pending = s.pending := (rfl)

@[simp] theorem State.setClock_mem (s : State) (c : Clock) : (s.setClock c).mem = s.mem := (rfl)
@[simp] theorem State.setClock_regs (s : State) (c : Clock) : (s.setClock c).regs = s.regs := (rfl)
@[simp] theorem State.setClock_clock (s : State) (c : Clock) : (s.setClock c).clock = c := (rfl)
@[simp] theorem State.setClock_run (s : State) (c : Clock) : (s.setClock c).run = s.run := (rfl)
@[simp] theorem State.setClock_seps (s : State) (c : Clock) : (s.setClock c).seps = s.seps := (rfl)
@[simp] theorem State.setClock_upds (s : State) (c : Clock) : (s.setClock c).upds = s.upds := (rfl)
@[simp] theorem State.setClock_mirrors (s : State) (c : Clock) : (s.setClock c).mirrors = s.mirrors := (rfl)
@[simp] theorem State.setClock_fab (s : State) (c : Clock) : (s.setClock c).fab = s.fab := (rfl)
@[simp] theorem State.setClock_ctl (s : State) (c : Clock) : (s.setClock c).ctl = s.ctl := (rfl)
@[simp] theorem State.setClock_safety (s : State) (c : Clock) : (s.setClock c).safety = s.safety := (rfl)
@[simp] theorem State.setClock_power (s : State) (c : Clock) : (s.setClock c).power = s.power := (rfl)
@[simp] theorem State.setClock_boot (s : State) (c : Clock) : (s.setClock c).boot = s.boot := (rfl)
@[simp] theorem State.setClock_gens (s : State) (c : Clock) : (s.setClock c).gens = s.gens := (rfl)
@[simp] theorem State.setClock_out (s : State) (c : Clock) : (s.setClock c).out = s.out := (rfl)
@[simp] theorem State.setClock_pending (s : State) (c : Clock) : (s.setClock c).pending = s.pending := (rfl)

@[simp] theorem State.setPort_mem (s : State) (p : Nat) (v : PortState) : (s.setPort p v).mem = s.mem := (rfl)
@[simp] theorem State.setPort_regs (s : State) (p : Nat) (v : PortState) : (s.setPort p v).regs = s.regs := (rfl)
@[simp] theorem State.setPort_clock (s : State) (p : Nat) (v : PortState) : (s.setPort p v).clock = s.clock := (rfl)
@[simp] theorem State.setPort_run (s : State) (p : Nat) (v : PortState) : (s.setPort p v).run = s.run := (rfl)
@[simp] theorem State.setPort_seps (s : State) (p : Nat) (v : PortState) : (s.setPort p v).seps = s.seps := (rfl)
@[simp] theorem State.setPort_upds (s : State) (p : Nat) (v : PortState) : (s.setPort p v).upds = s.upds := (rfl)
@[simp] theorem State.setPort_mirrors (s : State) (p : Nat) (v : PortState) : (s.setPort p v).mirrors = s.mirrors := (rfl)
@[simp] theorem State.setPort_fab (s : State) (p : Nat) (v : PortState) : (s.setPort p v).fab = { s.fab with ports := tputD ⟨false, false, false, none, 0⟩ s.fab.ports p v } := (rfl)
@[simp] theorem State.setPort_ctl (s : State) (p : Nat) (v : PortState) : (s.setPort p v).ctl = s.ctl := (rfl)
@[simp] theorem State.setPort_safety (s : State) (p : Nat) (v : PortState) : (s.setPort p v).safety = s.safety := (rfl)
@[simp] theorem State.setPort_power (s : State) (p : Nat) (v : PortState) : (s.setPort p v).power = s.power := (rfl)
@[simp] theorem State.setPort_boot (s : State) (p : Nat) (v : PortState) : (s.setPort p v).boot = s.boot := (rfl)
@[simp] theorem State.setPort_gens (s : State) (p : Nat) (v : PortState) : (s.setPort p v).gens = s.gens := (rfl)
@[simp] theorem State.setPort_out (s : State) (p : Nat) (v : PortState) : (s.setPort p v).out = s.out := (rfl)
@[simp] theorem State.setPort_pending (s : State) (p : Nat) (v : PortState) : (s.setPort p v).pending = s.pending := (rfl)

@[simp] theorem State.setPool_mem (s : State) (c n : Nat) : (s.setPool c n).mem = s.mem := (rfl)
@[simp] theorem State.setPool_regs (s : State) (c n : Nat) : (s.setPool c n).regs = s.regs := (rfl)
@[simp] theorem State.setPool_clock (s : State) (c n : Nat) : (s.setPool c n).clock = s.clock := (rfl)
@[simp] theorem State.setPool_run (s : State) (c n : Nat) : (s.setPool c n).run = s.run := (rfl)
@[simp] theorem State.setPool_seps (s : State) (c n : Nat) : (s.setPool c n).seps = s.seps := (rfl)
@[simp] theorem State.setPool_upds (s : State) (c n : Nat) : (s.setPool c n).upds = s.upds := (rfl)
@[simp] theorem State.setPool_mirrors (s : State) (c n : Nat) : (s.setPool c n).mirrors = s.mirrors := (rfl)
@[simp] theorem State.setPool_fab (s : State) (c n : Nat) : (s.setPool c n).fab = { s.fab with pool := tput s.fab.pool c n } := (rfl)
@[simp] theorem State.setPool_ctl (s : State) (c n : Nat) : (s.setPool c n).ctl = s.ctl := (rfl)
@[simp] theorem State.setPool_safety (s : State) (c n : Nat) : (s.setPool c n).safety = s.safety := (rfl)
@[simp] theorem State.setPool_power (s : State) (c n : Nat) : (s.setPool c n).power = s.power := (rfl)
@[simp] theorem State.setPool_boot (s : State) (c n : Nat) : (s.setPool c n).boot = s.boot := (rfl)
@[simp] theorem State.setPool_gens (s : State) (c n : Nat) : (s.setPool c n).gens = s.gens := (rfl)
@[simp] theorem State.setPool_out (s : State) (c n : Nat) : (s.setPool c n).out = s.out := (rfl)
@[simp] theorem State.setPool_pending (s : State) (c n : Nat) : (s.setPool c n).pending = s.pending := (rfl)

@[simp] theorem State.setImages_mem (s : State) (k : Nat) (x : ImageState) : (s.setImages k x).mem = s.mem := (rfl)
@[simp] theorem State.setImages_regs (s : State) (k : Nat) (x : ImageState) : (s.setImages k x).regs = s.regs := (rfl)
@[simp] theorem State.setImages_clock (s : State) (k : Nat) (x : ImageState) : (s.setImages k x).clock = s.clock := (rfl)
@[simp] theorem State.setImages_run (s : State) (k : Nat) (x : ImageState) : (s.setImages k x).run = s.run := (rfl)
@[simp] theorem State.setImages_seps (s : State) (k : Nat) (x : ImageState) : (s.setImages k x).seps = s.seps := (rfl)
@[simp] theorem State.setImages_upds (s : State) (k : Nat) (x : ImageState) : (s.setImages k x).upds = s.upds := (rfl)
@[simp] theorem State.setImages_mirrors (s : State) (k : Nat) (x : ImageState) : (s.setImages k x).mirrors = s.mirrors := (rfl)
@[simp] theorem State.setImages_fab (s : State) (k : Nat) (x : ImageState) : (s.setImages k x).fab = s.fab := (rfl)
@[simp] theorem State.setImages_ctl (s : State) (k : Nat) (x : ImageState) : (s.setImages k x).ctl = s.ctl := (rfl)
@[simp] theorem State.setImages_safety (s : State) (k : Nat) (x : ImageState) : (s.setImages k x).safety = s.safety := (rfl)
@[simp] theorem State.setImages_power (s : State) (k : Nat) (x : ImageState) : (s.setImages k x).power = s.power := (rfl)
@[simp] theorem State.setImages_boot (s : State) (k : Nat) (x : ImageState) : (s.setImages k x).boot = { s.boot with images := tput s.boot.images k x } := (rfl)
@[simp] theorem State.setImages_gens (s : State) (k : Nat) (x : ImageState) : (s.setImages k x).gens = s.gens := (rfl)
@[simp] theorem State.setImages_out (s : State) (k : Nat) (x : ImageState) : (s.setImages k x).out = s.out := (rfl)
@[simp] theorem State.setImages_pending (s : State) (k : Nat) (x : ImageState) : (s.setImages k x).pending = s.pending := (rfl)

@[simp] theorem State.stageEnds_mem (s : State) (n : Nat) : (s.stageEnds n).mem = s.mem := (rfl)
@[simp] theorem State.stageEnds_regs (s : State) (n : Nat) : (s.stageEnds n).regs = s.regs := (rfl)
@[simp] theorem State.stageEnds_clock (s : State) (n : Nat) : (s.stageEnds n).clock = s.clock := (rfl)
@[simp] theorem State.stageEnds_run (s : State) (n : Nat) : (s.stageEnds n).run = s.run := (rfl)
@[simp] theorem State.stageEnds_seps (s : State) (n : Nat) : (s.stageEnds n).seps = s.seps := (rfl)
@[simp] theorem State.stageEnds_upds (s : State) (n : Nat) : (s.stageEnds n).upds = s.upds := (rfl)
@[simp] theorem State.stageEnds_mirrors (s : State) (n : Nat) : (s.stageEnds n).mirrors = s.mirrors := (rfl)
@[simp] theorem State.stageEnds_fab (s : State) (n : Nat) : (s.stageEnds n).fab = s.fab := (rfl)
@[simp] theorem State.stageEnds_ctl (s : State) (n : Nat) : (s.stageEnds n).ctl = s.ctl := (rfl)
@[simp] theorem State.stageEnds_safety (s : State) (n : Nat) : (s.stageEnds n).safety = s.safety := (rfl)
@[simp] theorem State.stageEnds_power (s : State) (n : Nat) : (s.stageEnds n).power = s.power := (rfl)
@[simp] theorem State.stageEnds_boot (s : State) (n : Nat) : (s.stageEnds n).boot = { s.boot with staging := none, stageStatus := n } := (rfl)
@[simp] theorem State.stageEnds_gens (s : State) (n : Nat) : (s.stageEnds n).gens = s.gens := (rfl)
@[simp] theorem State.stageEnds_out (s : State) (n : Nat) : (s.stageEnds n).out = s.out := (rfl)
@[simp] theorem State.stageEnds_pending (s : State) (n : Nat) : (s.stageEnds n).pending = s.pending := (rfl)

@[simp] theorem State.draw_mem (s : State) : s.draw.2.mem = s.mem := (rfl)
@[simp] theorem State.draw_regs (s : State) : s.draw.2.regs = s.regs := (rfl)
@[simp] theorem State.draw_clock (s : State) : s.draw.2.clock = s.clock := (rfl)
@[simp] theorem State.draw_run (s : State) : s.draw.2.run = s.run := (rfl)
@[simp] theorem State.draw_seps (s : State) : s.draw.2.seps = s.seps := (rfl)
@[simp] theorem State.draw_upds (s : State) : s.draw.2.upds = s.upds := (rfl)
@[simp] theorem State.draw_mirrors (s : State) : s.draw.2.mirrors = s.mirrors := (rfl)
@[simp] theorem State.draw_fab (s : State) : s.draw.2.fab = s.fab := (rfl)
@[simp] theorem State.draw_ctl (s : State) : s.draw.2.ctl = { s.ctl with free := s.ctl.free + 1 } := (rfl)
@[simp] theorem State.draw_safety (s : State) : s.draw.2.safety = s.safety := (rfl)
@[simp] theorem State.draw_power (s : State) : s.draw.2.power = s.power := (rfl)
@[simp] theorem State.draw_boot (s : State) : s.draw.2.boot = s.boot := (rfl)
@[simp] theorem State.draw_gens (s : State) : s.draw.2.gens = s.gens := (rfl)
@[simp] theorem State.draw_out (s : State) : s.draw.2.out = s.out := (rfl)
@[simp] theorem State.draw_pending (s : State) : s.draw.2.pending = s.pending := (rfl)
@[simp] theorem State.draw_fst (s : State) : s.draw.1 = s.ctl.free := (rfl)

end Sys2Proof.Machine
end

