-- ==== Sys2Proof/Laws/Tables.lean ====
section
/-!
SUPPORT. Read-over-write laws: sparse tables, bytes of memory, stored registers, the units of a table. Every memory
operation keeps the canonical form of the cells.
-/

namespace Sys2Proof.Machine

/-! ### Tables -/

theorem tfind_nil {α : Type} (k : Nat) : tfind ([] : Tab α) k = none := rfl

theorem tfind_cons {α : Type} (p : Nat × α) (t : Tab α) (k : Nat) :
    tfind (p :: t) k = if p.1 = k then some p.2 else tfind t k := by
  unfold tfind
  by_cases h : p.1 = k <;> simp [h]

theorem tdel_cons {α : Type} (p : Nat × α) (t : Tab α) (k : Nat) :
    tdel (p :: t) k = if p.1 = k then tdel t k else p :: tdel t k := by
  unfold tdel
  by_cases h : p.1 = k <;> simp [h]

theorem tfind_tdel {α : Type} (t : Tab α) (k j : Nat) : tfind (tdel t k) j = if j = k then none else tfind t j := by
  induction t with
  | nil => simp [tdel, tfind_nil]
  | cons p t ih =>
    rw [tdel_cons, tfind_cons]
    by_cases h : p.1 = k
    · rw [if_pos h, ih]
      by_cases hj : j = k
      · simp [hj]
      · rw [if_neg hj, if_neg hj, if_neg (fun e => hj (by omega))]
    · rw [if_neg h, tfind_cons, ih]
      by_cases hj : j = k
      · rw [if_pos hj, if_pos hj, if_neg (fun e => h (by omega))]
      · rw [if_neg hj, if_neg hj]

theorem tfind_tins {α : Type} (k : Nat) (v : α) (t : Tab α) (h : tfind t k = none) (j : Nat) :
    tfind (tins k v t) j = if j = k then some v else tfind t j := by
  induction t with
  | nil => rw [tins, tfind_cons]; by_cases hj : j = k <;> simp [hj, tfind_nil, Ne.symm (a := j) (b := k)]
  | cons p t ih =>
    rw [tfind_cons] at h
    by_cases hp : p.1 = k
    · rw [if_pos hp] at h; exact absurd h (by simp)
    · rw [if_neg hp] at h
      rw [tins]
      by_cases hk : k < p.1
      · rw [if_pos hk, tfind_cons]
        by_cases hj : j = k
        · simp [hj]
        · rw [if_neg hj, if_neg (fun e => hj e.symm)]
      · rw [if_neg hk, tfind_cons, tfind_cons, ih h]
        by_cases hj : j = k
        · rw [if_pos hj, if_pos hj, if_neg (fun e => hp (by omega))]
        · rw [if_neg hj, if_neg hj]

theorem tfind_tput {α : Type} (t : Tab α) (k : Nat) (v : α) (j : Nat) :
    tfind (tput t k v) j = if j = k then some v else tfind t j := by
  rw [tput, tfind_tins _ _ _ (by rw [tfind_tdel, if_pos rfl]), tfind_tdel]
  by_cases hj : j = k <;> simp [hj]

theorem tget_tput {α : Type} (d : α) (t : Tab α) (k : Nat) (v : α) (j : Nat) :
    tget d (tput t k v) j = if j = k then v else tget d t j := by
  rw [tget, tfind_tput, tget]
  by_cases hj : j = k <;> simp [hj]

theorem tget_tputD {α : Type} [DecidableEq α] (d : α) (t : Tab α) (k : Nat) (v : α) (j : Nat) :
    tget d (tputD d t k v) j = if j = k then v else tget d t j := by
  unfold tputD
  by_cases h : v = d
  · rw [if_pos h, tget, tfind_tdel, tget]
    by_cases hj : j = k <;> simp [hj, h]
  · rw [if_neg h, tget_tput]

/-- A register read through another default: the entry written last, or what stood there. -/
theorem tget_tputD_other {α : Type} [DecidableEq α] (d e : α) (t : Tab α) (k : Nat) (v : α) (j : Nat) (h : j ≠ k) :
    tget e (tputD d t k v) j = tget e t j := by
  unfold tputD
  by_cases hv : v = d
  · rw [if_pos hv, tget, tfind_tdel, if_neg h, tget]
  · rw [if_neg hv, tget_tput, if_neg h]

/-! ### Registers -/

/-- A register holds 32 bits of what was written to it; every other register stays. -/
theorem reg_setReg (s : State) (a v b : Nat) : (s.setReg a v).reg b = if b = a then v % 2 ^ 32 else s.reg b := by
  unfold State.reg State.setReg
  by_cases h : b = a
  · subst h
    rw [if_pos rfl]
    show (tget (resetOf b) (tputD (resetOf b) s.regs b (BitVec.ofNat 32 v)) b).toNat = _
    rw [tget_tputD, if_pos rfl, BitVec.toNat_ofNat]
  · rw [if_neg h]
    show (tget (resetOf b) (tputD (resetOf a) s.regs a (BitVec.ofNat 32 v)) b).toNat = _
    rw [tget_tputD_other _ _ _ _ _ _ h]

theorem reg_setReg_self (s : State) (a v : Nat) : (s.setReg a v).reg a = v % 2 ^ 32 := by rw [reg_setReg, if_pos rfl]

theorem reg_setReg_ne (s : State) (a v b : Nat) (h : b ≠ a) : (s.setReg a v).reg b = s.reg b := by rw [reg_setReg, if_neg h]

theorem reg_lt (s : State) (a : Nat) : s.reg a < 2 ^ 32 := (tget (resetOf a) s.regs a).isLt

/-- Registers read alike in states whose register files are alike. -/
theorem reg_congr {s t : State} (h : t.regs = s.regs) (a : Nat) : t.reg a = s.reg a := by unfold State.reg; rw [h]

theorem reg_bump (s : State) (a b : Nat) : (s.bump a).reg b = if b = a then (s.reg a + 1) % 2 ^ 32 else s.reg b :=
  reg_setReg ..

theorem reg_bumpBy (s : State) (a n b : Nat) : (s.bumpBy a n).reg b = if b = a then (s.reg a + n) % 2 ^ 32 else s.reg b :=
  reg_setReg ..

/-! ### The units of a table -/

theorem core_setCore (s : State) (c d : Nat) (k : Core) : (s.setCore c k).core d = if d = c then k else s.core d := by
  unfold State.core State.setCore; exact tget_tputD ..

theorem sep_setSep (s : State) (i j : Nat) (u : SepUnit) : (s.setSep i u).sep j = if j = i then u else s.sep j := by
  unfold State.sep State.setSep; exact tget_tputD ..

theorem upd_setUpd (s : State) (i j : Nat) (u : UpdUnit) : (s.setUpd i u).upd j = if j = i then u else s.upd j := by
  unfold State.upd State.setUpd; exact tget_tputD ..

/-! ### Bytes -/

/-- A byte reads as it was written last; a write of one byte leaves every other. -/
theorem byteAt_setByte (cs : List Host.Cell) (a : Nat) (b : Byte) (x : Nat) :
    byteAt (setByte cs a b) x = if x = a then b else byteAt cs x := tget_tputD ..

theorem byteAt_setBytes (cs : List Host.Cell) (a : Nat) (bs : List Byte) (x : Nat) :
    byteAt (setBytes cs a bs) x = if a ≤ x ∧ x < a + bs.length then bs.getD (x - a) 0 else byteAt cs x := by
  induction bs generalizing cs a with
  | nil => simp [setBytes]
  | cons b bs ih =>
    rw [setBytes, ih, byteAt_setByte]
    by_cases h1 : a + 1 ≤ x ∧ x < a + 1 + bs.length
    · rw [if_pos h1, if_pos (by simp only [List.length_cons]; omega), show x - a = (x - (a + 1)) + 1 by omega]
      simp
    · rw [if_neg h1]
      by_cases h2 : x = a
      · rw [if_pos h2, if_pos (by simp only [List.length_cons]; omega), h2]; simp
      · rw [if_neg h2, if_neg (by simp only [List.length_cons]; omega)]

/-- A masked write changes only bytes its mask names. -/
theorem byteAt_setMasked_out (cs : List Host.Cell) (a : Nat) (bs : List (Byte × Bool)) (x : Nat)
    (h : ¬ (a ≤ x ∧ x < a + bs.length)) : byteAt (setMasked cs a bs) x = byteAt cs x := by
  induction bs generalizing cs a with
  | nil => rfl
  | cons p bs ih =>
    obtain ⟨b, w⟩ := p
    simp only [List.length_cons] at h
    rw [setMasked, ih _ _ (by omega)]
    cases w
    · rfl
    · exact (byteAt_setByte ..).trans (if_neg (by omega))

theorem tfind_filter {α : Type} (t : Tab α) (p : Nat → Bool) (k : Nat) :
    tfind (t.filter (fun c => p c.1)) k = if p k then tfind t k else none := by
  induction t with
  | nil => simp [tfind_nil]
  | cons c t ih =>
    rw [List.filter_cons, tfind_cons]
    by_cases hc : p c.1 = true
    · rw [if_pos hc, tfind_cons, ih]
      by_cases hk : c.1 = k
      · subst hk; simp [hc]
      · simp [hk]
    · rw [if_neg hc, ih]
      by_cases hk : c.1 = k
      · subst hk; simp [hc]
      · simp [hk]

theorem byteAt_zeroBytes (cs : List Host.Cell) (a n x : Nat) :
    byteAt (zeroBytes cs a n) x = if a ≤ x ∧ x < a + n then 0 else byteAt cs x := by
  unfold byteAt zeroBytes tget
  rw [tfind_filter cs (fun y => !(decide (a ≤ y) && decide (y < a + n)))]
  by_cases h : a ≤ x ∧ x < a + n
  · rw [if_pos h]; simp [h.1, h.2]
  · rw [if_neg h, if_pos]; simp only [Bool.not_eq_true', Bool.and_eq_false_iff, decide_eq_false_iff_not]; omega

/-- A run read as a list is its bytes one by one. -/
theorem bytesAt_eq (cs : List Host.Cell) (a n : Nat) : bytesAt cs a n = (List.range n).map (fun i => byteAt cs (a + i)) := by
  unfold bytesAt
  refine List.map_congr_left fun i hi => ?_
  have hi : i < n := List.mem_range.mp hi
  unfold byteAt tget
  rw [tfind_filter cs (fun y => decide (a ≤ y) && decide (y < a + n))]
  simp only [show a ≤ a + i by omega, show a + i < a + n by omega, decide_true, Bool.and_self, if_true]

/-! ### The canonical form -/

/-- The form as a property of the list: keys strictly rising, no byte zero. -/
theorem cellsWf_iff (cs : List Host.Cell) :
    cellsWf cs = true ↔ cs.Pairwise (fun a b => a.1 < b.1) ∧ ∀ c ∈ cs, c.2 ≠ 0 := by
  induction cs with
  | nil => simp [cellsWf]
  | cons c cs ih =>
    cases cs with
    | nil => simp [cellsWf]
    | cons d r =>
      simp only [cellsWf, Bool.and_eq_true, bne_iff_ne, decide_eq_true_eq, ih]
      constructor
      · rintro ⟨⟨hc, hd⟩, hp, hz⟩
        refine ⟨List.pairwise_cons.mpr ⟨?_, hp⟩, ?_⟩
        · intro x hx
          rcases List.mem_cons.mp hx with h | h
          · subst h; exact hd
          · exact lt_trans hd ((List.pairwise_cons.mp hp).1 x h)
        · intro x hx
          rcases List.mem_cons.mp hx with h | h
          · subst h; exact hc
          · exact hz x h
      · rintro ⟨hp, hz⟩
        have hp' := List.pairwise_cons.mp hp
        exact ⟨⟨hz c (by simp), hp'.1 d (by simp)⟩, hp'.2, fun x hx => hz x (List.mem_cons_of_mem _ hx)⟩

theorem mem_tins {α : Type} (k : Nat) (v : α) (t : Tab α) (x : Nat × α) : x ∈ tins k v t ↔ x = (k, v) ∨ x ∈ t := by
  induction t with
  | nil => simp [tins]
  | cons p t ih => rw [tins]; split <;> simp [ih]; tauto

theorem pairwise_tins {α : Type} (k : Nat) (v : α) (t : Tab α) (h : t.Pairwise (fun a b => a.1 < b.1))
    (hk : ∀ x ∈ t, x.1 ≠ k) : (tins k v t).Pairwise (fun a b => a.1 < b.1) := by
  induction t with
  | nil => simp [tins]
  | cons p t ih =>
    have hp := List.pairwise_cons.mp h
    rw [tins]
    split
    · next hlt => exact List.pairwise_cons.mpr ⟨fun x hx => by
        rcases List.mem_cons.mp hx with e | e
        · subst e; exact hlt
        · exact lt_trans hlt (hp.1 x e), h⟩
    · next hlt =>
      refine List.pairwise_cons.mpr ⟨fun x hx => ?_, ih hp.2 fun x hx => hk x (List.mem_cons_of_mem _ hx)⟩
      rcases (mem_tins ..).mp hx with e | e
      · have := hk p (by simp); subst e; show p.1 < k; omega
      · exact hp.1 x e

theorem wf_setByte (cs : List Host.Cell) (a : Nat) (b : Byte) (h : cellsWf cs = true) : cellsWf (setByte cs a b) = true := by
  rw [cellsWf_iff] at *
  have hd : (tdel cs a).Pairwise (fun a b => a.1 < b.1) := h.1.filter _
  have hn : ∀ x ∈ tdel cs a, x.1 ≠ a := fun x hx => by simpa [tdel] using (List.mem_filter.mp hx).2
  have hz : ∀ c ∈ tdel cs a, c.2 ≠ 0 := fun x hx => h.2 x (List.mem_of_mem_filter hx)
  unfold setByte tputD
  split
  · exact ⟨hd, hz⟩
  · next hb =>
    refine ⟨pairwise_tins _ _ _ hd hn, fun x hx => ?_⟩
    rcases (mem_tins ..).mp hx with e | e
    · subst e; exact hb
    · exact hz x e

theorem wf_filter (cs : List Host.Cell) (p : Host.Cell → Bool) (h : cellsWf cs = true) : cellsWf (cs.filter p) = true := by
  rw [cellsWf_iff] at *
  exact ⟨h.1.filter _, fun c hc => h.2 c (List.mem_of_mem_filter hc)⟩

theorem wf_setBytes (cs : List Host.Cell) (a : Nat) (bs : List Byte) (h : cellsWf cs = true) :
    cellsWf (setBytes cs a bs) = true := by
  induction bs generalizing cs a with
  | nil => exact h
  | cons b bs ih => exact ih _ _ (wf_setByte _ _ _ h)

theorem wf_setMasked (cs : List Host.Cell) (a : Nat) (bs : List (Byte × Bool)) (h : cellsWf cs = true) :
    cellsWf (setMasked cs a bs) = true := by
  induction bs generalizing cs a with
  | nil => exact h
  | cons p bs ih =>
    obtain ⟨b, w⟩ := p
    refine ih _ _ ?_
    cases w
    · exact h
    · exact wf_setByte _ _ _ h

theorem wf_zeroBytes (cs : List Host.Cell) (a n : Nat) (h : cellsWf cs = true) : cellsWf (zeroBytes cs a n) = true :=
  wf_filter _ _ h

theorem wf_copyBytes (cs : List Host.Cell) (src dst n : Nat) (h : cellsWf cs = true) : cellsWf (copyBytes cs src dst n) = true := by
  unfold copyBytes
  generalize List.filter _ cs = moved
  have h0 := wf_zeroBytes cs dst n h
  revert h0
  generalize zeroBytes cs dst n = acc
  induction moved generalizing acc with
  | nil => exact fun h => h
  | cons c r ih => exact fun h => ih _ (wf_setByte _ _ _ h)

end Sys2Proof.Machine
end

