-- ==== Sys2Proof/Laws/Effects.lean ====
section
/-!
SUPPORT. What follows from a mask: the part of the state it does not name is unchanged, one lemma per part. What the shared
operations of the log, the events and the faults do.
-/

namespace Sys2Proof.Machine

/-! ### Parts that a mask leaves alone -/

theorem kept_regs {m : Nat} {s t : State} (e : t.hide m = s.hide m) (h : m.testBit 0 = false) : t.regs = s.regs := by
  have := congrArg State.regs e
  simpa [State.hide, h] using this

theorem kept_clock {m : Nat} {s t : State} (e : t.hide m = s.hide m) (h : m.testBit 1 = false) : t.clock = s.clock := by
  have := congrArg State.clock e
  simpa [State.hide, h] using this

theorem kept_run {m : Nat} {s t : State} (e : t.hide m = s.hide m) (h : m.testBit 2 = false) : t.run = s.run := by
  have := congrArg State.run e
  simpa [State.hide, h] using this

theorem kept_seps {m : Nat} {s t : State} (e : t.hide m = s.hide m) (h : m.testBit 3 = false) : t.seps = s.seps := by
  have := congrArg State.seps e
  simpa [State.hide, h] using this

theorem kept_upds {m : Nat} {s t : State} (e : t.hide m = s.hide m) (h : m.testBit 4 = false) : t.upds = s.upds := by
  have := congrArg State.upds e
  simpa [State.hide, h] using this

theorem kept_mirrors {m : Nat} {s t : State} (e : t.hide m = s.hide m) (h : m.testBit 5 = false) : t.mirrors = s.mirrors := by
  have := congrArg State.mirrors e
  simpa [State.hide, h] using this

theorem kept_fab {m : Nat} {s t : State} (e : t.hide m = s.hide m) (h : m.testBit 6 = false) : t.fab = s.fab := by
  have := congrArg State.fab e
  simpa [State.hide, h] using this

theorem kept_ctl {m : Nat} {s t : State} (e : t.hide m = s.hide m) (h : m.testBit 7 = false) : t.ctl = s.ctl := by
  have := congrArg State.ctl e
  simpa [State.hide, h] using this

theorem kept_safety {m : Nat} {s t : State} (e : t.hide m = s.hide m) (h : m.testBit 8 = false) : t.safety = s.safety := by
  have := congrArg State.safety e
  simpa [State.hide, h] using this

theorem kept_power {m : Nat} {s t : State} (e : t.hide m = s.hide m) (h : m.testBit 9 = false) : t.power = s.power := by
  have := congrArg State.power e
  simpa [State.hide, h] using this

theorem kept_boot {m : Nat} {s t : State} (e : t.hide m = s.hide m) (h : m.testBit 10 = false) : t.boot = s.boot := by
  have := congrArg State.boot e
  simpa [State.hide, h] using this

theorem kept_gens {m : Nat} {s t : State} (e : t.hide m = s.hide m) (h : m.testBit 11 = false) : t.gens = s.gens := by
  have := congrArg State.gens e
  simpa [State.hide, h] using this

theorem kept_out {m : Nat} {s t : State} (e : t.hide m = s.hide m) (h : m.testBit 12 = false) : t.out = s.out := by
  have := congrArg State.out e
  simpa [State.hide, h] using this

theorem kept_pending {m : Nat} {s t : State} (e : t.hide m = s.hide m) (h : m.testBit 13 = false) : t.pending = s.pending := by
  have := congrArg State.pending e
  simpa [State.hide, h] using this

theorem kept_mem {m : Nat} {s t : State} (e : t.hide m = s.hide m) (h : m.testBit 14 = false) (k : m.testBit 15 = false) :
    t.mem = s.mem := by
  have := congrArg State.mem e
  simpa [State.hide, h, k] using this

/-- A mask without bit 15 leaves every byte. -/
theorem kept_cells {m : Nat} {s t : State} (e : t.hide m = s.hide m) (k : m.testBit 15 = false) : t.mem.cells = s.mem.cells := by
  have := congrArg (fun x => x.mem.cells) e
  by_cases h : m.testBit 14 = true <;> simpa [State.hide, h, k] using this

/-! ### The log (R391, R392) -/

theorem mem_placeFault (r : LogRecord) (l : List LogRecord) : ∃ x ∈ placeFault r l, x = { r with seq := x.seq } := by
  induction l generalizing r with
  | nil => exact ⟨r, by simp [placeFault], rfl⟩
  | cons p l ih =>
    unfold placeFault
    split
    · obtain ⟨x, hx, e⟩ := ih { r with seq := p.seq }
      exact ⟨x, List.mem_cons_of_mem _ hx, by rw [e]⟩
    · exact ⟨r, by simp, rfl⟩

/-- A log with room takes the record, under a number of its own. -/
theorem logAppend_records (s : State) (r : LogRecord) (h : s.ctl.log.length < logCapacity) :
    ∃ x ∈ (s.logAppend r).ctl.log, x = { r with seq := x.seq } := by
  unfold State.logAppend
  rw [if_pos h]
  by_cases hk : r.kind = 1
  · obtain ⟨x, hx, e⟩ := mem_placeFault { r with seq := s.ctl.nextSeq } s.ctl.log.reverse
    exact ⟨x, by simpa [hk] using hx, by rw [e]⟩
  · exact ⟨{ r with seq := s.ctl.nextSeq }, by simp [hk], rfl⟩

/-- The FAULT event leaves no record of its own (R390). -/
theorem event_fault_ctl (s : State) (cls inst a : Nat) : (s.event cls inst evFault a).ctl = s.ctl := by
  unfold State.event
  simp only [if_true]
  split
  · split <;> simp
  · simp

/-- A fault's record and its event do to the log what the record does. -/
theorem faultRecord_ctl (s : State) (f : FaultAt) (first : Bool) :
    (s.faultRecord f first).ctl = (s.logAppend (s.record 1 f first)).ctl := by
  unfold State.faultRecord
  rw [event_fault_ctl]; simp only [State.bump_ctl]

/-- A fault is recorded with its code, block, address and phase. -/
theorem faultRecord_records (s : State) (f : FaultAt) (first : Bool) (h : s.ctl.log.length < logCapacity) :
    ∃ x ∈ (s.faultRecord f first).ctl.log, x = { s.record 1 f first with seq := x.seq } := by
  rw [faultRecord_ctl]; exact logAppend_records _ _ h

/-- What a fault does to the log while no plan runs is its record, a detection's too. While one runs the plan stop follows, which
may meet errors in the stacks as it puts batches back, and those have events of their own. -/
theorem raise_ctl (s : State) (f : FaultAt) (d : Bool) (h : s.planRuns = false) :
    (s.raise f d).ctl = (s.logAppend (s.record 1 f false)).ctl := by
  have h2 : ∀ (t : State), (t.detect f).ctl = t.ctl := fun t => kept_ctl (State.detect_hide 349 (by decide) t f) rfl
  unfold State.raise
  cases d <;> simp only [h, Bool.false_eq_true, if_true, if_false, h2, faultRecord_ctl]

/-- A fault is recorded, whether or not it is a detection. -/
theorem raise_records (s : State) (f : FaultAt) (d : Bool) (h : s.ctl.log.length < logCapacity) (hr : s.planRuns = false) :
    ∃ x ∈ (s.raise f d).ctl.log, x = { s.record 1 f false with seq := x.seq } := by
  rw [raise_ctl s f d hr]; exact logAppend_records _ _ h

/-! ### Events (R390) -/

/-- Registers an event may write: those of its block's event page and the lost-record count. -/
theorem event_reg (s : State) (cls inst bit a x : Nat) (h1 : x ≠ Reg.EVENT_RAW cls inst) (h2 : x ≠ Reg.COUNTER_0 cls inst)
    (h3 : x ≠ Reg.EVENT_LATCH cls inst) (h4 : x ≠ Reg.QMGR_LOG_LOST) : (s.event cls inst bit a).reg x = s.reg x := by
  have hl : ∀ (t : State) r, (t.logAppend r).reg x = t.reg x := by
    intro t r; unfold State.logAppend; dsimp only
    repeat' split
    all_goals first | rfl | (rw [reg_bump, if_neg h4]; done) | (rw [reg_bump, if_neg h4]; rfl)
  unfold State.event
  dsimp only
  repeat' split
  all_goals simp only [hl, reg_bump, reg_setReg, h1, h2, h3, if_false]

end Sys2Proof.Machine
end

