-- ==== Sys2Proof/Laws/FrameExec.lean ====
section
/-!
SUPPORT. What each command leaves alone: the mask of a command names the parts of the state it may change (the bits of
Frame.lean), and exec leaves the others as they were.
-/

namespace Sys2Proof.Machine

/-- The parts of the state a command may change. -/
def commandMask : Sys2Proof.Instr → Nat
  | .nop _ => 4289
  | .regRead _ _ _ => 4289
  | .regWrite _ _ _ => 55293
  | .regModify _ _ _ => 55293
  | .memRead _ _ _ => 53725
  | .memWrite _ _ _ => 53725
  | .doorbellSubmissionTail _ _ _ => 4289
  | .doorbellCompletionHead _ _ _ => 4289
  | .eventFetch _ _ _ _ => 4289
  | .attest _ _ => 4289
  | .twinDigests _ _ _ => 53725
  | .safetyReportReply _ _ _ => 257
  | .submissionStart _ => 49629
  | .sqNop _ _ => 49629
  | .copy _ _ => 49629
  | .fill _ _ => 49629
  | .digest _ _ => 49629
  | .planLoad _ _ => 53725
  | .sqFence _ _ => 49629
  | .queueEnable _ _ => 129
  | .queueDisable _ => 129
  | .runStart => 49661
  | .runEnd => 4
  | .abort => 49629
  | .retryArm _ => 49661
  | .variantRequest _ => 4
  | .shapeArm => 4
  | .hpArm => 4
  | .snapRequest _ => 133
  | .sepCmdSubmit _ => 153
  | .updCmdSubmit _ => 153
  | .flipMaskArm _ _ => 129
  | .eventLatchClear _ _ => 1
  | .clearCounters _ => 1
  | .attnAckIdentity => 5249
  | .safeRelease _ => 385
  | .stopRequest => 49629
  | .moduleNumberWrite _ => 4801
  | .codeRegionWordWrite _ _ _ => 16513
  | .portConfigWrite _ _ => 193
  | .pailConfigWrite _ _ => 1
  | .restoreStart _ => 49857
  | .restoreAbort => 512
  | .activateArm _ => 1153
  | .activateCancel => 1024
  | .svnCommit _ => 1153
  | .stageStart _ => 50653
  | .bind => 5249
  | .unbind => 1153
  | .parlourStageOffsetWrite _ => 1
  | .parlourStageAppend _ => 49281
  | .parlourCommit => 1024
  | .parlourActivate => 51165
  | .anchorSet _ => 1153
  | .anchorClear _ => 1153
  | .calSelectWrite _ => 1
  | .userSet => 1153
  | .userClear => 1153
  | .userClearAll => 1153
  | .readClearField _ => 1
  | .phaseLoRead => 1
  | .plainRegisterWrite _ _ => 55293
  | .syncIntervalEnd => 1027
  | .phaseLost => 49631
  | .slewCorrection => 2
  | .sync _ _ _ => 2
  | .delayResp _ _ _ => 2
  | .segmentRelease _ => 49629
  | .stallCauseStart _ _ => 5
  | .stallCauseClear _ _ => 133
  | .herdFreeze _ => 4
  | .herdResume _ => 4
  | .late _ => 49629
  | .passSwap _ => 5
  | .shadowLoadComplete _ => 49629
  | .chunkSum _ => 49629
  | .drainRow _ => 51677
  | .rerunRestart _ => 49629
  | .segmentEnd _ => 49629
  | .fetchComplete _ => 5
  | .copyRequestStart _ => 55293
  | .elasticPromotion _ => 1
  | .stepBoundary => 50141
  | .safetySelftest _ => 49629
  | .initialMilkRun _ => 49629
  | .completionPass _ => 49661
  | .sepCommandArrive _ _ _ _ => 49629
  | .prune _ => 49629
  | .regrow _ => 49629
  | .audit _ => 49629
  | .collect _ => 49629
  | .sepBatchWrite _ _ => 49661
  | .intakeWrite _ _ _ => 49629
  | .updCommandArrive _ _ _ _ => 49629
  | .update _ => 49629
  | .apply _ => 49629
  | .derive _ => 49629
  | .exportShard _ => 49629
  | .importShard _ => 49629
  | .updBatch _ _ _ => 51677
  | .mirrorAck _ _ _ => 49661
  | .mirrorWaitExpiry _ _ => 49661
  | .snapshotRecordAck _ _ => 65
  | .digestWaitExpiry _ _ => 49345
  | .twinLost => 129
  | .churnChunk _ => 49629
  | .pailLeak _ => 3
  | .invalidationAck _ => 49661
  | .write _ => 55293
  | .read _ => 53725
  | .readData _ => 52189
  | .ack _ => 65
  | .nak _ => 51165
  | .writeDone _ => 50141
  | .creditReq _ => 65
  | .creditGrant _ => 65
  | .control _ => 55293
  | .join _ => 55261
  | .gather _ => 53725
  | .reduce _ => 49629
  | .redHoldRelease _ _ => 49629
  | .notice _ => 193
  | .pauseFrame _ => 1
  | .ackTimer _ => 64
  | .nakTimer _ => 64
  | .retryTimeout _ _ => 51165
  | .frameSend _ => 4289
  | .creditReturn _ => 65
  | .macsecRekey _ _ => 4288
  | .joinRetryTimer _ _ _ => 4288
  | .portUp _ => 4289
  | .portDown _ => 193
  | .portDownHoldExpiry _ => 193
  | .slotEdge _ => 53725
  | .heartbeatIntervalExpiry => 49629
  | .safetyLockstepMismatch => 49629
  | .parlourLockstepReset => 769
  | .stopAcksComplete => 257
  | .safetyReportSend => 4481
  | .reportResendTimer => 4481
  | .auxRailUp => 51165
  | .auxRailLoss => 51199
  | .inputQualified => 512
  | .railsInRegulation => 512
  | .dieStart _ => 53213
  | .stackTrained _ => 49665
  | .startTimeout => 50141
  | .supplyWarning => 517
  | .supplyClear => 512
  | .supplyResume => 51199
  | .supplyHold => 50141
  | .supplyReset => 51199
  | .senseBladeUnmate => 512
  | .droopTrip _ => 517
  | .droopRecover _ => 50141
  | .thermalSample _ => 51199
  | .thermalTripTimer => 51199
  | .refclkPortLoss _ => 193
  | .refclkDieLoss => 517
  | .refclkDieReturn => 512
  | .refclkDieTimeout => 51199
  | .activationTick => 51199
  | .senseBladeMate => 512
  | .bulkNodeCrossing _ => 512
  | .tierTrained _ => 640
  | .stagingComplete => 1024

/-- Every command leaves the other parts alone. -/
theorem exec_hide (c : Sys2Proof.Instr) {s t : State} (h : exec c s = .next t) :
    t.hide (commandMask c) = s.hide (commandMask c) := by
  cases c
  case nop _ => exact execNop_hide _ _ _ h
  case regRead _ _ _ => exact execRegRead_hide _ _ _ _ _ h
  case regWrite _ _ _ => exact execRegWrite_hide _ _ _ _ _ h
  case regModify _ _ _ => exact execRegModify_hide _ _ _ _ _ h
  case memRead _ _ _ => exact execMemRead_hide _ _ _ _ _ h
  case memWrite _ _ _ => exact execMemWrite_hide _ _ _ _ _ h
  case doorbellSubmissionTail _ _ _ => exact execDoorbellSubmissionTail_hide _ _ _ _ _ h
  case doorbellCompletionHead _ _ _ => exact execDoorbellCompletionHead_hide _ _ _ _ _ h
  case eventFetch _ _ _ _ => exact execEventFetch_hide _ _ _ _ _ _ h
  case attest _ _ => exact execAttest_hide _ _ _ _ h
  case twinDigests _ _ _ => exact execTwinDigests_hide _ _ _ _ _ h
  case safetyReportReply _ _ _ => exact execSafetyReportReply_hide _ _ _ _ _ h
  case submissionStart _ => exact execSubmissionStart_hide _ _ _ h
  case sqNop _ _ => exact execSqNop_hide _ _ _ _ h
  case copy _ _ => exact execCopy_hide _ _ _ _ h
  case fill _ _ => exact execFill_hide _ _ _ _ h
  case digest _ _ => exact execDigest_hide _ _ _ _ h
  case planLoad _ _ => exact execPlanLoad_hide _ _ _ _ h
  case sqFence _ _ => exact execSqFence_hide _ _ _ _ h
  case queueEnable _ _ => exact execQueueEnable_hide _ _ _ _ h
  case queueDisable _ => exact execQueueDisable_hide _ _ _ h
  case runStart => exact execRunStart_hide _ _ h
  case runEnd => exact execRunEnd_hide _ _ h
  case abort => exact execAbort_hide _ _ h
  case retryArm _ => exact execRetryArm_hide _ _ _ h
  case variantRequest _ => exact execVariantRequest_hide _ _ _ h
  case shapeArm => exact execShapeArm_hide _ _ h
  case hpArm => exact execHpArm_hide _ _ h
  case snapRequest _ => exact execSnapRequest_hide _ _ _ h
  case sepCmdSubmit _ => exact execSepCmdSubmit_hide _ _ _ h
  case updCmdSubmit _ => exact execUpdCmdSubmit_hide _ _ _ h
  case flipMaskArm _ _ => exact execFlipMaskArm_hide _ _ _ _ h
  case eventLatchClear _ _ => exact execEventLatchClear_hide _ _ _ _ h
  case clearCounters _ => exact execClearCounters_hide _ _ _ h
  case attnAckIdentity => exact execAttnAckIdentity_hide _ _ h
  case safeRelease _ => exact execSafeRelease_hide _ _ _ h
  case stopRequest => exact execStopRequest_hide _ _ h
  case moduleNumberWrite _ => exact execModuleNumberWrite_hide _ _ _ h
  case codeRegionWordWrite _ _ _ => exact execCodeRegionWordWrite_hide _ _ _ _ _ h
  case portConfigWrite _ _ => exact execPortConfigWrite_hide _ _ _ _ h
  case pailConfigWrite _ _ => exact execPailConfigWrite_hide _ _ _ _ h
  case restoreStart _ => exact execRestoreStart_hide _ _ _ h
  case restoreAbort => exact execRestoreAbort_hide _ _ h
  case activateArm _ => exact execActivateArm_hide _ _ _ h
  case activateCancel => exact execActivateCancel_hide _ _ h
  case svnCommit _ => exact execSvnCommit_hide _ _ _ h
  case stageStart _ => exact execStageStart_hide _ _ _ h
  case bind => exact execBind_hide _ _ h
  case unbind => exact execUnbind_hide _ _ h
  case parlourStageOffsetWrite _ => exact execParlourStageOffsetWrite_hide _ _ _ h
  case parlourStageAppend _ => exact execParlourStageAppend_hide _ _ _ h
  case parlourCommit => exact execParlourCommit_hide _ _ h
  case parlourActivate => exact execParlourActivate_hide _ _ h
  case anchorSet _ => exact execAnchorSet_hide _ _ _ h
  case anchorClear _ => exact execAnchorClear_hide _ _ _ h
  case calSelectWrite _ => exact execCalSelectWrite_hide _ _ _ h
  case userSet => exact execUserSet_hide _ _ h
  case userClear => exact execUserClear_hide _ _ h
  case userClearAll => exact execUserClearAll_hide _ _ h
  case readClearField _ => exact execReadClearField_hide _ _ _ h
  case phaseLoRead => exact execPhaseLoRead_hide _ _ h
  case plainRegisterWrite _ _ => exact execPlainRegisterWrite_hide _ _ _ _ h
  case syncIntervalEnd => exact execSyncIntervalEnd_hide _ _ h
  case phaseLost => exact execPhaseLost_hide _ _ h
  case slewCorrection => exact execSlewCorrection_hide _ _ h
  case sync _ _ _ => exact execSync_hide _ _ _ _ _ h
  case delayResp _ _ _ => exact execDelayResp_hide _ _ _ _ _ h
  case segmentRelease _ => exact execSegmentRelease_hide _ _ _ h
  case stallCauseStart _ _ => exact execStallCauseStart_hide _ _ _ _ h
  case stallCauseClear _ _ => exact execStallCauseClear_hide _ _ _ _ h
  case herdFreeze _ => exact execHerdFreeze_hide _ _ _ h
  case herdResume _ => exact execHerdResume_hide _ _ _ h
  case late _ => exact execLate_hide _ _ _ h
  case passSwap _ => exact execPassSwap_hide _ _ _ h
  case shadowLoadComplete _ => exact execShadowLoadComplete_hide _ _ _ h
  case chunkSum _ => exact execChunkSum_hide _ _ _ h
  case drainRow _ => exact execDrainRow_hide _ _ _ h
  case rerunRestart _ => exact execRerunRestart_hide _ _ _ h
  case segmentEnd _ => exact execSegmentEnd_hide _ _ _ h
  case fetchComplete _ => exact execFetchComplete_hide _ _ _ h
  case copyRequestStart _ => exact execCopyRequestStart_hide _ _ _ h
  case elasticPromotion _ => exact execElasticPromotion_hide _ _ _ h
  case stepBoundary => exact execStepBoundary_hide _ _ h
  case safetySelftest _ => exact execSafetySelftest_hide _ _ _ h
  case initialMilkRun _ => exact execInitialMilkRun_hide _ _ _ h
  case completionPass _ => exact execCompletionPass_hide _ _ _ h
  case sepCommandArrive _ _ _ _ => exact execSepCommandArrive_hide _ _ _ _ _ _ h
  case prune _ => exact execPrune_hide _ _ _ h
  case regrow _ => exact execRegrow_hide _ _ _ h
  case audit _ => exact execAudit_hide _ _ _ h
  case collect _ => exact execCollect_hide _ _ _ h
  case sepBatchWrite _ _ => exact execSepBatchWrite_hide _ _ _ _ h
  case intakeWrite _ _ _ => exact execIntakeWrite_hide _ _ _ _ _ h
  case updCommandArrive _ _ _ _ => exact execUpdCommandArrive_hide _ _ _ _ _ _ h
  case update _ => exact execUpdate_hide _ _ _ h
  case apply _ => exact execApply_hide _ _ _ h
  case derive _ => exact execDerive_hide _ _ _ h
  case exportShard _ => exact execExportShard_hide _ _ _ h
  case importShard _ => exact execImportShard_hide _ _ _ h
  case updBatch _ _ _ => exact execUpdBatch_hide _ _ _ _ _ h
  case mirrorAck _ _ _ => exact execMirrorAck_hide _ _ _ _ _ h
  case mirrorWaitExpiry _ _ => exact execMirrorWaitExpiry_hide _ _ _ _ h
  case snapshotRecordAck _ _ => exact execSnapshotRecordAck_hide _ _ _ _ h
  case digestWaitExpiry _ _ => exact execDigestWaitExpiry_hide _ _ _ _ h
  case twinLost => exact execTwinLost_hide _ _ h
  case churnChunk _ => exact execChurnChunk_hide _ _ _ h
  case pailLeak _ => exact execPailLeak_hide _ _ _ h
  case invalidationAck _ => exact execInvalidationAck_hide _ _ _ h
  case write _ => exact execWrite_hide _ _ _ h
  case read _ => exact execRead_hide _ _ _ h
  case readData _ => exact execReadData_hide _ _ _ h
  case ack _ => exact execAck_hide _ _ _ h
  case nak _ => exact execNak_hide _ _ _ h
  case writeDone _ => exact execWriteDone_hide _ _ _ h
  case creditReq _ => exact execCreditReq_hide _ _ _ h
  case creditGrant _ => exact execCreditGrant_hide _ _ _ h
  case control _ => exact execControl_hide _ _ _ h
  case join _ => exact execJoin_hide _ _ _ h
  case gather _ => exact execGather_hide _ _ _ h
  case reduce _ => exact execReduce_hide _ _ _ h
  case redHoldRelease _ _ => exact execRedHoldRelease_hide _ _ _ _ h
  case notice _ => exact execNotice_hide _ _ _ h
  case pauseFrame _ => exact execPauseFrame_hide _ _ _ h
  case ackTimer _ => exact execAckTimer_hide _ _ _ h
  case nakTimer _ => exact execNakTimer_hide _ _ _ h
  case retryTimeout _ _ => exact execRetryTimeout_hide _ _ _ _ h
  case frameSend _ => exact execFrameSend_hide _ _ _ h
  case creditReturn _ => exact execCreditReturn_hide _ _ _ h
  case macsecRekey _ _ => exact execMacsecRekey_hide _ _ _ _ h
  case joinRetryTimer _ _ _ => exact execJoinRetryTimer_hide _ _ _ _ _ h
  case portUp _ => exact execPortUp_hide _ _ _ h
  case portDown _ => exact execPortDown_hide _ _ _ h
  case portDownHoldExpiry _ => exact execPortDownHoldExpiry_hide _ _ _ h
  case slotEdge _ => exact execSlotEdge_hide _ _ _ h
  case heartbeatIntervalExpiry => exact execHeartbeatIntervalExpiry_hide _ _ h
  case safetyLockstepMismatch => exact execSafetyLockstepMismatch_hide _ _ h
  case parlourLockstepReset => exact execParlourLockstepReset_hide _ _ h
  case stopAcksComplete => exact execStopAcksComplete_hide _ _ h
  case safetyReportSend => exact execSafetyReportSend_hide _ _ h
  case reportResendTimer => exact execReportResendTimer_hide _ _ h
  case auxRailUp => exact execAuxRailUp_hide _ _ h
  case auxRailLoss => exact execAuxRailLoss_hide _ _ h
  case inputQualified => exact execInputQualified_hide _ _ h
  case railsInRegulation => exact execRailsInRegulation_hide _ _ h
  case dieStart _ => exact execDieStart_hide _ _ _ h
  case stackTrained _ => exact execStackTrained_hide _ _ _ h
  case startTimeout => exact execStartTimeout_hide _ _ h
  case supplyWarning => exact execSupplyWarning_hide _ _ h
  case supplyClear => exact execSupplyClear_hide _ _ h
  case supplyResume => exact execSupplyResume_hide _ _ h
  case supplyHold => exact execSupplyHold_hide _ _ h
  case supplyReset => exact execSupplyReset_hide _ _ h
  case senseBladeUnmate => exact execSenseBladeUnmate_hide _ _ h
  case droopTrip _ => exact execDroopTrip_hide _ _ _ h
  case droopRecover _ => exact execDroopRecover_hide _ _ _ h
  case thermalSample _ => exact execThermalSample_hide _ _ _ h
  case thermalTripTimer => exact execThermalTripTimer_hide _ _ h
  case refclkPortLoss _ => exact execRefclkPortLoss_hide _ _ _ h
  case refclkDieLoss => exact execRefclkDieLoss_hide _ _ h
  case refclkDieReturn => exact execRefclkDieReturn_hide _ _ h
  case refclkDieTimeout => exact execRefclkDieTimeout_hide _ _ h
  case activationTick => exact execActivationTick_hide _ _ h
  case senseBladeMate => exact execSenseBladeMate_hide _ _ h
  case bulkNodeCrossing _ => exact execBulkNodeCrossing_hide _ _ _ h
  case tierTrained _ => exact execTierTrained_hide _ _ _ h
  case stagingComplete => exact execStagingComplete_hide _ _ h

end Sys2Proof.Machine
end

