-- ==== Sys2Proof/WellFormed.lean ====
section
/-!
DEFINITION. Which commands are well formed: every operand within the width that the manual gives it. A meaning is total
and does not rest on this check; it says what a sender can put on the wire.
-/

namespace Sys2Proof

/-- Table 13.1, R332, R382: a sender's number and queue have 12 bits. -/
def sessionOk (f : Session) : Bool := decide (f.src < 4096) && decide (f.queue < 4096)

/-- Tables 12.2 and 12.3: a header of 32 bytes, the blocks it announces, each of 1 to 4,096 bytes, and nothing else; a packet
number of 64 bits (R344). -/
def rxOk (r : Rx) : Bool := r.formed && decide (r.packet < 2 ^ 64)

/-- R336. -/
def flowOk (f : FlowId) : Bool :=
  decide (f.peer < 4096) && decide (f.plane < 2) && decide (f.cls < 4) && decide (f.queue < 4096)

/-- Table 13.14: a block that exists. -/
def blkOk (b : Blk) : Bool := decide (b.inst < Machine.classInstances b.cls)

/-- Table 12.20. -/
def recordOk (r : DigestRecord) : Bool := decide (r.owner < 4096) && decide (r.stack < 12) && decide (r.shard < 4096)

/-- R343, R462: a number of 12 bits, one of two planes, a chain with a leaf. -/
def offerOk (o : JoinOffer) : Bool :=
  decide (o.peer < 4096) && decide (o.plane < 2) && decide (o.gen < 16) && !o.chain.isEmpty

/-- A register address (R401): a word of a page that exists. -/
def registerOk (a : Word) : Bool :=
  a.toNat % 4 == 0 && (Machine.pageRows (a.toNat / 2 ^ 24) (a.toNat / 2 ^ 16 % 256) (a.toNat / 2 ^ 12 % 16)).isSome

/-- COUNT of a message (Table 13.1) has 16 bits. -/
def countOk (n : Nat) : Bool := decide (n < 65536)

/-- The check of a command. -/
def Instr.wf : Instr → Bool
  | .nop f => sessionOk f
  | .regRead f count addr => sessionOk f && countOk count && addr.toNat % 4 == 0
  | .regWrite f addr data => sessionOk f && countOk data.length && addr.toNat % 4 == 0
  | .regModify f addr data => sessionOk f && countOk data.length && addr.toNat % 4 == 0
  | .memRead f count _ => sessionOk f && countOk count
  | .memWrite f _ data => sessionOk f && countOk data.length
  | .doorbellSubmissionTail f queue index => sessionOk f && decide (queue < 4096) && countOk index
  | .doorbellCompletionHead f queue index => sessionOk f && decide (queue < 4096) && countOk index
  | .eventFetch f count fromSeq ackSeq => sessionOk f && countOk count && decide (fromSeq < 2 ^ 32) && decide (ackSeq < 2 ^ 32)
  | .attest f nonce => sessionOk f && countOk nonce.length
  | .twinDigests f _ records => sessionOk f && countOk records.length && records.all recordOk
  | .safetyReportReply receiver status _ => decide (receiver < 4096) && decide (status < 256)
  | .submissionStart _ => true
  | .sqNop _ index => countOk index
  | .copy _ index => countOk index
  | .fill _ index => countOk index
  | .digest _ index => countOk index
  | .planLoad _ index => countOk index
  | .sqFence _ index => countOk index
  | .queueEnable _ _ => true
  | .queueDisable _ => true
  | .runStart => true
  | .runEnd => true
  | .abort => true
  | .retryArm _ => true
  | .variantRequest _ => true
  | .shapeArm => true
  | .hpArm => true
  | .snapRequest _ => true
  | .sepCmdSubmit _ => true
  | .updCmdSubmit _ => true
  | .flipMaskArm b _ => blkOk b
  | .eventLatchClear b _ => blkOk b
  | .clearCounters b => blkOk b
  | .attnAckIdentity => true
  | .safeRelease _ => true
  | .stopRequest => true
  | .moduleNumberWrite _ => true
  | .codeRegionWordWrite _ _ _ => true
  | .portConfigWrite _ _ => true
  | .pailConfigWrite b _ => blkOk b
  | .restoreStart _ => true
  | .restoreAbort => true
  | .activateArm _ => true
  | .activateCancel => true
  | .svnCommit _ => true
  | .stageStart kind => decide (kind < 8)
  | .bind => true
  | .unbind => true
  | .parlourStageOffsetWrite _ => true
  | .parlourStageAppend _ => true
  | .parlourCommit => true
  | .parlourActivate => true
  | .anchorSet _ => true
  | .anchorClear _ => true
  | .calSelectWrite _ => true
  | .userSet => true
  | .userClear => true
  | .userClearAll => true
  | .readClearField addr => registerOk addr
  | .phaseLoRead => true
  | .plainRegisterWrite addr _ => registerOk addr
  | .syncIntervalEnd => true
  | .phaseLost => true
  | .slewCorrection => true
  | .sync _ t1 _ => decide (t1.domain < 256)
  | .delayResp _ _ t4 => decide (t4.domain < 256)
  | .segmentRelease _ => true
  | .stallCauseStart _ _ => true
  | .stallCauseClear _ _ => true
  | .herdFreeze _ => true
  | .herdResume _ => true
  | .late _ => true
  | .passSwap _ => true
  | .shadowLoadComplete _ => true
  | .chunkSum _ => true
  | .drainRow _ => true
  | .rerunRestart _ => true
  | .segmentEnd _ => true
  | .fetchComplete _ => true
  | .copyRequestStart _ => true
  | .elasticPromotion _ => true
  | .stepBoundary => true
  | .safetySelftest missing => blkOk missing
  | .initialMilkRun _ => true
  | .completionPass _ => true
  | .sepCommandArrive _ _ offset data => decide (offset + data.length ≤ 64)
  | .prune _ => true
  | .regrow _ => true
  | .audit _ => true
  | .collect _ => true
  | .sepBatchWrite _ _ => true
  | .intakeWrite _ offset data => decide (offset + data.length ≤ 2 ^ 32)
  | .updCommandArrive _ _ offset data => decide (offset + data.length ≤ 64)
  | .update _ => true
  | .apply _ => true
  | .derive _ => true
  | .exportShard _ => true
  | .importShard _ => true
  | .updBatch _ _ _ => true
  | .mirrorAck _ _ _ => true
  | .mirrorWaitExpiry _ _ => true
  | .snapshotRecordAck _ _ => true
  | .digestWaitExpiry _ _ => true
  | .twinLost => true
  | .churnChunk _ => true
  | .pailLeak b => blkOk b
  | .invalidationAck _ => true
  | .write r => rxOk r
  | .read r => rxOk r
  | .readData r => rxOk r
  | .ack r => rxOk r
  | .nak r => rxOk r
  | .writeDone r => rxOk r
  | .creditReq r => rxOk r
  | .creditGrant r => rxOk r
  | .control r => rxOk r
  | .join o => offerOk o
  | .gather r => rxOk r
  | .reduce r => rxOk r
  | .redHoldRelease entry unit => decide (entry < 4096) && decide (unit < 2 ^ 23)
  | .notice r => rxOk r
  | .pauseFrame _ => true
  | .ackTimer f => flowOk f
  | .nakTimer f => flowOk f
  | .retryTimeout f _ => flowOk f
  | .frameSend _ => true
  | .creditReturn _ => true
  | .macsecRekey peer _ => decide (peer < 4096)
  | .joinRetryTimer peer _ plane => decide (peer < 4096) && decide (plane < 2)
  | .portUp _ => true
  | .portDown _ => true
  | .portDownHoldExpiry _ => true
  | .slotEdge _ => true
  | .heartbeatIntervalExpiry => true
  | .safetyLockstepMismatch => true
  | .parlourLockstepReset => true
  | .stopAcksComplete => true
  | .safetyReportSend => true
  | .reportResendTimer => true
  | .auxRailUp => true
  | .auxRailLoss => true
  | .inputQualified => true
  | .railsInRegulation => true
  | .dieStart _ => true
  | .stackTrained _ => true
  | .startTimeout => true
  | .supplyWarning => true
  | .supplyClear => true
  | .supplyResume => true
  | .supplyHold => true
  | .supplyReset => true
  | .senseBladeUnmate => true
  | .droopTrip _ => true
  | .droopRecover _ => true
  | .thermalSample _ => true
  | .thermalTripTimer => true
  | .refclkPortLoss _ => true
  | .refclkDieLoss => true
  | .refclkDieReturn => true
  | .refclkDieTimeout => true
  | .activationTick => true
  | .senseBladeMate => true
  | .bulkNodeCrossing _ => true
  | .tierTrained _ => true
  | .stagingComplete => true

end Sys2Proof
end

