-- ==== Sys2Proof/Tests/Slice0.lean ====
section
/-!
SUPPORT. Tests: well-formedness, worked examples of the manual, single steps; and, for every statement that has hypotheses,
a state and operands that meet them, clause by clause.
-/

namespace Sys2Proof.Tests

open Sys2Proof Sys2Proof.Machine

set_option maxRecDepth 4000
set_option Elab.async false
set_option linter.unusedVariables false

/-! ### States -/

/-- The state a meaning answers. -/
def outNext (d : State) : Result → State
  | .next t => t
  | _ => d

/-- The die runs, all memories are trained, module number 5. -/
def up : State := { State.reset with
  power := { State.reset.power with aux := true, parlour := true, booting := 3, bulk := true, inputOk := true, conversion := true, die := true, started := true, trained := List.range 12, tiers := [0, 1], moduleNumber := some 5 }
  regs := [(Reg.FABRIC_MODULE_NUMBER 0, 4096 + 5)] }

def s0 : State := State.reset
def ent (cls st : Nat) : Entry := { (default : Entry) with cls := cls, startSlot := st, slack := 2 }
def prod : Desc := { (default : Desc) with
  modes := { (default : DescModes) with tileRows := 2, tiles := 1, outRoute := 3 },
  addrs := { (default : DescAddrs) with aBase := 0, valueBase := 4096, outBase := 65536 }
  ext := (2, 1, 1), levels := [] }
def plan0 : Plan := { (default : Plan) with
  variants := [⟨0, 0, 3, 4, 0, []⟩, ⟨1, 1, 3, 4, 9, []⟩], planeSet := 3
  schedules := (List.range 64).map (fun c => (c, [ent 0 0, ent 4 1, ent 5 3]))
  descs := (List.range 64).map (fun c => (1024 * c, prod)) }
def live : State := { up with fab := { up.fab with ports := (List.range 8).map (fun p => (p, ⟨true, true, true, none, 0⟩)) }
                              regs := up.regs ++ (List.range 8).map (fun p => (Reg.PORT_PORT_CONFIG p, 0x100)) }
def runs (e : Nat) : State := { live with
  clock := { live.clock with locked := true, everLocked := true, phase := 4096 * 13 + 20, now := 9000 }
  run := { live.run with plan := some plan0, run := true, stepStart := 10, variant := 0, cores := (List.range 64).map (fun c => (c, { Core.reset with entry := e })) } }
def rel : State := outNext (runs 0) (exec (.segmentRelease ⟨63, .whole⟩) (runs 0))
def pr (n : Nat) (h : Bool) : Peer := { (default : Peer) with num := n, host := h, plane := 0, gen := 3, key := 55 }

/-! ### Supplies, clocks, watches, safety. -/

namespace Supply

def aux : State := { s0 with power := { s0.power with aux := true } }
def cv : State := { aux with power := { aux.power with conversion := true, bulk := true } }
def held : State := { up with power := { up.power with hold := true, inputOk := false, holdAt := 0 } }
def held2 : State := { up with clock := { up.clock with phase := 5000}, power := { up.power with hold := true, cleared := some 0 } }
def held3 : State := { held with clock := { held.clock with now := 100000000000 } }
def noref : State := { up with power := { up.power with refclkDie := false } }
def started0 : State := { up with power := { up.power with started := false, booting := 0, trained := [], tiers := [] } }
def booting2 : State := { started0 with power := { started0.power with booting := 2 } }
def untr : State := { up with power := { up.power with trained := [], tiers := [] }, mem := { up.mem with cells := [(3, 7), (2^36, 9)] } }
def slow : State := { untr with clock := { untr.clock with now := 700000 * 1300 } }
def hot : State := { up with clock := {up.clock with now := 700000004 }, power := { up.power with overtemp := true, overAt := some 4 } }
def armed : State := { up with boot := { up.boot with armed := some 0 } , clock := { up.clock with locked := true, everLocked := true, phase := 4 } }
def missed (n : Nat) : State := { up with safety := { up.safety with plMisses := n } }
def hbm (n : Nat) : State := { up with safety := { up.safety with hbMisses := n } }
def stopd : State := { up with safety := { up.safety with stop := true, detectedAt := some 3, detectSeq := 7, reportAcked := true } }
def rep : Report := ⟨5, List.replicate 16 7, none, 0, false⟩
def rcv : State := { up with regs := up.regs ++ [(Reg.SAFETY_REPORT_TO 0, 0x80000000 + 9)], safety := { up.safety with reports := [rep], joined := [9] } }
def rep2 : Report := ⟨5, List.replicate 16 7, some 0, 0, false⟩
def rcv2 : State := { rcv with clock := { rcv.clock with now := 700000*200 }, safety := { rcv.safety with reports := [rep2] } }

theorem test_hypotheses_SupplyRailCommands :
    (∃ s : State, s.power.aux = false) ∧
    (∃ s : State, s.power.aux = true) ∧
    (∃ s : State, s.power.conversion = false ∧ s.power.aux = true ∧ s.power.mated = true) ∧
    (∃ s : State, s.power.conversion = false) ∧
    (∃ s : State, s.power.parlour = true ∧ s.power.mated = true ∧ s.power.bulk = true ∧ s.power.conversion = false) ∧
    (∃ s : State, s.power.parlour = true ∧ s.power.conversion = true ∧ s.power.die = false) :=
  ⟨⟨s0, by decide +kernel⟩,
    ⟨up, by decide +kernel⟩,
    ⟨aux, by and_intros <;> decide +kernel⟩,
    ⟨aux, by decide +kernel⟩,
    ⟨{ aux with power := { aux.power with parlour := true, bulk := true } }, by and_intros <;> decide +kernel⟩,
    ⟨{ cv with power := { cv.power with parlour := true } }, by and_intros <;> decide +kernel⟩⟩

theorem test_hypotheses_SupplyWarningCommands :
    (∃ s : State, s.power.conversion = true ∧ s.power.inputOk = true) ∧
    (∃ s : State, s.power.hold = true ∧ s.power.inputOk = false) ∧
    (∃ (s : State) (c : Nat), s.power.hold = true ∧ s.power.cleared = some c ∧ resumeTick c ≤ s.phaseNat ∧ s.activationDue =
      false) ∧
    (∃ s : State, s.power.hold = true ∧ s.power.heldOut = false ∧ s.holdLimit * 4096 < ticksSince s s.power.holdAt ∧
      s.ctl.log.length < logCapacity) ∧
    (∃ s : State, s.power.conversion = true) :=
  ⟨⟨up, by and_intros <;> decide +kernel⟩,
    ⟨held, by and_intros <;> decide +kernel⟩,
    ⟨held2, 0, by and_intros <;> decide +kernel⟩,
    ⟨held3, by and_intros <;> decide +kernel⟩,
    ⟨up, by decide +kernel⟩⟩

theorem test_hypotheses_ReferenceClockCommands :
    (∃ s : State, s.power.conversion = true ∧ s.power.refclkDie = true) ∧
    (∃ s : State, s.power.refclkDie = false) ∧
    (∃ s : State, s.power.conversion = true ∧ s.power.refclkDie = false) ∧
    (∃ (s : State) (c : Fin 2) (i : Fin 4), s.portLive (4 * c + i) = true) :=
  ⟨⟨up, by and_intros <;> decide +kernel⟩,
    ⟨noref, by decide +kernel⟩,
    ⟨noref, by and_intros <;> decide +kernel⟩,
    ⟨live, 1, 3, by decide +kernel⟩⟩

theorem test_hypotheses_StartUpCommands :
    (∃ (s : State) (r : StartReport), s.power.die = true ∧ s.power.started = false ∧ s.power.halted = false ∧
      s.power.booting = 0 ∧ s.bootImages.power.halted = false ∧ r.entropyFails < 3 ∧ r.readBackBad = none ∧ r.calibrationOk
      = true ∧ r.ended ≠ 0) ∧
    (∃ (s : State) (r : StartReport), s.power.die = true ∧ s.power.started = false ∧ s.power.halted = false ∧
      s.power.booting ≠ 0 ∧ r.readBackBad = none ∧ r.ended = 3) ∧
    (∃ (s : State) (i : Fin 12), s.power.die = true ∧ s.power.started = true ∧ i.val ∉ s.power.trained ∧ s.power.warm =
      false) ∧
    (∃ (s : State) (c : Fin 2), s.power.die = true ∧ s.power.started = true ∧ c.val ∉ s.power.tiers ∧ s.power.warm = false)
      ∧
    (∃ (s : State) (ms : Nat), stageLimit s.startStage = some ms ∧ s.limitCycle ms ≤ s.clock.now ∧ s.startStage ∉
      s.power.timedOut ∧ s.ctl.log.length < logCapacity) :=
  ⟨⟨started0, ⟨2, 3, none, true⟩, by and_intros <;> decide +kernel⟩,
    ⟨booting2, ⟨9, 3, none, false⟩, by and_intros <;> decide +kernel⟩,
    ⟨untr, 0, by and_intros <;> decide +kernel⟩,
    ⟨untr, 1, by and_intros <;> decide +kernel⟩,
    ⟨slow, 1300, by and_intros <;> decide +kernel⟩⟩

theorem test_hypotheses_DroopAndThermalCommands :
    (∃ (s : State) (q : Fin 4), s.power.die = true) ∧
    (∃ (s : State) (q : Fin 4) (c : Nat), (q.val, c) ∈ s.power.droop) ∧
    (∃ (s : State) (m : Sample), s.power.parlour = true ∧ m.dieC8 + s.calValue (0x14 + m.quarter.val) < 840) ∧
    (∃ (s : State) (c : Nat), s.power.overAt = some c ∧ s.power.overtemp = true ∧ c + 700000000 ≤ s.clock.now) ∧
    (∃ s : State, s.power.die = true ∧ s.activationDue = true ∧ s.power.hold = false) :=
  ⟨⟨up, 3, by decide +kernel⟩,
    ⟨{ up with power := { up.power with droop := [(3, 4)] } }, 3, 4, by decide +kernel⟩,
    ⟨up, ⟨839 - up.calValue 0x17, 3, 300, 54000, 2000, 1, 2, 3⟩, rfl, by
      show 839 - up.calValue 23 + up.calValue 23 < 840
      omega⟩,
    ⟨hot, 4, by and_intros <;> decide +kernel⟩,
    ⟨armed, by and_intros <;> decide +kernel⟩⟩

theorem test_hypotheses_WatchCommands :
    (∃ s : State, s.power.die = true ∧ s.power.parlour = true ∧ s.tickOf = 0 ∧ (s.planRuns = false ∨ s.run.monitor = none ∨
      s.stalled = [])) ∧
    (∃ s : State, s.power.die = true ∧ s.tickOf = 0 ∧ (s.planRuns = false ∨ s.run.monitor = none ∨ s.stalled = []) ∧
      s.safety.suspended = none ∧ (s.safety.plLost = true ∨ s.safety.plMisses + 1 < s.plMiss)) ∧
    (∃ s : State, s.power.die = true ∧ s.tickOf = 0 ∧ (s.planRuns = false ∨ s.run.monitor = none ∨ s.stalled = []) ∧
      s.safety.suspended = none ∧ s.safety.plLost = false ∧ s.plMiss ≤ s.safety.plMisses + 1 ∧ s.ctl.log.length <
      logCapacity) ∧
    (∃ s : State, s.power.die = true ∧ s.power.parlour = true ∧ (s.safety.hbLost = true ∨ s.safety.hbMisses + 1 < s.hbMiss))
      ∧
    (∃ s : State, s.power.die = true ∧ s.power.parlour = true ∧ s.safety.hbLost = false ∧ s.hbMiss ≤ s.safety.hbMisses + 1 ∧
      s.ctl.log.length < logCapacity) :=
  ⟨⟨up, by and_intros <;> decide +kernel⟩,
    ⟨up, by and_intros <;> decide +kernel⟩,
    ⟨missed 15, by and_intros <;> decide +kernel⟩,
    ⟨up, by and_intros <;> decide +kernel⟩,
    ⟨hbm 7, by and_intros <;> decide +kernel⟩⟩

theorem test_hypotheses_DetectionAndStopCommands :
    (∃ s : State, s.ctl.log.length < logCapacity) ∧
    (∃ (s : State) (b : Blk), s.run.selftest = true ∧ s.ctl.log.length < logCapacity) ∧
    (∃ s : State, s.power.die = true) ∧
    (∃ s : State, s.power.parlour = true) ∧
    (∃ (s : State) (c : Nat), s.safety.stop = true ∧ s.safety.blocked = false ∧ s.safety.detectedAt = some c) ∧
    (∃ s : State, s.safety.stop = true ∧ s.planRuns = false ∧ s.safety.reportAcked = true) ∧
    (∃ (s : State) (v : Word), (s.safety.stop = false ∨ v ≠ s.safety.detectSeq ∨ s.planRuns = true ∨ s.safety.reportAcked =
      false)) :=
  ⟨⟨up, by decide +kernel⟩,
    ⟨{ up with run := { up.run with selftest := true } }, ⟨clsCore, 63⟩, by and_intros <;> decide +kernel⟩,
    ⟨up, by decide +kernel⟩,
    ⟨up, by decide +kernel⟩,
    ⟨stopd, 3, by and_intros <;> decide +kernel⟩,
    ⟨stopd, by and_intros <;> decide +kernel⟩,
    ⟨stopd, 6, by decide +kernel⟩⟩

theorem test_hypotheses_SafetyReportCommands :
    (∃ (s : State) (r : Report), s.power.parlour = true ∧ s.safety.reports.find? (fun r => r.sentMs.isNone) = some r ∧
      r.record.length = 16 ∧ (s.receivers.map (·.2)).filter s.safety.joined.contains ≠ []) ∧
    (∃ (s : State) (r : Report), s.power.parlour = true ∧ s.safety.reports.filter s.resendDue = [r] ∧ r.record.length = 16 ∧
      (s.receivers.map (·.2)).filter s.safety.joined.contains ≠ []) ∧
    (∃ (s : State) (r : Report) (i receiver : Nat), s.power.parlour = true ∧ s.safety.reports.find? (fun x => x.reqId ==
      r.reqId && x.sentMs.isSome) = some r ∧ r.acked = false ∧ s.receivers.find? (fun x => x.2 == receiver) = some (i,
      receiver) ∧ receiver ∈ s.safety.joined) :=
  ⟨⟨rcv, rep, by and_intros <;> decide +kernel⟩,
    ⟨rcv2, rep2, by and_intros <;> decide +kernel⟩,
    ⟨rcv2, rep2, 0, 9, by and_intros <;> decide +kernel⟩⟩

end Supply

/-! ### Sequencers and segments. -/

namespace Core

def lateRuns (e : Nat) : State := { runs e with clock := { (runs e).clock with phase := 4096 * 20 } }
def onTime (e : Nat) : State := { runs e with clock := { (runs e).clock with phase := 4096 * 13 + 18 } }
def rel : State := outNext (runs 0) (exec (.segmentRelease ⟨0, .whole⟩) (runs 0))
def g0 : Seg := ((rel.core 0).seg).get!
def withSeg (g : Seg) : State := { runs 1 with run := { (runs 1).run with cores := (List.range 64).map (fun c => (c, { Core.reset with entry := 1, seg := if c = 63 then some g else none })) } }
def done_ : Seg := { g0 with todo := [], tiles := [] }
def rl : Seg := { g0 with status := .reloading, slipAt := 3, attemptAt := 8000 }
def milkplan : Plan := { plan0 with milkRuns := [⟨63, 0, 0, 0, 77⟩] }
def milk : State := { runs 0 with run := { (runs 0).run with plan := some milkplan, milkDue := [63] } }
def stalled : State := outNext (runs 0) (exec (.stallCauseStart 63 .emptyEntry) (runs 0))
def later : State := { stalled with clock := { stalled.clock with now := 9006 } }
def lt : Seg := { g0 with slip := 15 }

theorem test_hypotheses_SegmentReleaseCompletes :
    (∃ (s : State) (c : Fin 64) (i : Nat) (e : Entry), (s.core c).seg = none ∧ s.nextEntry c = some (i, e) ∧ s.releasing =
      true ∧ (s.core c).stopped = false ∧ s.releaseTick e ≤ s.phaseNat ∧ (s.core c).met e = true ∧ s.herdRuns c = true ∧
      e.cls = 5 ∧ e.signalEn = false ∧ s.phaseNat - s.releaseTick e ≤ e.slack) ∧
    (∃ (s : State) (c : Fin 64) (i : Nat) (e : Entry), (s.core c).seg = none ∧ s.nextEntry c = some (i, e) ∧ s.releasing =
      true ∧ (s.core c).stopped = false ∧ s.releaseTick e ≤ s.phaseNat ∧ (s.core c).met e = true ∧ s.herdRuns c = true ∧
      e.cls = 5 ∧ e.signalEn = false ∧ e.slack < s.phaseNat - s.releaseTick e ∧ s.ctl.log.length < logCapacity) ∧
    (∃ (s : State) (c : Fin 64) (i : Nat) (e : Entry), (s.core c).seg = none ∧ s.nextEntry c = some (i, e) ∧ s.releasing =
      true ∧ (s.core c).stopped = false ∧ s.releaseTick e ≤ s.phaseNat ∧ (s.core c).met e = true ∧ s.herdRuns c = true ∧
      e.cls = 4) ∧
    (∃ (s : State) (c : Fin 64) (i : Nat) (e : Entry) (d : Desc), (s.core c).seg = none ∧ s.nextEntry c = some (i, e) ∧
      s.releasing = true ∧ (s.core c).stopped = false ∧ s.releaseTick e ≤ s.phaseNat ∧ (s.core c).met e = true ∧ s.herdRuns
      c = true ∧ e.cls = 0 ∧ s.descOf c e.descIndex = some d ∧ s.shapeOver d = none ∧ d.auxTable = false ∧ d.statTable =
      false ∧ d.addrs.fetchCount = 0) ∧
    (∃ (s : State) (c : Fin 64) (i : Nat) (e : Entry) (o : Nat), (s.core c).seg = none ∧ s.nextEntry c = some (i, e) ∧
      s.releasing = true ∧ (s.core c).stopped = false ∧ s.releaseTick e ≤ s.phaseNat ∧ (s.core c).met e = true ∧ s.herdRuns
      c = true) :=
  ⟨⟨onTime 2, 0, 2, ent 5 3, by and_intros <;> decide +kernel⟩,
    ⟨lateRuns 2, 63, 2, ent 5 3, by and_intros <;> decide +kernel⟩,
    ⟨runs 1, 63, 1, ent 4 1, by and_intros <;> decide +kernel⟩,
    ⟨runs 0, 63, 0, ent 0 0, prod, by and_intros <;> decide +kernel⟩,
    ⟨runs 0, 63, 0, ent 0 0, 12, by and_intros <;> decide +kernel⟩⟩

theorem test_hypotheses_SegmentLifeCompletes :
    (∃ (s : State) (c : Fin 64) (g : Seg), s.running c = some g ∧ g.untrusted = false ∧ g.todo = [] ∧ g.tiles = [] ∧ g.stats
      = [] ∧ g.milk = none ∧ g.completes = none ∧ g.hits = 0 ∧ g.ent.signalEn = false ∧ (s.core c).stopped = false) ∧
    (∃ (s : State) (c : Fin 64) (g : Seg), (s.core c).seg = some g ∧ g.status = .reloading ∧ s.power.hold = false ∧ (∀ d ∈
      s.power.droop, d.1 ≠ c.val / 16) ∧ g.tablesDue = false ∧ (∀ r ∈ s.run.reqs, ¬ (r.core = c.val ∧ r.fq = reloadQueue)))
      ∧
    (∃ (s : State) (c : Fin 64) (m : MilkRec) (d : Desc), s.run.run = true ∧ s.run.stopped = false ∧ c.val ∈ s.run.milkDue ∧
      (s.core c).seg = none ∧ s.power.hold = false ∧ s.run.plan.bind (fun p => p.milkRuns.find? (fun m => m.core == c.val &&
      m.order == 0)) = some m ∧ s.descOf c m.desc = some d ∧ d.auxTable = false ∧ d.statTable = false) :=
  ⟨⟨withSeg done_, 63, done_, by and_intros <;> decide +kernel⟩,
    ⟨withSeg rl, 63, rl, by and_intros <;> decide +kernel⟩,
    ⟨milk, 63, ⟨63, 0, 0, 0, 77⟩, prod, by and_intros <;> decide +kernel⟩⟩

theorem test_hypotheses_StallAndFreezeCommands :
    (∃ (s : State) (c : Fin 64) (x : StallCause) (t0 : Nat), (s.core c).causes.find? (fun y => y.1 == x) = some (x, t0)) ∧
    (∃ (s : State) (h : Fin 8), (s.herd h).intervals.any (fun i => i.holds s.clock.now) = true) ∧
    (∃ (s : State) (h : Fin 8), (s.herd h).intervals.any (fun i => i.holds s.clock.now) = false ∧ s.heldHerd h = false) ∧
    (∃ (s : State) (c : Fin 64) (g : Seg), s.planRuns = true ∧ (s.core c).stopped = false ∧ (s.core c).seg = some g ∧
      g.entry.isSome = true ∧ 7 * g.ent.slack < g.slipNow s.clock.now ∧ s.ctl.log.length < logCapacity) ∧
    (∃ (s : State) (c : Fin 64) (i : Nat) (e : Entry), s.planRuns = true ∧ (s.core c).stopped = false ∧ (s.core c).seg =
      none ∧ s.nextEntry c = some (i, e) ∧ e.slack < s.phaseNat - s.releaseTick e ∧ s.ctl.log.length < logCapacity) :=
  ⟨⟨stalled, 63, .emptyEntry, 9000, by decide +kernel⟩,
    ⟨later, 0, by decide +kernel⟩,
    ⟨stalled, 0, by and_intros <;> decide +kernel⟩,
    ⟨withSeg lt, 63, lt, by and_intros <;> decide +kernel⟩,
    ⟨lateRuns 0, 63, 0, ent 0 0, by and_intros <;> decide +kernel⟩⟩

end Core

/-! ### The array. -/

namespace Array

def pt0 : Pt := { (default : Pt) with idx := [0, 0, 0, 0, 0, 0], last := true }
def seg0 : Seg := { (default : Seg) with entry := some 0, ent := ent 0 0, desc := prod, attempt := 1, status := .running, todo := [pt0] }
def tile0 : Tile := { (default : Tile) with pt := pt0, rows := 2, cols := 1, kValid := 1 }
def onCore (g : Seg) : State := { runs 0 with run := { (runs 0).run with cores := [(63, { Core.reset with seg := some g })] } }
def res0 : Resident := { (default : Resident) with pass := 0 }
def seg1 : Seg := { seg0 with shadow := some res0 }
def seg2 : Seg := { seg0 with active := some res0, tiles := [tile0] }
def tile1 : Tile := { tile0 with done := true, terms := 128 }
def seg3 : Seg := { seg0 with todo := [], active := some res0, tiles := [tile1], vat := [(0, [default]), (1, [default])] }

theorem test_hypotheses_ArrayCommands :
    (∃ (s : State) (c : Fin 64) (g : Seg) (p : Pt), s.running c = some g ∧ g.shadow = none ∧ g.nextLoad = some p ∧
      g.desc.kind ≠ .row ∧ g.desc.modes.transpose ≠ 2 ∧ s.snagReads c (s.loadResident c g.desc p (s.segExtents g)).acc =
      none ∧ (s.loadResident c g.desc p (s.segExtents g)).drops = []) ∧
    (∃ (s : State) (c : Fin 64) (g : Seg) (r : Resident) (p : Pt) (ps : List Pt), s.running c = some g ∧ g.shadow = some r ∧
      g.todo = p :: ps ∧ p.pass = r.pass) ∧
    (∃ (s : State) (c : Fin 64) (g : Seg) (r : Resident) (p : Pt) (ps : List Pt) (tl : Tile), s.running c = some g ∧ g.todo
      = p :: ps ∧ g.active = some r ∧ g.desc.kind = .product ∧ p.pass = r.pass ∧ g.tileOf p = some tl ∧ g.slotBusy p = false
      ∧ g.desc.modes.transpose = 0 ∧ g.desc.modes.windowed = false ∧ g.badVat = [] ∧ s.snagReads c (s.streamed c g.desc p
      (s.segExtents g) g.row).2 = none ∧ tl.terms + g.desc.termStep ≤ 2 ^ 48 ∧ s.armed clsCore c = none) :=
  ⟨⟨onCore seg0, 63, seg0, pt0, by and_intros <;> decide +kernel⟩,
    ⟨onCore seg1, 63, seg1, res0, pt0, [], by and_intros <;> decide +kernel⟩,
    ⟨onCore seg2, 63, seg2, res0, pt0, [], tile0, by and_intros <;> decide +kernel⟩⟩

theorem test_hypotheses_DrainRowCompletes :
    (∃ (s : State) (c : Fin 64) (g : Seg) (tl : Tile) (u : Upset), s.running c = some g ∧ g.desc.kind = .product ∧
      g.tiles.find? (fun t => t.done) = some tl ∧ g.badVat = [] ∧ g.desc.modes.drainFunc = 0 ∧ g.desc.modes.rowStat = 0 ∧
      g.desc.modes.stochastic = false ∧ g.desc.modes.statOnly = false ∧ g.desc.modes.outRoute = 3 ∧ (∀ x ∈ g.compares tl,
      x.fail = false) ∧ (s.core c).stopped = false ∧ tl.drained + 1 < tl.rows ∧ u.check = none) ∧
    (∃ (s : State) (c : Fin 64) (g : Seg) (tl : Tile) (u : Upset), s.running c = some g ∧ g.desc.kind = .product ∧
      g.tiles.find? (fun t => t.done) = some tl ∧ g.badVat = [] ∧ g.desc.modes.drainFunc = 0 ∧ g.desc.modes.rowStat = 0 ∧
      g.attempt < 3 ∧ ((u.check.isSome = true ∧ g.compares tl ≠ []) ∨ (u.check = none ∧ g.desc.modes.stochastic = true ∧
      g.desc.modes.statOnly = false ∧ g.desc.modes.rowFn ≠ 9 ∧ ∃ l ∈ s.lanes g tl, draws l.x = true ∧ ∃ i ∈ u.gens, laneGen
      c g.desc l.lane = 512 * c.val + i.val))) :=
  ⟨⟨onCore seg3, 63, seg3, tile1, ⟨[], none, none⟩, by and_intros <;> decide +kernel⟩,
    ⟨onCore seg3, 63, seg3, tile1, ⟨[], some 0, none⟩, by and_intros <;> decide +kernel⟩⟩

end Array

/-! ### Runs, queue pairs, plan load. -/

namespace Run

def stp : State := { runs 0 with run := { (runs 0).run with stopped := true } }
def ready : State := { runs 0 with run := { (runs 0).run with run := false }, regs := (runs 0).regs ++ [(Reg.SAFETY_REPORT_TO 0, 0x80000000 + 9), (Reg.PHASE_STEP_BASE_LO, 15)], safety := { up.safety with joined := [9], parlourAlive := true } }
def rs : State := { stp with regs := stp.regs ++ [(Reg.PHASE_RESUME_STEP, 9), (Reg.PHASE_RESUME_SLOT_LO, 15)] }
def barrier : State := { runs 3 with run := { (runs 3).run with cores := (List.range 64).map (fun c => (c, { Core.reset with entry := 3, atBoundary := true })) } }
def barrierE : State := { barrier with run := { barrier.run with ending := true } }
def q16 : QueuePair := { (default : QueuePair) with sqBase := 0x1000000, cqBase := 0x2000000 }
def mapd : State := { up with regs := up.regs ++ [(Reg.HBM_CODE_REGION 0 0, 0x81000000 + 4095 * 4096 % 0x1000000 * 0 + 100 * 4096)], ctl := { up.ctl with queues := [(16, q16), (4095, q16)] } }
def en (op : Nat) : List Byte := (List.range 64).map (fun i => if i = 3 then BitVec.ofNat 8 op else if i = 4 then 77 else 0)
def q1 (busy : List (Nat × List Word)) : QueuePair := { q16 with enable := true, sqExp := 6, cqExp := 6, sqTail := 2, sqHead := 1, phase := true, busy := busy }
def qs (op : Nat) (busy : List (Nat × List Word)) : State := { mapd with ctl := { mapd.ctl with queues := [(16, q1 busy)] }, mem := { mapd.mem with cells := setBytes [] (0x1000000 + 64) (en op) } }
def words (op src dst len : Nat) (pat : Nat) : List Word :=
  [BitVec.ofNat 32 (op * 2^24), 77, BitVec.ofNat 32 src, BitVec.ofNat 32 (src / 2^32), BitVec.ofNat 32 dst, BitVec.ofNat 32 (dst/2^32), BitVec.ofNat 32 len, BitVec.ofNat 32 (len/2^32), BitVec.ofNat 32 pat, BitVec.ofNat 32 (pat / 2^32), 0,0,0,0,0,0]
def qe (w : List Word) : State := { qs 0 [(1, w)] with mem := { mapd.mem with cells := setBytes (setBytes [] 0x2000000 (List.replicate 64 9)) (lpKey 0) [1,2,3,4,5,6,7,8,9,10,11,12,13,14,15,16] } }
def a1 : Nat := 5 * 2^52 + 2^48
def pl : State := { qe (words 4 a1 0 16 0) with clock := { up.clock with locked := true, everLocked := true } }
def plJudge : Refuse := match pl.judge (bytesAt pl.mem.cells (lpKey (zOff a1)) 16) with | .inl r => r | .inr _ => default

theorem test_hypotheses_RunRequestCommands :
    (∃ s : State, s.run.stopped = true) ∧
    (∃ s : State, s.run.stopped = false ∧ s.planRuns = true) ∧
    (∃ s : State, s.planRuns = true ∧ s.ctl.log.length < logCapacity) :=
  ⟨⟨stp, by decide +kernel⟩,
    ⟨runs 0, by and_intros <;> decide +kernel⟩,
    ⟨runs 0, by and_intros <;> decide +kernel⟩⟩

theorem test_hypotheses_RunStartAndRetry :
    (∃ (s : State) (p : Plan) (r : Nat) (v : Variant), s.run.run = false ∧ s.run.ending = false ∧ s.run.plan = some p ∧
      s.mayStart = true ∧ s.run.request = none ∧ s.fab.planeLost = [] ∧ p.planeSet < 4 ∧ p.rungAt 0 = some r ∧
      p.variants.find? (fun v => v.rung == r && v.planes == p.planeSet) = some v) ∧
    (∃ (s : State) (hi : Word) (p : Plan) (v : Variant), s.run.plan = some p ∧ s.run.stopped = true ∧ s.run.run = true ∧
      s.safety.stop = false ∧ s.run.request = none ∧ s.fab.planeLost = [] ∧ p.planeSet < 4 ∧ s.slot + 2 ≤ s.reg
      Reg.PHASE_RESUME_SLOT_LO + 2 ^ 32 * hi.toNat ∧ p.variants.find? (fun v => v.rung == (p.rungAt (s.reg
      Reg.PHASE_RESUME_STEP)).getD s.run.rung && v.planes == p.planeSet) = some v) ∧
    (∃ s : State, s.run.run = false ∧ s.run.ending = false ∧ s.run.plan = none) :=
  ⟨⟨ready, plan0, 0, ⟨0, 0, 3, 4, 0, []⟩, by and_intros <;> decide +kernel⟩,
    ⟨rs, 0, plan0, ⟨1, 1, 3, 4, 9, []⟩, by and_intros <;> decide +kernel⟩,
    ⟨up, by and_intros <;> decide +kernel⟩⟩

theorem test_hypotheses_StepBoundaryCompletes :
    (∃ (s : State) (p : Plan) (v : Variant) (w : Nat), s.run.plan = some p ∧ p.variant s.run.variant = some v ∧ s.atBarrier
      v = true ∧ s.run.ending = false ∧ s.run.request = none ∧ s.twin = none ∧ s.run.snapId = none ∧ (s.choose p (s.run.step
      + 1) (s.run.stepStart + v.stepSlots - 1)).variant = some w) ∧
    (∃ (s : State) (p : Plan) (v : Variant), s.run.plan = some p ∧ p.variant s.run.variant = some v ∧ s.atBarrier v = true ∧
      s.run.ending = true ∧ s.twin = none ∧ s.run.snapId = none) :=
  ⟨⟨barrier, plan0, ⟨0, 0, 3, 4, 0, []⟩, 0, by and_intros <;> decide +kernel⟩,
    ⟨barrierE, plan0, ⟨0, 0, 3, 4, 0, []⟩, by and_intros <;> decide +kernel⟩⟩

theorem test_hypotheses_QueueControlCommands :
    (∃ (s : State) (q : Fin 4096) (w : Word), 16 ≤ q.val ∧ (s.pair q).enable = false ∧ bitOf w.toNat 31 = true ∧
      s.enableCause q { s.pair q with sqExp := fieldOf w.toNat 15 12, cqExp := fieldOf w.toNat 11 8 } = 0) ∧
    (∃ (s : State) (q : Fin 4096), 16 ≤ q.val) ∧
    (∃ (s : State) (q : Fin 4096) (e : List Word), (s.pair q).mayStart = true ∧ s.hasTurn q = true ∧ s.CleanStacks ∧
      s.CleanCaches ∧ (s.pair q).sqBase + 64 * (s.pair q).sqHead + 64 ≤ 12 * stackBytes ∧ cmdWords (bytesAt s.mem.cells
      ((s.pair q).sqBase + 64 * (s.pair q).sqHead) 64) = e ∧ s.fenceWaits (s.pair q) = false ∧ entOp e ≤ 5 ∧ entReserved e =
      false ∧ (∀ a ∈ entAddrs e, zEndpoint a = s.moduleNum ∧ zSpace a ≤ 1)) :=
  ⟨⟨mapd, 4095, 0x80006600, by and_intros <;> decide +kernel⟩,
    ⟨mapd, 16, by decide +kernel⟩,
    ⟨qs 5 [], 16, cmdWords (en 5), by and_intros <;> decide +kernel⟩⟩

theorem test_hypotheses_QueueEntryCommands :
    (∃ (s : State) (q : Fin 4096) (ix : Nat) (e : List Word), s.entry q ix 0 = some e ∧ s.CleanStacks) ∧
    (∃ (s : State) (q : Fin 4096) (ix : Nat) (e : List Word), s.entry q ix 5 = some e ∧ s.CleanStacks) ∧
    (∃ (s : State) (q : Fin 4096) (ix : Nat) (e : List Word), s.entry q ix 2 = some e ∧ s.CleanStacks ∧ zSpace (entDst e) =
      1 ∧ entLen e % 8 = 0 ∧ entLen e ≠ 0 ∧ zOff (entDst e) + entLen e ≤ 2 ^ 40 ∧ s.TierTakes (zOff (entDst e)) (entLen e) ∧
      s.ringPlace q + 16 ≤ 2 ^ 48) ∧
    (∃ (s : State) (q : Fin 4096) (ix : Nat) (e : List Word), s.entry q ix 1 = some e ∧ s.CleanStacks ∧ zSpace (entDst e) =
      1 ∧ zSpace (entSrc e) = 1 ∧ overlap (entSrc e) (entLen e) (entDst e) (entLen e) = false ∧ entLen e ≠ 0 ∧ zOff (entSrc
      e) + entLen e ≤ 2 ^ 40 ∧ zOff (entDst e) + entLen e ≤ 2 ^ 40 ∧ s.TierReads (zOff (entSrc e)) (entLen e) ∧ s.TierTakes
      (zOff (entDst e)) (entLen e) ∧ s.ringPlace q + 16 ≤ 2 ^ 48) ∧
    (∃ (s : State) (q : Fin 4096) (ix : Nat) (e : List Word), s.entry q ix 3 = some e ∧ s.CleanStacks ∧ zSpace (entSrc e) =
      1 ∧ zOff (entSrc e) + entLen e ≤ 2 ^ 40 ∧ s.TierReads (zOff (entSrc e)) (entLen e)) :=
  ⟨⟨qe (words 0 0 0 0 0), 16, 1, words 0 0 0 0 0, by and_intros <;> decide +kernel⟩,
    ⟨qe (words 5 0 0 0 0), 16, 1, words 5 0 0 0 0, by and_intros <;> decide +kernel⟩,
    ⟨qe (words 2 0 (a1+8) 24 0x1122334455667788), 16, 1, words 2 0 (a1+8) 24 0x1122334455667788,
      by and_intros <;> decide +kernel⟩,
    ⟨qe (words 1 (a1+3) (a1+8) 5 0), 16, 1, words 1 (a1+3) (a1+8) 5 0, by and_intros <;> decide +kernel⟩,
    ⟨qe (words 3 (a1+3) 0 5 0), 16, 1, words 3 (a1+3) 0 5 0, by and_intros <;> decide +kernel⟩⟩

theorem test_hypotheses_PlanLoadCompletes :
    (∃ (s : State) (q : Fin 4096) (ix : Nat) (e : List Word) (img : List Byte), s.entry q ix 4 = some e ∧ s.loadBusy = false
      ∧ s.hostCommands = false ∧ zSpace (entSrc e) = 1 ∧ zOff (entSrc e) + entLen e ≤ 2 ^ 40 ∧ s.TierReads (zOff (entSrc e))
      (entLen e) ∧ img = bytesAt s.mem.cells (lpKey (zOff (entSrc e))) (entLen e)) ∧
    (∃ (s : State) (q : Fin 4096) (ix : Nat) (e : List Word) (r : Refuse), s.entry q ix 4 = some e ∧ s.loadBusy = false ∧
      s.hostCommands = false ∧ zSpace (entSrc e) = 1 ∧ zOff (entSrc e) + entLen e ≤ 2 ^ 40 ∧ s.TierReads (zOff (entSrc e))
      (entLen e) ∧ s.CleanStacks ∧ s.judge (bytesAt s.mem.cells (lpKey (zOff (entSrc e))) (entLen e)) = .inl r) ∧
    (∃ (s : State) (q : Fin 4096) (ix : Nat) (e : List Word), s.entry q ix 4 = some e ∧ s.loadBusy = true ∧ s.CleanStacks) ∧
    (∃ (s : State) (q : Fin 4096) (ix : Nat) (e : List Word), s.entry q ix 4 = some e ∧ s.loadBusy = false ∧ s.hostCommands
      = true) :=
  ⟨⟨pl, 16, 1, words 4 a1 0 16 0, _, by decide +kernel, by decide +kernel, by decide +kernel, by decide +kernel,
      by decide +kernel, by decide +kernel, rfl⟩,
    ⟨pl, 16, 1, words 4 a1 0 16 0, plJudge, by and_intros <;> decide +kernel⟩,
    ⟨{ pl with clock := { pl.clock with locked := false } }, 16, 1, words 4 a1 0 16 0, by and_intros <;> decide +kernel⟩,
    ⟨pl.setSep 11 { pl.sep 11 with queue := [⟨[], .host⟩] }, 16, 1, words 4 a1 0 16 0, by and_intros <;> decide +kernel⟩⟩

end Run

/-! ### Register writes, host commands. -/

namespace Regs

def pz : State := { live with regs := live.regs ++ [(Reg.COUNTER_0 clsCore 63, 5), (Reg.COUNTER_3 clsCore 63, 6), (Reg.EVENT_LATCH clsCore 63, 0xFF), (Reg.PAIL_LEVEL clsCore 63, 0x30009)] }
def rq : RemoteReq := ⟨7, 9, false, 0, 5, .ship 11 4095, []⟩

theorem test_hypotheses_PageZeroAndPlainWrites :
    (∃ (s : State) (b : Blk), blkStands b = true ∧ s.inService b.cls b.inst = true) ∧
    (∃ (s : State) (b : Blk) (w : Word), blkStands b = true ∧ s.inService b.cls b.inst = true) ∧
    (∃ (s : State) (b : Blk) (w : Word), blkStands b = true ∧ s.inService b.cls b.inst = true) ∧
    (∃ (s : State) (a v : Word) (r : RegRow), regStands a.toNat = true ∧ s.regInService a.toNat = true ∧ fieldOf a.toNat 15
      12 ≠ 0 ∧ fieldOf a.toNat 31 24 ∈ [clsCore, clsQuarter, clsMsc, clsLpddr, clsCopy] ∧ rowOf a.toNat = some r ∧ r.rwl =
      0) ∧
    (∃ (s : State) (a : Word), regStands a.toNat = true ∧ s.regInService a.toNat = true ∧ a.toNat ≠ Reg.PHASE_PHASE_LO ∧
      ((rowOf a.toNat).map (·.rc)).getD 0 ≠ 0) ∧
    (∃ s : State, s.power.started = true) :=
  ⟨⟨pz, ⟨clsCore, 63⟩, by and_intros <;> decide +kernel⟩,
    ⟨pz, ⟨clsCore, 63⟩, 0x81, by and_intros <;> decide +kernel⟩,
    ⟨pz, ⟨clsCore, 63⟩, 0, by and_intros <;> decide +kernel⟩,
    ⟨pz, BitVec.ofNat 32 (Reg.CORE_META_DROP_LIMIT 63), 0x12345678, ((rowOf (Reg.CORE_META_DROP_LIMIT 63))).getD ⟨0, 0, 0,
      0, 0, 0, 0, 0⟩, by and_intros <;> decide +kernel⟩,
    ⟨{ pz with regs := pz.regs ++ [(0x0C001038, 9)] }, 0x0C001038, by and_intros <;> decide +kernel⟩,
    ⟨runs 0, by decide +kernel⟩⟩

theorem test_hypotheses_BlockSettingWrites :
    (∃ (s : State) (b : Blk) (w : Word), blkStands b = true ∧ s.inService b.cls b.inst = true ∧ flipClass b.cls = true ∧
      ((b.cls = clsHbm ∨ b.cls = clsLpddr) → s.planRuns = false)) ∧
    (∃ (s : State) (b : Blk) (w : Word), blkStands b = true ∧ s.inService b.cls b.inst = true ∧ (b.cls = clsHbm ∨ b.cls =
      clsLpddr) ∧ s.planRuns = true) ∧
    (∃ (s : State) (st : Fin 12) (i : Fin 64) (w : Word), s.inService clsHbm st = true ∧ s.planRuns = false ∧ codeWordOk
      (w.toNat &&& 0x83FFFFFF) = true ∧ (∀ j < 64, j ≠ i.val → codeWordsMeet (w.toNat &&& 0x83FFFFFF) (s.reg
      (Reg.HBM_CODE_REGION st j)) = false)) ∧
    (∃ (s : State) (st : Fin 12) (i : Fin 64) (w : Word), s.inService clsHbm st = true ∧ (s.planRuns = true ∨ codeWordOk
      (w.toNat &&& 0x83FFFFFF) = false ∨ ∃ j < 64, j ≠ i.val ∧ codeWordsMeet (w.toNat &&& 0x83FFFFFF) (s.reg
      (Reg.HBM_CODE_REGION st j)) = true)) ∧
    (∃ (s : State) (v : Word), s.inService clsFabric 0 = true ∧ s.numbered = false) ∧
    (∃ (s : State) (v : Word), s.numbered = true) ∧
    (∃ (s : State) (p : Fin 8) (w : Word), s.inService clsPort p = true ∧ s.planRuns = false ∧ bitOf w.toNat 8 = true) ∧
    (∃ (s : State) (p : Fin 8) (w : Word), s.inService clsPort p = true ∧ s.planRuns = false ∧ bitOf w.toNat 8 = false) :=
  ⟨⟨pz, ⟨clsHbm, 11⟩, 0xFFFFFFFF, by and_intros <;> decide +kernel⟩,
    ⟨runs 0, ⟨clsLpddr, 1⟩, 1, by and_intros <;> decide +kernel⟩,
    ⟨{ pz with regs := pz.regs ++ [(Reg.HBM_CODE_REGION 11 0, 0)] }, 11, 63, 0xFFFFFFFF - 0x7F000000 - 0x400400,
      by and_intros <;> decide +kernel⟩,
    ⟨runs 0, 11, 63, 0x82BFFBFF, by and_intros <;> decide +kernel⟩,
    ⟨{ live with regs := [] }, 0xFFFFF123, by and_intros <;> decide +kernel⟩,
    ⟨pz, 0xFFFFF123, by decide +kernel⟩,
    ⟨pz, 7, 0x100, by and_intros <;> decide +kernel⟩,
    ⟨pz, 7, 3, by and_intros <;> decide +kernel⟩⟩

theorem test_hypotheses_HostCommandSubmission :
    (∃ (s : State) (st : Fin 12), s.inService clsSep st = true ∧ s.planRuns = false ∧ s.loading = false ∧ (s.sep
      st).queue.length < 16) ∧
    (∃ (s : State) (st : Fin 12), s.inService clsSep st = true ∧ (s.planRuns = true ∨ s.loading = true ∨ 16 ≤ (s.sep
      st).queue.length)) ∧
    (∃ (s : State) (st : Fin 12), s.inService clsUpd st = true ∧ s.planRuns = false ∧ s.loading = false ∧ (s.upd
      st).queue.length < 16) ∧
    (∃ (s : State) (w : Word), w ≠ 0 ∧ bitOf (s.reg Reg.UPD_SNAP_STATUS) 17 = false ∧ bitOf (s.reg Reg.UPD_SNAP_STATUS) 18 =
      false) ∧
    (∃ (s : State) (w : Word), w ≠ 0 ∧ (bitOf (s.reg Reg.UPD_SNAP_STATUS) 17 = true ∨ bitOf (s.reg Reg.UPD_SNAP_STATUS) 18 =
      true)) ∧
    (∃ (s : State) (st : Fin 12) (sh : Fin 4096) (r : RemoteReq), s.fab.remote.find? (fun r => r.use == .ship st.val sh.val)
      = some r) :=
  ⟨⟨pz, 11, by and_intros <;> decide +kernel⟩,
    ⟨runs 0, 11, by and_intros <;> decide +kernel⟩,
    ⟨pz, 11, by and_intros <;> decide +kernel⟩,
    ⟨pz, 0xFFFF, by and_intros <;> decide +kernel⟩,
    ⟨{ pz with regs := pz.regs ++ [(Reg.UPD_SNAP_STATUS, 2^18)] }, 0xFFFF, by and_intros <;> decide +kernel⟩,
    ⟨{ pz with fab := { pz.fab with remote := [rq] }, regs := pz.regs ++ [(Reg.UPD_SNAP_STATUS, 2^18)] }, 11, 4095, rq,
      by decide +kernel⟩⟩

end Regs

/-! ### Settings, joins, images, the phase. -/

namespace Setup

def cal : State := { live with regs := live.regs ++ [(Reg.CAL_USER_ID, 3), (Reg.CAL_USER_VALUE, 0xFFFFFFFF)], boot := { live.boot with settings := { live.boot.settings with offsets := [(3, 7), (4, 8)], anchors := [(1, 9)] } } }
def mig : State := { cal with boot := { cal.boot with migration := true } }
def pb : State := { live with regs := live.regs ++ [(Reg.BOOT_BIND_TWIN, 9)], fab := { live.fab with peers := [pr 9 true, pr 9 false] } }
def chg : State := { pb with boot := { pb.boot with bind := .changed, seenKey := 77, settings := { pb.boot.settings with twin := some (9, 55), bindGen := 255 } } }
def of_ (par host : Bool) (leaf : Bool) : JoinOffer := { (default : JoinOffer) with peer := 9, host := host, plane := 1, viaParlour := par, gen := 3, keyProven := true, macsec := true, stavgarLeaf := leaf, chain := [5] }
def dn : State := { live with fab := { live.fab with ports := [] } }
def hdr (k body : Nat) : List Byte := leBytes 4 0x51464D57 ++ leBytes 4 (k * 2^24 + 0x40 * 2^16 + 3) ++ leBytes 4 (0x102) ++
  leBytes 4 body ++ List.replicate 496 0
def st : State := { live with regs := live.regs ++ [(Reg.BOOT_STAGE_LENGTH, 516), (Reg.BOOT_STAGE_SRC_HI, 0x500000)], mem := { live.mem with cells := setBytes [] 0 (hdr 4 4) } }
def img : Image := { Image.factory 4 with svn := 3, digest := 7 }
def stg : State := { live with boot := { live.boot with staging := some img } }
def pst : State := { live with regs := live.regs ++ [(Reg.BOOT_PARLOUR_STAGE_OFFSET, 516)], mem := { live.mem with cells := setBytes [] (stagingKey 0) (hdr 5 4) } }
def lk : State := { live with clock := { live.clock with locked := true, everLocked := true }, regs := live.regs ++ [(Reg.BOOT_ACTIVATE_AT_PHASE_LO, 1024 * 4096)] }
def own : Region := { (default : Region) with space := 1, role := 1, owned := true, shard := 5, base := BitVec.ofNat 64 (11 * stackBytes), size := 2^24 }
def rplan : Plan := { plan0 with places := [⟨0, 11, 5, 0, 0, 512⟩], regions := [own] }
def rst : State := { live with run := { live.run with plan := some rplan }, regs := live.regs ++ [(Reg.POWER_RESTORE_SOURCE, 9)], fab := { live.fab with peers := [pr 9 false] }, boot := { live.boot with bind := .bound, confirmed := true, settings := { live.boot.settings with twin := some (9, 55) } } }
def rr : Restore := ⟨9, [⟨11, [5], 0, [], [[], []], 0, []⟩], false, 0⟩
def lkd : State := { live with clock := { live.clock with locked := true, everLocked := true, goodRun := 16 } }
def hov : State := { lkd with clock := { lkd.clock with holdover := true, holdCount := 3 } }
def exch (ys : List (Nat × Int × Int)) (s : State) : State := { s with clock := { s.clock with exch := ys.map (fun x => (x.1, x.2.2, x.2.1)) } }
def acq : State := { live with clock := { live.clock with goodRun := 15 }, boot := { live.boot with migration := true } }
def lost : State := { hov with clock := { hov.clock with holdCount := 0x81 } }
def sy : State := { lkd with clock := { lkd.clock with sync := [⟨7, 5, 8⟩, ⟨3, 1, 1⟩] } }

theorem test_hypotheses_SettingsCommands :
    (∃ s : State, s.boot.migration = false) ∧
    (∃ s : State, s.boot.migration = false) ∧
    (∃ s : State, s.boot.migration = false) ∧
    (∃ (s : State) (i : Fin 4), s.boot.migration = false) ∧
    (∃ (s : State) (i : Fin 4), s.boot.migration = false) ∧
    (∃ (s : State) (c : Instr), c ∈ [Instr.userSet, .userClear, .userClearAll] ∧ s.boot.migration = true) :=
  ⟨⟨cal, by decide +kernel⟩,
    ⟨cal, by decide +kernel⟩,
    ⟨cal, by decide +kernel⟩,
    ⟨cal, 3, by decide +kernel⟩,
    ⟨cal, 1, by decide +kernel⟩,
    ⟨mig, .userClear, by and_intros <;> decide +kernel⟩⟩

theorem test_hypotheses_BindingCommands :
    (∃ (s : State) (p : Peer), s.fab.peers.find? (fun p => p.num == s.bindTwinReg && !p.host && !p.unreachable) = some p ∧
      (∀ n, s.twin = some n → n = s.bindTwinReg) ∧ s.boot.migration = false) ∧
    (∃ s : State, s.fab.peers.find? (fun p => p.num == s.bindTwinReg && !p.host && !p.unreachable) = none) ∧
    (∃ s : State, s.planRuns = false ∧ s.boot.migration = false) ∧
    (∃ s : State, s.planRuns = true) ∧
    (∃ (s : State) (n : Nat) (k : BitVec 512), s.boot.bind = .changed ∧ s.boot.settings.twin = some (n, k) ∧
      s.boot.migration = false) :=
  ⟨⟨pb, pr 9 false, by and_intros <;> decide +kernel⟩,
    ⟨live, by decide +kernel⟩,
    ⟨pb, by and_intros <;> decide +kernel⟩,
    ⟨runs 0, by decide +kernel⟩,
    ⟨chg, 9, 55, by and_intros <;> decide +kernel⟩⟩

theorem test_hypotheses_JoinCommands :
    (∃ (s : State) (o : JoinOffer), o.viaParlour = true ∧ s.power.parlour = true ∧ s.mayJoin o = true ∧ o.macsec = true ∧ 1
      ≤ o.gen) ∧
    (∃ (s : State) (o : JoinOffer), o.viaParlour = true ∧ s.power.parlour = true ∧ (s.mayJoin o = false ∨ o.macsec = false))
      ∧
    (∃ (s : State) (o : JoinOffer), o.viaParlour = false ∧ s.power.die = true ∧ s.power.started = true ∧ s.numbered = true ∧
      s.fab.joining < 256 ∧ s.mayJoin o = true ∧ s.peerRoom o = true ∧ o.macsec = true ∧ o.plane < 2 ∧ 1 ≤ o.gen) ∧
    (∃ (s : State) (o : JoinOffer), o.viaParlour = false ∧ s.power.die = true ∧ s.power.started = true ∧ s.numbered = true ∧
      s.fab.joining < 256 ∧ (s.mayJoin o = false ∨ o.macsec = false)) ∧
    (∃ (s : State) (o : JoinOffer), o.viaParlour = false ∧ 256 ≤ s.fab.joining) ∧
    (∃ (s : State) (p : Fin 8), s.power.die = true ∧ bitOf (s.reg (Reg.PORT_PORT_CONFIG p)) 8 = true ∧ s.portLive p = false)
      ∧
    (∃ (s : State) (peer : Nat) (host : Bool) (plane n at_ : Nat), s.fab.joinWait.find? (fun w => w.1 == peer && w.2.1 ==
      host && w.2.2.1 == plane) = some (peer, host, plane, n, at_) ∧ at_ + 2 * n ≤ s.slot ∧ 0 < n) ∧
    (∃ (s : State) (peer : Nat) (host : Bool) (p : Peer), p ∈ s.fab.peers ∧ p.num = peer ∧ p.host = host) :=
  ⟨⟨live, of_ true true false, by and_intros <;> decide +kernel⟩,
    ⟨live, { of_ true true false with macsec := false }, by and_intros <;> decide +kernel⟩,
    ⟨live, of_ false false true, by and_intros <;> decide +kernel⟩,
    ⟨live, { of_ false false true with macsec := false }, by and_intros <;> decide +kernel⟩,
    ⟨{ live with fab := { live.fab with joining := 256 } }, of_ false false true, by and_intros <;> decide +kernel⟩,
    ⟨dn, 7, by and_intros <;> decide +kernel⟩,
    ⟨{ live with fab := { live.fab with joinWait := [(9, false, 1, 5000, 0)] }, clock := { live.clock with phase := 4096 *
      10000 } }, 9, false, 1, 5000, 0, by and_intros <;> decide +kernel⟩,
    ⟨pb, 9, false, pr 9 false, by and_intros <;> decide +kernel⟩⟩

theorem test_hypotheses_StagingCommands :
    (∃ (s : State) (k a : Nat) (h : List Byte), s.boot.staging = none ∧ 1 ≤ k ∧ k ≤ 4 ∧ s.CleanStacks ∧ s.CleanCaches ∧ a =
      s.reg64 Reg.BOOT_STAGE_SRC_LO ∧ zSpace a = 0 ∧ s.ownMapped a (s.reg Reg.BOOT_STAGE_LENGTH) = true ∧ h = bytesAt
      s.mem.cells (zOff a) 512 ∧ headerOk k h = true ∧ imgWord h 3 ≤ maxBody k ∧ s.reg Reg.BOOT_STAGE_LENGTH = 512 + imgWord
      h 3) ∧
    (∃ (s : State) (k : Nat), (s.boot.staging.isSome = true ∨ k = 0 ∨ 4 < k)) ∧
    (∃ (s : State) (x : Image), s.boot.staging = some x ∧ x.bodyOk = true) ∧
    (∃ (s : State) (ws : List Word), s.reg Reg.BOOT_PARLOUR_STAGE_OFFSET + 4 * ws.length ≤ parlourBuffer) ∧
    (∃ (s : State) (h : List Byte) (x : Image), h = bytesAt s.mem.cells (stagingKey 0) 512 ∧ headerOk 5 h = true ∧ imgWord h
      3 ≤ maxBody 5 ∧ s.reg Reg.BOOT_PARLOUR_STAGE_OFFSET = 512 + imgWord h 3 ∧ x = imageFrom 5 h (bytesAt s.mem.cells
      (stagingKey 512) (imgWord h 3))) :=
  ⟨⟨st, 4, st.reg64 Reg.BOOT_STAGE_SRC_LO, hdr 4 4, by and_intros <;> decide +kernel⟩,
    ⟨st, 0, by decide +kernel⟩,
    ⟨stg, img, by and_intros <;> decide +kernel⟩,
    ⟨live, [1, 0x01020304], by decide +kernel⟩,
    ⟨pst, hdr 5 4, _, by decide +kernel, by decide +kernel, by decide +kernel, by decide +kernel, rfl⟩⟩

theorem test_hypotheses_ActivationCommands :
    (∃ (s : State) (w : Word), s.clock.locked = true ∧ s.power.restore = none ∧ s.phaseNat + 1024 * 4096 ≤ s.reg
      Reg.BOOT_ACTIVATE_AT_PHASE_LO + 2 ^ 32 * w.toNat) ∧
    (∃ (s : State) (w : Word), (s.clock.locked = false ∨ s.power.restore.isSome = true ∨ s.reg Reg.BOOT_ACTIVATE_AT_PHASE_LO
      + 2 ^ 32 * w.toNat < s.phaseNat + 1024 * 4096)) ∧
    (∃ (s : State) (k : Nat) (f : Bool), s.planRuns = false ∧ (s.revertTried 5).chooseSlot 5 = some (k, f)) ∧
    (∃ s : State, s.planRuns = true) :=
  ⟨⟨lk, 0, by and_intros <;> decide +kernel⟩,
    ⟨{ lk with clock := { lk.clock with phase := 1 } }, 0, by decide +kernel⟩,
    ⟨live, 0, false, by and_intros <;> decide +kernel⟩,
    ⟨runs 0, by decide +kernel⟩⟩

theorem test_hypotheses_RestoreCommands :
    (∃ (s : State) (p : Plan) (b : Bool) (n : Nat) (shards : List (Nat × Nat)), s.run.plan = some p ∧ s.safety.stop = false
      ∧ s.planRuns = false ∧ s.boot.armed = none ∧ s.power.restore = none ∧ s.bindMutual = true ∧ fieldOf (s.reg
      Reg.POWER_RESTORE_SOURCE) 11 0 = n ∧ s.twin = some n ∧ p.ownedShards.filter (fun x => !b || s.shardState x.1 x.2 == 6)
      = shards ∧ shards ≠ [] ∧ (∀ x ∈ shards, x.1 < 12 ∧ (s.twinPlace x.1 x.2).isSome = true)) ∧
    (∃ (s : State) (b : Bool), (s.run.plan = none ∨ s.planRuns = true ∨ s.boot.armed.isSome = true ∨ s.power.restore.isSome
      = true ∨ s.bindMutual = false ∨ s.safety.stop = true ∨ s.twin ≠ some (fieldOf (s.reg Reg.POWER_RESTORE_SOURCE) 11 0)))
      ∧
    (∃ (s : State) (r : Restore), s.power.restore = some r) :=
  ⟨⟨rst, rplan, false, 9, [(11, 5)], by and_intros <;> decide +kernel⟩,
    ⟨runs 0, true, by decide +kernel⟩,
    ⟨{ rst with power := { rst.power with restore := some rr } }, rr, by decide +kernel⟩⟩

theorem test_hypotheses_SyncIntervalCommands :
    (∃ s : State, s.power.die = true ∧ s.clock.locked = true ∧ s.clock.everLocked = true ∧ s.clock.holdover = false ∧
      gradeOf s.intervalOffset = .bad) ∧
    (∃ (s : State) (x : Int), s.power.die = true ∧ s.clock.locked = true ∧ s.clock.everLocked = true ∧ s.clock.holdover =
      true ∧ s.intervalOffset = some x ∧ x.natAbs < 50000) ∧
    (∃ s : State, s.power.die = true ∧ s.clock.locked = true ∧ s.clock.everLocked = true ∧ s.clock.holdover = true ∧ gradeOf
      s.intervalOffset ≠ .good) ∧
    (∃ (s : State) (x : Int), s.power.die = true ∧ s.clock.locked = false ∧ s.clock.everLocked = true ∧ s.intervalOffset =
      some x ∧ x.natAbs < 50000) ∧
    (∃ (s : State) (x : Int), s.power.die = true ∧ s.clock.locked = false ∧ s.clock.everLocked = false ∧ s.intervalOffset =
      some x ∧ x.natAbs < 50000) ∧
    (∃ (s : State) (x : Int), s.power.die = true ∧ s.planeOut 0 = false ∧ s.planeOut 1 = false ∧ s.clock.planeOffset 0 =
      some x ∧ (∀ y, s.clock.planeOffset 1 = some y → (x - y).natAbs < 100000)) ∧
    (∃ (s : State) (x y : Int), s.planeOut 0 = false ∧ s.planeOut 1 = false ∧ s.clock.planeOffset 0 = some x ∧
      s.clock.planeOffset 1 = some y ∧ 100000 ≤ (x - y).natAbs) :=
  ⟨⟨lkd, by and_intros <;> decide +kernel⟩,
    ⟨exch [(0, 49999, 1)] hov, 49999, by and_intros <;> decide +kernel⟩,
    ⟨hov, by and_intros <;> decide +kernel⟩,
    ⟨exch [(0, 49999, 1)] { lkd with clock := { lkd.clock with locked := false } }, 49999,
      by and_intros <;> decide +kernel⟩,
    ⟨exch [(0, 49999, 1)] acq, 49999, by and_intros <;> decide +kernel⟩,
    ⟨exch [(0, 49999, 1)] lkd, 49999, by and_intros <;> decide +kernel⟩,
    ⟨exch [(0, 49999, 1), (4, 149999, 2)] lkd, 49999, 149999, by and_intros <;> decide +kernel⟩⟩

theorem test_hypotheses_PhaseAndPtpCommands :
    (∃ s : State, s.clock.holdover = true ∧ s.reg Reg.PHASE_HOLDOVER_LIMIT % 256 < s.clock.holdCount ∧ s.ctl.log.length <
      logCapacity) ∧
    (∃ s : State, s.tickOf = 2048 ∧ s.clock.everLocked = true ∧ s.clock.holdover = false ∧ s.clock.slewed ≠ some s.slot ∧
      5000 < s.clock.corr.natAbs) ∧
    (∃ (s : State) (p : Fin 8) (domain : Nat) (t1 t2 : Int), s.portLive p = true ∧ s.ptpDomain p = domain) ∧
    (∃ (s : State) (p : Fin 8) (domain : Nat) (t1 t2 t3 t4 : Int), s.portLive p = true ∧ s.ptpDomain p = domain ∧ p.val ∉
      s.clock.delayDue ∧ s.clock.sync.find? (fun x => x.port == p.val) = some ⟨p, t1, t2⟩) ∧
    (∃ (s : State) (p : Fin 8) (domain : Nat) (t1 t2 : Int), s.ptpDomain p ≠ domain) ∧
    (∃ (s : State) (p : Fin 8), s.tickOf = 4080 ∧ s.clock.delayDue = [p.val] ∧ s.portLive p = true) ∧
    (∃ (s : State) (p : Fin 8) (t1 t2 t3 t4 : Int), s.epochPs = 0 ∧ s.reg (Reg.PORT_PTP_ASYMMETRY p) = 0 ∧ s.reg
      (Reg.PORT_PTP_INGRESS_ADJ p) = 0 ∧ s.reg (Reg.PORT_PTP_EGRESS_ADJ p) = 0) :=
  ⟨⟨lost, by and_intros <;> decide +kernel⟩,
    ⟨{ lkd with clock := { lkd.clock with phase := 2048, corr := 5001 } }, by and_intros <;> decide +kernel⟩,
    ⟨lkd, 7, lkd.ptpDomain 7, 5, 6, by and_intros <;> decide +kernel⟩,
    ⟨sy, 7, lkd.ptpDomain 7, 5, 8, 20, 19, by and_intros <;> decide +kernel⟩,
    ⟨sy, 7, lkd.ptpDomain 7 + 1, 5, 8, by decide +kernel⟩,
    ⟨{ lkd with clock := { lkd.clock with phase := 4080, delayDue := [7] } }, 7, by and_intros <;> decide +kernel⟩,
    ⟨live, 7, 5, 8, 20, 19, by and_intros <;> decide +kernel⟩⟩

end Setup

/-! ### Base dies, memory, messages, requests. -/

namespace Base

def reg1 (sh role : Nat) (st off size : Nat) : Region := { (default : Region) with space := 1, role := role, owned := true, shard := sh, base := BitVec.ofNat 64 (st * stackBytes + off), size := size }
def rule0 : Rule := { (default : Rule) with kind := 1, moments := 1, lrHp := 3, wdHp := 4 }
def splan : Plan := { plan0 with regions := [reg1 7 1 3 0x1000000 (2^24), reg1 0 11 3 0x2000000 (2^18)], rules := [{ rule0 with kind := 4 }] }
def sp : State := { runs 0 with run := { (runs 0).run with plan := some splan } }
def W (l : List (Nat × Nat)) : List Word := (List.range 16).map (fun i => BitVec.ofNat 32 (((l.find? (·.1 == i)).map
  (·.2)).getD 0))
def bk (i : Nat) : Nat := 0x8000 + 0x100 * i
def pw : List (Nat × Nat) := [(0, 1 + 32 + 4096), (1, 7 + 2 * 65536), (2, 33), (3, 128), (4, 8), (6, bk 0), (10, bk 1), (11,
  bk 2), (14, bk 3), (15, bk 4)]
def pc : BaseCmd := ⟨W pw, .host⟩
def q1 (c : BaseCmd) (s : State) : State := s.setSep 3 { s.sep 3 with queue := [c] }
def up_ (c : BaseCmd) (s : State) : State := s.setUpd 3 { s.upd 3 with queue := [c] }
def arr : Req := { (default : Req) with id := 9, core := 5, entry := 1, desc := 2 }
def sa : State := { sp with run := { sp.run with reqs := [arr] } }
def b64 : List Byte := (List.range 64).map (BitVec.ofNat 8)
def rw_ : List (Nat × Nat) := [(0, 2 + 8 + 32 + 128), (1, 7 + 2 * 65536), (2, 33), (3, 128), (4, 8), (5, bk 0), (6, bk 1),
  (9, bk 3), (10, bk 0), (11, bk 1), (14, bk 3), (15, bk 4)]
def rc : BaseCmd := ⟨W rw_, .host⟩
def cc : BaseCmd := ⟨W [(0, 4 + 8), (1, 7 + 2 * 65536), (2, 1), (3, 128), (4, 8), (5, bk 0), (15, bk 4)], .host⟩
def dirty (l : List (Nat × List Byte)) (s : State) : State := { s with mem := { s.mem with cells := l.foldl (fun cs w => setBytes cs w.1 w.2) s.mem.cells } }
def ac : BaseCmd := ⟨W [(0, 3 + 8), (1, 7 + 2 * 65536), (2, 1), (3, 128), (4, 8), (5, bk 0), (6, bk 1), (15, bk 4)], .host⟩
def sd : State := dirty [(planeOff 3 (bk 0) 0, [255, 7, 3])] sp
def bad : BaseCmd := ⟨W [], .host⟩
def incon : State := (q1 pc sp).setState 3 7 6
def srun (c : BaseCmd) (g : Nat) : SepRun := ⟨c, sepOp c, g, none, false, false, false⟩
def sr (s : State) (r : SepRun) : State := s.setSep 3 { s.sep 3 with cur := some r }
def rc2 : BaseCmd := ⟨W [(0, 1 + 8 + 32 + 4096), (1, 7 + 2 * 65536), (2, 33), (3, 128), (4, 8), (5, bk 0), (6, bk 1), (9, bk
  3), (10, bk 5), (11, bk 6), (14, bk 7), (15, bk 4)], .host⟩
def sl : CollSlot := ⟨7, 1, 128, 8, bk 0, bk 4, false⟩
def st2 : State := sp.setSep 3 { sp.sep 3 with slots := [(2, sl)] }
def cb : List Byte := (List.range 32).map (BitVec.ofNat 8)
def jr : Region := reg1 0 11 3 0x2000000 (2^18)
def uplan (k : Nat) : Plan := { plan0 with regions := [reg1 7 1 3 0x1000000 (2^24), jr], rules := [{ rule0 with kind := k, moments := if k = 4 then 0 else 1 }] }
def su (k : Nat) : State := { runs 0 with run := { (runs 0).run with plan := some (uplan k), complete := [(3, 7)] } }
def uw (op : Nat) (l : List (Nat × Nat)) : BaseCmd := ⟨W (l ++ [(0, op + 1024), (1, 7), (2, 5), (3, 40), (4, 1024), (5, 64),
  (6, bk 0), (9, bk 4), (10, bk 5), (11, bk 6), (13, bk 10), (14, bk 12)]), .host⟩
def uc : BaseCmd := uw 1 [(7, bk 2)]
def jset (i v : Nat) (s : State) : State := s.setJournalWord 3 7 i v
def apc : BaseCmd := uw 2 [(12, bk 2), (11, 0), (9, 0)]
def js (v : Nat) (s : State) : State := s.setState 3 7 v
def dc : BaseCmd := uw 3 []
def urun (c : BaseCmd) (p : UpdPass) : UpdRun := newRun c p
def ur (s : State) (r : UpdRun) : State := s.setUpd 3 { s.upd 3 with cur := some r }
def d1 : State := dirty [(planeOff 3 (bk 0) 0, [1, 0, 0, 63]), (planeOff 3 (bk 5) 0, [255, 7, 3]), (planeOff 3 (bk 6) 0, [0,
  63]), (planeOff 3 (bk 10) 0, [255, 7, 3])] (su 1)
def keptAt (v : Nat) : State := let s := js v (su 1); s.setUpd 3 { s.upd 3 with kept := [(7, uc)] }
def ec (a : Nat) : BaseCmd := uw 4 [(2, 0x23), (7, bk 2), (11, a % 2^32), (12, a / 2^32)]
def ownA : Nat := 5 * 2^52 + 2^48 + 0x10000
def othA : Nat := 9 * 2^52 + 2^48 + 0x10000
def d2 : State := { d1 with fab := { d1.fab with peers := [pr 9 false] } }
def ic (a : Nat) : BaseCmd := uw 5 [(2, 0), (7, bk 2), (11, a % 2^32), (12, a / 2^32)]
def small : BaseCmd := ⟨W [(0, 5), (1, 7), (3, 1), (4, 128), (5, 8), (6, bk 0), (7, bk 2), (9, bk 4), (11, ownA % 2^32),
  (12, ownA / 2^32), (14, bk 12)], .host⟩
def sj : State := jset 11 1 (jset 12 128 (jset 13 8 (su 1)))
def hh : List Byte := [131073, 0, 2, 0, 0, 0, 0, 1, 128, 1, 1, 8, 0, 0, 0, 5439495, 512, 0, 2891709548, 1771236130, 0, 0, 0,
  0, 0, 0, 0, 0, 0, 0,
  1916917564, 4122612545].flatMap (leBytes 4) ++ List.replicate 384 0
def imp : State := dirty [(lpKey (zOff ownA), hh.take 128)] sj
def mi : Mirror := ⟨3, 7, 9, 4, 10, [uc], false, false⟩
def mj : State := { js 5 (su 1) with clock := { (su 1).clock with phase := 4096 * 3000 }, mirrors := [mi], boot := { (su 1).boot with bind := .bound, confirmed := true, settings := { (su 1).boot.settings with twin := some (9, 55) } } }
def mtt : State := { mj with mirrors := [{ mi with sentSlot := mj.slot - mj.mirrorWait 3 }] }
def dd : State := { mj with fab := { mj.fab with digestDue := [(4096 * 3 + 7, mj.slot - 64)] } }
def ch : State := { up with regs := up.regs ++ [(Reg.HBM_CHURN_CONFIG 3, BitVec.ofNat 32 (up.reg (Reg.HBM_CHURN_CONFIG 3) % 256))] }
def leaky : State := { up with regs := up.regs ++ [(Reg.PAIL_LEVEL clsCore 63, 0x50003)], clock := { up.clock with ticks := 4096 * 2 ^ 31 } }
def ackd : State := let s := ur (js 4 (su 1)) (urun uc .working); s.setUpd 3 { s.upd 3 with acking := [7], holding := [9, 7] }
def pses : Session := { (default : Session) with parlour := true, src := 4, queue := 16 }
def fses : Session := { (default : Session) with parlour := false, port := 0, src := 9, srcHost := false, queue := 4095 }
def ctl (s : State) : State := { s with safety := { s.safety with joined := [4] }, fab := { s.fab with peers := [pr 9 false] }, clock := { s.clock with everLocked := true }, power := { s.power with aux := true, parlour := true } }
def cup : State := ctl live
def rgo (a : Nat) : RegRow := (rowOf a).getD ⟨0,0,0,0,0,0,0,0⟩
def own1 : Nat := 5 * 2^52 + 2^48
def cupm : State := { cup with mem := { cup.mem with cells := setBytes [] (lpKey 0x1000) [1,2,3,4,5,6,7,8] } }
def downDie : State := { cupm with power := { cupm.power with die := false, started := false } }
def dg : DigestRecord := { (default : DigestRecord) with owner := 5, stack := 3, shard := 7, epoch := 2, digest := 2^32 + 1 }
def td : State := let s := ctl { mj with clock := (su 1).clock, mirrors := [] }; let s := s.setState 3 7 0; let s := jset 1 2 s; let s := jset 4 1 s; let s := jset 5 1 s
   { s with fab := { s.fab with digestDue := [(4096 * 3 + 7, 0), (3, 0)] } }
def rq : Req := { (default : Req) with id := 9, core := 5, token := some 3, started := true, waiting := false, engine := 1 }
def sf (r : Req) : State := { runs 0 with run := { (runs 0).run with reqs := [r] } }
def tq : Req := { rq with started := false, what := .tile [(0, 1, 255), (1, 2, 15), (8, 3, 255)] (BitVec.ofNat 64 (own1 + 64)) }
def fe : FetchEntry := { (default : FetchEntry) with sp := 64, ext := BitVec.ofNat 64 (own1 + 0x1000), rowBytes := 32, count := 1 }
def fq_ (e : Nat) : Req := { rq with started := false, engine := e, what := .fetch fe 0, count := 1 }
def sfm (e : Nat) : State := { sf (fq_ e) with mem := cupm.mem }

theorem test_hypotheses_BaseDieArrivals :
    (∃ (s : State) (st : Fin 12) (core : Fin 64) (id : Nat) (r : Req) (bs : List Byte), s.arriving core id = some r ∧
      s.planRuns = true ∧ bs.length = 64 ∧ (s.sep st).queue.length < 16) ∧
    (∃ (s : State) (st : Fin 12) (core : Fin 64) (id : Nat) (r : Req) (bs : List Byte), s.arriving core id = some r ∧
      s.planRuns = true ∧ bs.length = 64 ∧ (s.upd st).queue.length < 16) ∧
    (∃ (s : State) (st : Fin 12) (core : Fin 64) (id off : Nat) (r : Req) (bs : List Byte), s.arriving core id = some r ∧
      s.planRuns = true ∧ (off ≠ 0 ∨ bs.length ≠ 64) ∧ s.ctl.log.length < logCapacity) :=
  ⟨⟨sa, 3, 5, 9, arr, b64, by and_intros <;> decide +kernel⟩,
    ⟨sa, 3, 5, 9, arr, b64, by and_intros <;> decide +kernel⟩,
    ⟨sa, 11, 5, 9, 64, arr, b64, by and_intros <;> decide +kernel⟩⟩

theorem test_hypotheses_SeparatorStarts :
    (∃ (s : State) (st : Fin 12) (c : BaseCmd) (rest : List BaseCmd) (i : Instr) (op : Nat), ((i = .prune st ∧ op = opPrune)
      ∨ (i = .regrow st ∧ op = opRegrow)) ∧ (s.sep st).cur = none ∧ (s.sep st).queue = c :: rest ∧ sepOp c = op ∧
      s.power.hold = false ∧ s.safety.stop = false ∧ s.sepBad st c = [] ∧ s.updating st c.shard = false ∧ s.shardState st
      c.shard ≠ 6 ∧ s.QuietStacks) ∧
    (∃ (s : State) (st : Fin 12) (c : BaseCmd) (rest : List BaseCmd), (s.sep st).cur = none ∧ (s.sep st).queue = c :: rest ∧
      sepOp c = opCollect ∧ s.power.hold = false ∧ s.safety.stop = false ∧ s.sepBad st c = [] ∧ s.updating st c.shard =
      false ∧ s.shardState st c.shard ≠ 6 ∧ s.QuietStacks) ∧
    (∃ (s : State) (st : Fin 12) (c : BaseCmd) (rest : List BaseCmd) (a : Audit), (s.sep st).cur = none ∧ (s.sep st).queue =
      c :: rest ∧ sepOp c = opAudit ∧ s.power.hold = false ∧ s.safety.stop = false ∧ s.sepBad st c = [] ∧ s.updating st
      c.shard = false ∧ s.shardState st c.shard ≠ 6 ∧ s.QuietStacks ∧ c.word 6 ≠ 0 ∧ bitOf (c.word 0) 13 = false ∧ auditOf
      (sepSrcB c) (sepGeo c) [bytesAt s.mem.cells (planeOff st (c.word 5) 0) (2 * (sepGeo c).groups), bytesAt s.mem.cells
      (planeOff st (c.word 6) 0) (4 * budgetOf (sepSrcB c) * (sepGeo c).groups)] = a) ∧
    (∃ (s : State) (st : Fin 12) (c : BaseCmd) (rest : List BaseCmd) (i : Instr), i ∈ [Instr.prune st, .regrow st, .audit
      st, .collect st] ∧ (s.sep st).cur = none ∧ (s.sep st).queue = c :: rest ∧ sepOp c = 0 ∧ s.power.hold = false ∧
      s.safety.stop = false ∧ c.src = .host) ∧
    (∃ (s : State) (st : Fin 12) (c : BaseCmd) (rest : List BaseCmd) (i : Instr), (i, sepOp c) ∈ [(Instr.prune st, opPrune),
      (.regrow st, opRegrow), (.audit st, opAudit), (.collect st, opCollect)] ∧ (s.sep st).cur = none ∧ (s.sep st).queue = c
      :: rest ∧ s.power.hold = false ∧ s.safety.stop = false ∧ s.sepBad st c = [] ∧ s.updating st c.shard = false ∧
      s.shardState st c.shard = 6 ∧ s.QuietStacks ∧ c.src = .host) :=
  ⟨⟨q1 pc sp, 3, pc, [], .prune 3, 1, by and_intros <;> decide +kernel⟩,
    ⟨q1 cc sp, 3, cc, [], by and_intros <;> decide +kernel⟩,
    ⟨q1 ac sd, 3, ac, [], _, by decide +kernel, by decide +kernel, by decide +kernel, by decide +kernel, by decide +kernel,
      by decide +kernel, by decide +kernel, by decide +kernel, by and_intros <;> decide +kernel, by decide +kernel,
      by decide +kernel, rfl⟩,
    ⟨q1 bad sp, 3, bad, [], .prune 3, by and_intros <;> decide +kernel⟩,
    ⟨incon, 3, pc, [], .prune 3, by and_intros <;> decide +kernel⟩⟩

theorem test_hypotheses_SeparatorWork :
    (∃ (s : State) (st : Fin 12) (r : SepRun) (b : Batch) (wrong : List LaneError), (s.sep st).cur = some r ∧ r.waiting =
      false ∧ (s.power.hold = false ∨ r.held = false) ∧ s.safety.stop = false ∧ s.QuietStacks ∧ r.group + 256 < (sepGeo
      r.cmd).groups ∧ sepInPlace r.cmd = false ∧ sepBatchOf r.cmd r.hasCand r.group 256 ((sepRuns st r.cmd r.hasCand r.group
      256).map (fun x => bytesAt s.mem.cells x.1 x.2)) = b ∧ b.firstFail r.cmd wrong = none) ∧
    (∃ (s : State) (st : Fin 12) (r : SepRun) (b : Batch) (wrong : List LaneError) (n k : Nat), (s.sep st).cur = some r ∧
      r.waiting = false ∧ (s.power.hold = false ∨ r.held = false) ∧ s.safety.stop = false ∧ s.QuietStacks ∧ s.ctl.log.length
      < logCapacity ∧ n = min 256 ((sepGeo r.cmd).groups - r.group) ∧ sepBatchOf r.cmd r.hasCand r.group n ((sepRuns st
      r.cmd r.hasCand r.group n).map (fun x => bytesAt s.mem.cells x.1 x.2)) = b ∧ b.firstFail r.cmd wrong = some k) ∧
    (∃ (s : State) (st : Fin 12) (off : Nat) (bs : List Byte) (x : CollSlot), s.power.hold = false ∧ s.QuietStacks ∧ tfind
      (s.sep st).slots (off / 2 ^ 28) = some x ∧ off % 32 = 0 ∧ bs.length = 32 ∧ off % 2 ^ 28 / 32 < x.rows * x.pitch) ∧
    (∃ (s : State) (st : Fin 12) (off : Nat) (bs : List Byte), s.power.hold = true) ∧
    (∃ (s : State) (st : Fin 12) (off : Nat) (bs : List Byte), s.power.hold = false ∧ tfind (s.sep st).slots (off / 2 ^ 28)
      = none) :=
  ⟨⟨sr sp (srun rc2 0), 3, srun rc2 0, _, [], by decide +kernel, by decide +kernel, by decide +kernel, by decide +kernel,
      by and_intros <;> decide +kernel, by decide +kernel, by decide +kernel, rfl, by decide +kernel⟩,
    ⟨sr sp (srun pc 0), 3, srun pc 0, _, [⟨0, 0, 0⟩], 256, 0, by decide +kernel, by decide +kernel, by decide +kernel,
      by decide +kernel, by and_intros <;> decide +kernel, by decide +kernel, by decide +kernel, rfl, by decide +kernel⟩,
    ⟨st2, 3, 2 * 2^28 + 32, cb, sl, by and_intros <;> decide +kernel⟩,
    ⟨{ st2 with power := { st2.power with hold := true } }, 3, 32, cb, by decide +kernel⟩,
    ⟨st2, 3, 32, cb, by and_intros <;> decide +kernel⟩⟩

theorem test_hypotheses_UpdateStarts :
    (∃ (s : State) (st : Fin 12) (c : BaseCmd) (rest : List BaseCmd), (s.upd st).cur = none ∧ (s.upd st).queue = c :: rest ∧
      updOp c = opUpdate ∧ s.power.hold = false ∧ s.safety.stop = false ∧ s.updBad st c = [] ∧ s.rewriting st c.shard =
      false ∧ s.QuietStacks ∧ s.shardState st c.shard = 0 ∧ s.journalWord st c.shard 3 ≤ c.word 2) ∧
    (∃ (s : State) (st : Fin 12) (c : BaseCmd) (rest : List BaseCmd), (s.upd st).cur = none ∧ (s.upd st).queue = c :: rest ∧
      updOp c = opUpdate ∧ s.power.hold = false ∧ s.safety.stop = false ∧ s.updBad st c = [] ∧ s.rewriting st c.shard =
      false ∧ s.QuietStacks ∧ s.shardState st c.shard = 0 ∧ c.word 2 < s.journalWord st c.shard 3) ∧
    (∃ (s : State) (st : Fin 12) (c : BaseCmd) (rest : List BaseCmd), (s.upd st).cur = none ∧ (s.upd st).queue = c :: rest ∧
      updOp c = opApply ∧ s.power.hold = false ∧ s.safety.stop = false ∧ s.updBad st c = [] ∧ s.rewriting st c.shard = false
      ∧ s.QuietStacks ∧ s.shardState st c.shard = 2) ∧
    (∃ (s : State) (st : Fin 12) (c : BaseCmd) (rest : List BaseCmd), (s.upd st).cur = none ∧ (s.upd st).queue = c :: rest ∧
      updOp c = opDerive ∧ s.power.hold = false ∧ s.safety.stop = false ∧ s.updBad st c = [] ∧ s.rewriting st c.shard =
      false ∧ s.QuietStacks ∧ s.shardState st c.shard = 0) ∧
    (∃ (s : State) (st : Fin 12) (c : BaseCmd) (rest : List BaseCmd), (s.upd st).cur = none ∧ (s.upd st).queue = c :: rest ∧
      updOp c = opUpdate ∧ s.power.hold = false ∧ s.safety.stop = false ∧ s.updBad st c = [] ∧ s.rewriting st c.shard =
      false ∧ s.QuietStacks ∧ s.shardState st c.shard ∉ [0, 5] ∧ c.src = .host) ∧
    (∃ (s : State) (st : Fin 12) (r : UpdRun) (ws : List (Nat × List Byte)), (s.upd st).cur = some r ∧ s.safety.stop = false
      ∧ s.power.hold = false ∧ (r.pass = .moments ∨ r.pass = .master) ∧ s.QuietStacks ∧ r.batch = 0 ∧ 1024 < updSlots r.cmd
      ∧ (s.batchOf st r 0 1024).ws = ws) ∧
    (∃ (s : State) (st : Fin 12) (x : Nat × Nat) (l : List (Nat × Nat)) (c : BaseCmd), s.run.run = true ∧ s.run.stopped =
      false ∧ s.run.selftest = false ∧ s.run.milkDue = [] ∧ s.power.hold = false ∧ s.safety.stop = false ∧ (s.upd st).cur =
      none ∧ s.firstLost = none ∧ (s.upd st).pairs = none ∧ s.run.complete.filter (fun x => x.1 == st.val && !s.mirrors.any
      (fun m => m.stack == x.1 && m.shard == x.2 && m.completing)) = x :: l ∧ s.rewriting st x.2 = false ∧ tfind (s.upd
      st).kept x.2 = some c ∧ (s.rule c).kind ≠ 4 ∧ s.shardState st x.2 = 2) :=
  ⟨⟨up_ uc (su 1), 3, uc, [], by and_intros <;> decide +kernel⟩,
    ⟨up_ uc (jset 3 6 (su 1)), 3, uc, [], by and_intros <;> decide +kernel⟩,
    ⟨up_ apc (js 2 (su 4)), 3, apc, [], by and_intros <;> decide +kernel⟩,
    ⟨up_ dc (su 4), 3, dc, [], by and_intros <;> decide +kernel⟩,
    ⟨up_ uc (js 2 (su 1)), 3, uc, [], by and_intros <;> decide +kernel⟩,
    ⟨ur d1 (urun uc .moments), 3, urun uc .moments, _, by decide +kernel, by decide +kernel, by decide +kernel,
      by decide +kernel, by and_intros <;> decide +kernel, by decide +kernel, by decide +kernel, rfl⟩,
    ⟨keptAt 2, 3, (3, 7), [], uc, by and_intros <;> decide +kernel⟩⟩

theorem test_hypotheses_UpdateWork :
    (∃ (s : State) (st : Fin 12) (r : UpdRun) (ws : List (Nat × List Byte)), (s.upd st).cur = some r ∧ s.safety.stop = false
      ∧ s.power.hold = false ∧ (r.pass = .moments ∨ r.pass = .master) ∧ s.QuietStacks ∧ 1024 * r.batch + 1024 < updSlots
      r.cmd ∧ (s.batchOf st r (1024 * r.batch) (1024 * r.batch + 1024)).ws = ws) ∧
    (∃ (s : State) (st : Fin 12) (r : UpdRun) (b : UpdBatch), (s.upd st).cur = some r ∧ s.safety.stop = false ∧ s.power.hold
      = false ∧ r.pass = .working ∧ r.shard ∉ (s.upd st).acking ∧ s.snapWaits st r.shard = false ∧ s.QuietStacks ∧ 1024 *
      r.batch + 1024 < updSlots r.cmd ∧ s.batchOf st r (1024 * r.batch) (1024 * r.batch + 1024) = b) ∧
    (∃ (s : State) (st : Fin 12) (r : UpdRun) (n : Nat), (s.upd st).cur = some r ∧ s.safety.stop = false ∧ s.power.hold =
      false ∧ r.pass ∈ [UpdPass.moments, .master, .working] ∧ (r.pass = .working → r.shard ∉ (s.upd st).acking ∧ s.snapWaits
      st r.shard = false) ∧ s.QuietStacks ∧ tget 0 r.retries r.batch = n ∧ n < 2) ∧
    (∃ (s : State) (st : Fin 12) (r : UpdRun), (s.upd st).cur = some r ∧ s.safety.stop = false ∧ s.power.hold = false ∧
      r.pass ∈ [UpdPass.moments, .master, .working] ∧ (r.pass = .working → r.shard ∉ (s.upd st).acking ∧ s.snapWaits st
      r.shard = false) ∧ s.QuietStacks ∧ 2 ≤ tget 0 r.retries r.batch ∧ s.ctl.log.length < logCapacity) ∧
    (∃ (s : State) (st : Fin 12) (x : Nat × Nat) (l : List (Nat × Nat)) (c : BaseCmd), s.run.run = true ∧ s.run.stopped =
      false ∧ s.run.selftest = false ∧ s.run.milkDue = [] ∧ s.power.hold = false ∧ s.safety.stop = false ∧ (s.upd st).cur =
      none ∧ s.firstLost = none ∧ (s.upd st).pairs = none ∧ s.run.complete.filter (fun x => x.1 == st.val && !s.mirrors.any
      (fun m => m.stack == x.1 && m.shard == x.2 && m.completing)) = x :: l ∧ s.rewriting st x.2 = false ∧ tfind (s.upd
      st).kept x.2 = some c ∧ (s.rule c).kind ≠ 4 ∧ (s.shardState st x.2 = 4 ∨ s.shardState st x.2 = 5)) :=
  ⟨⟨ur d1 (urun uc .moments), 3, urun uc .moments, _, by decide +kernel, by decide +kernel, by decide +kernel,
      by decide +kernel, by and_intros <;> decide +kernel, by decide +kernel, rfl⟩,
    ⟨ur d1 (urun uc .working), 3, urun uc .working, _, by decide +kernel, by decide +kernel, by decide +kernel,
      by decide +kernel, by decide +kernel, by decide +kernel, by and_intros <;> decide +kernel, by decide +kernel, rfl⟩,
    ⟨ur d1 (urun uc .working), 3, urun uc .working, 0, by and_intros <;> decide +kernel⟩,
    ⟨ur d1 { urun uc .moments with retries := [(0, 2)] }, 3, { urun uc .moments with retries := [(0, 2)] },
      by and_intros <;> decide +kernel⟩,
    ⟨keptAt 4, 3, (3, 7), [], uc, by and_intros <;> decide +kernel⟩⟩

theorem test_hypotheses_RecordCommands :
    (∃ (s : State) (st : Fin 12) (c : BaseCmd) (rest : List BaseCmd), (s.upd st).cur = none ∧ (s.upd st).queue = c :: rest ∧
      updOp c = opExport ∧ s.power.hold = false ∧ s.safety.stop = false ∧ s.updBad st c = [] ∧ s.rewriting st c.shard =
      false ∧ s.shardState st c.shard = 0 ∧ s.QuietStacks ∧ zEndpoint (recordAddr c) = s.moduleNum ∧ zSpace (recordAddr c) =
      1 ∧ zOff (recordAddr c) + 512 + payloadBytes c (updKinds c) ≤ 2 ^ 40 ∧ s.TierTakes (zOff (recordAddr c)) (512 +
      payloadBytes c (updKinds c))) ∧
    (∃ (s : State) (st : Fin 12) (c : BaseCmd) (rest : List BaseCmd), (s.upd st).cur = none ∧ (s.upd st).queue = c :: rest ∧
      updOp c = opExport ∧ s.power.hold = false ∧ s.safety.stop = false ∧ s.updBad st c = [] ∧ s.rewriting st c.shard =
      false ∧ s.shardState st c.shard = 0 ∧ s.QuietStacks ∧ s.isOwn (recordAddr c) = false ∧ s.reachable (peerOf (recordAddr
      c)).1 (peerOf (recordAddr c)).2 = true) ∧
    (∃ (s : State) (st : Fin 12) (c : BaseCmd) (rest : List BaseCmd) (h bs : List Byte), (s.upd st).cur = none ∧ (s.upd
      st).queue = c :: rest ∧ updOp c = opImport ∧ s.power.hold = false ∧ s.safety.stop = false ∧ s.updBad st c = [] ∧
      s.rewriting st c.shard = false ∧ s.shardState st c.shard ∈ [0, 6] ∧ zEndpoint (recordAddr c) = s.moduleNum ∧ zSpace
      (recordAddr c) = 1 ∧ s.TierReads (zOff (recordAddr c)) 512 ∧ bytesAt s.mem.cells (lpKey (zOff (recordAddr c))) 512 = h
      ∧ zOff (recordAddr c) + 512 + headBytes c h ≤ 2 ^ 40 ∧ s.TierReads (zOff (recordAddr c) + 512) (headBytes c h) ∧
      bytesAt s.mem.cells (lpKey (zOff (recordAddr c) + 512)) (headBytes c h) = bs ∧ s.importOk st c (h ++ bs) = true ∧
      s.QuietStacks ∧ maskOk c ((((splitPayload (recordPlanes (headCmd c (h ++ bs)) (headKinds (h ++ bs))) ((h ++ bs).drop
      512)).find? (fun p => p.1 == 10)).map (·.2)).getD []) = true) ∧
    (∃ (s : State) (st : Fin 12) (c : BaseCmd) (rest : List BaseCmd), (s.upd st).cur = none ∧ (s.upd st).queue = c :: rest ∧
      updOp c = opImport ∧ s.power.hold = false ∧ s.safety.stop = false ∧ s.updBad st c = [] ∧ s.rewriting st c.shard =
      false ∧ s.shardState st c.shard ∈ [0, 6] ∧ s.QuietStacks ∧ s.isOwn (recordAddr c) = false ∧ s.reachable (peerOf
      (recordAddr c)).1 (peerOf (recordAddr c)).2 = true) :=
  ⟨⟨up_ (ec ownA) d1, 3, ec ownA, [], by and_intros <;> decide +kernel⟩,
    ⟨up_ (ec othA) d2, 3, ec othA, [], by and_intros <;> decide +kernel⟩,
    ⟨up_ small imp, 3, small, [], hh, List.replicate 512 0, by and_intros <;> decide +kernel⟩,
    ⟨up_ (ic othA) d2, 3, ic othA, [], by and_intros <;> decide +kernel⟩⟩

theorem test_hypotheses_MirrorCommands :
    (∃ (s : State) (st : Fin 12) (sh : Fin 4096) (m : Mirror), s.mirrors.find? (fun x => x.stack == st.val && x.shard ==
      sh.val && x.epoch == m.epoch && !s.takenUp x) = some m ∧ s.bindMutual = true ∧ m.sep = false ∧ s.QuietStacks) ∧
    (∃ (s : State) (st : Fin 12) (sh : Fin 4096) (e : DWord), s.mirrors.find? (fun x => x.stack == st.val && x.shard ==
      sh.val && x.epoch == e && !s.takenUp x) = none) ∧
    (∃ (s : State) (st : Fin 12) (sh : Fin 4096) (m : Mirror), s.mirrors.find? (fun x => x.stack == st.val && x.shard ==
      sh.val && !s.takenUp x) = some m ∧ m.sep = false ∧ s.QuietStacks ∧ m.sentSlot + s.mirrorWait st ≤ s.slot) ∧
    (∃ (s : State) (n : Nat), s.twin = some n ∧ s.twinBound = true ∧ s.twinReachable = false) ∧
    (∃ (s : State) (i : Fin 12) (sh : Fin 4096) (d : Nat × Nat), s.fab.digestDue.find? (fun d => d.1 == 4096 * i.val +
      sh.val) = some d ∧ d.2 + 64 ≤ s.slot ∧ s.QuietStacks) :=
  ⟨⟨mj, 3, 7, mi, by and_intros <;> decide +kernel⟩,
    ⟨mj, 3, 7, 8, by decide +kernel⟩,
    ⟨mtt, 3, 7, { mi with sentSlot := mj.slot - mj.mirrorWait 3 }, by and_intros <;> decide +kernel⟩,
    ⟨{ mj with fab := { mj.fab with peers := [] } }, 9, by and_intros <;> decide +kernel⟩,
    ⟨dd, 3, 7, (4096 * 3 + 7, mj.slot - 64), by and_intros <;> decide +kernel⟩⟩

theorem test_hypotheses_MemoryUnitCommands :
    (∃ (s : State) (st : Fin 12) (p q : Nat), s.churning st = true ∧ s.CleanStacks ∧ s.nextChunk st (s.churnPos st) = some p
      ∧ s.nextChunk st (p + chunkBytes) = some q ∧ bitOf (s.reg (Reg.HBM_CHURN_CONFIG st)) 8 = false) ∧
    (∃ (s : State) (b : Blk), blkStands b = true ∧ s.leakDue b = false) ∧
    (∃ (s : State) (b : Blk), blkStands b = true ∧ s.leakDue b = true) ∧
    (∃ (s : State) (st : Fin 12), (∀ r, (s.upd st).cur = some r → r.pass = .working → r.shard ∉ (s.upd st).acking)) ∧
    (∃ (s : State) (st : Fin 12) (r : UpdRun) (e : Nat × Nat), (s.upd st).cur = some r ∧ r.pass = .working ∧ r.shard ∈
      (s.upd st).acking ∧ r.shard = r.cmd.shard ∧ r.ending = false ∧ r.completing = false ∧ updMirror r.cmd = false ∧
      s.QuietStacks ∧ (s.journal st r.shard).isSome = true ∧ s.commitsTo st r.cmd = e) :=
  ⟨⟨ch, 3, (ch.nextChunk 3 (ch.churnPos 3)).getD 0, (ch.nextChunk 3 ((ch.nextChunk 3 (ch.churnPos 3)).getD 0 +
      chunkBytes)).getD 0, by and_intros <;> decide +kernel⟩,
    ⟨up, ⟨clsCore, 63⟩, by and_intros <;> decide +kernel⟩,
    ⟨leaky, ⟨clsCore, 63⟩, by and_intros <;> decide +kernel⟩,
    ⟨{ up with upds := (up.setUpd 3 { up.upd 3 with acking := [7], holding := [7, 8] }).upds }, 3, by decide +kernel⟩,
    ⟨ackd, 3, urun uc .working, ackd.commitsTo 3 uc, by and_intros <;> decide +kernel⟩⟩

theorem test_hypotheses_RegisterMessages :
    (∃ (s : State) (f : Session), s.Serves f true) ∧
    (∃ (s : State) (f : Session) (n : Nat) (a : Word), s.Serves f false ∧ s.regCheck a.toNat n 1024 = none) ∧
    (∃ (s : State) (f : Session) (a v : Word) (r : RegRow), s.Serves f false ∧ regStands a.toNat = true ∧ s.regInService
      a.toNat = true ∧ fieldOf a.toNat 15 12 ≠ 0 ∧ fieldOf a.toNat 31 24 ∈ [clsCore, clsQuarter, clsMsc, clsLpddr, clsCopy]
      ∧ rowOf a.toNat = some r ∧ r.rwl = 0) ∧
    (∃ (s : State) (f : Session) (a v m : Word) (r : RegRow), s.Serves f false ∧ regStands a.toNat = true ∧ s.regInService
      a.toNat = true ∧ fieldOf a.toNat 15 12 ≠ 0 ∧ fieldOf a.toNat 31 24 ∈ [clsCore, clsQuarter, clsMsc, clsLpddr, clsCopy]
      ∧ rowOf a.toNat = some r ∧ r.rwl = 0 ∧ r.wo = 0 ∧ r.rc = 0 ∧ s.view a.toNat = s.reg a.toNat) ∧
    (∃ (s : State) (f : Session) (n : Nat) (a : Word), s.Serves f false ∧ (n = 0 ∨ 1024 < n)) ∧
    (∃ (s : State) (f : Session) (n : Nat) (a : Word), s.Serves f false ∧ 1 ≤ n ∧ n ≤ 1024 ∧ regStands a.toNat = false) ∧
    (∃ (s : State) (f : Session) (n : Nat) (a : Word), s.hasSession f = false) :=
  ⟨⟨cup, pses, by and_intros <;> decide +kernel⟩,
    ⟨cup, pses, 2, 16781316, by and_intros <;> decide +kernel⟩,
    ⟨cup, pses, 16785420, 0x12345678, rgo 16785420, by and_intros <;> decide +kernel⟩,
    ⟨cup, pses, 50335744, 0xFFFFFFFF, 0xF, rgo 50335744, by and_intros <;> decide +kernel⟩,
    ⟨cup, pses, 0, 16785420, by and_intros <;> decide +kernel⟩,
    ⟨cup, pses, 1, 0xFFFFFFFC, by and_intros <;> decide +kernel⟩,
    ⟨live, fses, 1, 0, by decide +kernel⟩⟩

theorem test_hypotheses_MemoryAttestAndTwinMessages :
    (∃ (s : State) (f : Session) (n : Nat) (a : DWord), s.Serves f false ∧ 1 ≤ n ∧ n ≤ 4096 ∧ zEndpoint a.toNat =
      s.moduleNum ∧ zSpace a.toNat = 1 ∧ zOff a.toNat + n ≤ 2 ^ 40 ∧ s.memServed 1 (zOff a.toNat) = true ∧ s.TierReads (zOff
      a.toNat) n) ∧
    (∃ (s : State) (f : Session) (bs : List Byte) (a : DWord), s.Serves f false ∧ 1 ≤ bs.length ∧ bs.length ≤ 4096 ∧
      zEndpoint a.toNat = s.moduleNum ∧ zSpace a.toNat = 1 ∧ zOff a.toNat + bs.length ≤ 2 ^ 40 ∧ s.memServed 1 (zOff
      a.toNat) = true ∧ s.TierTakes (zOff a.toNat) bs.length) ∧
    (∃ (s : State) (f : Session) (bs : List Byte) (a : DWord), s.Serves f false ∧ 1 ≤ bs.length ∧ bs.length ≤ 4096 ∧
      zEndpoint a.toNat = s.moduleNum ∧ s.memServed (zSpace a.toNat) (zOff a.toNat) = false ∧ ((zSpace a.toNat = 3 ∧ zOff
      a.toNat + bs.length ≤ 64 * 4096) ∨ (zSpace a.toNat ≤ 1 ∧ s.goes (zSpace a.toNat) (zOff a.toNat) bs.length ≠
      .nowhere))) ∧
    (∃ (s : State) (f : Session) (bs : List Byte) (a : DWord), s.Serves f false ∧ 1 ≤ bs.length ∧ bs.length ≤ 4096 ∧
      zEndpoint a.toNat ≠ s.moduleNum) ∧
    (∃ (s : State) (f : Session) (nonce : List Byte), s.Serves f true ∧ nonce.length = 64 ∧ s.ctl.signing < 64) ∧
    (∃ (s : State) (f : Session) (nonce : List Byte), s.Serves f true ∧ nonce.length = 64 ∧ 64 ≤ s.ctl.signing) ∧
    (∃ (s : State) (f : Session) (w : Word) (d : DigestRecord), s.Serves f false ∧ s.fromTwin f = true ∧ d.owner =
      s.moduleNum ∧ s.shardState d.stack d.shard = 0 ∧ bitOf (s.journalWord d.stack d.shard 0) 30 = false ∧ (s.journal
      d.stack d.shard).isSome = true ∧ d.absent = false ∧ d.epoch.toNat = s.epochOf d.stack d.shard ∧ d.digest.toNat =
      s.masterCrc d.stack d.shard) ∧
    (∃ (s : State) (f : Session) (w : Word) (d : DigestRecord), s.Serves f false ∧ s.fromTwin f = true ∧ d.owner =
      s.moduleNum ∧ s.shardState d.stack d.shard = 0 ∧ bitOf (s.journalWord d.stack d.shard 0) 30 = false ∧ (s.journal
      d.stack d.shard).isSome = true ∧ d.absent = false ∧ d.epoch.toNat = s.epochOf d.stack d.shard ∧ d.digest.toNat ≠
      s.masterCrc d.stack d.shard ∧ s.ctl.log.length < logCapacity) ∧
    (∃ (s : State) (f : Session) (w : Word) (ds : List DigestRecord), s.Serves f false ∧ s.fromTwin f = false) :=
  ⟨⟨cupm, pses, 5, BitVec.ofNat 64 (own1 + 0xFFF), by and_intros <;> decide +kernel⟩,
    ⟨cupm, pses, [9,8,7], BitVec.ofNat 64 (own1 + 0x1001), by and_intros <;> decide +kernel⟩,
    ⟨downDie, pses, [9], BitVec.ofNat 64 own1, by and_intros <;> decide +kernel⟩,
    ⟨cupm, pses, [9], BitVec.ofNat 64 (own1 + 2^53), by and_intros <;> decide +kernel⟩,
    ⟨cup, pses, List.replicate 64 0, by and_intros <;> decide +kernel⟩,
    ⟨{ cup with ctl := { cup.ctl with signing := 64 } }, pses, List.replicate 64 0, by and_intros <;> decide +kernel⟩,
    ⟨td, fses, 0, dg, by and_intros <;> decide +kernel⟩,
    ⟨td, fses, 0, { dg with digest := 7 }, by and_intros <;> decide +kernel⟩,
    ⟨td, { pses with src := 4 }, 0, [dg], by and_intros <;> decide +kernel⟩⟩

theorem test_hypotheses_FetchRequestCommands :
    (∃ (s : State) (r : Req) (k : Nat), s.run.reqs.find? (fun x => x.id == r.id) = some r ∧ r.started = true ∧ r.waiting =
      false ∧ r.token = some k) ∧
    (∃ (s : State) (r : Req), s.run.reqs.find? (fun x => x.id == r.id) = some r ∧ (r.started = false ∨ r.waiting = true)) ∧
    (∃ (s : State) (e : Fin 18) (r : Req) (bytes : List (Nat × Byte × Byte)) (a : DWord), s.nextRequest e = some r ∧ r.what
      = .tile bytes a ∧ zEndpoint a.toNat = s.moduleNum ∧ zSpace a.toNat = 1 ∧ (∀ x ∈ s.tileRuns bytes a.toNat, zSpace x.1 =
      1 ∧ zEndpoint x.1 = s.moduleNum ∧ zOff x.1 + x.2.length ≤ 2 ^ 40 ∧ s.TierTakes (zOff x.1) x.2.length)) ∧
    (∃ (s : State) (e : Fin 18) (r : Req) (f : FetchEntry) (o : Nat), s.nextRequest e = some r ∧ r.what = .fetch f o ∧
      f.kind = 0 ∧ f.dir = 0 ∧ r.count = 1 ∧ r.core < 64 ∧ zEndpoint f.ext.toNat = s.moduleNum ∧ zSpace f.ext.toNat = 1 ∧
      zOff f.ext.toNat + f.rowBytes ≤ 2 ^ 40 ∧ f.rowBytes % 32 = 0 ∧ 0 < f.rowBytes ∧ f.sp < 2 ^ 20 ∧ f.sp % 32 = 0 ∧ f.sp +
      f.rowBytes ≤ scratchBytes ∧ s.TierReads (zOff f.ext.toNat) f.rowBytes ∧ s.armed clsCore r.core = none ∧ (∀ g,
      s.regionAt r.core f.sp = some g → g.2.fullBlock = false)) ∧
    (∃ (s : State) (e : Fin 18), s.nextRequest e = none) :=
  ⟨⟨sf rq, rq, 3, by and_intros <;> decide +kernel⟩,
    ⟨sf { rq with started := false }, { rq with started := false }, by and_intros <;> decide +kernel⟩,
    ⟨sf tq, 1, tq, [(0, 1, 255), (1, 2, 15), (8, 3, 255)], BitVec.ofNat 64 (own1 + 64), by and_intros <;> decide +kernel⟩,
    ⟨sfm 1, 1, fq_ 1, fe, 0, by and_intros <;> decide +kernel⟩,
    ⟨State.reset, 0, by decide +kernel⟩⟩

end Base

/-! ### Frames. -/

namespace Fabric

def own1 : Nat := 5 * 2^52 + 2^48
def cup : State := { live with fab := { live.fab with peers := [pr 9 false, { pr 9 false with plane := 1 }] }, clock := { live.clock with locked := true, everLocked := true, phase := 4096 * 300 + 5, now := 90000 } }
def cupm : State := { cup with mem := { cup.mem with cells := setBytes [] (lpKey 0x1000) [1,2,3,4,5,6,7,8] } }
def hd (ty : Nat) : Hdr := { (default : Hdr) with gen := 3, type := ty, cls := 1, queue := 17, src := 9, dst := 5, tag := 77, last := true }
def blk (bs : List Byte) : Block := ⟨bs, BitVec.ofNat 32 (crc32c bs)⟩
def rx (h : Hdr) (bs : List (List Byte)) : Rx :=
  { (default : Rx) with
    icvOk := true, newKey := true, packet := 1
    head := ({ h with nblk := bs.length, len := if bs = [] then h.len else BitVec.ofNat 32 ((bs.headD []).length + 65536 * ((bs.drop 1).headD []).length) } : Hdr).bytes
    body := bs.flatMap (fun b => (blk b).bytes) }
def sealed (r : Rx) : Rx := { r with udp := ⟨1, 2, 3, 4, udpChecksum 1 2 3 4 (r.head ++ r.body)⟩ }
def fix (s : State) (r : Rx) : Rx := sealed { r with head := ({ r.hdr with seq := (s.rxFlow (s.rxId r)).expect } : Hdr).bytes }
def wr (a : Nat) (bs : List Byte) : Rx := fix cup (rx { hd 0 with addr := BitVec.ofNat 64 a } [bs])
def pe : Peer := pr 9 false
def rd (a n : Nat) : Rx := fix cup (rx { hd 1 with addr := BitVec.ofNat 64 a, len := BitVec.ofNat 32 n } [])
def waits (s : State) (r : Rx) : State := { s with fab := { s.fab with heldReads := [(s.rxId r, ⟨r.hdr, []⟩)] } }
def le (l : List (Nat × Nat)) : List Byte := l.flatMap (fun x => leBytes x.1 x.2)
def gb : List Byte := le [(8, 3), (4, 512), (4, 0), (4, 512), (4, 0x200)]
def gr (a : Nat) (bs : List Byte) : Rx := fix cupm (rx { hd 10 with addr := BitVec.ofNat 64 a } [bs])
def rqm (use_ : RemoteUse) (left : Nat) : RemoteReq := ⟨77, 9, false, 0, left, use_, []⟩
def qx : Req := { (default : Req) with id := 4, core := 5, started := true, waiting := true }
def ans (use_ : RemoteUse) (left : Nat) : State := { cupm with fab := { cupm.fab with remote := [rqm use_ left] }, run := { cupm.run with reqs := [qx] } }
def f1 : RemoteUse := .fetch 4 [(0, scratchKey 5 64, 32)]
def tb (q : Word) (sent : Bool) (n : Nat) : TxBlock := { (default : TxBlock) with sent := sent, cargo := ⟨{ hd 0 with seq := q, nblk := n, dst := 9, src := 5 }, [1,2]⟩ }
def fl (r : Rx) : FlowId := frameFlow r
def akr (ty : Nat) (q : Word) (n : Nat) : Rx := sealed (rx { hd ty with seq := q, len := BitVec.ofNat 32 n } [])
def txs : State := { cup with fab := { cup.fab with tx := [⟨fl (akr 3 4 0), 9, [tb 3 true 1, tb 4 true 1, tb 5 true 1, tb 0 true 0, tb 6 false 1]⟩] } }
def er : Rx := { akr 5 0 0 with error := some .unmapped }
def pl (n : Nat) : State := { cup with fab := { cup.fab with pool := [(0, n), (1, 4)] } }
def cm (ln : Nat) : List Byte := le [(4, 0), (4, 99), (4, 0), (4, ln)]
def cr : Rx := fix cup (rx { hd 8 with cls := 2, tag := 1 } [cm 0])
def re : RedEntry := { (default : RedEntry) with op := 0, engine := 2, expect := 2, length := 1024, dest := BitVec.ofNat 64 (own1 + 0x4000) }
def rpl : Plan := { plan0 with reductions := [(redKey 0 3, re)] }
def rs_ : State := { cup with run := { cup.run with plan := some rpl, step := 6, variant := 0 }, fab := { cup.fab with redState := [(redKey 0 3, ⟨6, []⟩)] } }
def b512 : List Byte := (List.range 512).map (BitVec.ofNat 8)
def rr1 (a : Nat) : Rx := fix cup (rx { hd 11 with tag := BitVec.ofNat 32 (3 * 2^20 + 6), addr := BitVec.ofNat 64 a } [b512])
def rl : RedLine := { (default : RedLine) with entry := redKey 0 3, unit := 0, count := 2, sums := List.replicate 256 0, full := true }
def rh : State := { rs_ with fab := { rs_.fab with redLines := [rl] } }
def fid : FlowId := fl (akr 3 4 0)
def rxs : State := { cup with fab := { cup.fab with rx := [⟨fid, 8, [], 3, cup.clock.now - 1400, some (cup.clock.now - 700), []⟩] } }
def t0 : State := { txs with clock := { txs.clock with now := 10 ^ 9 } }
def off (s : State) (p : Fin 8) : Option Offer := bestOffer ((s.fab.tx.filter (fun f => s.flowPort f.id == p.val &&
        s.joinedOn f.id.peer f.id.host (s.livePlane f.id.plane) && s.keyLeft p f.id)).flatMap (s.offers p))
def tcr (n : Nat) : State := { txs with clock := { txs.clock with phase := 4096 * 300 + 50 }, fab := { txs.fab with credits := [⟨9, false, 0, n, 0, none, none⟩] } }
def old : State := { tcr 5 with fab := { (tcr 5).fab with peers := [{ pe with sent := [(2, 2 ^ 61 - 1)] }] } }
def pdn : State := { t0 with fab := { t0.fab with ports := (List.range 8).map (fun p => (p, if p = 5 then ⟨false, false, true, some 5, 0⟩ else ⟨true, true, true, none, 0⟩)) } }

theorem test_hypotheses_RequestFrames :
    (∃ (s : State) (r : Rx) (p : Peer) (b : Block), s.Hears 0 r p ∧ s.NextBlock r b ∧ b.data ≠ [] ∧ zEndpoint
      r.hdr.addr.toNat = s.moduleNum ∧ zSpace r.hdr.addr.toNat = 1 ∧ zOff r.hdr.addr.toNat + b.data.length ≤ 2 ^ 40 ∧
      s.placeAt (zOff r.hdr.addr.toNat) b.data.length = none ∧ s.TierTakes (zOff r.hdr.addr.toNat) b.data.length ∧
      writeWaits s.fab.heldReads (s.rxId r) ⟨r.hdr, b.data⟩ = false) ∧
    (∃ (s : State) (r : Rx) (p : Peer) (b : Block), s.Hears 0 r p ∧ s.NextBlock r b ∧ writeWaits s.fab.heldReads (s.rxId r)
      ⟨r.hdr, b.data⟩ = true) ∧
    (∃ (s : State) (r : Rx) (p : Peer) (b : Block), s.Hears 0 r p ∧ s.NextBlock r b ∧ zEndpoint r.hdr.addr.toNat ≠
      s.moduleNum ∧ writeWaits s.fab.heldReads (s.rxId r) ⟨r.hdr, b.data⟩ = false) ∧
    (∃ (s : State) (r : Rx) (p : Peer), s.Hears 1 r p ∧ 1 ≤ r.hdr.len.toNat ∧ r.hdr.len.toNat ≤ 4096 ∧ zEndpoint
      r.hdr.addr.toNat = s.moduleNum ∧ zSpace r.hdr.addr.toNat = 1 ∧ zOff r.hdr.addr.toNat + r.hdr.len.toNat ≤ 2 ^ 40 ∧
      s.placeAt (zOff r.hdr.addr.toNat) r.hdr.len.toNat = none ∧ s.TierReads (zOff r.hdr.addr.toNat) r.hdr.len.toNat ∧ (∀ x
      ∈ s.fab.heldReads, x.1 ≠ s.rxId r) ∧ s.missing (s.rxId r) ⟨r.hdr, []⟩ = false) ∧
    (∃ (s : State) (r : Rx) (p : Peer), s.Hears 1 r p ∧ (s.fab.heldReads.any (fun x => x.1 == s.rxId r) || s.missing (s.rxId
      r) ⟨r.hdr, []⟩) = true) ∧
    (∃ (s : State) (r : Rx) (p : Peer) (b : Block) (a : Nat), s.Hears 10 r p ∧ s.NextBlock r b ∧ b.data.length = 24 ∧ wordIn
      b.data 2 % 512 = 0 ∧ 1 ≤ wordIn b.data 2 ∧ wordIn b.data 2 ≤ 4096 ∧ wordIn b.data 3 = 0 ∧ r.hdr.addr.toNat + wordIn
      b.data 4 * dwordIn b.data 0 + wordIn b.data 5 = a ∧ zEndpoint a = s.moduleNum ∧ zSpace a = 1 ∧ zOff a + wordIn b.data
      2 ≤ 2 ^ 40 ∧ s.placeAt (zOff a) (wordIn b.data 2) = none ∧ s.TierReads (zOff a) (wordIn b.data 2) ∧ (∀ x ∈
      s.fab.heldReads, x.1 ≠ s.rxId r)) :=
  ⟨⟨cup, wr (own1 + 0x1002) [7,8,9], pe, blk [7,8,9], by and_intros <;> decide +kernel⟩,
    ⟨waits cup (rd own1 1), wr (own1 + 0x1002) [7,8,9], pe, blk [7,8,9], by and_intros <;> decide +kernel⟩,
    ⟨cup, wr (own1 + 2^54) [7,8,9], pe, blk [7,8,9], by and_intros <;> decide +kernel⟩,
    ⟨cupm, rd (own1 + 0x1002) 4, pe, by and_intros <;> decide +kernel⟩,
    ⟨waits cupm (rd own1 1), rd (own1 + 0x1002) 4, pe, by and_intros <;> decide +kernel⟩,
    ⟨cupm, gr (own1 + 0x1000 - 0x800) gb, pe, blk gb, own1 + 0x1000, by and_intros <;> decide +kernel⟩⟩

theorem test_hypotheses_AnswerFrames :
    (∃ (s : State) (r : Rx) (p : Peer) (b : Block) (q : RemoteReq) (x : Req) (key n : Nat), s.Hears 2 r p ∧ r.error = none ∧
      s.NextBlock r b ∧ s.remoteOf (s.rxId r) r.hdr.tag = some q ∧ q.use = .fetch x.id [(0, key, n)] ∧ s.run.reqs.find? (fun
      y => y.id == x.id) = some x ∧ b.data.length < q.left ∧ r.hdr.addr.toNat + b.data.length ≤ n ∧ 2 ^ 49 ≤ key ∧ key + n ≤
      2 ^ 50 ∧ (key - 2 ^ 49) % 2 ^ 20 + n ≤ scratchBytes ∧ s.armed clsCore ((key - 2 ^ 49) / 2 ^ 20) = none ∧
      s.mem.badScratch = []) ∧
    (∃ (s : State) (r : Rx) (p : Peer), s.Hears 3 r p) ∧
    (∃ (s : State) (r : Rx) (p : Peer) (b : TxBlock), s.Hears 4 r p ∧ (s.txFlow (s.txId r)).block r.hdr.seq = some b ∧ bitOf
      r.hdr.len.toNat 0 = true) ∧
    (∃ (s : State) (r : Rx) (p : Peer) (b : TxBlock), s.Hears 4 r p ∧ (s.txFlow (s.txId r)).block r.hdr.seq = some b ∧ bitOf
      r.hdr.len.toNat 0 = false ∧ b.resends < s.retryLimit (s.livePlane (s.txId r).plane)) ∧
    (∃ (s : State) (r : Rx) (p : Peer) (q : RemoteReq) (st sh : Nat), s.Hears 5 r p ∧ r.error = none ∧ s.remoteOf (frameFlow
      r) r.hdr.tag = some q ∧ q.use = .mirror st sh) ∧
    (∃ (s : State) (r : Rx) (p : Peer) (q : RemoteReq) (id : Nat) (d : List (Nat × Nat × Nat)), s.Hears 5 r p ∧ r.error =
      none ∧ s.remoteOf (frameFlow r) r.hdr.tag = some q ∧ q.use = .fetch id d ∧ (∀ x ∈ s.fab.remote, x.tag ≠ r.hdr.tag → ∀
      g, x.use ≠ .fetch id g)) ∧
    (∃ (s : State) (i : Instr) (r : Rx) (p : Peer) (q : RemoteReq) (x : Req) (d : List (Nat × Nat × Nat)) (e : AnswerError),
      ((i = .writeDone r ∧ s.Hears 5 r p) ∨ (i = .readData r ∧ s.Hears 2 r p)) ∧ r.error = some e ∧ s.remoteOf (frameFlow r)
      r.hdr.tag = some q ∧ q.use = .fetch x.id d ∧ s.run.reqs.find? (fun y => y.id == x.id) = some x ∧ s.ctl.log.length <
      logCapacity) :=
  ⟨⟨ans f1 32, fix cupm (rx { hd 2 with addr := 8 } [[7,8,9]]), pe, blk [7,8,9], rqm f1 32, qx, scratchKey 5 64, 32,
      by and_intros <;> decide +kernel⟩,
    ⟨txs, akr 3 4 0, pe, by and_intros <;> decide +kernel⟩,
    ⟨txs, akr 4 4 1, pe, tb 4 true 1, by and_intros <;> decide +kernel⟩,
    ⟨txs, akr 4 4 0, pe, tb 4 true 1, by and_intros <;> decide +kernel⟩,
    ⟨ans (.mirror 3 7) 0, akr 5 0 0, pe, rqm (.mirror 3 7) 0, 3, 7, by and_intros <;> decide +kernel⟩,
    ⟨ans f1 0, akr 5 0 0, pe, rqm f1 0, 4, [(0, scratchKey 5 64, 32)],
      by and_intros <;> decide +kernel, rfl, by decide +kernel, by decide +kernel,
      fun x hx hne => absurd (by rw [List.mem_singleton.mp hx]; decide +kernel) hne⟩,
    ⟨ans f1 0, .writeDone er, er, pe, rqm f1 0, qx, [(0, scratchKey 5 64, 32)], .unmapped,
      Or.inl ⟨rfl, by and_intros <;> decide +kernel⟩, rfl, by decide +kernel, rfl, by decide +kernel, by decide +kernel⟩⟩

theorem test_hypotheses_CreditCommands :
    (∃ (s : State) (r : Rx) (p : Peer), s.Hears 6 r p ∧ s.pool (r.port.val / 4) = 0) ∧
    (∃ (s : State) (r : Rx) (p : Peer), s.Hears 6 r p ∧ s.fab.credits = [] ∧ 0 < s.pool (r.port.val / 4) ∧ s.power.restore =
      none) ∧
    (∃ (s : State) (r : Rx) (p : Peer), s.Hears 7 r p) ∧
    (∃ (s : State) (c : Fin 2), s.pool c + s.grantedOn c < 1024 ∧ (∀ x ∈ s.fab.credits, x.plane = c.val → x.wants = none)) :=
  ⟨⟨{ cup with fab := { cup.fab with pool := [] } }, akr 6 0 0, pe, by and_intros <;> decide +kernel⟩,
    ⟨pl 1024, akr 6 0 0, pe, by and_intros <;> decide +kernel⟩,
    ⟨pl 3, akr 7 0 12, pe, by and_intros <;> decide +kernel⟩,
    ⟨pl 1023, 0, by and_intros <;> decide +kernel⟩⟩

theorem test_hypotheses_OtherFrames :
    (∃ (s : State) (r : Rx) (p : Peer) (b : Block), s.Hears 8 r p ∧ s.NextBlock r b ∧ r.hdr.last = true ∧ (s.rxFlow (s.rxId
      r)).partial_ = [] ∧ (s.port r.port.val).admitted < 256 ∧ b.data.length = 16 ∧ wordIn b.data 0 = 0 ∧ wordIn b.data 2 =
      0 ∧ wordIn b.data 3 = 0 ∧ p.unreachable = false ∧ 16 ≤ r.hdr.queue ∧ r.hdr.queue ≤ 4095) ∧
    (∃ (s : State) (r : Rx) (p : Peer) (b : Block) (v : Nat) (e : RedEntry), s.Hears 11 r p ∧ s.NextBlock r b ∧
      b.data.length = 512 ∧ r.hdr.addr.toNat % 512 = 0 ∧ r.hdr.addr.toNat + 512 ≤ e.length ∧ s.variantOf (r.hdr.tag.toNat %
      2 ^ 20) = some v ∧ s.redEntry (redKey v (r.hdr.tag.toNat / 2 ^ 20)) = some e ∧ (s.redState (redKey v (r.hdr.tag.toNat
      / 2 ^ 20))).step % 2 ^ 20 = r.hdr.tag.toNat % 2 ^ 20 ∧ s.unitClosed (redKey v (r.hdr.tag.toNat / 2 ^ 20))
      (r.hdr.addr.toNat / 512) = false ∧ s.redLine (redKey v (r.hdr.tag.toNat / 2 ^ 20)) (r.hdr.addr.toNat / 512) = none ∧
      s.linesBusy e.engine < linesMax ∧ 1 < e.expect ∧ writeWaits s.fab.heldReads (s.rxId r) ⟨r.hdr, b.data⟩ = false) ∧
    (∃ (s : State) (u : Nat) (l : RedLine) (e : RedEntry), s.fab.redLines.find? (fun x => s.lineFree x && x.entry % 4096 ==
      l.entry % 4096 && x.unit == u) = some l ∧ s.redEntry l.entry = some e ∧ l.residueOk e.op = true ∧ s.redMapped
      (e.unitAddr u) (e.unitBytes u) = true ∧ zSpace (e.unitAddr u) = 1 ∧ s.TierTakes (zOff (e.unitAddr u)) (l.bytes
      e.op).1.length ∧ (s.redState l.entry).done.length + 1 < e.units) ∧
    (∃ (s : State) (r : Rx) (p : Peer), s.Hears 12 r p ∧ r.hdr.len.toNat < 2 ∧ s.planeOut r.hdr.len.toNat = false) :=
  ⟨⟨cup, cr, pe, blk (cm 0), by and_intros <;> decide +kernel⟩,
    ⟨rs_, rr1 512, pe, blk b512, 0, re, by and_intros <;> decide +kernel⟩,
    ⟨rh, 0, rl, re, by and_intros <;> decide +kernel⟩,
    ⟨cup, akr 12 0 1, pe, by and_intros <;> decide +kernel⟩⟩

theorem test_hypotheses_FlowAndPortCommands :
    (∃ (s : State) (f : FlowId), 0 < (s.rxFlow f).unacked ∧ 200 ≤ ticksSince s (s.rxFlow f).sinceAck) ∧
    (∃ (s : State) (f : FlowId) (g : Nat), (s.rxFlow f).gapSince = some g ∧ 100 ≤ ticksSince s g) ∧
    (∃ (s : State) (f : FlowId) (q : Word) (b : TxBlock), (s.txFlow f).block q = some b ∧ b.again = false ∧ b.busy = false ∧
      s.retryTimeout (s.livePlane f.plane) ≤ ticksSince s b.sentAt ∧ b.resends < s.retryLimit (s.livePlane f.plane)) ∧
    (∃ (s : State) (p : Fin 8) (o : Offer) (pr : Peer), s.power.die = true ∧ s.portLive p = true ∧ s.numbered = true ∧
      s.peerOn o.block.cargo.hdr.dst o.block.cargo.hdr.dstHost (p.val / 4) = some pr ∧ bestOffer ((s.fab.tx.filter (fun f =>
      s.flowPort f.id == p.val && s.joinedOn f.id.peer f.id.host (s.livePlane f.id.plane) && s.keyLeft p f.id)).flatMap
      (s.offers p)) = some o ∧ (tget 0 pr.sent p + 1 < rekeyFrom ∨ (o.block.cargo.hdr.dst, o.block.cargo.hdr.dstHost) ∈
      s.fab.rekeying)) ∧
    (∃ (s : State) (p : Fin 8) (o : Offer) (pr : Peer), s.power.die = true ∧ s.portLive p = true ∧ s.numbered = true ∧
      s.peerOn o.block.cargo.hdr.dst o.block.cargo.hdr.dstHost (p.val / 4) = some pr ∧ bestOffer ((s.fab.tx.filter (fun f =>
      s.flowPort f.id == p.val && s.joinedOn f.id.peer f.id.host (s.livePlane f.id.plane) && s.keyLeft p f.id)).flatMap
      (s.offers p)) = some o ∧ rekeyFrom ≤ tget 0 pr.sent p + 1 ∧ (o.block.cargo.hdr.dst, o.block.cargo.hdr.dstHost) ∉
      s.fab.rekeying) ∧
    (∃ (s : State) (p : Fin 8) (w : LinkPart), s.portLive p = false) ∧
    (∃ (s : State) (p : Fin 8) (w : LinkPart), s.portLive p = true) ∧
    (∃ (s : State) (p : Fin 8) (c : Nat), s.power.die = true ∧ s.downSince p = some c ∧ c ≤ s.clock.now ∧ s.portDownHold (p
      / 4) ≤ ticksSince s c ∧ s.planeOut (p / 4) = false) ∧
    (∃ (s : State) (r : Rx) (c : Instr), c ∈ [Instr.write r, .read r, .readData r, .ack r, .nak r, .writeDone r, .creditReq
      r, .creditGrant r, .control r, .gather r, .reduce r, .notice r] ∧ s.portLive r.port.val = false) :=
  ⟨⟨rxs, fid, by and_intros <;> decide +kernel⟩,
    ⟨rxs, fid, cup.clock.now - 700, by and_intros <;> decide +kernel⟩,
    ⟨t0, fid, 4, tb 4 true 1, by and_intros <;> decide +kernel⟩,
    ⟨tcr 5, 2, (off (tcr 5) 2).getD ⟨0, fid, tb 6 false 1, false⟩, pe, by and_intros <;> decide +kernel⟩,
    ⟨old, 2, (off old 2).getD ⟨0, fid, tb 6 false 1, false⟩, { pe with sent := [(2, 2 ^ 61 - 1)] },
      by and_intros <;> decide +kernel⟩,
    ⟨State.reset, 7, .fec, by decide +kernel⟩,
    ⟨cup, 7, .macsec, by decide +kernel⟩,
    ⟨pdn, 5, 5, by and_intros <;> decide +kernel⟩,
    ⟨State.reset, wr 5 [], .write (wr 5 []), by and_intros <;> decide +kernel⟩⟩

end Fabric

/-! ### Doorbells, the log, the fuses, steps. -/

namespace Hosts

def pses : Session := { (default : Session) with parlour := true, src := 4, queue := 16 }
def ctl (s : State) : State := { s with safety := { s.safety with joined := [4] }, fab := { s.fab with peers := [] }, clock := { s.clock with everLocked := true }, power := { s.power with aux := true, parlour := true } }
def qp : QueuePair := { (default : QueuePair) with enable := true, sqExp := 6, cqExp := 6, sqTail := 62, sqHead := 60, cqTail := 3, cqHead := 63 }
def cq : State := let s := ctl live; { s with ctl := { s.ctl with queues := [(16, qp), (17, default)] } }
def lr (n : Nat) : LogRecord := { (default : LogRecord) with seq := n }
def lg : State := { cq with ctl := { cq.ctl with log := [lr 3, lr 4, lr 6, lr 9], nextSeq := 10 } }
def imgs (v w : Nat) (s : State) : State := { s with boot := { s.boot with svnFused := v, images := s.boot.images.map (fun x => (x.1, { x.2 with slots := x.2.slots.map (Option.map (fun m => { m with svn := w })) })) } }
def sg : State := imgs 1 3 live

theorem test_hypotheses_DoorbellCommands :
    (∃ (s : State) (f : Session) (q ix n : Nat), s.Serves f false ∧ q ≤ 4095 ∧ ix ≤ 0xFFFF ∧ n = 2 ^ (s.pair q).sqExp ∧
      ((s.pair q).enable = true → (s.pair q).sqTail < n ∧ (s.pair q).sqHead < n)) ∧
    (∃ (s : State) (f : Session) (q ix n : Nat), s.Serves f false ∧ q ≤ 4095 ∧ ix ≤ 0xFFFF ∧ n = 2 ^ (s.pair q).cqExp ∧
      ((s.pair q).enable = true → (s.pair q).cqTail < n ∧ (s.pair q).cqHead < n)) :=
  ⟨⟨cq, pses, 16, 59, 64, by and_intros <;> decide +kernel⟩,
    ⟨cq, pses, 16, 3, 64, by and_intros <;> decide +kernel⟩⟩

theorem test_hypotheses_EventFetchCommand :
    ∃ (s : State) (f : Session) (n first ack : Nat) (held rs : List LogRecord), s.Serves f false ∧ 1 ≤ n ∧ n ≤ 127 ∧
      s.ctl.log.Pairwise (fun a b => a.seq < b.seq) ∧ held = s.ctl.log.filter (fun r => decide (ack ≤ r.seq)) ∧ rs =
      (held.filter (fun r => decide (first ≤ r.seq))).take n :=
  ⟨lg, pses, 127, 5, 4, [lr 4, lr 6, lr 9], [lr 6, lr 9], by and_intros <;> decide +kernel⟩

theorem test_hypotheses_RunNeedsReceiverAndParlour :
    (∃ s : State, s.run.run = false ∧ s.run.ending = false ∧ (¬ (s.receiverReady = true ∧ s.safety.parlourAlive = true))) ∧
    (∃ s : State, (s.run.run = true ∨ s.run.ending = true)) :=
  ⟨⟨State.reset, by and_intros <;> decide +kernel⟩,
    ⟨{ live with run := { live.run with run := true } }, by decide +kernel⟩⟩

theorem test_hypotheses_SecurityVersionFuses :
    (∃ (s : State) (w : Word), s.boot.svnFused < w.toNat % 256 ∧ (∀ x ∈ s.boot.images, ∀ i ∈ x.2.slots, ∀ m, i = some m →
      w.toNat % 256 ≤ m.svn)) ∧
    (∃ (s : State) (w : Word), (w.toNat % 256 ≤ s.boot.svnFused ∨ ∃ x ∈ s.boot.images, ∃ m, some m ∈ x.2.slots ∧ m.svn <
      w.toNat % 256)) ∧
    (∃ s t : State, step s = .next t) :=
  ⟨⟨sg, 2, by and_intros <;> decide +kernel⟩,
    ⟨sg, 1, Or.inl (by decide +kernel)⟩,
    ⟨State.reset, _, rfl⟩⟩

theorem test_hypotheses_IdleStep :
    (∃ s : State, s.pending = [] ∧ s.power.aux = false) ∧
    (∃ s : State, s.pending = [] ∧ s.power.aux = true ∧ s.power.die = false) ∧
    (∃ s : State, s.pending = [] ∧ s.power.aux = true ∧ s.power.die = true ∧ s.power.refclkDie = true) :=
  ⟨⟨State.reset, by and_intros <;> decide +kernel⟩,
    ⟨{ State.reset with power := { State.reset.power with aux := true } }, by and_intros <;> decide +kernel⟩,
    ⟨{ live with power := { live.power with refclkDie := true } }, by and_intros <;> decide +kernel⟩⟩

theorem test_hypotheses_GroupDecoding :
    (∃ (b v w m : Nat) (codes : List Nat), v ≤ 16 ∧ w < 2 ^ 16 ∧ m = w &&& (1 <<< v - 1) ∧ codes = (decodeGroup false b v
      w).1) ∧
    (∃ (b v w : Nat) (codes : List Nat), w < 2 ^ 16 ∧ codes = (decodeGroup true b v w).1) ∧
    (∃ w i : Nat, w < 2 ^ 16) :=
  ⟨⟨4, 13, 0xF493, _, _, by decide, by decide, rfl, rfl⟩,
    ⟨4, 16, 0x8001, _, by decide, rfl⟩,
    ⟨0x8001, 15, by decide⟩⟩

theorem test_hypotheses_FrameOfClockPowerAndBoot :
    ∃ (c : Instr) (s t : State), exec c s = .next t :=
  ⟨.stallCauseStart 63 .emptyEntry, runs 0, _, rfl⟩

theorem test_hypotheses_FrameOfRunEnginesAndFabric :
    ∃ (c : Instr) (s t : State), exec c s = .next t :=
  ⟨.stallCauseStart 63 .emptyEntry, runs 0, _, rfl⟩

theorem test_hypotheses_FrameOfMemory :
    ∃ (c : Instr) (s t : State), exec c s = .next t ∧ leavesMemory c = true :=
  ⟨.stallCauseStart 63 .emptyEntry, runs 0, _, rfl, rfl⟩

theorem test_hypotheses_FrameOfRegisters :
    ∃ (c : Instr) (s t : State) (l : List Nat) (a : Nat), exec c s = .next t ∧ mayWrite c = some l ∧ a ∉ l :=
  ⟨.stallCauseStart 63 .emptyEntry, runs 0, _, _, 7, rfl, rfl, by decide +kernel⟩

theorem test_hypotheses_EveryStepKeepsMemoryCanonical :
    ∃ s t : State, s.MemoryCanonical ∧ step s = .next t :=
  ⟨State.reset, _, rfl, rfl⟩

theorem test_hypotheses_EveryStepKeepsLogAndRingsInOrder :
    ∃ s t : State, s.LogInOrder ∧ s.RingsInOrder ∧ step s = .next t :=
  ⟨State.reset, _, ⟨List.Pairwise.nil, (nofun), Nat.zero_le _⟩, (fun _ h => nomatch h), rfl⟩

end Hosts

/-! ### Well-formedness: one ill-formed term for each check -/

def goodSession : Session := { (default : Session) with parlour := true, src := 4, queue := 16 }
def goodHdr : Hdr := { (default : Hdr) with gen := 3, type := 1, cls := 1, queue := 17, src := 9, dst := 5 }
/-- A frame of these header fields and these bytes behind it. -/
def frameOf (h : Hdr) (body : List Byte) : Rx := { (default : Rx) with head := h.bytes, body := body, packet := 1 }
def goodRx : Rx := frameOf goodHdr []
def goodOffer : JoinOffer := { (default : JoinOffer) with peer := 9, plane := 1, gen := 3, macsec := true, keyProven := true, stavgarLeaf := true, chain := [5] }

theorem test_wf_accepts :
    [Instr.nop goodSession, .read goodRx, .join goodOffer, .ackTimer ⟨9, false, 1, 1, 17⟩, .clearCounters ⟨Machine.clsCore, 63⟩,
      .readClearField 0x0B001000, .twinDigests goodSession 0 [⟨5, 11, 4095, 0, false, 0⟩], .sqNop 16 65535].all Instr.wf = true := by
  decide +kernel

/-- QUEUE has 12 bits. -/
theorem test_wf_session : Instr.wf (.nop { goodSession with queue := 4096 }) = false := by decide
/-- A header has 32 bytes. -/
theorem test_wf_header : Instr.wf (.read { goodRx with head := goodHdr.bytes.dropLast }) = false := by decide +kernel
/-- As many blocks as NBLK says, each of as many bytes as LEN says. -/
theorem test_wf_frame : Instr.wf (.read (frameOf { goodHdr with nblk := 1, len := 2 } [1])) = false := by decide +kernel
/-- A block is not empty. -/
theorem test_wf_block : Instr.wf (.write (frameOf { goodHdr with nblk := 1 } [0, 0, 0, 0])) = false := by decide +kernel
/-- A packet number has 64 bits. -/
theorem test_wf_packet : Instr.wf (.read { goodRx with packet := 2 ^ 64 }) = false := by decide +kernel
/-- There are two planes. -/
theorem test_wf_flow : Instr.wf (.ackTimer ⟨9, false, 2, 1, 17⟩) = false := by decide
/-- CORE has 64 instances. -/
theorem test_wf_block_class : Instr.wf (.clearCounters ⟨Machine.clsCore, 64⟩) = false := by decide
/-- There are 12 stacks. -/
theorem test_wf_record : Instr.wf (.twinDigests goodSession 0 [⟨5, 12, 0, 0, false, 0⟩]) = false := by decide
/-- A chain has a leaf. -/
theorem test_wf_offer : Instr.wf (.join { goodOffer with chain := [] }) = false := by decide
/-- A register lies at a multiple of 4. -/
theorem test_wf_register : Instr.wf (.readClearField 0x0B001002) = false := by decide
/-- COUNT has 16 bits. -/
theorem test_wf_count : Instr.wf (.sqNop 16 65536) = false := by decide
/-- A command window has 64 bytes. -/
theorem test_wf_window : Instr.wf (.sepCommandArrive 0 .other 1 (List.replicate 64 0)) = false := by decide
/-- KIND of a staging has 3 bits. -/
theorem test_wf_kind : Instr.wf (.stageStart 8) = false := by decide

/-! ### Rows of the table without bits -/

/-- No row of the table gives bits. -/
theorem test_decode_none : decodeTableWord 32 0 = none ∧ Machine.State.reset.withFetchWord 32 0 = Machine.State.reset :=
  ⟨by decide, rfl⟩

/-! ### Worked examples of the manual -/

/-- Chapter 05, decoding one group: bitmap 0x0491 at B = 4, in both modes. -/
theorem test_decode_group :
    Machine.decodeGroup false 4 16 0x0491 = ([0, 4, 7, 10], 0, 0) ∧ Machine.decodeGroup true 4 16 0x0491 = ([0, 4, 7, 10], 0, 0) := by
  decide +kernel

/-- Chapter 05, the same group over budget: bitmap 0x0493 drops position 10, reported in CHECKED mode alone. -/
theorem test_decode_group_over :
    Machine.decodeGroup false 4 16 0x0493 = ([0, 1, 4, 7], 0, 1) ∧ Machine.decodeGroup true 4 16 0x0493 = ([0, 1, 4, 7], 0, 0) := by
  decide +kernel

/-- Chapter 06, one regrowth: masters 0.0213, -0.0041, 0.0006, -0.0009 with ages 255, 255, 37, 255; position 10 goes and
13 comes, so the bitmap is 0x2091. -/
theorem test_regrow_group :
    (let o := (⟨[0, 4, 7, 10], 0, [(1, [0x3CAE7D56, 0xBB865949, 0x3A1D4952, 0xBA6BEDFA]), (4, [255, 255, 37, 255])],
        Machine.candEntries ([0x800D3D80, 0x80023D20, 0x80093D20].flatMap (leBytes 4)), 16⟩ : Machine.GroupIn).regrow 1 64
     (o.new, o.added, Machine.bitmapOf o.new)) = ([0, 4, 7, 13], [13], 0x2091) := by decide +kernel

/-- Chapter 03, draining an MXFP8-E4M3 block: scale byte 0x7A; 448, -0.3125, two subnormal steps, zero. -/
theorem test_drain_mx : (let b := Machine.encodeMx 1 [(.fin 219 (-4), none), (.fin (-21) (-11), none), (.fin 7 (-16), none), (.fin 0 0, none)]
    (b.scale, b.codes, b.clamps)) = (0x7A, [0x7E, 0xAA, 0x02, 0x00], 0) := by decide +kernel

/-- The same block with stochastic rounding, each draw just below its threshold. -/
theorem test_drain_mx_stochastic : (Machine.encodeMx 1 [(.fin 219 (-4), some 0x4FFFFF), (.fin (-21) (-11), some 0x7FFFFF),
    (.fin 7 (-16), some 0x3FFFFF)]).codes = [0x7D, 0xAA, 0x01] := by decide +kernel

/-- Chapter 04, one product at the foot of a window with A = 1: 1.125 × 2^-95 keeps 2^-95 and counts a low escape. -/
theorem test_low_escape : (let c := Machine.chunkOf (some 1) [.fin 9 (-98)]
    (c.kept, c.lows, c.highs)) = (2 ^ 193, 1, 0) := by decide +kernel

/-- Chapter 12, a reduction: 1.0 and 255 contributions of 2^-9 give 1.5, which is 0x3FC0. -/
theorem test_reduce_rounds_once :
    (({ (default : Machine.RedLine) with sums := [(Machine.redValue 0x3F80).1 + 255 * (Machine.redValue 0x3B00).1], tags := [0] } :
      Machine.RedLine).bytes 0).1 = [0xC0, 0x3F] := by decide +kernel

/-- Chapter 13, word 0 of the reply to a REG_READ: OPCODE 0x01, ATTN 0x21, STATUS OK and REPLY 1; COUNT 2 in word 2. -/
theorem test_reply_header : Machine.replyBytes { goodSession with reqId := 0xA51 } 1 0x21 0 0 2 0 [] =
    [1, 0, 0x21, 1, 0x51, 0x0A, 0, 0, 2, 0, 0, 0, 0, 0, 0, 0] := by decide +kernel

/-- Chapter 13, an address: stack offset 0x2_1F40_0040 of S4 is space-0 offset 0x0032_1F40_0040 of module 163. -/
theorem test_stack_address : 0x0A3 * 2 ^ 52 + Machine.planeOff 4 0 0x21F400040 = 0x0A3000321F400040 := by decide +kernel

/-! ### One step each -/

open Sys2Proof.Machine in
/-- What a step answers, as a field of the next state. -/
def afterStep {α : Type} (c : Instr) (s : Machine.State) (f : Machine.State → α) : Option α :=
  match Machine.step { s with pending := c :: s.pending } with
  | .next t => some (f t)
  | _ => none

/-- R437: the auxiliary rail comes up; Parlour runs, the die does not. -/
theorem test_step_aux_rail : afterStep .auxRailUp Machine.State.reset (fun t => (t.power.aux, t.power.die, t.pending)) =
    some (true, false, []) := by decide +kernel

/-- R382: a NOP through Parlour is answered once, with STATUS OK. -/
theorem test_step_nop : afterStep (.nop goodSession) { up with safety := { up.safety with joined := [4] } } (fun t => t.out.length) =
    some 1 := by decide +kernel

/-- R403: CLEAR_COUNTERS of a block leaves the counters of the next. -/
theorem test_step_clear_counters : afterStep (.clearCounters ⟨Machine.clsCore, 3⟩)
    { up with regs := up.regs ++ [(Reg.COUNTER_0 clsCore 3, 5), (Reg.COUNTER_0 clsCore 4, 6)] }
    (fun t => (t.reg (Reg.COUNTER_0 clsCore 3), t.reg (Reg.COUNTER_0 clsCore 4))) = some (0, 6) := by decide +kernel

/-- R282: a Pail leaks one unit of its level; the greatest level stays. -/
theorem test_step_pail_leak : afterStep (.pailLeak ⟨Machine.clsHbm, 4⟩) { Base.leaky with regs := up.regs ++ [(Reg.PAIL_LEVEL clsHbm 4, 0x200001)] }
    (fun t => t.reg (Reg.PAIL_LEVEL clsHbm 4)) = some 0x200000 := by decide +kernel

/-- R476: the fuses do not fall. -/
theorem test_step_svn : afterStep (.svnCommit 1) { up with boot := { up.boot with svnFused := 2 } } (fun t => t.boot.svnFused) =
    some 2 := by decide +kernel

/-- R332: module number 163 is taken once. -/
theorem test_step_module_number : afterStep (.moduleNumberWrite 163) { up with regs := [] } (fun t => t.moduleNum) = some 163 ∧
    afterStep (.moduleNumberWrite 163) up (fun t => t.moduleNum) = some 5 := by decide +kernel

/-- R310, chapter 11: an UPDATE of step 9,600 at a journal of step 9,601 ends at once; REPLAYS_SKIPPED rises by 1. -/
theorem test_step_replay : afterStep (.update 3) (Base.up_ { Base.uc with words := Base.uc.words.set 2 9600 } (Base.jset 3 9601 (Base.su 1)))
    (fun t => ((t.upd 3).cur.isSome, t.reg (Reg.UPD_REPLAYS_SKIPPED 3))) = some (false, 1) := by decide +kernel

/-- R345: a WRITE of three bytes stores those three. -/
theorem test_step_write : afterStep (.write (Fabric.wr (Fabric.own1 + 0x1002) [7, 8, 9])) Fabric.cup
    (fun t => bytesAt t.mem.cells (lpKey 0x1001) 5) = some [0, 7, 8, 9, 0] := by decide +kernel

/-- R398: a tail beyond the ring is refused and moves nothing. -/
theorem test_step_doorbell : afterStep (.doorbellSubmissionTail Hosts.pses 16 64) Hosts.cq (fun t => (t.pair 16).sqTail) = some 62 ∧
    afterStep (.doorbellSubmissionTail Hosts.pses 16 59) Hosts.cq (fun t => (t.pair 16).sqTail) = some 59 := by decide +kernel

end Sys2Proof.Tests
end

section

/-!
Decoding a group of 16 positions (chapter 05, R122 and R123): the set bits of a bitmap word as a rising list, what a
prefix of a rising list keeps, and the two modes of the decoder.
-/

namespace Sys2Proof.Machine

/-- A bitmap word has 16 bits, so that the list of its set bits misses none. -/
theorem mem_setBits_iff {w : Nat} (hw : w < 2 ^ 16) (i : Nat) : i ∈ setBits w ↔ bitOf w i = true := by
  have position_lt (hbit : bitOf w i = true) : i < 16 :=
    (Nat.pow_lt_pow_iff_right (by decide)).mp ((Nat.ge_two_pow_of_testBit hbit).trans_lt hw)
  simpa [setBits] using position_lt

theorem setBits_pairwise_lt (w : Nat) : (setBits w).Pairwise (fun i j => i < j) :=
  List.pairwise_lt_range.filter _

/-- The edge mask of R122 is the remainder that the decoder takes. -/
theorem edge_mask_eq_mod (w v : Nat) : w &&& (1 <<< v - 1) = w % 2 ^ v := by
  rw [Nat.one_shiftLeft, Nat.and_two_pow_sub_one_eq_mod]

/-- A prefix of a rising list holds its lowest elements. -/
theorem lt_of_mem_take_of_not_mem_take {l : List Nat} (hl : l.Pairwise (fun i j => i < j)) {n i j : Nat}
    (hi : i ∈ l) (hout : i ∉ l.take n) (hj : j ∈ l.take n) : j < i := by
  rw [← List.take_append_drop n l] at hl hi
  obtain ⟨-, -, hbelow⟩ := List.pairwise_append.mp hl
  exact hbelow j hj i ((List.mem_append.mp hi).resolve_left hout)

/-- R122 and R123 keep the same part of a word: the first `n` of its set bits are in rising order, are set, and lie
below every set bit left out. -/
theorem take_setBits_lowest {w : Nat} (hw : w < 2 ^ 16) (n : Nat) :
    ((setBits w).take n).Pairwise (fun i j => i < j) ∧ (∀ i ∈ (setBits w).take n, bitOf w i = true) ∧
    (∀ i j, bitOf w i = true → i ∉ (setBits w).take n → j ∈ (setBits w).take n → j < i) := by
  refine ⟨(setBits_pairwise_lt w).take, fun i hi => ?_, fun i j hbit hout hj => ?_⟩
  · exact (mem_setBits_iff hw i).mp (List.mem_of_mem_take hi)
  · exact lt_of_mem_take_of_not_mem_take (setBits_pairwise_lt w) ((mem_setBits_iff hw i).mpr hbit) hout hj

/-- R122: the lowest bits of the word below the edge, and the two counts of bits removed. -/
theorem decodeGroup_checked {v w m : Nat} (hm : m = w &&& (1 <<< v - 1)) (b : Nat) :
    decodeGroup false b v w = ((setBits m).take b, (setBits w).length - (setBits m).length,
      (setBits m).length - ((setBits m).take b).length) := by
  rw [hm, edge_mask_eq_mod]
  rfl

/-- R123: the lowest set bits, then code 15 up to the budget. -/
theorem decodeGroup_unchecked (b v w : Nat) :
    decodeGroup true b v w = ((setBits w).take b ++ List.replicate (b - (setBits w).length) 15, 0, 0) := by
  have fill : b - ((setBits w).take b).length = b - (setBits w).length := by
    rw [List.length_take]; omega
  rw [← fill]
  rfl

/-- The slots of UNCHECKED decoding that hold a position are those of the word's lowest set bits. -/
theorem take_decodeGroup_unchecked (b v w : Nat) :
    (decodeGroup true b v w).1.take (setBits w).length = (setBits w).take b := by
  rw [decodeGroup_unchecked]
  obtain hover | hunder := Nat.le_total b (setBits w).length
  · simp [Nat.sub_eq_zero_of_le hover, List.take_take, hover]
  · simp [List.take_of_length_le hunder]

theorem length_decodeGroup_unchecked (b v w : Nat) : (decodeGroup true b v w).1.length = b := by
  simp only [decodeGroup_unchecked, List.length_append, List.length_take, List.length_replicate]
  omega

/-- A slot left over by UNCHECKED decoding is live with code 15. -/
theorem getElem?_decodeGroup_unchecked_leftover {b w j : Nat} (v : Nat) (hj : (setBits w).length ≤ j) (hjb : j < b) :
    (decodeGroup true b v w).1[j]? = some 15 := by
  have hall : (setBits w).take b = setBits w := List.take_of_length_le (by omega)
  rw [decodeGroup_unchecked, hall, List.getElem?_append_right hj, List.getElem?_replicate, if_pos (by omega)]

/-- Settles O51: both modes keep a prefix of a rising list of set bits. -/
theorem groupDecoding : Obligations.GroupDecoding := by
  unfold Obligations.GroupDecoding
  refine ⟨?checked, ?unchecked, fun w i hw => (mem_setBits_iff hw i).symm⟩
  case checked =>
    rintro b v w m _ - hw hm rfl
    have hm_lt : m < 2 ^ 16 := (hm.trans_le Nat.and_le_left).trans_lt hw
    obtain ⟨hrise, hset, hlowest⟩ := take_setBits_lowest hm_lt b
    rw [decodeGroup_checked hm]
    exact ⟨List.length_take, hrise, hset, hlowest, rfl, rfl⟩
  case unchecked =>
    rintro b v w _ hw rfl
    obtain ⟨hrise, hset, hlowest⟩ := take_setBits_lowest hw b
    rw [take_decodeGroup_unchecked]
    exact ⟨length_decodeGroup_unchecked b v w, hrise, hset, hlowest,
      fun _ => getElem?_decodeGroup_unchecked_leftover v, by rw [decodeGroup_unchecked]⟩

end Sys2Proof.Machine

end

section

/-!
EVENT_FETCH (R393). What a message that is served does to host control and what it answers (R382, R385),
what a log in sequence order keeps when records are freed and fetched, and the command.
-/

namespace Sys2Proof.Machine

/-! ### What a reply leaves of host control -/

theorem State.bumpQmgr_ctl (s : State) (a : Nat) : (s.bumpQmgr a).ctl = s.ctl :=
  kept_ctl (State.bumpQmgr_hide 1 (by decide) s a) rfl

/-- A management message draws its first sequence number, and its frames leave host control alone. -/
theorem State.sendMgmt_ctl (s : State) (dst : Nat) (host : Bool) (queue : Nat) (msg : List Byte) :
    (s.sendMgmt dst host queue msg).ctl = { s.ctl with free := s.ctl.free + 1 } := by
  have frames : (s.sendMgmt dst host queue msg).hide 4096 = s.draw.2.hide 4096 := foldl_hide _ _ _ _ fun _ _ => rfl
  rw [kept_ctl frames rfl, State.draw_ctl]

/-- A reply through Parlour draws once; one in the control flow leaves host control alone. -/
theorem State.sendReply_ctl (s : State) (f : Session) (opcode retry : Nat) (a : Answer) :
    (s.sendReply f opcode retry a).ctl =
      if f.parlour = true then { s.ctl with free := s.ctl.free + 1 } else s.ctl := by
  unfold State.sendReply
  split
  · exact State.sendMgmt_ctl ..
  · exact kept_ctl (State.sendRun_hide 64 (by decide) ..) rfl

theorem State.sendReply_log (s : State) (f : Session) (opcode retry : Nat) (a : Answer) :
    (s.sendReply f opcode retry a).ctl.log = s.ctl.log := by
  rw [State.sendReply_ctl]
  split <;> rfl

/-! ### A message of a session that is served -/

/-- A message that is served is carried out, counted if something was done, and answered. -/
theorem State.serve_of_serves {s : State} {f : Session} {early : Bool} (hs : s.Serves f early) (opcode : Nat)
    (act : State → Answer) :
    s.serve f opcode early act =
      (if doneStatus (act s).status then (act s).s.bumpQmgr Reg.QMGR_CONTROL_MSGS else (act s).s).sendReply f opcode
        (if (act s).status = stBusy then 2048 else 0) (act s) := by
  obtain ⟨hsession, hlow, hhigh, hopen⟩ := hs
  have hqueue : ¬ (f.queue < 16 ∨ 4095 < f.queue) := by omega
  have hwait : ¬ (!f.parlour && !s.ethernetOpen && !early) = true := by
    obtain h | h | h := hopen <;> simp [h]
  unfold State.serve
  rw [if_neg (by simp [hsession]), if_neg hqueue, if_neg hwait]

/-- The reply to a message that is served carries its answer, without RETRY unless that is BUSY. -/
theorem State.replied_of_serves {s : State} {f : Session} {early : Bool} (hs : s.Serves f early) (opcode : Nat)
    (act : State → Answer) (hbusy : (act s).status ≠ stBusy) :
    (s.serve f opcode early act).Replied f opcode (act s).status (act s).count (act s).detail (act s).data := by
  rw [State.serve_of_serves hs, if_neg hbusy]
  exact ⟨_, rfl⟩

/-- The log after a message that is served is the one its action leaves. -/
theorem State.serve_log_of_serves {s : State} {f : Session} {early : Bool} (hs : s.Serves f early) (opcode : Nat)
    (act : State → Answer) : (s.serve f opcode early act).ctl.log = (act s).s.ctl.log := by
  rw [State.serve_of_serves hs, State.sendReply_log]
  split
  · rw [State.bumpQmgr_ctl]
  · rfl

/-! ### A log in sequence order -/

/-- The first members of a list stand before every member left out. -/
theorem rel_of_mem_take_of_not_mem_take {α : Type} {R : α → α → Prop} {l : List α} (hl : l.Pairwise R) {n : Nat} {x y : α}
    (hx : x ∈ l.take n) (hy : y ∈ l) (hout : y ∉ l.take n) : R x y := by
  rw [← List.take_append_drop n l] at hl hy
  obtain ⟨-, -, hbefore⟩ := List.pairwise_append.mp hl
  exact hbefore x hx y ((List.mem_append.mp hy).resolve_left hout)

/-- First members that do not fill their room are all of them. -/
theorem mem_take_of_length_take_lt {α : Type} {l : List α} {n : Nat} (hroom : (l.take n).length < n) {x : α} (hx : x ∈ l) :
    x ∈ l.take n := by
  rw [List.length_take] at hroom
  rwa [List.take_of_length_le (by omega)]

/-- Nothing lies below an ACK_SEQ at or below the oldest record. -/
theorem filter_log_eq_self_of_le_oldest {l : List LogRecord} (hl : l.Pairwise (fun a b => a.seq < b.seq)) {ack : Nat}
    {o : LogRecord} (ho : l.head? = some o) (hack : ack ≤ o.seq) : l.filter (fun r => decide (ack ≤ r.seq)) = l := by
  obtain ⟨rest, rfl⟩ := List.head?_eq_some_iff.mp ho
  obtain ⟨holdest, -⟩ := List.pairwise_cons.mp hl
  refine List.filter_eq_self.mpr fun r hr => decide_eq_true ?_
  obtain rfl | hrest := List.mem_cons.mp hr
  · exact hack
  · exact hack.trans (holdest r hrest).le

/-! ### The command -/

/-- R393 for a COUNT in range: the log keeps what it holds from ACK_SEQ on, and the answer is taken from that. -/
theorem State.eventFetchAct_of_count_ok (s : State) {n first ack : Nat} {held rs : List LogRecord} (hpos : 1 ≤ n)
    (hmax : n ≤ 127) (hheld : held = s.ctl.log.filter (fun r => decide (ack ≤ r.seq)))
    (hrs : rs = (held.filter (fun r => decide (first ≤ r.seq))).take n) :
    s.eventFetchAct n first ack = ⟨{ s with ctl := { s.ctl with log := held } },
      if held.head?.any (fun o => decide (first < o.seq)) then stLogGap else stOk, rs.length, s.ctl.nextSeq % 2 ^ 32,
      rs.flatMap LogRecord.bytes⟩ := by
  subst hrs hheld
  unfold State.eventFetchAct
  rw [if_neg (by omega)]

/-- Settles O48: the two lists of records are the log from ACK_SEQ on and the first of those from FROM_SEQ on,
both in the log's order; the reply is that of a message served. -/
theorem eventFetchCommand : Obligations.EventFetchCommand := by
  unfold Obligations.EventFetchCommand
  intro s f n first ack held rs hs hpos hmax hlog hheld hrs
  have hact := s.eventFetchAct_of_count_ok hpos hmax hheld hrs
  have hfrom : (held.filter (fun r => decide (first ≤ r.seq))).Pairwise (fun a b => a.seq < b.seq) :=
    (hheld ▸ hlog.filter _).filter _
  have hframe := execEventFetch_hide f n first ack s _ rfl
  refine ⟨s.serve f 0x07 false (fun t => t.eventFetchAct n first ack), rfl, ?freed, ?order, ?returned, ?atMost, ?all,
    ?noneBefore, ?oldAck, ?reply, kept_mem hframe rfl rfl, kept_run hframe rfl⟩
  case freed => rw [State.serve_log_of_serves hs, hact]
  case order => exact hrs ▸ hfrom.take
  case returned =>
    intro x hx
    rw [hrs] at hx
    have hmem := List.mem_of_mem_take hx
    simp only [hheld, List.mem_filter, decide_eq_true_eq] at hmem
    obtain ⟨⟨hin, hack⟩, hfirst⟩ := hmem
    exact ⟨hin, hack, hfirst⟩
  case atMost => exact hrs ▸ List.length_take_le _ _
  case all =>
    intro hroom x hx hfirst
    rw [hrs] at hroom ⊢
    exact mem_take_of_length_take_lt hroom (List.mem_filter.mpr ⟨hx, decide_eq_true hfirst⟩)
  case noneBefore =>
    intro x hx y hy hfirst hlt
    rw [hrs] at hx ⊢
    by_contra hout
    exact hlt.asymm
      (rel_of_mem_take_of_not_mem_take hfrom hx (List.mem_filter.mpr ⟨hy, decide_eq_true hfirst⟩) hout)
  case oldAck =>
    intro o ho hack
    exact hheld.trans (filter_log_eq_self_of_le_oldest hlog ho hack)
  case reply =>
    have hbusy : (s.eventFetchAct n first ack).status ≠ stBusy := by
      rw [hact]
      dsimp only
      split <;> decide
    simpa only [hact] using State.replied_of_serves hs 0x07 (fun t => t.eventFetchAct n first ack) hbusy

end Sys2Proof.Machine

end

section

/-!
RUN_CONTROL's refusal (R57, R432). What an event leaves in EVENT_RAW and EVENT_LATCH of its block (R390), when a write
of 1 to RUN is refused or changes nothing, and the command.
-/

namespace Sys2Proof.Machine

/-! ### What an event leaves in its block's registers (R390) -/

theorem bitOf_or_two_pow (x b : Nat) : bitOf (x ||| 2 ^ b) b = true := by
  simp [bitOf, Nat.testBit_or, Nat.testBit_two_pow_self]

/-- A register of 32 bits takes one more bit whole. -/
theorem reg_or_two_pow_mod (s : State) (a : Nat) {b : Nat} (hb : b < 32) :
    (s.reg a ||| 2 ^ b) % 2 ^ 32 = s.reg a ||| 2 ^ b :=
  Nat.mod_eq_of_lt (Nat.or_lt_two_pow (reg_lt s a) (Nat.pow_lt_pow_right (by decide) hb))

/-- A record that finds no room is counted in LOG_LOST; the log writes no other register (R391). -/
theorem State.logAppend_reg (s : State) (r : LogRecord) {x : Nat} (hx : x ≠ Reg.QMGR_LOG_LOST) :
    (s.logAppend r).reg x = s.reg x := by
  unfold State.logAppend
  dsimp only
  split
  case isTrue => rfl
  case isFalse =>
    split
    · exact (reg_bump ..).trans (if_neg hx)
    · exact (reg_bump ..).trans (if_neg hx)

/-- EVENT_RAW gains the bit of the cause, whether or not the event is enabled. -/
theorem State.event_raw (s : State) (cls inst a : Nat) {bit : Nat} (hb : bit < 32)
    (hlost : Reg.EVENT_RAW cls inst ≠ Reg.QMGR_LOG_LOST) :
    (s.event cls inst bit a).reg (Reg.EVENT_RAW cls inst) = s.reg (Reg.EVENT_RAW cls inst) ||| 2 ^ bit := by
  have hcounter : Reg.EVENT_RAW cls inst ≠ Reg.COUNTER_0 cls inst := by
    unfold Reg.EVENT_RAW Reg.COUNTER_0 regAddr; omega
  have hlatch : Reg.EVENT_RAW cls inst ≠ Reg.EVENT_LATCH cls inst := by
    unfold Reg.EVENT_RAW Reg.EVENT_LATCH regAddr; omega
  unfold State.event
  dsimp only
  (repeat' split) <;>
    simp only [State.logAppend_reg _ _ hlost, reg_setReg, reg_bump, if_neg hcounter, if_neg hlatch, if_true,
      reg_or_two_pow_mod s _ hb]

/-- An enabled event stands in EVENT_LATCH from then on. -/
theorem State.event_latched (s : State) (cls inst a : Nat) {bit : Nat} (hb : bit < 32)
    (hlost : Reg.EVENT_LATCH cls inst ≠ Reg.QMGR_LOG_LOST)
    (hen : bitOf (s.reg (Reg.EVENT_ENABLE cls inst)) bit = true) :
    bitOf ((s.event cls inst bit a).reg (Reg.EVENT_LATCH cls inst)) bit = true := by
  have henable : Reg.EVENT_ENABLE cls inst ≠ Reg.EVENT_RAW cls inst := by
    unfold Reg.EVENT_ENABLE Reg.EVENT_RAW regAddr; omega
  have hraw : Reg.EVENT_LATCH cls inst ≠ Reg.EVENT_RAW cls inst := by
    unfold Reg.EVENT_LATCH Reg.EVENT_RAW regAddr; omega
  have hcounter : Reg.EVENT_LATCH cls inst ≠ Reg.COUNTER_0 cls inst := by
    unfold Reg.EVENT_LATCH Reg.COUNTER_0 regAddr; omega
  unfold State.event
  simp only [reg_setReg_ne _ _ _ _ henable, reg_setReg_ne _ _ _ _ hraw, hen, if_true]
  split
  case isTrue hold =>
    rwa [reg_bump, if_neg hcounter, reg_setReg_ne _ _ _ _ hraw]
  case isFalse =>
    have hset : ∀ t : State, bitOf ((t.setReg (Reg.EVENT_LATCH cls inst)
        (s.reg (Reg.EVENT_LATCH cls inst) ||| 2 ^ bit)).reg (Reg.EVENT_LATCH cls inst)) bit = true := by
      intro t
      rw [reg_setReg_self, reg_or_two_pow_mod s _ hb, bitOf_or_two_pow]
    split
    · exact hset _
    · rw [State.logAppend_reg _ _ hlost, hset]

theorem State.event_run (s : State) (cls inst bit a : Nat) : (s.event cls inst bit a).run = s.run :=
  kept_run (State.event_hide 129 rfl ..) rfl

theorem State.event_mem (s : State) (cls inst bit a : Nat) : (s.event cls inst bit a).mem = s.mem :=
  kept_mem (State.event_hide 129 rfl ..) rfl rfl

theorem State.event_clock (s : State) (cls inst bit a : Nat) : (s.event cls inst bit a).clock = s.clock :=
  kept_clock (State.event_hide 129 rfl ..) rfl

/-! ### A write of 1 to RUN that starts no plan -/

/-- R432: among the conditions of a start are a ready receiver and Parlour. -/
theorem State.receiver_and_parlour_of_mayStart {s : State} (h : s.mayStart = true) :
    s.receiverReady = true ∧ s.safety.parlourAlive = true := by
  simp only [State.mayStart, Bool.and_eq_true] at h
  obtain ⟨⟨⟨-, hreceiver⟩, hparlour⟩, -⟩ := h
  exact ⟨hreceiver, hparlour⟩

/-- Log entry 37: while a plan runs or ends, the write changes nothing. -/
theorem exec_runStart_of_busy {s : State} (h : s.run.run = true ∨ s.run.ending = true) :
    exec .runStart s = .next s := by
  have hstart : s.runStart = (s, true) := if_pos ((Bool.or_eq_true ..).mpr h)
  exact congrArg (fun r => done r.1) hstart

/-- R57: a refused write latches REFUSED at RUN_CONTROL and does nothing else, whether a plan is missing or a condition. -/
theorem exec_runStart_of_refused {s : State} (hrun : s.run.run = false) (hending : s.run.ending = false)
    (h : s.mayStart = false) :
    exec .runStart s = .next (s.event clsPhase 0 evRefused Reg.PHASE_RUN_CONTROL) := by
  have hstart : s.runStart = (s.event clsPhase 0 evRefused Reg.PHASE_RUN_CONTROL, false) := by
    unfold State.runStart
    rw [hrun, hending, h]
    cases s.run.plan with
    | none => rfl
    | some p => rfl
  exact congrArg (fun r => done r.1) hstart

/-- Settles O49: a missing receiver or Parlour makes `mayStart` fail, and what is left of the write is its event. -/
theorem runNeedsReceiverAndParlour : Obligations.RunNeedsReceiverAndParlour := by
  unfold Obligations.RunNeedsReceiverAndParlour
  refine ⟨?refused, fun s hbusy => exec_runStart_of_busy hbusy⟩
  case refused =>
    intro s hrun hending hmissing
    have hrefused : s.mayStart = false :=
      Bool.eq_false_iff.mpr fun h => hmissing (State.receiver_and_parlour_of_mayStart h)
    refine ⟨_, exec_runStart_of_refused hrun hending hrefused, State.event_run .., State.event_mem ..,
      State.event_clock .., ?raw, ?latch⟩
    case raw =>
      rw [State.event_raw s clsPhase 0 _ (by decide) (by decide), bitOf_or_two_pow]
    case latch =>
      exact State.event_latched s clsPhase 0 _ (by decide) (by decide)

end Sys2Proof.Machine

end

section

/-!
The fused security version (R476). What SVN_COMMIT does with a value it takes and with one it ignores, and that no step
lowers SVN_FUSED: a lower bound of the fuses outlives each operation that writes the module's identity and firmware
(chapter 16), and with them each way to a register write, by a control message, a frame or a copy engine.
-/

namespace Sys2Proof.Machine

/-- The fused version has reached `n`. An update of any other field keeps this by definition. -/
def State.SvnAtLeast (n : Nat) (s : State) : Prop := n ≤ s.boot.svnFused

section
variable {n : Nat} {s t u : State}

/-! ### How the bound is carried -/

/-- What leaves identity and firmware alone keeps the bound: the mask 64511 names every part of the state but them. -/
theorem State.SvnAtLeast.of_hide (h : s.SvnAtLeast n) (e : t.hide 64511 = s.hide 64511) : t.SvnAtLeast n := by
  unfold State.SvnAtLeast
  rwa [kept_boot e rfl]

theorem State.SvnAtLeast.withBoot (h : s.SvnAtLeast n) {b : BootState} (hb : b.svnFused = s.boot.svnFused) :
    State.SvnAtLeast n { s with boot := b } := by
  unfold State.SvnAtLeast
  rwa [hb]

theorem State.SvnAtLeast.foldl {α : Type} {f : State → α → State}
    (hf : ∀ t x, t.SvnAtLeast n → (f t x).SvnAtLeast n) (h : s.SvnAtLeast n) (l : List α) : (l.foldl f s).SvnAtLeast n :=
  List.foldlRecOn l f h fun t ht x _ => hf t x ht

theorem State.SvnAtLeast.ite {p : Prop} [Decidable p] {a b : State × Bool} (ha : a.1.SvnAtLeast n)
    (hb : b.1.SvnAtLeast n) : (if p then a else b).1.SvnAtLeast n := by
  split
  · exact ha
  · exact hb

theorem State.SvnAtLeast.of_done (ht : done u = .next t) (hu : u.SvnAtLeast n) : t.SvnAtLeast n := by
  obtain rfl := Host.Outcome.next.inj ht
  exact hu

/-- A command whose mask leaves identity and firmware alone. -/
theorem State.SvnAtLeast.of_mask (h : s.SvnAtLeast n) {c : Instr} (ht : exec c s = .next t)
    (hc : commandMask c &&& 64511 = commandMask c) : t.SvnAtLeast n :=
  h.of_hide (hide_mono (exec_hide c ht) hc)

theorem State.SvnAtLeast.refuse (h : s.SvnAtLeast n) (cls addr : Nat) : (s.refuse cls addr).SvnAtLeast n :=
  h.of_hide (State.refuse_hide _ rfl ..)

/-! ### Unreachable peers: a binding loses its confirmation (R338, R467) -/

theorem State.SvnAtLeast.unconfirm (h : s.SvnAtLeast n) (peer : Nat) (host : Bool) :
    (s.unconfirm peer host).SvnAtLeast n := by
  unfold State.unconfirm
  split
  · exact h.withBoot rfl
  · exact h

theorem State.SvnAtLeast.cutOff (h : s.SvnAtLeast n) (peer : Nat) (host : Bool) : (s.cutOff peer host).SvnAtLeast n := by
  unfold State.cutOff
  exact State.SvnAtLeast.unconfirm (h.of_hide (by simp)) peer host

theorem State.SvnAtLeast.unreachable (h : s.SvnAtLeast n) (peer : Nat) (host : Bool) (plane : Nat) :
    (s.unreachable peer host plane).SvnAtLeast n := by
  unfold State.unreachable
  extract_lets s1 s2 s3
  have h3 : s3.SvnAtLeast n := h.of_hide (by simp [s3, s2, s1])
  split
  · split
    · exact h3
    · exact h3.cutOff ..
  · exact h

theorem State.SvnAtLeast.resend (h : s.SvnAtLeast n) (id : FlowId) (seq : Word) (counted : Bool) :
    (s.resend id seq counted).SvnAtLeast n := by
  unfold State.resend
  dsimp only
  split
  · exact h
  split
  · exact h.unreachable ..
  · exact h.of_hide (State.setTx_hide _ rfl ..)

theorem State.SvnAtLeast.nakked (h : s.SvnAtLeast n) (id : FlowId) (seq : Word) (busy : Bool) :
    (s.nakked id seq busy).SvnAtLeast n := by
  unfold State.nakked
  split
  · exact h.of_hide (State.setTx_hide _ rfl ..)
  · exact h.resend ..

theorem State.SvnAtLeast.execRetryTimeout (h : s.SvnAtLeast n) {f : FlowId} {seq : Word}
    (ht : execRetryTimeout f seq s = .next t) : t.SvnAtLeast n := by
  refine .of_done ht ?_
  split
  · exact h
  split
  · exact h
  · exact h.resend ..

/-! ### Settings and the binding (R466 to R468, R480 to R483) -/

theorem State.SvnAtLeast.changeSettings (h : s.SvnAtLeast n) (cls addr : Nat) (f : Settings → Settings) :
    (s.changeSettings cls addr f).1.SvnAtLeast n := by
  unfold State.changeSettings
  split
  · exact h.refuse ..
  · exact h

theorem State.SvnAtLeast.takeCalibration (h : s.SvnAtLeast n) : s.takeCalibration.SvnAtLeast n := by
  unfold State.takeCalibration
  refine .foldl (fun u p hu => ?_) ?_ _
  · exact hu.of_hide (by simp)
  · exact h

theorem State.SvnAtLeast.awaitTwin (h : s.SvnAtLeast n) (twin : Nat) : (s.awaitTwin twin).SvnAtLeast n := by
  unfold State.awaitTwin
  refine .foldl (fun u q hu => ?_) ?_ _
  · exact hu.of_hide (State.sendJoin_hide _ rfl ..)
  · exact h

theorem State.SvnAtLeast.bindCmd (h : s.SvnAtLeast n) : s.bindCmd.1.SvnAtLeast n := by
  unfold State.bindCmd
  dsimp only
  split
  · exact h.refuse ..
  split
  · exact h.refuse ..
  split
  · exact h.changeSettings ..
  · exact (h.changeSettings ..).awaitTwin _

theorem State.SvnAtLeast.unbindCmd (h : s.SvnAtLeast n) : s.unbindCmd.1.SvnAtLeast n := by
  unfold State.unbindCmd
  dsimp only
  split
  · exact h.refuse ..
  split
  · exact h.changeSettings ..
  · exact (h.changeSettings ..).withBoot rfl

theorem State.SvnAtLeast.ackIdentity (h : s.SvnAtLeast n) : s.ackIdentity.1.SvnAtLeast n := by
  unfold State.ackIdentity
  extract_lets known
  split
  · exact h
  split
  · extract_lets c
    have hc : c.1.SvnAtLeast n := h.changeSettings ..
    split
    · exact hc
    · refine State.SvnAtLeast.awaitTwin ?_ _
      exact hc
  · exact h

/-! ### Joins (R343, R344, R462) -/

theorem State.SvnAtLeast.joinBinding (h : s.SvnAtLeast n) (o : JoinOffer) : (s.joinBinding o).SvnAtLeast n := by
  unfold State.joinBinding
  split
  · exact h
  split
  · exact h
  split
  · exact h
  · refine State.SvnAtLeast.of_hide ?_ (State.event_hide _ rfl ..)
    exact h

theorem State.SvnAtLeast.joinEthernet (h : s.SvnAtLeast n) (o : JoinOffer) : (s.joinEthernet o).SvnAtLeast n := by
  unfold State.joinEthernet
  extract_lets asked s1 d s2 assoc waits fab s3 s4 s5 others fab' s6
  have h1 : s1.SvnAtLeast n := h.of_hide (by simp [s1])
  have h3 : s3.SvnAtLeast n := h1
  have h4 : s4.SvnAtLeast n := by
    unfold s4
    split
    · exact h3.of_hide (State.cutPlane_hide _ rfl ..)
    · exact h3.cutOff ..
  have h6 : s6.SvnAtLeast n := by
    unfold s6
    split
    · exact h3.of_hide (State.modPeer_hide _ rfl ..)
    · exact h4.of_hide (State.freshFlows_hide _ rfl s4 o)
  exact (h6.joinBinding o).of_hide (State.sendDigests_hide _ rfl ..)

theorem State.SvnAtLeast.joinSeen (h : s.SvnAtLeast n) (o : JoinOffer) : (s.joinSeen o).SvnAtLeast n := by
  unfold State.joinSeen
  split
  · exact h.of_hide (by simp)
  split
  · exact h
  extract_lets fab s1
  have h1 : s1.SvnAtLeast n := h
  split
  · exact h1.joinEthernet o
  · exact h1.refuse ..

/-! ### Staging, slots, activation (R470 to R474, R477 to R479) -/

theorem State.SvnAtLeast.stageStart (h : s.SvnAtLeast n) (kind : Nat) : (s.stageStart kind).SvnAtLeast n := by
  unfold State.stageStart
  extract_lets src len header body image
  have hheader : header.s.SvnAtLeast n := h.of_hide (by simp [header])
  have hbody : body.s.SvnAtLeast n := hheader.of_hide (State.readMem_hide _ rfl ..)
  clear_value image body header
  split
  · exact h.refuse ..
  split
  · exact h
  split
  · exact hheader
  split
  · exact hheader
  · exact hbody

theorem State.SvnAtLeast.execStagingComplete (h : s.SvnAtLeast n) (ht : execStagingComplete s = .next t) :
    t.SvnAtLeast n := by
  refine .of_done ht ?_
  split
  · exact h
  · exact h

theorem State.SvnAtLeast.parlourCommit (h : s.SvnAtLeast n) : s.parlourCommit.SvnAtLeast n := by
  unfold State.parlourCommit
  dsimp only
  split
  · exact h
  split
  · exact h
  · exact h

theorem State.SvnAtLeast.revertTried (h : s.SvnAtLeast n) (kind : Nat) : (s.revertTried kind).SvnAtLeast n := by
  unfold State.revertTried
  dsimp only
  split
  · exact h
  · exact h

theorem State.SvnAtLeast.bootParlour (h : s.SvnAtLeast n) : s.bootParlour.SvnAtLeast n := by
  unfold State.bootParlour
  extract_lets s1
  have h1 : s1.SvnAtLeast n := h.revertTried 5
  split
  · extract_lets s2 power s3
    have h3 : s3.SvnAtLeast n := h1
    split
    · exact h3.of_hide (State.event_hide _ rfl ..)
    · exact h3
  · refine State.SvnAtLeast.of_hide ?_ (State.raise_hide _ rfl ..)
    exact h1

theorem State.SvnAtLeast.parlourActivate (h : s.SvnAtLeast n) : s.parlourActivate.SvnAtLeast n := by
  unfold State.parlourActivate
  split
  · exact h.refuse ..
  · have hrestart : s.parlourRestart.SvnAtLeast n := h.of_hide (State.parlourRestart_hide _ rfl ..)
    exact hrestart.bootParlour

theorem State.SvnAtLeast.activateArm (h : s.SvnAtLeast n) (hi : Word) : (s.activateArm hi).SvnAtLeast n := by
  unfold State.activateArm
  extract_lets s1 tick
  have h1 : s1.SvnAtLeast n := h
  split
  · exact h1
  · exact h1.refuse ..

theorem State.SvnAtLeast.startSucceeded (h : s.SvnAtLeast n) : s.startSucceeded.SvnAtLeast n := by
  unfold State.startSucceeded
  extract_lets ended images boot s1 settings s2 s3
  have h2 : s2.SvnAtLeast n := by
    unfold s2
    split
    · exact h
    · exact h
  exact h2

theorem State.SvnAtLeast.execSyncIntervalEnd (h : s.SvnAtLeast n) (ht : execSyncIntervalEnd s = .next t) :
    t.SvnAtLeast n := by
  refine .of_done ht ?_
  have hsync : s.syncInterval.SvnAtLeast n := h.of_hide (State.syncInterval_hide _ rfl ..)
  dsimp only
  split
  · exact hsync.startSucceeded
  · exact hsync

/-! ### The security version (R476): the only write of the fuses -/

/-- The write takes effect only above SVN_FUSED. -/
theorem State.SvnAtLeast.svnCommit (h : s.SvnAtLeast n) (v : Word) : (s.svnCommit v).1.SvnAtLeast n := by
  unfold State.svnCommit
  extract_lets x least
  split
  case isTrue htaken => exact h.trans htaken.1.le
  case isFalse => exact h.refuse ..

/-! ### Resets and restarts: the fuses outlive them (Table 15.3) -/

theorem State.SvnAtLeast.dieReset (h : s.SvnAtLeast n) (warm : Bool) : (s.dieReset warm).SvnAtLeast n := by
  have habandon : s.abandonStaging.SvnAtLeast n := by
    unfold State.abandonStaging
    split
    · exact h
    · exact h
  exact habandon

theorem State.SvnAtLeast.supplyReset (h : s.SvnAtLeast n) (cause : Nat) : (s.supplyReset cause).SvnAtLeast n :=
  h.dieReset false

theorem State.SvnAtLeast.activate (h : s.SvnAtLeast n) : s.activate.SvnAtLeast n := by
  unfold State.activate
  extract_lets s1 s2
  have h1 : s1.SvnAtLeast n := h.of_hide (by simp [s1])
  exact h1.dieReset true

theorem State.SvnAtLeast.auxUp (h : s.SvnAtLeast n) : s.auxUp.SvnAtLeast n := by
  unfold State.auxUp
  split
  · exact h
  · extract_lets s1 power p
    have hp : State.SvnAtLeast n { s1 with power := p } := h
    exact hp.bootParlour

theorem State.SvnAtLeast.auxLost (h : s.SvnAtLeast n) : s.auxLost.SvnAtLeast n := by
  unfold State.auxLost
  split
  · exact h.dieReset false
  · exact h

theorem State.SvnAtLeast.supplyResume (h : s.SvnAtLeast n) : s.supplyResume.SvnAtLeast n := by
  unfold State.supplyResume
  split
  · exact h
  split
  · exact h
  extract_lets s1 s2 power s3 s4 s5
  have h3 : s3.SvnAtLeast n := h
  split
  · exact h3.activate
  · exact h3.of_hide (by simp [s5, s4])

theorem State.SvnAtLeast.thermal (h : s.SvnAtLeast n) (x : Sample) : (s.thermal x).SvnAtLeast n := by
  unfold State.thermal
  split
  · exact h
  extract_lets s1 die coolant s2 hot high s3 over_ stops at_ power s4 s5
  have h5 : s5.SvnAtLeast n := h.of_hide (by simp [s5, s4, s3, s2, s1])
  split
  · exact h5.supplyReset 2
  · exact h5

theorem State.SvnAtLeast.execSupplyReset (h : s.SvnAtLeast n) (ht : execSupplyReset s = .next t) : t.SvnAtLeast n := by
  refine .of_done ht ?_
  split
  · exact h.supplyReset 1
  · exact h

theorem State.SvnAtLeast.execThermalTripTimer (h : s.SvnAtLeast n) (ht : execThermalTripTimer s = .next t) :
    t.SvnAtLeast n := by
  refine .of_done ht ?_
  split
  · split
    · exact h.supplyReset 2
    · exact h
  · exact h

theorem State.SvnAtLeast.execRefclkDieTimeout (h : s.SvnAtLeast n) (ht : execRefclkDieTimeout s = .next t) :
    t.SvnAtLeast n := by
  refine .of_done ht ?_
  split
  · exact h.supplyReset 1
  · exact h

theorem State.SvnAtLeast.execActivationTick (h : s.SvnAtLeast n) (ht : execActivationTick s = .next t) :
    t.SvnAtLeast n := by
  refine .of_done ht ?_
  split
  · exact h.activate
  · exact h

/-! ### The start of the die (R473 to R475, R481, R482) -/

theorem State.SvnAtLeast.imageInvalid (h : s.SvnAtLeast n) (item : Nat) : (s.imageInvalid item).SvnAtLeast n :=
  h.of_hide (State.imageInvalid_hide _ rfl ..)

theorem State.SvnAtLeast.bootImage (h : s.SvnAtLeast n) (kind slot : Nat) (fell : Bool) :
    (s.bootImage kind slot fell).SvnAtLeast n := by
  unfold State.bootImage
  extract_lets s1
  split
  · have hfall : State.SvnAtLeast n { s1 with boot := { s1.boot with fallback := true } } := h
    exact hfall.of_hide (State.event_hide _ rfl ..)
  · exact h

theorem State.SvnAtLeast.bootActive (h : s.SvnAtLeast n) : s.bootActive.SvnAtLeast n := by
  unfold State.bootActive
  split
  · exact h.imageInvalid _
  · extract_lets s1
    have h1 : s1.SvnAtLeast n := by
      refine .foldl (fun u k hu => ?_) h _
      exact hu
    exact h1

theorem State.SvnAtLeast.bootImages (h : s.SvnAtLeast n) : s.bootImages.SvnAtLeast n := by
  unfold State.bootImages
  extract_lets s1 pick booted compats
  have h1 : s1.SvnAtLeast n := .foldl (fun _ k hu => hu.revertTried k) h _
  have hbooted : booted.SvnAtLeast n := by
    refine .foldl (fun u x hu => ?_) h1 _
    split
    · exact hu.bootImage ..
    · exact hu
  split
  · exact h1.imageInvalid _
  split
  · exact hbooted
  · exact hbooted.bootActive

theorem State.SvnAtLeast.takeSettings (h : s.SvnAtLeast n) : s.takeSettings.SvnAtLeast n := by
  unfold State.takeSettings
  split
  · refine State.SvnAtLeast.of_hide ?_ (State.raise_hide _ rfl ..)
    exact h
  · extract_lets boot s1 candidate s2
    split
    · exact h
    · exact h

theorem State.SvnAtLeast.takeBinding (h : s.SvnAtLeast n) : s.takeBinding.SvnAtLeast n := h

theorem State.SvnAtLeast.bootSteward (h : s.SvnAtLeast n) (r : StartReport) : (s.bootSteward r).SvnAtLeast n := by
  unfold State.bootSteward
  extract_lets s1 power s2
  have h1 : s1.SvnAtLeast n := h.bootImages
  split
  · exact h1
  split
  · exact h1.of_hide (by simp)
  split
  · exact h1.imageInvalid _
  · have h2 : s2.SvnAtLeast n := h1.takeSettings.takeBinding.takeCalibration.of_hide (State.takeNumber_hide _ rfl ..)
    clear_value s2
    exact h2.withBoot rfl

theorem State.SvnAtLeast.dieStart (h : s.SvnAtLeast n) (r : StartReport) : (s.dieStart r).SvnAtLeast n := by
  unfold State.dieStart
  extract_lets s1
  have h1 : s1.SvnAtLeast n := by
    unfold s1
    split
    · exact h.bootSteward r
    · exact h
  split
  · exact h
  split
  · exact h1
  · exact h1.of_hide (State.loadImages_hide _ rfl ..)

/-! ### Register writes -/

theorem State.SvnAtLeast.whenBit {x : State × Bool} (h : x.1.SvnAtLeast n) (v i : Nat) {f : State → State × Bool}
    (hf : ∀ t : State, t.SvnAtLeast n → (f t).1.SvnAtLeast n) : (whenBit v i f x).1.SvnAtLeast n := by
  unfold Machine.whenBit
  split
  · exact hf _ h
  · exact h

theorem State.SvnAtLeast.writePlain (h : s.SvnAtLeast n) (addr v : Nat) : (s.writePlain addr v).1.SvnAtLeast n :=
  h.of_hide (State.writePlain_hide _ rfl ..)

theorem State.SvnAtLeast.writeSystem (h : s.SvnAtLeast n) (addr v : Nat) : (s.writeSystem addr v).1.SvnAtLeast n := by
  unfold State.writeSystem
  refine .ite ?_ ?_
  · exact h.of_hide (State.safeRelease_hide _ rfl ..)
  refine .ite ?_ ?_
  · exact .whenBit h _ _ fun t ht => ht.of_hide (State.stopRequest_hide _ rfl ..)
  refine .ite ?_ ?_
  · refine .whenBit (.whenBit h _ _ ?_) _ _ ?_
    · exact fun t ht => ht.of_hide (State.restoreStart_hide _ rfl ..)
    · exact fun t ht => ht.of_hide (State.restoreAbort_hide _ rfl ..)
  refine .ite ?_ ?_
  · refine .whenBit (.whenBit (.whenBit h _ _ ?_) _ _ ?_) _ _ ?_
    · exact fun t ht => ht.changeSettings ..
    · exact fun t ht => ht.changeSettings ..
    · exact fun t ht => ht.changeSettings ..
  · exact h.writePlain ..

theorem State.SvnAtLeast.writeBoot (h : s.SvnAtLeast n) (parlour : Bool) (addr v : Nat) :
    (s.writeBoot parlour addr v).1.SvnAtLeast n := by
  unfold State.writeBoot
  refine .ite ?_ ?_
  · exact h.of_hide (State.ignored_hide _ rfl ..)
  refine .ite ?_ ?_
  · exact h.of_hide (State.stageAppend_hide _ rfl ..)
  refine .ite ?_ ?_
  · exact .whenBit h _ _ fun t ht => ht.parlourCommit
  refine .ite ?_ ?_
  · exact .whenBit h _ _ fun t ht => ht.parlourActivate
  refine .ite ?_ ?_
  · exact h.activateArm _
  refine .ite ?_ ?_
  · exact .whenBit h _ _ fun t ht => ht
  refine .ite ?_ ?_
  · exact h.svnCommit _
  refine .ite ?_ ?_
  · exact .whenBit h _ _ fun t ht => ht.stageStart _
  refine .ite ?_ ?_
  · exact .whenBit (.whenBit h _ _ fun t ht => ht.bindCmd) _ _ fun t ht => ht.unbindCmd
  refine .ite ?_ ?_
  · refine .whenBit (.whenBit h _ _ ?_) _ _ ?_
    · exact fun t ht => ht.changeSettings ..
    · exact fun t ht => ht.changeSettings ..
  · exact h.writePlain ..

/-- Of all classes, QMGR, SAFETY, POWER, CAL and BOOT have registers whose write touches identity and firmware. -/
theorem State.SvnAtLeast.writeReg (h : s.SvnAtLeast n) (parlour : Bool) (addr v : Nat) :
    (s.writeReg parlour addr v).1.SvnAtLeast n := by
  unfold State.writeReg
  extract_lets cls inst page off
  clear_value cls inst page off
  split
  · exact h
  split
  · exact h
  split
  · exact h.of_hide (State.writePage0_hide _ rfl ..)
  split
  case h_6 =>
    split
    · exact .whenBit h _ _ fun t ht => ht.ackIdentity
    · exact h.writePlain ..
  case h_8 | h_9 | h_10 => exact h.writeSystem ..
  case h_11 => exact h.writeBoot ..
  all_goals exact h.of_hide (by simp)

theorem State.SvnAtLeast.messageWrite (h : s.SvnAtLeast n) (parlour : Bool) (addr v : Nat) :
    (s.messageWrite parlour addr v).1.SvnAtLeast n := by
  unfold State.messageWrite
  extract_lets cls inst w
  have hw : w.1.SvnAtLeast n := h.writeReg ..
  split
  · exact hw
  split
  · exact hw.of_hide (State.bump_hide _ rfl ..)
  split
  · exact hw
  · exact hw.of_hide (State.bump_hide _ rfl ..)

theorem State.SvnAtLeast.writeRegs (h : s.SvnAtLeast n) (parlour : Bool) (addr : Nat) (first : Option Nat)
    (vs : List Nat) : (s.writeRegs parlour addr first vs).1.SvnAtLeast n := by
  induction vs generalizing s addr first with
  | nil => exact h
  | cons v vs ih => exact ih (h.messageWrite parlour addr v) ..

theorem State.SvnAtLeast.modifyRegs (h : s.SvnAtLeast n) (parlour : Bool) (addr : Nat) (first : Option Nat)
    (vs : List (Nat × Nat)) : (s.modifyRegs parlour addr first vs).1.SvnAtLeast n := by
  induction vs generalizing s addr first with
  | nil => exact h
  | cons v vs ih =>
    have hread : (s.readReg addr).2.SvnAtLeast n := h.of_hide (State.readReg_hide _ rfl ..)
    exact ih (hread.messageWrite ..) ..

theorem State.SvnAtLeast.storeRegs (h : s.SvnAtLeast n) {o : Nat} {bs : List Byte} (ht : s.storeRegs o bs = some t) :
    t.SvnAtLeast n := by
  unfold State.storeRegs at ht
  extract_lets len at ht
  split at ht
  · obtain rfl := Option.some.inj ht
    exact .foldl (fun u i hu => hu.writeReg ..) h _
  · cases ht

/-! ### Control messages (R382, R384) -/

theorem State.SvnAtLeast.ignoredAnswer (h : s.SvnAtLeast n) (count : Nat) (first : Option Nat) (data : List Byte) :
    (ignoredAnswer s count first data).s.SvnAtLeast n := by
  cases first with
  | none => exact h
  | some addr => exact h

theorem State.SvnAtLeast.regWriteAct (h : s.SvnAtLeast n) (parlour : Bool) (addr : Nat) (vs : List Nat) :
    (s.regWriteAct parlour addr vs).s.SvnAtLeast n := by
  unfold State.regWriteAct
  split
  case h_1 a ha => rwa [State.regCheck_state _ _ _ _ _ ha]
  case h_2 => exact (h.writeRegs parlour addr none vs).ignoredAnswer ..

theorem State.SvnAtLeast.regModifyAct (h : s.SvnAtLeast n) (parlour : Bool) (addr : Nat) (vs : List (Nat × Nat)) :
    (s.regModifyAct parlour addr vs).s.SvnAtLeast n := by
  unfold State.regModifyAct
  split
  case h_1 a ha => rwa [State.regCheck_state _ _ _ _ _ ha]
  case h_2 => exact (h.modifyRegs parlour addr none vs).ignoredAnswer ..

/-- Of the messages in a frame, REG_WRITE and REG_MODIFY write registers. -/
theorem State.SvnAtLeast.messageAct (h : s.SvnAtLeast n) (f : Session) (bs : List Byte) :
    (State.messageAct f bs s).s.SvnAtLeast n := by
  unfold State.messageAct
  dsimp only
  split
  · exact h
  split
  · exact h
  split
  · exact h
  split
  case h_3 => exact h.regWriteAct ..
  case h_4 => exact h.regModifyAct ..
  all_goals exact h.of_hide (by simp)

theorem State.SvnAtLeast.serve (h : s.SvnAtLeast n) (f : Session) (opcode : Nat) (early : Bool) {act : State → Answer}
    (hact : (act s).s.SvnAtLeast n) : (s.serve f opcode early act).SvnAtLeast n := by
  unfold State.serve
  split
  · exact h
  split
  · exact h.of_hide (by simp)
  split
  · exact h.of_hide (by simp)
  · exact hact.of_hide (by simp)

theorem State.SvnAtLeast.message (h : s.SvnAtLeast n) (f : Session) (bs : List Byte) : (s.message f bs).SvnAtLeast n := by
  unfold State.message
  split
  · exact h
  · exact h.serve _ _ _ (h.messageAct ..)

/-! ### Frames: what a block does at its destination -/

theorem State.SvnAtLeast.writeBlockIn (h : s.SvnAtLeast n) (id : FlowId) (c : Cargo) :
    (s.writeBlockIn id c).SvnAtLeast n := by
  unfold State.writeBlockIn
  extract_lets a len no ends p
  have hno : no.SvnAtLeast n := h.of_hide (State.refuseRemote_hide _ rfl ..)
  have hp : p.s.SvnAtLeast n := h.of_hide (State.hostStore_hide _ rfl ..)
  have hends : ∀ u : State, u.SvnAtLeast n → (ends u).SvnAtLeast n := by
    intro u hu
    unfold ends
    split
    · exact hu.of_hide (State.answer_hide _ rfl ..)
    · exact hu
  split
  · exact hno
  split
  case h_1 =>
    split
    · exact hno
    · exact hp.of_hide (State.refuseRemote_hide _ rfl ..)
    · split
      · exact hends _ hp
      · exact hp.of_hide (State.emit_hide _ rfl ..)
  case h_2 =>
    split
    · exact hno
    split
    · exact hends _ (h.of_hide (State.writeLp_hide _ rfl ..))
    split
    · exact hends _ (h.of_hide (State.mirrorBlock_hide _ rfl ..))
    · exact hno
  case h_3 =>
    split
    case h_1 t ht => exact hends _ (h.storeRegs ht)
    case h_2 => exact hno
  case h_4 =>
    split
    · exact hends _ (h.of_hide (State.queueWrite_hide _ rfl ..))
    · exact hno
  case h_5 => exact hno

theorem State.SvnAtLeast.writeRequest (h : s.SvnAtLeast n) (id : FlowId) (c : Cargo) :
    (s.writeRequest id c).SvnAtLeast n := by
  unfold State.writeRequest
  split
  · exact h
  · exact h.writeBlockIn ..

theorem State.SvnAtLeast.serveHeld (h : s.SvnAtLeast n) : s.serveHeld.SvnAtLeast n := by
  unfold State.serveHeld
  refine .foldl (fun u x hu => ?_) ?_ _
  · split
    · exact hu.writeRequest ..
    · exact hu.of_hide (by simp)
  · exact h

theorem State.SvnAtLeast.controlBlock (h : s.SvnAtLeast n) (port : Fin 8) (id : FlowId) (c : Cargo) :
    (s.controlBlock port id c).s.SvnAtLeast n := by
  unfold State.controlBlock
  extract_lets f bs p s1
  have h1 : s1.SvnAtLeast n := h.of_hide (by simp [s1])
  split
  · exact h.of_hide (by simp)
  split
  · exact h
  · exact h1.message ..

/-! ### Frames: checks and delivery in order (R333, R336) -/

theorem State.SvnAtLeast.receive (h : s.SvnAtLeast n) (type : Nat) (r : Rx) {act : State → State}
    (hact : ∀ t : State, t.SvnAtLeast n → (act t).SvnAtLeast n) : (s.receive type r act).SvnAtLeast n := by
  unfold State.receive
  extract_lets p s1 s2
  have h2 : s2.SvnAtLeast n := h.of_hide (by simp [s2, s1])
  split
  · exact h
  split
  · exact h2.of_hide (State.bump_hide _ rfl ..)
  split
  · exact h2.of_hide (State.bump_hide _ rfl ..)
  split
  · exact h2.of_hide (State.bump_hide _ rfl ..)
  extract_lets s3
  have h3 : s3.SvnAtLeast n := h2.of_hide (State.modPeer_hide _ rfl ..)
  split
  · exact h3.of_hide (State.bump_hide _ rfl ..)
  split
  · exact h3.of_hide (State.bump_hide _ rfl ..)
  · exact hact _ h3

section
variable {deliver : State → FlowId → Cargo → Delivery}
  (hdeliver : ∀ (t : State) id c, t.SvnAtLeast n → (deliver t id c).s.SvnAtLeast n)
include hdeliver

theorem State.SvnAtLeast.advance (h : s.SvnAtLeast n) (plane most : Nat) (id : FlowId) :
    (State.advance deliver plane most s id).SvnAtLeast n := by
  induction most generalizing s with
  | zero => exact h
  | succ most ih =>
    unfold State.advance
    extract_lets f
    split
    · exact h.of_hide (State.setRx_hide _ rfl ..)
    · extract_lets d g rest
      have hd : d.s.SvnAtLeast n := hdeliver _ _ _ h
      split
      · exact ih (hd.of_hide (by simp))
      · exact hd.of_hide (by simp)
      · exact hd.of_hide (State.setRx_hide _ rfl ..)

theorem State.SvnAtLeast.arrive (h : s.SvnAtLeast n) (port : Nat) (id : FlowId) (c : Cargo) (crc : Word) :
    (s.arrive deliver port id c crc).SvnAtLeast n := by
  unfold State.arrive
  split
  · exact h.of_hide (by simp)
  extract_lets f d s1 s2 s3
  have h2 : s2.SvnAtLeast n := h.of_hide (by simp [s2, s1])
  have h3 : s3.SvnAtLeast n := h2.advance hdeliver ..
  split
  · exact h.of_hide (by simp)
  split
  · exact h
  split
  · exact h3.of_hide (State.sendAck_hide _ rfl ..)
  · exact h3

theorem State.SvnAtLeast.receiveBlocks (h : s.SvnAtLeast n) (type : Nat) (r : Rx) :
    (s.receiveBlocks type r deliver).SvnAtLeast n :=
  h.receive type r fun _ ht => .foldl (fun _ _ hu => hu.arrive hdeliver ..) ht _

end

/-! ### Copy engines (R332) -/

theorem State.SvnAtLeast.storeOwn (h : s.SvnAtLeast n) (r : Req) (a : Nat) (bs : List Byte) :
    (s.storeOwn r a bs).s.SvnAtLeast n := by
  unfold State.storeOwn
  extract_lets no p
  split
  case h_1 =>
    split
    · exact h.of_hide (State.intakeRun_hide _ rfl ..)
    · exact h.of_hide (State.writeMem_hide _ rfl ..)
    · exact h
  case h_2 =>
    split
    · exact h.of_hide (State.writeLp_hide _ rfl ..)
    · exact h
  case h_3 =>
    split
    case h_1 t ht => exact h.storeRegs ht
    case h_2 => exact h
  case h_4 =>
    split
    · exact h.of_hide (State.queueWrite_hide _ rfl ..)
    · exact h
  case h_5 => exact h

theorem State.SvnAtLeast.storeRuns (h : s.SvnAtLeast n) (r : Req) (runs : List (Nat × List Byte)) :
    (s.storeRuns r runs).s.SvnAtLeast n := by
  unfold State.storeRuns
  refine List.foldlRecOn (motive := fun g : Stored => g.s.SvnAtLeast n) _ _ h fun g hg x _ => ?_
  split
  · exact hg
  · exact State.SvnAtLeast.storeOwn (hg.of_hide (State.nocWrite_hide _ rfl ..)) ..

theorem State.SvnAtLeast.writeOwn (h : s.SvnAtLeast n) (r : Req) (rows : List (Nat × List Byte)) (stop : Option Stop) :
    (s.writeOwn r rows stop).SvnAtLeast n := by
  unfold State.writeOwn
  split
  · exact h.of_hide (State.commandRequest_hide _ rfl ..)
  · exact (h.storeRuns r rows).of_hide (State.carried_hide _ rfl ..)

theorem State.SvnAtLeast.carryOut (h : s.SvnAtLeast n) (r : Req) : (s.carryOut r).SvnAtLeast n := by
  unfold State.carryOut
  split
  case h_1 =>
    extract_lets a
    split
    · exact h.writeOwn ..
    · exact h.of_hide (by split <;> simp)
  case h_2 =>
    extract_lets a s1 w sent
    have h1 : s1.SvnAtLeast n := h.of_hide (by simp [s1])
    have hw : w.s.SvnAtLeast n := h1.of_hide (State.writeRows_hide _ rfl ..)
    split
    · exact h1.of_hide (State.localMove_hide _ rfl ..)
    split
    · split
      · exact h1.of_hide (State.fillOwn_hide _ rfl ..)
      · exact hw.writeOwn ..
    split
    · exact h1.of_hide (State.requestStops_hide _ rfl ..)
    split
    · exact h1.of_hide (State.fillAway_hide _ rfl ..)
    · exact hw.of_hide (by split <;> simp [sent])

theorem State.SvnAtLeast.copyStart (h : s.SvnAtLeast n) (e : Nat) : (s.copyStart e).SvnAtLeast n := by
  unfold State.copyStart
  split
  · exact h
  · exact h.carryOut _

/-! ### A step -/

theorem State.SvnAtLeast.dieCycle (h : s.SvnAtLeast n) : s.dieCycle.SvnAtLeast n := by
  unfold State.dieCycle
  extract_lets s1 s2 s3 boot s4 s5
  have h1 : s1.SvnAtLeast n := h.of_hide (by simp [s1])
  have h2 : s2.SvnAtLeast n := by
    unfold s2
    split
    · exact h1
    · exact h1.serveHeld
  have h3 : s3.SvnAtLeast n := h2.of_hide (by simp [s3])
  clear_value s3
  have h4 : s4.SvnAtLeast n := by
    unfold s4
    split
    · exact h3.withBoot rfl
    · exact h3
  exact h4.of_hide (by simp [s5])

theorem State.SvnAtLeast.tick (h : s.SvnAtLeast n) : (tick s).SvnAtLeast n := by
  unfold Machine.tick
  split
  · exact h
  extract_lets counts s1 ends s2 s3
  have h1 : s1.SvnAtLeast n := by
    unfold s1
    split
    · exact h.dieCycle
    · exact h
  exact h1.of_hide (by simp [s3, s2])

/-- The commands named are those that may write identity and firmware; the masks of all others leave them alone. -/
theorem State.SvnAtLeast.exec (h : s.SvnAtLeast n) {c : Instr} (ht : exec c s = .next t) : t.SvnAtLeast n := by
  cases c
  case regWrite => exact .of_done ht (h.serve _ _ _ (h.regWriteAct ..))
  case regModify => exact .of_done ht (h.serve _ _ _ (h.regModifyAct ..))
  case plainRegisterWrite => exact .of_done ht (h.writeReg ..)
  case write => exact .of_done ht (h.receiveBlocks (fun _ _ _ hu => hu.writeRequest ..) _ _)
  case control => exact .of_done ht (h.receiveBlocks (fun _ _ _ hu => hu.controlBlock ..) _ _)
  case copyRequestStart => exact .of_done ht (h.copyStart _)
  case nak => exact .of_done ht (h.receive _ _ fun _ hu => hu.nakked ..)
  case retryTimeout => exact h.execRetryTimeout ht
  case join => exact .of_done ht (h.joinSeen _)
  case bind => exact .of_done ht h.bindCmd
  case unbind => exact .of_done ht h.unbindCmd
  case attnAckIdentity => exact .of_done ht h.ackIdentity
  case anchorSet | anchorClear | userSet | userClear | userClearAll => exact .of_done ht (h.changeSettings ..)
  case stageStart => exact .of_done ht (h.stageStart _)
  case stagingComplete => exact h.execStagingComplete ht
  case parlourCommit => exact .of_done ht h.parlourCommit
  case parlourActivate => exact .of_done ht h.parlourActivate
  case svnCommit => exact .of_done ht (h.svnCommit _)
  case activateArm => exact .of_done ht (h.activateArm _)
  case activateCancel => exact .of_done ht h
  case activationTick => exact h.execActivationTick ht
  case syncIntervalEnd => exact h.execSyncIntervalEnd ht
  case auxRailUp => exact .of_done ht h.auxUp
  case auxRailLoss => exact .of_done ht h.auxLost
  case dieStart => exact .of_done ht (h.dieStart _)
  case supplyResume => exact .of_done ht h.supplyResume
  case supplyReset => exact h.execSupplyReset ht
  case thermalSample => exact .of_done ht (h.thermal _)
  case thermalTripTimer => exact h.execThermalTripTimer ht
  case refclkDieTimeout => exact h.execRefclkDieTimeout ht
  all_goals
    refine h.of_mask ht ?_
    dsimp only [commandMask]
    rfl

/-- SVN_FUSED never falls: the bound kept is its own value before the step. -/
theorem svnFused_le_of_step (ht : step s = .next t) : s.boot.svnFused ≤ t.boot.svnFused := by
  have h : s.SvnAtLeast s.boot.svnFused := le_rfl
  unfold step at ht
  split at ht
  case h_1 => exact State.SvnAtLeast.of_done ht h.tick
  case h_2 c rest _ =>
    have hrest : State.SvnAtLeast s.boot.svnFused { s with pending := rest } := h
    exact hrest.exec ht

end

/-! ### The command -/

section
variable {s : State} {w : Word}

theorem State.svnCommit_of_taken (habove : s.boot.svnFused < w.toNat % 256)
    (hleast : ∀ x ∈ s.boot.images, ∀ i ∈ x.2.slots, ∀ m, i = some m → w.toNat % 256 ≤ m.svn) :
    s.svnCommit w = ({ s with boot := { s.boot with svnFused := w.toNat % 256 } }, false) := by
  unfold State.svnCommit
  refine if_pos ⟨habove, ?_⟩
  simp only [List.all_eq_true, List.mem_flatMap]
  rintro i ⟨x, hx, hi⟩
  cases i with
  | none => rfl
  | some m => exact decide_eq_true (hleast x hx _ hi m rfl)

theorem State.svnCommit_of_refused (h : w.toNat % 256 ≤ s.boot.svnFused ∨
      ∃ x ∈ s.boot.images, ∃ m, some m ∈ x.2.slots ∧ m.svn < w.toNat % 256) :
    s.svnCommit w = (s.refuse clsBoot Reg.BOOT_SVN_COMMIT, true) := by
  unfold State.svnCommit
  refine if_neg fun ⟨habove, hleast⟩ => ?_
  obtain hlow | ⟨x, hx, m, hm, hsvn⟩ := h
  · exact hlow.not_gt habove
  · have hpass := List.all_eq_true.mp hleast _ (List.mem_flatMap.mpr ⟨x, hx, hm⟩)
    exact hsvn.not_ge (of_decide_eq_true hpass)

/-- A write of the register, through either port, is the command. -/
theorem State.writeReg_svnCommit (parlour : Bool) (hs : s.regInService Reg.BOOT_SVN_COMMIT = true) :
    s.writeReg parlour Reg.BOOT_SVN_COMMIT w.toNat = s.svnCommit w := by
  have hstands : regStands Reg.BOOT_SVN_COMMIT = true := by decide
  calc s.writeReg parlour Reg.BOOT_SVN_COMMIT w.toNat
      = s.writeBoot parlour Reg.BOOT_SVN_COMMIT w.toNat := by
        unfold State.writeReg
        rw [hstands, hs]
        rfl
    _ = s.svnCommit (BitVec.ofNat 32 w.toNat) := rfl
    _ = s.svnCommit w := by rw [BitVec.ofNat_toNat, BitVec.setWidth_eq]

end

/-- Settles O50: the command is one if and else over the fuses and every slot, and each operation keeps every lower bound
of the fuses. -/
theorem securityVersionFuses : Obligations.SecurityVersionFuses := by
  unfold Obligations.SecurityVersionFuses
  refine ⟨?burnt, ?ignored, fun s t ht => svnFused_le_of_step ht⟩
  case burnt =>
    intro s w habove hleast
    exact congrArg (fun r : State × Bool => done r.1) (State.svnCommit_of_taken habove hleast)
  case ignored =>
    intro s w hfails
    have hrefused := State.svnCommit_of_refused hfails
    have hexec : exec (.svnCommit w) s = .next (s.refuse clsBoot Reg.BOOT_SVN_COMMIT) :=
      congrArg (fun r : State × Bool => done r.1) hrefused
    have hframe := State.refuse_hide 129 rfl s clsBoot Reg.BOOT_SVN_COMMIT
    refine ⟨⟨_, hexec, kept_boot hframe rfl, kept_mem hframe rfl rfl, kept_run hframe rfl⟩, fun parlour hs => ?_⟩
    rw [State.writeReg_svnCommit parlour hs, hrefused]

end Sys2Proof.Machine

end

section

/-!
What every command leaves alone (the frame statements). The mask of a command names the parts of the state it may change;
each list of commands that leave a part alone holds only commands whose mask does not name that part.
-/

namespace Sys2Proof.Machine

section
variable {c : Instr}

theorem mask_of_leavesClock (h : leavesClock c = true) : (commandMask c).testBit 1 = false := by
  revert h
  cases c <;> (dsimp only [leavesClock, commandMask]; decide)

theorem mask_of_leavesRun (h : leavesRun c = true) : (commandMask c).testBit 2 = false := by
  revert h
  cases c <;> (dsimp only [leavesRun, commandMask]; decide)

theorem mask_of_leavesSeparators (h : leavesSeparators c = true) : (commandMask c).testBit 3 = false := by
  revert h
  cases c <;> (dsimp only [leavesSeparators, commandMask]; decide)

theorem mask_of_leavesUpdateEngines (h : leavesUpdateEngines c = true) : (commandMask c).testBit 4 = false := by
  revert h
  cases c <;> (dsimp only [leavesUpdateEngines, commandMask]; decide)

theorem mask_of_leavesMirrors (h : leavesMirrors c = true) : (commandMask c).testBit 5 = false := by
  revert h
  cases c <;> (dsimp only [leavesMirrors, commandMask]; decide)

theorem mask_of_leavesFabric (h : leavesFabric c = true) : (commandMask c).testBit 6 = false := by
  revert h
  cases c <;> (dsimp only [leavesFabric, commandMask]; decide)

theorem mask_of_leavesControl (h : leavesControl c = true) : (commandMask c).testBit 7 = false := by
  revert h
  cases c <;> (dsimp only [leavesControl, commandMask]; decide)

theorem mask_of_leavesSafety (h : leavesSafety c = true) : (commandMask c).testBit 8 = false := by
  revert h
  cases c <;> (dsimp only [leavesSafety, commandMask]; decide)

theorem mask_of_leavesPower (h : leavesPower c = true) : (commandMask c).testBit 9 = false := by
  revert h
  cases c <;> (dsimp only [leavesPower, commandMask]; decide)

theorem mask_of_leavesBoot (h : leavesBoot c = true) : (commandMask c).testBit 10 = false := by
  revert h
  cases c <;> (dsimp only [leavesBoot, commandMask]; decide)

theorem mask_of_leavesGenerators (h : leavesGenerators c = true) : (commandMask c).testBit 11 = false := by
  revert h
  cases c <;> (dsimp only [leavesGenerators, commandMask]; decide)

theorem mask_of_leavesOut (h : leavesOut c = true) : (commandMask c).testBit 12 = false := by
  revert h
  cases c <;> (dsimp only [leavesOut, commandMask]; decide)

theorem mask_pending (c : Instr) : (commandMask c).testBit 13 = false := by
  cases c <;> (dsimp only [commandMask]; decide)

theorem mask_of_leavesMemory (h : leavesMemory c = true) :
    (commandMask c).testBit 14 = false ∧ (commandMask c).testBit 15 = false := by
  revert h
  cases c <;> (dsimp only [leavesMemory, commandMask]; decide)

end

/-- Settles O55: the masks of the commands in each list leave that part out. -/
theorem frameOfClockPowerAndBoot : Obligations.FrameOfClockPowerAndBoot := by
  unfold Obligations.FrameOfClockPowerAndBoot
  intro c s t h
  have frame := exec_hide c h
  exact ⟨kept_pending frame (mask_pending c), fun hc => kept_clock frame (mask_of_leavesClock hc),
    fun hc => kept_gens frame (mask_of_leavesGenerators hc), fun hc => kept_mirrors frame (mask_of_leavesMirrors hc),
    fun hc => kept_power frame (mask_of_leavesPower hc), fun hc => kept_boot frame (mask_of_leavesBoot hc),
    fun hc => kept_out frame (mask_of_leavesOut hc)⟩

/-- Settles O56: the masks of the commands in each list leave that part out. -/
theorem frameOfRunEnginesAndFabric : Obligations.FrameOfRunEnginesAndFabric := by
  unfold Obligations.FrameOfRunEnginesAndFabric
  intro c s t h
  have frame := exec_hide c h
  exact ⟨fun hc => kept_run frame (mask_of_leavesRun hc), fun hc => kept_seps frame (mask_of_leavesSeparators hc),
    fun hc => kept_upds frame (mask_of_leavesUpdateEngines hc), fun hc => kept_fab frame (mask_of_leavesFabric hc),
    fun hc => kept_ctl frame (mask_of_leavesControl hc), fun hc => kept_safety frame (mask_of_leavesSafety hc)⟩

/-- Settles O57: neither half of memory is in the masks of the commands that store nothing. -/
theorem frameOfMemory : Obligations.FrameOfMemory := by
  unfold Obligations.FrameOfMemory
  intro c s t h hc
  obtain ⟨units, cells⟩ := mask_of_leavesMemory hc
  have hmem := kept_mem (exec_hide c h) units cells
  exact ⟨fun a => by rw [hmem], hmem⟩

end Sys2Proof.Machine

end

section

/-!
Two invariants at once: the canonical form of memory, and the order of the log and of the queue pairs' rings. Each
operation of the model that stores bytes or writes host control keeps both; one lemma each, in the order of the model.
-/

namespace Sys2Proof.Machine

/-- Of the two invariants those asked for hold: `M` asks for the canonical form of memory (chapter 10), `L` for the order of
the log and the rings (chapter 13). -/
def State.Orderly (M L : Prop) (s : State) : Prop :=
  (M → s.MemoryCanonical) ∧ (L → s.LogInOrder ∧ s.RingsInOrder)

section
variable {M L : Prop} {s t u : State}

/-! ### How the invariants are carried -/

/-- The mask 32639 names every part of the state but the bytes of memory and host control. -/
theorem State.Orderly.of_hide (h : s.Orderly M L) (e : t.hide 32639 = s.hide 32639) : t.Orderly M L := by
  have hctl : t.ctl = s.ctl := kept_ctl e rfl
  have hcells : t.mem.cells = s.mem.cells := kept_cells e rfl
  unfold State.Orderly State.MemoryCanonical State.LogInOrder State.RingsInOrder Memory.wf State.pair
  rw [hctl, hcells]
  exact h

section
variable {regs : Tab Word} {clock : Clock} {run : RunState} {seps : Tab SepUnit} {upds : Tab UpdUnit} {mirrors : List Mirror}
  {fab : Fabric} {safety : SafetyState} {power : PowerState} {boot : BootState} {gens : Generators} {out : List Out}
  {pending : List Instr}

/-- Memory and host control are the parts of the state that the two invariants speak of. -/
theorem State.Orderly.others (h : s.Orderly M L) : State.Orderly M L
    ⟨s.mem, regs, clock, run, seps, upds, mirrors, fab, s.ctl, safety, power, boot, gens, out, pending⟩ := h

/-- Of memory they speak of the bytes alone. -/
theorem State.Orderly.otherMem (h : s.Orderly M L) {errs recoded badScratch badTbuf tbuf lpBad owed cache churn} :
    State.Orderly M L
      ⟨⟨s.mem.cells, errs, recoded, badScratch, badTbuf, tbuf, lpBad, owed, cache, churn⟩, regs, clock, run, seps, upds,
        mirrors, fab, s.ctl, safety, power, boot, gens, out, pending⟩ := h

/-- Of host control they speak of the log, its next number and the queue pairs. -/
theorem State.Orderly.otherCtl (h : s.Orderly M L) {rwl free signing turns} : State.Orderly M L
    ⟨s.mem, regs, clock, run, seps, upds, mirrors, fab,
      ⟨s.ctl.log, s.ctl.nextSeq, s.ctl.queues, rwl, free, signing, turns⟩, safety, power, boot, gens, out, pending⟩ := h

end

/-- A command whose mask leaves both alone. -/
theorem State.Orderly.of_mask (h : s.Orderly M L) {c : Instr} (ht : exec c s = .next t)
    (hc : commandMask c &&& 32639 = commandMask c) : t.Orderly M L :=
  h.of_hide (hide_mono (exec_hide c ht) hc)

theorem State.Orderly.of_done (ht : done u = .next t) (hu : u.Orderly M L) : t.Orderly M L := by
  obtain rfl := Host.Outcome.next.inj ht
  exact hu

theorem State.Orderly.foldl {α : Type} {f : State → α → State}
    (hf : ∀ t x, t.Orderly M L → (f t x).Orderly M L) (h : s.Orderly M L) (l : List α) : (l.foldl f s).Orderly M L :=
  List.foldlRecOn l f h fun t ht x _ => hf t x ht

/-- Other bytes in canonical form, nothing else changed. -/
theorem State.Orderly.withCells (h : s.Orderly M L) {m : Memory}
    (hm : cellsWf s.mem.cells = true → cellsWf m.cells = true) : State.Orderly M L { s with mem := m } :=
  ⟨fun hM => hm (h.1 hM), h.2⟩

theorem State.Orderly.setCells (ht : t.Orderly M L) (hs : s.Orderly M L) {cs : List Host.Cell}
    (hcs : cellsWf s.mem.cells = true → cellsWf cs = true) : (t.setCells cs).Orderly M L :=
  ⟨fun hM => hcs (hs.1 hM), ht.2⟩

theorem State.Orderly.setByte (ht : t.Orderly M L) (hs : s.Orderly M L) (k : Nat) (b : Byte) :
    (t.setCells (setByte s.mem.cells k b)).Orderly M L :=
  ht.setCells hs (wf_setByte _ _ _)

theorem State.Orderly.setBytes (ht : t.Orderly M L) (hs : s.Orderly M L) (k : Nat) (bs : List Byte) :
    (t.setCells (setBytes s.mem.cells k bs)).Orderly M L :=
  ht.setCells hs (wf_setBytes _ _ _)

theorem State.Orderly.setMasked (ht : t.Orderly M L) (hs : s.Orderly M L) (k : Nat) (bs : List (Byte × Bool)) :
    (t.setCells (setMasked s.mem.cells k bs)).Orderly M L :=
  ht.setCells hs (wf_setMasked _ _ _)

theorem State.Orderly.zeroBytes (ht : t.Orderly M L) (hs : s.Orderly M L) (k n : Nat) :
    (t.setCells (zeroBytes s.mem.cells k n)).Orderly M L :=
  ht.setCells hs (wf_zeroBytes _ _ _)

/-- Host control with another log in order. -/
theorem State.Orderly.withLog (h : s.Orderly M L) {c : Control} (hq : c.queues = s.ctl.queues)
    (hc : s.LogInOrder → State.LogInOrder { s with ctl := c }) : State.Orderly M L { s with ctl := c } :=
  ⟨h.1, fun hL => ⟨hc (h.2 hL).1, by
    unfold State.RingsInOrder State.pair
    rw [hq]
    exact (h.2 hL).2⟩⟩

/-! ### The log (R391, R392) -/

/-- A fault record takes its place among the others by exchanging numbers, so that the numbers stay in order. -/
theorem placeFault_sorted {n : Nat} : ∀ {l : List LogRecord} {r : LogRecord}, l.Pairwise (fun a b => b.seq < a.seq) →
    (∀ x ∈ l, x.seq < r.seq) → r.seq < n →
    (placeFault r l).Pairwise (fun a b => b.seq < a.seq) ∧ (∀ x ∈ placeFault r l, x.seq ≤ r.seq)
  | [], r, _, _, _ => by simp [placeFault]
  | l :: older, r, hl, hr, hn => by
    obtain ⟨hhead, htail⟩ := List.pairwise_cons.mp hl
    have hlr : l.seq < r.seq := hr l (by simp)
    unfold placeFault
    split
    · obtain ⟨hp, hb⟩ := placeFault_sorted (r := { r with seq := l.seq }) (n := n) htail hhead (hlr.trans hn)
      refine ⟨List.pairwise_cons.mpr ⟨fun x hx => (hb x hx).trans_lt hlr, hp⟩, fun x hx => ?_⟩
      obtain rfl | hx := List.mem_cons.mp hx
      · exact le_rfl
      · exact (hb x hx).trans hlr.le
    · refine ⟨List.pairwise_cons.mpr ⟨hr, hl⟩, fun x hx => ?_⟩
      obtain rfl | hx := List.mem_cons.mp hx
      · exact le_rfl
      · exact (hr x hx).le

theorem length_placeFault (r : LogRecord) (l : List LogRecord) : (placeFault r l).length = l.length + 1 := by
  induction l generalizing r with
  | nil => rfl
  | cons p l ih =>
    unfold placeFault
    split
    · simp [ih]
    · rfl

theorem dropOldestEvent_sublist (l : List LogRecord) : (dropOldestEvent l).Sublist l := by
  induction l with
  | nil => exact List.Sublist.refl _
  | cons r l ih =>
    unfold dropOldestEvent
    split
    · exact List.sublist_cons_self r l
    · exact ih.cons_cons r

/-- A log with an event record makes room by dropping one. -/
theorem length_dropOldestEvent {l : List LogRecord} (h : l.any (fun x => x.kind == 2) = true) :
    (dropOldestEvent l).length + 1 = l.length := by
  induction l with
  | nil => cases h
  | cons r l ih =>
    unfold dropOldestEvent
    split
    · rfl
    · next hr =>
      have hl : l.any (fun x => x.kind == 2) = true := by simpa [hr] using h
      simp [ih hl]

/-- A record added to a log with room, under the next number. -/
theorem State.LogInOrder.add (h : s.LogInOrder) {old : List LogRecord} (hold : old.Sublist s.ctl.log)
    (hroom : old.length < logCapacity) {r : LogRecord} (hr : r.seq = s.ctl.nextSeq) :
    State.LogInOrder { s with ctl := { s.ctl with
      log := if r.kind = 1 then (placeFault r old.reverse).reverse else old ++ [r], nextSeq := s.ctl.nextSeq + 1 } } := by
  obtain ⟨hsorted, hbelow, -⟩ := h
  have hs : old.Pairwise (fun a b => a.seq < b.seq) := hsorted.sublist hold
  have hb : ∀ x ∈ old, x.seq < r.seq := fun x hx => hr ▸ hbelow x (hold.subset hx)
  by_cases hk : r.kind = 1
  · obtain ⟨hp, hle⟩ := placeFault_sorted (n := r.seq + 1) (List.pairwise_reverse.mpr hs)
      (fun x hx => hb x (List.mem_reverse.mp hx)) (Nat.lt_succ_self r.seq)
    refine ⟨?_, fun x hx => ?_, ?_⟩
    · simpa [hk, List.pairwise_reverse] using hp
    · have hx : x ∈ placeFault r old.reverse := by simpa [hk] using hx
      exact (hle x hx).trans_lt (hr ▸ Nat.lt_succ_self _)
    · simpa [hk, length_placeFault] using hroom
  · refine ⟨?_, fun x hx => ?_, ?_⟩
    · simpa [hk, List.pairwise_append] using ⟨hs, hb⟩
    · have hx : x ∈ old ∨ x = r := by simpa [hk] using hx
      obtain hx | rfl := hx
      · exact (hb x hx).trans (hr ▸ Nat.lt_succ_self _)
      · exact hr ▸ Nat.lt_succ_self _
    · simpa [hk] using hroom

theorem State.Orderly.bump (h : s.Orderly M L) (a : Nat) : (s.bump a).Orderly M L := h

theorem State.Orderly.logAppend (h : s.Orderly M L) (r : LogRecord) : (s.logAppend r).Orderly M L := by
  unfold State.logAppend
  extract_lets x ctl keep
  have hkeep (old : List LogRecord) (hold : old.Sublist s.ctl.log)
      (hroom : s.ctl.log.length ≤ logCapacity → old.length < logCapacity) : (keep old).Orderly M L :=
    h.withLog rfl fun hlog => hlog.add (r := x) hold (hroom hlog.2.2) rfl
  split
  · next hroom => exact hkeep _ (List.Sublist.refl _) fun _ => hroom
  · split
    · next hfull hevent =>
      obtain ⟨-, hany⟩ := (Bool.and_eq_true ..).mp hevent
      have hlen := length_dropOldestEvent hany
      exact (hkeep _ (dropOldestEvent_sublist _) fun hcap => by omega).bump _
    · exact h.bump _

/-! ### Queue pairs (R395, R398) -/

/-- The heads and tails of one pair, if it is enabled, name entries of its rings. -/
def QueuePair.InOrder (p : QueuePair) : Prop :=
  p.enable = true → p.sqTail < 2 ^ p.sqExp ∧ p.sqHead < 2 ^ p.sqExp ∧ p.cqTail < 2 ^ p.cqExp ∧ p.cqHead < 2 ^ p.cqExp

theorem pair_setPair (s : State) (q : Nat) (p : QueuePair) (j : Nat) :
    (s.setPair q p).pair j = if j = q then p else s.pair j := tget_tputD ..

theorem State.Orderly.setPair (ht : t.Orderly M L) (hs : s.Orderly M L) (q : Nat) {p : QueuePair}
    (hp : s.RingsInOrder → p.InOrder) : (t.setPair q p).Orderly M L := by
  refine ⟨ht.1, fun hL => ⟨(ht.2 hL).1, fun j => ?_⟩⟩
  rw [pair_setPair]
  split
  · exact hp (hs.2 hL).2
  · exact (ht.2 hL).2 j

theorem QueuePair.inOrder_of_disabled {p : QueuePair} (h : p.enable = false) : p.InOrder := by
  unfold QueuePair.InOrder
  simp [h]

/-- After a reset the log is empty and no queue pair is enabled. -/
theorem State.inOrder_of_empty (hlog : s.ctl.log = []) (hqueues : s.ctl.queues = []) : s.LogInOrder ∧ s.RingsInOrder := by
  refine ⟨?_, fun q => ?_⟩
  · unfold State.LogInOrder
    simp [hlog]
  · have hp : s.pair q = QueuePair.reset := by
      unfold State.pair
      rw [hqueues]
      rfl
    rw [hp]
    exact QueuePair.inOrder_of_disabled rfl

end

end Sys2Proof.Machine

end

section

/-!
Each operation of the model that stores bytes or writes host control keeps the two invariants: one lemma each, in the order of
the model. An operation whose frame lemma leaves both alone needs none.
-/

namespace Sys2Proof.Machine

section
variable {M L : Prop}

theorem State.Orderly.draw {s : State} (h : s.Orderly M L) : s.draw.2.Orderly M L :=
  h.otherCtl

theorem State.Orderly.event {s : State} (h : s.Orderly M L) (cls : Nat) (inst : Nat) (bit : Nat) (addr : Nat) :
    (s.event cls inst bit addr).Orderly M L := by
  unfold State.event
  extract_lets s1 s11 s2
  have hs1 : s1.Orderly M L := h.of_hide (State.setReg_hide _ rfl ..)
  have hs11 : s11.Orderly M L := hs1.of_hide (State.bump_hide _ rfl ..)
  have hs2 : s2.Orderly M L := hs11.of_hide (State.setReg_hide _ rfl ..)
  split
  · split
    · exact hs11
    · split
      · exact hs2
      · exact hs2.logAppend ..
  · exact hs1

theorem State.Orderly.pail {s : State} (h : s.Orderly M L) (cls : Nat) (inst : Nat) (addr : Nat) :
    (s.pail cls inst addr).Orderly M L := by
  unfold State.pail
  extract_lets v level ovf
  split
  · exact h.of_hide (State.setReg_hide _ rfl ..)
  · exact (h.of_hide (State.setReg_hide _ rfl ..)).event ..

theorem State.Orderly.correct {s : State} (h : s.Orderly M L) (st : Nat) (off : Nat) :
    (s.correct st off).Orderly M L := by
  unfold State.correct
  exact (h.of_hide (by simp)).pail ..

theorem State.Orderly.codeUnit {c : Coded} (h : c.s.Orderly M L) {bad : State → Nat → State}
    (hbad : ∀ (t : State) (o : Nat), t.Orderly M L → (bad t o).Orderly M L) (blk o n : Nat) (v : Verdict) :
    (codeUnit bad blk o n v c).s.Orderly M L := by
  unfold Machine.codeUnit
  extract_lets off st m lost d bs s1
  have hd : d.2.Orderly M L := h.draw
  have hs1 : s1.Orderly M L := hd.of_hide (State.setErr_hide _ rfl ..)
  split
  · exact h
  · exact ((h.of_hide (State.setErr_hide _ rfl ..)).of_hide (State.encoded_hide _ rfl ..)).correct ..
  · exact hbad _ _ h
  · split
    · exact hbad _ _ hd
    · exact ((hs1.setBytes hs1 ..).of_hide (State.encoded_hide _ rfl ..)).correct ..
    · exact hd

theorem State.Orderly.readBlockBy {s : State} (h : s.Orderly M L) {bad : State → Nat → State}
    (hbad : ∀ (t : State) (o : Nat), t.Orderly M L → (bad t o).Orderly M L) (blk : Nat) :
    (s.readBlockBy bad blk).s.Orderly M L := by
  unfold State.readBlockBy
  extract_lets code
  split
  · exact State.Orderly.codeUnit h hbad ..
  · split
    · exact h
    · exact List.foldlRecOn (motive := fun g : Coded => State.Orderly M L g.s) _ _ h
        (fun g hg x _ => State.Orderly.codeUnit hg hbad ..)

theorem State.Orderly.writeBlock {s : State} (h : s.Orderly M L) (off : Nat) (bs : List Byte) :
    (s.writeBlock off bs).Orderly M L := by
  unfold State.writeBlock
  have hcells := h.withCells (m := { s.mem with cells := Machine.setBytes s.mem.cells off bs, errs := tdel s.mem.errs (off / 64) })
    (wf_setBytes _ _ _)
  exact (hcells.of_hide (State.encoded_hide _ rfl ..)).of_hide (State.invalidate_hide _ rfl ..)

theorem State.Orderly.editJournal {s : State} (h : s.Orderly M L) (stack shard w : Nat) (f : Nat → Nat) :
    (s.editJournal stack shard w f).Orderly M L := by
  unfold State.editJournal
  split
  · exact h
  · extract_lets c whole
    have hc : c.s.Orderly M L := h.readBlockBy (fun t o ht => ht.of_hide (State.oweBad_hide _ rfl ..)) ..
    split
    · exact hc.writeBlock ..
    · exact hc

theorem State.Orderly.setJournalWord {s : State} (h : s.Orderly M L) (stack : Nat) (shard : Nat) (w : Nat) (v : Nat) :
    (s.setJournalWord stack shard w v).Orderly M L := by
  unfold State.setJournalWord
  exact h.editJournal ..

theorem State.Orderly.setJournal {s : State} (h : s.Orderly M L) (stack : Nat) (shard : Nat) (w : Nat) (hi : Nat) (lo : Nat) (v : Nat) :
    (s.setJournal stack shard w hi lo v).Orderly M L := by
  unfold State.setJournal
  exact h.editJournal ..

theorem State.Orderly.stopSep {s : State} (h : s.Orderly M L) (i : Nat) :
    (s.stopSep i).Orderly M L := by
  unfold State.stopSep
  extract_lets u ids s1
  have hs1 : s1.Orderly M L := h.of_hide (State.dropRequests_hide _ rfl ..)
  split
  · exact hs1.of_hide (State.setSep_hide _ rfl ..)
  · extract_lets s2 s22 src s3
    have hs2 : s2.Orderly M L := hs1.of_hide (State.dropRequests_hide _ rfl ..)
    have hs22 : s22.Orderly M L := (hs2.setJournal ..).setJournal ..
    have hs3 : s3.Orderly M L := by
      unfold s3
      refine State.Orderly.of_hide ?_ (State.setUpd_hide _ rfl ..)
      split
      · exact hs22.of_hide (State.hostDone_hide _ rfl ..)
      · exact hs22
    split
    · exact hs1.of_hide (State.setSep_hide _ rfl ..)
    · exact hs3.of_hide (by simp)

theorem State.Orderly.stopBases {s : State} (h : s.Orderly M L) :
    s.stopBases.Orderly M L := by
  unfold State.stopBases
  exact .foldl (fun u x hu => (hu.stopSep ..).of_hide (State.stopUpd_hide _ rfl ..)) h _

theorem State.Orderly.planStop {s : State} (h : s.Orderly M L) :
    s.planStop.Orderly M L := by
  unfold State.planStop
  extract_lets s1 src
  have hs1 : s1.Orderly M L := (h.of_hide (State.cutWaits_hide _ rfl ..)).stopBases
  exact hs1.others

theorem State.Orderly.faultRecord {s : State} (h : s.Orderly M L) (f : FaultAt) (first : Bool) :
    (s.faultRecord f first).Orderly M L := by
  unfold State.faultRecord
  exact ((h.logAppend ..).of_hide (State.bump_hide _ rfl ..)).event ..

theorem State.Orderly.raise {s : State} (h : s.Orderly M L) (f : FaultAt) (dangerous : Bool) :
    (s.raise f dangerous).Orderly M L := by
  unfold State.raise
  extract_lets runs s1 s2
  have hs1 : s1.Orderly M L := h.faultRecord ..
  have hs2 : s2.Orderly M L := by
    unfold s2
    split
    · exact hs1.of_hide (State.detect_hide _ rfl ..)
    · exact hs1
  split
  · exact hs2.planStop
  · exact hs2

theorem State.Orderly.phaseLost {s : State} (h : s.Orderly M L) :
    s.phaseLost.Orderly M L := by
  unfold State.phaseLost
  extract_lets src
  split
  · exact (h.raise ..).of_hide (State.setClock_hide _ rfl ..)
  · exact h

theorem State.Orderly.seedAll {s : State} (h : s.Orderly M L) :
    s.seedAll.Orderly M L := by
  unfold State.seedAll
  extract_lets src
  exact h.otherCtl

theorem State.Orderly.reseed {s : State} (h : s.Orderly M L) (i : Nat) :
    (s.reseed i).Orderly M L := by
  unfold State.reseed
  extract_lets d src src1
  have hd : d.2.Orderly M L := h.draw
  have hsrc : src.Orderly M L := hd
  exact hsrc.others

theorem State.Orderly.uncorrectable {s : State} (h : s.Orderly M L) (r : Reader) (st : Nat) (off : Nat) :
    (s.uncorrectable r st off).Orderly M L := by
  unfold State.uncorrectable
  extract_lets set s1 s2 src
  have hs1 : s1.Orderly M L := h.of_hide (by simp [s1])
  have hs2 : s2.Orderly M L := by
    unfold s2
    split
    · exact hs1.event ..
    · exact hs1
  split
  · exact hs2.raise ..
  · exact hs2

theorem State.Orderly.readBlock {s : State} (h : s.Orderly M L) (r : Reader) (blk : Nat) :
    (s.readBlock r blk).s.Orderly M L := by
  unfold State.readBlock
  exact h.readBlockBy (fun t o ht => ht.uncorrectable ..) ..

theorem State.Orderly.fillLine {s : State} (h : s.Orderly M L) (r : Reader) (l : Nat) (fresh : Bool) :
    ((s.fillLine r l fresh).s).Orderly M L := by
  unfold State.fillLine
  extract_lets a b c q k s1 k1
  have ha : a.s.Orderly M L := h.readBlock ..
  have hb : b.s.Orderly M L := ha.readBlock ..
  have hc : c.s.Orderly M L := by
    unfold c
    dsimp only
    exact hb
  have hs1 : s1.Orderly M L := hc.of_hide (State.setCache_hide _ rfl ..)
  split
  · split
    · exact hs1
    · extract_lets m
      dsimp only
      exact hs1.of_hide (by simp)
  · exact hc

theorem State.Orderly.prefetch {s : State} (h : s.Orderly M L) (q : Nat) (l : Nat) (stride : Int) :
    (s.prefetch q l stride).Orderly M L := by
  unfold State.prefetch
  refine .foldl (fun u x hu => ?_) h _
  extract_lets n k
  split
  · exact hu
  · exact (hu.of_hide (State.bump_hide _ rfl ..)).fillLine ..

theorem State.Orderly.stream {s : State} (h : s.Orderly M L) (q : Nat) (l : Nat) (miss : Bool) :
    (s.stream q l miss).Orderly M L := by
  unfold State.stream
  extract_lets p src s1
  have hs1 : s1.Orderly M L := h.of_hide (State.setCache_hide _ rfl ..)
  split
  · split
    · exact hs1
    · exact hs1.prefetch ..
  · exact h

theorem State.Orderly.readLine {s : State} (h : s.Orderly M L) (r : Reader) (l : Nat) :
    ((s.readLine r l).s).Orderly M L := by
  unfold State.readLine
  extract_lets q c miss refetch was s1 s2 s3 s4 m fixed wrong d
  have hs1 : s1.Orderly M L := h.of_hide (State.bump_hide _ rfl ..)
  have hs2 : s2.Orderly M L := by
    unfold s2
    split
    · exact hs1.of_hide (State.bump_hide _ rfl ..)
    · exact hs1
  have hs3 : s3.Orderly M L := hs2.of_hide (State.setCache_hide _ rfl ..)
  have hs4 : s4.Orderly M L := by
    unfold s4
    split
    · exact hs3.stream ..
    · exact hs3
  have hd : d.2.Orderly M L := hs4.draw
  split
  · split
    · exact hs4
    · dsimp only
      refine State.Orderly.pail ?_ ..
      refine State.Orderly.of_hide ?_ (State.bump_hide _ rfl ..)
      dsimp only [fixed]
      exact hs4.of_hide (State.setCache_hide _ rfl ..)
    · dsimp only [refetch]
      exact ((hs4.of_hide (by simp)).pail ..).fillLine ..
    · split
      · dsimp only [refetch]
        exact ((hd.of_hide (by simp)).pail ..).fillLine ..
      · dsimp only
        refine State.Orderly.pail ?_ ..
        refine State.Orderly.of_hide ?_ (State.bump_hide _ rfl ..)
        dsimp only [fixed]
        exact hd.of_hide (State.setCache_hide _ rfl ..)
      · exact hd
  · dsimp only [miss]
    exact ((h.of_hide (State.bump_hide _ rfl ..)).fillLine ..).stream ..

theorem State.Orderly.readHbm {s : State} (h : s.Orderly M L) (r : Reader) (off : Nat) (n : Nat) :
    ((s.readHbm r off n).s).Orderly M L := by
  unfold State.readHbm
  split
  · exact h
  · refine State.Orderly.of_hide ?_ (finishRead_hide _ rfl ..)
    refine List.foldlRecOn (motive := fun g : Coded => State.Orderly M L g.s) _ _ ?_ (fun g hg x _ => ?_)
    · exact h
    · extract_lets d
      have hd : d.s.Orderly M L := hg.readLine ..
      split
      · exact hg
      · exact hd

theorem State.Orderly.readStack {s : State} (h : s.Orderly M L) (r : Reader) (off : Nat) (n : Nat) :
    ((s.readStack r off n).s).Orderly M L := by
  unfold State.readStack
  extract_lets lo hi hit blocks
  split
  · exact h
  · refine State.Orderly.of_hide ?_ (finishRead_hide _ rfl ..)
    refine List.foldlRecOn (motive := fun g : Coded => State.Orderly M L g.s) _ _ ?_ (fun g hg x _ => ?_)
    · exact h
    · extract_lets d
      have hd : d.s.Orderly M L := hg.readBlock ..
      split
      · exact hg
      · exact hd

theorem State.Orderly.readUnit {s : State} (h : s.Orderly M L) (r : Reader) (off : Nat) :
    (s.readUnit r off).s.Orderly M L := by
  unfold State.readUnit
  extract_lets blk
  split
  · exact h.readBlock ..
  · split
    · exact h
    · exact State.Orderly.codeUnit (c := ⟨s, [], []⟩) h (fun t o ht => ht.uncorrectable ..) ..

theorem State.Orderly.mergeUnit {s : State} (h : s.Orderly M L) (r : Reader) (off : Nat) :
    ((s.mergeUnit r off).1).Orderly M L := by
  unfold State.mergeUnit
  extract_lets u s1 c mine
  have hs1 : s1.Orderly M L := h.of_hide (State.bump_hide _ rfl ..)
  have hc : c.s.Orderly M L := hs1.readUnit ..
  split
  · exact hc
  · exact .foldl (fun u x hu => hu.setByte hu ..) hc _

theorem State.Orderly.storeHbm {s : State} (h : s.Orderly M L) (off : Nat) (bs : List Byte) :
    (s.storeHbm off bs).Orderly M L := by
  unfold State.storeHbm
  split
  · exact h
  · exact ((h.of_hide (by simp)).setBytes h ..).of_hide (State.encodeRun_hide _ rfl ..)

theorem State.Orderly.writeHbm {s : State} (h : s.Orderly M L) (r : Reader) (off : Nat) (bs : List Byte) :
    ((s.writeHbm r off bs).s).Orderly M L := by
  unfold State.writeHbm
  extract_lets n u0 last u1 p0 a p1 b
  have ha : a.1.Orderly M L := by
    unfold a
    split
    · exact h.mergeUnit ..
    · exact h
  have hb : b.1.Orderly M L := by
    unfold b
    split
    · exact ha.mergeUnit ..
    · exact ha
  split
  · exact h
  · split
    · exact ha
    · split
      · exact hb.storeHbm ..
      · exact hb.storeHbm ..

theorem State.Orderly.writeStack {s : State} (h : s.Orderly M L) (r : Reader) (off : Nat) (bs : List Byte) :
    ((s.writeStack r off bs).s).Orderly M L := by
  unfold State.writeStack
  extract_lets p
  have hp : p.s.Orderly M L := h.writeHbm ..
  dsimp only
  exact hp.of_hide (State.invalidate_hide _ rfl ..)

theorem State.Orderly.flipLp {s : State} (h : s.Orderly M L) (off : Nat) :
    ((s.flipLp off).1).Orderly M L := by
  unfold State.flipLp
  extract_lets c s1 fix d
  have hs1 : s1.Orderly M L := h.of_hide (State.disarm_hide _ rfl ..)
  have hd : d.2.Orderly M L := hs1.draw
  split
  · exact h
  · extract_lets n
    split
    · exact hs1
    · split
      · dsimp only
        dsimp only [fix]
        exact (hs1.of_hide (State.bump_hide _ rfl ..)).pail ..
      · split
        · exact hd.of_hide (State.bump_hide _ rfl ..)
        · dsimp only
          dsimp only [fix]
          exact (hd.of_hide (State.bump_hide _ rfl ..)).pail ..
        · split
          · dsimp only
            dsimp only [fix]
            exact (hd.of_hide (State.bump_hide _ rfl ..)).pail ..
          · exact hd

theorem State.Orderly.lpFail {s : State} (h : s.Orderly M L) (r : Reader) (off : Nat) :
    (s.lpFail r off).Orderly M L := by
  unfold State.lpFail
  extract_lets c s1 src
  have hs1 : s1.Orderly M L := h.of_hide (by simp [s1])
  exact (hs1.of_hide (State.setReg_hide _ rfl ..)).raise ..

theorem State.Orderly.readLp {s : State} (h : s.Orderly M L) (off : Nat) (n : Nat) (r : Reader) :
    ((s.readLp off n r).s).Orderly M L := by
  unfold State.readLp
  extract_lets f d
  have hf : f.1.Orderly M L := h.flipLp ..
  have hd : d.2.Orderly M L := hf.draw
  split
  · exact h
  · split
    · exact hf.lpFail ..
    · split
      · exact hd
      · exact hf

theorem State.Orderly.mergeLp {s : State} (h : s.Orderly M L) (r : Reader) (u : Nat) :
    ((s.mergeLp r u).1).Orderly M L := by
  unfold State.mergeLp
  extract_lets s1 g
  have hs1 : s1.Orderly M L := h.of_hide (State.bump_hide _ rfl ..)
  have hg : g.s.Orderly M L := hs1.readLp ..
  dsimp only
  exact hg.setBytes hg ..

theorem State.Orderly.writeLp {s : State} (h : s.Orderly M L) (off : Nat) (bs : List Byte) (r : Reader) :
    ((s.writeLp off bs r).s).Orderly M L := by
  unfold State.writeLp
  extract_lets t
  have ht : t.1.Orderly M L := by
    unfold t
    refine List.foldlRecOn (motive := fun g : State × Option Nat => State.Orderly M L g.1) _ _ ?_ (fun g hg x _ => ?_)
    · exact h
    · extract_lets m
      have hm : m.1.Orderly M L := hg.mergeLp ..
      split
      · exact hg
      · exact hm
  split
  · exact ht.setBytes ht ..
  · exact ht.setBytes ht ..

theorem State.Orderly.readMem {s : State} (h : s.Orderly M L) (r : Reader) (space : Nat) (off : Nat) (n : Nat) :
    ((s.readMem r space off n).s).Orderly M L := by
  unfold State.readMem
  split
  · exact h.readHbm ..
  · exact h.readLp ..

theorem State.Orderly.writeMem {s : State} (h : s.Orderly M L) (r : Reader) (space : Nat) (off : Nat) (bs : List Byte) :
    ((s.writeMem r space off bs).s).Orderly M L := by
  unfold State.writeMem
  split
  · exact h.writeHbm ..
  · exact h.writeLp ..

theorem State.Orderly.flipScratch {s : State} (h : s.Orderly M L) (core : Nat) (off : Nat) :
    (s.flipScratch core off).Orderly M L := by
  unfold State.flipScratch
  split
  · exact h
  · extract_lets lane s1
    have hs1 : s1.Orderly M L := h.of_hide (State.disarm_hide _ rfl ..)
    split
    · refine .foldl (fun u x hu => ?_) hs1 _
      extract_lets k x1 odd t src
      have ht : t.Orderly M L := hu.setByte hu ..
      split
      · exact ht.otherMem
      · exact ht
    · exact h

theorem State.Orderly.writeScratch {s : State} (h : s.Orderly M L) (core : Nat) (off : Nat) (bs : List (Byte × Bool)) :
    (s.writeScratch core off bs).Orderly M L := by
  unfold State.writeScratch
  extract_lets k s1 src s2
  have hs1 : s1.Orderly M L := h.setMasked h ..
  have hs2 : s2.Orderly M L := hs1.otherMem
  split
  · exact h
  · exact hs2.flipScratch ..

theorem State.Orderly.rerunAt {s : State} (h : s.Orderly M L) (c : Nat) (g : Seg) (mem : Nat) (core : Nat) (off : Nat) :
    (s.rerunAt c g mem core off).Orderly M L := by
  unfold State.rerunAt
  extract_lets addr noSource
  split
  · exact h.raise ..
  · split
    · exact h.raise ..
    · exact h.of_hide (by simp)

theorem State.Orderly.rerun {s : State} (h : s.Orderly M L) (c : Nat) (g : Seg) (mem : Nat) (core : Nat) (off : Nat) :
    (s.rerun c g mem core off).Orderly M L := by
  unfold State.rerun
  exact (h.of_hide (State.parityHit_hide _ rfl ..)).rerunAt ..

theorem State.Orderly.snagged {s : State} (h : s.Orderly M L) (c : Nat) (g : Seg) (x : Snag) :
    (s.snagged c g x).Orderly M L := by
  unfold State.snagged
  split
  · exact h.raise ..
  · exact h.raise ..
  · exact h.rerun ..

theorem State.Orderly.restart {s : State} (h : s.Orderly M L) (c : Nat) (g : Seg) :
    (s.restart c g).Orderly M L := by
  unfold State.restart
  extract_lets t src g1
  have ht : t.1.Orderly M L := by
    unfold t
    split
    · exact h.of_hide (State.readTables_hide _ rfl ..)
    · exact h
  split
  · exact ht.snagged ..
  · exact ht.of_hide (by simp)

theorem State.Orderly.shadowLoad {s : State} (h : s.Orderly M L) (c : Nat) :
    (s.shadowLoad c).Orderly M L := by
  unfold State.shadowLoad
  split
  · exact h
  · split
    · extract_lets d turned t l f s1 s2 s3 side s4 base s5 dr
      have ht : t.1.Orderly M L := by
        unfold t
        split
        · exact h.of_hide (by simp)
        · exact h
      have hf : f.1.Orderly M L := ht.of_hide (State.farReads_hide _ rfl ..)
      have hs1 : s1.Orderly M L := hf
      have hs2 : s2.Orderly M L := hs1.of_hide (State.bump_hide _ rfl ..)
      have hs3 : s3.Orderly M L := by
        unfold s3
        split
        · split
          · exact hs2.of_hide (State.bump_hide _ rfl ..)
          · exact hs2
        · exact hs1
      have hs4 : s4.Orderly M L := by
        unfold s4
        split
        · exact hs3.of_hide (State.bumpBy_hide _ rfl ..)
        · exact hs3
      have hs5 : s5.Orderly M L := by
        unfold s5
        split
        · exact hs4.of_hide (State.bump_hide _ rfl ..)
        · exact hs4
      have hdr : dr.1.Orderly M L := hs5.of_hide (State.countDrops_hide _ rfl ..)
      split
      · exact h
      · split
        · exact ht.snagged ..
        · split
          · exact hdr.raise ..
          · exact hdr.of_hide (State.setSeg_hide _ rfl ..)
    · exact h

theorem State.Orderly.addChunk {s : State} (h : s.Orderly M L) (c : Nat) (g : Seg) (t : Tile) (a : Adds) (rows : Nat) :
    (s.addChunk c g t a rows).Orderly M L := by
  unfold State.addChunk
  extract_lets win esc s1 s2 fl s3 s4
  have hs1 : s1.Orderly M L := h.of_hide (by simp [s1])
  have hs2 : s2.Orderly M L := hs1.of_hide (State.bumpSat_hide _ rfl ..)
  have hfl : fl.1.Orderly M L := hs2.of_hide (State.flipVat_hide _ rfl ..)
  have hs3 : s3.Orderly M L := hfl.of_hide (State.setSeg_hide _ rfl ..)
  have hs4 : s4.Orderly M L := by
    unfold s4
    exact .foldl (fun u x hu => hu.raise ..) hs3 _
  split
  · exact hs4.raise ..
  · exact hs4

theorem State.Orderly.chunkSum {s : State} (h : s.Orderly M L) (c : Nat) :
    (s.chunkSum c).Orderly M L := by
  unfold State.chunkSum
  split
  · exact h
  · split
    · extract_lets d e m opens acc strip tb bad snag f s1 o s2 src g1 adds src1 t
      have hstrip : ∀ u : State, u.Orderly M L → (strip u).Orderly M L := by
        intro u hu
        unfold strip
        split
        · exact hu.of_hide (State.fillTbuf_hide _ rfl ..)
        · exact hu
      have htb : tb.1.Orderly M L := by
        unfold tb
        split
        · exact (hstrip s h).of_hide (State.tbufSnag_hide _ rfl ..)
        · exact h
      clear_value tb snag
      have hs1 : s1.Orderly M L := (htb.of_hide (State.farReads_hide _ rfl ..)).of_hide (State.countRow_hide _ rfl ..)
      have hs2 : s2.Orderly M L := by
        unfold s2 o
        split
        · exact hs1
        · exact hs1.of_hide (by simp)
      split
      · exact h
      · split
        · exact htb.snagged ..
        · split
          · exact (hs2.of_hide (State.bump_hide _ rfl ..)).raise ..
          · exact hs2.addChunk ..
    · exact h

theorem State.Orderly.signal {s : State} (h : s.Orderly M L) (core : Nat) (tok : Nat) :
    (s.signal core tok).Orderly M L := by
  unfold State.signal
  extract_lets k
  split
  · exact h.raise ..
  · exact h.of_hide (State.setCore_hide _ rfl ..)

theorem State.Orderly.issue {s : State} (h : s.Orderly M L) (c : Nat) (g : Seg) (fq : Nat) (tok : Nat) (what : ReqWhat) (count : Nat) (engine : Nat) (blocks : List Nat) (loops : List Nat) (counter : Nat) :
    (s.issue c g fq tok what count engine blocks loops counter).Orderly M L := by
  unfold State.issue
  extract_lets f k t s1 r src
  have hs1 : s1.Orderly M L := h.of_hide (by simp [s1])
  split
  · exact h.raise ..
  · split
    · exact h.raise ..
    · split
      · exact hs1.of_hide (State.requestDone_hide _ rfl ..)
      · exact hs1.others

theorem State.Orderly.issueFetch {s : State} (h : s.Orderly M L) (c : Nat) (g : Seg) (a : Nat) :
    (s.issueFetch c g a).Orderly M L := by
  unfold State.issueFetch
  extract_lets e n f blocks
  split
  · exact h.raise ..
  · split
    · exact h.raise ..
    · exact h.issue ..

theorem State.Orderly.issueList {s : State} (h : s.Orderly M L) (c : Nat) (g : Seg) :
    (s.issueList c g).Orderly M L := by
  unfold State.issueList
  refine .foldl (fun u x hu => ?_) h _
  extract_lets a
  split
  · exact hu
  · split
    · exact hu.raise ..
    · exact (hu.of_hide (State.parityHit_hide _ rfl ..)).raise ..
    · exact (hu.of_hide (State.farAccess_hide _ rfl ..)).issueFetch ..

theorem State.Orderly.requestFault {s : State} (h : s.Orderly M L) (r : Req) (code : Nat) (cls : Nat) (inst : Nat) (addr : Nat) :
    (s.requestFault r code cls inst addr).Orderly M L := by
  unfold State.requestFault
  exact (h.of_hide (State.dropRequest_hide _ rfl ..)).raise ..

theorem State.Orderly.failRequest {s : State} (h : s.Orderly M L) (code : Nat) (r : RemoteReq) :
    (s.failRequest code r).Orderly M L := by
  unfold State.failRequest
  extract_lets t
  have ht : t.Orderly M L := h.of_hide (State.dropRemote_hide _ rfl ..)
  split
  · split
    · exact ht
    · exact ht.requestFault ..
  · exact ht

theorem State.Orderly.putBytes {s : State} (h : s.Orderly M L) (core : Nat) (bs : List (Nat × Byte × Byte)) :
    (s.putBytes core bs).Orderly M L := by
  unfold State.putBytes
  refine .foldl (fun u x hu => ?_) h _
  extract_lets old
  exact hu.writeScratch ..

theorem State.Orderly.clearBlock {s : State} (h : s.Orderly M L) (blk : Nat) : (s.clearBlock blk).Orderly M L :=
  h.withCells (wf_zeroBytes _ _ _)

theorem State.Orderly.wholeBlocks {s : State} (h : s.Orderly M L) (c : Nat) (core : Nat) (seen : List Nat) (bs : List (Nat × Byte × Byte)) :
    ((s.wholeBlocks c core seen bs).1).Orderly M L := by
  unfold State.wholeBlocks
  extract_lets blocks
  dsimp only
  exact .foldl (fun u x hu => (hu.clearBlock ..).of_hide (State.bump_hide _ rfl ..)) h _

theorem State.Orderly.storeRow {s : State} (h : s.Orderly M L) (c : Nat) (g : Seg) (t : Tile) (base : Nat) (bs : List (Nat × Byte × Byte)) (pitch : Nat) (rowsBefore : Nat) (hasNext : Bool) :
    ((s.storeRow c g t base bs pitch rowsBefore hasNext).1).Orderly M L := by
  unfold State.storeRow
  extract_lets at_ part
  refine List.foldlRecOn (motive := fun g : State × List Nat × Option Snag => State.Orderly M L g.1) _ _ ?_ (fun g hg x _ => ?_)
  · exact h
  · split
    · exact hg
    · split
      · exact hg
      · extract_lets full s1 w
        have hs1 : s1.Orderly M L := by
          unfold s1
          split
          · exact hg
          · exact hg.of_hide (State.nocSend_hide _ rfl ..)
        have hw : w.1.Orderly M L := hs1.wholeBlocks ..
        split
        · exact hw.putBytes ..
        · split
          · exact hs1
          · exact (hs1.putBytes ..).of_hide (State.bumpBy_hide _ rfl ..)

theorem State.Orderly.countCompares {s : State} (h : s.Orderly M L) (c : Nat) (g : Seg) (cs : List Cmp) :
    (s.countCompares c g cs).Orderly M L := by
  unfold State.countCompares
  extract_lets s1 s2 bad s3
  have hs1 : s1.Orderly M L := h.of_hide (State.bumpBy_hide _ rfl ..)
  have hs2 : s2.Orderly M L := hs1.of_hide (State.bumpBy_hide _ rfl ..)
  have hs3 : s3.Orderly M L := hs2.of_hide (State.bumpBy_hide _ rfl ..)
  exact .foldl (fun u x hu => hu.raise ..) hs3 _

theorem State.Orderly.reseedAll {s : State} (h : s.Orderly M L) (c : Nat) :
    (s.reseedAll c).Orderly M L := by
  unfold State.reseedAll
  refine State.Orderly.of_hide ?_ (State.bumpBy_hide _ rfl ..)
  exact .foldl (fun u x hu => hu.reseed ..) h _

theorem State.Orderly.storeAt {s : State} (h : s.Orderly M L) (c : Nat) (a : Nat) (bs : List Byte) :
    ((s.storeAt c a bs).1).Orderly M L := by
  unfold State.storeAt
  extract_lets core at_ part s1
  have hs1 : s1.Orderly M L := by
    unfold s1
    split
    · exact h
    · exact h.of_hide (State.nocSend_hide _ rfl ..)
  split
  · exact h
  · split
    · exact h
    · exact (hs1.putBytes ..).of_hide (State.bumpBy_hide _ rfl ..)

theorem State.Orderly.closeTile {s : State} (h : s.Orderly M L) (c : Nat) (g : Seg) (t : Tile) :
    (s.closeTile c g t).Orderly M L := by
  unfold State.closeTile
  extract_lets d sum w s1 s2 s3 g1 s4 ext src fe
  have hw : w.1.Orderly M L := by
    unfold w
    split
    · exact h.storeAt ..
    · exact h
  have hs1 : s1.Orderly M L := hw
  have hs2 : s2.Orderly M L := hs1.of_hide (State.bump_hide _ rfl ..)
  have hs3 : s3.Orderly M L := by
    unfold s3
    split
    · split
      · exact hs2.of_hide (State.bump_hide _ rfl ..)
      · exact hs2
    · exact hs1
  have hs4 : s4.Orderly M L := hs3.of_hide (State.setSeg_hide _ rfl ..)
  split
  · exact hw.snagged ..
  · split
    · exact hs4.issue ..
    · exact hs4

theorem State.Orderly.drainTile {s : State} (h : s.Orderly M L) (c : Nat) (g : Seg) (t : Tile) (u : Upset) :
    (s.drainTile c g t u).Orderly M L := by
  unfold State.drainTile
  extract_lets d p vr bad ls acc snag vs bg s1 f s2 g1 g2 quiet r s3 s4 base off s5 bs band turned s6 held go sorted tb sorted1 g3 w cs t' s7
  have hs1 : s1.Orderly M L := h.reseedAll ..
  clear_value s1 snag
  have hs2 : s2.Orderly M L := (hs1.of_hide (State.farReads_hide _ rfl ..)).of_hide (State.bump_hide _ rfl ..)
  have hs3 : s3.Orderly M L := hs2.of_hide (State.drewRow_hide _ rfl ..)
  clear_value s3
  have hs4 : s4.Orderly M L := by
    unfold s4
    split
    · exact hs3
    · exact hs3.of_hide (State.countRounded_hide _ rfl ..)
  clear_value s4
  have hs5 : s5.Orderly M L := by
    unfold s5
    split
    · exact hs4.of_hide (State.bump_hide _ rfl ..)
    · exact hs4
  clear_value s5
  have hs6 : s6.Orderly M L := by
    unfold s6
    split
    · exact hs5.of_hide (State.bumpBy_hide _ rfl ..)
    · exact hs5
  clear_value s6
  have htb : tb.1.Orderly M L := by
    unfold tb
    split
    · exact hs6.of_hide (by simp)
    · exact hs6
  clear_value tb
  have hw : w.1.Orderly M L := by
    unfold w
    split
    · exact htb
    · split
      · exact htb
      · exact htb.storeRow ..
  clear_value w
  have hs7 : s7.Orderly M L := (hw.of_hide (State.setSeg_hide _ rfl ..)).countCompares ..
  clear_value s7
  split
  · exact hs1.snagged ..
  · split
    · exact hs1.rerunAt ..
    · split
      · exact hw.snagged ..
      · split
        · exact hs7
        · split
          · exact hs7.closeTile ..
          · exact hs7

theorem State.Orderly.rowPass {s : State} (h : s.Orderly M L) (c : Nat) (g : Seg) (p : Pt) (ps : List Pt) (u : Upset) :
    (s.rowPass c g p ps u).Orderly M L := by
  unfold State.rowPass
  extract_lets d e m ls acc snag vs bg s1 f s2 opens g1 g2 quiet lse r s3 s4 base s5 s6 bs g3 rows t0 base1 w ends t g4 s7 s8
  have hs1 : s1.Orderly M L := h.reseedAll ..
  clear_value s1 snag
  have hs2 : s2.Orderly M L := hs1.of_hide (State.farReads_hide _ rfl ..)
  clear_value s2
  have hs3 : s3.Orderly M L := by
    unfold s3
    split
    · exact hs2
    · exact hs2.of_hide (State.drewRow_hide _ rfl ..)
  clear_value s3
  have hs4 : s4.Orderly M L := by
    unfold s4
    split
    · exact hs3
    · exact hs3.of_hide (State.countRounded_hide _ rfl ..)
  clear_value s4
  have hs5 : s5.Orderly M L := by
    unfold s5
    split
    · exact hs4.of_hide (State.bump_hide _ rfl ..)
    · exact hs4
  clear_value s5
  have hs6 : s6.Orderly M L := by
    unfold s6
    split
    · exact hs5.of_hide (State.bump_hide _ rfl ..)
    · exact hs5
  clear_value s6
  have hw : w.1.Orderly M L := by
    unfold w
    split
    · exact hs6
    · exact hs6.storeRow ..
  clear_value w
  have hs7 : s7.Orderly M L := by
    unfold s7
    split
    · exact hw.of_hide (State.bump_hide _ rfl ..)
    · exact hw
  clear_value s7
  have hs8 : s8.Orderly M L := hs7.of_hide (State.setSeg_hide _ rfl ..)
  clear_value s8
  split
  · exact hs1.snagged ..
  · split
    · exact hs1.rerunAt ..
    · split
      · exact hw.snagged ..
      · split
        · exact hs8.closeTile ..
        · exact hs8

theorem State.Orderly.drainRow {s : State} (h : s.Orderly M L) (c : Nat) (u : Upset) :
    (s.drainRow c u).Orderly M L := by
  unfold State.drainRow
  extract_lets s1
  have hs1 : s1.Orderly M L := h.of_hide (State.upset_hide _ rfl ..)
  split
  · exact hs1.reseedAll ..
  · split
    · split
      · exact hs1.rowPass ..
      · exact hs1.reseedAll ..
    · split
      · exact hs1.drainTile ..
      · exact hs1.reseedAll ..

theorem State.Orderly.begin {s : State} (h : s.Orderly M L) (c : Nat) (g : Seg) :
    (s.begin c g).Orderly M L := by
  unfold State.begin
  split
  · exact h.raise ..
  · extract_lets works t src s1 s2
    have ht : t.1.Orderly M L := by
      unfold t
      split
      · exact h.of_hide (State.readTables_hide _ rfl ..)
      · exact h
    have hs1 : s1.Orderly M L := (ht.of_hide (State.setSeg_hide _ rfl ..)).issueList ..
    have hs2 : s2.Orderly M L := by
      unfold s2
      split
      · exact hs1.of_hide (rowPassCount_hide _ rfl ..)
      · exact hs1
    split
    · exact ht.snagged ..
    · split
      · exact hs1
      · split
        · exact hs2.snagged ..
        · exact hs2.of_hide (State.startAttempt_hide _ rfl ..)

theorem State.Orderly.releaseBoundary {s : State} (h : s.Orderly M L) (c : Nat) (i : Nat) (e : Entry) (slip : Nat) :
    (s.releaseBoundary c i e slip).Orderly M L := by
  unfold State.releaseBoundary
  extract_lets src s1 s2
  have hs1 : s1.Orderly M L := h.of_hide (by simp [s1])
  have hs2 : s2.Orderly M L := by
    unfold s2
    split
    · exact hs1.signal ..
    · exact hs1
  split
  · exact hs2.raise ..
  · exact hs2

theorem State.Orderly.releaseEntry {s : State} (h : s.Orderly M L) (c : Nat) (i : Nat) (e : Entry) :
    (s.releaseEntry c i e).Orderly M L := by
  unfold State.releaseEntry
  extract_lets slip src s1 d milk g s2
  have hs1 : s1.Orderly M L := h.of_hide (State.setCore_hide _ rfl ..)
  have hs2 : s2.Orderly M L := hs1.of_hide (by simp [s2])
  split
  · exact hs1.releaseBoundary ..
  · split
    · exact hs2.of_hide (State.setSeg_hide _ rfl ..)
    · exact hs2.begin ..

theorem State.Orderly.entryUnread {s : State} (h : s.Orderly M L) (c : Nat) (i : Nat) (e : Entry) (off : Nat) :
    (s.entryUnread c i e off).Orderly M L := by
  unfold State.entryUnread
  split
  · exact h
  · exact h.uncorrectable ..

theorem State.Orderly.release {s : State} (h : s.Orderly M L) (c : Nat) (r : EntryRead) :
    (s.release c r).Orderly M L := by
  unfold State.release
  split
  · extract_lets s1
    have hs1 : s1.Orderly M L := h.of_hide (State.entryFetched_hide _ rfl ..)
    split
    · split
      · exact hs1.releaseEntry ..
      · exact hs1.of_hide (State.refetchEntry_hide _ rfl ..)
      · exact hs1.entryUnread ..
    · exact h
  · exact h

theorem State.Orderly.writePair {s : State} (h : s.Orderly M L) (c : Nat) (g : Seg) (at_ : Nat) (p : Nat × Nat) :
    ((s.writePair c g at_ p).1).Orderly M L := by
  have hw := h.storeAt c (spAdd g.desc.addrs.statOut (8 * at_ : Nat)) (leBytes 4 p.1 ++ leBytes 4 p.2)
  rw [State.writePair]
  dsimp only
  split
  · exact hw
  · split
    · exact (hw.of_hide (State.bump_hide _ rfl ..)).of_hide (State.bump_hide _ rfl ..)
    · exact hw.of_hide (State.bump_hide _ rfl ..)

theorem State.Orderly.writeStats {s : State} (h : s.Orderly M L) (c : Nat) (seg : Seg) :
    ((s.writeStats c seg).1).Orderly M L := by
  unfold State.writeStats
  refine List.foldlRecOn (motive := fun g : State × Seg × Option Snag => State.Orderly M L g.1) _ _ h (fun g hg x _ => ?_)
  split
  · exact hg
  · split
    · next t x' hw =>
      have ht := hg.writePair c seg x.1 (statWords seg.desc.modes.rowStat seg.desc.addrs.statEps.toNat x.2)
      rwa [hw] at ht
    · next t hw =>
      have ht := hg.writePair c seg x.1 (statWords seg.desc.modes.rowStat seg.desc.addrs.statEps.toNat x.2)
      rwa [hw] at ht

theorem State.Orderly.milkEnd {s : State} (h : s.Orderly M L) (c : Nat) (g : Seg) :
    (s.milkEnd c g).Orderly M L := by
  unfold State.milkEnd
  split
  · exact h
  · extract_lets s1 s2 src
    have hs1 : s1.Orderly M L := h.of_hide (State.bump_hide _ rfl ..)
    have hs2 : s2.Orderly M L := by
      unfold s2
      split
      · exact hs1.of_hide (State.setReg_hide _ rfl ..)
      · exact hs1
    split
    · exact hs2.of_hide (State.setCore_hide _ rfl ..)
    · exact (h.of_hide (State.bump_hide _ rfl ..)).raise ..

theorem State.Orderly.pailHits {s : State} (h : s.Orderly M L) (c : Nat) (n : Nat) :
    (s.pailHits c n).Orderly M L := by
  unfold State.pailHits
  exact .foldl (fun u x hu => hu.pail ..) h _

theorem State.Orderly.segmentEnd {s : State} (h : s.Orderly M L) (c : Nat) :
    (s.segmentEnd c).Orderly M L := by
  unfold State.segmentEnd
  split
  · exact h
  · extract_lets w s1 s2
    have hw : w.1.Orderly M L := by
      unfold w
      split
      · exact h.writeStats ..
      · exact h
    have hs1 : s1.Orderly M L := hw.milkEnd ..
    have hs2 : s2.Orderly M L := (hs1.pailHits ..).of_hide (State.leaveCore_hide _ rfl ..)
    split
    · exact h
    · split
      · exact hw.snagged ..
      · split
        · exact hs1
        · split
          · exact hs2.signal ..
          · exact hs2

theorem State.Orderly.refetched {s : State} (h : s.Orderly M L) (c : Nat) :
    (s.refetched c).Orderly M L := by
  unfold State.refetched
  extract_lets n src
  exact (h.of_hide (State.setCore_hide _ rfl ..)).pailHits ..

theorem State.Orderly.stallClear {s : State} (h : s.Orderly M L) (c : Nat) (cause : StallCause) :
    (s.stallClear c cause).Orderly M L := by
  unfold State.stallClear
  extract_lets k
  split
  · exact h
  · extract_lets s1 h1 s2
    have hs1 : s1.Orderly M L := h.of_hide (State.setCore_hide _ rfl ..)
    have hs2 : s2.Orderly M L := hs1.of_hide (State.setHerd_hide _ rfl ..)
    split
    · exact hs2.refetched ..
    · exact hs2

theorem State.Orderly.late {s : State} (h : s.Orderly M L) (c : Nat) :
    (s.late c).Orderly M L := by
  unfold State.late
  split
  · exact h
  · split
    · split
      · exact h.raise ..
      · exact h
    · split
      · split
        · exact h.raise ..
        · exact h
      · exact h

theorem State.Orderly.firstMilk {s : State} (h : s.Orderly M L) (c : Nat) :
    (s.firstMilk c).Orderly M L := by
  unfold State.firstMilk
  split
  · split
    · exact h
    · extract_lets s1 d src g t s2 src1
      have hs1 : s1.Orderly M L := h.of_hide (State.selftestPassed_hide _ rfl ..)
      have ht : t.1.Orderly M L := hs1.of_hide (State.readTables_hide _ rfl ..)
      have hs2 : s2.Orderly M L := ht.of_hide (by simp [s2])
      split
      · exact hs2.snagged ..
      · exact hs2.of_hide (State.startAttempt_hide _ rfl ..)
  · exact h

theorem State.Orderly.readRuns {s : State} (h : s.Orderly M L) (r : Reader) (runs : List (Nat × Nat)) :
    ((s.readRuns r runs).s).Orderly M L := by
  unfold State.readRuns
  refine List.foldlRecOn (motive := fun g : Runs => State.Orderly M L g.s) _ _ ?_ (fun g hg x _ => ?_)
  · exact h
  · extract_lets g1
    have hg1 : g1.s.Orderly M L := hg.readStack ..
    split
    · exact hg
    · exact hg1

theorem State.Orderly.writeRuns {s : State} (h : s.Orderly M L) (r : Reader) (runs : List (Nat × List Byte)) :
    (s.writeRuns r runs).Orderly M L := by
  unfold State.writeRuns
  exact .foldl (fun u x hu => hu.writeStack ..) h _

theorem State.Orderly.cmdFault {s : State} (h : s.Orderly M L) (cls : Nat) (st : Nat) (c : BaseCmd) (code : Nat) (addr : Nat) (dangerous : Bool) :
    (s.cmdFault cls st c code addr dangerous).Orderly M L := by
  unfold State.cmdFault
  split
  · exact h.raise ..
  · exact h.raise ..
  · split
    · exact h.raise ..
    · split
      · exact h.faultRecord ..
      · exact h

theorem State.Orderly.cmdFail {s : State} (h : s.Orderly M L) (cls : Nat) (st : Nat) (c : BaseCmd) (code : Nat) (addr : Nat) (dangerous : Bool) :
    (s.cmdFail cls st c code addr dangerous).Orderly M L := by
  unfold State.cmdFail
  exact (h.of_hide (State.cmdEnd_hide _ rfl ..)).cmdFault ..

theorem State.Orderly.setEpoch {s : State} (h : s.Orderly M L) (st : Nat) (shard : Nat) (e : Nat) :
    (s.setEpoch st shard e).Orderly M L := by
  unfold State.setEpoch
  exact (h.setJournalWord ..).setJournalWord ..

theorem State.Orderly.setState {s : State} (h : s.Orderly M L) (st : Nat) (shard : Nat) (v : Nat) :
    (s.setState st shard v).Orderly M L := by
  unfold State.setState
  exact h.setJournal ..

theorem State.Orderly.setBatch {s : State} (h : s.Orderly M L) (st : Nat) (shard : Nat) (b : Nat) :
    (s.setBatch st shard b).Orderly M L := by
  unfold State.setBatch
  exact h.setJournal ..

theorem State.Orderly.inconsistent {s : State} (h : s.Orderly M L) (st : Nat) (shard : Nat) :
    (s.inconsistent st shard).Orderly M L := by
  unfold State.inconsistent
  exact h.setState ..

theorem State.Orderly.openJournal {s : State} (h : s.Orderly M L) (r : Reader) (st : Nat) (shard : Nat) :
    ((s.openJournal r st shard).1).Orderly M L := by
  unfold State.openJournal
  split
  · exact h
  · extract_lets g
    have hg : g.s.Orderly M L := h.readStack ..
    dsimp only
    exact hg

theorem State.Orderly.saveUndo {s : State} (h : s.Orderly M L) (st : Nat) (k : Nat) (r : Reader) (runs : List (Nat × Nat)) :
    ((s.saveUndo st k r runs).s).Orderly M L := by
  unfold State.saveUndo
  extract_lets d
  have hd : d.s.Orderly M L := h.readRuns ..
  split
  · exact hd
  · split
    · exact hd
    · exact hd.writeStack ..

theorem State.Orderly.restoreBatch {s : State} (h : s.Orderly M L) (st : Nat) (k : Nat) (r : Reader) (u : Undo) :
    ((s.restoreBatch st k r u).1).Orderly M L := by
  unfold State.restoreBatch
  split
  · exact h
  · extract_lets places d
    have hd : d.s.Orderly M L := h.readRuns ..
    split
    · exact hd
    · exact hd.writeRuns ..

theorem State.Orderly.endBatch {s : State} (h : s.Orderly M L) (st : Nat) (shard : Nat) :
    (s.endBatch st shard).Orderly M L := by
  unfold State.endBatch
  extract_lets t s1 src
  have ht : t.1.Orderly M L := by
    unfold t
    split
    · split
      · exact h.restoreBatch ..
      · exact h
    · exact h
  refine State.Orderly.of_hide ?_ (State.setUpd_hide _ rfl ..)
  unfold s1
  refine State.Orderly.setJournal ?_ ..
  split
  · exact ht
  · exact ht.inconsistent ..

theorem State.Orderly.paySep {s : State} (h : s.Orderly M L) (st : Nat) :
    (s.paySep st).Orderly M L := by
  unfold State.paySep
  split
  · exact h
  · exact h.endBatch ..

theorem State.Orderly.payOwed {s : State} (h : s.Orderly M L) :
    s.payOwed.Orderly M L := by
  unfold State.payOwed
  extract_lets s1 src
  have hs1 : s1.Orderly M L := by
    unfold s1
    exact .foldl (fun u x hu => hu.paySep ..) h _
  exact .foldl (fun u x hu => hu.uncorrectable ..) hs1.otherMem _

theorem State.Orderly.endSep {s : State} (h : s.Orderly M L) (st : Nat) :
    (s.endSep st).Orderly M L := by
  unfold State.endSep
  split
  · exact h
  · extract_lets src s1
    have hs1 : s1.Orderly M L := h.of_hide (State.setSep_hide _ rfl ..)
    split
    · exact hs1.of_hide (State.cmdEnd_hide _ rfl ..)
    · exact hs1.cmdFail ..

theorem State.Orderly.mirrorCommits {s : State} (h : s.Orderly M L) (m : Mirror) :
    (s.mirrorCommits m).Orderly M L := by
  unfold State.mirrorCommits
  extract_lets s1 s2
  have hs1 : s1.Orderly M L := (h.setEpoch ..).setJournalWord ..
  have hs2 : s2.Orderly M L := by
    unfold s2
    split
    · exact hs1.setState ..
    · exact hs1
  split
  · exact h
  · exact hs2.of_hide (State.forget_hide _ rfl ..)

theorem State.Orderly.mirrorMarks {s : State} (h : s.Orderly M L) (m : Mirror) (acked : Bool) :
    (s.mirrorMarks m acked).Orderly M L := by
  unfold State.mirrorMarks
  split
  · exact h
  · split
    · exact (h.setJournal ..).setJournal ..
    · exact h.setJournal ..

theorem State.Orderly.mirrorEnds {s : State} (h : s.Orderly M L) (m : Mirror) (acked : Bool) :
    (s.mirrorEnds m acked).Orderly M L := by
  unfold State.mirrorEnds
  extract_lets s1 s2 s3
  have hs1 : s1.Orderly M L := (h.others.mirrorCommits ..).mirrorMarks ..
  have hs2 : s2.Orderly M L := by
    unfold s2
    split
    · exact hs1.of_hide (State.bump_hide _ rfl ..)
    · exact (hs1.of_hide (State.bump_hide _ rfl ..)).event ..
  have hs3 : s3.Orderly M L := by
    unfold s3
    exact .foldl (fun u x hu => hu.of_hide (State.cmdEnd_hide _ rfl ..)) hs2 _
  split
  · exact hs3.endSep ..
  · split
    · exact hs3.of_hide (State.completed_hide _ rfl ..)
    · exact hs3.of_hide (State.needsNone_hide _ rfl ..)

theorem State.Orderly.startMirror {s : State} (h : s.Orderly M L) (st : Nat) (shard : Nat) (epoch : Nat) (step : Nat) (im : ImageOf) (r : Reader) (upds : List BaseCmd) (sep : Bool) (completing : Bool) :
    ((s.startMirror st shard epoch step im r upds sep completing).1).Orderly M L := by
  unfold State.startMirror
  extract_lets d image crc s1 s2 m
  have hd : d.s.Orderly M L := h.readRuns ..
  have hs1 : s1.Orderly M L := (hd.setJournalWord ..).setJournalWord ..
  have hs2 : s2.Orderly M L := by
    unfold s2
    split
    · exact hs1
    · exact hs1.setState ..
  split
  · exact hd
  · split
    · extract_lets s3
      have hs3 : s3.Orderly M L := hs2.of_hide (State.sendImage_hide _ rfl ..)
      dsimp only
      exact hs3.others
    · exact hs2.mirrorEnds ..

theorem State.Orderly.dropSep {s : State} (h : s.Orderly M L) (st : Nat) (c : BaseCmd) :
    (s.dropSep st c).Orderly M L := by
  unfold State.dropSep
  split
  · exact h
  · extract_lets src
    exact (h.of_hide (State.setSep_hide _ rfl ..)).setJournal ..

theorem State.Orderly.sepUnread {s : State} (h : s.Orderly M L) (st : Nat) (c : BaseCmd) (addr : Nat) :
    (s.sepUnread st c addr).Orderly M L := by
  unfold State.sepUnread
  split
  · split
    · exact h.of_hide (State.hostDone_hide _ rfl ..)
    · exact h
  · exact (h.dropSep ..).of_hide (State.cmdEnd_hide _ rfl ..)

theorem State.Orderly.supersede {s : State} (h : s.Orderly M L) (st : Nat) (shard : Nat) :
    ((s.supersede st shard).1).Orderly M L := by
  unfold State.supersede
  split
  · exact h
  · extract_lets s1
    have hs1 : s1.Orderly M L := h.mirrorEnds ..
    dsimp only
    exact hs1.others

theorem State.Orderly.sepFinish {s : State} (h : s.Orderly M L) (st : Nat) (r : SepRun) :
    (s.sepFinish st r).Orderly M L := by
  unfold State.sepFinish
  extract_lets c s1 src s2 s3 p e s4 src1 s5 im m
  have hs1 : s1.Orderly M L := h.setJournal ..
  have hs2 : s2.Orderly M L := hs1.of_hide (State.setUpd_hide _ rfl ..)
  have hs3 : s3.Orderly M L := hs2.setJournal ..
  have hp : p.1.Orderly M L := hs3.supersede ..
  have hs4 : s4.Orderly M L := hp.setEpoch ..
  have hs5 : s5.Orderly M L := hs4.of_hide (State.setSep_hide _ rfl ..)
  have hm : m.1.Orderly M L := hs5.startMirror ..
  split
  · exact hm
  · exact (hm.inconsistent ..).sepUnread ..

theorem State.Orderly.sepUndoBatch {s : State} (h : s.Orderly M L) (st : Nat) (r : SepRun) (ws : List (Nat × List Byte)) :
    ((s.sepUndoBatch st r ws).s).Orderly M L := by
  unfold State.sepUndoBatch
  extract_lets c d src s1
  have hd : d.s.Orderly M L := h.saveUndo ..
  have hs1 : s1.Orderly M L := hd.of_hide (State.setUpd_hide _ rfl ..)
  split
  · exact hd
  · exact (hs1.setJournal ..).setBatch ..

theorem State.Orderly.sepCheckFail {s : State} (h : s.Orderly M L) (st : Nat) (r : SepRun) (ga : Nat) :
    (s.sepCheckFail st r ga).Orderly M L := by
  unfold State.sepCheckFail
  extract_lets c s1 s2
  have hs1 : s1.Orderly M L := h.of_hide (State.bump_hide _ rfl ..)
  have hs2 : s2.Orderly M L := by
    unfold s2
    split
    · extract_lets t src
      have ht : t.Orderly M L := hs1.restoreBatch ..
      exact ht.of_hide (by simp)
    · exact hs1
  exact (hs2.dropSep ..).cmdFail ..

theorem State.Orderly.sepBatchDone {s : State} (h : s.Orderly M L) (st : Nat) (r : SepRun) (b : Batch) (n : Nat) :
    (s.sepBatchDone st r b n).Orderly M L := by
  unfold State.sepBatchDone
  extract_lets s1 first r1 src s2
  have hs1 : s1.Orderly M L := h.of_hide (State.countBatch_hide _ rfl ..)
  have hs2 : s2.Orderly M L := hs1.of_hide (State.setSep_hide _ rfl ..)
  split
  · exact hs2.sepFinish ..
  · exact hs2

theorem State.Orderly.sepBatch {s : State} (h : s.Orderly M L) (st : Nat) (wrong : List LaneError) :
    (s.sepBatch st wrong).Orderly M L := by
  unfold State.sepBatch
  split
  · exact h
  · extract_lets c n cands d b ws s1 u s2
    have hd : d.s.Orderly M L := h.readRuns ..
    have hs1 : s1.Orderly M L := hd.of_hide (State.bumpBy_hide _ rfl ..)
    have hu : u.s.Orderly M L := by
      unfold u
      split
      · exact hs1.sepUndoBatch ..
      · exact hs1
    have hs2 : s2.Orderly M L := hu.writeRuns ..
    split
    · exact h
    · split
      · exact hd.sepUnread ..
      · split
        · exact hu.sepUnread ..
        · split
          · exact hs2.sepCheckFail ..
          · exact hs2.sepBatchDone ..

theorem State.Orderly.zeroStack {s : State} (h : s.Orderly M L) (r : Reader) (off : Nat) (n : Nat) :
    (s.zeroStack r off n).Orderly M L := by
  unfold State.zeroStack
  extract_lets last u s1
  have hs1 : s1.Orderly M L := by
    unfold s1
    split
    · exact h
    · exact h.mergeUnit ..
  have hcleared : (clearErrs s1 off n).Orderly M L := hs1.of_hide (clearErrs_hide _ rfl ..)
  split
  · exact h
  · have hzeroed := (hcleared.of_hide (updateLines_hide _ rfl _ off n)).zeroBytes hs1 off n
    exact (hzeroed.of_hide (State.encodeRun_hide _ rfl ..)).of_hide (State.invalidate_hide _ rfl ..)

theorem State.Orderly.collectNow {s : State} (h : s.Orderly M L) (st : Nat) (c : BaseCmd) :
    (s.collectNow st c).Orderly M L := by
  unfold State.collectNow
  extract_lets g s1 u s2
  have hs1 : s1.Orderly M L := h.zeroStack ..
  have hs2 : s2.Orderly M L := hs1.of_hide (State.setSep_hide _ rfl ..)
  exact hs2.of_hide (by simp)

theorem State.Orderly.auditNow {s : State} (h : s.Orderly M L) (st : Nat) (c : BaseCmd) :
    (s.auditNow st c).Orderly M L := by
  unfold State.auditNow
  extract_lets g b runs d a s1 s2 s3
  have hd : d.s.Orderly M L := h.readRuns ..
  have hs1 : s1.Orderly M L := hd.of_hide (by simp [s1])
  have hs2 : s2.Orderly M L := hs1.writeStack ..
  have hs3 : s3.Orderly M L := hs2.of_hide (State.bump_hide _ rfl ..)
  split
  · exact hd.of_hide (State.cmdEnd_hide _ rfl ..)
  · split
    · exact hs2.of_hide (State.cmdEnd_hide _ rfl ..)
    · split
      · exact hs3.cmdFail ..
      · exact hs3.of_hide (State.cmdEnd_hide _ rfl ..)

theorem State.Orderly.sepGo {s : State} (h : s.Orderly M L) (st : Nat) (op : Nat) (c : BaseCmd) :
    (s.sepGo st op c).Orderly M L := by
  unfold State.sepGo
  extract_lets j
  have hj : j.1.Orderly M L := h.openJournal ..
  split
  · exact hj.of_hide (State.cmdEnd_hide _ rfl ..)
  · split
    · exact hj.cmdFail ..
    · split
      · exact hj.collectNow ..
      · split
        · exact hj.auditNow ..
        · exact hj.of_hide (State.startRewrite_hide _ rfl ..)

theorem State.Orderly.sepStart {s : State} (h : s.Orderly M L) (st : Nat) (op : Nat) :
    (s.sepStart st op).Orderly M L := by
  unfold State.sepStart
  extract_lets u
  split
  · extract_lets mine
    split
    · exact h
    · split
      · exact ((h.of_hide (State.setSep_hide _ rfl ..)).event ..).of_hide (State.cmdEnd_hide _ rfl ..)
      · split
        · exact (h.of_hide (State.setSep_hide _ rfl ..)).cmdFail ..
        · split
          · exact h
          · exact (h.of_hide (State.setSep_hide _ rfl ..)).sepGo ..
  · exact h

theorem State.Orderly.windowWrite {s : State} (h : s.Orderly M L) (cls : Nat) (st : Nat) (src : Issuer) (offset : Nat) (data : List Byte) :
    (s.windowWrite cls st src offset data).Orderly M L := by
  unfold State.windowWrite
  split
  · exact h.event ..
  · split
    · exact h
    · extract_lets c u u1
      split
      · exact h.of_hide (State.dropRequests_hide _ rfl ..)
      · split
        · exact (h.of_hide (State.arrived_hide _ rfl ..)).raise ..
        · split
          · split
            · exact h
            · exact h.of_hide (by simp)
          · split
            · exact h
            · exact h.of_hide (by simp)

theorem State.Orderly.intake {s : State} (h : s.Orderly M L) (st : Nat) (offset : Nat) (data : List Byte) :
    (s.intake st offset data).Orderly M L := by
  unfold State.intake
  extract_lets slot ga stray src
  have hstray : stray.Orderly M L := (h.of_hide (State.bump_hide _ rfl ..)).event ..
  split
  · exact h.of_hide (State.setSep_hide _ rfl ..)
  · split
    · exact hstray
    · extract_lets g d w new rec_ s1 src1
      have hd : d.s.Orderly M L := h.readRuns ..
      have hs1 : s1.Orderly M L := hd.writeStack ..
      split
      · exact hstray
      · split
        · exact hd
        · exact hs1.of_hide (by simp)

theorem State.Orderly.intakeRun {s : State} (h : s.Orderly M L) (st : Nat) (offset : Nat) (data : List Byte) :
    (s.intakeRun st offset data).Orderly M L := by
  unfold State.intakeRun
  extract_lets n
  split
  · exact h
  · refine .foldl (fun u x hu => ?_) h _
    extract_lets lo hi
    exact hu.intake ..

theorem State.Orderly.intakeHeld {s : State} (h : s.Orderly M L) (st : Nat) :
    (s.intakeHeld st).Orderly M L := by
  unfold State.intakeHeld
  extract_lets src
  exact .foldl (fun u x hu => hu.intake ..) (h.of_hide (State.setSep_hide _ rfl ..)) _

theorem State.Orderly.commitNow {s : State} (h : s.Orderly M L) (st : Nat) (r : UpdRun) :
    (s.commitNow st r).Orderly M L := by
  unfold State.commitNow
  extract_lets t s1 s2 s3
  have hs1 : s1.Orderly M L := ((h.setEpoch ..).setJournalWord ..).setState ..
  have hs2 : s2.Orderly M L := hs1.of_hide (by simp [s2])
  have hs3 : s3.Orderly M L := by
    unfold s3
    exact .foldl (fun u x hu => hu.of_hide (State.cmdEnd_hide _ rfl ..)) hs2 _
  split
  · exact hs3.of_hide (State.completed_hide _ rfl ..)
  · exact hs3

theorem State.Orderly.updFinish {s : State} (h : s.Orderly M L) (st : Nat) (r : UpdRun) :
    (s.updFinish st r).Orderly M L := by
  unfold State.updFinish
  extract_lets c s1 t s2 m
  have hs1 : s1.Orderly M L := (h.setJournal ..).setJournal ..
  have hs2 : s2.Orderly M L := hs1.of_hide (State.setRun_hide _ rfl ..)
  have hm : m.1.Orderly M L := hs2.startMirror ..
  split
  · exact hs1.of_hide (State.setRun_hide _ rfl ..)
  · split
    · split
      · exact hm
      · exact .foldl (fun u x hu => hu.of_hide (State.cmdEnd_hide _ rfl ..)) (hm.inconsistent ..) _
    · exact hs1.commitNow ..

theorem State.Orderly.cacheAcked {s : State} (h : s.Orderly M L) (st : Nat) :
    (s.cacheAcked st).Orderly M L := by
  unfold State.cacheAcked
  extract_lets u s1
  have hs1 : s1.Orderly M L := h.of_hide (State.setUpd_hide _ rfl ..)
  split
  · split
    · exact hs1.updFinish ..
    · exact hs1
  · exact hs1

theorem State.Orderly.momentsDone {s : State} (h : s.Orderly M L) (st : Nat) (r : UpdRun) :
    (s.momentsDone st r).Orderly M L := by
  unfold State.momentsDone
  extract_lets s1
  have hs1 : s1.Orderly M L := ((h.setState ..).setBatch ..).of_hide (State.setRun_hide _ rfl ..)
  split
  · split
    · exact hs1
    · exact hs1.of_hide (State.cmdEnd_hide _ rfl ..)
  · exact h.of_hide (State.setRun_hide _ rfl ..)

theorem State.Orderly.momentsBatch {s : State} (h : s.Orderly M L) (st : Nat) (r : UpdRun) (s0 : Nat) (s1 : Nat) :
    ((s.momentsBatch st r s0 s1).s).Orderly M L := by
  unfold State.momentsBatch
  extract_lets c rule own d gr k masks wcs age m1 m2 g0 ks xs ms wild wildM ws
  have hd : d.s.Orderly M L := h.readRuns ..
  have hgr : gr.s.Orderly M L := hd.readRuns ..
  split
  · exact hd.of_hide (badRead_hide _ rfl ..)
  · split
    · exact hgr.of_hide (badRead_hide _ rfl ..)
    · exact hgr

theorem State.Orderly.masterBatch {s : State} (h : s.Orderly M L) (st : Nat) (r : UpdRun) (s0 : Nat) (s1 : Nat) :
    ((s.masterBatch st r s0 s1).s).Orderly M L := by
  unfold State.masterBatch
  extract_lets c rule ages own d gr k masks wcs w a age m1 m2 extra grads dir g0 ks eta lam xs watch wild large
  have hd : d.s.Orderly M L := h.readRuns ..
  have hgr : gr.s.Orderly M L := hd.readRuns ..
  split
  · exact hd.of_hide (badRead_hide _ rfl ..)
  · split
    · exact hgr.of_hide (badRead_hide _ rfl ..)
    · exact hgr

theorem State.Orderly.workingBatch {s : State} (h : s.Orderly M L) (st : Nat) (r : UpdRun) (s0 : Nat) (s1 : Nat) :
    ((s.workingBatch st r s0 s1).s).Orderly M L := by
  unfold State.workingBatch
  extract_lets c fmt d dense masks w ks draw xs o b g g1 maps vals scs
  have hd : d.s.Orderly M L := h.readRuns ..
  split
  · exact hd.of_hide (badRead_hide _ rfl ..)
  · exact hd

theorem State.Orderly.batchOf {s : State} (h : s.Orderly M L) (st : Nat) (r : UpdRun) (s0 : Nat) (s1 : Nat) :
    ((s.batchOf st r s0 s1).s).Orderly M L := by
  unfold State.batchOf
  split
  · exact h.momentsBatch ..
  · exact h.masterBatch ..
  · exact h.workingBatch ..

theorem State.Orderly.batchUnread {s : State} (h : s.Orderly M L) (st : Nat) (r : UpdRun) (own : Bool) (addr : Nat) :
    (s.batchUnread st r own addr).Orderly M L := by
  unfold State.batchUnread
  extract_lets lost s1 s2
  have hs1 : s1.Orderly M L := by
    unfold s1
    split
    · exact h.inconsistent ..
    · exact h
  have hs2 : s2.Orderly M L := hs1.of_hide (State.abandon_hide _ rfl ..)
  split
  · exact hs2.raise ..
  · exact hs2

theorem State.Orderly.undoBatch {s : State} (h : s.Orderly M L) (st : Nat) (shard : Nat) (r : Reader) :
    ((s.undoBatch st shard r).1).Orderly M L := by
  unfold State.undoBatch
  split
  · split
    · exact h.restoreBatch ..
    · exact h
  · exact h

theorem State.Orderly.rngFault {s : State} (h : s.Orderly M L) (st : Nat) :
    ((s.rngFault st).1).Orderly M L := by
  unfold State.rngFault
  extract_lets d i
  have hd : d.2.Orderly M L := (h.of_hide (State.bump_hide _ rfl ..)).draw
  dsimp only
  exact hd.reseed ..

theorem State.Orderly.batchFailed {s : State} (h : s.Orderly M L) (st : Nat) (r : UpdRun) (s0 : Nat) :
    (s.batchFailed st r s0).Orderly M L := by
  unfold State.batchFailed
  extract_lets s1 n
  have hs1 : s1.Orderly M L := by
    unfold s1
    split
    · exact h
    · exact h.undoBatch ..
  split
  · exact hs1.of_hide (by simp)
  · exact (hs1.of_hide (State.setRun_hide _ rfl ..)).cmdFail ..

theorem State.Orderly.openBatch {s : State} (h : s.Orderly M L) (st : Nat) (r : UpdRun) (ws : List (Nat × List Byte)) :
    (s.openBatch st r ws).Orderly M L := by
  unfold State.openBatch
  extract_lets d src keeps u
  have hd : d.Orderly M L := h.saveUndo ..
  split
  · dsimp only [keeps]
    exact ((hd.of_hide (State.setUpd_hide _ rfl ..)).setState ..).setBatch ..
  · dsimp only [keeps]
    exact ((hd.of_hide (State.setUpd_hide _ rfl ..)).setState ..).setBatch ..
  · exact ((h.of_hide (State.setUpd_hide _ rfl ..)).setState ..).setBatch ..

theorem State.Orderly.closeBatch {s : State} (h : s.Orderly M L) (st : Nat) (r : UpdRun) (last : Bool) :
    (s.closeBatch st r last).Orderly M L := by
  unfold State.closeBatch
  split
  · exact h.of_hide (State.setRun_hide _ rfl ..)
  · split
    · exact h.of_hide (State.setRun_hide _ rfl ..)
    · split
      · exact h.momentsDone ..
      · exact h.of_hide (State.setRun_hide _ rfl ..)
      · exact h.of_hide (State.awaitAck_hide _ rfl ..)

theorem State.Orderly.updBatch {s : State} (h : s.Orderly M L) (st : Nat) (residueOk : Bool) (parityOk : Bool) :
    (s.updBatch st residueOk parityOk).Orderly M L := by
  unfold State.updBatch
  extract_lets p s1
  have hp : p.1.Orderly M L := by
    unfold p
    split
    · exact h
    · exact h.rngFault ..
  have hs1 : s1.Orderly M L := hp
  split
  · exact hs1
  · extract_lets n s0 s11 b t s2 s22
    have hb : b.s.Orderly M L := hs1.batchOf ..
    have ht : t.Orderly M L := hb.of_hide (State.roundedFor_hide _ rfl ..)
    have hs2 : s2.Orderly M L := ht.openBatch ..
    have hs22 : s22.Orderly M L := (hs2.writeRuns ..).of_hide (batchOf_counts_hide _ rfl ..)
    split
    · exact hs1
    · split
      · exact ht.batchUnread ..
      · split
        · exact ((ht.of_hide (State.bump_hide _ rfl ..)).openBatch ..).batchFailed ..
        · split
          · exact (ht.openBatch ..).batchFailed ..
          · exact hs22.closeBatch ..

theorem State.Orderly.updateNow {s : State} (h : s.Orderly M L) (st : Nat) (c : BaseCmd) :
    (s.updateNow st c).Orderly M L := by
  unfold State.updateNow
  extract_lets r s1
  have hs1 : s1.Orderly M L := (h.setJournalWord ..).setJournalWord ..
  split
  · exact h.of_hide (by simp)
  · exact hs1.of_hide (by simp)

theorem State.Orderly.updGo {s : State} (h : s.Orderly M L) (st op : Nat) (c : BaseCmd) {go : State → BaseCmd → State}
    (hgo : ∀ (t : State) (c : BaseCmd), t.Orderly M L → (go t c).Orderly M L) : (s.updGo st op c go).Orderly M L := by
  unfold State.updGo
  extract_lets j
  have hj : j.1.Orderly M L := h.openJournal ..
  split
  · exact hj.of_hide (State.cmdEnd_hide _ rfl ..)
  · split
    · exact hj.cmdFail ..
    · exact hgo _ _ hj

theorem State.Orderly.updStart {s : State} (h : s.Orderly M L) (st op : Nat) {go : State → BaseCmd → State}
    (hgo : ∀ (t : State) (c : BaseCmd), t.Orderly M L → (go t c).Orderly M L) : (s.updStart st op go).Orderly M L := by
  unfold State.updStart
  extract_lets u
  split
  · extract_lets mine s1
    have hs1 : s1.Orderly M L := h.of_hide (State.setUpd_hide _ rfl ..)
    split
    · exact h
    · split
      · exact (hs1.event ..).of_hide (State.cmdEnd_hide _ rfl ..)
      · split
        · exact hs1.cmdFail ..
        · split
          · exact h
          · exact hs1.updGo _ _ _ hgo
  · exact h

theorem State.Orderly.incomplete {s : State} (h : s.Orderly M L) (st : Nat) (shard : Nat) :
    (s.incomplete st shard).Orderly M L := by
  unfold State.incomplete
  exact (h.inconsistent ..).raise ..

theorem State.Orderly.completePairs {s : State} (h : s.Orderly M L) (st : Nat) (shard : Nat) (c : BaseCmd) (x : List (Nat × Nat)) :
    (s.completePairs st shard c x).Orderly M L := by
  unfold State.completePairs
  split
  · exact h.of_hide (State.completeRest_hide _ rfl ..)
  · split
    · extract_lets g t src
      have ht : t.1.Orderly M L := h.of_hide (State.readTables_hide _ rfl ..)
      split
      · exact (ht.of_hide (State.occupy_hide _ rfl ..)).snagged ..
      · exact ht.of_hide (by simp)
    · exact h

theorem State.Orderly.completeDirection {s : State} (h : s.Orderly M L) (st : Nat) (shard : Nat) (c : BaseCmd) :
    (s.completeDirection st shard c).Orderly M L := by
  unfold State.completeDirection
  split
  · exact h.incomplete ..
  · extract_lets src
    exact (h.of_hide (State.setUpd_hide _ rfl ..)).completePairs ..

theorem State.Orderly.completeShard {s : State} (h : s.Orderly M L) (st : Nat) (shard : Nat) :
    (s.completeShard st shard).Orderly M L := by
  unfold State.completeShard
  split
  · exact h.incomplete ..
  · extract_lets v dir t s1 src
    have ht : t.1.Orderly M L := by
      unfold t
      split
      · exact h.undoBatch ..
      · exact h
    have hs1 : s1.Orderly M L := ht
    split
    · exact hs1.inconsistent ..
    · split
      · exact hs1.of_hide (State.setRun_hide _ rfl ..)
      · split
        · exact hs1.completeDirection ..
        · exact hs1.of_hide (State.completeRest_hide _ rfl ..)

theorem State.Orderly.completionPass {s : State} (h : s.Orderly M L) (st : Nat) :
    (s.completionPass st).Orderly M L := by
  unfold State.completionPass
  split
  · exact h
  · split
    · exact h.raise ..
    · split
      · split
        · exact h.completePairs ..
        · exact h.incomplete ..
      · split
        · exact h
        · split
          · exact h
          · exact h.completeShard ..

theorem State.Orderly.formRecord {s : State} (h : s.Orderly M L) (st : Nat) (c : BaseCmd) (kinds : Nat) (snap : Nat) :
    ((s.formRecord st c kinds snap).s).Orderly M L := by
  unfold State.formRecord
  extract_lets d payload
  have hd : d.s.Orderly M L := h.readRuns ..
  split
  · exact hd.inconsistent ..
  · exact hd

theorem State.Orderly.writeRecord {s : State} (h : s.Orderly M L) (r : Reader) (st : Nat) (a : Nat) (bs : List Byte) :
    ((s.writeRecord r st a bs).s).Orderly M L := by
  unfold State.writeRecord
  split
  · exact h.writeStack ..
  · exact h.writeMem ..

theorem State.Orderly.exportNow {s : State} (h : s.Orderly M L) (st : Nat) (c : BaseCmd) :
    (s.exportNow st c).Orderly M L := by
  unfold State.exportNow
  extract_lets a f s1 p
  have hf : f.s.Orderly M L := h.formRecord ..
  have hs1 : s1.Orderly M L := hf
  have hp : p.s.Orderly M L := hs1.writeRecord ..
  split
  · exact hs1.of_hide (State.cmdEnd_hide _ rfl ..)
  · split
    · split
      · split
        · exact hp.of_hide (State.cmdEnd_hide _ rfl ..)
        · exact hp.of_hide (State.cmdEnd_hide _ rfl ..)
      · exact hs1.cmdFail ..
    · split
      · exact hs1.of_hide (by simp)
      · exact hs1.cmdFail ..

theorem State.Orderly.importPlanes {s : State} (h : s.Orderly M L) (st : Nat) (c : BaseCmd) (parts : List (Nat × List Byte)) :
    (s.importPlanes st c parts).Orderly M L := by
  unfold State.importPlanes
  extract_lets all s1
  have hs1 : s1.Orderly M L := by
    unfold s1
    refine .foldl (fun u x hu => ?_) h _
    split
    · exact hu.writeStack ..
    · exact hu.zeroStack ..
  refine .foldl (fun u x hu => ?_) hs1 _
  split
  · exact hu.writeStack ..
  · exact hu

theorem State.Orderly.importRecord {s : State} (h : s.Orderly M L) (st : Nat) (c : BaseCmd) (rec_ : List Byte) :
    (s.importRecord st c rec_).Orderly M L := by
  unfold State.importRecord
  extract_lets parts s1 mask s2
  have hs1 : s1.Orderly M L := h.importPlanes ..
  have hs2 : s2.Orderly M L := (hs1.setEpoch ..).setJournalWord ..
  split
  · exact (h.of_hide (State.setRun_hide _ rfl ..)).cmdFail ..
  · split
    · exact hs2.of_hide (by simp)
    · exact ((hs1.of_hide (State.setRun_hide _ rfl ..)).inconsistent ..).cmdFail ..

theorem State.Orderly.importNow {s : State} (h : s.Orderly M L) (st : Nat) (c : BaseCmd) :
    (s.importNow st c).Orderly M L := by
  unfold State.importNow
  extract_lets a h1 n p
  have hh1 : h1.s.Orderly M L := h.readMem ..
  have hp : p.s.Orderly M L := hh1.readMem ..
  split
  · split
    · exact h.cmdFail ..
    · split
      · exact hh1.of_hide (State.cmdEnd_hide _ rfl ..)
      · split
        · exact hh1.cmdFail ..
        · split
          · exact hp.of_hide (State.cmdEnd_hide _ rfl ..)
          · exact hp.importRecord ..
  · split
    · exact h.of_hide (by simp)
    · exact h.cmdFail ..

theorem State.Orderly.importGot {s : State} (h : s.Orderly M L) (st : Nat) (payload : Bool) (bs : List Byte) (head : List Byte) :
    (s.importGot st payload bs head).Orderly M L := by
  unfold State.importGot
  split
  · exact h
  · extract_lets n s1 src
    have hs1 : s1.Orderly M L := h.of_hide (State.readFrom_hide _ rfl ..)
    split
    · exact h
    · split
      · exact h.importRecord ..
      · split
        · exact h.importRecord ..
        · exact hs1.others

theorem State.Orderly.shipRecord {s : State} (h : s.Orderly M L) (st : Nat) (shard : Nat) (dest : Nat) (rec_ : List Byte) :
    (s.shipRecord st shard dest rec_).Orderly M L := by
  unfold State.shipRecord
  split
  · split
    · exact h.writeMem ..
    · exact h.raise ..
  · split
    · exact h.of_hide (State.sendTo_hide _ rfl ..)
    · exact h.raise ..

theorem State.Orderly.stageShard {g : State × Snapshot} (h : g.1.Orderly M L) (x : Nat × Nat) :
    ((stageShard g x).1).Orderly M L := by
  unfold Machine.stageShard
  extract_lets f src
  have hf : f.s.Orderly M L := h.formRecord ..
  split
  · extract_lets s
    have hs : s.Orderly M L := hf.writeRecord ..
    dsimp only
    exact hs.shipRecord ..
  · exact hf

theorem State.Orderly.goSnapshot {s : State} (h : s.Orderly M L) :
    s.goSnapshot.Orderly M L := by
  unfold State.goSnapshot
  split
  · exact h
  · extract_lets wait g left src src1 src2 t
    have hg : g.1.Orderly M L := by
      unfold g
      refine List.foldlRecOn (motive := fun g : State × Snapshot => State.Orderly M L g.1) _ _ ?_ (fun g hg x _ => ?_)
      · exact h
      · exact hg.stageShard ..
    have hsrc : src.Orderly M L := hg
    have ht : t.Orderly M L := hsrc.others
    exact ht.of_hide (by simp)

theorem State.Orderly.takeSnapshot {s : State} (h : s.Orderly M L) :
    s.takeSnapshot.Orderly M L := by
  unfold State.takeSnapshot
  split
  · extract_lets src s1 s2 src1
    have hs1 : s1.Orderly M L := h.others
    have hs2 : s2.Orderly M L := hs1.of_hide (State.setSnap_hide _ rfl ..)
    split
    · exact hs2
    · exact hs2.others.goSnapshot
  · exact h

theorem State.Orderly.snapRequest {s : State} (h : s.Orderly M L) (id : Nat) :
    (s.snapRequest id).Orderly M L := by
  unfold State.snapRequest
  extract_lets s1 src
  have hs1 : s1.Orderly M L := h.of_hide (by simp [s1])
  split
  · exact h
  · split
    · exact (h.of_hide (State.setSnap_hide _ rfl ..)).event ..
    · exact hs1.others

theorem State.Orderly.countGroup {s : State} (h : s.Orderly M L) (st : Nat) (w : WcPlanes) (x : Nat × WcGroup) :
    (s.countGroup st w x).Orderly M L := by
  unfold State.countGroup
  split
  · exact h.of_hide (State.bump_hide _ rfl ..)
  · exact h.of_hide (State.bump_hide _ rfl ..)
  · extract_lets a
    exact (h.of_hide (State.bump_hide _ rfl ..)).raise ..

theorem State.Orderly.compareShard {s : State} (h : s.Orderly M L) (c : ChunkRead) (st : Nat) (shard : Nat) (s0 : Nat) (s1 : Nat) :
    ((s.compareShard c st shard s0 s1).1).Orderly M L := by
  unfold State.compareShard
  extract_lets j s2 w b g0 g1 b0 b1 h0 h1 eb m0 m1 edge runs d read at_ k out
  have hj : j.1.Orderly M L := h.openJournal ..
  have hs2 : s2.Orderly M L := hj
  have hd : d.s.Orderly M L := hs2.readRuns ..
  split
  · exact hs2
  · split
    · exact hs2.of_hide (State.bumpBy_hide _ rfl ..)
    · split
      · exact hd.of_hide (State.bumpBy_hide _ rfl ..)
      · exact .foldl (fun u x hu => hu.countGroup ..) hd _

theorem State.Orderly.readChunk {s : State} (h : s.Orderly M L) (st : Nat) (pos : Nat) :
    ((s.readChunk st pos).s).Orderly M L := by
  unfold State.readChunk
  extract_lets base
  refine List.foldlRecOn (motive := fun g : ChunkRead => State.Orderly M L g.s) _ _ ?_ (fun g hg x _ => ?_)
  · exact h
  · extract_lets g1
    have hg1 : g1.s.Orderly M L := hg.readStack ..
    dsimp only
    exact hg1

theorem State.Orderly.churnChunk {s : State} (h : s.Orderly M L) (st : Nat) :
    (s.churnChunk st).Orderly M L := by
  unfold State.churnChunk
  split
  · exact h
  · split
    · split
      · exact h
      · exact h.of_hide (by simp)
    · extract_lets c w s1
      have hc : c.s.Orderly M L := h.readChunk ..
      have hw : w.1.Orderly M L := by
        unfold w
        split
        · refine List.foldlRecOn (motive := fun g : State × Nat => State.Orderly M L g.1) _ _ ?_ (fun g hg x _ => ?_)
          · dsimp only
            exact hc
          · extract_lets r
            have hr : r.1.Orderly M L := hg.compareShard ..
            dsimp only
            exact hr
        · dsimp only
          exact hc
      have hs1 : s1.Orderly M L := hw.of_hide (State.churnPaid_hide _ rfl ..)
      split
      · exact hs1.of_hide (State.setReg64_hide _ rfl ..)
      · exact hs1.of_hide (by simp)

theorem State.Orderly.redFinish {s : State} (h : s.Orderly M L) (key : Nat) (e : RedEntry) :
    (s.redFinish key e).Orderly M L := by
  unfold State.redFinish
  extract_lets r s1
  have hs1 : s1.Orderly M L := h.of_hide (State.setRedState_hide _ rfl ..)
  split
  · exact h
  · split
    · exact hs1.signal ..
    · exact hs1

theorem State.Orderly.redPut {s : State} (h : s.Orderly M L) (a : Nat) (bs : List Byte) :
    ((s.redPut a bs).s).Orderly M L := by
  unfold State.redPut
  split
  · exact h.intakeRun ..
  · exact h.windowWrite ..
  · exact h.windowWrite ..
  · exact h.writeMem ..

theorem State.Orderly.redWrite {s : State} (h : s.Orderly M L) (l : RedLine) (e : RedEntry) :
    (s.redWrite l e).Orderly M L := by
  unfold State.redWrite
  extract_lets a s1 b p s2 r
  have hs1 : s1.Orderly M L := h.of_hide (State.dropLine_hide _ rfl ..)
  have hp : p.s.Orderly M L := hs1.redPut ..
  have hs2 : s2.Orderly M L := hp.of_hide (by simp [s2])
  split
  · exact (hs1.of_hide (State.bump_hide _ rfl ..)).raise ..
  · split
    · exact hs1.raise ..
    · split
      · exact hp
      · exact (hs2.of_hide (State.setRedState_hide _ rfl ..)).redFinish ..

theorem State.Orderly.redAdd {s : State} (h : s.Orderly M L) (key : Nat) (e : RedEntry) (u : Nat) (bs : List Byte) :
    (s.redAdd key e u bs).Orderly M L := by
  unfold State.redAdd
  extract_lets l
  split
  · exact h.of_hide (State.setLine_hide _ rfl ..)
  · split
    · exact h.of_hide (State.setLine_hide _ rfl ..)
    · exact (h.of_hide (State.setLine_hide _ rfl ..)).redWrite ..

theorem State.Orderly.reduceBlock {s : State} (h : s.Orderly M L) (plane : Nat) (idx : Nat) (step20 : Nat) (off : Nat) (bs : List Byte) :
    ((s.reduceBlock plane idx step20 off bs).s).Orderly M L := by
  unfold State.reduceBlock
  extract_lets step last us
  split
  · dsimp only [step]
    exact h.raise ..
  · extract_lets key new
    split
    · exact h.event ..
    · split
      · dsimp only [step]
        exact h.raise ..
      · split
        · exact h.raise ..
        · split
          · exact h.raise ..
          · split
            · exact h.of_hide (State.bump_hide _ rfl ..)
            · exact .foldl (fun u x hu => hu.redAdd ..) h _

theorem State.Orderly.redRelease {s : State} (h : s.Orderly M L) (idx : Nat) (unit : Nat) :
    (s.redRelease idx unit).Orderly M L := by
  unfold State.redRelease
  split
  · exact h
  · split
    · exact h
    · exact h.redWrite ..

theorem State.Orderly.redIntake {s : State} (h : s.Orderly M L) :
    s.redIntake.Orderly M L := by
  unfold State.redIntake
  refine .foldl (fun u x hu => ?_) h _
  split
  · split
    · exact hu.redWrite ..
    · exact hu
  · exact hu

theorem State.Orderly.nextShard {s : State} (h : s.Orderly M L) (n : Nat) (j : RestoreJob) :
    (State.nextShard n s j).Orderly M L := by
  induction n generalizing s j with
  | zero => exact h.of_hide (State.endJob_hide _ rfl ..)
  | succ n ih =>
    unfold State.nextShard
    extract_lets j
    split
    · exact h.of_hide (State.endJob_hide _ rfl ..)
    · extract_lets s1
      have hs1 : s1.Orderly M L := (h.inconsistent ..).of_hide (State.bump_hide _ rfl ..)
      split
      · exact h.of_hide (State.endJob_hide _ rfl ..)
      · split
        · exact h.of_hide (State.askHeaders_hide _ rfl ..)
        · exact ih hs1.others _

theorem State.Orderly.restoreOn {s : State} (h : s.Orderly M L) (j : RestoreJob) :
    (s.restoreOn j).Orderly M L := by
  unfold State.restoreOn
  exact h.nextShard ..

theorem State.Orderly.restoreLost {s : State} (h : s.Orderly M L) (j : RestoreJob) (shard : Nat) :
    (s.restoreLost j shard).Orderly M L := by
  unfold State.restoreLost
  extract_lets s1 src
  have hs1 : s1.Orderly M L := (h.inconsistent ..).of_hide (State.bump_hide _ rfl ..)
  exact hs1.others.restoreOn ..

theorem State.Orderly.writePart {s : State} (h : s.Orderly M L) (st : Nat) (shard : Nat) (off : Nat) (bs : List Byte) :
    (s.writePart st shard off bs).Orderly M L := by
  unfold State.writePart
  extract_lets c
  exact .foldl (fun u x hu => hu.writeStack ..) h _

theorem State.Orderly.restorePlanes {s : State} (hs : s.Orderly M L) (st : Nat) (shard : Nat) (h : List Byte) (image : List Byte) :
    ((s.restorePlanes st shard h image).1).Orderly M L := by
  unfold State.restorePlanes
  extract_lets c parts s1 s2 s3 s4
  have hs1 : s1.Orderly M L := hs.importPlanes ..
  have hs2 : s2.Orderly M L := (hs1.setEpoch ..).setJournalWord ..
  have hs3 : s3.Orderly M L := (hs2.setState ..).setJournal ..
  have hs4 : s4.Orderly M L := hs3.of_hide (by simp [s4])
  split
  · exact .foldl (fun u x hu => hu.updBatch ..) hs4 _
  · exact hs3

theorem State.Orderly.askImage {s : State} (h : s.Orderly M L) (j : RestoreJob) (shard : Nat) :
    (s.askImage j shard).Orderly M L := by
  unfold State.askImage
  split
  · exact h.restoreLost ..
  · extract_lets s1
    have hs1 : s1.Orderly M L := h.of_hide (State.setJob_hide _ rfl ..)
    exact .foldl (fun u x hu => hu.of_hide (State.askPart_hide _ rfl ..)) hs1 _

theorem State.Orderly.imageWhole {s : State} (h : s.Orderly M L) (j : RestoreJob) (shard : Nat) (p : Place) :
    (s.imageWhole j shard p).Orderly M L := by
  unfold State.imageWhole
  extract_lets h1 image w
  have hw : w.1.Orderly M L := h.restorePlanes ..
  split
  · split
    · exact (hw.of_hide (by simp)).restoreOn ..
    · exact (hw.raise ..).restoreLost ..
  · exact (h.raise ..).askImage ..

theorem State.Orderly.imageGot {s : State} (h : s.Orderly M L) (st : Nat) (shard : Nat) (g : Nat) (off : Nat) (bs : List Byte) :
    (s.imageGot st shard g off bs).Orderly M L := by
  unfold State.imageGot
  split
  · extract_lets j bytes src s1 s2 s3
    have hs1 : s1.Orderly M L := h.others
    have hs2 : s2.Orderly M L := hs1.of_hide (by simp [s2])
    have hs3 : s3.Orderly M L := hs2.writePart ..
    split
    · exact h
    · split
      · exact h.restoreLost ..
      · split
        · exact hs3.of_hide (State.askPart_hide _ rfl ..)
        · exact hs3.imageWhole ..
  · exact h

theorem State.Orderly.headerGot {s : State} (h : s.Orderly M L) (st : Nat) (shard : Nat) (g : Nat) (bs : List Byte) :
    (s.headerGot st shard g bs).Orderly M L := by
  unfold State.headerGot
  split
  · exact h
  · extract_lets j
    split
    · exact h.of_hide (State.setJob_hide _ rfl ..)
    · split
      · exact h.of_hide (State.endJob_hide _ rfl ..)
      · exact h.askImage ..

theorem State.Orderly.restoreCut {s : State} (h : s.Orderly M L) (st : Nat) (shard : Nat) :
    (s.restoreCut st shard).Orderly M L := by
  unfold State.restoreCut
  split
  · exact h.restoreLost ..
  · exact h

theorem State.Orderly.restoreAll {s : State} (h : s.Orderly M L) (src : Nat) (left : List (Nat × Nat)) :
    (s.restoreAll src left).Orderly M L := by
  unfold State.restoreAll
  extract_lets jobs src1
  split
  · exact h.others
  · exact .foldl (fun u x hu => hu.restoreOn ..) (h.of_hide (State.setRestore_hide _ rfl ..)) _

theorem State.Orderly.restoreStart {s : State} (h : s.Orderly M L) (only : Bool) :
    (s.restoreStart only).Orderly M L := by
  unfold State.restoreStart
  extract_lets src src1 s1 s2
  have hs1 : s1.Orderly M L := h.others
  have hs2 : s2.Orderly M L := hs1.of_hide (by simp [s2])
  split
  · exact h.event ..
  · extract_lets left
    split
    · exact h.event ..
    · exact hs2.restoreAll ..

theorem State.Orderly.losePlane {s : State} (h : s.Orderly M L) (plane : Nat) (at_ : Nat) :
    (s.losePlane plane at_).Orderly M L := by
  unfold State.losePlane
  extract_lets new first src s1 src1 s2
  have hs1 : s1.Orderly M L := h.others
  have hs2 : s2.Orderly M L := by
    unfold s2
    split
    · exact hs1
    · exact hs1.others
  split
  · exact hs2.event ..
  · exact hs1

theorem State.Orderly.planeFails {s : State} (h : s.Orderly M L) (plane : Nat) :
    (s.planeFails plane).Orderly M L := by
  unfold State.planeFails
  split
  · exact h
  · exact (h.losePlane ..).of_hide (State.sendNotices_hide _ rfl ..)

theorem State.Orderly.endUse {s : State} (h : s.Orderly M L) (code : Nat) (r : RemoteReq) :
    (s.endUse code r).Orderly M L := by
  unfold State.endUse
  split
  · split
    · split
      · exact (h.of_hide (State.setRun_hide _ rfl ..)).cmdFail ..
      · exact h
    · exact h
  · split
    · split
      · exact (h.of_hide (State.setRun_hide _ rfl ..)).cmdFail ..
      · exact h
    · exact h
  · extract_lets s1
    have hs1 : s1.Orderly M L := h.raise ..
    split
    · exact hs1
    · exact hs1.of_hide (State.setSnap_hide _ rfl ..)
  · exact (h.raise ..).restoreCut ..
  · exact (h.raise ..).restoreCut ..
  · exact h

theorem State.Orderly.endRequest {s : State} (h : s.Orderly M L) (code : Nat) (r : RemoteReq) :
    (State.endRequest code s r).Orderly M L := by
  unfold State.endRequest
  exact (h.failRequest ..).endUse ..

theorem State.Orderly.endRequests {s : State} (h : s.Orderly M L) (rs : List RemoteReq) :
    (s.endRequests rs).Orderly M L := by
  unfold State.endRequests
  exact .foldl (fun u x hu => hu.endRequest ..) h _

theorem State.Orderly.cutOff {s : State} (h : s.Orderly M L) (peer : Nat) (host : Bool) :
    (s.cutOff peer host).Orderly M L := by
  unfold State.cutOff
  have hended := h.endRequests (s.fab.remote.filter (fun r => r.peer == peer && r.host == host))
  exact (hended.of_hide (State.dropFlows_hide _ rfl ..)).of_hide (State.unconfirm_hide _ rfl ..)

theorem State.Orderly.cutPlane {s : State} (h : s.Orderly M L) (peer : Nat) (host : Bool) (plane : Nat) :
    (s.cutPlane peer host plane).Orderly M L := by
  unfold State.cutPlane
  exact h.endRequests ..

theorem State.Orderly.unreachable {s : State} (h : s.Orderly M L) (peer : Nat) (host : Bool) (plane : Nat) :
    (s.unreachable peer host plane).Orderly M L := by
  unfold State.unreachable
  extract_lets s1 s2 s3
  have hs1 : s1.Orderly M L := h.of_hide (State.modPeer_hide _ rfl ..)
  have hs2 : s2.Orderly M L := (hs1.of_hide (State.bump_hide _ rfl ..)).event ..
  have hs3 : s3.Orderly M L := by
    unfold s3
    split
    · exact hs2.planeFails ..
    · exact hs2
  split
  · split
    · exact hs3
    · exact hs3.cutOff ..
  · exact h

theorem State.Orderly.resend {s : State} (h : s.Orderly M L) (id : FlowId) (seq : Word) (counted : Bool) :
    (s.resend id seq counted).Orderly M L := by
  unfold State.resend
  extract_lets f plane
  split
  · exact h
  · split
    · exact h.unreachable ..
    · exact h.of_hide (State.setTx_hide _ rfl ..)

theorem State.Orderly.sendJoin {s : State} (h : s.Orderly M L) (peer : Nat) (host : Bool) (plane : Option Nat) :
    (s.sendJoin peer host plane).Orderly M L := by
  unfold State.sendJoin
  extract_lets d share src
  have hd : d.2.Orderly M L := h.draw
  exact hd.of_hide (State.emit_hide _ rfl ..)

theorem State.Orderly.sendMgmt {s : State} (h : s.Orderly M L) (dst : Nat) (host : Bool) (queue : Nat) (msg : List Byte) :
    (s.sendMgmt dst host queue msg).Orderly M L := by
  unfold State.sendMgmt
  extract_lets d seq src h1 cut block bs
  have hd : d.2.Orderly M L := h.draw
  refine .foldl (fun u x hu => ?_) hd _
  extract_lets two
  exact hu.of_hide (State.emit_hide _ rfl ..)

theorem State.Orderly.rekey {s : State} (h : s.Orderly M L) (peer : Nat) (host : Bool) (plane : Nat) :
    (s.rekey peer host plane).Orderly M L := by
  unfold State.rekey
  extract_lets src
  exact h.others.sendJoin ..

theorem State.Orderly.sendFrame {s : State} (hs : s.Orderly M L) (p : Nat) (h : Hdr) (body : List Byte) :
    (s.sendFrame p h body).Orderly M L := by
  unfold State.sendFrame
  split
  · exact hs
  · extract_lets n t
    have ht : t.Orderly M L := hs.of_hide (by simp [t])
    split
    · exact ht.rekey ..
    · exact ht

theorem State.Orderly.putFrame {s : State} (h : s.Orderly M L) (p : Nat) (o : Offer) :
    (s.putFrame p o).Orderly M L := by
  unfold State.putFrame
  extract_lets plane f bs goes f' paid c s1
  have hs1 : s1.Orderly M L := by
    unfold s1
    split
    · exact h.of_hide (State.setCredit_hide _ rfl ..)
    · split
      · exact h.of_hide (State.setCredit_hide _ rfl ..)
      · exact h
  exact ((hs1.of_hide (by simp)).sendFrame ..).of_hide (State.rotateTx_hide _ rfl ..)

theorem State.Orderly.frameSend {s : State} (h : s.Orderly M L) (p : Nat) :
    (s.frameSend p).Orderly M L := by
  unfold State.frameSend
  extract_lets fs
  split
  · exact h
  · split
    · exact h.putFrame ..
    · exact h

theorem State.Orderly.portUp {s : State} (h : s.Orderly M L) (p : Nat) :
    (s.portUp p).Orderly M L := by
  unfold State.portUp
  extract_lets src
  split
  · exact (h.of_hide (State.setPort_hide _ rfl ..)).event ..
  · exact h

theorem State.Orderly.portLoses {s : State} (h : s.Orderly M L) (p : Nat) (w : LinkPart) :
    (s.portLoses p w).Orderly M L := by
  unfold State.portLoses
  extract_lets v
  split
  · exact (h.of_hide (by simp)).event ..
  · exact h.of_hide (State.setPort_hide _ rfl ..)

theorem State.Orderly.portDown {s : State} (h : s.Orderly M L) (p : Nat) :
    (s.portDown p).Orderly M L := by
  unfold State.portDown
  exact h.portLoses ..

theorem State.Orderly.schedCheck {s : State} (h : s.Orderly M L) :
    s.schedCheck.Orderly M L := by
  unfold State.schedCheck
  split
  · exact .foldl (fun u x hu => (hu.of_hide (State.bump_hide _ rfl ..)).raise ..) h _
  · exact h

theorem State.Orderly.parlourAck {s : State} (h : s.Orderly M L) (acks : Bool) :
    (s.parlourAck acks).Orderly M L := by
  unfold State.parlourAck
  extract_lets src s1 n lost src1 s2
  have hs1 : s1.Orderly M L := h.others
  have hs2 : s2.Orderly M L := hs1.others.of_hide (State.bump_hide _ rfl ..)
  split
  · exact h.others
  · split
    · exact hs1
    · split
      · exact hs2.raise ..
      · exact hs2

theorem State.Orderly.slotEdge {s : State} (h : s.Orderly M L) (acks : Bool) :
    (s.slotEdge acks).Orderly M L := by
  unfold State.slotEdge
  split
  · have hack := (h.schedCheck.of_hide (State.sendHeartbeat_hide _ rfl ..)).parlourAck acks
    exact (hack.of_hide (State.saturation_hide _ rfl ..)).of_hide (State.saturation_hide _ rfl ..)
  · exact h

theorem State.Orderly.heartbeatMissed {s : State} (h : s.Orderly M L) :
    s.heartbeatMissed.Orderly M L := by
  unfold State.heartbeatMissed
  extract_lets n lost src s1
  have hs1 : s1.Orderly M L := h.others.of_hide (State.bump_hide _ rfl ..)
  split
  · split
    · exact hs1.raise ..
    · exact hs1
  · exact h

theorem State.Orderly.lockstep {s : State} (h : s.Orderly M L) :
    s.lockstep.Orderly M L := by
  unfold State.lockstep
  extract_lets runs s1
  have hs1 : s1.Orderly M L := h.of_hide (State.detect_hide _ rfl ..)
  split
  · exact hs1.planStop
  · exact hs1

theorem State.Orderly.safeRelease {s : State} (h : s.Orderly M L) (v : Word) :
    ((s.safeRelease v).1).Orderly M L := by
  unfold State.safeRelease
  extract_lets src
  split
  · exact h.others
  · exact h.event ..

theorem State.Orderly.stopRequest {s : State} (h : s.Orderly M L) :
    s.stopRequest.Orderly M L := by
  unfold State.stopRequest
  exact h.raise ..

theorem State.Orderly.sendReport {s : State} (h : s.Orderly M L) (r : Report) :
    (s.sendReport r).Orderly M L := by
  unfold State.sendReport
  extract_lets goes t first t1 src
  have ht : t.Orderly M L := by
    unfold t
    exact .foldl (fun u x hu => (hu.sendMgmt ..).of_hide (State.bump_hide _ rfl ..)) h _
  have ht1 : t1.Orderly M L := ht.of_hide (State.modReport_hide _ rfl ..)
  split
  · exact h
  · split
    · exact ht1.others
    · exact ht1

theorem State.Orderly.reportSend {s : State} (h : s.Orderly M L) :
    s.reportSend.Orderly M L := by
  unfold State.reportSend
  split
  · split
    · exact h.sendReport ..
    · exact h
  · exact h

theorem State.Orderly.refuse {s : State} (h : s.Orderly M L) (cls : Nat) (addr : Nat) :
    (s.refuse cls addr).Orderly M L := by
  unfold State.refuse
  exact h.event ..

theorem State.Orderly.changeSettings {s : State} (h : s.Orderly M L) (cls : Nat) (addr : Nat) (f : Settings → Settings) :
    ((s.changeSettings cls addr f).1).Orderly M L := by
  unfold State.changeSettings
  split
  · exact h.refuse ..
  · exact h.of_hide (State.newSettings_hide _ rfl ..)

theorem State.Orderly.userSet {s : State} (h : s.Orderly M L) :
    (s.userSet.1).Orderly M L := by
  unfold State.userSet
  exact h.changeSettings ..

theorem State.Orderly.userClear {s : State} (h : s.Orderly M L) :
    (s.userClear.1).Orderly M L := by
  unfold State.userClear
  exact h.changeSettings ..

theorem State.Orderly.userClearAll {s : State} (h : s.Orderly M L) :
    (s.userClearAll.1).Orderly M L := by
  unfold State.userClearAll
  exact h.changeSettings ..

theorem State.Orderly.anchorSet {s : State} (h : s.Orderly M L) (i : Nat) :
    ((s.anchorSet i).1).Orderly M L := by
  unfold State.anchorSet
  exact h.changeSettings ..

theorem State.Orderly.anchorClear {s : State} (h : s.Orderly M L) (i : Nat) :
    ((s.anchorClear i).1).Orderly M L := by
  unfold State.anchorClear
  exact h.changeSettings ..

theorem State.Orderly.startJoin {s : State} (h : s.Orderly M L) (peer : Nat) (host : Bool) (plane : Nat) :
    (s.startJoin peer host plane).Orderly M L := by
  unfold State.startJoin
  extract_lets waits src
  exact h.others.sendJoin ..

theorem State.Orderly.joinTwin {s : State} (h : s.Orderly M L) :
    s.joinTwin.Orderly M L := by
  unfold State.joinTwin
  split
  · exact h
  · refine .foldl (fun u x hu => ?_) h _
    split
    · exact hu.startJoin ..
    · exact hu

theorem State.Orderly.joinPeers {s : State} (h : s.Orderly M L) :
    s.joinPeers.Orderly M L := by
  unfold State.joinPeers
  split
  · exact h
  · extract_lets rising order
    refine .foldl (fun u x hu => ?_) h _
    refine .foldl (fun u x hu => ?_) hu _
    split
    · exact hu
    · exact hu.startJoin ..

theorem State.Orderly.joinRetry {s : State} (h : s.Orderly M L) (peer : Nat) (host : Bool) (plane : Nat) :
    (s.joinRetry peer host plane).Orderly M L := by
  unfold State.joinRetry
  split
  · exact h
  · extract_lets d wait ws src src1
    have hd : d.2.Orderly M L := h.draw
    have hsrc : src.Orderly M L := hd
    split
    · exact h
    · exact hsrc.others.sendJoin ..

theorem State.Orderly.awaitTwin {s : State} (h : s.Orderly M L) (t : Nat) :
    (s.awaitTwin t).Orderly M L := by
  unfold State.awaitTwin
  extract_lets src
  exact .foldl (fun u x hu => hu.sendJoin ..) h.others _

theorem State.Orderly.bindCmd {s : State} (h : s.Orderly M L) :
    (s.bindCmd.1).Orderly M L := by
  unfold State.bindCmd
  extract_lets t
  split
  · exact h.refuse ..
  · extract_lets c
    have hc : c.1.Orderly M L := h.changeSettings ..
    split
    · exact h.refuse ..
    · split
      · exact hc
      · exact hc.awaitTwin ..

theorem State.Orderly.unbindCmd {s : State} (h : s.Orderly M L) :
    (s.unbindCmd.1).Orderly M L := by
  unfold State.unbindCmd
  extract_lets c src src1
  have hc : c.1.Orderly M L := h.changeSettings ..
  have hsrc : src.Orderly M L := hc
  split
  · exact h.refuse ..
  · split
    · exact hc
    · exact hsrc.others

theorem State.Orderly.ackIdentity {s : State} (h : s.Orderly M L) :
    (s.ackIdentity.1).Orderly M L := by
  unfold State.ackIdentity
  extract_lets src known
  have hknown : known.Orderly M L := h.others
  split
  · exact hknown
  · extract_lets c src1 src2
    have hc : c.1.Orderly M L := h.changeSettings ..
    have hsrc1 : src1.Orderly M L := hc
    split
    · split
      · exact hc
      · exact hsrc1.others.awaitTwin ..
    · exact hknown

theorem State.Orderly.joinBinding {s : State} (h : s.Orderly M L) (o : JoinOffer) :
    (s.joinBinding o).Orderly M L := by
  unfold State.joinBinding
  split
  · exact h
  · extract_lets state src src1 seen
    split
    · exact h
    · split
      · exact h.others
      · exact h.others.event ..

theorem State.Orderly.joinEthernet {s : State} (h : s.Orderly M L) (o : JoinOffer) :
    (s.joinEthernet o).Orderly M L := by
  unfold State.joinEthernet
  extract_lets asked s1 d s2 assoc waits src s3 s4 s5 others src1 s6
  have hs1 : s1.Orderly M L := by
    unfold s1
    split
    · exact h
    · exact h.sendJoin ..
  have hd : d.2.Orderly M L := hs1.draw
  have hs2 : s2.Orderly M L := hd
  have hs3 : s3.Orderly M L := hs2.others
  have hs4 : s4.Orderly M L := by
    unfold s4
    split
    · exact hs3.cutPlane ..
    · exact hs3.cutOff ..
  have hs5 : s5.Orderly M L := hs4.of_hide (State.freshFlows_hide _ rfl ..)
  have hs6 : s6.Orderly M L := by
    unfold s6
    split
    · exact hs3.of_hide (State.modPeer_hide _ rfl ..)
    · exact hs5.others
  exact (hs6.joinBinding ..).of_hide (State.sendDigests_hide _ rfl ..)

theorem State.Orderly.joinSeen {s : State} (h : s.Orderly M L) (o : JoinOffer) :
    (s.joinSeen o).Orderly M L := by
  unfold State.joinSeen
  extract_lets src src1 s1
  have hs1 : s1.Orderly M L := h.others
  split
  · split
    · exact h
    · split
      · exact h.others.sendJoin ..
      · exact h.refuse ..
  · split
    · exact h
    · split
      · exact hs1.joinEthernet ..
      · exact hs1.refuse ..

theorem State.Orderly.stageStart {s : State} (h : s.Orderly M L) (kind : Nat) :
    (s.stageStart kind).Orderly M L := by
  unfold State.stageStart
  extract_lets a n h1 b i src src1
  have hh1 : h1.s.Orderly M L := (h.of_hide (State.nocServe_hide _ rfl ..)).readMem ..
  have hb : b.s.Orderly M L := hh1.readMem ..
  have hsrc : src.Orderly M L := hb
  split
  · exact h.refuse ..
  · split
    · exact h.of_hide (by simp)
    · split
      · exact hh1.of_hide (by simp)
      · split
        · exact hh1.of_hide (by simp)
        · exact hsrc.others

theorem State.Orderly.stageAppend {s : State} (h : s.Orderly M L) (data : List Word) :
    (s.stageAppend data).Orderly M L := by
  unfold State.stageAppend
  extract_lets off bs
  split
  · exact h.refuse ..
  · exact (h.setBytes h ..).of_hide (State.setReg_hide _ rfl ..)

theorem State.Orderly.bootParlour {s : State} (h : s.Orderly M L) :
    s.bootParlour.Orderly M L := by
  unfold State.bootParlour
  extract_lets s1 src s2 src1
  have hs1 : s1.Orderly M L := h.of_hide (State.revertTried_hide _ rfl ..)
  have hs2 : s2.Orderly M L := hs1.of_hide (State.setImages_hide _ rfl ..)
  split
  · extract_lets s3 src2 s32
    have hs3 : s3.Orderly M L := hs1.of_hide (State.bootSlot_hide _ rfl ..)
    have hs32 : s32.Orderly M L := hs3.others
    split
    · exact hs32.event ..
    · exact hs32
  · exact hs2.others.raise ..

theorem State.Orderly.parlourActivate {s : State} (h : s.Orderly M L) :
    s.parlourActivate.Orderly M L := by
  unfold State.parlourActivate
  extract_lets s1 src
  have hs1 : s1.Orderly M L := (h.of_hide (State.parlourRestart_hide _ rfl ..)).bootParlour
  split
  · exact h.refuse ..
  · exact hs1.others

theorem State.Orderly.svnCommit {s : State} (h : s.Orderly M L) (v : Word) :
    ((s.svnCommit v).1).Orderly M L := by
  unfold State.svnCommit
  extract_lets v1 least src
  split
  · exact h.others
  · exact h.refuse ..

theorem State.Orderly.activateArm {s : State} (h : s.Orderly M L) (hi : Word) :
    (s.activateArm hi).Orderly M L := by
  unfold State.activateArm
  extract_lets s1 t src
  have hs1 : s1.Orderly M L := h.of_hide (State.setReg_hide _ rfl ..)
  split
  · exact hs1.others
  · exact hs1.refuse ..

theorem State.Orderly.dieReset {s : State} (h : s.Orderly M L) (warm : Bool) : (s.dieReset warm).Orderly M L := by
  unfold State.dieReset
  extract_lets s1
  have hs1 : s1.Orderly M L := h.of_hide (State.abandonStaging_hide _ rfl ..)
  clear_value s1
  exact ⟨fun hM => wf_filter _ _ (hs1.1 hM), fun _ => State.inOrder_of_empty rfl rfl⟩

theorem State.Orderly.supplyReset {s : State} (h : s.Orderly M L) (cause : Nat) :
    (s.supplyReset cause).Orderly M L := by
  unfold State.supplyReset
  extract_lets s1 src
  have hs1 : s1.Orderly M L := h.dieReset ..
  exact hs1.others

theorem State.Orderly.auxUp {s : State} (h : s.Orderly M L) :
    s.auxUp.Orderly M L := by
  unfold State.auxUp
  extract_lets s1 src p
  have hs1 : s1.Orderly M L := h.of_hide (by simp [s1])
  split
  · exact h
  · exact hs1.others.bootParlour

theorem State.Orderly.auxLost {s : State} (h : s.Orderly M L) : s.auxLost.Orderly M L := by
  unfold State.auxLost
  extract_lets t
  have ht : t.Orderly M L := h.dieReset ..
  clear_value t
  split
  · exact ⟨fun _ => rfl, fun hL => ht.2 hL⟩
  · exact h

theorem State.Orderly.imageInvalid {s : State} (h : s.Orderly M L) (item : Nat) :
    (s.imageInvalid item).Orderly M L := by
  unfold State.imageInvalid
  extract_lets src s1
  have hs1 : s1.Orderly M L := h.others
  exact hs1.raise ..

theorem State.Orderly.bootImage {s : State} (h : s.Orderly M L) (kind : Nat) (slot : Nat) (fell : Bool) :
    (s.bootImage kind slot fell).Orderly M L := by
  unfold State.bootImage
  extract_lets s1 src
  have hs1 : s1.Orderly M L := h.of_hide (State.bootSlot_hide _ rfl ..)
  split
  · exact hs1.others.event ..
  · exact hs1

theorem State.Orderly.bootActive {s : State} (h : s.Orderly M L) :
    s.bootActive.Orderly M L := by
  unfold State.bootActive
  split
  · exact h.imageInvalid ..
  · extract_lets t src
    have ht : t.Orderly M L := by
      unfold t
      exact .foldl (fun u x hu => hu.of_hide (State.bootSlot_hide _ rfl ..)) h _
    exact ht.others

theorem State.Orderly.bootImages {s : State} (h : s.Orderly M L) :
    s.bootImages.Orderly M L := by
  unfold State.bootImages
  extract_lets s1 pick t compats
  have hs1 : s1.Orderly M L := by
    unfold s1
    exact .foldl (fun u x hu => hu.of_hide (State.revertTried_hide _ rfl ..)) h _
  have ht : t.Orderly M L := by
    unfold t
    refine .foldl (fun u x hu => ?_) hs1 _
    split
    · exact hu.bootImage ..
    · exact hu
  split
  · exact hs1.imageInvalid ..
  · split
    · exact ht
    · exact ht.bootActive

theorem State.Orderly.takeSettings {s : State} (h : s.Orderly M L) :
    s.takeSettings.Orderly M L := by
  unfold State.takeSettings
  split
  · extract_lets src s1
    have hs1 : s1.Orderly M L := h.others
    exact hs1.raise ..
  · extract_lets src s1 t src1
    have hs1 : s1.Orderly M L := h.others
    have ht : t.Orderly M L := hs1.of_hide (State.putSettings_hide _ rfl ..)
    split
    · exact ht.others
    · exact hs1

theorem State.Orderly.bootSteward {s : State} (h : s.Orderly M L) (r : StartReport) :
    (s.bootSteward r).Orderly M L := by
  unfold State.bootSteward
  extract_lets s1 src s2 src1
  have hs1 : s1.Orderly M L := h.bootImages
  have hs2 : s2.Orderly M L := hs1.takeSettings.of_hide (by simp [s2])
  split
  · exact hs1
  · split
    · exact hs1.others.event ..
    · split
      · exact hs1.imageInvalid ..
      · exact hs2.others

theorem State.Orderly.loadImages {s : State} (h : s.Orderly M L) (r : StartReport) :
    (s.loadImages r).Orderly M L := by
  unfold State.loadImages
  split
  · exact h.imageInvalid ..
  · extract_lets src s1 s2 src1
    have hs1 : s1.Orderly M L := h.others
    have hs2 : s2.Orderly M L := hs1.seedAll
    split
    · exact hs2.others
    · exact hs1

theorem State.Orderly.dieStart {s : State} (h : s.Orderly M L) (r : StartReport) :
    (s.dieStart r).Orderly M L := by
  unfold State.dieStart
  extract_lets s1
  have hs1 : s1.Orderly M L := by
    unfold s1
    split
    · exact h.bootSteward ..
    · exact h
  split
  · exact h
  · split
    · exact hs1
    · exact hs1.loadImages ..

theorem State.Orderly.stackTrained {s : State} (h : s.Orderly M L) (st : Nat) :
    (s.stackTrained st).Orderly M L := by
  unfold State.stackTrained
  extract_lets src s1 s2 lo inStack src1
  have hs1 : s1.Orderly M L := h.others
  have hs2 : s2.Orderly M L := hs1.of_hide (State.setChurn_hide _ rfl ..)
  clear_value s2
  split
  · exact h
  · split
    · exact hs2
    · exact ⟨fun hM => wf_zeroBytes _ _ _ (hs2.1 hM), fun hL => hs2.2 hL⟩

theorem State.Orderly.tierTrained {s : State} (h : s.Orderly M L) (c : Nat) :
    (s.tierTrained c).Orderly M L := by
  unfold State.tierTrained
  extract_lets src s1 d src1 src2
  have hs1 : s1.Orderly M L := h.others
  have hd : d.2.Orderly M L := hs1.draw
  have hsrc1 : src1.Orderly M L := hd
  split
  · exact h
  · split
    · exact hs1
    · exact hsrc1.others

theorem State.Orderly.startTimeout {s : State} (h : s.Orderly M L) :
    s.startTimeout.Orderly M L := by
  unfold State.startTimeout
  extract_lets g src s1
  have hs1 : s1.Orderly M L := h.others
  split
  · exact h
  · exact hs1.raise ..

theorem State.Orderly.rerunUntrusted {s : State} (h : s.Orderly M L) (c : Nat) :
    (s.rerunUntrusted c).Orderly M L := by
  unfold State.rerunUntrusted
  split
  · exact h
  · extract_lets s1
    have hs1 : s1.Orderly M L := h.of_hide (by simp [s1])
    split
    · exact h
    · split
      · exact h.raise ..
      · split
        · exact hs1
        · exact hs1.of_hide (State.bump_hide _ rfl ..)

theorem State.Orderly.redoBatch {s : State} (h : s.Orderly M L) (st : Nat) :
    (s.redoBatch st).Orderly M L := by
  unfold State.redoBatch
  split
  · exact h
  · extract_lets s1 u
    have hs1 : s1.Orderly M L := by
      unfold s1
      split
      · exact h.of_hide (State.bump_hide _ rfl ..)
      · exact h
    have hu : u.1.Orderly M L := hs1.undoBatch ..
    split
    · split
      · exact hs1
      · exact hs1.of_hide (State.setRun_hide _ rfl ..)
    · split
      · split
        · exact hu.of_hide (State.setRun_hide _ rfl ..)
        · exact (hu.inconsistent ..).of_hide (State.abandon_hide _ rfl ..)
      · exact hs1

theorem State.Orderly.activate {s : State} (h : s.Orderly M L) :
    s.activate.Orderly M L := by
  unfold State.activate
  extract_lets s1 s2 src
  have hs1 : s1.Orderly M L := by
    unfold s1
    split
    · exact h.planStop
    · exact h
  have hs2 : s2.Orderly M L := hs1.dieReset ..
  exact hs2.others

theorem State.Orderly.supplyResume {s : State} (h : s.Orderly M L) :
    s.supplyResume.Orderly M L := by
  unfold State.supplyResume
  split
  · exact h
  · extract_lets s1 s2 src s3 s4 s5
    have hs1 : s1.Orderly M L := h.of_hide (State.bump_hide _ rfl ..)
    have hs2 : s2.Orderly M L := hs1.of_hide (State.setReg_hide _ rfl ..)
    have hs3 : s3.Orderly M L := hs2.others
    have hs4 : s4.Orderly M L := by
      unfold s4
      exact .foldl (fun u x hu => hu.of_hide (State.resume_hide _ rfl ..)) hs3 _
    have hs5 : s5.Orderly M L := by
      unfold s5
      refine .foldl (fun u x hu => ?_) hs4 _
      split
      · exact hu
      · exact hu.rerunUntrusted ..
    split
    · exact h
    · split
      · exact hs3.activate
      · refine State.Orderly.redIntake ?_
        exact .foldl (fun u x hu => ((hu.redoBatch ..).of_hide (State.resumeSep_hide _ rfl ..)).intakeHeld ..) hs5 _

theorem State.Orderly.holdTooLong {s : State} (h : s.Orderly M L) :
    s.holdTooLong.Orderly M L := by
  unfold State.holdTooLong
  extract_lets src
  split
  · exact h.others.raise ..
  · exact h

theorem State.Orderly.droopRecover {s : State} (h : s.Orderly M L) (q : Nat) :
    (s.droopRecover q).Orderly M L := by
  unfold State.droopRecover
  extract_lets src s1 s2
  have hs1 : s1.Orderly M L := h.others
  have hs2 : s2.Orderly M L := by
    unfold s2
    exact .foldl (fun u x hu => hu.of_hide (State.resume_hide _ rfl ..)) hs1 _
  split
  · split
    · exact hs2
    · exact .foldl (fun u x hu => hu.rerunUntrusted ..) hs2 _
  · exact h

theorem State.Orderly.passes {s : State} (h : s.Orderly M L) (was : Bool) (is : Bool) :
    (s.passes was is).Orderly M L := by
  unfold State.passes
  split
  · exact h.event ..
  · exact h

theorem State.Orderly.thermal {s : State} (h : s.Orderly M L) (t : Sample) :
    (s.thermal t).Orderly M L := by
  unfold State.thermal
  extract_lets s1 die cool s2 hot high s3 over_ stops at_ src s4 s5
  have hs1 : s1.Orderly M L := h.of_hide (State.measure_hide _ rfl ..)
  have hs2 : s2.Orderly M L := hs1.of_hide (by simp [s2])
  have hs3 : s3.Orderly M L := (hs2.passes ..).passes ..
  have hs4 : s4.Orderly M L := hs3.others
  have hs5 : s5.Orderly M L := by
    unfold s5
    split
    · exact hs4.raise ..
    · exact hs4
  split
  · exact h
  · split
    · exact hs5.supplyReset ..
    · exact hs5

theorem State.Orderly.pairRefused {s : State} (h : s.Orderly M L) (q : Nat) :
    (s.pairRefused q).Orderly M L := by
  unfold State.pairRefused
  exact h.event ..

theorem State.Orderly.queueEnable {s : State} (h : s.Orderly M L) (q : Nat) (word0 : Nat) :
    (s.queueEnable q word0).Orderly M L := by
  unfold State.queueEnable
  extract_lets p p1 cause
  split
  · exact h.pairRefused ..
  · next hopen =>
    have hoff : p.enable = false := by simp_all
    split
    · exact h.setPair h _ fun _ => QueuePair.inOrder_of_disabled hoff
    · split
      · exact h.setPair h _ fun _ _ => ⟨Nat.two_pow_pos _, Nat.two_pow_pos _, Nat.two_pow_pos _, Nat.two_pow_pos _⟩
      · have hset := h.setPair h q (p := { p1 with error := true, cause := cause })
          fun _ => QueuePair.inOrder_of_disabled hoff
        exact (hset.of_hide (State.bump_hide _ rfl ..)).pairRefused ..

theorem State.Orderly.queueDisable {s : State} (h : s.Orderly M L) (q : Nat) :
    (s.queueDisable q).Orderly M L := by
  unfold State.queueDisable
  split
  · exact h.pairRefused ..
  · exact h.setPair h _ fun _ => QueuePair.inOrder_of_disabled rfl

theorem State.Orderly.queueWord {s : State} (h : s.Orderly M L) (q : Nat) (w : Nat) (v : Nat) :
    (s.queueWord q w v).Orderly M L := by
  unfold State.queueWord
  extract_lets p s1
  have hs1 : s1.Orderly M L := by
    unfold s1
    split
    · exact h.pairRefused ..
    · exact h
  clear_value s1
  split
  · exact hs1
  · split
    · split
      · exact hs1.queueEnable ..
      · split
        · exact hs1
        · exact hs1.queueDisable ..
    · split
      · exact hs1
      · split
        · exact hs1.setPair h _ fun hr => hr q
        · split
          · exact hs1.setPair h _ fun hr => hr q
          · split
            · exact hs1.setPair h _ fun hr => hr q
            · split
              · exact hs1.setPair h _ fun hr => hr q
              · exact hs1

theorem State.Orderly.queueWrite {s : State} (h : s.Orderly M L) (off : Nat) (bs : List Byte) :
    ((s.queueWrite off bs).1).Orderly M L := by
  unfold State.queueWrite
  extract_lets n
  split
  · exact h
  · refine List.foldlRecOn (motive := fun g : State × Option Nat => State.Orderly M L g.1) _ _ ?_ (fun g hg x _ => ?_)
    · exact h
    · extract_lets t q old merged touched lost
      have ht : t.Orderly M L := hg
      dsimp only
      split
      · exact ht.pairRefused ..
      · refine .foldl (fun u x hu => ?_) ht _
        split
        · exact hu.queueWord ..
        · exact hu

theorem State.Orderly.doorbell {s : State} (h : s.Orderly M L) (completion : Bool) (q : Nat) (ix : Nat) :
    ((s.doorbell completion q ix).1).Orderly M L := by
  unfold State.doorbell
  extract_lets p
  have hbad : ((s.bump Reg.QMGR_QUEUE_ERRORS).pairRefused q).Orderly M L :=
    (h.of_hide (State.bump_hide _ rfl ..)).pairRefused q
  split
  · split
    · next hok =>
      refine h.setPair h _ fun hr hen => ?_
      have hix : ix < 2 ^ p.cqExp := by simp_all [QueuePair.headOk]
      obtain ⟨hst, hsh, hct, -⟩ := hr q hen
      exact ⟨hst, hsh, hct, hix⟩
    · exact hbad
  · split
    · next hok =>
      refine h.setPair h _ fun hr hen => ?_
      have hix : ix < 2 ^ p.sqExp := by simp_all [QueuePair.tailOk]
      obtain ⟨-, hsh, hct, hch⟩ := hr q hen
      exact ⟨hix, hsh, hct, hch⟩
    · exact hbad

theorem State.Orderly.entryDone {s : State} (h : s.Orderly M L) (q : Nat) (ix : Nat) (tag : Nat) (status : Nat) (result : Nat) :
    (s.entryDone q ix tag status result).Orderly M L := by
  unfold State.entryDone
  extract_lets p rec_ s1 t
  have hs1 : s1.Orderly M L := h.writeHbm ..
  refine State.Orderly.of_hide (hs1.setPair h q fun hr hen => ?_) (State.bump_hide _ rfl ..)
  obtain ⟨hst, hsh, -, hch⟩ := hr q hen
  exact ⟨hst, hsh, Nat.mod_lt _ (Nat.two_pow_pos _), hch⟩

theorem State.Orderly.engineRead {s : State} (h : s.Orderly M L) (space : Nat) (off : Nat) (n : Nat) :
    ((s.engineRead space off n).s).Orderly M L := by
  unfold State.engineRead
  exact (h.of_hide (State.nocServe_hide _ rfl ..)).readMem ..

theorem State.Orderly.takeTurn {s : State} (h : s.Orderly M L) (q : Nat) :
    (s.takeTurn q).Orderly M L := by
  unfold State.takeTurn
  extract_lets src
  exact h.otherCtl

theorem State.Orderly.submissionStart {s : State} (h : s.Orderly M L) (q : Nat) :
    (s.submissionStart q).Orderly M L := by
  unfold State.submissionStart
  extract_lets p s1 g e next ends d
  have hs1 : s1.Orderly M L := h.takeTurn ..
  have hg : g.s.Orderly M L := hs1.engineRead ..
  have hd : d.2.Orderly M L := hg.draw
  have hnext : s.RingsInOrder → next.InOrder := by
    intro hr hen
    obtain ⟨hst, -, hct, hch⟩ := hr q hen
    exact ⟨hst, Nat.mod_lt _ (Nat.two_pow_pos _), hct, hch⟩
  split
  · exact h
  · split
    · exact (hd.setPair h _ hnext).entryDone ..
    · split
      · exact (hg.setPair h _ hnext).entryDone ..
      · split
        · exact (hg.setPair h _ hnext).entryDone ..
        · exact hg.setPair h _ hnext

theorem State.Orderly.hostStore {s : State} (h : s.Orderly M L) (space : Nat) (off : Nat) (bs : List Byte) :
    ((s.hostStore space off bs).s).Orderly M L := by
  unfold State.hostStore
  split
  · exact h.intakeRun ..
  · exact h.windowWrite ..
  · exact h.windowWrite ..
  · exact h.writeMem ..

theorem State.Orderly.sqNop {s : State} (h : s.Orderly M L) (q : Nat) (ix : Nat) :
    (s.sqNop q ix).Orderly M L := by
  unfold State.sqNop
  split
  · exact h.entryDone ..
  · exact h

theorem State.Orderly.sqFence {s : State} (h : s.Orderly M L) (q : Nat) (ix : Nat) :
    (s.sqFence q ix).Orderly M L := by
  unfold State.sqFence
  split
  · exact h.entryDone ..
  · exact h

theorem State.Orderly.entryStore {s : State} (h : s.Orderly M L) (q : Nat) (ix : Nat) (e : List Word) (bs : List Byte) (bad : Bool) :
    (s.entryStore q ix e bs bad).Orderly M L := by
  unfold State.entryStore
  split
  · exact h.entryDone ..
  · exact (h.hostStore ..).entryDone ..
  · extract_lets p
    have hp : p.s.Orderly M L := h.hostStore ..
    exact hp.entryDone ..

theorem State.Orderly.sqCopy {s : State} (h : s.Orderly M L) (q : Nat) (ix : Nat) :
    (s.sqCopy q ix).Orderly M L := by
  unfold State.sqCopy
  split
  · exact h
  · extract_lets n g
    have hg : g.s.Orderly M L := h.engineRead ..
    split
    · exact h.entryDone ..
    · split
      · exact h.entryDone ..
      · split
        · exact h.entryDone ..
        · exact hg.entryStore ..

theorem State.Orderly.sqFill {s : State} (h : s.Orderly M L) (q : Nat) (ix : Nat) :
    (s.sqFill q ix).Orderly M L := by
  unfold State.sqFill
  split
  · exact h
  · extract_lets n
    split
    · exact h.entryDone ..
    · split
      · exact h.entryDone ..
      · exact h.entryStore ..

theorem State.Orderly.sqDigest {s : State} (h : s.Orderly M L) (q : Nat) (ix : Nat) :
    (s.sqDigest q ix).Orderly M L := by
  unfold State.sqDigest
  split
  · exact h
  · extract_lets n g
    have hg : g.s.Orderly M L := h.engineRead ..
    split
    · exact h.entryDone ..
    · split
      · exact h.entryDone ..
      · split
        · exact hg.entryDone ..
        · exact hg.entryDone ..

theorem State.Orderly.zeroUnits {s : State} (h : s.Orderly M L) (us : List Nat) : (s.zeroUnits us).Orderly M L :=
  h.withCells (wf_filter _ _)

theorem State.Orderly.loadJournal {s : State} (h : s.Orderly M L) (r : ShardRec) (keep : Bool) :
    (s.loadJournal r keep).Orderly M L := by
  unfold State.loadJournal
  split
  · exact h
  · extract_lets c old
    have hc : c.s.Orderly M L := by
      unfold c
      split
      · exact h.readBlockBy (fun t o ht => ht.of_hide (State.oweBad_hide _ rfl ..)) ..
      · exact h
    split
    · exact hc.writeBlock ..
    · exact hc

theorem State.Orderly.loseInterrupted {s : State} (h : s.Orderly M L) (r : ShardRec) (undoKept : Bool) :
    (s.loseInterrupted r undoKept).Orderly M L := by
  unfold State.loseInterrupted
  extract_lets st open_
  split
  · exact ((h.inconsistent ..).setJournal ..).event ..
  · exact h

theorem State.Orderly.endTruncated {s : State} (h : s.Orderly M L) (r : ShardRec) :
    (s.endTruncated r).Orderly M L := by
  unfold State.endTruncated
  extract_lets t
  have ht : t.Orderly M L := h.endBatch ..
  split
  · exact h
  · split
    · exact ht
    · exact ht.of_hide (by simp)

theorem State.Orderly.loadJournals {s : State} (h : s.Orderly M L) (p : Plan) (keeps : Region → Bool) :
    (s.loadJournals p keeps).Orderly M L := by
  unfold State.loadJournals
  extract_lets undoKept s1
  have hs1 : s1.Orderly M L := by
    unfold s1
    refine .foldl (fun u x hu => ?_) h _
    extract_lets keep
    exact ((hu.loadJournal ..).loseInterrupted ..).endTruncated ..
  refine .foldl (fun u x hu => ?_) hs1 _
  extract_lets src
  exact hu.of_hide (State.setUpd_hide _ rfl ..)

theorem State.Orderly.preload {s : State} (h : s.Orderly M L) (r : Preload) :
    (s.preload r).Orderly M L := by
  unfold State.preload
  extract_lets a
  split
  · exact .foldl (fun u x hu => hu.writeScratch ..) h _
  · split
    · exact h.writeHbm ..
    · exact h.writeLp ..

theorem State.Orderly.meetPeers {s : State} (h : s.Orderly M L) (p : Plan) :
    (s.meetPeers p).Orderly M L := by
  unfold State.meetPeers
  refine State.Orderly.joinPeers ?_
  refine .foldl (fun u x hu => ?_) h _
  split
  · exact hu.of_hide (State.sendDigests_hide _ rfl ..)
  · exact hu

theorem State.Orderly.accept {s : State} (h : s.Orderly M L) (p : Plan) :
    (s.accept p).Orderly M L := by
  unfold State.accept
  extract_lets keeps us s1 s2
  have hs1 : s1.Orderly M L := ((h.of_hide (State.writeCodeMap_hide _ rfl ..)).zeroUnits ..).of_hide (State.takePlan_hide _ rfl ..)
  have hloaded := hs1.loadJournals p keeps
  have hs2 : s2.Orderly M L := (hloaded.of_hide (State.loadLimits_hide _ rfl ..)).of_hide (State.setReg_hide _ rfl ..)
  refine State.Orderly.meetPeers ?_ ..
  exact .foldl (fun u x hu => hu.preload ..) hs2 _

theorem State.Orderly.planLoad {s : State} (h : s.Orderly M L) (q : Nat) (ix : Nat) :
    (s.planLoad q ix).Orderly M L := by
  unfold State.planLoad
  split
  · exact h
  · extract_lets ends g
    have hg : g.s.Orderly M L := h.engineRead ..
    split
    · dsimp only [ends]
      exact h.entryDone ..
    · split
      · exact h
      · split
        · dsimp only [ends]
          exact h.entryDone ..
        · split
          · dsimp only [ends]
            exact hg.entryDone ..
          · split
            · dsimp only [ends]
              exact hg.entryDone ..
            · dsimp only [ends]
              exact (hg.accept ..).entryDone ..

theorem State.Orderly.regainPlanes {s : State} (h : s.Orderly M L) (p : Plan) :
    (s.regainPlanes p).Orderly M L := by
  unfold State.regainPlanes
  split
  · exact h
  · refine .foldl (fun u x hu => ?_) h _
    extract_lets src
    split
    · exact hu.others.event ..
    · exact hu

theorem State.Orderly.takeVariant {s : State} (h : s.Orderly M L) (c : Choice) (before : Option Nat) :
    (s.takeVariant c before).Orderly M L := by
  unfold State.takeVariant
  extract_lets req src s1 s2 src1 d
  have hs1 : s1.Orderly M L := h.others
  have hs2 : s2.Orderly M L := by
    unfold s2
    split
    · exact hs1.event ..
    · exact hs1
  clear_value s2 req
  split
  · exact hs2.others
  · split
    · exact hs2.raise ..
    · exact hs2.draw.raise ..

theorem State.Orderly.startStep {s : State} (h : s.Orderly M L) (p : Plan) (step : Nat) (slot : Nat) (retry : Bool) :
    (s.startStep p step slot retry).Orderly M L := by
  unfold State.startStep
  extract_lets src r r1 fetches src1 s1 s2 s3 s4 src2 s5 s6
  have hs1 : s1.Orderly M L := h.others
  have hs2 : s2.Orderly M L := hs1.others
  have hs3 : s3.Orderly M L := by
    unfold s3
    refine .foldl (fun u x hu => ?_) hs2 _
    extract_lets src3
    split
    · exact hu.of_hide (State.setUpd_hide _ rfl ..)
    · exact hu
  have hs4 : s4.Orderly M L := hs3.of_hide (by simp [s4])
  have hs5 : s5.Orderly M L := hs4.others
  have hs6 : s6.Orderly M L := hs5.regainPlanes ..
  exact hs6.takeVariant ..

theorem State.Orderly.runStart {s : State} (h : s.Orderly M L) :
    (s.runStart.1).Orderly M L := by
  unfold State.runStart
  split
  · exact h
  · split
    · exact h.event ..
    · extract_lets first src s1
      have hs1 : s1.Orderly M L := h.others.of_hide (State.setReg_hide _ rfl ..)
      split
      · dsimp only
        exact hs1.startStep ..
      · exact h.event ..

theorem State.Orderly.abort {s : State} (h : s.Orderly M L) :
    (s.abort.1).Orderly M L := by
  unfold State.abort
  split
  · exact h.raise ..
  · exact h.event ..

theorem State.Orderly.retryArm {s : State} (h : s.Orderly M L) (hi : Nat) :
    ((s.retryArm hi).1).Orderly M L := by
  unfold State.retryArm
  extract_lets s1 slot
  have hs1 : s1.Orderly M L := h.of_hide (State.setReg_hide _ rfl ..)
  split
  · split
    · dsimp only
      exact hs1.startStep ..
    · exact hs1.event ..
  · exact hs1.event ..

theorem State.Orderly.sendRecords {s : State} (h : s.Orderly M L) (twin step fuel : Nat) (rs : List DigestRecord) :
    (s.sendRecords twin step fuel rs).Orderly M L := by
  induction fuel generalizing s rs with
  | zero => exact h
  | succ fuel ih =>
    unfold State.sendRecords
    split
    · exact h
    · exact ih (h.draw.of_hide (State.sendRun_hide _ rfl ..)) _

theorem State.Orderly.compareTwins {s : State} (h : s.Orderly M L) (p : Plan) (step : Nat) :
    (s.compareTwins p step).Orderly M L := by
  unfold State.compareTwins
  split
  · exact h
  · extract_lets s1 stale s2 key now old new src
    have hs1 : s1.Orderly M L := by
      unfold s1
      split
      · exact h.sendRecords ..
      · exact h
    have hs2 : s2.Orderly M L := by
      unfold s2
      refine .foldl (fun u x hu => ?_) hs1 _
      split
      · exact hu.of_hide (State.bump_hide _ rfl ..)
      · exact hu
    split
    · exact h
    · exact hs2.others

theorem State.Orderly.mirrorMissing {s : State} (h : s.Orderly M L) (st : Nat) (shard : Nat) :
    (s.mirrorMissing st shard).Orderly M L := by
  unfold State.mirrorMissing
  exact ((h.setJournal ..).of_hide (State.bump_hide _ rfl ..)).event ..

theorem State.Orderly.digestMismatch {s : State} (h : s.Orderly M L) (st : Nat) (shard : Nat) :
    (s.digestMismatch st shard).Orderly M L := by
  unfold State.digestMismatch
  exact h.raise ..

theorem State.Orderly.compareRecord {s : State} (h : s.Orderly M L) (r : DigestRecord) :
    (s.compareRecord r).Orderly M L := by
  unfold State.compareRecord
  extract_lets s1
  have hs1 : s1.Orderly M L := h.of_hide (State.digestSettled_hide _ rfl ..)
  split
  · exact h.event ..
  · split
    · exact hs1
    · split
      · exact hs1.mirrorMissing ..
      · split
        · split
          · exact hs1
          · exact hs1.digestMismatch ..
        · split
          · exact hs1
          · exact hs1.digestMismatch ..

theorem State.Orderly.twinDigests {s : State} (h : s.Orderly M L) (step : Nat) (records : List DigestRecord) :
    (s.twinDigests step records).Orderly M L := by
  unfold State.twinDigests
  refine State.Orderly.of_hide ?_ (State.earlyDigests_hide _ rfl ..)
  exact .foldl (fun u x hu => hu.compareRecord ..) h _

theorem State.Orderly.digestExpiry {s : State} (h : s.Orderly M L) (st : Nat) (shard : Nat) :
    (s.digestExpiry st shard).Orderly M L := by
  unfold State.digestExpiry
  split
  · split
    · exact (h.of_hide (State.digestSettled_hide _ rfl ..)).mirrorMissing ..
    · exact h
  · exact h

theorem State.Orderly.twinLost {s : State} (h : s.Orderly M L) :
    s.twinLost.Orderly M L := by
  unfold State.twinLost
  split
  · exact h
  · split
    · exact h.event ..
    · exact h

theorem State.Orderly.capStep {s : State} (h : s.Orderly M L) (slots : Nat) :
    (s.capStep slots).Orderly M L := by
  unfold State.capStep
  extract_lets p c d q n s1 run unmet s2 src src1
  have hq : q.2.Orderly M L := by
    unfold q
    split
    · exact h
    · exact h.draw
  have hs1 : s1.Orderly M L := hq.of_hide (State.setReg_hide _ rfl ..)
  have hs2 : s2.Orderly M L := hs1.passes ..
  exact hs2.others

theorem State.Orderly.boundaryActions {s : State} (h : s.Orderly M L) (p : Plan) (slots : Nat) :
    (s.boundaryActions p slots).Orderly M L := by
  unfold State.boundaryActions
  extract_lets s1 s2 s3
  have hs1 : s1.Orderly M L := h.of_hide (by simp [s1])
  have hs2 : s2.Orderly M L := hs1.takeSnapshot
  have hs3 : s3.Orderly M L := hs2.compareTwins ..
  exact hs3.capStep ..

theorem State.Orderly.boundary {s : State} (h : s.Orderly M L) :
    s.boundary.Orderly M L := by
  unfold State.boundary
  split
  · exact h
  · split
    · exact h
    · extract_lets s1 s2 src s3 c old s4 s5
      have hs1 : s1.Orderly M L := (h.boundaryActions ..).of_hide (State.bump_hide _ rfl ..)
      have hs2 : s2.Orderly M L := hs1.of_hide (State.setReg_hide _ rfl ..)
      have hs3 : s3.Orderly M L := h.regainPlanes ..
      have hs4 : s4.Orderly M L := hs3.boundaryActions ..
      have hs5 : s5.Orderly M L := (hs4.takeVariant ..).of_hide (State.bump_hide _ rfl ..)
      split
      · exact h
      · split
        · split
          · exact hs2
          · exact hs2.others.of_hide (State.settle_hide _ rfl ..)
        · split
          · exact hs3.takeVariant ..
          · split
            · exact hs4
            · exact hs5.of_hide (by simp)

theorem State.Orderly.writePlain {s : State} (h : s.Orderly M L) (addr : Nat) (v : Nat) :
    ((s.writePlain addr v).1).Orderly M L := by
  unfold State.writePlain
  split
  · exact h
  · extract_lets src
    split
    · split
      · exact h
      · exact h.otherCtl.of_hide (State.setReg_hide _ rfl ..)
    · exact h.of_hide (State.setReg_hide _ rfl ..)

theorem State.Orderly.ignored {s : State} (h : s.Orderly M L) (addr : Nat) :
    ((s.ignored addr).1).Orderly M L := by
  unfold State.ignored
  dsimp only
  exact h.event ..

theorem State.Orderly.armFlip {s : State} (h : s.Orderly M L) (cls : Nat) (inst : Nat) (hi : Nat) :
    ((s.armFlip cls inst hi).1).Orderly M L := by
  unfold State.armFlip
  extract_lets s1
  have hs1 : s1.Orderly M L := h.of_hide (State.setReg_hide _ rfl ..)
  split
  · exact h
  · split
    · exact h.ignored ..
    · exact hs1.of_hide (State.setReg_hide _ rfl ..)

theorem State.Orderly.codeRegionWrite {s : State} (h : s.Orderly M L) (st : Nat) (i : Nat) (v : Nat) :
    ((s.codeRegionWrite st i v).1).Orderly M L := by
  unfold State.codeRegionWrite
  extract_lets a w meets
  split
  · exact h.ignored ..
  · exact h.of_hide (by simp)

theorem State.Orderly.cmdSubmit {s : State} (h : s.Orderly M L) (cls : Nat) (st : Nat) :
    ((s.cmdSubmit cls st).1).Orderly M L := by
  unfold State.cmdSubmit
  extract_lets sep a full word c s1 src src1
  have hs1 : s1.Orderly M L := h.of_hide (by simp [s1])
  split
  · exact h.ignored ..
  · split
    · exact hs1.of_hide (State.setSep_hide _ rfl ..)
    · exact hs1.of_hide (State.setUpd_hide _ rfl ..)

theorem State.Orderly.portConfig {s : State} (h : s.Orderly M L) (p : Nat) (v : Nat) :
    ((s.portConfig p v).1).Orderly M L := by
  unfold State.portConfig
  extract_lets a now held speed s1 s2
  have hs1 : s1.Orderly M L := h.of_hide (State.setReg_hide _ rfl ..)
  have hs2 : s2.Orderly M L := by
    unfold s2
    split
    · exact hs1
    · exact hs1.portDown ..
  split
  · exact hs2.ignored ..
  · exact hs2

theorem State.Orderly.numberWrite {s : State} (h : s.Orderly M L) (v : Nat) :
    ((s.numberWrite v).1).Orderly M L := by
  unfold State.numberWrite
  extract_lets s1 src
  have hs1 : s1.Orderly M L := h.of_hide (State.setReg_hide _ rfl ..)
  split
  · exact h
  · exact hs1.others.joinTwin

theorem State.Orderly.runControlWrite {s : State} (h : s.Orderly M L) (v : Nat) :
    ((s.runControlWrite v).1).Orderly M L := by
  unfold State.runControlWrite
  extract_lets r
  have hr : r.1.Orderly M L := h.abort
  split
  · exact hr
  · split
    · exact h.runStart
    · exact h.of_hide (State.runEnd_hide _ rfl ..)

theorem State.Orderly.writePhase {s : State} (h : s.Orderly M L) (addr : Nat) (v : Nat) :
    ((s.writePhase addr v).1).Orderly M L := by
  unfold State.writePhase
  split
  · exact h.ignored ..
  · split
    · exact h.of_hide (State.requestVariant_hide _ rfl ..)
    · split
      · exact h.runControlWrite ..
      · split
        · exact h.retryArm ..
        · split
          · exact h.of_hide (State.armShapes_hide _ rfl ..)
          · exact h.writePlain ..

theorem State.Orderly.ite {p : Prop} [Decidable p] {a b : State × Bool} (ha : a.1.Orderly M L)
    (hb : b.1.Orderly M L) : (if p then a else b).1.Orderly M L := by
  split
  · exact ha
  · exact hb

theorem State.Orderly.whenBit {x : State × Bool} (h : x.1.Orderly M L) (v i : Nat) {f : State → State × Bool}
    (hf : ∀ t : State, t.Orderly M L → (f t).1.Orderly M L) : (whenBit v i f x).1.Orderly M L := by
  unfold Machine.whenBit
  exact .ite (hf _ h) h

theorem State.Orderly.writeSystem {s : State} (h : s.Orderly M L) (addr : Nat) (v : Nat) :
    ((s.writeSystem addr v).1).Orderly M L := by
  unfold State.writeSystem
  refine .ite ?_ (.ite ?_ (.ite ?_ (.ite ?_ ?_)))
  · exact h.safeRelease ..
  · exact .whenBit h _ _ fun t ht => ht.stopRequest
  · exact .whenBit (.whenBit h _ _ fun t ht => ht.restoreStart ..) _ _
      fun t ht => ht.of_hide (State.restoreAbort_hide _ rfl ..)
  · exact .whenBit (.whenBit (.whenBit h _ _ fun t ht => ht.userSet) _ _ fun t ht => ht.userClear) _ _
      fun t ht => ht.userClearAll
  · exact h.writePlain ..

theorem State.Orderly.writeBoot {s : State} (h : s.Orderly M L) (parlour : Bool) (addr : Nat) (v : Nat) :
    ((s.writeBoot parlour addr v).1).Orderly M L := by
  unfold State.writeBoot
  refine .ite ?_ (.ite ?_ (.ite ?_ (.ite ?_ (.ite ?_ (.ite ?_ (.ite ?_ (.ite ?_ (.ite ?_ (.ite ?_ ?_)))))))))
  · exact h.ignored ..
  · exact h.stageAppend ..
  · exact .whenBit h _ _ fun t ht => ht.of_hide (State.parlourCommit_hide _ rfl ..)
  · exact .whenBit h _ _ fun t ht => ht.parlourActivate
  · exact h.activateArm ..
  · exact .whenBit h _ _ fun t ht => ht.of_hide (State.activateCancel_hide _ rfl ..)
  · exact h.svnCommit ..
  · exact .whenBit h _ _ fun t ht => ht.stageStart _
  · exact .whenBit (.whenBit h _ _ fun t ht => ht.bindCmd) _ _ fun t ht => ht.unbindCmd
  · exact .whenBit (.whenBit h _ _ fun t ht => ht.anchorSet _) _ _ fun t ht => ht.anchorClear _
  · exact h.writePlain ..

theorem State.Orderly.writePage0 {s : State} (h : s.Orderly M L) (addr : Nat) (v : Nat) :
    ((s.writePage0 addr v).1).Orderly M L := by
  unfold State.writePage0
  extract_lets cls inst off
  split
  · dsimp only
    split
    · exact h.of_hide (State.clearCounters_hide _ rfl ..)
    · exact h
  · split
    · exact h.of_hide (State.clearLatch_hide _ rfl ..)
    · split
      · exact h.of_hide (State.pailConfig_hide _ rfl ..)
      · split
        · exact h
        · split
          · exact h.armFlip ..
          · exact h.writePlain ..

theorem State.Orderly.writeReg {s : State} (h : s.Orderly M L) (parlour : Bool) (addr : Nat) (v : Nat) :
    ((s.writeReg parlour addr v).1).Orderly M L := by
  unfold State.writeReg
  extract_lets cls inst page off
  clear_value cls inst page off
  refine .ite h (.ite h (.ite (h.writePage0 ..) ?_))
  split
  · exact .ite (h.codeRegionWrite ..) (h.writePlain ..)
  · refine .ite ?_ (.ite ?_ (.ite ?_ ?_))
    · exact .whenBit h _ _ fun t ht => ht.cmdSubmit ..
    · exact h.of_hide (State.armHp_hide _ rfl ..)
    · exact h.snapRequest ..
    · exact h.writePlain ..
  · exact .ite (.whenBit h _ _ fun t ht => ht.cmdSubmit ..) (h.writePlain ..)
  · exact .ite (h.portConfig ..) (h.writePlain ..)
  · exact .ite (h.numberWrite ..) (.ite h (h.writePlain ..))
  · exact .ite (.whenBit h _ _ fun t ht => ht.ackIdentity) (h.writePlain ..)
  · exact h.writePhase ..
  · exact h.writeSystem ..
  · exact h.writeSystem ..
  · exact h.writeSystem ..
  · exact h.writeBoot ..
  · exact h.writePlain ..

theorem State.Orderly.sendReply {s : State} (h : s.Orderly M L) (f : Session) (opcode : Nat) (retry : Nat) (a : Answer) :
    (s.sendReply f opcode retry a).Orderly M L := by
  unfold State.sendReply
  extract_lets src
  split
  · exact h.sendMgmt ..
  · exact h.of_hide (State.sendRun_hide _ rfl ..)

theorem State.Orderly.serve {s : State} (h : s.Orderly M L) (f : Session) (opcode : Nat) (early : Bool)
    {act : State → Answer} (hact : (act s).s.Orderly M L) : (s.serve f opcode early act).Orderly M L := by
  unfold State.serve
  extract_lets d s1 a s2
  have hs2 : s2.Orderly M L := by
    unfold s2
    split
    · exact hact.of_hide (State.bumpQmgr_hide _ rfl ..)
    · exact hact
  split
  · exact h
  · split
    · exact h.draw.sendReply ..
    · split
      · exact (h.of_hide (State.bumpQmgr_hide _ rfl ..)).sendReply ..
      · exact hs2.sendReply ..

theorem State.Orderly.messageWrite {s : State} (h : s.Orderly M L) (parlour : Bool) (addr : Nat) (v : Nat) :
    ((s.messageWrite parlour addr v).1).Orderly M L := by
  unfold State.messageWrite
  extract_lets cls inst w
  have hw : w.1.Orderly M L := h.writeReg ..
  split
  · exact hw
  · split
    · exact hw.of_hide (State.bump_hide _ rfl ..)
    · split
      · exact hw
      · exact hw.of_hide (State.bump_hide _ rfl ..)

theorem State.Orderly.writeRegs {s : State} (h : s.Orderly M L) (parlour : Bool) (addr : Nat) (first : Option Nat)
    (vs : List Nat) : (s.writeRegs parlour addr first vs).1.Orderly M L := by
  induction vs generalizing s addr first with
  | nil => exact h
  | cons v vs ih => exact ih (h.messageWrite parlour addr v) ..

theorem State.Orderly.ignoredAnswer {s : State} (h : s.Orderly M L) (count : Nat) (first : Option Nat)
    (data : List Byte) : (ignoredAnswer s count first data).s.Orderly M L := by
  cases first with
  | none => exact h
  | some addr => exact h

theorem State.Orderly.regWriteAct {s : State} (h : s.Orderly M L) (parlour : Bool) (addr : Nat) (vs : List Nat) :
    ((s.regWriteAct parlour addr vs).s).Orderly M L := by
  unfold State.regWriteAct
  split
  case h_1 a ha => rwa [State.regCheck_state _ _ _ _ _ ha]
  case h_2 => exact (h.writeRegs parlour addr none vs).ignoredAnswer ..

theorem State.Orderly.modifyRegs {s : State} (h : s.Orderly M L) (parlour : Bool) (addr : Nat) (first : Option Nat)
    (vs : List (Nat × Nat)) : (s.modifyRegs parlour addr first vs).1.Orderly M L := by
  induction vs generalizing s addr first with
  | nil => exact h
  | cons v vs ih =>
    have hread : (s.readReg addr).2.Orderly M L := h.of_hide (State.readReg_hide _ rfl ..)
    exact ih (hread.messageWrite ..) ..

theorem State.Orderly.regModifyAct {s : State} (h : s.Orderly M L) (parlour : Bool) (addr : Nat) (vs : List (Nat × Nat)) :
    ((s.regModifyAct parlour addr vs).s).Orderly M L := by
  unfold State.regModifyAct
  split
  case h_1 a ha => rwa [State.regCheck_state _ _ _ _ _ ha]
  case h_2 => exact (h.modifyRegs parlour addr none vs).ignoredAnswer ..

theorem State.Orderly.memReadAct {s : State} (h : s.Orderly M L) (n : Nat) (a : Nat) :
    ((s.memReadAct n a).s).Orderly M L := by
  unfold State.memReadAct
  extract_lets g
  have hg : g.s.Orderly M L := (h.of_hide (State.nocServe_hide _ rfl ..)).readMem ..
  split
  · exact h.of_hide (State.badLength_hide _ rfl ..)
  · split
    · exact h.of_hide (State.badAddress_hide _ rfl ..)
    · split
      · exact h
      · split
        · exact h
        · split
          · exact hg
          · exact hg

theorem State.Orderly.memStore {s : State} (h : s.Orderly M L) (a : Nat) (bs : List Byte) :
    ((s.memStore a bs).s).Orderly M L := by
  unfold State.memStore
  extract_lets p t
  have hp : p.s.Orderly M L := (h.of_hide (State.nocStore_hide _ rfl ..)).hostStore ..
  have ht : t.Orderly M L := by
    unfold t
    split
    · exact hp.of_hide (State.flipHbm_hide _ rfl ..)
    · exact hp
  split
  · exact ht
  · exact ht

theorem State.Orderly.memWriteAct {s : State} (h : s.Orderly M L) (a : Nat) (bs : List Byte) :
    ((s.memWriteAct a bs).s).Orderly M L := by
  unfold State.memWriteAct
  extract_lets n w
  have hw : w.1.Orderly M L := h.queueWrite ..
  have hbad : (s.badAddress a).s.Orderly M L := h.of_hide (State.badAddress_hide _ rfl ..)
  split
  · exact h.of_hide (State.badLength_hide _ rfl ..)
  · split
    · exact hbad
    · split
      · split
        · exact hbad
        · split
          · exact h
          · exact hw.ignoredAnswer ..
      · split
        · exact hbad
        · split
          · exact hbad
          · exact h
          · exact (h.hostStore ..).of_hide (State.badAddress_hide _ rfl ..)
          · exact h.memStore ..

theorem State.Orderly.doorbellAct {s : State} (h : s.Orderly M L) (completion : Bool) (q : Nat) (ix : Nat) :
    ((s.doorbellAct completion q ix).s).Orderly M L := by
  unfold State.doorbellAct
  extract_lets d
  have hd : d.1.Orderly M L := h.doorbell ..
  split
  · exact h.of_hide (State.badArgument_hide _ rfl ..)
  · split
    · exact h.of_hide (State.badArgument_hide _ rfl ..)
    · exact hd

theorem State.Orderly.eventFetchAct {s : State} (h : s.Orderly M L) (n : Nat) (from_ : Nat) (ack : Nat) :
    ((s.eventFetchAct n from_ ack).s).Orderly M L := by
  unfold State.eventFetchAct
  extract_lets src s1 rs gap
  have hs1 : s1.Orderly M L := h.withLog rfl fun hlog => by
    obtain ⟨hsorted, hbelow, hcap⟩ := hlog
    exact ⟨hsorted.filter _, fun r hr => hbelow r (List.mem_of_mem_filter hr), (List.length_filter_le ..).trans hcap⟩
  split
  · exact h.of_hide (State.badLength_hide _ rfl ..)
  · exact hs1

theorem State.Orderly.attestAct {s : State} (h : s.Orderly M L) (nonce : List Byte) :
    ((s.attestAct nonce).s).Orderly M L := by
  unfold State.attestAct
  extract_lets body d report src src1
  split
  · exact h.of_hide (State.badArgument_hide _ rfl ..)
  · split
    · exact h
    · exact h.draw.otherCtl

theorem State.Orderly.digestsAct {s : State} (h : s.Orderly M L) (f : Session) (step : Nat) (records : List DigestRecord) :
    ((s.digestsAct f step records).s).Orderly M L := by
  unfold State.digestsAct
  split
  · exact h.of_hide (State.badOpcode_hide _ rfl ..)
  · split
    · exact h.of_hide (State.badLength_hide _ rfl ..)
    · exact h.twinDigests ..

theorem State.Orderly.messageAct {s : State} (h : s.Orderly M L) (f : Session) (bs : List Byte) :
    ((State.messageAct f bs s).s).Orderly M L := by
  unfold State.messageAct
  extract_lets op n arg addr data
  clear_value op
  split
  · exact h.of_hide (State.badOpcode_hide _ rfl ..)
  · split
    · exact h.of_hide (State.badArgument_hide _ rfl ..)
    · split
      · exact h.of_hide (State.badLength_hide _ rfl ..)
      · split
        · exact h
        · exact h.of_hide (State.regReadAct_hide _ rfl ..)
        · exact h.regWriteAct ..
        · exact h.regModifyAct ..
        · exact h.memReadAct ..
        · exact h.memWriteAct ..
        · exact h.doorbellAct ..
        · exact h.eventFetchAct ..
        · exact h.attestAct ..
        · exact h.digestsAct ..

theorem State.Orderly.message {s : State} (h : s.Orderly M L) (f : Session) (bs : List Byte) :
    (s.message f bs).Orderly M L := by
  unfold State.message
  split
  · exact h
  · exact h.serve _ _ _ (h.messageAct ..)

theorem State.Orderly.requestStops {s : State} (h : s.Orderly M L) (r : Req) (why : Stop) :
    (s.requestStops r why).Orderly M L := by
  unfold State.requestStops
  extract_lets s1
  have hs1 : s1.Orderly M L := h.of_hide (State.dropRequest_hide _ rfl ..)
  split
  · exact hs1.raise ..
  · exact (hs1.of_hide (State.parityHit_hide _ rfl ..)).raise ..
  · exact hs1

theorem State.Orderly.fillRun {f : Filling} (h : f.s.Orderly M L) (r : Req) (x : Nat × Nat × List Byte) :
    ((fillRun r f x).s).Orderly M L := by
  unfold Machine.fillRun
  extract_lets core off bs count w parts p
  have hcount (n : Nat) (u : State) (hu : u.Orderly M L) : (count n u).Orderly M L := by
    unfold count
    split
    · exact hu.of_hide (State.bumpBy_hide _ rfl ..)
    · exact hu
  have hw : w.1.Orderly M L := h.wholeBlocks ..
  have hp : p.1.Orderly M L := h.of_hide (State.parityReads_hide _ rfl ..)
  clear_value w p
  split
  · exact h
  · split
    · exact hcount _ _ (hw.putBytes ..)
    · split
      · exact hp
      · exact hcount _ _ ((hp.putBytes ..).of_hide (State.bumpBy_hide _ rfl ..))

theorem State.Orderly.fillKey {s : State} (h : s.Orderly M L) (r : Req) (key : Nat) (bs : List Byte) :
    ((s.fillKey r key bs).s).Orderly M L := by
  unfold State.fillKey
  extract_lets core off
  split
  · exact h
  · refine State.Orderly.fillRun ?_ ..
    dsimp only
    exact h

theorem State.Orderly.fillRows {s : State} (h : s.Orderly M L) (r : Req) (rows : List (Nat × List Byte)) :
    ((s.fillRows r rows).s).Orderly M L := by
  unfold State.fillRows
  refine List.foldlRecOn (motive := fun g : Filling => State.Orderly M L g.s) _ _ ?_ (fun g hg x _ => ?_)
  · exact h
  · exact hg.fillRun ..

theorem State.Orderly.mirrorWritten {s : State} (h : s.Orderly M L) (id : FlowId) (x : Place) (g : Nat) :
    (s.mirrorWritten id x g).Orderly M L := by
  unfold State.mirrorWritten
  extract_lets a r h1 d s1 w
  have hr : r.s.Orderly M L := h.readLp ..
  have hd : d.s.Orderly M L := by
    unfold d
    split
    · exact hr.readLp ..
    · exact hr
  have hs1 : s1.Orderly M L := hd
  have hw : w.s.Orderly M L := hs1.writeLp ..
  split
  · exact hw.of_hide (State.emit_hide _ rfl ..)
  · exact hs1.event ..

theorem State.Orderly.mirrorBlock {s : State} (h : s.Orderly M L) (id : FlowId) (c : Cargo) (x : Place × Nat × Nat) :
    (s.mirrorBlock id c x).Orderly M L := by
  unfold State.mirrorBlock
  extract_lets off bs s1
  have hs1 : s1.Orderly M L := h.writeLp ..
  split
  · exact hs1.mirrorWritten ..
  · exact hs1

theorem State.Orderly.storeRegs {s t : State} (h : s.Orderly M L) {o : Nat} {bs : List Byte}
    (ht : s.storeRegs o bs = some t) : t.Orderly M L := by
  unfold State.storeRegs at ht
  extract_lets len at ht
  split at ht
  · obtain rfl := Option.some.inj ht
    exact .foldl (fun u i hu => hu.writeReg ..) h _
  · cases ht

theorem State.Orderly.writeBlockIn {s : State} (h : s.Orderly M L) (id : FlowId) (c : Cargo) :
    (s.writeBlockIn id c).Orderly M L := by
  unfold State.writeBlockIn
  extract_lets a n no ends p
  have hno : no.Orderly M L := h.of_hide (State.refuseRemote_hide _ rfl ..)
  have hends (u : State) (hu : u.Orderly M L) : (ends u).Orderly M L := by
    unfold ends
    split
    · exact hu.of_hide (State.answer_hide _ rfl ..)
    · exact hu
  have hp : p.s.Orderly M L := h.hostStore ..
  split
  · exact hno
  · split
    · split
      · exact hno
      · exact hp.of_hide (State.refuseRemote_hide _ rfl ..)
      · split
        · exact hends _ hp
        · exact hp.of_hide (State.emit_hide _ rfl ..)
    · split
      · exact hno
      · split
        · exact hends _ (h.writeLp ..)
        · split
          · exact hends _ (h.mirrorBlock ..)
          · exact hno
    · split
      · next t ht => exact hends _ (h.storeRegs ht)
      · exact hno
    · split
      · exact hends _ (h.queueWrite ..)
      · exact hno
    · exact hno

theorem State.Orderly.writeRequest {s : State} (h : s.Orderly M L) (id : FlowId) (c : Cargo) :
    (s.writeRequest id c).Orderly M L := by
  unfold State.writeRequest
  split
  · exact h.of_hide (State.holdRequest_hide _ rfl ..)
  · exact h.writeBlockIn ..

theorem State.Orderly.readOwn {s : State} (h : s.Orderly M L) (rd : Reader) (a : Nat) (n : Nat) :
    ((s.readOwn rd a n).s).Orderly M L := by
  unfold State.readOwn
  extract_lets no o r
  have hno : no.s.Orderly M L := by
    unfold no
    dsimp only
    exact h
  have hr : r.1.Orderly M L := h.of_hide (State.readRegs_hide _ rfl ..)
  split
  · split
    · exact hr
    · exact hno
  · split
    · exact h
    · exact hno
  · extract_lets g
    have hg : g.s.Orderly M L := h.readMem ..
    split
    · exact hno
    · split
      · exact hg
      · exact hg

theorem State.Orderly.readFor {s : State} (h : s.Orderly M L) (id : FlowId) (a : Nat) (n : Nat) :
    ((s.readFor id a n).s).Orderly M L := by
  unfold State.readFor
  split
  · exact h
  · exact (h.of_hide (State.nocServe_hide _ rfl ..)).readOwn ..

theorem State.Orderly.readAll {s : State} (h : s.Orderly M L) (id : FlowId) (xs : List (Nat × Nat)) :
    (s.readAll id xs).s.Orderly M L := by
  induction xs generalizing s with
  | nil => exact h
  | cons x xs ih =>
    have ha := h.readFor id x.1 x.2
    unfold State.readAll
    dsimp only
    split
    · exact ha
    · exact ih ha

theorem State.Orderly.serveRead {s : State} (h : s.Orderly M L) (id : FlowId) (c : Cargo) :
    (s.serveRead id c).Orderly M L := by
  unfold State.serveRead
  extract_lets g h1
  have hg : g.s.Orderly M L := h.readAll ..
  split
  · exact hg.of_hide (State.sendRun_hide _ rfl ..)
  · exact hg.of_hide (State.emit_hide _ rfl ..)

theorem State.Orderly.readRequest {s : State} (h : s.Orderly M L) (id : FlowId) (c : Cargo) :
    (s.readRequest id c).Orderly M L := by
  unfold State.readRequest
  split
  · exact h.of_hide (State.holdRequest_hide _ rfl ..)
  · exact h.serveRead ..

theorem State.Orderly.redBlock {s : State} (h : s.Orderly M L) (plane : Nat) (c : Cargo) :
    ((s.redBlock plane c).s).Orderly M L := by
  unfold State.redBlock
  extract_lets d
  have hd : d.s.Orderly M L := h.reduceBlock ..
  dsimp only
  exact hd

theorem State.Orderly.redRequest {s : State} (h : s.Orderly M L) (plane : Nat) (id : FlowId) (c : Cargo) :
    ((s.redRequest plane id c).s).Orderly M L := by
  unfold State.redRequest
  split
  · exact h.of_hide (State.holdRequest_hide _ rfl ..)
  · exact h.redBlock ..

theorem State.Orderly.redAgain {s : State} (h : s.Orderly M L) (id : FlowId) (c : Cargo) :
    (s.redAgain id c).Orderly M L := by
  unfold State.redAgain
  extract_lets d
  have hd : d.s.Orderly M L := h.redRequest ..
  split
  · exact hd
  · exact h.of_hide (State.holdRequest_hide _ rfl ..)

theorem State.Orderly.serveHeld {s : State} (h : s.Orderly M L) :
    s.serveHeld.Orderly M L := by
  unfold State.serveHeld
  extract_lets src
  refine .foldl (fun u x hu => ?_) h.others _
  split
  · exact hu.writeRequest ..
  · split
    · exact hu.redAgain ..
    · exact hu.readRequest ..

theorem State.Orderly.gatherBlock {s : State} (h : s.Orderly M L) (id : FlowId) (c : Cargo) :
    (s.gatherBlock id c).Orderly M L := by
  unfold State.gatherBlock
  split
  · exact h.readRequest ..
  · exact h.of_hide (State.refuseRemote_hide _ rfl ..)

theorem State.Orderly.fillPieces {s : State} (h : s.Orderly M L) (q : Nat) (o : Nat) (bs : List Byte) (dest : List (Nat × Nat × Nat)) :
    (s.fillPieces q o bs dest).Orderly M L := by
  unfold State.fillPieces
  split
  · exact h
  · extract_lets f
    have hf : f.s.Orderly M L := by
      unfold f
      refine List.foldlRecOn (motive := fun g : Filling => State.Orderly M L g.s) _ _ ?_ (fun g hg x _ => ?_)
      · exact h
      · extract_lets p
        split
        · exact hg
        · exact hg.fillKey ..
    split
    · exact hf
    · exact hf.requestStops ..

theorem State.Orderly.errorAnswer {s : State} (h : s.Orderly M L) (id : FlowId) (tag : Word) (e : AnswerError) :
    (s.errorAnswer id tag e).Orderly M L := by
  unfold State.errorAnswer
  split
  · exact h
  · extract_lets code s1
    have hs1 : s1.Orderly M L := h.endRequest ..
    split
    · exact hs1.raise ..
    · exact hs1

theorem State.Orderly.answered {s : State} (h : s.Orderly M L) (r : RemoteReq) (n : Nat) :
    (s.answered r n).Orderly M L := by
  unfold State.answered
  extract_lets t
  have ht : t.Orderly M L := h.of_hide (State.dropRemote_hide _ rfl ..)
  split
  · exact ht.importGot ..
  · exact ht.headerGot ..
  · exact ht.imageGot ..
  · exact ht.of_hide (State.fetchAnswered_hide _ rfl ..)
  · exact ht

theorem State.Orderly.dataBlock {s : State} (h : s.Orderly M L) (id : FlowId) (c : Cargo) :
    (s.dataBlock id c).Orderly M L := by
  unfold State.dataBlock
  split
  · exact h
  · extract_lets o left r'
    split
    · extract_lets s1
      have hs1 : s1.Orderly M L := h.fillPieces ..
      split
      · exact hs1.answered ..
      · exact hs1.of_hide (State.modRemote_hide _ rfl ..)
    · split
      · exact h.answered ..
      · exact h.of_hide (State.modRemote_hide _ rfl ..)
    · split
      · exact h.answered ..
      · exact h.of_hide (State.modRemote_hide _ rfl ..)
    · split
      · exact h.answered ..
      · exact h.of_hide (State.modRemote_hide _ rfl ..)
    · exact h

theorem State.Orderly.nakked {s : State} (h : s.Orderly M L) (id : FlowId) (seq : Word) (busy : Bool) :
    (s.nakked id seq busy).Orderly M L := by
  unfold State.nakked
  split
  · exact h.of_hide (State.setTx_hide _ rfl ..)
  · exact h.resend ..

theorem State.Orderly.controlBlock {s : State} (h : s.Orderly M L) (port : Fin 8) (id : FlowId) (c : Cargo) :
    ((s.controlBlock port id c).s).Orderly M L := by
  unfold State.controlBlock
  extract_lets f bs p s1
  have hs1 : s1.Orderly M L := h.of_hide (by simp [s1])
  split
  · exact h.of_hide (by simp)
  · split
    · exact h.of_hide (State.bump_hide _ rfl ..)
    · exact (hs1.message ..).of_hide (taken_hide _ rfl ..)

theorem State.Orderly.notice {s : State} (h : s.Orderly M L) (plane : Nat) (tag : Word) :
    (s.notice plane tag).Orderly M L := by
  unfold State.notice
  split
  · exact h.losePlane ..
  · exact h

theorem State.Orderly.readRow {g : Rows} (h : g.s.Orderly M L) (r : Req) (e : FetchEntry) (x : Nat × Option Nat) :
    ((readRow r e g x).s).Orderly M L := by
  unfold Machine.readRow
  split
  · exact h
  · split
    · exact h.of_hide (State.rangeMisses_hide _ rfl ..)
    · extract_lets d s
      have hd : d.s.Orderly M L := (h.of_hide (State.nocRead_hide _ rfl ..)).readOwn ..
      have hs : s.Orderly M L := by
        unfold s
        split
        · exact hd.of_hide (State.bumpBy_hide _ rfl ..)
        · exact hd
      split
      · exact hs
      · exact hs

theorem State.Orderly.storeOwn {s : State} (h : s.Orderly M L) (r : Req) (a : Nat) (bs : List Byte) :
    ((s.storeOwn r a bs).s).Orderly M L := by
  unfold State.storeOwn
  extract_lets no p p1
  split
  · split
    · exact h.intakeRun ..
    · exact h.writeMem ..
    · exact h
  · split
    · exact h.writeLp ..
    · exact h
  · split
    · next t ht => exact h.storeRegs ht
    · exact h
  · split
    · exact h.queueWrite ..
    · exact h
  · exact h


theorem State.Orderly.storeRuns {s : State} (h : s.Orderly M L) (r : Req) (runs : List (Nat × List Byte)) :
    ((s.storeRuns r runs).s).Orderly M L := by
  unfold State.storeRuns
  refine List.foldlRecOn (motive := fun g : Stored => State.Orderly M L g.s) _ _ ?_ (fun g hg x _ => ?_)
  · exact h
  · split
    · exact hg
    · exact (hg.of_hide (State.nocWrite_hide _ rfl ..)).storeOwn ..

theorem State.Orderly.carried {s : State} (h : s.Orderly M L) (r : Req) (stop : Option Stop) :
    (s.carried r stop).Orderly M L := by
  unfold State.carried
  split
  · exact h.of_hide (State.begun_hide _ rfl ..)
  · exact h.requestStops ..

theorem State.Orderly.fillOwn {s : State} (h : s.Orderly M L) (r : Req) (e : FetchEntry) :
    (s.fillOwn r e).Orderly M L := by
  unfold State.fillOwn
  extract_lets l s1 x g f
  have hl : l.1.Orderly M L := h.of_hide (State.listBad_hide _ rfl ..)
  have hs1 : s1.Orderly M L := hl
  have hg : g.s.Orderly M L := by
    unfold g
    refine List.foldlRecOn (motive := fun g : Rows => State.Orderly M L g.s) _ _ ?_ (fun g hg x _ => ?_)
    · exact hs1
    · exact hg.readRow ..
  have hf : f.s.Orderly M L := hg.fillRows ..
  split
  · exact hs1.requestStops ..
  · exact hf.carried ..

theorem State.Orderly.localMove {s : State} (h : s.Orderly M L) (r : Req) (e : FetchEntry) :
    (s.localMove r e).Orderly M L := by
  unfold State.localMove
  extract_lets x rows s1 s2 f
  have hx : x.s.Orderly M L := h.of_hide (State.sourceRows_hide _ rfl ..)
  have hs1 : s1.Orderly M L := hx
  have hs2 : s2.Orderly M L := by
    unfold s2
    split
    · exact hs1.of_hide (State.bumpBy_hide _ rfl ..)
    · exact hs1
  have hf : f.s.Orderly M L := hs2.fillRows ..
  exact hf.carried ..

theorem State.Orderly.commandRequest {s : State} (h : s.Orderly M L) (r : Req) (w : Nat × Nat × Nat) (rows : List (Nat × List Byte)) (stop : Option Stop) :
    (s.commandRequest r w rows stop).Orderly M L := by
  unfold State.commandRequest
  split
  · exact h.requestStops ..
  · exact h.windowWrite ..
  · exact h.windowWrite ..

theorem State.Orderly.writeOwn {s : State} (h : s.Orderly M L) (r : Req) (rows : List (Nat × List Byte)) (stop : Option Stop) :
    (s.writeOwn r rows stop).Orderly M L := by
  unfold State.writeOwn
  split
  · exact h.commandRequest ..
  · extract_lets g
    have hg : g.s.Orderly M L := h.storeRuns ..
    exact hg.carried ..

theorem State.Orderly.awayZero {s : State} (h : s.Orderly M L) (r : Req) (e : FetchEntry) (rows : List (Nat × Option Nat)) :
    ((s.awayZero r e rows).s).Orderly M L := by
  unfold State.awayZero
  extract_lets dests whole
  exact h.fillRows ..

theorem State.Orderly.fillAway {s : State} (h : s.Orderly M L) (r : Req) (e : FetchEntry) :
    (s.fillAway r e).Orderly M L := by
  unfold State.fillAway
  extract_lets l s1 x f rows s2 s3
  have hl : l.1.Orderly M L := h.of_hide (State.listBad_hide _ rfl ..)
  have hs1 : s1.Orderly M L := hl
  have hf : f.s.Orderly M L := hs1.awayZero ..
  have hs2 : s2.Orderly M L := hf.of_hide (State.rangeMisses_hide _ rfl ..)
  have hs3 : s3.Orderly M L := by
    unfold s3
    split
    · exact .foldl (fun u x hu => hu.of_hide (State.gatherAway_hide _ rfl ..)) hs2 _
    · exact .foldl (fun u x hu => hu.of_hide (State.readAway_hide _ rfl ..)) hs2 _
  split
  · exact hs1.requestStops ..
  · split
    · exact hs1.requestStops ..
    · split
      · exact hf.requestStops ..
      · exact hs3.of_hide (State.begun_hide _ rfl ..)

theorem State.Orderly.carryOut {s : State} (h : s.Orderly M L) (r : Req) :
    (s.carryOut r).Orderly M L := by
  unfold State.carryOut
  split
  · extract_lets a
    split
    · exact h.writeOwn ..
    · split
      · exact h.requestStops ..
      · exact h.of_hide (State.writeAway_hide _ rfl ..)
  · extract_lets a s1 w t
    have hs1 : s1.Orderly M L := by
      unfold s1
      split
      · exact h.of_hide (State.bump_hide _ rfl ..)
      · exact h
    have hw : w.s.Orderly M L := hs1.of_hide (State.writeRows_hide _ rfl ..)
    have ht : t.Orderly M L := hw.of_hide (State.writeAway_hide _ rfl ..)
    split
    · exact hs1.localMove ..
    · split
      · split
        · exact hs1.fillOwn ..
        · exact hw.writeOwn ..
      · split
        · exact hs1.requestStops ..
        · split
          · exact hs1.fillAway ..
          · split
            · exact ht.requestStops ..
            · exact ht

theorem State.Orderly.copyStart {s : State} (h : s.Orderly M L) (e : Nat) :
    (s.copyStart e).Orderly M L := by
  unfold State.copyStart
  split
  · exact h
  · exact h.carryOut ..

theorem State.Orderly.drainSteward {s : State} (h : s.Orderly M L) :
    s.drainSteward.Orderly M L := by
  unfold State.drainSteward
  extract_lets src s1 src1
  have hs1 : s1.Orderly M L := by
    unfold s1
    split
    · exact h.otherCtl
    · exact h
  split
  · exact hs1.others
  · exact hs1

theorem State.Orderly.dieCycle {s : State} (h : s.Orderly M L) :
    s.dieCycle.Orderly M L := by
  unfold State.dieCycle
  extract_lets s1 s2 s3 src s4 s5
  have hs1 : s1.Orderly M L := (h.of_hide (by simp)).drainSteward
  have hs2 : s2.Orderly M L := by
    unfold s2
    split
    · exact hs1
    · exact hs1.serveHeld
  have hs3 : s3.Orderly M L := by
    unfold s3
    split
    · exact hs2.goSnapshot
    · exact hs2
  have hs4 : s4.Orderly M L := by
    unfold s4
    split
    · exact hs3.others
    · exact hs3
  have hs5 : s5.Orderly M L := by
    unfold s5
    split
    · exact hs4.payOwed
    · exact hs4
  exact hs5.of_hide (by simp)

theorem State.Orderly.tick {s : State} (h : s.Orderly M L) :
    (tick s).Orderly M L := by
  unfold Machine.tick
  extract_lets counts s1 ends s2 s3
  have hs1 : s1.Orderly M L := by
    unfold s1
    split
    · exact h.dieCycle
    · exact h
  have hs2 : s2.Orderly M L := by
    unfold s2
    split
    · exact hs1.of_hide (State.quietRaw_hide _ rfl ..)
    · exact hs1
  have hs3 : s3.Orderly M L := hs2.others
  split
  · exact h
  · split
    · exact hs3.of_hide (State.sendDelayReqs_hide _ rfl ..)
    · exact hs3

end

end Sys2Proof.Machine

end

section

/-!
The two invariants through the delivery of frames, and through every command.
-/

namespace Sys2Proof.Machine

section
variable {M L : Prop} {s t : State}

/-! ### Frames: checks and delivery in order (R333, R336) -/

theorem State.Orderly.receive (h : s.Orderly M L) (type : Nat) (r : Rx) {act : State → State}
    (hact : ∀ t : State, t.Orderly M L → (act t).Orderly M L) : (s.receive type r act).Orderly M L := by
  unfold State.receive
  extract_lets p s1 s2
  have h2 : s2.Orderly M L := h.of_hide (by simp [s2, s1])
  split
  · exact h
  split
  · exact h2.of_hide (State.bump_hide _ rfl ..)
  split
  · exact h2.of_hide (State.bump_hide _ rfl ..)
  split
  · exact h2.of_hide (State.bump_hide _ rfl ..)
  extract_lets s3
  have h3 : s3.Orderly M L := h2.of_hide (State.modPeer_hide _ rfl ..)
  split
  · exact h3.of_hide (State.bump_hide _ rfl ..)
  split
  · exact h3.of_hide (State.bump_hide _ rfl ..)
  · exact hact _ h3

section
variable {deliver : State → FlowId → Cargo → Delivery}
  (hdeliver : ∀ (t : State) id c, t.Orderly M L → (deliver t id c).s.Orderly M L)
include hdeliver

theorem State.Orderly.advance (h : s.Orderly M L) (plane most : Nat) (id : FlowId) :
    (State.advance deliver plane most s id).Orderly M L := by
  induction most generalizing s with
  | zero => exact h
  | succ most ih =>
    unfold State.advance
    extract_lets f
    split
    · exact h.of_hide (State.setRx_hide _ rfl ..)
    · extract_lets d g rest
      have hd : d.s.Orderly M L := hdeliver _ _ _ h
      split
      · exact ih (hd.of_hide (by simp))
      · exact hd.of_hide (by simp)
      · exact hd.of_hide (State.setRx_hide _ rfl ..)

theorem State.Orderly.arrive (h : s.Orderly M L) (port : Nat) (id : FlowId) (c : Cargo) (crc : Word) :
    (s.arrive deliver port id c crc).Orderly M L := by
  unfold State.arrive
  split
  · exact h.of_hide (by simp)
  extract_lets f d s1 s2 s3
  have h2 : s2.Orderly M L := h.of_hide (by simp [s2, s1])
  have h3 : s3.Orderly M L := h2.advance hdeliver ..
  split
  · exact h.of_hide (by simp)
  split
  · exact h
  split
  · exact h3.of_hide (State.sendAck_hide _ rfl ..)
  · exact h3

theorem State.Orderly.receiveBlocks (h : s.Orderly M L) (type : Nat) (r : Rx) :
    (s.receiveBlocks type r deliver).Orderly M L :=
  h.receive type r fun _ ht => .foldl (fun _ _ hu => hu.arrive hdeliver ..) ht _

end

/-! ### Commands with a condition of their own -/

theorem State.Orderly.guarded (h : s.Orderly M L) {p : Prop} [Decidable p] (ht : t.Orderly M L) :
    (if p then t else s).Orderly M L := by
  split
  · exact ht
  · exact h

theorem State.Orderly.execReadData (h : s.Orderly M L) {r : Rx} (ht : execReadData r s = .next t) : t.Orderly M L := by
  refine .of_done ht ?_
  split
  · exact h.receiveBlocks (fun _ _ _ hu => hu.dataBlock ..) _ _
  · exact h.receive _ _ fun _ hu => hu.errorAnswer ..

theorem State.Orderly.execWriteDone (h : s.Orderly M L) {r : Rx} (ht : execWriteDone r s = .next t) : t.Orderly M L := by
  refine .of_done ht (h.receive _ _ fun u hu => ?_)
  split
  · exact hu.of_hide (State.writeDone_hide _ rfl ..)
  · exact hu.errorAnswer ..

theorem State.Orderly.execRerunRestart (h : s.Orderly M L) {c : Fin 64} (ht : execRerunRestart c s = .next t) :
    t.Orderly M L := by
  refine .of_done ht ?_
  split
  · exact h
  · exact h.guarded (h.restart ..)

theorem State.Orderly.execSafetySelftest (h : s.Orderly M L) {b : Blk} (ht : execSafetySelftest b s = .next t) :
    t.Orderly M L := by
  have hfailed : State.Orderly M L
      { s with run := { s.run with selftest := false }, safety := { s.safety with selftestOk := false } } := h
  exact .of_done ht (h.guarded (hfailed.raise ..))

theorem State.Orderly.execMirrorAck (h : s.Orderly M L) {st : Fin 12} {shard : Fin 4096} {epoch : DWord}
    (ht : execMirrorAck st shard epoch s = .next t) : t.Orderly M L := by
  have hheard : State.Orderly M L { s with fab := { s.fab with lastTwinAck := s.slot } } := h
  refine .of_done ht ?_
  split
  · exact h.guarded (hheard.mirrorEnds ..)
  · exact h

theorem State.Orderly.execMirrorWaitExpiry (h : s.Orderly M L) {st : Fin 12} {shard : Fin 4096}
    (ht : execMirrorWaitExpiry st shard s = .next t) : t.Orderly M L := by
  refine .of_done ht ?_
  split
  · exact h.guarded (h.mirrorEnds ..)
  · exact h

theorem State.Orderly.execRetryTimeout (h : s.Orderly M L) {f : FlowId} {seq : Word}
    (ht : execRetryTimeout f seq s = .next t) : t.Orderly M L := by
  refine .of_done ht ?_
  split
  · exact h
  · split
    · exact h
    · exact h.resend ..

theorem State.Orderly.execPortDownHoldExpiry (h : s.Orderly M L) {p : Fin 8} (ht : execPortDownHoldExpiry p s = .next t) :
    t.Orderly M L := by
  refine .of_done ht ?_
  split
  · exact h
  · exact h.guarded (h.planeFails ..)

theorem State.Orderly.execSupplyReset (h : s.Orderly M L) (ht : execSupplyReset s = .next t) : t.Orderly M L := by
  have hreset : (s.supplyReset 1).Orderly M L := h.supplyReset ..
  refine .of_done ht (h.guarded ?_)
  exact hreset.others

theorem State.Orderly.execThermalTripTimer (h : s.Orderly M L) (ht : execThermalTripTimer s = .next t) :
    t.Orderly M L := by
  refine .of_done ht ?_
  split
  · exact h.guarded (h.supplyReset ..)
  · exact h

/-! ### A step -/

/-- The commands named are those whose masks name the bytes of memory or host control. -/
theorem State.Orderly.exec (h : s.Orderly M L) {c : Instr} (ht : exec c s = .next t) : t.Orderly M L := by
  cases c
  case nop => exact .of_done ht (h.serve _ _ _ h)
  case regRead => exact .of_done ht (h.serve _ _ _ (h.of_hide (State.regReadAct_hide _ rfl ..)))
  case regWrite => exact .of_done ht (h.serve _ _ _ (h.regWriteAct ..))
  case regModify => exact .of_done ht (h.serve _ _ _ (h.regModifyAct ..))
  case memRead => exact .of_done ht (h.serve _ _ _ (h.memReadAct ..))
  case memWrite => exact .of_done ht (h.serve _ _ _ (h.memWriteAct ..))
  case doorbellSubmissionTail | doorbellCompletionHead => exact .of_done ht (h.serve _ _ _ (h.doorbellAct ..))
  case eventFetch => exact .of_done ht (h.serve _ _ _ (h.eventFetchAct ..))
  case attest => exact .of_done ht (h.serve _ _ _ (h.attestAct ..))
  case twinDigests => exact .of_done ht (h.serve _ _ _ (h.digestsAct ..))
  case submissionStart => exact .of_done ht (h.submissionStart _)
  case sqNop => exact .of_done ht (h.sqNop ..)
  case copy => exact .of_done ht (h.sqCopy ..)
  case fill => exact .of_done ht (h.sqFill ..)
  case digest => exact .of_done ht (h.sqDigest ..)
  case planLoad => exact .of_done ht (h.planLoad ..)
  case sqFence => exact .of_done ht (h.sqFence ..)
  case queueEnable => exact .of_done ht (h.queueEnable ..)
  case queueDisable => exact .of_done ht (h.queueDisable ..)
  case runStart => exact .of_done ht h.runStart
  case abort => exact .of_done ht h.abort
  case retryArm => exact .of_done ht (h.retryArm _)
  case snapRequest => exact .of_done ht (h.snapRequest _)
  case sepCmdSubmit | updCmdSubmit => exact .of_done ht (h.guarded (h.cmdSubmit ..))
  case flipMaskArm => exact .of_done ht (h.guarded (h.armFlip ..))
  case attnAckIdentity => exact .of_done ht h.ackIdentity
  case safeRelease => exact .of_done ht (h.safeRelease _)
  case stopRequest => exact .of_done ht h.stopRequest
  case moduleNumberWrite => exact .of_done ht (h.guarded (h.numberWrite _))
  case codeRegionWordWrite => exact .of_done ht (h.guarded (h.codeRegionWrite ..))
  case portConfigWrite => exact .of_done ht (h.guarded (h.portConfig ..))
  case restoreStart => exact .of_done ht (h.restoreStart _)
  case activateArm => exact .of_done ht (h.activateArm _)
  case svnCommit => exact .of_done ht (h.svnCommit _)
  case stageStart => exact .of_done ht (h.stageStart _)
  case bind => exact .of_done ht h.bindCmd
  case unbind => exact .of_done ht h.unbindCmd
  case parlourStageAppend => exact .of_done ht (h.stageAppend _)
  case parlourActivate => exact .of_done ht h.parlourActivate
  case anchorSet => exact .of_done ht (h.anchorSet _)
  case anchorClear => exact .of_done ht (h.anchorClear _)
  case userSet => exact .of_done ht h.userSet
  case userClear => exact .of_done ht h.userClear
  case userClearAll => exact .of_done ht h.userClearAll
  case plainRegisterWrite => exact .of_done ht (h.writeReg ..)
  case phaseLost => exact .of_done ht h.phaseLost
  case segmentRelease => exact .of_done ht (h.release ..)
  case stallCauseClear => exact .of_done ht (h.stallClear ..)
  case late => exact .of_done ht (h.late _)
  case shadowLoadComplete => exact .of_done ht (h.shadowLoad _)
  case chunkSum => exact .of_done ht (h.chunkSum _)
  case drainRow => exact .of_done ht (h.drainRow ..)
  case rerunRestart => exact h.execRerunRestart ht
  case segmentEnd => exact .of_done ht (h.segmentEnd _)
  case copyRequestStart => exact .of_done ht (h.copyStart _)
  case stepBoundary => exact .of_done ht h.boundary
  case safetySelftest => exact h.execSafetySelftest ht
  case initialMilkRun => exact .of_done ht (h.firstMilk _)
  case completionPass => exact .of_done ht (h.completionPass _)
  case sepCommandArrive | updCommandArrive => exact .of_done ht (h.windowWrite ..)
  case prune | regrow | audit | collect => exact .of_done ht (h.sepStart ..)
  case sepBatchWrite => exact .of_done ht (h.sepBatch ..)
  case intakeWrite => exact .of_done ht (h.intake ..)
  case update => exact .of_done ht (h.updStart _ _ fun _ _ hu => hu.updateNow ..)
  case apply => exact .of_done ht (h.updStart _ _ fun _ _ hu => hu.of_hide (State.applyNow_hide _ rfl ..))
  case derive => exact .of_done ht (h.updStart _ _ fun _ _ hu => hu.of_hide (State.deriveNow_hide _ rfl ..))
  case exportShard => exact .of_done ht (h.updStart _ _ fun _ _ hu => hu.exportNow ..)
  case importShard => exact .of_done ht (h.updStart _ _ fun _ _ hu => hu.importNow ..)
  case updBatch => exact .of_done ht (h.updBatch ..)
  case mirrorAck => exact h.execMirrorAck ht
  case mirrorWaitExpiry => exact h.execMirrorWaitExpiry ht
  case digestWaitExpiry => exact .of_done ht (h.digestExpiry ..)
  case twinLost => exact .of_done ht h.twinLost
  case churnChunk => exact .of_done ht (h.churnChunk _)
  case invalidationAck => exact .of_done ht (h.cacheAcked _)
  case write => exact .of_done ht (h.receiveBlocks (fun _ _ _ hu => hu.writeRequest ..) _ _)
  case read => exact .of_done ht (h.receive _ _ fun _ hu => hu.readRequest ..)
  case readData => exact h.execReadData ht
  case nak => exact .of_done ht (h.receive _ _ fun _ hu => hu.nakked ..)
  case writeDone => exact h.execWriteDone ht
  case control => exact .of_done ht (h.receiveBlocks (fun _ _ _ hu => hu.controlBlock ..) _ _)
  case join => exact .of_done ht (h.joinSeen _)
  case gather => exact .of_done ht (h.receiveBlocks (fun _ _ _ hu => hu.gatherBlock ..) _ _)
  case reduce => exact .of_done ht (h.receiveBlocks (fun _ _ _ hu => hu.redRequest ..) _ _)
  case redHoldRelease => exact .of_done ht (h.redRelease ..)
  case notice => exact .of_done ht (h.receive _ _ fun _ hu => hu.notice ..)
  case retryTimeout => exact h.execRetryTimeout ht
  case frameSend => exact .of_done ht (h.frameSend _)
  case macsecRekey => exact .of_done ht (.foldl (fun _ _ hu => hu.rekey ..) h _)
  case joinRetryTimer => exact .of_done ht (h.joinRetry ..)
  case portUp => exact .of_done ht (h.portUp _).joinTwin
  case portDown => exact .of_done ht (h.portLoses ..)
  case portDownHoldExpiry => exact h.execPortDownHoldExpiry ht
  case slotEdge => exact .of_done ht (h.slotEdge _)
  case heartbeatIntervalExpiry => exact .of_done ht h.heartbeatMissed
  case safetyLockstepMismatch => exact .of_done ht (h.guarded h.lockstep)
  case safetyReportSend => exact .of_done ht h.reportSend
  case reportResendTimer => exact .of_done ht (h.guarded (.foldl (fun _ _ hu => hu.sendReport ..) h _))
  case auxRailUp => exact .of_done ht h.auxUp
  case auxRailLoss => exact .of_done ht h.auxLost
  case dieStart => exact .of_done ht (h.dieStart _)
  case stackTrained => exact .of_done ht (h.stackTrained _)
  case startTimeout => exact .of_done ht h.startTimeout
  case supplyResume => exact .of_done ht h.supplyResume
  case supplyHold => exact .of_done ht h.holdTooLong
  case supplyReset => exact h.execSupplyReset ht
  case droopRecover => exact .of_done ht (h.droopRecover _)
  case thermalSample => exact .of_done ht (h.thermal _)
  case thermalTripTimer => exact h.execThermalTripTimer ht
  case refclkPortLoss => exact .of_done ht (.foldl (fun _ _ hu => hu.portDown ..) h _)
  case refclkDieTimeout => exact .of_done ht (h.guarded (h.supplyReset _))
  case activationTick => exact .of_done ht (h.guarded h.activate)
  case tierTrained => exact .of_done ht (h.tierTrained _)
  all_goals
    refine h.of_mask ht ?_
    dsimp only [commandMask]
    rfl

theorem State.Orderly.step (h : s.Orderly M L) (ht : step s = .next t) : t.Orderly M L := by
  unfold Machine.step at ht
  split at ht
  case h_1 => exact .of_done ht h.tick
  case h_2 c rest _ =>
    have hrest : State.Orderly M L { s with pending := rest } := h
    exact hrest.exec ht

end

/-- Settles O59: every operation that stores bytes stores them by an operation of `Tables` that keeps the canonical form. -/
theorem everyStepKeepsMemoryCanonical : Obligations.EveryStepKeepsMemoryCanonical := by
  unfold Obligations.EveryStepKeepsMemoryCanonical
  intro s t hs ht
  have h : s.Orderly True False := ⟨fun _ => hs, False.elim⟩
  exact (h.step ht).1 trivial

/-- Settles O60: a record is added under the next number, in a log with room, and a ring's head or tail moves within its
ring. -/
theorem everyStepKeepsLogAndRingsInOrder : Obligations.EveryStepKeepsLogAndRingsInOrder := by
  unfold Obligations.EveryStepKeepsLogAndRingsInOrder
  intro s t hlog hrings ht
  have h : s.Orderly False True := ⟨False.elim, fun _ => ⟨hlog, hrings⟩⟩
  exact (h.step ht).2 trivial

end Sys2Proof.Machine

end

section

/-!
What a fault does, for every state: its record stands in the log and outlives the stops that follow it (R50, R51, R391), the
plan is stopped when one runs, and a dangerous-failure detection is counted (R409, R411).
-/

namespace Sys2Proof.Machine

/-- A fault record of a kind that does not look at its number stands in the log. -/
def State.HasFault (P : LogRecord → Prop) (s : State) : Prop := ∃ x ∈ s.ctl.log, x.kind = 1 ∧ P x

/-- A property of log records that does not look at their numbers. -/
def Unnumbered (P : LogRecord → Prop) : Prop := ∀ (x : LogRecord) (n : Nat), P x → P { x with seq := n }

section
variable {P : LogRecord → Prop} {s t : State} {f : FaultAt}

theorem State.HasFault.of_log (h : s.HasFault P) (e : t.ctl.log = s.ctl.log) : t.HasFault P := by
  unfold State.HasFault
  rwa [e]

/-- The mask 65407 names every part of the state but host control. -/
theorem State.HasFault.of_hide (h : s.HasFault P) (e : t.hide 65407 = s.hide 65407) : t.HasFault P :=
  h.of_log (congrArg Control.log (kept_ctl e rfl))

theorem State.HasFault.imp {Q : LogRecord → Prop} (h : s.HasFault P) (hPQ : ∀ x, P x → Q x) : s.HasFault Q := by
  obtain ⟨x, hx, hk, hp⟩ := h
  exact ⟨x, hx, hk, hPQ x hp⟩

/-- A record that is overtaken keeps everything but its number. -/
theorem mem_placeFault_of_mem {l : List LogRecord} {x : LogRecord} (hx : x ∈ l) (r : LogRecord) :
    ∃ y ∈ placeFault r l, y = { x with seq := y.seq } := by
  induction l generalizing r with
  | nil => cases hx
  | cons a l ih =>
    unfold placeFault
    split
    · obtain rfl | hx := List.mem_cons.mp hx
      · exact ⟨_, List.mem_cons_self, rfl⟩
      · obtain ⟨y, hy, he⟩ := ih hx { r with seq := a.seq }
        exact ⟨y, List.mem_cons_of_mem _ hy, he⟩
    · exact ⟨x, List.mem_cons_of_mem _ hx, rfl⟩

theorem mem_dropOldestEvent {l : List LogRecord} {x : LogRecord} (hx : x ∈ l) (hk : x.kind = 1) : x ∈ dropOldestEvent l := by
  induction l with
  | nil => cases hx
  | cons a l ih =>
    unfold dropOldestEvent
    obtain rfl | hx := List.mem_cons.mp hx
    · rw [if_neg (by omega)]
      exact List.mem_cons_self
    · split
      · exact hx
      · exact List.mem_cons_of_mem _ (ih hx)

/-- A full log drops events, never a fault record (R391). -/
theorem State.HasFault.logAppend (h : s.HasFault P) (hP : Unnumbered P) (r : LogRecord) : (s.logAppend r).HasFault P := by
  obtain ⟨x, hx, hk, hp⟩ := h
  have hkeep (old : List LogRecord) (hold : x ∈ old) (r : LogRecord) :
      ∃ y ∈ (if r.kind = 1 then (placeFault r old.reverse).reverse else old ++ [r]), y.kind = 1 ∧ P y := by
    split
    · obtain ⟨y, hy, he⟩ := mem_placeFault_of_mem (List.mem_reverse.mpr hold) r
      exact ⟨y, List.mem_reverse.mpr hy, by rw [he]; exact hk, by rw [he]; exact hP _ _ hp⟩
    · exact ⟨x, List.mem_append_left _ hold, hk, hp⟩
  have hold := hkeep s.ctl.log hx { r with seq := s.ctl.nextSeq }
  have hdropped := hkeep _ (mem_dropOldestEvent hx hk) { r with seq := s.ctl.nextSeq }
  unfold State.logAppend
  dsimp only
  split
  · exact hold
  · split
    · refine State.HasFault.of_hide (P := P) ?_ (State.bump_hide _ rfl ..)
      exact hdropped
    · exact State.HasFault.of_hide ⟨x, hx, hk, hp⟩ (State.bump_hide _ rfl ..)

theorem State.HasFault.withRun (h : s.HasFault P) (r : RunState) : State.HasFault P { s with run := r } := h

variable (hP : Unnumbered P)
include hP

theorem State.HasFault.event (h : s.HasFault P) (cls inst bit addr : Nat) : (s.event cls inst bit addr).HasFault P := by
  unfold State.event
  extract_lets s1 s2 s3
  have h1 : s1.HasFault P := h.of_hide (State.setReg_hide _ rfl ..)
  have h2 : s2.HasFault P := h1.of_hide (State.bump_hide _ rfl ..)
  have h3 : s3.HasFault P := h2.of_hide (State.setReg_hide _ rfl ..)
  split
  · split
    · exact h2
    · split
      · exact h3
      · exact h3.logAppend hP _
  · exact h1

theorem State.HasFault.correct (h : s.HasFault P) (st off : Nat) : (s.correct st off).HasFault P := by
  unfold State.correct State.pail
  dsimp only
  split
  · exact h.of_hide (by simp)
  · exact State.HasFault.event hP (h.of_hide (by simp)) ..

theorem State.HasFault.codeUnit {c : Coded} (h : c.s.HasFault P) {bad : State → Nat → State}
    (hbad : ∀ (t : State) (o : Nat), t.HasFault P → (bad t o).HasFault P) (blk o n : Nat) (v : Verdict) :
    (codeUnit bad blk o n v c).s.HasFault P := by
  unfold Machine.codeUnit
  dsimp only
  split
  · exact h
  · exact State.HasFault.correct hP (h.of_hide (by simp)) ..
  · exact hbad _ _ h
  · split
    · exact hbad _ _ h
    · refine State.HasFault.correct hP (State.HasFault.of_hide ?_ (State.encoded_hide _ rfl ..)) ..
      exact h
    · exact h

theorem State.HasFault.editJournal (h : s.HasFault P) (stack shard w : Nat) (f : Nat → Nat) :
    (s.editJournal stack shard w f).HasFault P := by
  unfold State.editJournal
  split
  · exact h
  · extract_lets c whole
    have hc : c.s.HasFault P := by
      have howe (t : State) (o : Nat) (ht : t.HasFault P) : (t.oweBad o).HasFault P := ht
      unfold c State.readBlockBy
      dsimp only
      split
      · exact State.HasFault.codeUnit hP h howe ..
      · split
        · exact h
        · exact List.foldlRecOn (motive := fun g : Coded => g.s.HasFault P) _ _ h
            fun g hg x _ => State.HasFault.codeUnit hP hg howe ..
    split
    · exact hc.of_hide (State.writeBlock_hide _ rfl ..)
    · exact hc

theorem State.HasFault.stopSep (h : s.HasFault P) (i : Nat) : (s.stopSep i).HasFault P := by
  unfold State.stopSep
  extract_lets u ids s1
  have h1 : s1.HasFault P := h.of_hide (State.dropRequests_hide _ rfl ..)
  split
  · exact h1.of_hide (State.setSep_hide _ rfl ..)
  · extract_lets s2 s3 src s4
    have h2 : s2.HasFault P := h1.of_hide (State.dropRequests_hide _ rfl ..)
    have h3 : s3.HasFault P := State.HasFault.editJournal hP (State.HasFault.editJournal hP h2 ..) ..
    split
    · exact h1.of_hide (State.setSep_hide _ rfl ..)
    · refine State.HasFault.of_hide (s := s4) ?_ (by simp)
      refine State.HasFault.of_hide (s := if _ then s3.hostDone clsSep i 0 0 else s3) ?_ (State.setUpd_hide _ rfl ..)
      split
      · exact h3.of_hide (State.hostDone_hide _ rfl ..)
      · exact h3

/-- What a plan stop writes in the journals may meet corrected errors; their events leave the fault's record. -/
theorem State.HasFault.planStop (h : s.HasFault P) : s.planStop.HasFault P := by
  have hcut : s.cutWaits.HasFault P := h.of_hide (State.cutWaits_hide _ rfl ..)
  have hbases : s.cutWaits.stopBases.HasFault P :=
    List.foldlRecOn (motive := State.HasFault P) _ _ hcut
      fun t ht i _ => (State.HasFault.stopSep hP ht i).of_hide (State.stopUpd_hide _ rfl ..)
  exact hbases.withRun _

theorem State.HasFault.faultRecord (h : s.HasFault P) (f : FaultAt) (first : Bool) : (s.faultRecord f first).HasFault P := by
  unfold State.faultRecord
  exact State.HasFault.event hP ((h.logAppend hP _).of_hide (State.bump_hide _ rfl ..)) ..

/-- The state a fault leaves before the plan is stopped. -/
def State.faulted (s : State) (f : FaultAt) (d : Bool) : State :=
  if d then (s.faultRecord f s.planRuns).detect f else s.faultRecord f s.planRuns

omit hP in
theorem State.raise_eq (s : State) (f : FaultAt) (d : Bool) :
    s.raise f d = if s.planRuns then (s.faulted f d).planStop else s.faulted f d := rfl

omit hP in
theorem State.HasFault.faulted (h : (s.faultRecord f s.planRuns).HasFault P) (d : Bool) : (s.faulted f d).HasFault P := by
  unfold State.faulted
  split
  · exact h.of_hide (State.detect_hide _ rfl ..)
  · exact h

theorem State.HasFault.raise (h : s.HasFault P) (f : FaultAt) (d : Bool) : (s.raise f d).HasFault P := by
  have hf := (State.HasFault.faultRecord hP h f s.planRuns).faulted d
  rw [State.raise_eq]
  split
  · exact State.HasFault.planStop hP hf
  · exact hf

omit hP in
theorem State.HasFault.of_record {r : LogRecord} (hP : Unnumbered P) (hk : r.kind = 1) (hr : P r)
    (h : ∃ x ∈ s.ctl.log, x = { r with seq := x.seq }) : s.HasFault P := by
  obtain ⟨x, hx, he⟩ := h
  refine ⟨x, hx, ?_, ?_⟩
  · rw [he]
    exact hk
  · rw [he]
    exact hP _ _ hr

/-- A fault met while the log has room is recorded (R50, R391). -/
theorem State.raise_hasFault (hroom : s.ctl.log.length < logCapacity)
    (hf : P (s.record 1 f s.planRuns)) (d : Bool) : (s.raise f d).HasFault P := by
  have h := (State.HasFault.of_record hP rfl hf (faultRecord_records s f s.planRuns hroom)).faulted d
  rw [State.raise_eq]
  split
  · exact State.HasFault.planStop hP h
  · exact h

end

/-- What a fault's record says of it. -/
def FaultAt.Shows (f : FaultAt) (phase : DWord) (x : LogRecord) : Prop :=
  x.code = f.code ∧ x.cls = f.cls ∧ x.core = f.core ∧ x.desc = f.desc ∧ x.addr = BitVec.ofNat 64 f.addr ∧ x.phase = phase

theorem State.raise_shows (s : State) (f : FaultAt) (d : Bool) (hroom : s.ctl.log.length < logCapacity) :
    (s.raise f d).HasFault (f.Shows s.clock.phase) :=
  State.raise_hasFault (fun _ _ h => h) hroom ⟨rfl, rfl, rfl, rfl, rfl, rfl⟩ d

/-! ### What a fault does to the run -/

section
variable (s : State) (f : FaultAt) (d : Bool)

theorem State.planStop_stopped : s.planStop.run.stopped = true := rfl

theorem State.planStop_ending : s.planStop.run.ending = false := rfl

/-- Two runs that differ in requests and in the snapshot under way. -/
def RunState.SameButRequests (r q : RunState) : Prop := { r with reqs := [], snap := none } = { q with reqs := [], snap := none }

theorem RunState.SameButRequests.stopped {r q : RunState} (h : r.SameButRequests q) : r.stopped = q.stopped := by
  unfold RunState.SameButRequests at h
  injection h

section
variable {s t : State}

theorem State.dropRequests_sameRun (ids : List Nat) : (s.dropRequests ids).run.SameButRequests s.run := rfl

theorem sameRun_of_hide (h : t.run.SameButRequests s.run) {u : State} (e : u.hide 65531 = t.hide 65531) :
    u.run.SameButRequests s.run := by
  rwa [kept_run e rfl]

theorem State.safeSep_sameRun (h : t.run.SameButRequests s.run) (i : Nat) : (t.safeSep i).run.SameButRequests s.run := by
  unfold State.safeSep
  extract_lets u
  split
  · exact h
  · extract_lets named s1 src s2 s3 src' s4
    have h1 : s1.run.SameButRequests s.run := (State.dropRequests_sameRun _).trans h
    have h2 : s2.run.SameButRequests s.run := sameRun_of_hide h1 (State.setUpd_hide _ rfl ..)
    have h3 : s3.run.SameButRequests s.run := by
      unfold s3
      split
      · exact sameRun_of_hide h2 (State.hostDone_hide _ rfl ..)
      · exact h2
    have h4 : s4.run.SameButRequests s.run := sameRun_of_hide h3 (by simp [s4])
    split
    · exact h
    · split
      · exact sameRun_of_hide h4 (State.bump_hide _ rfl ..)
      · exact h4

theorem State.safeUpd_sameRun (h : t.run.SameButRequests s.run) (i : Nat) : (t.safeUpd i).run.SameButRequests s.run := by
  unfold State.safeUpd
  extract_lets u
  split
  · exact h
  · extract_lets s1 s2
    have h1 : s1.run.SameButRequests s.run := (State.dropRequests_sameRun _).trans h
    have h2 : s2.run.SameButRequests s.run := by
      unfold s2
      split
      · exact sameRun_of_hide h1 (State.hostDone_hide _ rfl ..)
      · exact h1
    exact sameRun_of_hide h2 (State.setUpd_hide _ rfl ..)

end

/-- A detection drops requests and ends a snapshot (R409); it leaves the rest of the run alone. -/
theorem State.detect_sameRun : (s.detect f).run.SameButRequests s.run := by
  unfold State.detect
  extract_lets first seq sf rep src s1
  have hsends : s1.safeSends.run.SameButRequests s.run := rfl
  exact List.foldlRecOn (motive := fun t : State => t.run.SameButRequests s.run) _ _ hsends
    fun t ht i _ => State.safeUpd_sameRun (State.safeSep_sameRun ht i) i

theorem State.faultRecord_run (runs : Bool) : (s.faultRecord f runs).run = s.run :=
  kept_run (State.faultRecord_hide 129 rfl ..) rfl

theorem State.faulted_sameRun : (s.faulted f d).run.SameButRequests s.run := by
  have hrec : (s.faultRecord f s.planRuns).run.SameButRequests s.run := by
    rw [State.faultRecord_run]
    rfl
  unfold State.faulted
  split
  · exact (State.detect_sameRun _ f).trans hrec
  · exact hrec

/-- The stop of a plan that runs (R51), and nothing of the run otherwise. -/
theorem State.raise_stopped : (s.raise f d).run.stopped = (s.run.stopped || s.planRuns) := by
  rw [State.raise_eq]
  split
  next hruns => rw [hruns, Bool.or_true, State.planStop_stopped]
  next hruns =>
    rw [Bool.eq_false_iff.mpr hruns, Bool.or_false]
    exact (State.faulted_sameRun s f d).stopped

theorem State.raise_run_of_idle (h : s.planRuns = false) : (s.raise f false).run = s.run := by
  rw [State.raise_eq, if_neg (by simp [h]), State.faulted, if_neg Bool.false_ne_true, State.faultRecord_run]

/-! ### What a detection does to the safety state (R409, R411) -/

theorem State.detect_safety : (s.detect f).safety.stop = true ∧ (s.detect f).safety.suspectTo = BitVec.allOnes 64 ∧
    (s.detect f).safety.detectSeq = (if s.safety.stop then s.safety.detectSeq + 1 else 1) ∧
    (s.detect f).safety.hbLost = s.safety.hbLost ∧ (s.detect f).safety.plLost = s.safety.plLost ∧
    (s.detect f).safety.selftestOk = s.safety.selftestOk := by
  unfold State.detect
  extract_lets first seq sf rep src s1
  have hkept : s1.safeSends.safeBases.safety = s1.safety :=
    (kept_safety (State.safeBases_hide 29 rfl s1.safeSends) rfl).trans (kept_safety (State.safeSends_hide 69 rfl s1) rfl)
  rw [hkept]
  refine ⟨rfl, rfl, ?_, rfl, rfl, rfl⟩
  change seq = _
  unfold seq first
  cases s.safety.stop <;> rfl

theorem State.planStop_safety : s.planStop.safety = s.safety := kept_safety (State.planStop_hide 49309 rfl _) rfl

theorem State.raise_detects : (s.raise f true).safety = ((s.faultRecord f s.planRuns).detect f).safety := by
  rw [State.raise_eq]
  split
  · exact State.planStop_safety _
  · rfl

theorem State.raise_safety : (s.raise f true).safety.stop = true ∧ (s.raise f true).safety.suspectTo = BitVec.allOnes 64 ∧
    (s.raise f true).safety.detectSeq = (if s.safety.stop then s.safety.detectSeq + 1 else 1) ∧
    (s.raise f true).safety.hbLost = s.safety.hbLost ∧ (s.raise f true).safety.plLost = s.safety.plLost ∧
    (s.raise f true).safety.selftestOk = s.safety.selftestOk := by
  have hrec : (s.faultRecord f s.planRuns).safety = s.safety := kept_safety (State.faultRecord_hide 129 rfl ..) rfl
  have h := State.detect_safety (s.faultRecord f s.planRuns) f
  rwa [hrec, ← State.raise_detects] at h

theorem State.faultRecord_safety (runs : Bool) : (s.faultRecord f runs).safety = s.safety :=
  kept_safety (State.faultRecord_hide 129 rfl ..) rfl

theorem State.raise_safety_of_benign : (s.raise f false).safety = s.safety := by
  have hrec : (s.faulted f false).safety = s.safety := by
    rw [State.faulted, if_neg Bool.false_ne_true, State.faultRecord_safety]
  rw [State.raise_eq]
  split
  · exact (State.planStop_safety _).trans hrec
  · exact hrec

end

end Sys2Proof.Machine

end

section

/-!
Steps and the state after reset (chapter 00; log entries 1, 13 and 16).
-/

namespace Sys2Proof.Machine

/-- Settles O52: a step is the tick or the meaning of the front command, and no meaning is without an answer. -/
theorem stepTakesTheFront : Obligations.StepTakesTheFront := by
  refine ⟨fun s c rest => rfl, fun s => ?_⟩
  unfold Safe step
  cases s.pending with
  | nil => exact ⟨_, rfl⟩
  | cons c rest => cases c <;> exact ⟨_, rfl⟩

/-- Settles O54: every part of the state after reset is a constant. -/
theorem resetState : Obligations.ResetState := by
  refine ⟨rfl, rfl, rfl, rfl, rfl, rfl, rfl, by decide, rfl, rfl, rfl, rfl, rfl, rfl, rfl, rfl, ?log, ?rings,
    fun _ => rfl, by decide, fun c => ⟨?drop, ?escape⟩, by decide, by decide⟩
  case log => exact (State.inOrder_of_empty rfl rfl).1
  case rings => exact (State.inOrder_of_empty rfl rfl).2
  case drop => revert c; decide
  case escape => revert c; decide

/-! ### One cycle -/

theorem hide_ite {m : Nat} {p : Prop} [Decidable p] {a b t : State} (ha : a.hide m = t.hide m) (hb : b.hide m = t.hide m) :
    (if p then a else b).hide m = t.hide m := by
  split
  · exact ha
  · exact hb

theorem Clock.cycle_locked (c : Clock) (counts : Bool) : (c.cycle counts).locked = c.locked := by
  unfold Clock.cycle
  split
  · rfl
  · split <;> rfl

theorem Clock.cycle_now (c : Clock) (counts : Bool) : (c.cycle counts).now = c.now + 1 := by
  unfold Clock.cycle
  split
  · rfl
  · split <;> rfl

theorem Clock.cycle_sub (c : Clock) : (c.cycle true).sub = if c.sub < 6 then c.sub + 1 else 0 := by
  unfold Clock.cycle
  rw [if_neg (by decide)]
  split <;> rfl

theorem Clock.cycle_phase {c : Clock} (h : c.slew = none) :
    (c.cycle true).phase = if c.sub < 6 then c.phase else c.phase + 1 := by
  unfold Clock.cycle
  rw [if_neg (by decide)]
  split
  · rfl
  · simp [h]

theorem State.drainAdmission_heldReads (s : State) : s.drainAdmission.fab.heldReads = s.fab.heldReads := by
  unfold State.drainAdmission
  split
  · refine List.foldlRecOn (motive := fun t : State => t.fab.heldReads = s.fab.heldReads) _ _ rfl fun t ht p _ => ?_
    split <;> exact ht
  · rfl

theorem State.drainSteward_heldReads (s : State) : s.drainSteward.fab.heldReads = s.fab.heldReads := by
  unfold State.drainSteward
  dsimp only
  split <;> split <;> rfl

/-- A write of the settings ends with the cycle (R482). -/
theorem State.writeEnds_boot (s : State) : (s.boot.writing = none →
    (if s.boot.writing.isSome = true then { s with boot := { s.boot with writing := none } } else s).boot = s.boot) ∧
    (if s.boot.writing.isSome = true then { s with boot := { s.boot with writing := none } } else s).power = s.power := by
  refine ⟨fun h => ?_, ?_⟩
  · rw [if_neg (by simp [h])]
  · split <;> rfl

/-- Without held requests a cycle serves none, so that it leaves the supplies; and the settings, but for a write that ends. -/
theorem State.dieCycle_of_noHeld {s : State} (h : s.fab.heldReads = []) :
    s.dieCycle.power = s.power ∧ (s.boot.writing = none → s.dieCycle.boot = s.boot) := by
  unfold State.dieCycle
  extract_lets s1 s2 s3 src s4 s5
  have hheld : s1.fab.heldReads = [] := by
    unfold s1
    rw [State.drainSteward_heldReads, State.drainAdmission_heldReads,
      kept_fab (State.countCycle_hide 1 rfl _) rfl, kept_fab (State.slackCycles_hide 1 rfl _) rfl,
      kept_fab (State.frozenCycles_hide 5 rfl _) rfl, h]
  have h2 : s2.hide 197 = s.hide 197 := by
    unfold s2
    rw [if_pos (by rw [hheld]; rfl)]
    simp [s1]
  have h3 : s3.hide 49629 = s.hide 49629 := by
    have h2' : s2.hide 49629 = s.hide 49629 := hide_mono h2 rfl
    exact hide_ite ((State.goSnapshot_hide 49629 rfl _).trans h2') h2'
  have h4 : s4.power = s.power ∧ (s.boot.writing = none → s4.boot = s.boot) := by
    have hpower : s3.power = s.power := kept_power h3 rfl
    have hboot : s3.boot = s.boot := kept_boot h3 rfl
    obtain ⟨hends, hends'⟩ := State.writeEnds_boot s3
    exact ⟨hends'.trans hpower, fun hw => (hends (by rw [hboot, hw])).trans hboot⟩
  have h5 : s5.hide 49629 = s4.hide 49629 := hide_ite (State.payOwed_hide 49629 rfl _) rfl
  have hend : s5.churnOwe.settle.hide 49629 = s4.hide 49629 := by simp [h5]
  rw [kept_power hend rfl, kept_boot hend rfl]
  exact h4

theorem State.sendDelayReqs_clock (s : State) (p : Prop) [Decidable p] :
    ∃ d, (if p then s.sendDelayReqs else s).clock = { s.clock with delayDue := d } := by
  by_cases hp : p ∧ s.tickOf = 4080
  · refine ⟨[], ?_⟩
    rw [if_pos hp.1, State.sendDelayReqs, if_pos hp.2]
    refine List.foldlRecOn (motive := fun t : State => t.clock = { s.clock with delayDue := [] }) _ _ rfl fun t ht p _ => ?_
    split <;> exact ht
  · refine ⟨s.clock.delayDue, ?_⟩
    split
    next h => rw [State.sendDelayReqs, if_neg fun ht => hp ⟨h, ht⟩]
    next => rfl

theorem State.sendDelayReqs_due {s : State} (h : s.tickOf = 4080) : s.sendDelayReqs.clock.delayDue = [] := by
  unfold State.sendDelayReqs
  rw [if_pos h]
  refine List.foldlRecOn (motive := fun t : State => t.clock.delayDue = []) _ _ rfl fun t ht p _ => ?_
  split <;> exact ht

def State.clockCycle (s : State) (counts : Bool) : State := { s with clock := s.clock.cycle counts }

theorem State.clockCycle_clock (s : State) (counts : Bool) : (s.clockCycle counts).clock = s.clock.cycle counts := rfl

theorem State.clockCycle_hide (s : State) (counts : Bool) : (s.clockCycle counts).hide 4098 = s.hide 4098 := rfl

/-- A cycle with the die out of reset and its reference present. -/
def State.cycled (s : State) : State := s.dieCycle.quietRaw.clockCycle true

theorem tick_of_running {s : State} (haux : s.power.aux = true) (hcounts : (s.power.die && s.power.refclkDie) = true)
    (hsub : s.dieCycle.clock.sub = s.clock.sub) :
    tick s = if 6 ≤ s.clock.sub then s.cycled.sendDelayReqs else s.cycled := by
  have h : tick s = if (!s.power.aux) = true then s else
      let u := if (s.power.die && s.power.refclkDie) = true then s.dieCycle else s
      let v := if (s.power.die && s.power.refclkDie) = true then u.quietRaw else u
      let w := v.clockCycle (s.power.die && s.power.refclkDie)
      if ((s.power.die && s.power.refclkDie) && decide (6 ≤ u.clock.sub)) = true then w.sendDelayReqs else w := rfl
  rw [h, if_neg (by simp [haux]), hcounts]
  dsimp only
  rw [if_pos rfl, if_pos rfl, hsub, Bool.true_and, State.cycled]
  simp only [decide_eq_true_eq]

theorem step_of_empty {s : State} (hq : s.pending = []) : step s = .next (tick s) := by
  unfold step
  split
  · rfl
  next h => exact absurd hq (by simp [h])

theorem step_of_idle {s : State} (hq : s.pending = []) (haux : s.power.aux = true) (hdie : s.power.die = true)
    (hclk : s.power.refclkDie = true) :
    step s = .next (if 6 ≤ s.clock.sub then s.cycled.sendDelayReqs else s.cycled) := by
  have hsub : s.dieCycle.clock.sub = s.clock.sub := congrArg Clock.sub (kept_clock (State.dieCycle_hide 55293 rfl s) rfl)
  have hcounts : (s.power.die && s.power.refclkDie) = true := by rw [hdie, hclk]; rfl
  rw [step_of_empty hq, tick_of_running haux hcounts hsub]

theorem State.cycled_hide (s : State) : s.cycled.hide 4098 = s.dieCycle.quietRaw.hide 4098 := State.clockCycle_hide _ _

theorem State.cycled_clock (s : State) : s.cycled.clock = s.clock.cycle true := by
  have h : s.dieCycle.quietRaw.clock = s.clock := kept_clock
    ((State.quietRaw_hide 55293 rfl _).trans (State.dieCycle_hide 55293 rfl s)) rfl
  rw [State.cycled, State.clockCycle_clock, h]

/-- Settles O53: with the die's clock counting, the cycle is the die's, then the clock's. -/
theorem idleStep : Obligations.IdleStep := by
  refine ⟨fun s hq haux => ?off, fun s hq haux hdie => ?standby, fun s hq haux hdie hclk => ?running⟩
  case off =>
    rw [step_of_empty hq]
    simp [tick, haux]
  case standby =>
    rw [step_of_empty hq]
    simp [tick, haux, hdie, Clock.cycle]
  case running =>
    refine ⟨_, step_of_idle hq haux hdie hclk, ?_⟩
    have hclock : ∃ d, (if 6 ≤ s.clock.sub then s.cycled.sendDelayReqs else s.cycled).clock =
        { s.clock.cycle true with delayDue := d } := by
      rw [← State.cycled_clock]
      exact State.sendDelayReqs_clock _ _
    have hsends : (if 6 ≤ s.clock.sub then s.cycled.sendDelayReqs else s.cycled).hide 4098 = s.dieCycle.quietRaw.hide 4098 :=
      hide_ite ((State.sendDelayReqs_hide 4098 rfl _).trans s.cycled_hide) s.cycled_hide
    have hquiet := State.quietRaw_hide 1 rfl s.dieCycle
    obtain ⟨d, hclock⟩ := hclock
    rw [hclock, kept_power hsends rfl, kept_boot hsends rfl, kept_pending hsends rfl, kept_power hquiet rfl,
      kept_boot hquiet rfl, kept_pending hquiet rfl]
    refine ⟨(kept_pending (State.dieCycle_hide 55293 rfl s) rfl).trans hq, Clock.cycle_now .., Clock.cycle_sub _,
      fun h => Clock.cycle_phase h, Clock.cycle_locked .., State.dieCycle_of_noHeld, fun hsub hslew htick => ?_⟩
    have hband : s.cycled.tickOf = 4080 := by
      unfold State.tickOf State.phaseNat at htick ⊢
      rw [State.cycled_clock, Clock.cycle_phase hslew, if_neg (by omega)]
      bv_omega
    have := State.sendDelayReqs_due hband
    rw [if_pos hsub] at hclock
    rwa [hclock] at this

end Sys2Proof.Machine

end

section

/-!
Supplies and reference clocks (chapter 15): the rails and the blade, warnings, holds and resets, the clocks of the die and of
the ports.
-/

namespace Sys2Proof.Machine

theorem done_of_eq {a b : State} (h : a = b) : done a = .next b := by
  rw [h]
  rfl

theorem done_of_pos {p : Prop} [Decidable p] {a b : State} (h : p) : done (if p then a else b) = .next a := by
  rw [if_pos h]
  rfl

theorem done_of_neg {p : Prop} [Decidable p] {a b : State} (h : ¬ p) : done (if p then a else b) = .next b := by
  rw [if_neg h]
  rfl

/-! ### The rails (R437, R503, R504, R507) -/

/-- Two states of the supplies that differ in Parlour's bit alone. -/
def PowerState.SameButParlour (p q : PowerState) : Prop := { p with parlour := false } = { q with parlour := false }

theorem State.sameButParlour_of_withParlour (s : State) (b : Bool) :
    { s with power := { s.power with parlour := b } }.power.SameButParlour s.power := rfl

theorem State.bootParlour_power (s : State) : s.bootParlour.power.SameButParlour s.power := by
  have hrevert : (s.revertTried 5).power = s.power := kept_power (State.revertTried_hide 1024 rfl ..) rfl
  unfold State.bootParlour
  dsimp only
  split
  next slot fell h =>
    have hboot : ((s.revertTried 5).bootSlot 5 slot fell).power = s.power :=
      (kept_power (State.bootSlot_hide 1024 rfl ..) rfl).trans hrevert
    rw [← hboot]
    split
    · rw [kept_power (State.event_hide 129 rfl ..) rfl]
      exact State.sameButParlour_of_withParlour ..
    · exact State.sameButParlour_of_withParlour ..
  next h =>
    have hset (x : ImageState) : ((s.revertTried 5).setImages 5 x).power = s.power := hrevert
    rw [← hset, kept_power (State.raise_hide 49629 rfl ..) rfl]
    exact State.sameButParlour_of_withParlour ..

/-- An abandoned staging changes its slot's image alone (R478). -/
theorem State.abandonStaging_boot (s : State) : ∃ x, s.abandonStaging.boot = { s.boot with images := x } := by
  unfold State.abandonStaging
  split
  · exact ⟨s.boot.images, rfl⟩
  · exact ⟨_, rfl⟩

theorem State.dieReset_settings (s : State) (warm : Bool) : (s.dieReset warm).boot.settings = s.boot.settings ∧
    (s.dieReset warm).boot.svnFused = s.boot.svnFused ∧
    (s.boot.writing = none → (s.dieReset warm).boot.areas = s.boot.areas) := by
  obtain ⟨x, hx⟩ := s.abandonStaging_boot
  have h : (s.dieReset warm).boot = s.abandonStaging.boot.afterReset warm := rfl
  rw [h, hx]
  refine ⟨rfl, rfl, fun hw => ?_⟩
  unfold BootState.afterReset BootState.torn
  dsimp only
  rw [hw]

theorem State.dieReset_power (s : State) (warm : Bool) : (s.dieReset warm).power = s.power.afterReset warm := by
  have h : s.abandonStaging.power = s.power := kept_power (State.abandonStaging_hide 1024 rfl _) rfl
  rw [← h]
  rfl

/-- Settles O1: each rail and blade command is an update of the supplies, and the loss of the auxiliary rail a reset of the
die and of Parlour. -/
theorem supplyRailCommands : Obligations.SupplyRailCommands := by
  refine ⟨fun s h => ?auxUp, fun s h => ?auxLost, fun s => rfl, fun s => rfl, fun s hc ha hm => ?rising, fun s hc => ?falling,
    fun s hp hm hb hc => ?qualified, fun s hp hc hd => ?rails⟩
  case auxUp =>
    refine ⟨_, rfl, ?_⟩
    obtain ⟨u, hup, hu⟩ : ∃ u : State, s.auxUp = u.bootParlour ∧ u.power = { s.power with
        aux := true, startedAt := s.clock.now, resetCause := 0, bootCount := 0, limitAt := s.clock.now, limitMs := 0 } :=
      ⟨_, if_neg (by simp [h]), rfl⟩
    have hsame := u.bootParlour_power
    rw [← hup, hu] at hsame
    unfold PowerState.SameButParlour at hsame
    injection hsame with haux _ _ _ _ hdie _ _ _ _ _ _ _ _ hcause hboots _ hstarted
    exact ⟨haux, hstarted, hcause, hboots, hdie⟩
  case auxLost =>
    obtain ⟨hset, hsvn, hareas⟩ := s.dieReset_settings false
    have hlost : s.auxLost = _ := if_pos h
    refine ⟨s.auxLost, rfl, ?_⟩
    rw [hlost]
    exact ⟨rfl, rfl, rfl, rfl, rfl, rfl, rfl, hset, hsvn, hareas⟩
  case rising => exact congrArg _ ((if_neg (by simp [hc])).trans ((if_pos rfl).trans (if_pos (by simp [ha, hm]))))
  case falling => exact congrArg _ ((if_neg (by simp [hc])).trans (if_neg Bool.false_ne_true))
  case qualified => exact congrArg _ (if_pos (by simp [hp, hm, hb, hc]))
  case rails => exact congrArg _ (if_pos (by simp [hp, hc, hd]))

/-! ### Holds and warnings (R446 to R449) -/

theorem State.enterHold_power (s : State) : s.enterHold.power = if s.power.hold then s.power else
    { s.power with hold := true, holdAt := s.clock.now, heldOut := false } := by
  unfold State.enterHold
  split
  · rfl
  · have frozen (u : State) : (allCores.foldl (fun t c => t.distrust c)
        ((List.range 8).foldl (fun t h => t.setHerd h { t.herd h with frozen := true }) u)).hide 4 = u.hide 4 :=
      (foldl_hide _ _ _ _ fun _ _ => State.distrust_hide 4 rfl ..).trans
        (foldl_hide _ _ _ _ fun _ _ => State.setHerd_hide 4 rfl ..)
    exact kept_power (frozen _) rfl

theorem State.enterHold_hold (s : State) : s.enterHold.power.hold = true := by
  rw [State.enterHold_power]
  split
  · assumption
  · rfl

/-- A warning holds the module, counts, and takes back an earlier clear; it stores nothing. -/
theorem State.warn_effect (s : State) : s.warn.power.hold = true ∧ s.warn.power.cleared = none ∧
    s.warn.power.inputOk = s.power.inputOk ∧ s.warn.power.refclkDie = s.power.refclkDie ∧
    s.warn.reg Reg.POWER_SUPPLY_WARNINGS = (s.reg Reg.POWER_SUPPLY_WARNINGS + 1) % 2 ^ 32 ∧
    s.warn.mem = s.mem ∧ s.warn.ctl = s.ctl ∧ s.warn.clock = s.clock := by
  have hhide := State.warn_hide 517 rfl s
  have hpower : s.enterHold.power.inputOk = s.power.inputOk ∧ s.enterHold.power.refclkDie = s.power.refclkDie := by
    rw [State.enterHold_power]
    split <;> exact ⟨rfl, rfl⟩
  have hreg : s.enterHold.reg Reg.POWER_SUPPLY_WARNINGS = s.reg Reg.POWER_SUPPLY_WARNINGS :=
    reg_congr (kept_regs (State.enterHold_hide 516 rfl s) rfl) _
  refine ⟨s.enterHold_hold, rfl, hpower.1, hpower.2, ?_, kept_mem hhide rfl rfl, kept_ctl hhide rfl, kept_clock hhide rfl⟩
  have hwarn : s.warn.reg Reg.POWER_SUPPLY_WARNINGS = (s.enterHold.bump Reg.POWER_SUPPLY_WARNINGS).reg Reg.POWER_SUPPLY_WARNINGS :=
    reg_congr rfl _
  rw [hwarn, reg_bump, if_pos rfl, hreg]

theorem State.dieReset_run (s : State) (warm : Bool) : (s.dieReset warm).run = RunState.reset := rfl

/-- What a reset of the supplies leaves (R449). -/
theorem State.supplyReset_effect (s : State) (cause : Nat) : (s.supplyReset cause).power.conversion = false ∧
    (s.supplyReset cause).power.die = false ∧ (s.supplyReset cause).power.resetCause = cause ∧
    (s.supplyReset cause).run = RunState.reset ∧ (s.supplyReset cause).fab = Fabric.reset := ⟨rfl, rfl, rfl, rfl, rfl⟩

theorem State.supplyReset_log (s : State) (cause : Nat) : (s.supplyReset cause).ctl.log = [] := rfl

theorem State.supplyReset_kept (s : State) (cause : Nat) : (s.supplyReset cause).power.aux = s.power.aux ∧
    (s.supplyReset cause).boot.settings = s.boot.settings := by
  have hpower : (s.supplyReset cause).power.aux = (s.dieReset false).power.aux := rfl
  rw [hpower, State.dieReset_power]
  exact ⟨rfl, (s.dieReset_settings false).1⟩

theorem State.activate_power (s : State) : s.activate.power.hold = false ∧ s.activate.power.cleared = none ∧
    s.activate.power.restarting = true ∧ s.activate.power.die = false ∧ s.activate.power.resetCause = 3 := by
  refine ⟨rfl, rfl, rfl, rfl, rfl⟩

/-- The last part of a resume: herds run again, untrusted segments and batches are taken up, held intakes and units go on. -/
theorem State.resumed_power (s : State) : (((List.range 12).foldl (fun t i => ((t.redoBatch i).resumeSep i).intakeHeld i)
    (allCores.foldl (fun t c => if t.power.droop.any (fun d => d.1 == c / 16) then t else t.rerunUntrusted c)
      ((List.range 8).foldl (fun t h => t.resume h) s))).redIntake).power = s.power := by
  refine kept_power (m := 49629) ?_ rfl
  rw [State.redIntake_hide 49629 rfl, foldl_hide _ _ _ _ fun t i => by
      rw [State.intakeHeld_hide 49629 rfl, State.resumeSep_hide 49629 rfl, State.redoBatch_hide 49629 rfl],
    foldl_hide _ _ _ _ fun t c => by rw [ite_hide, State.rerunUntrusted_hide 49629 rfl, ite_self],
    foldl_hide _ _ _ _ fun t h => State.resume_hide 49629 rfl t h]

theorem State.supplyResume_eq (s : State) {c : Nat} (hhold : s.power.hold = true) (hc : s.power.cleared = some c)
    (ht : resumeTick c ≤ s.phaseNat) : ∃ u : State, u.power = { s.power with hold := false, cleared := none, heldOut := false } ∧
      u.activationDue = s.activationDue ∧ s.supplyResume = if u.activationDue then u.activate else
        ((List.range 12).foldl (fun t i => ((t.redoBatch i).resumeSep i).intakeHeld i)
          (allCores.foldl (fun t c => if t.power.droop.any (fun d => d.1 == c / 16) then t else t.rerunUntrusted c)
            ((List.range 8).foldl (fun t h => t.resume h) u))).redIntake := by
  refine ⟨?resumed, ?power, ?due, ?resume⟩
  case resume =>
    unfold State.supplyResume
    rw [hc]
    dsimp only
    rw [if_neg (by simp [hhold, ht])]
  case power => rfl
  case due => rfl

theorem State.raise_power (s : State) (f : FaultAt) (d : Bool) : (s.raise f d).power = s.power :=
  kept_power (State.raise_hide 49629 rfl ..) rfl

/-- Settles O2. -/
theorem supplyWarningCommands : Obligations.SupplyWarningCommands := by
  refine ⟨fun s hc hi => ?warning, fun s hh hi => ?clear, fun s c hh hc ht hd => ?resume, fun s hh ho hl hroom => ?hold,
    fun s hc => ?reset⟩
  case warning =>
    obtain ⟨hhold, hcleared, hinput, -, hreg, hmem, hctl, hclock⟩ :=
      State.warn_effect { s with power := { s.power with inputOk := false } }
    exact ⟨_, done_of_pos (by simp [hc, hi]), hinput, hhold, hcleared, hreg, hmem, hctl, hclock⟩
  case clear =>
    have hwell : ({ s with power := { s.power with inputOk := true } } : State).wellAgain = { s with power := { s.power with
        inputOk := true, cleared := if s.power.refclkDie then some s.phaseNat else s.power.cleared } } := by
      unfold State.wellAgain
      cases hr : s.power.refclkDie <;> simp [hh, State.phaseNat]
    rw [← hwell]
    exact done_of_pos (by simp [hh, hi])
  case resume =>
    obtain ⟨u, hu, hdue, he⟩ := s.supplyResume_eq hh hc ht
    refine ⟨s.supplyResume, rfl, ?_⟩
    rw [he, if_neg (by rw [hdue, hd]; decide), State.resumed_power, hu]
    exact ⟨rfl, rfl⟩
  case hold =>
    refine ⟨_, done_of_pos (by simp [hh, ho, hl]), ?_, ?_⟩
    · rw [State.raise_power]
    · exact (State.raise_shows _ _ false (by exact hroom)).imp
        fun x ⟨hcode, hcls, _, _, _, hphase⟩ => ⟨hcode, hcls, hphase⟩
  case reset =>
    have hkept := s.supplyReset_kept 1
    exact ⟨_, done_of_pos hc, rfl, rfl, rfl, rfl, rfl, rfl, rfl, hkept.1, hkept.2⟩

/-! ### Ports that lose a part (R366, R509) -/

theorem port_setPort (s : State) (p q : Nat) (v : PortState) : (s.setPort p v).port q = if q = p then v else s.port q := by
  unfold State.port
  exact tget_tputD ..

/-- A port that was live is down from now on, and that is counted; one that was down loses the part alone. -/
theorem State.port_portLoses (s : State) (p q : Nat) (w : LinkPart) : (s.portLoses p w).port q =
    if q = p then (if s.portLive p then { (s.port p).lose w with downAt := some s.clock.now } else (s.port p).lose w)
    else s.port q := by
  unfold State.portLoses
  dsimp only
  split
  next hlive =>
    have hfab (u : State) : ((u.bump (Reg.PORT_DOWN_EVENTS p)).event clsPort p evLink 0).fab = u.fab :=
      kept_fab ((State.event_hide 129 rfl ..).trans (State.bump_hide 129 rfl ..)) rfl
    unfold State.port
    rw [hfab]
    exact port_setPort ..
  next hdown => exact port_setPort ..

theorem State.portLoses_clock (s : State) (p : Nat) (w : LinkPart) : (s.portLoses p w).clock = s.clock :=
  kept_clock (State.portLoses_hide 193 rfl ..) rfl

/-- A port without link since a cycle. -/
def PortState.DownSince (v : PortState) (c : Nat) : Prop := v.linkUp = false ∧ v.fecLock = false ∧ v.downAt = some c

theorem State.portDown_of_live {s : State} {p : Nat} (h : s.portLive p = true) :
    ((s.portDown p).port p).DownSince s.clock.now := by
  unfold State.portDown
  rw [State.port_portLoses, if_pos rfl, if_pos h]
  exact ⟨rfl, rfl, rfl⟩

theorem State.portDown_keeps_down {s : State} {p q c : Nat} (h : (s.port q).DownSince c) :
    ((s.portDown p).port q).DownSince c := by
  obtain ⟨hlink, hfec, hat⟩ := h
  have hlive : s.portLive q = false := by
    unfold State.portLive
    rw [hlink]
    rfl
  unfold State.portDown
  rw [State.port_portLoses]
  split
  next he =>
    rw [← he, if_neg (by simp [hlive])]
    exact ⟨rfl, rfl, hat⟩
  next he => exact ⟨hlink, hfec, hat⟩

/-- Every live port of a list goes down with it. -/
theorem State.portsDown_of_live {s : State} {q : Nat} {l : List Nat} (hq : q ∈ l) (h : s.portLive q = true) :
    ((l.foldl State.portDown s).port q).DownSince s.clock.now := by
  have stays (l : List Nat) (t : State) (c : Nat) (ht : (t.port q).DownSince c) :
      ((l.foldl State.portDown t).port q).DownSince c :=
    List.foldlRecOn (motive := fun t : State => (t.port q).DownSince c) l _ ht fun t ht p _ => State.portDown_keeps_down ht
  induction l generalizing s with
  | nil => cases hq
  | cons p l ih =>
    by_cases hp : q = p
    · subst hp
      exact stays l _ _ (State.portDown_of_live h)
    · have hport : (s.portDown p).port q = s.port q := by
        unfold State.portDown
        rw [State.port_portLoses, if_neg hp]
      have hclock : (s.portDown p).clock = s.clock := State.portLoses_clock ..
      rw [← hclock]
      refine ih ((List.mem_cons.mp hq).resolve_left hp) ?_
      unfold State.portLive
      rw [hport]
      exact h

/-- Settles O3. -/
theorem referenceClockCommands : Obligations.ReferenceClockCommands := by
  refine ⟨fun s hc hr => ?loss, fun s hr => ?return_, fun s hc hr => ?timeout, fun s c i hlive => ?ports⟩
  case loss =>
    obtain ⟨hhold, hcleared, -, hclk, hreg, hmem, -, -⟩ :=
      State.warn_effect { s with power := { s.power with refclkDie := false } }
    exact ⟨_, done_of_pos (by simp [hc, hr]), hclk, hhold, hcleared, hreg, hmem⟩
  case return_ =>
    have hwell : ({ s with power := { s.power with refclkDie := true } } : State).wellAgain = { s with power := { s.power with
        refclkDie := true, cleared := if s.power.hold && s.power.inputOk then some s.phaseNat else s.power.cleared } } := by
      unfold State.wellAgain
      cases hh : s.power.hold <;> cases hi : s.power.inputOk <;> simp [State.phaseNat]
    rw [← hwell]
    exact done_of_neg (by simp [hr])
  case timeout =>
    exact ⟨_, done_of_pos (by simp [hc, hr]), rfl, rfl, rfl, rfl, rfl⟩
  case ports =>
    have hexec : exec (.refclkPortLoss c) s = .next (((List.range 4).map (4 * c.val + ·)).foldl State.portDown s) := by
      rw [List.foldl_map]
      rfl
    obtain ⟨hlink, hfec, hat⟩ := State.portsDown_of_live (l := (List.range 4).map (4 * c.val + ·))
      (List.mem_map.mpr ⟨i.val, List.mem_range.mpr i.isLt, rfl⟩) hlive
    exact ⟨_, hexec, hlink, hfec, hat,
      kept_mem (foldl_hide 193 _ _ _ fun t p => State.portLoses_hide 193 rfl t p .link) rfl rfl⟩

end Sys2Proof.Machine

end

section

/-!
Start-up, droop, temperature and activation (chapter 15).
-/

namespace Sys2Proof.Machine

/-! ### The images of a start (R473 to R475) -/

/-- What choosing and booting images leaves: the fuses, and the supplies but for a halt. -/
def State.BootedFrom (s t : State) : Prop :=
  t.boot.svnFused = s.boot.svnFused ∧ (t.power.halted = false → t.power = s.power)

section
variable {s t u : State}

theorem State.BootedFrom.refl : s.BootedFrom s := ⟨rfl, fun _ => rfl⟩

/-- The mask 51165 leaves the supplies and the settings out; an operation that keeps both, keeps this. -/
theorem State.BootedFrom.of_parts (h : s.BootedFrom t) (hp : u.power = t.power) (hb : u.boot.svnFused = t.boot.svnFused) :
    s.BootedFrom u := by
  unfold State.BootedFrom
  rw [hp, hb]
  exact h

theorem State.BootedFrom.foldl {α : Type} {f : State → α → State} (hf : ∀ t x, s.BootedFrom t → s.BootedFrom (f t x))
    (h : s.BootedFrom t) (l : List α) : s.BootedFrom (l.foldl f t) :=
  List.foldlRecOn l f h fun t ht x _ => hf t x ht

theorem State.BootedFrom.imageInvalid (h : s.BootedFrom t) (item : Nat) : s.BootedFrom (t.imageInvalid item) := by
  have hb : (t.imageInvalid item).boot = t.boot := kept_boot (State.imageInvalid_hide 50141 rfl ..) rfl
  refine ⟨(congrArg BootState.svnFused hb).trans h.1, fun hhalted => ?_⟩
  unfold State.imageInvalid at hhalted
  rw [State.raise_power] at hhalted
  cases hhalted

theorem State.BootedFrom.revertTried (h : s.BootedFrom t) (k : Nat) : s.BootedFrom (t.revertTried k) := by
  unfold State.revertTried
  extract_lets x
  split
  · exact h.of_parts rfl rfl
  · exact h

theorem State.BootedFrom.bootSlot (h : s.BootedFrom t) (k slot : Nat) (fell : Bool) : s.BootedFrom (t.bootSlot k slot fell) :=
  h.of_parts rfl rfl

theorem State.BootedFrom.fallback (h : s.BootedFrom t) : s.BootedFrom { t with boot := { t.boot with fallback := true } } :=
  h.of_parts rfl rfl

theorem State.BootedFrom.bootImage (h : s.BootedFrom t) (k slot : Nat) (fell : Bool) : s.BootedFrom (t.bootImage k slot fell) := by
  unfold State.bootImage
  extract_lets u
  have hu : s.BootedFrom u := h.bootSlot k slot fell
  split
  · exact hu.fallback.of_parts (kept_power (State.event_hide 129 rfl ..) rfl)
      (congrArg BootState.svnFused (kept_boot (State.event_hide 129 rfl ..) rfl))
  · exact hu

theorem State.BootedFrom.bootActive (h : s.BootedFrom t) : s.BootedFrom t.bootActive := by
  unfold State.bootActive
  split
  · exact h.imageInvalid _
  · exact (State.BootedFrom.foldl (fun u k hu => hu.bootSlot ..) h dieKinds).fallback

theorem State.bootedFrom_bootImages (s : State) : s.BootedFrom s.bootImages := by
  unfold State.bootImages
  extract_lets u pick booted compats
  have hu : s.BootedFrom u := State.BootedFrom.foldl (fun t k ht => ht.revertTried k) .refl dieKinds
  have hbooted : s.BootedFrom booted := by
    refine State.BootedFrom.foldl (fun t x ht => ?_) hu pick
    split
    · exact ht.bootImage ..
    · exact ht
  split
  · exact hu.imageInvalid _
  · split
    · exact hbooted
    · exact hbooted.bootActive

end

/-! ### The settings of a start (R481 to R483) -/

theorem State.takeSettings_svnFused (s : State) : s.takeSettings.boot.svnFused = s.boot.svnFused := by
  unfold State.takeSettings
  split
  · dsimp only
    rw [kept_boot (State.raise_hide 49629 rfl ..) rfl]
  · dsimp only
    split <;> rfl

theorem State.takeCalibration_boot (s : State) : s.takeCalibration.boot =
    { s.boot with inForce := s.boot.settings.offsets, factoryOk := true } := by
  unfold State.takeCalibration
  exact List.foldlRecOn (motive := fun t : State => t.boot = { s.boot with inForce := s.boot.settings.offsets, factoryOk := true })
    _ _ rfl fun t ht p _ =>
      (kept_boot ((State.setReg_hide 1 rfl ..).trans (State.setReg_hide 1 rfl ..)) rfl).trans ht

theorem State.takeNumber_boot (s : State) : s.takeNumber.boot = s.boot := kept_boot (State.takeNumber_hide 1 rfl s) rfl

/-- With healthy images and reports the Steward starts: the supplies stay, the calibration is good, the fused version is noted. -/
theorem State.bootSteward_of_healthy {s : State} {r : StartReport} (himages : s.bootImages.power.halted = false)
    (hentropy : r.entropyFails < 3) (hcal : r.calibrationOk = true) : (s.bootSteward r).power = s.power ∧
      (s.bootSteward r).boot.factoryOk = true ∧ (s.bootSteward r).boot.svnStart = s.boot.svnFused := by
  obtain ⟨hsvn, hpower⟩ := s.bootedFrom_bootImages
  generalize hb : s.bootImages = b at himages hsvn hpower
  obtain ⟨u, hu, he⟩ : ∃ u, b.takeSettings.takeBinding.takeCalibration.takeNumber = u ∧
      s.bootSteward r = { u with boot := { u.boot with svnStart := u.boot.svnFused } } := by
    refine ⟨_, rfl, ?_⟩
    unfold State.bootSteward
    rw [hb]
    dsimp only
    rw [if_neg (by simp [himages]), if_neg (by omega), if_neg (by simp [hcal])]
  have huboot : u.boot = { b.takeSettings.takeBinding.boot with
      inForce := b.takeSettings.takeBinding.boot.settings.offsets, factoryOk := true } := by
    rw [← hu, State.takeNumber_boot, State.takeCalibration_boot]
  have hupower : u.power = b.power := by
    have hhide : u.hide 50653 = b.hide 50653 := by
      rw [← hu]
      simp
    exact kept_power hhide rfl
  rw [he]
  refine ⟨hupower.trans (hpower himages), ?_, ?_⟩
  · exact congrArg BootState.factoryOk huboot
  · exact (congrArg BootState.svnFused huboot).trans ((State.takeSettings_svnFused b).trans hsvn)

/-! ### The stages of a start (Table 15.2) -/

theorem State.loadImages_of_good (s : State) {r : StartReport} (h : r.readBackBad = none) :
    (s.loadImages r).power.started = (decide (r.ended = 3) || s.power.started) ∧
    (s.loadImages r).power.booting = max s.power.booting r.ended.val ∧ (s.loadImages r).boot = s.boot ∧
    (s.loadImages r).mem = s.mem := by
  unfold State.loadImages
  rw [h]
  dsimp only
  split
  next he => exact ⟨by simp [he], rfl, rfl, rfl⟩
  next he => exact ⟨by simp [he], rfl, rfl, rfl⟩

theorem State.dieStart_eq {s : State} {r : StartReport} (hdie : s.power.die = true) (hstarted : s.power.started = false)
    (hhalted : s.power.halted = false) (hended : r.ended ≠ 0) :
    s.dieStart r = if (if s.power.booting = 0 then s.bootSteward r else s).power.halted then
      (if s.power.booting = 0 then s.bootSteward r else s) else
      (if s.power.booting = 0 then s.bootSteward r else s).loadImages r :=
  if_neg (by simp [hdie, hstarted, hhalted, hended])

/-- A stack trained after a cold start is cleared (R259). -/
theorem State.stackTrained_of_cold {s : State} {st : Nat} (hdie : s.power.die = true) (hstarted : s.power.started = true)
    (hnew : st ∉ s.power.trained) (hcold : s.power.warm = false) :
    (s.stackTrained st).power.trained = s.power.trained ++ [st] ∧
    (s.stackTrained st).mem.cells = zeroBytes s.mem.cells (st * stackBytes) stackBytes ∧ (s.stackTrained st).run = s.run ∧
    (s.stackTrained st).fab = s.fab := by
  have h : s.stackTrained st = _ := if_neg (by simp [hdie, hstarted, hnew])
  rw [h]
  dsimp only
  have hwarm (c : Churn) : (({ s with power := { s.power with trained := s.power.trained ++ [st] } } : State).setChurn st c).power.warm =
      false := hcold
  rw [if_neg (by rw [hwarm]; decide)]
  exact ⟨rfl, rfl, rfl, rfl⟩

theorem State.tierTrained_of_cold {s : State} {c : Nat} (hdie : s.power.die = true) (hstarted : s.power.started = true)
    (hnew : c ∉ s.power.tiers) (hcold : s.power.warm = false) :
    (s.tierTrained c).power.tiers = s.power.tiers ++ [c] ∧
    (s.tierTrained c).power.tierKeys = tput s.power.tierKeys c (tierKey s.ctl.free 0, tierKey s.ctl.free 1) ∧
    (s.tierTrained c).mem = s.mem ∧ (s.tierTrained c).regs = s.regs := by
  have h : s.tierTrained c = _ := if_neg (by simp [hdie, hstarted, hnew])
  rw [h]
  dsimp only
  rw [if_neg (by simp [hcold])]
  exact ⟨rfl, rfl, rfl, rfl⟩

/-- Generalised over the limit: the kernel would compute with the cycles in a millisecond. -/
theorem not_limit_open_or_reported {stage ms now : Nat} {limit : Option Nat} {cycle : Nat → Nat} {reported : List Nat}
    (hlimit : limit = some ms) (hpast : cycle ms ≤ now) (hnew : stage ∉ reported) :
    ¬ ((!limit.any (fun ms => decide (cycle ms ≤ now)) || reported.contains stage) = true) := by
  simp [hlimit, hpast, hnew]

theorem State.startTimeout_eq {s : State} {ms : Nat} (hlimit : stageLimit s.startStage = some ms)
    (hpast : s.limitCycle ms ≤ s.clock.now) (hnew : s.startStage ∉ s.power.timedOut) :
    s.startTimeout = ({ s with power := { s.power with timedOut := s.startStage :: s.power.timedOut } } : State).raise
      { code := 0x0B03, cls := clsPower, inst := 0, addr := s.startStage } := by
  rw [State.startTimeout]
  exact if_neg (not_limit_open_or_reported hlimit hpast hnew)

/-- Settles O4. -/
theorem startUpCommands : Obligations.StartUpCommands := by
  refine ⟨fun s r hdie hstarted hhalted hboot himages hent hread hcal hend => ?first,
    fun s r hdie hstarted hhalted hboot hread hend => ?later, fun s i hdie hstarted hnew hcold => ?stack,
    fun s c hdie hstarted hnew hcold => ?tier, fun s ms hlimit hpast hnew hroom => ?timeout⟩
  case first =>
    obtain ⟨hpower, hfactory, hsvn⟩ := State.bootSteward_of_healthy himages hent hcal
    obtain ⟨hs, hb, hboots, -⟩ := (s.bootSteward r).loadImages_of_good hread
    have he : s.dieStart r = (s.bootSteward r).loadImages r := by
      rw [State.dieStart_eq hdie hstarted hhalted hend, if_pos hboot, if_neg (by simp [hpower, hhalted])]
    refine ⟨_, rfl, ?_⟩
    rw [he, hs, hb, hboots, hpower, hstarted, hboot]
    exact ⟨by simp, by simp, hfactory, hsvn⟩
  case later =>
    obtain ⟨hs, -, hb, hm⟩ := s.loadImages_of_good hread
    have he : s.dieStart r = s.loadImages r := by
      rw [State.dieStart_eq hdie hstarted hhalted (by simp [hend]), if_neg hboot, if_neg (by simp [hhalted])]
    refine ⟨_, rfl, ?_⟩
    rw [he, hs, hb, hm]
    exact ⟨by simp [hend], rfl, rfl⟩
  case stack =>
    obtain ⟨htrained, hcells, hrun, hfab⟩ := State.stackTrained_of_cold hdie hstarted hnew hcold
    refine ⟨_, rfl, htrained, fun a => ?_, hrun, hfab⟩
    rw [hcells, byteAt_zeroBytes]
  case tier =>
    obtain ⟨htiers, hkeys, hmem, hregs⟩ := State.tierTrained_of_cold hdie hstarted hnew hcold
    exact ⟨_, rfl, htiers, by rw [hkeys, tfind_tput, if_pos rfl], hmem, hregs⟩
  case timeout =>
    refine ⟨_, done_of_eq (State.startTimeout_eq hlimit hpast hnew), ?_, ?_⟩
    · rw [State.raise_power]
    · exact (State.raise_shows _ _ false (by exact hroom)).imp
        fun x ⟨hcode, hcls, _, _, haddr, _⟩ => ⟨hcode, hcls, haddr⟩

/-! ### Droop (R450) -/

theorem State.droopTrip_effect {s : State} (q : Nat) (hdie : s.power.die = true) :
    (s.droopTrip q).power.droop = s.power.droop.filter (fun d => d.1 != q) ++ [(q, s.clock.now)] ∧
    (s.droopTrip q).reg Reg.POWER_DROOP_EVENTS = (s.reg Reg.POWER_DROOP_EVENTS + 1) % 2 ^ 32 ∧
    (s.droopTrip q).reg Reg.POWER_LAST_DROOP = (s.slot % 2 ^ 30 * 4 + q) % 2 ^ 32 := by
  obtain ⟨u, hu, hpower, hreg⟩ : ∃ u : State, s.droopTrip q = (quarterCores q).foldl (fun t c => t.distrust c)
        ((u.quarterHerds q).foldl (fun t h => t.setHerd h { t.herd h with frozen := true }) u) ∧
      u.power.droop = s.power.droop.filter (fun d => d.1 != q) ++ [(q, s.clock.now)] ∧
      ∀ a, u.reg a = ((s.bump Reg.POWER_DROOP_EVENTS).setReg Reg.POWER_LAST_DROOP (s.slot % 2 ^ 30 * 4 + q)).reg a :=
    ⟨_, if_neg (by simp [hdie]), rfl, fun a => rfl⟩
  have hfolds : (s.droopTrip q).hide 4 = u.hide 4 := by
    rw [hu]
    exact (foldl_hide _ _ _ _ fun _ _ => State.distrust_hide 4 rfl ..).trans
      (foldl_hide _ _ _ _ fun _ _ => State.setHerd_hide 4 rfl ..)
  have hregs := kept_regs hfolds rfl
  rw [kept_power hfolds rfl, reg_congr hregs, reg_congr hregs, hreg, hreg]
  refine ⟨hpower, ?_, reg_setReg_self ..⟩
  rw [reg_setReg_ne _ _ _ _ (by decide), reg_bump, if_pos rfl]

theorem State.droopRecover_droop {s : State} {q c : Nat} (h : (q, c) ∈ s.power.droop) :
    (s.droopRecover q).power.droop = s.power.droop.filter (fun d => d.1 != q) := by
  obtain ⟨u, hu, hpower⟩ : ∃ u : State, s.droopRecover q =
        (let v := (u.quarterHerds q).foldl (fun t h => t.resume h) u
         if v.power.hold then v else (quarterCores q).foldl (fun t c => t.rerunUntrusted c) v) ∧
      u.power.droop = s.power.droop.filter (fun d => d.1 != q) :=
    ⟨_, if_pos (List.any_eq_true.mpr ⟨_, h, beq_self_eq_true q⟩), rfl⟩
  have hhide : (s.droopRecover q).hide 49629 = u.hide 49629 := by
    rw [hu]
    dsimp only
    have hherds : ((u.quarterHerds q).foldl (fun t h => t.resume h) u).hide 49629 = u.hide 49629 :=
      foldl_hide _ _ _ _ fun t h => State.resume_hide 49629 rfl ..
    exact hide_ite hherds ((foldl_hide _ _ _ _ fun t c => State.rerunUntrusted_hide 49629 rfl ..).trans hherds)
  rw [kept_power hhide rfl, hpower]

/-! ### Temperature (R451, R457) -/

theorem State.passes_reg (s : State) (was is : Bool) {x : Nat} (hraw : x ≠ Reg.EVENT_RAW clsPower 0)
    (hcount : x ≠ Reg.COUNTER_0 clsPower 0) (hlatch : x ≠ Reg.EVENT_LATCH clsPower 0) (hlost : x ≠ Reg.QMGR_LOG_LOST) :
    (s.passes was is).reg x = s.reg x := by
  unfold State.passes
  split
  · exact event_reg _ _ _ _ _ _ hraw hcount hlatch hlost
  · rfl

/-- The temperatures of a sample in their registers. -/
def State.sampled (s : State) (m : Sample) : State :=
  ((s.measure m).setReg Reg.POWER_TEMP_DIE (unsignedOf 16 (m.dieC8 + s.calValue (0x14 + m.quarter.val)))).setReg
    Reg.POWER_TEMP_COOLANT (unsignedOf 16 (m.coolantC8 + s.calValue 0x18))

theorem State.measure_calValue (s : State) (m : Sample) (i : Nat) : (s.measure m).calValue i = s.calValue i := by
  unfold State.calValue
  rw [kept_boot (State.measure_hide 1 rfl ..) rfl]

theorem State.sampled_throttleAt (s : State) (m : Sample) : (s.sampled m).throttleAt = s.throttleAt := by
  have hreg : (s.sampled m).reg Reg.POWER_THERMAL_CONFIG = s.reg Reg.POWER_THERMAL_CONFIG := by
    unfold State.sampled State.measure
    dsimp only
    iterate 7 rw [reg_setReg_ne _ _ _ _ (by decide)]
  unfold State.throttleAt
  rw [hreg]

theorem State.sampled_hide (s : State) (m : Sample) : (s.sampled m).hide 1 = s.hide 1 :=
  (State.setReg_hide 1 rfl ..).trans ((State.setReg_hide 1 rfl ..).trans (State.measure_hide 1 rfl ..))

def State.withPower (s : State) (p : PowerState) : State := { s with power := p }

theorem State.withPower_eq (s : State) (p : PowerState) : { s with power := p } = s.withPower p := rfl

theorem State.withPower_mem (s : State) (p : PowerState) : (s.withPower p).mem = s.mem := rfl

/-- A sample below 105 °C shows its values and decides throttling and the coolant's bit. -/
theorem State.thermal_of_cool {s : State} {m : Sample} (hparlour : s.power.parlour = true)
    (hcool : m.dieC8 + s.calValue (0x14 + m.quarter.val) < 840) : ∃ w₁ w₂ : Bool, ∃ p : PowerState,
      s.thermal m = (((s.sampled m).passes w₁ (decide (s.throttleAt < m.dieC8 + s.calValue (0x14 + m.quarter.val)))).passes
        w₂ (decide (320 < m.coolantC8 + s.calValue 0x18))).withPower p ∧
      p.overtemp = false ∧ p.overAt = none ∧
      p.throttle = decide (s.throttleAt < m.dieC8 + s.calValue (0x14 + m.quarter.val)) ∧
      p.coolant = decide (320 < m.coolantC8 + s.calValue 0x18) := by
  have h840 : decide (840 ≤ m.dieC8 + s.calValue (0x14 + m.quarter.val)) = false := by simp; omega
  refine ⟨?was, ?wasCoolant, ?power, ?eq, ?notOver, ?at_, ?throttle, ?coolant⟩
  case eq =>
    unfold State.thermal
    rw [if_neg (by simp [hparlour])]
    simp only [State.measure_calValue, ← State.sampled.eq_def, State.sampled_throttleAt, h840]
    rw [if_neg (fun h => absurd h.1 (by omega)), Bool.false_and, Bool.false_and, if_neg Bool.false_ne_true]
    exact State.withPower_eq ..
  case notOver => rfl
  case at_ => rfl
  case throttle => rfl
  case coolant => rfl

theorem unsignedOf_lt (w : Nat) (x : Int) : unsignedOf w x < 2 ^ w := by
  have hpos : (0 : Int) < 2 ^ w := by positivity
  have hlt := Int.emod_lt_of_pos x hpos
  unfold unsignedOf
  zify
  rwa [Int.toNat_of_nonneg (Int.emod_nonneg _ hpos.ne')]

/-- A warm restart keeps the conversion (R453). -/
theorem State.activate_conversion (s : State) : s.activate.power.conversion = s.power.conversion := by
  have hstop : (if s.planRuns then s.planStop else s).power = s.power := by
    split
    · exact kept_power (State.planStop_hide 49309 rfl _) rfl
    · rfl
  have hreset : s.activate.power.conversion = ((if s.planRuns then s.planStop else s).dieReset true).power.conversion := rfl
  rw [hreset, State.dieReset_power, hstop]
  rfl

/-- Settles O5. -/
theorem droopAndThermalCommands : Obligations.DroopAndThermalCommands := by
  refine ⟨fun s q hdie => ?trip, fun s q c h => ?recover, fun s m hp hcool => ?sample, fun s c hat hover ht => ?timer,
    fun s hdie hdue hhold => ?activation⟩
  case trip =>
    obtain ⟨hdroop, hevents, hlast⟩ := State.droopTrip_effect q.val hdie
    have hhide := State.droopTrip_hide 517 rfl s q.val
    refine ⟨_, rfl, hdroop, hevents, ?_, kept_mem hhide rfl rfl, kept_ctl hhide rfl⟩
    rw [hlast]
    omega
  case recover => exact ⟨_, rfl, State.droopRecover_droop h⟩
  case sample =>
    obtain ⟨w₁, w₂, p, he, hnot, hat, hthrottle, hcoolant⟩ := State.thermal_of_cool hp hcool
    generalize decide (s.throttleAt < m.dieC8 + s.calValue (0x14 + m.quarter.val)) = hot at he hthrottle
    generalize decide (320 < m.coolantC8 + s.calValue 0x18) = high at he hcoolant
    have hpower : (s.thermal m).power = p := by
      rw [he]
      rfl
    have hmem : (s.thermal m).mem = s.mem := by
      have hhide : (((s.sampled m).passes w₁ hot).passes w₂ high).hide 129 = s.hide 129 :=
        (State.passes_hide 129 rfl ..).trans ((State.passes_hide 129 rfl ..).trans (hide_mono (s.sampled_hide m) rfl))
      rw [he, State.withPower_mem, kept_mem hhide rfl rfl]
    have hreg (x : Nat) (hraw : x ≠ Reg.EVENT_RAW clsPower 0) (hcount : x ≠ Reg.COUNTER_0 clsPower 0)
        (hlatch : x ≠ Reg.EVENT_LATCH clsPower 0) (hlost : x ≠ Reg.QMGR_LOG_LOST) :
        (s.thermal m).reg x = (s.sampled m).reg x := by
      have hregs : (((s.sampled m).passes w₁ hot).passes w₂ high).regs = (s.thermal m).regs := by
        rw [he]
        rfl
      rw [← reg_congr hregs]
      exact (State.passes_reg _ _ _ hraw hcount hlatch hlost).trans (State.passes_reg _ _ _ hraw hcount hlatch hlost)
    refine ⟨_, rfl, ?_⟩
    rw [hpower, hmem, hreg _ (by decide) (by decide) (by decide) (by decide), hreg _ (by decide) (by decide) (by decide) (by decide),
      hreg _ (by decide) (by decide) (by decide) (by decide), hreg _ (by decide) (by decide) (by decide) (by decide)]
    refine ⟨hnot, hat, hthrottle, hcoolant, ?_, ?_, ?_, ?_, rfl⟩
    all_goals unfold State.sampled State.measure; dsimp only
    · iterate 6 rw [reg_setReg_ne _ _ _ _ (by decide)]
      rw [reg_setReg_self]
      omega
    · iterate 5 rw [reg_setReg_ne _ _ _ _ (by decide)]
      rw [reg_setReg_self]
      omega
    · rw [reg_setReg_ne _ _ _ _ (by decide), reg_setReg_self]
      exact Nat.mod_eq_of_lt ((unsignedOf_lt ..).trans (by decide))
    · rw [reg_setReg_self]
      exact Nat.mod_eq_of_lt ((unsignedOf_lt ..).trans (by decide))
  case timer =>
    obtain ⟨hconv, hdie, hcause, hrun, -⟩ := s.supplyReset_effect 2
    refine ⟨s.supplyReset 2, done_of_eq ?_, hcause, hconv, hdie, hrun⟩
    rw [hat]
    dsimp only
    rw [if_pos (by simp [hover, ht])]
  case activation =>
    obtain ⟨-, -, hrestart, hdown, hcause⟩ := s.activate_power
    refine ⟨s.activate, done_of_pos (by simp [hdie, hdue, hhold]), hrestart, hdown, hcause, rfl, rfl, s.activate_conversion⟩

end Sys2Proof.Machine

end

section

/-!
Functional safety (chapter 14): heartbeats, detections, the stop and its reports.
-/

namespace Sys2Proof.Machine

/-! ### A plan stop behind a detection stores nothing -/

/-- No Separator has a command that a plan stop would cut off: those in progress wait for another unit. -/
def State.SepsQuiet (s : State) : Prop := ∀ i r, i < 12 → (s.sep i).cur = some r → r.waiting = true

section
variable {s t : State}

theorem State.SepsQuiet.of_hide (h : s.SepsQuiet) (e : t.hide 65527 = s.hide 65527) : t.SepsQuiet := by
  have hseps : t.seps = s.seps := kept_seps e rfl
  unfold State.SepsQuiet State.sep
  rw [hseps]
  exact h

theorem sep_of_hide (e : t.hide 65527 = s.hide 65527) (j : Nat) : t.sep j = s.sep j := by
  have hseps : t.seps = s.seps := kept_seps e rfl
  unfold State.sep
  rw [hseps]

/-- A unit that a detection makes safe has nothing in progress but what waits; the others stay. -/
theorem State.safeSep_sep (s : State) (i j : Nat) :
    (j ≠ i → (s.safeSep i).sep j = s.sep j) ∧ ∀ r, ((s.safeSep i).sep i).cur = some r → r.waiting = true := by
  unfold State.safeSep
  extract_lets u
  split
  next hcur => exact ⟨fun _ => rfl, fun r hr => by rw [show (s.sep i).cur = none from hcur] at hr; cases hr⟩
  next r hcur =>
    split
    next hw =>
      refine ⟨fun _ => rfl, fun q hq => ?_⟩
      obtain rfl : r = q := Option.some.inj (hcur.symm.trans hq)
      exact hw
    next hw =>
      extract_lets named s1 src s2 s3 src' s4
      have h1 : s1.hide 65527 = s.hide 65527 := State.dropRequests_hide _ rfl ..
      have h2 : s2.hide 65527 = s.hide 65527 := (State.setUpd_hide _ rfl ..).trans h1
      have h3 : s3.hide 65527 = s.hide 65527 := hide_ite ((State.hostDone_hide _ rfl ..).trans h2) h2
      have h4 (k : Nat) : s4.sep k = if k = i then { s3.sep i with cur := none } else s3.sep k := by
        rw [← sep_setSep]
        exact sep_of_hide (State.bump_hide _ rfl ..) k
      have hend (k : Nat) : (if named = true then s4.bump (Reg.SEP_TRUNCATED i) else s4).sep k = s4.sep k :=
        sep_of_hide (hide_ite (State.bump_hide _ rfl ..) rfl) k
      rw [hend, hend, h4, h4, if_pos rfl]
      exact ⟨fun hj => by rw [if_neg hj, sep_of_hide h3], fun r hr => by cases hr⟩

theorem State.safeUpd_sep (s : State) (i j : Nat) : (s.safeUpd i).sep j = s.sep j :=
  sep_of_hide (State.safeUpd_hide _ rfl ..) j

/-- A detection cuts every Separator's batch off (R409). -/
theorem State.safeBases_quiet (s : State) : s.safeBases.SepsQuiet := by
  have upTo (n : Nat) : ∀ i r, i < n →
      (((List.range n).foldl (fun t i => (t.safeSep i).safeUpd i) s).sep i).cur = some r → r.waiting = true := by
    induction n with
    | zero => exact fun i r hi => absurd hi (Nat.not_lt_zero i)
    | succ n ih =>
      intro i r hi hr
      rw [List.range_succ, List.foldl_append, List.foldl_cons, List.foldl_nil, State.safeUpd_sep] at hr
      by_cases he : i = n
      · subst he
        exact (State.safeSep_sep _ i i).2 r hr
      · rw [(State.safeSep_sep _ n i).1 he] at hr
        exact ih i r (by omega) hr
  exact upTo 12

theorem State.detect_quiet (s : State) (f : FaultAt) : (s.detect f).SepsQuiet := State.safeBases_quiet _

/-- The mask 44 names requests, units and pending masks: the stop of a quiet unit empties its queue. -/
theorem State.stopSep_of_quiet {i : Nat} (h : ∀ r, (s.sep i).cur = some r → r.waiting = true) :
    (s.stopSep i).hide 12 = s.hide 12 ∧ (∀ j, ((s.stopSep i).sep j).cur = (s.sep j).cur) := by
  have hset (u : SepUnit) (hu : u.cur = (s.sep i).cur) (ids : List Nat) :
      (((s.dropRequests ids).setSep i u).hide 12 = s.hide 12 ∧
        ∀ j, (((s.dropRequests ids).setSep i u).sep j).cur = (s.sep j).cur) := by
    refine ⟨(State.setSep_hide 12 rfl ..).trans (State.dropRequests_hide 12 rfl ..), fun j => ?_⟩
    rw [sep_setSep]
    split
    next he => rw [hu, he]
    next he => rw [sep_of_hide (State.dropRequests_hide _ rfl ..)]
  unfold State.stopSep
  extract_lets u ids s1
  split
  next hcur => exact hset _ (by exact rfl) _
  next r hcur =>
    rw [if_pos (h r hcur)]
    exact hset _ (by exact rfl) _

theorem State.stopBases_of_quiet (h : s.SepsQuiet) : s.stopBases.hide 28 = s.hide 28 := by
  unfold State.stopBases
  refine (List.foldlRecOn (motive := fun t : State => t.hide 28 = s.hide 28 ∧ t.SepsQuiet) _ _ ⟨rfl, h⟩ ?_).1
  intro t ⟨ht, hq⟩ i hi
  obtain ⟨hhide, hcur⟩ := State.stopSep_of_quiet (hq i · (List.mem_range.mp hi))
  have hupd := State.stopUpd_hide 28 rfl (t.stopSep i) i
  refine ⟨hupd.trans ((hide_mono hhide rfl).trans ht), fun j r hj hr => ?_⟩
  rw [sep_of_hide (State.stopUpd_hide _ rfl ..), hcur] at hr
  exact hq j r hj hr

theorem State.withRun_hide (s : State) (r : RunState) : State.hide 29 { s with run := r } = s.hide 29 := hide_run 29 s r rfl

/-- With the Separators quiet a plan stop writes no journal: it changes registers, the run and the units alone. -/
theorem State.planStop_of_quiet (h : s.SepsQuiet) : s.planStop.hide 29 = s.hide 29 := by
  have hcut : s.cutWaits.hide 29 = s.hide 29 := State.cutWaits_hide 29 rfl s
  have hq : s.cutWaits.SepsQuiet := h.of_hide (State.cutWaits_hide _ rfl s)
  exact (State.withRun_hide _ _).trans ((hide_mono (State.stopBases_of_quiet hq) rfl).trans hcut)

/-! ### What else a fault leaves of the run -/

theorem State.planStop_selftest (s : State) : s.planStop.run.selftest = false := rfl

theorem RunState.SameButRequests.selftest {r q : RunState} (h : r.SameButRequests q) : r.selftest = q.selftest := by
  unfold RunState.SameButRequests at h
  injection h

theorem State.raise_selftest (s : State) (f : FaultAt) (d : Bool) :
    (s.raise f d).run.selftest = (s.run.selftest && !s.planRuns) := by
  rw [State.raise_eq]
  split
  next hruns => rw [hruns, State.planStop_selftest]; simp
  next hruns => rw [(State.faulted_sameRun s f d).selftest, Bool.eq_false_iff.mpr hruns]; simp

end

/-! ### Detections and the stop (R408, R409, R411 to R413, R424 to R426) -/

theorem State.lockstep_eq (s : State) : s.lockstep =
    if s.planRuns then (s.detect { code := 0x0A03, cls := clsSafety, inst := 0, addr := 1 }).planStop
    else s.detect { code := 0x0A03, cls := clsSafety, inst := 0, addr := 1 } := rfl

/-- A lockstep mismatch is a detection without a record in the log (R424). -/
theorem State.lockstep_effect (s : State) : s.lockstep.safety.stop = true ∧
    s.lockstep.safety.detectSeq = (if s.safety.stop then s.safety.detectSeq + 1 else 1) ∧
    s.lockstep.run.stopped = (s.run.stopped || s.planRuns) ∧ s.lockstep.ctl = s.ctl := by
  rw [State.lockstep_eq]
  generalize hf : ({ code := 0x0A03, cls := clsSafety, inst := 0, addr := 1 } : FaultAt) = f
  obtain ⟨hstop, -, hseq, -⟩ := State.detect_safety s f
  have hctl : (s.detect f).ctl = s.ctl := kept_ctl (State.detect_hide 349 rfl ..) rfl
  split
  next hruns =>
    have hhide := State.planStop_of_quiet (State.detect_quiet s f)
    rw [State.planStop_safety, kept_ctl hhide rfl, State.planStop_stopped, hruns, Bool.or_true]
    exact ⟨hstop, hseq, rfl, hctl⟩
  next hruns =>
    rw [Bool.eq_false_iff.mpr hruns, Bool.or_false]
    exact ⟨hstop, hseq, (State.detect_sameRun s f).stopped, hctl⟩

theorem State.parlourRestart_effect (s : State) : s.parlourRestart.safety.joined = [] ∧ s.parlourRestart.safety.ackedBy = [] ∧
    s.parlourRestart.safety.hbMisses = 0 ∧ s.parlourRestart.safety.stop = s.safety.stop ∧
    s.parlourRestart.safety.detectSeq = s.safety.detectSeq ∧ s.parlourRestart.power.startedAt = s.clock.now ∧
    s.parlourRestart.reg Reg.SAFETY_REPORTS_SENT = 0 ∧ s.parlourRestart.reg Reg.SAFETY_REPORTS_ACKED = 0 := by
  refine ⟨rfl, rfl, rfl, rfl, rfl, rfl, ?_, ?_⟩
  · unfold State.parlourRestart
    dsimp only
    rw [reg_setReg_ne _ _ _ _ (by decide), reg_setReg_self, Nat.zero_mod]
  · unfold State.parlourRestart
    dsimp only
    rw [reg_setReg_self, Nat.zero_mod]

theorem State.stopAcked_eq {s : State} {c : Nat} (hstop : s.safety.stop = true) (hblocked : s.safety.blocked = false)
    (hat : s.safety.detectedAt = some c) : s.stopAcked =
      ({ s with safety := { s.safety with blocked := true } } : State).setReg Reg.SAFETY_BLOCK_TIME_MAX
        (min (2 ^ 32 - 1) (max (s.reg Reg.SAFETY_BLOCK_TIME_MAX) (s.clock.now - c))) := by
  unfold State.stopAcked
  rw [if_pos (by simp [hstop, hblocked]), hat]

theorem State.safeRelease_of_last {s : State} (hstop : s.safety.stop = true) (hruns : s.planRuns = false)
    (hacked : s.safety.reportAcked = true) : (s.safeRelease s.safety.detectSeq).1 = { s with safety := { s.safety with
      stop := false, blocked := false, detectedAt := none, suspectTo := s.clock.phase } } := by
  unfold State.safeRelease
  rw [if_pos (by simp [hstop, hruns, hacked])]

theorem State.safeRelease_of_refused {s : State} {v : Word} (h : s.safety.stop = false ∨ v ≠ s.safety.detectSeq ∨
    s.planRuns = true ∨ s.safety.reportAcked = false) :
    (s.safeRelease v).1 = s.event clsSafety 0 evRefused Reg.SAFETY_SAFE_RELEASE := by
  unfold State.safeRelease
  rw [if_neg]
  simp only [Bool.and_eq_true, Bool.not_eq_true', beq_iff_eq]
  rintro ⟨⟨⟨hstop, hv⟩, hruns⟩, hacked⟩
  rcases h with h | h | h | h
  · simp [hstop] at h
  · exact h hv
  · simp [hruns] at h
  · simp [hacked] at h

/-- Settles O7: each is a detection, or an update of the safety state. -/
theorem detectionAndStopCommands : Obligations.DetectionAndStopCommands := by
  refine ⟨fun s hroom => ?request, fun s b hself hroom => ?selftest, fun s hdie => ?lockstep, fun s hp => ?restart,
    fun s c hstop hb hat => ?acks, fun s hstop hruns hacked => ?release, fun s v h => ?refused⟩
  case request =>
    obtain ⟨hstop, hto, hseq, -⟩ := s.raise_safety { code := 0x0A07, cls := clsSafety, inst := 0 }
    exact ⟨_, rfl, hstop, hto, hseq, State.raise_stopped .., (State.raise_shows _ _ true hroom).imp
      fun x ⟨hcode, hcls, _, _, _, hphase⟩ => ⟨hcode, hcls, hphase⟩⟩
  case selftest =>
    refine ⟨_, done_of_pos hself, ?_⟩
    obtain ⟨hstop, -, -, -, -, hok⟩ := State.raise_safety
      { s with run := { s.run with selftest := false }, safety := { s.safety with selftestOk := false } }
      { code := 0x0A06, cls := clsSafety, inst := 0, addr := b.cls * 256 + b.inst }
    exact ⟨hstop, hok, State.raise_selftest .., (State.raise_shows _ _ true (by exact hroom)).imp
      fun x ⟨hcode, hcls, _⟩ => ⟨hcode, hcls⟩⟩
  case lockstep => exact ⟨_, done_of_pos hdie, s.lockstep_effect⟩
  case restart => exact ⟨_, done_of_pos hp, s.parlourRestart_effect⟩
  case acks =>
    refine ⟨_, done_of_eq (State.stopAcked_eq hstop hb hat), rfl, ?_, fun a ha => ?_⟩
    · rw [reg_setReg_self]
      omega
    · rw [reg_setReg_ne _ _ _ _ ha]
      rfl
  case release => exact done_of_eq (State.safeRelease_of_last hstop hruns hacked)
  case refused =>
    refine ⟨_, done_of_eq (State.safeRelease_of_refused h), ?_, State.event_run ..⟩
    exact kept_safety (State.event_hide 129 rfl ..) rfl

/-! ### Heartbeats (R420, R422, R423) -/

theorem State.schedCheck_of_kept {s : State} (h : s.planRuns = false ∨ s.run.monitor = none ∨ s.stalled = []) :
    s.schedCheck = s := by
  unfold State.schedCheck
  split
  next hc =>
    rcases h with h | h | h
    · simp [h] at hc
    · simp [h] at hc
    · rw [h]
      rfl
  · rfl

theorem State.slotEdge_eq {s : State} (acks : Bool) (hdie : s.power.die = true) (htick : s.tickOf = 0)
    (h : s.planRuns = false ∨ s.run.monitor = none ∨ s.stalled = []) :
    s.slotEdge acks = ((s.sendHeartbeat.parlourAck acks).saturation 0).saturation 1 := by
  unfold State.slotEdge
  rw [if_pos (by simp [hdie, htick]), State.schedCheck_of_kept h]

/-- Saturation shows in the fabric and its registers alone (R357). -/
theorem State.saturations_hide (s : State) : ((s.saturation 0).saturation 1).hide 65 = s.hide 65 :=
  (State.saturation_hide 65 rfl ..).trans (State.saturation_hide 65 rfl ..)

theorem reg_ite {p : Prop} [Decidable p] {a b : State} {x v : Nat} (ha : a.reg x = v) (hb : b.reg x = v) :
    (if p then a else b).reg x = v := by
  split
  · exact ha
  · exact hb

theorem State.saturation_reg (s : State) (c : Nat) {a : Nat} (h : a ≠ Reg.FABRIC_SATURATED_SLOTS c) :
    (s.saturation c).reg a = s.reg a := by
  unfold State.saturation
  exact reg_ite ((reg_bump ..).trans (if_neg h)) rfl

theorem State.parlourAck_of_ack {s : State} (hp : s.power.parlour = true) : s.parlourAck true =
    { s with safety := { s.safety with parlourAlive := true, plMisses := 0, plLost := false, suspended := none,
                                       hbMisses := 0, hbLost := false, hbSlot := some s.slot } } := by
  unfold State.parlourAck
  rw [if_pos (by simp [hp])]

theorem State.sendHeartbeat_safety (s : State) : s.sendHeartbeat.safety = s.safety := rfl

/-- A missed acknowledgement is counted, and is PARLOUR_LOST when the misses reach their limit. -/
theorem State.parlourAck_of_miss {s : State} (hsus : s.safety.suspended = none) : ∃ u : State,
    s.sendHeartbeat.parlourAck false = (if (!s.safety.plLost && decide (s.plMiss ≤ s.safety.plMisses + 1)) = true then
      u.raise { code := 0x0A04, cls := clsSafety, inst := 0, addr := s.safety.plMisses + 1 } true else u) ∧
    u.safety = { s.safety with
      parlourAlive := false, plMisses := s.safety.plMisses + 1, suspended := none,
      plLost := s.safety.plLost || (!s.safety.plLost && decide (s.plMiss ≤ s.safety.plMisses + 1)) } ∧
    u.ctl = s.ctl ∧ u.clock = s.clock ∧
    u.reg Reg.SAFETY_PARLOUR_MISSED = (s.reg Reg.SAFETY_PARLOUR_MISSED + 1) % 2 ^ 32 := by
  refine ⟨?counted, ?eq, ?safety, ?ctl, ?clock, ?reg⟩
  case eq =>
    unfold State.parlourAck
    rw [if_neg (by simp)]
    dsimp only
    rw [State.sendHeartbeat_safety, hsus]
    exact if_neg Bool.false_ne_true
  case safety => rfl
  case ctl => rfl
  case clock => rfl
  case reg =>
    rw [reg_bump, if_pos rfl]
    rfl

/-- A missed heartbeat is counted, and is HEARTBEAT_LOST when the misses reach their limit (R422). -/
theorem State.heartbeatMissed_eq {s : State} (hdie : s.power.die = true) (hp : s.power.parlour = true) :
    s.heartbeatMissed = (if (!s.safety.hbLost && decide (s.hbMiss ≤ s.safety.hbMisses + 1)) = true then
      (({ s with safety := { s.safety with
          hbMisses := s.safety.hbMisses + 1,
          hbLost := s.safety.hbLost || (!s.safety.hbLost && decide (s.hbMiss ≤ s.safety.hbMisses + 1)) } } : State).bump
            Reg.SAFETY_HEARTBEATS_MISSED).raise { code := 0x0A03, cls := clsSafety, inst := 0, addr := 0 } true
      else ({ s with safety := { s.safety with
          hbMisses := s.safety.hbMisses + 1,
          hbLost := s.safety.hbLost || (!s.safety.hbLost && decide (s.hbMiss ≤ s.safety.hbMisses + 1)) } } : State).bump
            Reg.SAFETY_HEARTBEATS_MISSED) := by
  unfold State.heartbeatMissed
  rw [if_pos (by simp [hdie, hp])]

/-- Settles O6: the heartbeat is sent first, then Parlour's acknowledgement is taken or missed. -/
theorem watchCommands : Obligations.WatchCommands := by
  refine ⟨fun s hdie hp htick hkept => ?acked, fun s hdie htick hkept hsus hfew => ?missed,
    fun s hdie htick hkept hsus hlost hmany hroom => ?lost, fun s hdie hp hfew => ?silent, fun s hdie hp hlost hmany hroom => ?dead⟩
  case acked =>
    refine ⟨_, done_of_eq (State.slotEdge_eq true hdie htick hkept), ?_⟩
    have hack : s.sendHeartbeat.parlourAck true = _ := State.parlourAck_of_ack hp
    have hsat := State.saturations_hide (s.sendHeartbeat.parlourAck true)
    rw [kept_safety hsat rfl, kept_run hsat rfl, kept_mem hsat rfl rfl, kept_out hsat rfl, hack]
    exact ⟨rfl, rfl, rfl, rfl, rfl, rfl, _, rfl⟩
  case missed =>
    obtain ⟨u, hu, hsafety, -, -, hreg⟩ := State.parlourAck_of_miss hsus
    refine ⟨_, done_of_eq (State.slotEdge_eq false hdie htick hkept), ?_⟩
    have hnot : (!s.safety.plLost && decide (s.plMiss ≤ s.safety.plMisses + 1)) = false := by
      rcases hfew with h | h
      · simp [h]
      · simp [Nat.not_le.mpr h]
    rw [hnot] at hu hsafety
    rw [if_neg Bool.false_ne_true] at hu
    have hsat := State.saturations_hide (s.sendHeartbeat.parlourAck false)
    rw [kept_safety hsat rfl, State.saturation_reg _ _ (by decide), State.saturation_reg _ _ (by decide), hu, hsafety, hreg]
    exact ⟨rfl, rfl, rfl, rfl⟩
  case lost =>
    obtain ⟨u, hu, hsafety, hctl, hclock, -⟩ := State.parlourAck_of_miss hsus
    refine ⟨_, done_of_eq (State.slotEdge_eq false hdie htick hkept), ?_⟩
    have hdue : (!s.safety.plLost && decide (s.plMiss ≤ s.safety.plMisses + 1)) = true := by simp [hlost, hmany]
    rw [hdue] at hu hsafety
    rw [if_pos rfl] at hu
    have hsat := State.saturations_hide (s.sendHeartbeat.parlourAck false)
    rw [kept_safety hsat rfl, kept_ctl hsat rfl, hu]
    obtain ⟨hstop, -, -, -, hpl, -⟩ := u.raise_safety
      { code := 0x0A04, cls := clsSafety, inst := 0, addr := s.safety.plMisses + 1 }
    refine ⟨hstop, hpl.trans (by rw [hsafety]; simp), ?_⟩
    exact (State.raise_shows u _ true (by rw [hctl]; exact hroom)).imp
      fun x ⟨hcode, hcls, _, _, _, hphase⟩ => ⟨hcode, hcls, by rw [hphase, hclock]⟩
  case silent =>
    have hnot : (!s.safety.hbLost && decide (s.hbMiss ≤ s.safety.hbMisses + 1)) = false := by
      rcases hfew with h | h
      · simp [h]
      · simp [Nat.not_le.mpr h]
    refine done_of_eq ?_
    rw [State.heartbeatMissed_eq hdie hp, hnot, if_neg Bool.false_ne_true, Bool.or_false]
  case dead =>
    have hdue : (!s.safety.hbLost && decide (s.hbMiss ≤ s.safety.hbMisses + 1)) = true := by simp [hlost, hmany]
    refine ⟨_, done_of_eq ((State.heartbeatMissed_eq hdie hp).trans (if_pos hdue)), ?_⟩
    rw [hdue]
    obtain ⟨hstop, -, -, hhb, -⟩ := State.raise_safety (({ s with safety := { s.safety with
      hbMisses := s.safety.hbMisses + 1, hbLost := s.safety.hbLost || true } } : State).bump Reg.SAFETY_HEARTBEATS_MISSED)
      { code := 0x0A03, cls := clsSafety, inst := 0, addr := 0 }
    exact ⟨hstop, hhb.trans (Bool.or_true _), (State.raise_shows _ _ true (by exact hroom)).imp
      fun x ⟨hcode, hcls, _, _, _, hphase⟩ => ⟨hcode, hcls, hphase⟩⟩

end Sys2Proof.Machine

end

section

/-!
Safety reports (R411, R430): the frames in which a report goes out, its resends and its replies.
-/

namespace Sys2Proof.Machine

/-! ### A management message of one block (Tables 12.2 and 13.1) -/

/-- The frame that carries a message of one block on queue 0, numbered by a draw. -/
def State.mgmtFrame (s : State) (d : Nat) (bytes : List Byte) (draw : Nat) : Out :=
  .mgmt d true (fieldOf (s.reg Reg.SAFETY_REPORT_CONFIG) 31 16)
    ({ s.header 8 2 0 d true with
      gen := tget 1 s.safety.gens d, nblk := 1, last := true, seq := Config.mgmtSeq draw d,
      len := BitVec.ofNat 32 bytes.length } : Hdr).bytes (bytes ++ leBytes 4 (crc32c bytes))

theorem State.reportFrame_eq (s : State) (r : Report) (i d : Nat) :
    s.reportFrame r i d = s.mgmtFrame d (s.reportBytes r) (s.ctl.free + i) := rfl

theorem cutBlocks_of_short {bs : List Byte} (hpos : 0 < bs.length) (hshort : bs.length ≤ 4096) : cutBlocks bs = [bs] := by
  have hone : ceilDiv bs.length 4096 = 1 := by
    unfold ceilDiv
    rw [if_neg (by decide)]
    omega
  unfold cutBlocks
  rw [hone]
  simp [List.take_of_length_le hshort]

/-- Bytes beyond those written do not count. -/
theorem leBytes_mod (n x : Nat) : leBytes n (x % 2 ^ (8 * n)) = leBytes n x := by
  induction n generalizing x with
  | zero => rfl
  | succ n ih =>
    have hpow : 2 ^ (8 * (n + 1)) = 256 * 2 ^ (8 * n) := by
      rw [Nat.mul_succ, Nat.pow_add, Nat.mul_comm]
    have hlow : BitVec.ofNat 8 (x % (256 * 2 ^ (8 * n))) = BitVec.ofNat 8 x := by
      apply BitVec.eq_of_toNat_eq
      simp only [BitVec.toNat_ofNat]
      exact Nat.mod_mod_of_dvd _ (Dvd.intro _ rfl)
    unfold leBytes
    rw [hpow, hlow, Nat.mod_mul_right_div_self, ih]

theorem State.sendMgmt_of_short {s : State} (d : Nat) {bs : List Byte} (hpos : 0 < bs.length) (hshort : bs.length ≤ 4096) :
    s.sendMgmt d true 0 bs = s.draw.2.emit (s.mgmtFrame d bs s.ctl.free) := by
  unfold State.sendMgmt
  rw [cutBlocks_of_short hpos hshort]
  simp only [List.mapIdx_cons, List.mapIdx_nil, List.length_singleton, List.range_one, List.foldl_cons, List.foldl_nil,
    Nat.reduceAdd, Nat.reduceDiv]
  have htwo (b : TxBlock) : ([b].drop (2 * 0)).take 2 = [b] := rfl
  simp only [htwo, frameHdr, List.flatMap_cons, List.flatMap_nil, List.append_nil, BitVec.add_zero]
  have hcrc : leBytes 4 (BitVec.ofNat 32 (crc32c bs)).toNat = leBytes 4 (crc32c bs) := leBytes_mod 4 _
  unfold State.mgmtFrame
  rw [← hcrc]
  rfl

/-- What a management frame shows of the state besides its message and its draw. -/
theorem State.mgmtFrame_congr {s t : State} (hregs : t.reg (Reg.FABRIC_MODULE_NUMBER 0) = s.reg (Reg.FABRIC_MODULE_NUMBER 0))
    (hconfig : t.reg Reg.SAFETY_REPORT_CONFIG = s.reg Reg.SAFETY_REPORT_CONFIG) (hgens : t.safety.gens = s.safety.gens)
    (d : Nat) (bs : List Byte) (draw : Nat) : t.mgmtFrame d bs draw = s.mgmtFrame d bs draw := by
  unfold State.mgmtFrame State.header State.moduleNum
  rw [hregs, hconfig, hgens]

/-- One copy of a report to a receiver, counted (R435). -/
def State.reportTo (s : State) (bs : List Byte) (d : Nat) : State := (s.sendMgmt d true 0 bs).bump Reg.SAFETY_REPORTS_SENT

theorem State.reportTo_of_short {s : State} (d : Nat) {bs : List Byte} (hpos : 0 < bs.length) (hshort : bs.length ≤ 4096) :
    (s.reportTo bs d).out = s.out ++ [s.mgmtFrame d bs s.ctl.free] ∧ (s.reportTo bs d).ctl.free = s.ctl.free + 1 ∧
    ∀ x bs' draw, (s.reportTo bs d).mgmtFrame x bs' draw = s.mgmtFrame x bs' draw := by
  unfold State.reportTo
  rw [State.sendMgmt_of_short d hpos hshort]
  refine ⟨rfl, rfl, fun x bs' draw => ?_⟩
  apply State.mgmtFrame_congr
  · rw [reg_bump, if_neg (by decide)]
    rfl
  · rw [reg_bump, if_neg (by decide)]
    rfl
  · rfl

/-- The copies of a report follow each other, each with the next draw. -/
theorem State.reportsTo_out {bs : List Byte} (hpos : 0 < bs.length) (hshort : bs.length ≤ 4096) (l : List Nat) (s : State) :
    (l.foldl (fun t d => t.reportTo bs d) s).out = s.out ++ l.mapIdx (fun i d => s.mgmtFrame d bs (s.ctl.free + i)) := by
  induction l generalizing s with
  | nil => simp
  | cons d l ih =>
    obtain ⟨hout, hfree, hframe⟩ := State.reportTo_of_short (s := s) d hpos hshort
    rw [List.foldl_cons, ih, hout, hfree]
    simp only [hframe, List.mapIdx_cons, Nat.add_zero, List.append_assoc, List.singleton_append, Nat.add_assoc,
      Nat.add_comm 1]

/-! ### A report (R411, R430) -/

theorem length_leBytes (n x : Nat) : (leBytes n x).length = n := by
  induction n generalizing x with
  | zero => rfl
  | succ n ih => rw [leBytes, List.length_cons, ih]

theorem length_flatMap_leBytes (k : Nat) (l : List Word) : (l.flatMap (fun w => leBytes k w.toNat)).length = k * l.length := by
  induction l with
  | nil => rfl
  | cons w l ih =>
    rw [List.flatMap_cons, List.length_append, ih, length_leBytes, List.length_cons]
    ring

theorem State.length_reportBytes (s : State) {r : Report} (h : r.record.length = 16) : (s.reportBytes r).length = 80 := by
  have hform : (s.formReport r).length = 16 := by
    unfold State.formReport
    simp only [List.length_set, h]
  unfold State.reportBytes
  simp only [List.length_append, length_leBytes, length_flatMap_leBytes, hform]

theorem State.modReport_out (s : State) (r : Report) (f : Report → Report) : (s.modReport r f).out = s.out := rfl

/-- A report that somebody is to have goes to every receiver that has joined. -/
theorem State.sendReport_out {s : State} {r : Report} (hr : r.record.length = 16)
    (hgoes : (s.receivers.map (·.2)).filter s.safety.joined.contains ≠ []) : (s.sendReport r).out =
      s.out ++ ((s.receivers.map (·.2)).filter s.safety.joined.contains).dedup.mapIdx (s.reportFrame r) := by
  have hlen := s.length_reportBytes hr
  have hsome : ((s.receivers.map (·.2)).filter s.safety.joined.contains).dedup.isEmpty = false := by
    rw [List.isEmpty_eq_false_iff]
    exact fun h => hgoes ((List.dedup_eq_nil _).mp h)
  have hsent := State.reportsTo_out (by omega : 0 < (s.reportBytes r).length) (by omega)
    ((s.receivers.map (·.2)).filter s.safety.joined.contains).dedup s
  have hout : ((s.sendReport r).out = (((s.receivers.map (·.2)).filter s.safety.joined.contains).dedup.foldl
      (fun t d => t.reportTo (s.reportBytes r) d) s).out) := by
    unfold State.sendReport
    dsimp only
    rw [hsome, if_neg Bool.false_ne_true]
    split <;> rfl
  rw [hout, hsent]
  rfl

theorem State.reportReply_eq {s : State} {r : Report} {i receiver : Nat} (hp : s.power.parlour = true)
    (hr : s.safety.reports.find? (fun x => x.reqId == r.reqId && x.sentMs.isSome) = some r) (hacked : r.acked = false)
    (hto : s.receivers.find? (fun x => x.2 == receiver) = some (i, receiver)) (hjoined : receiver ∈ s.safety.joined) :
    ∃ u : State, u.safety.reports = s.safety.reports.map (fun q => if q.same r then { q with acked := true } else q) ∧
      u.reg Reg.SAFETY_REPORTS_ACKED = (s.reg Reg.SAFETY_REPORTS_ACKED + 1) % 2 ^ 32 ∧
      s.reportReply receiver 0 r.reqId = if u.isLatest r then
        { u with safety := { u.safety with reportAcked := true, ackedBy := i :: u.safety.ackedBy.filter (· != i) } } else u := by
  refine ⟨(s.modReport r (fun q => { q with acked := true })).bump Reg.SAFETY_REPORTS_ACKED, rfl, ?_, ?_⟩
  · rw [reg_bump, if_pos rfl]
    rfl
  · unfold State.reportReply
    rw [hr, hto]
    dsimp only
    rw [if_neg (by simp [hp, hjoined])]
    simp only [hacked, Bool.false_eq_true, if_false]

/-- The last report is the same one after it is marked. -/
theorem getLast?_map_same (r : Report) (l : List Report) :
    ((l.map (fun q => if q.same r then { q with acked := true } else q)).getLast?).any (fun q => q.same r) =
      (l.getLast?).any (fun x => x.reqId == r.reqId) := by
  rw [List.getLast?_map, Option.any_map]
  congr 1
  funext q
  split
  · rfl
  · rfl

/-- Settles O8. -/
theorem safetyReportCommands : Obligations.SafetyReportCommands := by
  refine ⟨fun s r hp hfind hr hgoes => ?send, fun s r hp hdue hr hgoes => ?resend,
    fun s r i receiver hp hfind hacked hto hjoined => ?reply⟩
  case send =>
    have he : s.reportSend = s.sendReport r := by
      unfold State.reportSend
      rw [if_pos hp, hfind]
    have hhide := State.sendReport_hide 4481 rfl s r
    exact ⟨_, done_of_eq he, State.sendReport_out hr hgoes, kept_mem hhide rfl rfl, kept_run hhide rfl⟩
  case resend =>
    refine ⟨s.sendReport r, done_of_eq ?_, State.sendReport_out hr hgoes⟩
    rw [if_pos hp, hdue]
    rfl
  case reply =>
    obtain ⟨u, hreports, hreg, he⟩ := State.reportReply_eq hp hfind hacked hto hjoined
    have hlatest : u.isLatest r = (s.safety.reports.getLast?).any (fun x => x.reqId == r.reqId) := by
      unfold State.isLatest
      rw [hreports, getLast?_map_same]
    have hmarked (x : Report) (hx : x ∈ u.safety.reports) (hid : x.reqId = r.reqId) : x.acked = true := by
      rw [hreports] at hx
      obtain ⟨q, -, rfl⟩ := List.mem_map.mp hx
      by_cases hsame : q.same r = true
      · rw [if_pos hsame]
      · rw [if_neg hsame] at hid
        exact absurd (beq_iff_eq.mpr hid) hsame
    refine ⟨_, done_of_eq he, ?_⟩
    cases hl : u.isLatest r with
    | true => exact ⟨hmarked, hreg, fun _ => ⟨rfl, List.mem_cons_self⟩⟩
    | false => exact ⟨hmarked, hreg, fun h => absurd (hlatest.symm.trans hl) (by simp [h])⟩

end Sys2Proof.Machine

end

section

/-!
A plan's run (chapters 02 and 08): requests, the start of a step, and its boundary.
-/

namespace Sys2Proof.Machine

/-- Settles O14: each is an update of the run; an abort is a fault. -/
theorem runRequestCommands : Obligations.RunRequestCommands := by
  refine ⟨fun s v => rfl, fun s => rfl, fun s => rfl, fun s h => done_of_pos h, fun s h hruns => ?ends, fun s hruns hroom => ?aborts⟩
  case ends =>
    refine done_of_eq ?_
    unfold State.runEnd
    rw [if_neg (by simp [h]), if_pos hruns]
  case aborts =>
    have he : s.abort.1 = s.raise { code := 0x010A, cls := clsPhase, inst := 0 } := by
      unfold State.abort
      rw [if_pos hruns]
    refine ⟨_, done_of_eq he, ?_, ?_, ?_⟩
    · rw [State.raise_stopped, hruns, Bool.or_true]
    · rw [State.raise_eq, if_pos hruns, State.planStop_ending]
    · exact (State.raise_shows _ _ false hroom).imp fun x ⟨hcode, hcls, _, _, _, hphase⟩ => ⟨hcode, hcls, hphase⟩

/-! ### The start of a step (R22, R37, R53, R57) -/

/-- A run at the start of a step, as far as the start's latches and choice leave it. -/
structure RunState.Begun (q : RunState) (p : Plan) (step slot : Nat) (r : RunState) : Prop where
  run : r.run = q.run
  stopped : r.stopped = false
  ending : r.ending = false
  step : r.step = step
  stepStart : r.stepStart = slot
  selftest : r.selftest = true
  milkDue : r.milkDue = allCores
  reqs : r.reqs = []
  cores : r.cores = p.freshCores
  request : r.request = q.request
  rung : r.rung = q.rung

section
variable {q : RunState} {p : Plan} {step slot : Nat}

/-- What latches of shapes and hyperparameters leave of the run (R212, R298). -/
theorem State.latchShapes_run (s : State) : ∃ a, s.latchShapes.run = { s.run with shapeArmed := a } := by
  unfold State.latchShapes
  split
  · have hfold := kept_run (foldl_hide 1 (fun (t : State) v => t.setReg (Reg.PHASE_SHAPE_ACTIVE v)
      (t.reg (Reg.PHASE_SHAPE_NEXT v) % 2 ^ 24)) ((List.range 15).map (· + 1)) s fun _ _ => State.setReg_hide 1 rfl ..) rfl
    generalize ((List.range 15).map (· + 1)).foldl (fun (t : State) v => t.setReg (Reg.PHASE_SHAPE_ACTIVE v)
      (t.reg (Reg.PHASE_SHAPE_NEXT v) % 2 ^ 24)) s = u at hfold
    refine ⟨false, ?_⟩
    rw [← hfold]
    rfl
  · exact ⟨s.run.shapeArmed, rfl⟩

theorem State.latchHp_run (s : State) : ∃ a, s.latchHp.run = { s.run with hpArmed := a } := by
  unfold State.latchHp
  split
  · have hfold := kept_run (foldl_hide 1 (fun (t : State) i => t.setReg (Reg.UPD_HP_ACTIVE i) (t.reg (Reg.UPD_HP_NEXT i)))
      (List.range 16) s fun _ _ => State.setReg_hide 1 rfl ..) rfl
    generalize (List.range 16).foldl (fun (t : State) i => t.setReg (Reg.UPD_HP_ACTIVE i) (t.reg (Reg.UPD_HP_NEXT i))) s = u
      at hfold
    refine ⟨false, ?_⟩
    rw [← hfold]
    rfl
  · exact ⟨s.run.hpArmed, rfl⟩

theorem State.latches_run (s : State) : ∃ a b, s.latchShapes.latchHp.run = { s.run with shapeArmed := a, hpArmed := b } := by
  obtain ⟨a, ha⟩ := s.latchShapes_run
  obtain ⟨b, hb⟩ := s.latchShapes.latchHp_run
  exact ⟨a, b, by rw [hb, ha]⟩

theorem State.begun_latches {s : State} (h : q.Begun p step slot s.run) : q.Begun p step slot s.latchShapes.latchHp.run := by
  obtain ⟨a, b, he⟩ := s.latches_run
  rw [he]
  exact ⟨h.run, h.stopped, h.ending, h.step, h.stepStart, h.selftest, h.milkDue, h.reqs, h.cores, h.request, h.rung⟩

theorem State.redStart_planeLost (s : State) (step : Nat) (retry : Bool) :
    (s.redStart step retry).fab.planeLost = s.fab.planeLost := by
  unfold State.redStart
  split <;> rfl

/-- What stands before the planes are regained and the variant is taken. -/
theorem State.startStep_eq (s : State) (p : Plan) (step slot : Nat) (retry : Bool) : ∃ u : State,
    s.startStep p step slot retry = (u.regainPlanes p).takeVariant ((u.regainPlanes p).choose p step slot) none ∧
    s.run.Begun p step slot u.run ∧ u.fab.planeLost = s.fab.planeLost := by
  unfold State.startStep
  extract_lets run r r' fetches fab begun cleared closed red run' latched regained
  have hcleared : s.run.Begun p step slot cleared.run := by constructor <;> rfl
  have hclosed : closed.hide 16 = cleared.hide 16 := foldl_hide _ _ _ _ fun _ _ => hide_ite (State.setUpd_hide 16 rfl ..) rfl
  have hred : s.run.Begun p step slot red.run := by
    rw [kept_run (State.redStart_hide 64 rfl ..) rfl]
    rw [← kept_run hclosed rfl] at hcleared
    exact State.begun_latches hcleared
  have hplanes : red.fab.planeLost = s.fab.planeLost := by
    rw [State.redStart_planeLost, kept_fab (State.latchHp_hide 5 rfl _) rfl, kept_fab (State.latchShapes_hide 5 rfl _) rfl,
      kept_fab hclosed rfl]
  clear_value red
  have hlatched : s.run.Begun p step slot latched.run :=
    ⟨hred.run, hred.stopped, hred.ending, hred.step, hred.stepStart, hred.selftest, hred.milkDue, hred.reqs, hred.cores,
      hred.request, hred.rung⟩
  have hlatchedPlanes : latched.fab.planeLost = s.fab.planeLost := hplanes
  clear_value latched
  exact ⟨latched, rfl, hlatched, hlatchedPlanes⟩

/-- Without a request the planes stay as they are. -/
theorem State.regainPlanes_of_unasked {s : State} (h : s.run.request = none) (p : Plan) : s.regainPlanes p = s := by
  unfold State.regainPlanes
  rw [h]
  rfl

/-- With both planes of the plan up and nothing asked for, the step's rung decides (R53). -/
theorem State.choose_of_unasked {s : State} {v : Variant} {r : Nat} (hreq : s.run.request = none)
    (hlost : s.fab.planeLost = []) (hset : p.planeSet < 4) (hr : (p.rungAt step).getD s.run.rung = r)
    (hv : p.variants.find? (fun v => v.rung == r && v.planes == p.planeSet) = some v) :
    (s.choose p step slot).rung = r ∧ (s.choose p step slot).variant = some v.number ∧
      (s.choose p step slot).refused = false := by
  have hplanes : s.planesAt p slot = p.planeSet := by
    unfold State.planesAt
    rw [hlost]
    simp only [tfind_nil, Bool.and_true]
    have hcases : p.planeSet = 0 ∨ p.planeSet = 1 ∨ p.planeSet = 2 ∨ p.planeSet = 3 := by omega
    rcases hcases with h | h | h | h <;> rw [h] <;> decide
  unfold State.choose
  dsimp only
  rw [hreq, hplanes]
  simp only [Option.bind_none, Option.map_none, Option.getD_none, Option.isSome_none, Bool.false_and, Bool.false_eq_true,
    if_false, hr, hv, Option.map_some, Option.any_none, and_self]

/-- A choice that is made takes its variant and rung. -/
theorem State.takeVariant_of_chosen {s : State} {c : Choice} {v : Nat} (hv : c.variant = some v) (hc : c.refused = false)
    (before : Option Nat) : s.takeVariant c before =
      { s with run := { s.run with request := none, variant := v, rung := c.rung, before := before } } := by
  unfold State.takeVariant
  rw [hc, hv]
  rfl

/-- A step started without a request runs the variant of its rung. -/
theorem State.startStep_run {s : State} {v : Variant} {r : Nat} (retry : Bool) (hreq : s.run.request = none)
    (hlost : s.fab.planeLost = []) (hset : p.planeSet < 4) (hr : (p.rungAt step).getD s.run.rung = r)
    (hv : p.variants.find? (fun v => v.rung == r && v.planes == p.planeSet) = some v) : ∃ u : RunState,
    s.run.Begun p step slot u ∧ (s.startStep p step slot retry).run =
      { u with request := none, variant := v.number, rung := r, before := none } := by
  obtain ⟨u, he, hu, hplanes⟩ := s.startStep_eq p step slot retry
  have hregain := State.regainPlanes_of_unasked (hu.request.trans hreq) p
  obtain ⟨hrung, hvariant, hrefused⟩ := State.choose_of_unasked (slot := slot) (hu.request.trans hreq) (hplanes.trans hlost) hset
    (by rw [hu.rung]; exact hr) hv
  rw [he, hregain, State.takeVariant_of_chosen hvariant hrefused, hrung]
  exact ⟨_, hu, rfl⟩

end

/-- A write of the high word alone gives the register pair that word. -/
theorem reg64_setReg_high (s : State) {a hi : Nat} (hhi : hi < 2 ^ 32) :
    (s.setReg (a + 4) hi).reg64 a = s.reg a + 2 ^ 32 * hi := by
  unfold State.reg64
  rw [reg_setReg_self, Nat.mod_eq_of_lt hhi, reg_setReg_ne _ _ _ _ (by omega)]

theorem State.runStart_of_ready {s : State} {p : Plan} {r : Nat} (hrun : s.run.run = false) (hending : s.run.ending = false)
    (hplan : s.run.plan = some p) (hmay : s.mayStart = true) (hr : p.rungAt 0 = some r) : ∃ u : State,
      s.runStart.1 = u.startStep p 0 s.stepBase false ∧ u.run = { s.run with run := true, rung := r } ∧ u.fab = s.fab := by
  have hbase : (({ s with run := { s.run with run := true, rung := r } } : State).setReg Reg.PHASE_STEP_COUNT 0).stepBase =
      s.stepBase := by
    unfold State.stepBase State.reg64
    rw [reg_setReg_ne _ _ _ _ (by decide), reg_setReg_ne _ _ _ _ (by decide)]
    rfl
  refine ⟨({ s with run := { s.run with run := true, rung := r } } : State).setReg Reg.PHASE_STEP_COUNT 0, ?_, rfl, rfl⟩
  unfold State.runStart
  rw [if_neg (by simp [hrun, hending]), hplan]
  dsimp only
  rw [if_pos hmay, hr, Option.getD_some, hbase]

theorem State.retryArm_of_ready {s : State} {p : Plan} {hi : Nat} (hhi : hi < 2 ^ 32) (hplan : s.run.plan = some p)
    (hstopped : s.run.stopped = true) (hrun : s.run.run = true) (hstop : s.safety.stop = false)
    (hslot : s.slot + 2 ≤ s.reg Reg.PHASE_RESUME_SLOT_LO + 2 ^ 32 * hi) : (s.retryArm hi).1 =
      (s.setReg Reg.PHASE_RESUME_SLOT_HI hi).startStep p (s.reg Reg.PHASE_RESUME_STEP)
        (s.reg Reg.PHASE_RESUME_SLOT_LO + 2 ^ 32 * hi) true := by
  have hpair : (s.setReg Reg.PHASE_RESUME_SLOT_HI hi).reg64 Reg.PHASE_RESUME_SLOT_LO =
      s.reg Reg.PHASE_RESUME_SLOT_LO + 2 ^ 32 * hi := reg64_setReg_high s hhi
  have hstep : (s.setReg Reg.PHASE_RESUME_SLOT_HI hi).reg Reg.PHASE_RESUME_STEP = s.reg Reg.PHASE_RESUME_STEP :=
    reg_setReg_ne _ _ _ _ (by decide)
  unfold State.retryArm
  dsimp only
  rw [hpair, hstep, State.setReg_run, hplan, State.setReg_safety, hstopped, hrun, hstop]
  have hsame : (s.setReg Reg.PHASE_RESUME_SLOT_HI hi).slot = s.slot := rfl
  dsimp only
  rw [hsame, decide_eq_true hslot, if_pos (show (true && true && true && !false) = true from rfl)]

/-- Settles O15: both start a step without a request. -/
theorem runStartAndRetry : Obligations.RunStartAndRetry := by
  refine ⟨fun s p r v hrun hending hplan hmay hreq hlost hset hr hv => ?start,
    fun s hi p v hplan hstopped hrun hstop hreq hlost hset hslot hv => ?retry, fun s hrun hending hplan => ?refused⟩
  case start =>
    obtain ⟨u, he, hu, hfab⟩ := State.runStart_of_ready hrun hending hplan hmay hr
    obtain ⟨q, hq, ht⟩ := State.startStep_run (s := u) (p := p) (step := 0) (slot := s.stepBase) (r := r) false
      (by rw [hu]; exact hreq) (by rw [hfab]; exact hlost) hset (by rw [hr]; rfl) hv
    refine ⟨_, done_of_eq he, ?_⟩
    rw [ht]
    exact ⟨by rw [hq.run, hu], hq.stopped, hq.ending, hq.step, hq.stepStart, rfl, rfl, hq.selftest, hq.milkDue, hq.reqs, hq.cores⟩
  case retry =>
    obtain ⟨q, hq, ht⟩ := State.startStep_run (s := s.setReg Reg.PHASE_RESUME_SLOT_HI hi.toNat) (p := p)
      (step := s.reg Reg.PHASE_RESUME_STEP) (slot := s.reg Reg.PHASE_RESUME_SLOT_LO + 2 ^ 32 * hi.toNat) true hreq hlost hset rfl hv
    refine ⟨_, done_of_eq (State.retryArm_of_ready hi.isLt hplan hstopped hrun hstop hslot), ?_⟩
    rw [ht]
    exact ⟨hq.stopped, hq.run.trans hrun, hq.step, hq.stepStart, rfl, hq.selftest, hq.milkDue, hq.reqs⟩
  case refused =>
    have he : s.runStart.1 = s.event clsPhase 0 evRefused Reg.PHASE_RUN_CONTROL := by
      unfold State.runStart
      rw [if_neg (by simp [hrun, hending]), hplan]
    exact ⟨_, done_of_eq he, State.event_run .., State.event_raw s clsPhase 0 _ (bit := evRefused) (by decide) (by decide)⟩

/-! ### The boundary of a step (R19, R35, R451, R452) -/

/-- What the actions of a boundary leave of the run: all but its latches and the steps over the cap. -/
structure RunState.Kept (q r : RunState) : Prop where
  run : r.run = q.run
  stopped : r.stopped = q.stopped
  ending : r.ending = q.ending
  step : r.step = q.step
  stepStart : r.stepStart = q.stepStart
  request : r.request = q.request
  snapId : r.snapId = q.snapId
  cores : r.cores = q.cores

theorem RunState.Kept.trans {q r t : RunState} (h : r.Kept t) (h' : q.Kept r) : q.Kept t :=
  ⟨h.run.trans h'.run, h.stopped.trans h'.stopped, h.ending.trans h'.ending, h.step.trans h'.step,
    h.stepStart.trans h'.stepStart, h.request.trans h'.request, h.snapId.trans h'.snapId, h.cores.trans h'.cores⟩

section
variable {q : RunState} {s : State}

theorem State.kept_latches (h : q.Kept s.run) : q.Kept s.latchShapes.latchHp.run := by
  obtain ⟨a, b, he⟩ := s.latches_run
  rw [he]
  exact ⟨h.run, h.stopped, h.ending, h.step, h.stepStart, h.request, h.snapId, h.cores⟩

/-- CAP_IDLE is at most 32, whatever the measured powers are (R452). -/
theorem State.capStep_effect (s : State) (slots : Nat) :
    s.run.Kept (s.capStep slots).run ∧ (s.capStep slots).reg Reg.POWER_CAP_IDLE ≤ 32 := by
  unfold State.capStep
  extract_lets p c d q n stored run unmet passed
  have hq : q.2.run = s.run := by
    show (match capQuot slots p c (s.reg Reg.POWER_IDLE_POWER % 4096 : Nat) with
      | some q => (q, s)
      | none => (((Config.freeWord d.1).toNat % 33 : Nat), d.2)).2.run = s.run
    split <;> rfl
  have hn : n ≤ 32 := by
    have : n = (clampInt 0 32 q.1).toNat := rfl
    unfold clampInt at this
    omega
  have hreg : stored.reg Reg.POWER_CAP_IDLE = n := by
    show (q.2.setReg Reg.POWER_CAP_IDLE n).reg Reg.POWER_CAP_IDLE = n
    rw [reg_setReg_self, Nat.mod_eq_of_lt (by omega)]
  have hpassed : passed.reg Reg.POWER_CAP_IDLE = n :=
    (State.passes_reg stored stored.power.capUnmet unmet (by decide) (by decide) (by decide) (by decide)).trans hreg
  have hrun : passed.run = s.run := (kept_run (State.passes_hide 129 rfl stored stored.power.capUnmet unmet) rfl).trans hq
  clear_value passed run unmet
  refine ⟨?_, (reg_congr rfl _).trans_le (hpassed.trans_le hn)⟩
  rw [← hrun]
  constructor <;> rfl

/-- The actions of a boundary without a snapshot or a twin (R300, R371). -/
theorem State.boundaryActions_effect {s : State} (p : Plan) (slots : Nat) (hsnap : s.run.snapId = none)
    (htwin : s.twin = none) :
    s.run.Kept (s.boundaryActions p slots).run ∧ (s.boundaryActions p slots).reg Reg.POWER_CAP_IDLE ≤ 32 := by
  have hlatched : s.run.Kept s.latchShapes.latchHp.run := State.kept_latches ⟨rfl, rfl, rfl, rfl, rfl, rfl, rfl, rfl⟩
  have htwin' : s.latchShapes.latchHp.twin = none := by
    unfold State.twin
    rw [kept_boot (State.latchHp_hide 5 rfl _) rfl, kept_boot (State.latchShapes_hide 5 rfl _) rfl]
    exact htwin
  have he : s.boundaryActions p slots = s.latchShapes.latchHp.capStep slots := by
    unfold State.boundaryActions
    have hs : s.latchShapes.latchHp.takeSnapshot = s.latchShapes.latchHp := by
      unfold State.takeSnapshot
      rw [hlatched.snapId, hsnap]
    have hc : s.latchShapes.latchHp.compareTwins p s.latchShapes.latchHp.run.step = s.latchShapes.latchHp := by
      unfold State.compareTwins
      rw [htwin']
    dsimp only
    rw [hs, hc]
  obtain ⟨hkept, hcap⟩ := s.latchShapes.latchHp.capStep_effect slots
  rw [he]
  exact ⟨hkept.trans hlatched, hcap⟩

end

theorem State.idleSlots_le {s : State} (h : s.reg Reg.POWER_CAP_IDLE ≤ 32) : s.idleSlots ≤ 32 := by
  unfold State.idleSlots
  dsimp only
  have hmod := Nat.mod_le (s.reg Reg.POWER_CAP_IDLE) 64
  split
  · exact le_refl 32
  · split <;> omega

/-- The step after a boundary, in the variant chosen. -/
theorem State.nextStep_run (s : State) (slots : Nat) : (s.nextStep slots).run = { s.run with
    step := s.run.step + 1, stepStart := s.run.stepStart + slots + s.idleSlots, firstStep := false
    cores := s.run.cores.map (fun k => (k.1, { k.2 with entry := 0, atBoundary := false })) } := rfl

/-- The end of a boundary: the next step, in the variant `w` of the rung `rung`. -/
def State.stepTaken (u : State) (slots variant next w rung : Nat) (old : Option Nat) : State :=
  ((({ u with run := { u.run with request := none, variant := w, rung := rung, before := old } } : State).bump
    Reg.PHASE_STEP_COUNT).nextStep slots).redBoundary variant next

theorem State.stepTaken_run {s u : State} {slots variant next w rung : Nat} {old : Option Nat} (hkept : s.run.Kept u.run)
    (hcap : u.reg Reg.POWER_CAP_IDLE ≤ 32) : ∃ r : RunState, (u.stepTaken slots variant next w rung old).run = r ∧
      r.step = s.run.step + 1 ∧ s.run.stepStart + slots ≤ r.stepStart ∧ r.stepStart ≤ s.run.stepStart + slots + 32 ∧
      r.variant = w ∧ (∀ k ∈ r.cores, k.2.entry = 0 ∧ k.2.atBoundary = false) := by
  have hidle : (({ u with run := { u.run with request := none, variant := w, rung := rung, before := old } } : State).bump
      Reg.PHASE_STEP_COUNT).idleSlots ≤ 32 := by
    refine State.idleSlots_le (le_of_eq_of_le (reg_setReg_ne _ _ _ _ (by decide)) ?_)
    exact (reg_congr rfl _).trans_le hcap
  refine ⟨_, (kept_run (State.redBoundary_hide 64 rfl ..) rfl).trans (State.nextStep_run ..), congrArg (· + 1) hkept.step,
    ?_, ?_, rfl, ?_⟩
  · exact (Nat.add_le_add_right hkept.stepStart.ge _).trans (Nat.le_add_right _ _)
  · exact Nat.add_le_add (Nat.add_le_add_right hkept.stepStart.le _) hidle
  · intro k hk
    obtain ⟨x, -, rfl⟩ := List.mem_map.mp hk
    exact ⟨rfl, rfl⟩

theorem State.stopped_of_atBarrier {s : State} {v : Variant} (h : s.atBarrier v = true) : s.run.stopped = false := by
  simp only [State.atBarrier, Bool.and_eq_true] at h
  simpa using h.1.1.1.1.1.2

theorem State.settle_run_run (s : State) : s.settle.run.run = s.run.run ∧ s.settle.run.monitor = s.run.monitor := by
  unfold State.settle
  split <;> exact ⟨rfl, rfl⟩

/-- Settles O16: the actions of the boundary keep the run; CAP_IDLE bounds the idle slots. -/
theorem stepBoundaryCompletes : Obligations.StepBoundaryCompletes := by
  refine ⟨fun s p v w hplan hv hbar hending hreq htwin hsnap hw => ?next,
    fun s p v hplan hv hbar hending htwin hsnap => ?ends⟩
  case next =>
    obtain ⟨hkept, hcap⟩ := State.boundaryActions_effect p v.stepSlots hsnap htwin
    have hrefused : (s.choose p (s.run.step + 1) (s.run.stepStart + v.stepSlots - 1)).refused = false := by
      unfold State.choose
      rw [hreq]
      rfl
    obtain ⟨variant, next, rung, old, he⟩ : ∃ variant next rung old,
        s.boundary = (s.boundaryActions p v.stepSlots).stepTaken v.stepSlots variant next w rung old := by
      unfold State.boundary
      rw [hplan]
      dsimp only
      rw [hv]
      dsimp only
      rw [if_neg (by simp [hbar]), if_neg (by simp [hending]), State.regainPlanes_of_unasked hreq, hw]
      dsimp only
      rw [if_neg (by simp [hkept.stopped, State.stopped_of_atBarrier hbar]), State.takeVariant_of_chosen hw hrefused]
      exact ⟨_, _, _, _, rfl⟩
    obtain ⟨r, hrun, hr⟩ := State.stepTaken_run (slots := v.stepSlots) (variant := variant) (next := next) (w := w)
      (rung := rung) (old := old) hkept hcap
    refine ⟨_, done_of_eq he, ?_⟩
    rw [hrun]
    exact hr
  case ends =>
    obtain ⟨hkept, hcap⟩ := State.boundaryActions_effect p v.stepSlots hsnap htwin
    obtain ⟨u, he, hrun, hmon⟩ : ∃ u : State, s.boundary = u.settle ∧ u.run.run = false ∧ u.run.monitor = none := by
      unfold State.boundary
      rw [hplan]
      dsimp only
      rw [hv]
      dsimp only
      rw [if_neg (by simp [hbar]), if_pos hending]
      exact ⟨_, if_neg (by simpa using hkept.stopped.trans (State.stopped_of_atBarrier hbar)), rfl, rfl⟩
    obtain ⟨hrun', hmon'⟩ := u.settle_run_run
    exact ⟨_, done_of_eq he, hrun'.trans hrun, hmon'.trans hmon⟩

end Sys2Proof.Machine

end

section

/-!
The sync interval (R28, R30), settings and the binding (R466 to R468), activations (R477 to R479), and doorbells (R398).
-/

namespace Sys2Proof.Machine

/-! ### The sync interval -/

theorem State.showOffsets_clock (s : State) (o : Option Int) : (s.showOffsets o).clock = s.clock :=
  kept_clock (State.showOffsets_hide 1 rfl ..) rfl

/-- The clock after an interval's end: the interval's grade and offset decide, and the planes with an offset are noted. -/
theorem State.syncInterval_clock {s : State} (h : s.power.die = true) : s.syncInterval.clock =
    { s.clock.interval (gradeOf s.intervalOffset) s.intervalOffset with
      ptpValid := [0, 1].filter (fun p => (s.clock.planeOffset p).isSome) } := by
  unfold State.syncInterval
  rw [if_pos h]
  dsimp only
  rw [State.setClock_clock, State.showOffsets_clock]

/-- After a first lock the end of an interval is that of the clock alone. -/
theorem State.exec_syncIntervalEnd_of_locked {s : State} (h : s.clock.everLocked = true) :
    exec .syncIntervalEnd s = .next s.syncInterval :=
  done_of_eq (by rw [h]; rfl)

theorem gradeOf_of_small {x : Int} (h : x.natAbs < 50000) : gradeOf (some x) = .good := if_pos h

theorem lock_run_iff (n : Nat) : decide (16 ≤ min 255 (n + 1)) = decide (15 ≤ n) := by
  rw [decide_eq_decide]
  omega

theorem State.startSucceeded_clock (s : State) : s.startSucceeded.clock = s.clock :=
  kept_clock (State.startSucceeded_hide 1025 rfl _) rfl

theorem State.startSucceeded_migration (s : State) : s.startSucceeded.boot.migration = false := rfl

/-- Settles O29: the branches of the end of an interval, by lock, holdover and grade. -/
theorem syncIntervalCommands : Obligations.SyncIntervalCommands := by
  refine ⟨fun s hdie hlocked hever hhold hg => ?opens, fun s x hdie hlocked hever hhold ho hx => ?closes,
    fun s hdie hlocked hever hhold hg => ?lasts, fun s x hdie hlocked hever ho hx => ?relocks,
    fun s x hdie hlocked hever ho hx => ?seeks, fun s x hdie hup0 hup1 hx hy => ?agree,
    fun s x y hup0 hup1 hx hy hxy => ?differ⟩
  case opens =>
    refine ⟨_, State.exec_syncIntervalEnd_of_locked hever, ?_⟩
    rw [State.syncInterval_clock hdie, hg]
    simp [Clock.interval, hlocked, hhold]
  case closes =>
    refine ⟨_, State.exec_syncIntervalEnd_of_locked hever, ?_⟩
    rw [State.syncInterval_clock hdie, ho, gradeOf_of_small hx]
    simp [Clock.interval, hlocked, hhold]
  case lasts =>
    refine ⟨_, State.exec_syncIntervalEnd_of_locked hever, ?_⟩
    rw [State.syncInterval_clock hdie]
    simp [Clock.interval, hlocked, hhold, hg]
  case relocks =>
    refine ⟨_, State.exec_syncIntervalEnd_of_locked hever, ?_⟩
    rw [State.syncInterval_clock hdie, ho, gradeOf_of_small hx]
    simp only [Clock.interval, hlocked, hever, if_true, Bool.false_eq_true, if_false, Option.getD_some, lock_run_iff, and_self]
  case seeks =>
    have hclock : s.syncInterval.clock.phase = s.clock.phase - BitVec.ofInt 64 (x.tdiv 10000) ∧
        s.syncInterval.clock.locked = decide (15 ≤ s.clock.goodRun) ∧
        s.syncInterval.clock.everLocked = decide (15 ≤ s.clock.goodRun) := by
      rw [State.syncInterval_clock hdie, ho, gradeOf_of_small hx]
      simp only [Clock.interval, Clock.seek, hlocked, hever, if_true, Bool.false_eq_true, if_false, lock_run_iff, and_self]
    obtain ⟨hphase, hlock, hfirst⟩ := hclock
    by_cases hrun : 15 ≤ s.clock.goodRun
    · have he : exec .syncIntervalEnd s = .next s.syncInterval.startSucceeded :=
        done_of_eq (if_pos (by rw [hever, hfirst, decide_eq_true hrun]; rfl))
      refine ⟨_, he, ?_⟩
      rw [State.startSucceeded_clock]
      exact ⟨hphase, hlock, hfirst, fun _ => State.startSucceeded_migration _⟩
    · have he : exec .syncIntervalEnd s = .next s.syncInterval :=
        done_of_eq (if_neg (by rw [hfirst, decide_eq_false hrun, Bool.and_false]; decide))
      exact ⟨_, he, hphase, hlock, hfirst, fun h => absurd h hrun⟩
  case agree =>
    unfold State.intervalOffset
    rw [hup0, hup1]
    simp only [Bool.false_eq_true, if_false, hx]
    cases hcase : s.clock.planeOffset 1 with
    | none => rfl
    | some y => exact if_pos (hy y hcase)
  case differ =>
    unfold State.intervalOffset
    rw [hup0, hup1]
    simp only [Bool.false_eq_true, if_false, hx, hy]
    exact if_neg (by omega)

/-! ### Settings (R488, R463) -/

/-- A change of settings writes their next generation, unless a migration is pending. -/
theorem State.changeSettings_of_free {s : State} (h : s.boot.migration = false) (cls addr : Nat) (f : Settings → Settings) :
    s.changeSettings cls addr f = (s.newSettings (f s.boot.settings), false) :=
  if_neg (by rw [h]; decide)

theorem State.newSettings_boot (s : State) (x : Settings) : ∃ areas writing, (s.newSettings x).boot = { s.boot with
    settings := { x with gen := s.boot.settings.gen + 1, current := true, usable := true }, areas := areas
    writing := writing } := ⟨_, _, rfl⟩

theorem State.newSettings_regs (s : State) (x : Settings) : (s.newSettings x).regs = s.regs := rfl

/-- A refused command leaves the boot state. -/
theorem State.refuse_boot (s : State) (cls addr : Nat) : (s.refuse cls addr).boot = s.boot :=
  kept_boot (State.refuse_hide 129 rfl ..) rfl

/-- Settles O23: each is one change of the settings. -/
theorem settingsCommands : Obligations.SettingsCommands := by
  refine ⟨fun s h => ?set, fun s h => ?clear, fun s h => ?clearAll, fun s i h => ?anchor, fun s i h => ?noAnchor,
    fun s c hc h => ?refused⟩
  case set =>
    exact ⟨_, done_of_eq (congrArg Prod.fst (State.changeSettings_of_free h ..)), fun id => tfind_tput .., rfl, rfl, rfl, rfl, rfl⟩
  case clear =>
    exact ⟨_, done_of_eq (congrArg Prod.fst (State.changeSettings_of_free h ..)), fun id => tfind_tdel .., rfl, rfl, rfl⟩
  case clearAll =>
    exact ⟨_, done_of_eq (congrArg Prod.fst (State.changeSettings_of_free h ..)), rfl, rfl, rfl, rfl⟩
  case anchor =>
    exact ⟨_, done_of_eq (congrArg Prod.fst (State.changeSettings_of_free h ..)), fun id => tfind_tput .., rfl, rfl, rfl⟩
  case noAnchor =>
    exact ⟨_, done_of_eq (congrArg Prod.fst (State.changeSettings_of_free h ..)), fun id => tfind_tdel .., rfl, rfl, rfl⟩
  case refused =>
    have hchange : ∀ addr f, (s.changeSettings clsCal addr f).1 = s.refuse clsCal addr :=
      fun addr f => congrArg Prod.fst (if_pos h)
    have hall : ∃ addr, exec c s = .next (s.refuse clsCal addr) := by
      rcases List.mem_cons.mp hc with rfl | hc
      · exact ⟨_, done_of_eq (hchange ..)⟩
      rcases List.mem_cons.mp hc with rfl | hc
      · exact ⟨_, done_of_eq (hchange ..)⟩
      · obtain rfl := List.mem_singleton.mp hc
        exact ⟨_, done_of_eq (hchange ..)⟩
    obtain ⟨addr, he⟩ := hall
    exact ⟨_, he, State.refuse_boot .., State.event_raw s clsCal 0 _ (bit := evRefused) (by decide) (by decide)⟩

/-! ### The binding (R466 to R468) -/

/-- Awaiting the twin sends joins; of the boot state only the binding's own fields change. -/
theorem State.awaitTwin_effect (s : State) (t : Nat) :
    (s.awaitTwin t).boot = { s.boot with bind := .awaiting, confirmed := false } ∧ (s.awaitTwin t).regs = s.regs ∧
      (s.awaitTwin t).mem = s.mem := by
  have hjoins : (s.awaitTwin t).hide 4224 =
      ({ s with boot := { s.boot with bind := .awaiting, confirmed := false } } : State).hide 4224 :=
    foldl_hide _ _ _ _ fun _ _ => State.sendJoin_hide 4224 rfl ..
  have hmem := kept_mem hjoins rfl rfl
  have hregs := kept_regs hjoins rfl
  exact ⟨kept_boot hjoins rfl, hregs, hmem⟩

/-- Settles O24: a change of settings, and the wait for the twin. -/
theorem bindingCommands : Obligations.BindingCommands := by
  refine ⟨fun s p hp htwin hfree => ?binds, fun s hp => ?unknown, fun s hruns hfree => ?unbinds, fun s hruns => ?busy,
    fun s n k hbind htwin hfree => ?acknowledges⟩
  case binds =>
    have he : s.bindCmd.1 =
        (s.newSettings { s.boot.settings with twin := some (s.bindTwinReg, p.key) }).awaitTwin s.bindTwinReg := by
      have htwin' : (s.twin.any (· != s.bindTwinReg)) = false := by
        cases hn : s.twin with
        | none => rfl
        | some n => simp [htwin n hn]
      unfold State.bindCmd
      dsimp only
      rw [hp]
      dsimp only
      rw [htwin', State.changeSettings_of_free hfree]
      rfl
    obtain ⟨hboot, hregs, hmem⟩ :=
      (s.newSettings { s.boot.settings with twin := some (s.bindTwinReg, p.key) }).awaitTwin_effect s.bindTwinReg
    refine ⟨_, done_of_eq he, ?_⟩
    rw [hboot, hregs, hmem]
    exact ⟨rfl, rfl, rfl, rfl, rfl, rfl⟩
  case unknown =>
    have he : s.bindCmd.1 = s.refuse clsBoot Reg.BOOT_BIND_COMMAND := by
      unfold State.bindCmd
      dsimp only
      rw [hp]
    exact ⟨_, done_of_eq he, State.refuse_boot .., State.event_raw s clsBoot 0 _ (bit := evRefused) (by decide) (by decide)⟩
  case unbinds =>
    obtain ⟨u, he, hu⟩ : ∃ u : State, s.unbindCmd.1 = u ∧ u = ({ s.newSettings { s.boot.settings with twin := none, bindGen := 0 }
        with boot := { (s.newSettings { s.boot.settings with twin := none, bindGen := 0 }).boot with
          bind := .unbound, confirmed := false } } : State) := by
      unfold State.unbindCmd
      rw [hruns, State.changeSettings_of_free hfree]
      exact ⟨_, rfl, rfl⟩
    refine ⟨_, done_of_eq he, ?_⟩
    rw [hu]
    exact ⟨rfl, rfl, rfl, rfl, rfl, rfl, rfl⟩
  case busy =>
    have he : s.unbindCmd.1 = s.refuse clsBoot Reg.BOOT_BIND_COMMAND := by
      unfold State.unbindCmd
      rw [if_pos hruns]
    exact ⟨_, done_of_eq he, State.refuse_boot .., State.event_raw s clsBoot 0 _ (bit := evRefused) (by decide) (by decide)⟩
  case acknowledges =>
    obtain ⟨u, he, hu, hregs, hmem⟩ : ∃ u : State, s.ackIdentity.1 = u.awaitTwin n ∧ u.boot = { (s.newSettings
          { s.boot.settings with twin := some (n, s.boot.seenKey), bindGen := (s.boot.settings.bindGen + 1) % 256 }).boot with
            identity := false } ∧ u.regs = s.regs ∧ u.mem = s.mem := by
      unfold State.ackIdentity
      dsimp only
      rw [htwin]
      dsimp only
      rw [if_pos hbind, State.changeSettings_of_free hfree]
      exact ⟨_, rfl, rfl, rfl, rfl⟩
    obtain ⟨hboot, hregs', hmem'⟩ := u.awaitTwin_effect n
    refine ⟨_, done_of_eq he, ?_⟩
    rw [hboot, hregs', hmem', hu, hregs, hmem]
    exact ⟨rfl, rfl, rfl, rfl, rfl, rfl, rfl⟩

/-! ### Activations (R477, R479, R481) -/

/-- Arming reads the pair of registers with the word written. -/
theorem State.activateArm_eq (s : State) (w : Word) : s.activateArm w =
    if s.clock.locked = true ∧ s.phaseNat + 1024 * 4096 ≤ s.reg Reg.BOOT_ACTIVATE_AT_PHASE_LO + 2 ^ 32 * w.toNat ∧
        s.power.restore = none then
      { s.setReg Reg.BOOT_ACTIVATE_AT_PHASE_HI w.toNat with boot := { s.boot with
          armed := some (BitVec.ofNat 64 (s.reg Reg.BOOT_ACTIVATE_AT_PHASE_LO + 2 ^ 32 * w.toNat)) } }
    else (s.setReg Reg.BOOT_ACTIVATE_AT_PHASE_HI w.toNat).refuse clsBoot Reg.BOOT_ACTIVATE_AT_PHASE_HI := by
  have hpair : (s.setReg Reg.BOOT_ACTIVATE_AT_PHASE_HI w.toNat).reg64 Reg.BOOT_ACTIVATE_AT_PHASE_LO =
      s.reg Reg.BOOT_ACTIVATE_AT_PHASE_LO + 2 ^ 32 * w.toNat := reg64_setReg_high s w.isLt
  unfold State.activateArm
  dsimp only
  rw [hpair]
  refine if_congr ?_ rfl rfl
  rw [Bool.and_eq_true, Bool.and_eq_true, decide_eq_true_eq, Option.isNone_iff_eq_none, and_assoc]
  rfl

/-- An image that passes is booted in its slot and noted as such. -/
theorem State.bootParlour_of_chosen {s : State} {k : Nat} {f : Bool} (h : (s.revertTried 5).chooseSlot 5 = some (k, f)) :
    s.bootParlour.power = { s.power with parlour := true } ∧ (s.bootParlour.images 5).booted = some k ∧
      (s.bootParlour.images 5).fellBack = f ∧ s.bootParlour.safety = s.safety ∧ s.bootParlour.mem = s.mem ∧
      s.bootParlour.fab = s.fab ∧ s.bootParlour.clock = s.clock := by
  have hrevert := State.revertTried_hide 1024 rfl s 5
  have hpower : (s.revertTried 5).power = s.power := kept_power hrevert rfl
  have hsafety : (s.revertTried 5).safety = s.safety := kept_safety hrevert rfl
  have hmem : (s.revertTried 5).mem = s.mem := kept_mem hrevert rfl rfl
  have hfab : (s.revertTried 5).fab = s.fab := kept_fab hrevert rfl
  have hclock : (s.revertTried 5).clock = s.clock := kept_clock hrevert rfl
  obtain ⟨u, hu, hbooted, hfell, hpower', hsafety', hmem', hfab', hclock'⟩ : ∃ u : State,
      s.bootParlour = (if f = true then u.event clsBoot 0 evState 0 else u) ∧ (u.images 5).booted = some k ∧
      (u.images 5).fellBack = f ∧ u.power = { s.power with parlour := true } ∧ u.safety = s.safety ∧ u.mem = s.mem ∧
      u.fab = s.fab ∧ u.clock = s.clock := by
    unfold State.bootParlour
    dsimp only
    rw [h]
    refine ⟨_, rfl, ?_, ?_, by rw [← hpower]; rfl, hsafety, hmem, hfab, hclock⟩
    · exact congrArg ImageState.booted ((tget_tput ..).trans (if_pos rfl))
    · exact congrArg ImageState.fellBack ((tget_tput ..).trans (if_pos rfl))
  have hevent : s.bootParlour.hide 129 = u.hide 129 := by
    rw [hu]
    exact hide_ite (State.event_hide 129 rfl ..) rfl
  have hboot : s.bootParlour.images 5 = u.images 5 := by
    unfold State.images
    rw [kept_boot hevent rfl]
  have hmem'' : s.bootParlour.mem = u.mem := kept_mem hevent rfl rfl
  rw [hboot, kept_power hevent rfl, kept_safety hevent rfl, kept_fab hevent rfl, kept_clock hevent rfl, hmem'']
  exact ⟨hpower', hbooted, hfell, hsafety', hmem', hfab', hclock'⟩

/-- The slot chosen for an image depends on the boot state alone. -/
theorem State.chooseSlot_congr {s t : State} (h : t.boot = s.boot) (kind : Nat) :
    (t.revertTried kind).chooseSlot kind = (s.revertTried kind).chooseSlot kind := by
  have himages : t.images kind = s.images kind := by
    unfold State.images
    rw [h]
  have hboot : (t.revertTried kind).boot = (s.revertTried kind).boot := by
    unfold State.revertTried
    dsimp only
    rw [himages]
    split
    · unfold State.setImages
      rw [h]
    · exact h
  unfold State.chooseSlot State.imagePasses State.images
  rw [hboot]

/-- Parlour's restart leaves memory, the fabric, the clock and the boot state. -/
theorem State.parlourRestart_kept (s : State) : s.parlourRestart.boot = s.boot ∧ s.parlourRestart.mem = s.mem ∧
    s.parlourRestart.fab = s.fab ∧ s.parlourRestart.clock = s.clock := by
  have hhide := State.parlourRestart_hide 769 rfl s
  have hmem := kept_mem hhide rfl rfl
  exact ⟨kept_boot hhide rfl, hmem, kept_fab hhide rfl, kept_clock hhide rfl⟩

/-- Settles O27: the pair of registers decides; Parlour restarts and boots. -/
theorem activationCommands : Obligations.ActivationCommands := by
  refine ⟨fun s w hlocked hrestore hphase => ?arms, fun s w hwhy => ?refused, fun s => rfl,
    fun s k f hruns hslot => ?restarts, fun s hruns => ?busy⟩
  case arms =>
    exact ⟨_, done_of_eq ((State.activateArm_eq ..).trans (if_pos ⟨hlocked, hphase, hrestore⟩)), rfl, rfl⟩
  case refused =>
    have hno : ¬ (s.clock.locked = true ∧
        s.phaseNat + 1024 * 4096 ≤ s.reg Reg.BOOT_ACTIVATE_AT_PHASE_LO + 2 ^ 32 * w.toNat ∧ s.power.restore = none) := by
      rintro ⟨hlocked, hphase, hrestore⟩
      rcases hwhy with h | h | h
      · rw [hlocked] at h
        cases h
      · rw [hrestore] at h
        cases h
      · omega
    refine ⟨_, done_of_eq ((State.activateArm_eq ..).trans (if_neg hno)), State.refuse_boot .., ?_⟩
    have hraw := State.event_raw (s.setReg Reg.BOOT_ACTIVATE_AT_PHASE_HI w.toNat) clsBoot 0 Reg.BOOT_ACTIVATE_AT_PHASE_HI
      (bit := evRefused) (by decide) (by decide)
    rw [reg_setReg_ne _ _ _ _ (by decide : Reg.EVENT_RAW clsBoot 0 ≠ Reg.BOOT_ACTIVATE_AT_PHASE_HI)] at hraw
    exact hraw
  case restarts =>
    obtain ⟨hboot, hmem, hfab, hclock⟩ := s.parlourRestart_kept
    obtain ⟨hjoined, -⟩ := s.parlourRestart_effect
    have hchoose : (s.parlourRestart.revertTried 5).chooseSlot 5 = some (k, f) := by
      rw [State.chooseSlot_congr hboot, hslot]
    obtain ⟨hpower', hbooted, hfell, hsafety', hmem', hfab', hclock'⟩ := State.bootParlour_of_chosen hchoose
    have he : s.parlourActivate = { s.parlourRestart.bootParlour with safety := { s.parlourRestart.bootParlour.safety with
        suspended := some (s.parlourRestart.bootParlour.clock.now + 1400000000) } } :=
      if_neg (by rw [hruns]; decide)
    refine ⟨_, done_of_eq he, ?_⟩
    generalize s.parlourRestart = r at *
    generalize r.bootParlour = u at *
    exact ⟨congrArg PowerState.parlour hpower', hbooted, hfell, (congrArg SafetyState.joined hsafety').trans hjoined,
      congrArg (fun c : Clock => some (c.now + 1400000000)) (hclock'.trans hclock), hmem'.trans hmem, hfab'.trans hfab⟩
  case busy =>
    have he : s.parlourActivate = s.refuse clsBoot Reg.BOOT_PARLOUR_ACTIVATE := if_pos hruns
    refine ⟨_, done_of_eq he, State.refuse_boot .., ?_,
      State.event_raw s clsBoot 0 _ (bit := evRefused) (by decide) (by decide)⟩
    exact kept_safety (State.refuse_hide 129 rfl ..) rfl

/-! ### Doorbells (R398) -/

theorem State.pair_setPair (s : State) (q : Nat) (p : QueuePair) (k : Nat) :
    (s.setPair q p).pair k = if k = q then p else s.pair k := tget_tputD ..

theorem State.logAppend_queues (s : State) (r : LogRecord) : (s.logAppend r).ctl.queues = s.ctl.queues := by
  unfold State.logAppend
  dsimp only
  split
  · rfl
  · split <;> rfl

theorem State.event_queues (s : State) (cls inst bit a : Nat) : (s.event cls inst bit a).ctl.queues = s.ctl.queues := by
  unfold State.event
  extract_lets u v w
  have hu : u.ctl = s.ctl := State.setReg_ctl ..
  have hv : v.ctl = s.ctl := (State.bump_ctl ..).trans hu
  have hw : w.ctl = s.ctl := (State.setReg_ctl ..).trans hv
  split
  · split
    · rw [hv]
    · split
      · rw [hw]
      · rw [State.logAppend_queues, hw]
  · rw [hu]

/-- The index may become the tail when the entries to it and those before the tail leave one place of the ring empty. -/
theorem QueuePair.tailOk_iff {p : QueuePair} {ix n : Nat} (hn : n = 2 ^ p.sqExp) (htail : p.sqTail < n) (hhead : p.sqHead < n) :
    p.tailOk ix = true ↔ ix < n ∧ (ix + n - p.sqTail) % n + (p.sqTail + n - p.sqHead) % n < n := by
  have hused : (p.sqHead + 2 * n - p.sqTail - 1) % n + (p.sqTail + n - p.sqHead) % n = n - 1 := by
    rcases Nat.lt_or_ge p.sqTail p.sqHead with h | h
    · rw [show p.sqHead + 2 * n - p.sqTail - 1 = p.sqHead - p.sqTail - 1 + n + n by omega, Nat.add_mod_right,
        Nat.add_mod_right, Nat.mod_eq_of_lt (by omega), Nat.mod_eq_of_lt (by omega)]
      omega
    · rw [show p.sqHead + 2 * n - p.sqTail - 1 = p.sqHead + n - p.sqTail - 1 + n by omega, Nat.add_mod_right,
        show p.sqTail + n - p.sqHead = p.sqTail - p.sqHead + n by omega, Nat.add_mod_right,
        Nat.mod_eq_of_lt (by omega), Nat.mod_eq_of_lt (by omega)]
      omega
  unfold QueuePair.tailOk
  simp only [Bool.and_eq_true, decide_eq_true_eq, ← hn]
  omega

theorem QueuePair.headOk_iff {p : QueuePair} {ix n : Nat} (hn : n = 2 ^ p.cqExp) :
    p.headOk ix = true ↔ ix < n ∧ (ix + n - p.cqHead) % n ≤ (p.cqTail + n - p.cqHead) % n := by
  unfold QueuePair.headOk
  simp only [Bool.and_eq_true, decide_eq_true_eq, ← hn]

theorem pairReserved_iff (q : Nat) : (!pairReserved q) = true ↔ 16 ≤ q := by
  unfold pairReserved
  simp

/-- What a served message leaves of memory, run and queues is what its action leaves. -/
theorem State.serve_effect {s : State} {f : Session} {early : Bool} (hs : s.Serves f early) (opcode : Nat)
    (act : State → Answer) : (s.serve f opcode early act).mem = (act s).s.mem ∧ (s.serve f opcode early act).run = (act s).s.run ∧
      (s.serve f opcode early act).ctl.queues = (act s).s.ctl.queues := by
  have hcount : (if doneStatus (act s).status = true then (act s).s.bumpQmgr Reg.QMGR_CONTROL_MSGS else (act s).s).hide 1 =
      (act s).s.hide 1 := hide_ite (State.bumpQmgr_hide 1 rfl ..) rfl
  rw [State.serve_of_serves hs]
  generalize (if doneStatus (act s).status = true then (act s).s.bumpQmgr Reg.QMGR_CONTROL_MSGS else (act s).s) = u at hcount
  have hreply := State.sendReply_hide 4288 rfl u f opcode (if (act s).status = stBusy then 2048 else 0) (act s)
  have hmem : (u.sendReply f opcode (if (act s).status = stBusy then 2048 else 0) (act s)).mem = u.mem :=
    kept_mem hreply rfl rfl
  have hmem' : u.mem = (act s).s.mem := kept_mem hcount rfl rfl
  refine ⟨hmem.trans hmem', (kept_run hreply rfl).trans (kept_run hcount rfl), ?_⟩
  rw [State.sendReply_ctl, ← kept_ctl hcount rfl]
  split <;> rfl

/-- A doorbell taken sets the ring's index; one refused changes no queue. -/
theorem State.doorbellAct_eq (s : State) (completion : Bool) {q ix : Nat} (hq : q ≤ 4095) (hix : ix ≤ 0xFFFF) :
    s.doorbellAct completion q ix =
      if 16 ≤ q ∧ (s.pair q).enable = true ∧
          (if completion = true then (s.pair q).headOk ix = true else (s.pair q).tailOk ix = true) then
        ⟨s.setPair q (if completion then { s.pair q with cqHead := ix } else { s.pair q with sqTail := ix }), stOk, 0, 0, []⟩
      else ⟨(s.bump Reg.QMGR_QUEUE_ERRORS).pairRefused q, stQueueError, 0, q, []⟩ := by
  have hcond : ((!pairReserved q && (s.pair q).enable &&
      (if completion then (s.pair q).headOk ix else (s.pair q).tailOk ix)) = true) ↔ (16 ≤ q ∧ (s.pair q).enable = true ∧
        (if completion = true then (s.pair q).headOk ix = true else (s.pair q).tailOk ix = true)) := by
    rw [Bool.and_eq_true, Bool.and_eq_true, pairReserved_iff, and_assoc]
    cases completion <;> rfl
  unfold State.doorbellAct State.doorbell
  rw [if_neg (by omega), if_neg (by omega)]
  dsimp only
  by_cases h : 16 ≤ q ∧ (s.pair q).enable = true ∧
      (if completion = true then (s.pair q).headOk ix = true else (s.pair q).tailOk ix = true)
  · rw [if_pos (hcond.mpr h), if_pos h]
    rfl
  · rw [if_neg (fun hc => h (hcond.mp hc)), if_neg h]
    rfl

/-- What a doorbell that is served does: it is taken, or refused and changes no queue. -/
theorem State.serve_doorbell {s : State} {f : Session} (hs : s.Serves f false) (completion : Bool) {q ix : Nat}
    (hq : q ≤ 4095) (hix : ix ≤ 0xFFFF) {ok : Prop} [Decidable ok]
    (hok : (16 ≤ q ∧ (s.pair q).enable = true ∧
      (if completion = true then (s.pair q).headOk ix = true else (s.pair q).tailOk ix = true)) ↔ ok) :
    ∃ t, s.serve f 0x06 false (fun t => t.doorbellAct completion q ix) = t ∧ t.mem = s.mem ∧ t.run = s.run ∧
      (if ok then t.Replied f 0x06 stOk 0 0 [] ∧
          t.pair q = (if completion then { s.pair q with cqHead := ix } else { s.pair q with sqTail := ix }) ∧
          (∀ p, p ≠ q → t.pair p = s.pair p)
       else t.Replied f 0x06 stQueueError 0 q [] ∧ t.ctl.queues = s.ctl.queues) := by
  obtain ⟨hmem, hrun, hqueues⟩ := State.serve_effect hs 0x06 (fun t => t.doorbellAct completion q ix)
  have hpair : ∀ k, (s.serve f 0x06 false (fun t => t.doorbellAct completion q ix)).pair k =
      (s.doorbellAct completion q ix).s.pair k := fun k => congrArg (fun t => tget QueuePair.reset t k) hqueues
  have hreply := State.replied_of_serves hs 0x06 (fun t => t.doorbellAct completion q ix)
  have hact := s.doorbellAct_eq completion hq hix
  refine ⟨_, rfl, ?_⟩
  by_cases h : ok
  · rw [if_pos (hok.mpr h)] at hact
    rw [hact] at hmem hrun hreply
    rw [if_pos h]
    refine ⟨hmem, hrun, hreply (show stOk ≠ stBusy by decide), ?_, fun p hp => ?_⟩
    · rw [hpair, hact, State.pair_setPair, if_pos rfl]
    · rw [hpair, hact, State.pair_setPair, if_neg hp]
  · rw [if_neg (fun hc => h (hok.mp hc))] at hact
    rw [hact] at hmem hrun hreply hqueues
    rw [if_neg h]
    have hrefused := State.pairRefused_hide 129 rfl (s.bump Reg.QMGR_QUEUE_ERRORS) q
    have hrefusedMem : ((s.bump Reg.QMGR_QUEUE_ERRORS).pairRefused q).mem = s.mem := kept_mem hrefused rfl rfl
    exact ⟨hmem.trans hrefusedMem, hrun.trans (kept_run hrefused rfl), hreply (show stQueueError ≠ stBusy by decide),
      hqueues.trans (State.event_queues ..)⟩

/-- Settles O47: each doorbell is served; the reading of a full ring is `QueuePair.tailOk_iff`. -/
theorem doorbellCommands : Obligations.DoorbellCommands := by
  refine ⟨fun s f q ix n hs hq hix hn hring => ?tail, fun s f q ix n hs hq hix hn hring => ?head⟩
  case tail =>
    obtain ⟨t, he, ht⟩ := State.serve_doorbell hs false hq hix (ok := 16 ≤ q ∧ (s.pair q).enable = true ∧ ix < n ∧
        (ix + n - (s.pair q).sqTail) % n + ((s.pair q).sqTail + n - (s.pair q).sqHead) % n < n) (by
      refine and_congr_right fun _ => and_congr_right fun henable => ?_
      obtain ⟨htail, hhead⟩ := hring henable
      exact QueuePair.tailOk_iff hn htail hhead)
    exact ⟨t, done_of_eq he, ht⟩
  case head =>
    obtain ⟨t, he, ht⟩ := State.serve_doorbell hs true hq hix (ok := 16 ≤ q ∧ (s.pair q).enable = true ∧ ix < n ∧
        (ix + n - (s.pair q).cqHead) % n ≤ ((s.pair q).cqTail + n - (s.pair q).cqHead) % n) (by
      refine and_congr_right fun _ => and_congr_right fun _ => ?_
      exact QueuePair.headOk_iff hn)
    exact ⟨t, done_of_eq he, ht⟩

end Sys2Proof.Machine

end

section

/-!
Bits and fields of words, and the writes of registers (Table 00.4, chapters 10, 12, 13).
-/

namespace Sys2Proof.Machine

/-! ### Bits and fields of a word -/

theorem bitOf_and (x y i : Nat) : bitOf (x &&& y) i = (bitOf x i && bitOf y i) := Nat.testBit_and ..

theorem bitOf_or (x y i : Nat) : bitOf (x ||| y) i = (bitOf x i || bitOf y i) := Nat.testBit_or ..

theorem bitOf_xor (x y i : Nat) : bitOf (x ^^^ y) i = (bitOf x i ^^ bitOf y i) := Nat.testBit_xor ..

theorem bitOf_mod_two_pow (x n i : Nat) : bitOf (x % 2 ^ n) i = (decide (i < n) && bitOf x i) := Nat.testBit_mod_two_pow ..

/-- The bits of a 32-bit word that are not in `x`. -/
theorem bitOf_complement (x : Nat) {i : Nat} (hi : i < 32) : bitOf (2 ^ 32 - 1 - x % 2 ^ 32) i = !bitOf x i := by
  have h := Nat.testBit_two_pow_sub_succ (Nat.mod_lt x (show 0 < 2 ^ 32 by decide)) i
  rw [show 2 ^ 32 - 1 - x % 2 ^ 32 = 2 ^ 32 - (x % 2 ^ 32 + 1) by omega]
  unfold bitOf
  rw [h, Nat.testBit_mod_two_pow, decide_eq_true hi, Bool.true_and, Bool.true_and]

/-- A word with a field replaced: what is below it, the field, and what is above it. -/
theorem setField_eq (x lo n v : Nat) : setField x (lo + n) lo v =
    2 ^ lo * (2 ^ (n + 1) * (x / 2 ^ lo / 2 ^ (n + 1)) + v % 2 ^ (n + 1)) + x % 2 ^ lo := by
  unfold setField fieldOf
  rw [show lo + n + 1 - lo = n + 1 by omega, Nat.shiftRight_eq_div_pow]
  have hx := Nat.div_add_mod x (2 ^ lo)
  have hq := Nat.div_add_mod (x / 2 ^ lo) (2 ^ (n + 1))
  generalize x / 2 ^ lo / 2 ^ (n + 1) = a at *
  generalize x / 2 ^ lo % 2 ^ (n + 1) = b at *
  generalize x / 2 ^ lo = q at *
  generalize x % 2 ^ lo = r at *
  subst hq hx
  rw [Nat.mul_add, Nat.mul_add, Nat.mul_comm b, Nat.mul_comm (v % _)]
  omega

theorem bitOf_setField (x lo n v i : Nat) : bitOf (setField x (lo + n) lo v) i =
    if lo ≤ i ∧ i ≤ lo + n then bitOf v (i - lo) else bitOf x i := by
  unfold bitOf
  rw [setField_eq, Nat.testBit_two_pow_mul_add _ (Nat.mod_lt _ (Nat.two_pow_pos _)),
    Nat.testBit_two_pow_mul_add _ (Nat.mod_lt _ (Nat.two_pow_pos _)), Nat.testBit_mod_two_pow, Nat.testBit_mod_two_pow,
    Nat.testBit_div_two_pow, Nat.testBit_div_two_pow]
  by_cases hlo : i < lo
  · rw [if_pos hlo, if_neg (by omega), decide_eq_true hlo, Bool.true_and]
  · rw [if_neg hlo]
    by_cases hhi : i ≤ lo + n
    · rw [if_pos (by omega), if_pos (by omega), decide_eq_true (by omega), Bool.true_and]
    · rw [if_neg (by omega), if_neg (by omega), show i - lo - (n + 1) + (n + 1) + lo = i by omega]

theorem setField_lt {x : Nat} (hx : x < 2 ^ 32) (lo n v : Nat) (h : lo + n < 32) : setField x (lo + n) lo v < 2 ^ 32 := by
  refine Nat.lt_pow_two_of_testBit _ fun i hi => ?_
  have hbit := bitOf_setField x lo n v i
  unfold bitOf at hbit
  rw [hbit, if_neg (by omega)]
  exact Nat.testBit_lt_two_pow (hx.trans_le (Nat.pow_le_pow_right (by decide) hi))

theorem bitOf_fieldOf (x lo n i : Nat) : bitOf (fieldOf x (lo + n) lo) i = (decide (i ≤ n) && bitOf x (lo + i)) := by
  unfold bitOf fieldOf
  rw [show lo + n + 1 - lo = n + 1 by omega, Nat.testBit_mod_two_pow, Nat.testBit_shiftRight]
  congr 1
  rw [decide_eq_decide]
  omega

theorem fieldOf_ext {x y lo n : Nat} (h : ∀ i ≤ n, bitOf x (lo + i) = bitOf y (lo + i)) :
    fieldOf x (lo + n) lo = fieldOf y (lo + n) lo := by
  refine Nat.eq_of_testBit_eq fun i => ?_
  have hx := bitOf_fieldOf x lo n i
  have hy := bitOf_fieldOf y lo n i
  unfold bitOf at hx hy h
  rw [hx, hy]
  by_cases hi : i ≤ n
  · rw [h i hi]
  · rw [decide_eq_false hi, Bool.false_and, Bool.false_and]

/-- The field of a word that was put into it. -/
theorem fieldOf_setField (x lo n v : Nat) : fieldOf (setField x (lo + n) lo v) (lo + n) lo = v % 2 ^ (n + 1) := by
  refine Nat.eq_of_testBit_eq fun i => ?_
  have h := bitOf_fieldOf (setField x (lo + n) lo v) lo n i
  rw [bitOf_setField] at h
  unfold bitOf at h
  rw [h, Nat.testBit_mod_two_pow]
  by_cases hi : i ≤ n
  · rw [if_pos (by omega), decide_eq_true hi, decide_eq_true (by omega), Nat.add_sub_cancel_left]
  · rw [decide_eq_false hi, decide_eq_false (by omega), Bool.false_and, Bool.false_and]

/-! ### A write by access code (Table 00.4) -/

theorem RegRow.next_lt (r : RegRow) (old v : Nat) : r.next old v < 2 ^ 32 := Nat.mod_lt _ (by decide)

/-- RW bits take the value written, W1C bits that are written 1 clear, all others stay. -/
theorem RegRow.bitOf_next (r : RegRow) (old v : Nat) {i : Nat} (hi : i < 32) : bitOf (r.next old v) i =
    if bitOf r.rw i then bitOf v i else (bitOf old i && !(bitOf r.w1c i && bitOf v i)) := by
  unfold RegRow.next
  dsimp only
  rw [bitOf_mod_two_pow, decide_eq_true hi, Bool.true_and, bitOf_xor, bitOf_or]
  simp only [bitOf_and, bitOf_complement _ hi]
  cases bitOf r.rw i <;> cases bitOf old i <;> cases bitOf v i <;> cases bitOf r.w1c i <;> rfl

/-- A register of a class without a behaviour of its own, outside page 0, takes its write by access code. -/
theorem State.writeReg_of_plain {s : State} {a : Nat} {r : RegRow} (parlour : Bool) (v : Nat) (hstands : regStands a = true)
    (hserved : s.regInService a = true) (hpage : fieldOf a 15 12 ≠ 0)
    (hcls : fieldOf a 31 24 ∈ [clsCore, clsQuarter, clsMsc, clsLpddr, clsCopy]) (hrow : rowOf a = some r) (hrwl : r.rwl = 0) :
    s.writeReg parlour a v = (s.setReg a (r.next (s.reg a) v), false) := by
  have hplain : s.writePlain a v = (s.setReg a (r.next (s.reg a) v), false) := by
    unfold State.writePlain
    rw [hrow]
    exact if_neg (by simp [hrwl])
  unfold State.writeReg
  dsimp only
  rw [if_neg (by simp [hstands]), if_neg (by simp [hserved]), if_neg hpage]
  simp only [List.mem_cons, List.not_mem_nil, or_false] at hcls
  rcases hcls with h | h | h | h | h <;> rw [h] <;> exact hplain

/-- What a register holds after its write by access code. -/
theorem reg_setReg_next (s : State) (a v : Nat) (r : RegRow) :
    (s.setReg a (r.next (s.reg a) v)).reg a = r.next (s.reg a) v := by
  rw [reg_setReg_self, Nat.mod_eq_of_lt (r.next_lt ..)]

/-! ### Page 0 -/

theorem inst_lt_of_blkStands {b : Blk} (h : blkStands b = true) : b.inst < classInstances b.cls := by
  unfold blkStands pageRows at h
  by_contra hb
  rw [if_neg hb] at h
  cases h

theorem State.clearCounters_reg (s : State) (cls inst a : Nat) : (s.clearCounters cls inst).reg a =
    if a ∈ [Reg.COUNTER_0 cls inst, Reg.COUNTER_1 cls inst, Reg.COUNTER_2 cls inst, Reg.COUNTER_3 cls inst] then 0
    else s.reg a := by
  unfold State.clearCounters
  simp only [reg_setReg, List.mem_cons, List.not_mem_nil, or_false]
  split_ifs with h3 h2 h1 h0 hall <;> simp_all

/-- A latch bit clears where a 1 is written. -/
theorem State.clearLatch_bit (s : State) (cls inst bits : Nat) {i : Nat} (hi : i < 8) :
    bitOf ((s.clearLatch cls inst bits).reg (Reg.EVENT_LATCH cls inst)) i =
      (bitOf (s.reg (Reg.EVENT_LATCH cls inst)) i && !bitOf bits i) := by
  have hmask : bitOf 0xFF i = true := by
    revert i
    decide
  unfold State.clearLatch
  rw [reg_setReg_self, bitOf_mod_two_pow, decide_eq_true (by omega), Bool.true_and, bitOf_xor, bitOf_and, bitOf_and, hmask]
  cases bitOf (s.reg (Reg.EVENT_LATCH cls inst)) i <;> cases bitOf bits i <;> rfl

theorem Reg.PAIL_CONFIG_ne_LEVEL (cls inst : Nat) : Reg.PAIL_CONFIG cls inst ≠ Reg.PAIL_LEVEL cls inst := by
  unfold Reg.PAIL_CONFIG Reg.PAIL_LEVEL regAddr
  omega

/-- The pail's configuration takes its fields, and its threshold limits the level (R282). -/
theorem State.pailConfig_effect (s : State) (cls inst v : Nat) :
    (s.pailConfig cls inst v).reg (Reg.PAIL_CONFIG cls inst) = v &&& 0x1FFFFF ∧
    fieldOf ((s.pailConfig cls inst v).reg (Reg.PAIL_LEVEL cls inst)) 15 0 =
      min (fieldOf (s.reg (Reg.PAIL_LEVEL cls inst)) 15 0) (max 1 (fieldOf v 15 0)) ∧
    fieldOf ((s.pailConfig cls inst v).reg (Reg.PAIL_LEVEL cls inst)) 31 16 =
      fieldOf (s.reg (Reg.PAIL_LEVEL cls inst)) 31 16 := by
  have hne := Reg.PAIL_CONFIG_ne_LEVEL cls inst
  have hmask : v &&& 0x1FFFFF = v % 2 ^ 21 := Nat.and_two_pow_sub_one_eq_mod v 21
  have hlt := reg_lt s (Reg.PAIL_LEVEL cls inst)
  have hconfig : (s.setReg (Reg.PAIL_CONFIG cls inst) (v &&& 0x1FFFFF)).reg (Reg.PAIL_CONFIG cls inst) = v &&& 0x1FFFFF := by
    rw [reg_setReg_self, hmask, Nat.mod_eq_of_lt]
    exact (Nat.mod_lt _ (by decide)).trans (by decide)
  have hlevel : (s.setReg (Reg.PAIL_CONFIG cls inst) (v &&& 0x1FFFFF)).reg (Reg.PAIL_LEVEL cls inst) =
      s.reg (Reg.PAIL_LEVEL cls inst) := reg_setReg_ne _ _ _ _ (Ne.symm hne)
  have hthreshold : (s.setReg (Reg.PAIL_CONFIG cls inst) (v &&& 0x1FFFFF)).pailThreshold cls inst =
      max 1 (fieldOf v 15 0) := by
    unfold State.pailThreshold
    rw [hconfig, hmask]
    congr 1
    exact fieldOf_ext (lo := 0) (n := 15) fun i hi => by
      rw [bitOf_mod_two_pow, decide_eq_true (by omega), Bool.true_and]
  have hfield : fieldOf v 15 0 < 2 ^ 16 := Nat.mod_lt _ (by decide)
  unfold State.pailConfig
  dsimp only
  rw [hlevel, hthreshold]
  split
  case isTrue habove =>
    have hset : ((s.setReg (Reg.PAIL_CONFIG cls inst) (v &&& 0x1FFFFF)).setReg (Reg.PAIL_LEVEL cls inst)
        (setField (s.reg (Reg.PAIL_LEVEL cls inst)) 15 0 (max 1 (fieldOf v 15 0)))).reg (Reg.PAIL_LEVEL cls inst) =
        setField (s.reg (Reg.PAIL_LEVEL cls inst)) 15 0 (max 1 (fieldOf v 15 0)) := by
      rw [reg_setReg_self, Nat.mod_eq_of_lt (setField_lt hlt 0 15 _ (by decide))]
    refine ⟨(reg_setReg_ne _ _ _ _ hne).trans hconfig, ?_, ?_⟩
    · rw [hset, fieldOf_setField _ 0 15, Nat.mod_eq_of_lt (by omega), min_eq_right habove.le]
    · rw [hset]
      exact fieldOf_ext (lo := 16) (n := 15) fun i hi => by
        rw [bitOf_setField _ 0 15, if_neg (by omega)]
  case isFalse hbelow =>
    exact ⟨hconfig, by rw [hlevel, min_eq_left (Nat.not_lt.mp hbelow)], by rw [hlevel]⟩

theorem State.pailConfig_mem (s : State) (cls inst v : Nat) : (s.pailConfig cls inst v).mem = s.mem := by
  have h := kept_mem (State.pailConfig_hide 1 rfl s cls inst v) rfl rfl
  exact h

/-- A block that stands and is in service takes a write of its page 0. -/
theorem served_of_blk {s : State} {b : Blk} (hb : blkStands b = true) (hs : s.inService b.cls b.inst = true) :
    (blkStands b && s.inService b.cls b.inst) = true := by rw [hb, hs]; rfl

/-- A read of PHASE_LO captures the phase's high word. -/
theorem State.readReg_phaseLo {s : State} (h : s.power.started = true) :
    (s.readReg Reg.PHASE_PHASE_LO).2 = s.setReg Reg.PHASE_PHASE_HI (s.phaseNat / 2 ^ 32) := by
  have hserved : s.regInService Reg.PHASE_PHASE_LO = true := h
  have hstands : regStands Reg.PHASE_PHASE_LO = true := by decide
  unfold State.readReg
  rw [if_neg (by simp [hserved, hstands])]
  dsimp only
  rw [if_pos rfl]

theorem State.phase_high_lt (s : State) : s.phaseNat / 2 ^ 32 < 2 ^ 32 := by
  have := s.clock.phase.isLt
  unfold State.phaseNat
  omega

/-- Settles O20: each is one or a few writes of registers. -/
theorem pageZeroAndPlainWrites : Obligations.PageZeroAndPlainWrites := by
  refine ⟨fun s b hb hs => ?counters, fun s b w hb hs => ?latch, fun s b w hb hs => ?pail,
    fun s a v r hstands hserved hpage hcls hrow hrwl => ?plain, fun s a hstands hserved hlo hrc => ?readClear,
    fun s hstarted => ?phase, fun s w => ?select⟩
  case counters =>
    have hhide := State.clearCounters_hide 1 rfl s b.cls b.inst
    have hmem := kept_mem hhide rfl rfl
    refine ⟨_, done_of_pos (served_of_blk hb hs), ?_, ?_, ?_, ?_, fun a ha => ?_, hmem, kept_ctl hhide rfl⟩
    · rw [State.clearCounters_reg, if_pos (by simp)]
    · rw [State.clearCounters_reg, if_pos (by simp)]
    · rw [State.clearCounters_reg, if_pos (by simp)]
    · rw [State.clearCounters_reg, if_pos (by simp)]
    · rw [State.clearCounters_reg, if_neg ha]
  case latch =>
    exact ⟨_, done_of_pos (served_of_blk hb hs), fun i hi => State.clearLatch_bit _ _ _ _ hi,
      fun a ha => reg_setReg_ne _ _ _ _ ha, State.setReg_mem .., State.setReg_ctl ..⟩
  case pail =>
    obtain ⟨hconfig, hlevel, hrest⟩ := s.pailConfig_effect b.cls b.inst w.toNat
    exact ⟨_, done_of_pos (served_of_blk hb hs), hconfig, hlevel, hrest, State.pailConfig_mem ..⟩
  case plain =>
    have he := congrArg Prod.fst (State.writeReg_of_plain false v.toNat hstands hserved hpage hcls hrow hrwl)
    refine ⟨_, done_of_eq he, fun i hi => ?_, fun b hb => reg_setReg_ne _ _ _ _ hb, State.setReg_mem ..⟩
    rw [reg_setReg_next, r.bitOf_next _ _ hi]
  case readClear =>
    have he : (s.readReg a.toNat).2 = s.setReg a.toNat (resetOf a.toNat).toNat := by
      unfold State.readReg
      rw [if_neg (by simp [hstands, hserved])]
      dsimp only
      rw [if_neg hlo, if_neg hrc]
    refine ⟨_, done_of_eq he, ?_, fun b hb => reg_setReg_ne _ _ _ _ hb, State.setReg_mem ..⟩
    rw [reg_setReg_self, Nat.mod_eq_of_lt (resetOf a.toNat).isLt]
  case phase =>
    have he := State.readReg_phaseLo hstarted
    refine ⟨_, done_of_eq he, ?_, fun b hb => reg_setReg_ne _ _ _ _ hb, State.setReg_clock ..⟩
    rw [reg_setReg_self, Nat.mod_eq_of_lt s.phase_high_lt]
  case select =>
    refine ⟨_, rfl, ?_, fun b hb => reg_setReg_ne _ _ _ _ hb, State.setReg_boot ..⟩
    rw [reg_setReg_self, Nat.mod_eq_of_lt]
    exact (Nat.mod_lt _ (by decide)).trans (by decide)

end Sys2Proof.Machine

end

section

/-!
Registers through control messages (chapter 13).
-/

namespace Sys2Proof.Machine

/-! ### A served message and the registers -/

/-- A served message counts itself in QMGR; every other register is what its action leaves. -/
theorem State.serve_reg {s : State} {f : Session} {early : Bool} (hs : s.Serves f early) (opcode : Nat)
    (act : State → Answer) {x : Nat} (hx : x ≠ Reg.QMGR_CONTROL_MSGS) :
    (s.serve f opcode early act).reg x = (act s).s.reg x := by
  have hcount : ∀ u : State, (u.bumpQmgr Reg.QMGR_CONTROL_MSGS).reg x = u.reg x := fun u => by
    unfold State.bumpQmgr
    split
    · rw [reg_bump, if_neg hx]
    · rfl
  rw [State.serve_of_serves hs, reg_congr (kept_regs (State.sendReply_hide 4288 rfl ..) rfl)]
  split
  · exact hcount _
  · rfl

theorem fieldOf_eq_div (x lo n : Nat) : fieldOf x (lo + n) lo = x / 2 ^ lo % 2 ^ (n + 1) := by
  unfold fieldOf
  rw [Nat.shiftRight_eq_div_pow, show lo + n + 1 - lo = n + 1 by omega]

/-- The page of a counter is page 0, whatever the block. -/
theorem ne_counter_of_page {a : Nat} (hpage : fieldOf a 15 12 ≠ 0) (cls inst : Nat) :
    a ≠ Reg.COUNTER_2 cls inst ∧ a ≠ Reg.COUNTER_3 cls inst := by
  have h := fieldOf_eq_div a 12 3
  have hpage' : a / 4096 % 16 ≠ 0 := fun hzero => hpage (h.trans hzero)
  unfold Reg.COUNTER_2 Reg.COUNTER_3 regAddr
  omega

theorem ne_controlMsgs_of_class {a : Nat} (hcls : fieldOf a 31 24 ∈ [clsCore, clsQuarter, clsMsc, clsLpddr, clsCopy]) :
    a ≠ Reg.QMGR_CONTROL_MSGS := by
  rintro rfl
  revert hcls
  decide

theorem ne_phaseLo_of_class {a : Nat} (hcls : fieldOf a 31 24 ∈ [clsCore, clsQuarter, clsMsc, clsLpddr, clsCopy]) :
    a ≠ Reg.PHASE_PHASE_LO := by
  rintro rfl
  revert hcls
  decide

theorem State.regCheck_one {s : State} {a : Nat} (hstands : regStands a = true) {most : Nat} (hmost : 1 ≤ most) :
    s.regCheck a 1 most = none := by
  have hword : a % 4 = 0 := by
    unfold regStands at hstands
    rw [Bool.and_eq_true, beq_iff_eq] at hstands
    exact hstands.1
  unfold State.regCheck
  rw [if_neg (by omega), if_neg (by simp [hstands]), if_neg (by omega)]

section
variable {s : State} {a : Nat} {r : RegRow} (hstands : regStands a = true) (hserved : s.regInService a = true)
  (hpage : fieldOf a 15 12 ≠ 0) (hcls : fieldOf a 31 24 ∈ [clsCore, clsQuarter, clsMsc, clsLpddr, clsCopy])
  (hrow : rowOf a = some r) (hrwl : r.rwl = 0)
include hstands hserved hpage hcls hrow hrwl

/-- A message's write of a plain register is taken, counted in its block, and leaves all but the registers. -/
theorem State.messageWrite_of_plain (parlour : Bool) (v : Nat) : ∃ t : State, s.messageWrite parlour a v = (t, false) ∧
    t.reg a = r.next (s.reg a) v ∧ t.mem = s.mem ∧ t.run = s.run := by
  have hwrite := State.writeReg_of_plain parlour v hstands hserved hpage hcls hrow hrwl
  have hnext := reg_setReg_next s a v r
  unfold State.messageWrite
  dsimp only
  rw [hwrite]
  dsimp only
  split
  · exact ⟨_, rfl, hnext, State.setReg_mem .., State.setReg_run ..⟩
  · rw [if_neg Bool.false_ne_true]
    split
    · exact ⟨_, rfl, hnext, State.setReg_mem .., State.setReg_run ..⟩
    · obtain ⟨hcounter, -⟩ := ne_counter_of_page hpage (fieldOf a 31 24) (fieldOf a 23 16)
      exact ⟨_, rfl, (reg_setReg_ne _ _ _ _ hcounter).trans hnext, (State.bump_mem ..).trans (State.setReg_mem ..),
        (State.bump_run ..).trans (State.setReg_run ..)⟩

theorem State.regWriteAct_of_plain (parlour : Bool) (v : Nat) : ∃ t : State,
    s.regWriteAct parlour a [v] = ⟨t, stOk, 1, 0, []⟩ ∧ t.reg a = r.next (s.reg a) v ∧ t.mem = s.mem ∧ t.run = s.run := by
  obtain ⟨t, hwrite, ht⟩ := State.messageWrite_of_plain hstands hserved hpage hcls hrow hrwl parlour v
  refine ⟨t, ?_, ht⟩
  unfold State.regWriteAct
  rw [List.length_singleton, State.regCheck_one hstands (by decide)]
  simp only [State.writeRegs, hwrite]
  rfl

omit hpage hrwl in
/-- A plain register that shows its own word is read as it stands. -/
theorem State.readReg_of_plain (hwo : r.wo = 0) (hrc : r.rc = 0) (hview : s.view a = s.reg a) :
    s.readReg a = (s.reg a, s) := by
  have hmask : s.reg a &&& readMask a = s.reg a := by
    unfold readMask
    rw [hrow]
    dsimp only
    rw [hwo]
    exact (Nat.and_two_pow_sub_one_eq_mod (s.reg a) 32).trans (Nat.mod_eq_of_lt (reg_lt s a))
  unfold State.readReg
  rw [if_neg (by simp [hstands, hserved])]
  dsimp only
  rw [if_neg (ne_phaseLo_of_class hcls), hview, hmask, if_pos]
  rw [hrow]
  exact hrc

theorem State.regModifyAct_of_plain (hwo : r.wo = 0) (hrc : r.rc = 0) (hview : s.view a = s.reg a) (parlour : Bool)
    (v m : Nat) : ∃ t : State, s.regModifyAct parlour a [(v, m)] = ⟨t, stOk, 1, 0, leBytes 4 (s.reg a)⟩ ∧
      t.reg a = r.next (s.reg a) (merged (s.reg a) v m) ∧ t.mem = s.mem ∧ t.run = s.run := by
  obtain ⟨t, hwrite, ht⟩ := State.messageWrite_of_plain hstands hserved hpage hcls hrow hrwl parlour (merged (s.reg a) v m)
  refine ⟨t, ?_, ht⟩
  unfold State.regModifyAct
  rw [List.length_singleton, State.regCheck_one hstands (by decide)]
  simp only [State.modifyRegs, State.readReg_of_plain hstands hserved hcls hrow hwo hrc hview, hwrite,
    List.append_nil]
  rfl

end

/-- One access of REG_MODIFY takes the masked bits. -/
theorem bitOf_merged (old v m : Nat) {i : Nat} (hi : i < 32) :
    bitOf (merged old v m) i = if bitOf m i then bitOf v i else bitOf old i := by
  unfold merged
  rw [bitOf_or, bitOf_and, bitOf_complement _ hi, bitOf_and, bitOf_mod_two_pow, decide_eq_true hi, Bool.true_and]
  cases bitOf m i <;> cases bitOf v i <;> cases bitOf old i <;> rfl

/-- What a served message with this answer does. -/
theorem State.serve_answer {s : State} {f : Session} {early : Bool} (hs : s.Serves f early) {opcode status count detail : Nat}
    {data : List Byte} {act : State → Answer} {u : State} (ha : act s = ⟨u, status, count, detail, data⟩)
    (hbusy : status ≠ stBusy) : (s.serve f opcode early act).Replied f opcode status count detail data ∧
      (s.serve f opcode early act).mem = u.mem ∧ (s.serve f opcode early act).run = u.run ∧
      (∀ x, x ≠ Reg.QMGR_CONTROL_MSGS → (s.serve f opcode early act).reg x = u.reg x) := by
  have hreply := State.replied_of_serves hs opcode act (by rw [ha]; exact hbusy)
  obtain ⟨hmem, hrun, -⟩ := State.serve_effect hs opcode act
  rw [ha] at hreply hmem hrun
  exact ⟨hreply, hmem, hrun, fun x hx => (State.serve_reg hs opcode act hx).trans (by rw [ha])⟩

/-- Settles O39: each message is served with its action's answer. -/
theorem registerMessages : Obligations.RegisterMessages := by
  refine ⟨fun s f hs => ?nop, fun s f n a hs hcheck => ?read,
    fun s f a v r hs hstands hserved hpage hcls hrow hrwl => ?write,
    fun s f a v m r hs hstands hserved hpage hcls hrow hrwl hwo hrc hview => ?modify,
    fun s f n a hs hn => ?length, fun s f n a hs hone hmost hstands => ?address, fun s f n a hs => ?none⟩
  case nop =>
    obtain ⟨hreply, hmem, hrun, -⟩ := State.serve_answer (opcode := 0x00) (act := fun t => ⟨t, stOk, 0, 0, []⟩) hs rfl
      (show stOk ≠ stBusy by decide)
    exact ⟨_, rfl, hreply, hmem, hrun⟩
  case read =>
    have ha : s.regReadAct n a.toNat = ⟨(s.readRegs a.toNat n).1, stOk, n, 0, (s.readRegs a.toNat n).2⟩ := by
      unfold State.regReadAct
      rw [hcheck]
    obtain ⟨hreply, hmem, hrun, -⟩ := State.serve_answer (opcode := 0x01) (act := fun t => t.regReadAct n a.toNat) hs ha
      (show stOk ≠ stBusy by decide)
    have hread := State.readRegs_hide 1 rfl s a.toNat n
    have hmem' := kept_mem hread rfl rfl
    exact ⟨_, rfl, hreply, hmem.trans hmem', hrun.trans (kept_run hread rfl)⟩
  case write =>
    obtain ⟨u, ha, hreg, hmem', hrun'⟩ := State.regWriteAct_of_plain hstands hserved hpage hcls hrow hrwl f.parlour v.toNat
    obtain ⟨hreply, hmem, hrun, hregs⟩ := State.serve_answer (opcode := 0x02)
      (act := fun t => t.regWriteAct f.parlour a.toNat [v.toNat]) hs ha (show stOk ≠ stBusy by decide)
    refine ⟨_, rfl, hreply, fun i hi => ?_, hmem.trans hmem', hrun.trans hrun'⟩
    exact (congrArg (fun x => bitOf x i) ((hregs _ (ne_controlMsgs_of_class hcls)).trans hreg)).trans (r.bitOf_next _ _ hi)
  case modify =>
    obtain ⟨u, ha, hreg, hmem', hrun'⟩ := State.regModifyAct_of_plain hstands hserved hpage hcls hrow hrwl hwo hrc hview
      f.parlour v.toNat m.toNat
    obtain ⟨hreply, hmem, hrun, hregs⟩ := State.serve_answer (opcode := 0x03)
      (act := fun t => t.regModifyAct f.parlour a.toNat [(v.toNat, m.toNat)]) hs ha (show stOk ≠ stBusy by decide)
    refine ⟨_, rfl, hreply, fun i hi hrw => ?_, hmem.trans hmem', hrun.trans hrun'⟩
    refine (congrArg (fun x => bitOf x i) ((hregs _ (ne_controlMsgs_of_class hcls)).trans hreg)).trans ?_
    rw [r.bitOf_next _ _ hi, if_pos hrw, bitOf_merged _ _ _ hi]
  case length =>
    have ha : s.regReadAct n a.toNat = ⟨s, stBadLength, 0, 0, []⟩ := by
      unfold State.regReadAct State.regCheck
      rw [if_pos hn]
      rfl
    obtain ⟨hreply, hmem, -⟩ := State.serve_answer (opcode := 0x01) (act := fun t => t.regReadAct n a.toNat) hs ha
      (show stBadLength ≠ stBusy by decide)
    exact ⟨_, rfl, hreply, hmem⟩
  case address =>
    have ha : s.regReadAct n a.toNat = ⟨s, stBadAddress, 0, a.toNat, []⟩ := by
      unfold State.regReadAct State.regCheck
      rw [if_neg (by omega), if_pos (by simp [hstands])]
      unfold State.badAddress
      rw [Nat.mod_eq_of_lt a.isLt]
    obtain ⟨hreply, hmem, -⟩ := State.serve_answer (opcode := 0x01) (act := fun t => t.regReadAct n a.toNat) hs ha
      (show stBadAddress ≠ stBusy by decide)
    exact ⟨_, rfl, hreply, hmem⟩
  case none =>
    refine done_of_eq ?_
    unfold State.serve
    exact if_pos (by simp [hs])

end Sys2Proof.Machine

end

section

/-!
Host commands and records at a base die (chapters 06 and 11), snapshots (chapter 11), and settings of blocks (chapters 10,
12, 13).
-/

namespace Sys2Proof.Machine

/-! ### Host commands (R165, R322) -/

/-- The command that the words of a base die's command registers make. -/
def State.hostCommand (s : State) (word : Nat → Nat) : BaseCmd :=
  ⟨(List.range 16).map (fun i => BitVec.ofNat 32 (s.reg (word i))), .host⟩

theorem State.cmdSubmit_sep_of_free {s : State} {st : Nat} (hruns : s.planRuns = false) (hload : s.loading = false)
    (hroom : (s.sep st).queue.length < 16) : ∃ u : State, (s.cmdSubmit clsSep st).1 =
      u.setSep st { u.sep st with queue := (u.sep st).queue ++ [s.hostCommand (Reg.SEP_CMD_WORD st)] } ∧
      u = (s.setReg (Reg.SEP_CMD_STATUS st) 0).setReg (Reg.SEP_CMD_FAULT_ADDR st) 0 := by
  unfold State.cmdSubmit
  extract_lets sep a full word c u
  have hfull : full = false := decide_eq_false (Nat.not_le.mpr hroom)
  have hu : u = (s.setReg (Reg.SEP_CMD_STATUS st) 0).setReg (Reg.SEP_CMD_FAULT_ADDR st) 0 := rfl
  have hc : c = s.hostCommand (Reg.SEP_CMD_WORD st) := rfl
  clear_value u c
  refine ⟨u, ?_, hu⟩
  rw [if_neg (by simp [hruns, hload, hfull]), hc]
  rfl

theorem State.cmdSubmit_upd_of_free {s : State} {st : Nat} (hruns : s.planRuns = false) (hload : s.loading = false)
    (hroom : (s.upd st).queue.length < 16) : ∃ u : State, (s.cmdSubmit clsUpd st).1 =
      u.setUpd st { u.upd st with queue := (u.upd st).queue ++ [s.hostCommand (Reg.UPD_CMD_WORD st)] } ∧
      u = (s.setReg (Reg.UPD_CMD_STATUS st) 0).setReg (Reg.UPD_CMD_FAULT_ADDR st) 0 := by
  unfold State.cmdSubmit
  extract_lets sep a full word c u
  have hfull : full = false := decide_eq_false (Nat.not_le.mpr hroom)
  have hu : u = (s.setReg (Reg.UPD_CMD_STATUS st) 0).setReg (Reg.UPD_CMD_FAULT_ADDR st) 0 := rfl
  have hc : c = s.hostCommand (Reg.UPD_CMD_WORD st) := rfl
  clear_value u c
  refine ⟨u, ?_, hu⟩
  rw [if_neg (by simp [hruns, hload, hfull]), hc]
  rfl

theorem fieldOf_regAddr (cls inst page off : Nat) (hcls : cls < 256) (hinst : inst < 256) (hpage : page < 16) (hoff : off < 4096) :
    fieldOf (regAddr cls inst page off) 31 24 = cls ∧ fieldOf (regAddr cls inst page off) 23 16 = inst := by
  have h1 := fieldOf_eq_div (regAddr cls inst page off) 24 7
  have h2 := fieldOf_eq_div (regAddr cls inst page off) 16 7
  refine ⟨h1.trans ?_, h2.trans ?_⟩
  · unfold regAddr
    omega
  · unfold regAddr
    omega

/-- A refused write latches REFUSED of the block that its address names. -/
theorem State.ignored_of_regAddr (s : State) {cls inst page off : Nat} (hcls : cls < 256) (hinst : inst < 256)
    (hpage : page < 16) (hoff : off < 4096) : s.ignored (regAddr cls inst page off) =
      (s.event cls inst evRefused (regAddr cls inst page off), true) := by
  obtain ⟨h1, h2⟩ := fieldOf_regAddr cls inst page off hcls hinst hpage hoff
  unfold State.ignored
  rw [h1, h2]

theorem State.cmdSubmit_sep_of_refused {s : State} {st : Nat} (hst : st < 12)
    (h : s.planRuns = true ∨ s.loading = true ∨ 16 ≤ (s.sep st).queue.length) :
    (s.cmdSubmit clsSep st).1 = s.event clsSep st evRefused (Reg.SEP_CMD_SUBMIT st) := by
  have hcond : (s.planRuns || s.loading || decide (16 ≤ (s.sep st).queue.length)) = true := by
    rcases h with h | h | h <;> simp [h]
  have hignored := congrArg Prod.fst (s.ignored_of_regAddr (cls := clsSep) (inst := st) (page := 2) (off := 0x040)
    (by decide) (by omega) (by decide) (by decide))
  unfold State.cmdSubmit
  exact (congrArg Prod.fst (if_pos hcond)).trans hignored

/-! ### Snapshots (R320) -/

theorem State.setSnap_reg (s : State) (lo n v : Nat) (h : lo + n < 32) :
    (s.setSnap (lo + n) lo v).reg Reg.UPD_SNAP_STATUS = setField (s.reg Reg.UPD_SNAP_STATUS) (lo + n) lo v := by
  unfold State.setSnap
  rw [reg_setReg_self, Nat.mod_eq_of_lt (setField_lt (reg_lt ..) _ _ _ h)]

/-- SNAP_STATUS after the bits of a request: RUNNING and SHIPPING stay, REFUSED clears, PENDING and the number are set. -/
theorem State.snapRequest_of_free {s : State} {id : Nat} (hid : id ≠ 0) (hruns : bitOf (s.reg Reg.UPD_SNAP_STATUS) 17 = false)
    (hships : bitOf (s.reg Reg.UPD_SNAP_STATUS) 18 = false) : ∃ u : State, s.snapRequest id =
      { u with run := { u.run with snapId := some (BitVec.ofNat 32 id) } } ∧
      u = ((s.setSnap 19 19 0).setSnap 16 16 1).setSnap 15 0 id := by
  unfold State.snapRequest
  rw [if_neg hid, if_neg (by simp [hruns, hships])]
  exact ⟨_, rfl, rfl⟩

theorem State.snapRequest_of_busy {s : State} {id : Nat} (hid : id ≠ 0) (h : bitOf (s.reg Reg.UPD_SNAP_STATUS) 17 = true ∨
    bitOf (s.reg Reg.UPD_SNAP_STATUS) 18 = true) :
    s.snapRequest id = (s.setSnap 19 19 1).event clsUpd 0 evRefused 0 := by
  unfold State.snapRequest
  rw [if_neg hid, if_pos (by rcases h with h | h <;> simp [h])]

/-- The shipping of the last record ends with its acknowledgement. -/
theorem State.shipAck_of_found {s : State} {st shard : Nat} {r : RemoteReq}
    (h : s.fab.remote.find? (fun r => r.use == .ship st shard) = some r) :
    s.shipAck st shard = if (s.dropRemote r.tag).shipping = true then s.dropRemote r.tag
      else (s.dropRemote r.tag).setSnap 18 18 0 := by
  unfold State.shipAck
  rw [h]

theorem State.setSnap_mem (s : State) (hi lo v : Nat) : (s.setSnap hi lo v).mem = s.mem := State.setReg_mem ..

theorem State.setSnap_run (s : State) (hi lo v : Nat) : (s.setSnap hi lo v).run = s.run := State.setReg_run ..

theorem State.setSnap_fab (s : State) (hi lo v : Nat) : (s.setSnap hi lo v).fab = s.fab := State.setReg_fab ..

/-- Settles O22: a command joins its queue's end, or is refused; SNAP_STATUS is followed bit by bit. -/
theorem hostCommandSubmission : Obligations.HostCommandSubmission := by
  refine ⟨fun s st hs hruns hload hroom => ?sep, fun s st hs hwhy => ?refused, fun s st hs hruns hload hroom => ?upd,
    fun s w hw hruns hships => ?snap, fun s w hw hbusy => ?busy, fun s st sh r hr => ?ack⟩
  case sep =>
    obtain ⟨u, he, hu⟩ := State.cmdSubmit_sep_of_free hruns hload hroom
    have hsame : u.sep st = s.sep st := by
      unfold State.sep
      rw [hu, State.setReg_seps, State.setReg_seps]
    have hne : Reg.SEP_CMD_STATUS st ≠ Reg.SEP_CMD_FAULT_ADDR st := by
      unfold Reg.SEP_CMD_STATUS Reg.SEP_CMD_FAULT_ADDR regAddr
      omega
    refine ⟨_, done_of_eq ((if_pos hs : (if s.inService clsSep st = true then (s.cmdSubmit clsSep st).1 else s) = _).trans he),
      ?_, ?_, ?_, ?_, ?_⟩
    · rw [sep_setSep, if_pos rfl, hsame]
      rfl
    · rw [sep_setSep, if_pos rfl, hsame]
    · exact (reg_congr (State.setSep_regs ..) _).trans (by rw [hu, reg_setReg_ne _ _ _ _ hne, reg_setReg_self, Nat.zero_mod])
    · exact (reg_congr (State.setSep_regs ..) _).trans (by rw [hu, reg_setReg_self, Nat.zero_mod])
    · rw [State.setSep_mem, hu, State.setReg_mem, State.setReg_mem]
  case refused =>
    refine ⟨_, done_of_eq ((if_pos hs : (if s.inService clsSep st = true then (s.cmdSubmit clsSep st).1 else s) = _).trans
      (State.cmdSubmit_sep_of_refused st.isLt hwhy)), kept_seps (State.event_hide 129 rfl ..) rfl,
      State.event_raw s clsSep st _ (bit := evRefused) (by decide) ?_⟩
    unfold Reg.EVENT_RAW Reg.QMGR_LOG_LOST regAddr clsSep
    omega
  case upd =>
    obtain ⟨u, he, hu⟩ := State.cmdSubmit_upd_of_free hruns hload hroom
    have hsame : u.upd st = s.upd st := by
      unfold State.upd
      rw [hu, State.setReg_upds, State.setReg_upds]
    have hne : Reg.UPD_CMD_STATUS st ≠ Reg.UPD_CMD_FAULT_ADDR st := by
      unfold Reg.UPD_CMD_STATUS Reg.UPD_CMD_FAULT_ADDR regAddr
      omega
    refine ⟨_, done_of_eq ((if_pos hs : (if s.inService clsUpd st = true then (s.cmdSubmit clsUpd st).1 else s) = _).trans he),
      ?_, ?_, ?_, ?_, ?_⟩
    · rw [upd_setUpd, if_pos rfl, hsame]
      rfl
    · rw [upd_setUpd, if_pos rfl, hsame]
    · exact (reg_congr (State.setUpd_regs ..) _).trans (by rw [hu, reg_setReg_ne _ _ _ _ hne, reg_setReg_self, Nat.zero_mod])
    · exact (reg_congr (State.setUpd_regs ..) _).trans (by rw [hu, reg_setReg_self, Nat.zero_mod])
    · rw [State.setUpd_mem, hu, State.setReg_mem, State.setReg_mem]
  case snap =>
    have hid : w.toNat ≠ 0 := fun h => hw (BitVec.eq_of_toNat_eq h)
    obtain ⟨u, he, hu⟩ := State.snapRequest_of_free hid hruns hships
    have hstatus : u.reg Reg.UPD_SNAP_STATUS =
        setField (setField (setField (s.reg Reg.UPD_SNAP_STATUS) 19 19 0) 16 16 1) 15 0 w.toNat := by
      rw [hu, State.setSnap_reg _ 0 15 _ (by decide), State.setSnap_reg _ 16 0 _ (by decide),
        State.setSnap_reg _ 19 0 _ (by decide)]
    have hmem : u.mem = s.mem := by rw [hu, State.setSnap_mem, State.setSnap_mem, State.setSnap_mem]
    refine ⟨_, done_of_eq he, ?_, ?_, ?_, ?_, hmem⟩
    · exact congrArg some (BitVec.ofNat_toNat ..)
    · refine (congrArg (bitOf · 16) ((reg_congr rfl _).trans hstatus)).trans ?_
      rw [bitOf_setField _ 0 15, if_neg (by omega), bitOf_setField _ 16 0, if_pos (by omega)]
      rfl
    · refine (congrArg (bitOf · 19) ((reg_congr rfl _).trans hstatus)).trans ?_
      rw [bitOf_setField _ 0 15, if_neg (by omega), bitOf_setField _ 16 0, if_neg (by omega), bitOf_setField _ 19 0,
        if_pos (by omega)]
      rfl
    · exact (congrArg (fieldOf · 15 0) ((reg_congr rfl _).trans hstatus)).trans (fieldOf_setField _ 0 15 _)
  case busy =>
    have hid : w.toNat ≠ 0 := fun h => hw (BitVec.eq_of_toNat_eq h)
    refine ⟨_, done_of_eq (State.snapRequest_of_busy hid hbusy), ?_, ?_, ?_⟩
    · rw [State.event_run, State.setSnap_run]
    · rw [event_reg _ _ _ _ _ _ (by decide) (by decide) (by decide) (by decide), State.setSnap_reg _ 19 0 _ (by decide),
        bitOf_setField _ 19 0, if_pos (by omega)]
      rfl
    · have hraw := State.event_raw (s.setSnap 19 19 1) clsUpd 0 0 (bit := evRefused) (by decide) (by decide)
      have hsame : (s.setSnap 19 19 1).reg (Reg.EVENT_RAW clsUpd 0) = s.reg (Reg.EVENT_RAW clsUpd 0) :=
        reg_setReg_ne _ _ _ _ (by decide)
      rw [hsame] at hraw
      exact hraw
  case ack =>
    have hgone : ∀ x ∈ (s.dropRemote r.tag).fab.remote, x.tag ≠ r.tag := fun x hx => by
      have := (List.mem_filter.mp hx).2
      simpa using this
    by_cases hships : (s.dropRemote r.tag).shipping = true
    · have he := (State.shipAck_of_found hr).trans (if_pos hships)
      exact ⟨_, done_of_eq he, hgone, fun hno => absurd hships (by rw [hno]; decide), rfl⟩
    · have he := (State.shipAck_of_found hr).trans (if_neg hships)
      refine ⟨_, done_of_eq he, ?_, fun _ => ?_, ?_⟩
      · rw [State.setSnap_fab]
        exact hgone
      · rw [State.setSnap_reg _ 18 0 _ (by decide), bitOf_setField _ 18 0, if_pos (by omega)]
        rfl
      · rw [State.setSnap_mem]
        rfl

/-! ### Records at a command window (R142, R292) -/

section
variable {s : State} {st id off : Nat} {core : Fin 64} {r : Req} {bs : List Byte} (hr : s.arriving core id = some r)
  (hruns : s.planRuns = true)
include hr hruns

theorem State.windowWrite_sep (hbs : bs.length = 64) (hroom : (s.sep st).queue.length < 16) :
    s.windowWrite clsSep st (.core core id) 0 bs = (s.arrived id).setSep st { s.sep st with
      queue := (s.sep st).queue ++ [⟨cmdWords bs, .seg core r.entry r.desc id⟩] } := by
  unfold State.windowWrite
  dsimp only
  rw [hr]
  dsimp only
  rw [if_neg (by simp [hruns]), if_neg (by simp [hbs]), if_pos rfl, if_neg (Nat.not_le.mpr hroom)]

theorem State.windowWrite_upd (hbs : bs.length = 64) (hroom : (s.upd st).queue.length < 16) :
    s.windowWrite clsUpd st (.core core id) 0 bs = (s.arrived id).setUpd st { s.upd st with
      queue := (s.upd st).queue ++ [⟨cmdWords bs, .seg core r.entry r.desc id⟩] } := by
  unfold State.windowWrite
  dsimp only
  rw [hr]
  dsimp only
  rw [if_neg (by simp [hruns]), if_neg (by simp [hbs]), if_neg (by decide), if_neg (Nat.not_le.mpr hroom)]

theorem State.windowWrite_of_misplaced (hbad : off ≠ 0 ∨ bs.length ≠ 64) :
    s.windowWrite clsSep st (.core core id) off bs = (s.arrived id).raise
      { code := 0x0401, cls := clsSep, inst := st, core := core, entry := r.entry, desc := r.desc } := by
  unfold State.windowWrite
  dsimp only
  rw [hr]
  dsimp only
  rw [if_neg (by simp [hruns]), if_pos hbad]
  rfl

end

/-- Settles O31: a command window takes one aligned record of a core. -/
theorem baseDieArrivals : Obligations.BaseDieArrivals := by
  refine ⟨fun s st core id r bs hr hruns hbs hroom => ?sep, fun s st core id r bs hr hruns hbs hroom => ?upd,
    fun s st off bs => ?other, fun s st core id off r bs hr hruns hbad hroom => ?misplaced⟩
  case sep =>
    refine ⟨_, done_of_eq (State.windowWrite_sep hr hruns hbs hroom), ?_, ?_, rfl, rfl, rfl⟩
    · rw [sep_setSep, if_pos rfl]
    · rw [sep_setSep, if_pos rfl]
  case upd =>
    refine ⟨_, done_of_eq (State.windowWrite_upd hr hruns hbs hroom), ?_, ?_, rfl, rfl, rfl⟩
    · rw [upd_setUpd, if_pos rfl]
    · rw [upd_setUpd, if_pos rfl]
  case other =>
    refine ⟨_, rfl, kept_seps (State.event_hide 129 rfl ..) rfl, State.event_mem ..,
      State.event_raw s clsSep st _ (bit := evDiscard) (by decide) ?_⟩
    unfold Reg.EVENT_RAW Reg.QMGR_LOG_LOST regAddr clsSep
    omega
  case misplaced =>
    have hruns' : (s.arrived id).planRuns = true := hruns
    refine ⟨_, done_of_eq (State.windowWrite_of_misplaced hr hruns hbad), ?_, ?_⟩
    · exact (State.raise_shows _ _ false (by exact hroom)).imp fun x ⟨hcode, hcls, _, _, _, hphase⟩ => ⟨hcode, hcls, hphase⟩
    · rw [State.raise_stopped, hruns', Bool.or_true]

/-! ### Flip masks and code regions (R283, R284, R287) -/

/-- FLIP_SELECT stands on a page of its own class. -/
theorem flipSelect_eq {cls : Nat} (h : flipClass cls = true) (inst : Nat) :
    ∃ page off, flipSelect cls inst = regAddr cls inst page off ∧ 1 ≤ page ∧ page ≤ 8 ∧ off < 64 * 4 := by
  have hcls : cls = clsCore ∨ cls = clsMsc ∨ cls = clsHbm ∨ cls = clsLpddr := by
    unfold flipClass at h
    simpa [or_assoc] using h
  rcases hcls with rfl | rfl | rfl | rfl
  · exact ⟨8, 0x01C, rfl, by omega, by omega, by omega⟩
  · exact ⟨1, 0x020, rfl, by omega, by omega, by omega⟩
  · exact ⟨1, 0x044, rfl, by omega, by omega, by omega⟩
  · exact ⟨1, 0x01C, rfl, by omega, by omega, by omega⟩

theorem State.armFlip_of_free {s : State} {cls inst hi : Nat} (hcls : flipClass cls = true)
    (hfree : cls = clsHbm ∨ cls = clsLpddr → s.planRuns = false) : (s.armFlip cls inst hi).1 =
      (s.setReg (Reg.FLIP_MASK_HI cls inst) hi).setReg (flipSelect cls inst)
        (setField ((s.setReg (Reg.FLIP_MASK_HI cls inst) hi).reg (flipSelect cls inst)) 31 31 1) := by
  have hcond : ¬ ((cls == clsHbm || cls == clsLpddr) && s.planRuns) = true := by
    intro h
    simp only [Bool.and_eq_true, Bool.or_eq_true, beq_iff_eq] at h
    rw [hfree h.1] at h
    cases h.2
  unfold State.armFlip
  rw [if_neg (by simp [hcls]), if_neg hcond]

theorem State.armFlip_of_busy {s : State} {cls inst hi : Nat} (hinst : inst < 256) (hcls : cls = clsHbm ∨ cls = clsLpddr)
    (hruns : s.planRuns = true) :
    (s.armFlip cls inst hi).1 = s.event cls inst evRefused (Reg.FLIP_MASK_HI cls inst) := by
  have hflip : flipClass cls = true := by rcases hcls with rfl | rfl <;> rfl
  have hsmall : cls < 256 := by rcases hcls with rfl | rfl <;> decide
  have hignored := congrArg Prod.fst (s.ignored_of_regAddr (cls := cls) (inst := inst) (page := 0) (off := 0x028)
    hsmall hinst (by decide) (by decide))
  unfold State.armFlip
  rw [if_neg (by simp [hflip]), if_pos (by rcases hcls with rfl | rfl <;> simp [hruns])]
  exact hignored

theorem State.recode_reg (s : State) (st : Nat) (before : Nat → Option Nat) (a : Nat) : (s.recode st before).reg a = s.reg a :=
  reg_congr (kept_regs (State.recode_hide 16384 rfl ..) rfl) a

theorem and_codeMask_lt (w : Nat) : w &&& 0x83FFFFFF < 2 ^ 32 := lt_of_le_of_lt Nat.and_le_right (by decide)

/-- A well-formed word that meets no other is taken; the units it names keep their bytes. -/
theorem State.codeRegionWrite_of_taken {s : State} {st i v : Nat} (hruns : s.planRuns = false)
    (hok : codeWordOk (v &&& 0x83FFFFFF) = true) (hmeets : ∀ j < 64, j ≠ i →
      codeWordsMeet (v &&& 0x83FFFFFF) (s.reg (Reg.HBM_CODE_REGION st j)) = false) :
    (s.codeRegionWrite st i v).1 = (s.setReg (Reg.HBM_CODE_REGION st i) (v &&& 0x83FFFFFF)).recode st (s.codeOfUnit st) := by
  have hnone : (List.range 64).any (fun j => j != i &&
      codeWordsMeet (v &&& 0x83FFFFFF) (s.reg (Reg.HBM_CODE_REGION st j))) = false := by
    rw [List.any_eq_false]
    intro j hj
    by_cases hji : j = i
    · simp [hji]
    · rw [hmeets j (List.mem_range.mp hj) hji, Bool.and_false]
      decide
  unfold State.codeRegionWrite
  dsimp only
  rw [hnone, if_neg (by simp [hruns, hok])]

theorem State.codeRegionWrite_of_refused {s : State} {st i v : Nat} (hst : st < 12) (hi : i < 64) (hwhy : s.planRuns = true ∨
    codeWordOk (v &&& 0x83FFFFFF) = false ∨ ∃ j < 64, j ≠ i ∧
      codeWordsMeet (v &&& 0x83FFFFFF) (s.reg (Reg.HBM_CODE_REGION st j)) = true) :
    (s.codeRegionWrite st i v).1 = s.event clsHbm st evRefused (Reg.HBM_CODE_REGION st i) := by
  have hcond : (s.planRuns || !codeWordOk (v &&& 0x83FFFFFF) || (List.range 64).any (fun j => j != i &&
      codeWordsMeet (v &&& 0x83FFFFFF) (s.reg (Reg.HBM_CODE_REGION st j)))) = true := by
    rcases hwhy with h | h | ⟨j, hj, hji, hmeet⟩
    · simp [h]
    · simp [h]
    · rw [Bool.or_eq_true]
      exact Or.inr (List.any_eq_true.mpr ⟨j, List.mem_range.mpr hj, by simp [hji, hmeet]⟩)
  have hignored := congrArg Prod.fst (s.ignored_of_regAddr (cls := clsHbm) (inst := st) (page := 2) (off := 0x000 + 4 * i)
    (by decide) (by omega) (by decide) (by omega))
  unfold State.codeRegionWrite
  exact (congrArg Prod.fst (if_pos hcond)).trans hignored

/-! ### The module's number and its ports (R376, R438) -/

theorem State.joinTwin_kept (s : State) : s.joinTwin.regs = s.regs ∧ s.joinTwin.power = s.power ∧ s.joinTwin.mem = s.mem ∧
    s.joinTwin.run = s.run := by
  have h := State.joinTwin_hide 4288 rfl s
  have hmem := kept_mem h rfl rfl
  exact ⟨kept_regs h rfl, kept_power h rfl, hmem, kept_run h rfl⟩

theorem State.portConfig_of_idle {s : State} {p v : Nat} (hruns : s.planRuns = false) : (s.portConfig p v).1 =
    if bitOf v 8 = true then s.setReg (Reg.PORT_PORT_CONFIG p) (bnat (bitOf v 8) * 2 ^ 8 + fieldOf v 1 0)
    else (s.setReg (Reg.PORT_PORT_CONFIG p) (bnat (bitOf v 8) * 2 ^ 8 + fieldOf v 1 0)).portDown p := by
  unfold State.portConfig
  dsimp only
  rw [hruns, Bool.false_and, if_neg Bool.false_ne_true, if_neg Bool.false_ne_true]

/-- The loss of a port's link writes its event counter and the events of its block. -/
theorem State.portDown_reg (s : State) {p a : Nat} (hcount : a ≠ Reg.PORT_DOWN_EVENTS p)
    (hraw : a ≠ Reg.EVENT_RAW clsPort p) (hcounter : a ≠ Reg.COUNTER_0 clsPort p) (hlatch : a ≠ Reg.EVENT_LATCH clsPort p)
    (hlost : a ≠ Reg.QMGR_LOG_LOST) : (s.portDown p).reg a = s.reg a := by
  unfold State.portDown State.portLoses
  dsimp only
  split
  · rw [event_reg _ _ _ _ _ _ hraw hcounter hlatch hlost, reg_bump, if_neg hcount]
    rfl
  · rfl

theorem State.portDown_down (s : State) (p : Nat) : (s.portDown p).portLive p = false := by
  unfold State.portLive State.portDown
  rw [State.port_portLoses, if_pos rfl]
  split <;> rfl

theorem State.portDown_other (s : State) {p q : Nat} (h : q ≠ p) : (s.portDown p).port q = s.port q := by
  unfold State.portDown
  rw [State.port_portLoses, if_neg h]

/-- Settles O21: each setting is one write of its register, or an event. -/
theorem blockSettingWrites : Obligations.BlockSettingWrites := by
  refine ⟨fun s b w hb hs hcls hfree => ?arms, fun s b w hb hs hcls hruns => ?held,
    fun s st i w hs hruns hok hmeets => ?region, fun s st i w hs hwhy => ?refused, fun s v hs hnum => ?number,
    fun s v hnum => ?numbered, fun s p w hs hruns hen => ?port, fun s p w hs hruns hen => ?down, fun s p => ?pause⟩
  case arms =>
    obtain ⟨page, off, hsel, hpage, hpage', hoff⟩ := flipSelect_eq hcls b.inst
    have hne : Reg.FLIP_MASK_HI b.cls b.inst ≠ flipSelect b.cls b.inst := by
      rw [hsel]
      unfold Reg.FLIP_MASK_HI regAddr
      omega
    have he := (if_pos (served_of_blk hb hs) : (if (blkStands b && s.inService b.cls b.inst) = true then
      (s.armFlip b.cls b.inst w.toNat).1 else s) = _).trans (State.armFlip_of_free hcls hfree)
    have hselect : ((s.setReg (Reg.FLIP_MASK_HI b.cls b.inst) w.toNat).setReg (flipSelect b.cls b.inst)
        (setField ((s.setReg (Reg.FLIP_MASK_HI b.cls b.inst) w.toNat).reg (flipSelect b.cls b.inst)) 31 31 1)).reg
          (flipSelect b.cls b.inst) = setField (s.reg (flipSelect b.cls b.inst)) 31 31 1 := by
      rw [reg_setReg_self, reg_setReg_ne _ _ _ _ hne.symm, Nat.mod_eq_of_lt (setField_lt (reg_lt ..) 31 0 _ (by decide))]
    refine ⟨_, done_of_eq he, ?_, ?_, fun i hi => ?_, (State.setReg_mem ..).trans (State.setReg_mem ..)⟩
    · rw [reg_setReg_ne _ _ _ _ hne, reg_setReg_self, Nat.mod_eq_of_lt w.isLt]
    · rw [hselect, bitOf_setField _ 31 0, if_pos (by omega)]
      rfl
    · rw [hselect, bitOf_setField _ 31 0, if_neg (by omega)]
  case held =>
    have hinst := inst_lt_of_blkStands hb
    have hinst' : b.inst < 12 := by
      rcases hcls with h | h
      · rw [h] at hinst
        exact hinst
      · rw [h] at hinst
        exact hinst.trans (by decide)
    have hclass : b.cls = 4 ∨ b.cls = 9 := hcls
    have hflip : flipClass b.cls = true := by rcases hclass with h | h <;> rw [h] <;> rfl
    obtain ⟨page, off, hsel, hpage, hpage', hoff⟩ := flipSelect_eq hflip b.inst
    have he := (if_pos (served_of_blk hb hs) : (if (blkStands b && s.inService b.cls b.inst) = true then
      (s.armFlip b.cls b.inst w.toNat).1 else s) = _).trans (State.armFlip_of_busy (by omega) hcls hruns)
    refine ⟨_, done_of_eq he, ?_, State.event_raw s b.cls b.inst _ (bit := evRefused) (by decide) ?_⟩
    · rw [hsel]
      refine event_reg _ _ _ _ _ _ ?_ ?_ ?_ ?_
      · unfold Reg.EVENT_RAW regAddr
        omega
      · unfold Reg.COUNTER_0 regAddr
        omega
      · unfold Reg.EVENT_LATCH regAddr
        omega
      · unfold Reg.QMGR_LOG_LOST regAddr
        omega
    · unfold Reg.EVENT_RAW Reg.QMGR_LOG_LOST regAddr
      omega
  case region =>
    have he := (if_pos hs : (if s.inService clsHbm st = true then (s.codeRegionWrite st i w.toNat).1 else s) = _).trans
      (State.codeRegionWrite_of_taken hruns hok hmeets)
    refine ⟨_, done_of_eq he, ?_, fun b hb => ?_, ?_⟩
    · rw [State.recode_reg, reg_setReg_self, Nat.mod_eq_of_lt (and_codeMask_lt _)]
    · rw [State.recode_reg, reg_setReg_ne _ _ _ _ hb]
    · exact (kept_cells (State.recode_hide 16384 rfl ..) rfl).trans (congrArg Memory.cells (State.setReg_mem ..))
  case refused =>
    have he := (if_pos hs : (if s.inService clsHbm st = true then (s.codeRegionWrite st i w.toNat).1 else s) = _).trans
      (State.codeRegionWrite_of_refused st.isLt i.isLt hwhy)
    refine ⟨_, done_of_eq he, ?_, State.event_mem .., State.event_raw s clsHbm st _ (bit := evRefused) (by decide) ?_⟩
    · refine event_reg _ _ _ _ _ _ ?_ ?_ ?_ ?_
      · unfold Reg.HBM_CODE_REGION Reg.EVENT_RAW regAddr clsHbm
        omega
      · unfold Reg.HBM_CODE_REGION Reg.COUNTER_0 regAddr clsHbm
        omega
      · unfold Reg.HBM_CODE_REGION Reg.EVENT_LATCH regAddr clsHbm
        omega
      · unfold Reg.HBM_CODE_REGION Reg.QMGR_LOG_LOST regAddr
        omega
    · unfold Reg.EVENT_RAW Reg.QMGR_LOG_LOST regAddr clsHbm
      omega
  case number =>
    obtain ⟨u, he, hu, hpower⟩ : ∃ u : State, (s.numberWrite v.toNat).1 = u.joinTwin ∧
        u = { s.setReg (Reg.FABRIC_MODULE_NUMBER 0) (2 ^ 12 + v.toNat % 4096) with
          power := { s.power with moduleNumber := some (v.toNat % 4096) } } ∧
        u.power.moduleNumber = some (v.toNat % 4096) := by
      unfold State.numberWrite
      rw [if_neg (by simp [hnum])]
      exact ⟨_, rfl, rfl, rfl⟩
    obtain ⟨hregs, hjoinPower, hmem, hrun⟩ := u.joinTwin_kept
    have he' := (if_pos hs : (if s.inService clsFabric 0 = true then (s.numberWrite v.toNat).1 else s) = _).trans he
    refine ⟨_, done_of_eq he', ?_, ?_, ?_, ?_⟩
    · have hreg : u.reg (Reg.FABRIC_MODULE_NUMBER 0) = (2 ^ 12 + v.toNat % 4096) % 2 ^ 32 := by
        rw [hu]
        exact (reg_congr rfl _).trans (reg_setReg_self ..)
      rw [reg_congr hregs, hreg]
      omega
    · rw [hjoinPower, hpower]
    · rw [hmem, hu]
      exact State.setReg_mem s (Reg.FABRIC_MODULE_NUMBER 0) (2 ^ 12 + v.toNat % 4096)
    · rw [hrun, hu]
      exact State.setReg_run s (Reg.FABRIC_MODULE_NUMBER 0) (2 ^ 12 + v.toNat % 4096)
  case numbered =>
    have he : (s.numberWrite v.toNat).1 = s := congrArg Prod.fst (if_pos hnum)
    exact done_of_eq (by rw [he, ite_self])
  case port =>
    have he := (if_pos hs : (if s.inService clsPort p = true then (s.portConfig p w.toNat).1 else s) = _).trans
      ((State.portConfig_of_idle hruns).trans (if_pos hen))
    have hfield : fieldOf w.toNat 1 0 < 4 := Nat.mod_lt _ (by decide)
    refine ⟨_, done_of_eq he, ?_, fun b hb => reg_setReg_ne _ _ _ _ hb, State.setReg_fab ..⟩
    rw [reg_setReg_self, hen]
    unfold bnat
    rw [if_pos rfl]
    omega
  case down =>
    have hen' : ¬ bitOf w.toNat 8 = true := by rw [hen]; decide
    have he := (if_pos hs : (if s.inService clsPort p = true then (s.portConfig p w.toNat).1 else s) = _).trans
      ((State.portConfig_of_idle hruns).trans (if_neg hen'))
    have hfield : fieldOf w.toNat 1 0 < 4 := Nat.mod_lt _ (by decide)
    refine ⟨_, done_of_eq he, ?_, State.portDown_down .., fun q hq => ?_⟩
    · rw [State.portDown_reg, reg_setReg_self, hen]
      · unfold bnat
        rw [if_neg Bool.false_ne_true]
        omega
      · unfold Reg.PORT_PORT_CONFIG Reg.PORT_DOWN_EVENTS regAddr
        omega
      · unfold Reg.PORT_PORT_CONFIG Reg.EVENT_RAW regAddr clsPort
        omega
      · unfold Reg.PORT_PORT_CONFIG Reg.COUNTER_0 regAddr clsPort
        omega
      · unfold Reg.PORT_PORT_CONFIG Reg.EVENT_LATCH regAddr clsPort
        omega
      · unfold Reg.PORT_PORT_CONFIG Reg.QMGR_LOG_LOST regAddr
        omega
    · exact (State.portDown_other _ (fun h => hq (Fin.ext h))).trans rfl
  case pause =>
    refine ⟨_, rfl, ?_, State.bump_fab .., State.bump_mem ..⟩
    rw [reg_bump, if_pos rfl]

end Sys2Proof.Machine

end

section

/-!
Frames at the ports: what waits in the flows of the sending side, what a frame that is heard finds, and credits (R333, R338,
R355 to R357).
-/

namespace Sys2Proof.Machine

/-! ### The sending side -/

/-- The flow that is set stands; of the fabric only the flows change. -/
theorem State.setTx_effect (s : State) (f : TxFlow) : ∃ tx, s.setTx f = { s with fab := { s.fab with tx := tx } } ∧ f ∈ tx := by
  unfold State.setTx
  split
  next hany =>
    obtain ⟨g, hg, hid⟩ := List.any_eq_true.mp hany
    exact ⟨_, rfl, List.mem_map.mpr ⟨g, hg, if_pos (eq_of_beq hid)⟩⟩
  next => exact ⟨_, rfl, List.mem_append_right _ (List.mem_singleton_self f)⟩

/-- A block waits in a flow: not sent yet, with this header and these bytes. -/
def Fabric.HasWaiting (b : Fabric) (P : Cargo → Prop) : Prop := ∃ f ∈ b.tx, ∃ x ∈ f.blocks, x.sent = false ∧ P x.cargo

theorem Fabric.HasWaiting.imp {b : Fabric} {P Q : Cargo → Prop} (h : b.HasWaiting P) (hPQ : ∀ c, P c → Q c) : b.HasWaiting Q := by
  obtain ⟨f, hf, x, hx, hsent, hP⟩ := h
  exact ⟨f, hf, x, hx, hsent, hPQ _ hP⟩

/-- A frame enqueued waits; of the fabric only the flows change. -/
theorem State.enqueue_effect (s : State) (id : FlowId) (h : Hdr) (data : List Byte) : ∃ tx,
    s.enqueue id h data = { s with fab := { s.fab with tx := tx } } ∧
    (s.enqueue id h data).fab.HasWaiting (fun c => c.data = data ∧ ∃ seq : Word, c.hdr = { h with
      seq := seq, nblk := if data.isEmpty then 0 else 1
      len := if data.isEmpty then h.len else BitVec.ofNat 32 data.length }) := by
  unfold State.enqueue
  extract_lets f n h'
  obtain ⟨tx, he, hmem⟩ := s.setTx_effect { f with
    next := f.next + BitVec.ofNat 32 n, blocks := f.blocks ++ [⟨⟨h', data⟩, 0, 0, false, false, false⟩] }
  refine ⟨tx, he, ?_⟩
  rw [he]
  refine ⟨_, hmem, _, List.mem_append_right _ (List.mem_singleton_self _), rfl, rfl, h'.seq, ?_⟩
  show h' = _
  cases hd : data.isEmpty <;> simp only [h', n, hd] <;> rfl

/-- A frame without blocks waits with its header as it was made. -/
theorem State.sendBare_effect (s : State) (id : FlowId) (h : Hdr) : ∃ tx,
    s.sendBare id h = { s with fab := { s.fab with tx := tx } } ∧
    (s.sendBare id h).fab.HasWaiting (fun c => c.data = [] ∧ ∃ seq : Word, c.hdr = { h with seq := seq, nblk := 0 }) :=
  s.enqueue_effect id h []

theorem State.sendBare_credits (s : State) (id : FlowId) (h : Hdr) : (s.sendBare id h).fab.credits = s.fab.credits := by
  obtain ⟨tx, he, -⟩ := s.sendBare_effect id h
  rw [he]

theorem State.sendBare_pool (s : State) (id : FlowId) (h : Hdr) (plane : Nat) :
    (s.sendBare id h).pool plane = s.pool plane := by
  obtain ⟨tx, he, -⟩ := s.sendBare_effect id h
  rw [he]
  rfl

/-! ### A frame that is heard (R340, R344) -/

/-- The frame and its codewords are counted at its port. -/
def State.countedRx (s : State) (r : Rx) : State :=
  ((s.bumpBy (Reg.PORT_FEC_CORRECTED r.port) r.fecFixed).bumpBy (Reg.PORT_FEC_UNCORRECTED r.port) r.fecBad).bump
    (Reg.PORT_FRAMES_RX r.port)

/-- The state that a heard frame finds: it is counted, and its packet number is noted. -/
def State.heard (s : State) (r : Rx) (p : Peer) : State :=
  (s.countedRx r).modPeer p.num p.host p.plane (fun x => x.took r)

theorem State.countedRx_fab (s : State) (r : Rx) : (s.countedRx r).fab = s.fab := by
  unfold State.countedRx
  rw [State.bump_fab, State.bumpBy_fab, State.bumpBy_fab]

/-- Counting a frame writes registers of PORT alone. -/
theorem State.countedRx_reg (s : State) (r : Rx) {x : Nat} (hx : x / 2 ^ 24 ≠ 7) : (s.countedRx r).reg x = s.reg x := by
  have hport : ∀ off < 4096, x ≠ regAddr 7 r.port 1 off := by
    rintro off hoff rfl
    unfold regAddr at hx
    omega
  have hcorrected : x ≠ Reg.PORT_FEC_CORRECTED r.port := hport 0x008 (by decide)
  have huncorrected : x ≠ Reg.PORT_FEC_UNCORRECTED r.port := hport 0x00C (by decide)
  have hframes : x ≠ Reg.PORT_FRAMES_RX r.port := hport 0x014 (by decide)
  unfold State.countedRx
  rw [reg_bump, if_neg hframes, reg_bumpBy, if_neg huncorrected, reg_bumpBy, if_neg hcorrected]

theorem State.modPeer_reg (s : State) (num : Nat) (host : Bool) (plane : Nat) (f : Peer → Peer) (x : Nat) :
    (s.modPeer num host plane f).reg x = s.reg x := reg_congr rfl x

theorem State.heard_reg (s : State) (r : Rx) (p : Peer) {x : Nat} (hx : x / 2 ^ 24 ≠ 7) : (s.heard r p).reg x = s.reg x :=
  (State.modPeer_reg (s.countedRx r) p.num p.host p.plane (fun x => x.took r) x).trans (s.countedRx_reg r hx)

/-- Of the fabric only the peers change. -/
theorem State.heard_fab (s : State) (r : Rx) (p : Peer) : ∃ peers, (s.heard r p).fab = { s.fab with peers := peers } := by
  refine ⟨((s.heard r p).fab).peers, ?_⟩
  rw [← s.countedRx_fab r]
  rfl

theorem State.heard_hide (s : State) (r : Rx) (p : Peer) : (s.heard r p).hide 65 = s.hide 65 := by
  unfold State.heard State.countedRx
  refine (State.modPeer_hide 65 rfl ..).trans ((State.bump_hide 65 rfl ..).trans ?_)
  exact (State.bumpBy_hide 65 rfl ..).trans (State.bumpBy_hide 65 rfl ..)

/-- A frame that is heard is acted on. -/
theorem State.receive_of_hears {s : State} {type : Nat} {r : Rx} {p : Peer} (h : s.Hears type r p) (act : State → State) :
    s.receive type r act = act (s.heard r p) := by
  obtain ⟨hdie, hlive, hnum, hpeer, hicv, hkey, hwindow, hudp, htype, hhost, hdst⟩ := h
  have hpeer' : (s.countedRx r).peerOn r.hdr.src r.hdr.srcHost (r.port / 4) = some p := by
    unfold State.peerOn at hpeer ⊢
    rw [s.countedRx_fab]
    exact hpeer
  have hold : ¬ (!r.icvOk || (!r.newKey && p.oldKey.isNone)) = true := by
    rw [hicv]
    rcases hkey with hkey | hkey
    · simp [hkey]
    · rw [Option.isNone_eq_false_iff.mpr hkey]
      simp
  have hforMe : ¬ (!typeOk p.gen type r || r.hdr.dstHost || r.hdr.dst != (s.heard r p).moduleNum) = true := by
    have hmodule : (s.heard r p).moduleNum = s.moduleNum := by
      unfold State.moduleNum
      rw [s.heard_reg r p (by decide)]
    rw [htype, hhost, hdst, hmodule]
    simp
  unfold State.receive
  extract_lets port corrected counted
  have hcounted : counted = s.countedRx r := rfl
  clear_value counted
  rw [if_neg (by simp [port, hdie, hlive, hnum]), hcounted, hpeer']
  dsimp only
  rw [if_neg hold, if_neg (by simp [hwindow]), if_neg (by simp [hudp])]
  exact if_neg hforMe

/-! ### Credits (R355 to R357) -/

/-- The entry of an endpoint on a plane. -/
def Credit.at (peer : Nat) (host : Bool) (plane : Nat) (c : Credit) : Bool :=
  c.peer == peer && c.host == host && c.plane == plane

theorem Credit.at_iff {peer plane : Nat} {host : Bool} {c : Credit} :
    c.at peer host plane = true ↔ c.peer = peer ∧ c.host = host ∧ c.plane = plane := by
  unfold Credit.at
  rw [Bool.and_eq_true, Bool.and_eq_true, beq_iff_eq, beq_iff_eq, beq_iff_eq, and_assoc]

theorem State.creditOf_at (s : State) (peer : Nat) (host : Bool) (plane : Nat) :
    (s.creditOf peer host plane).at peer host plane = true := by
  unfold State.creditOf
  cases h : s.fab.credits.find? (fun c => c.peer == peer && c.host == host && c.plane == plane) with
  | none => simp [Credit.at]
  | some c => exact List.find?_some h

theorem State.creditOf_congr {s t : State} (h : t.fab.credits = s.fab.credits) (peer : Nat) (host : Bool) (plane : Nat) :
    t.creditOf peer host plane = s.creditOf peer host plane := by
  unfold State.creditOf
  rw [h]

/-- The entry found among some that are set. -/
theorem find?_setCredit (l : List Credit) (c : Credit) (peer : Nat) (host : Bool) (plane : Nat) :
    (l.map (fun x => if x.at c.peer c.host c.plane = true then c else x)).find? (fun x => x.at peer host plane) =
      if c.at peer host plane = true then (l.find? (fun x => x.at peer host plane)).map (fun _ => c)
      else l.find? (fun x => x.at peer host plane) := by
  rw [List.find?_map]
  split
  next hc =>
    obtain ⟨rfl, rfl, rfl⟩ := Credit.at_iff.mp hc
    have hsame : ((fun x : Credit => x.at c.peer c.host c.plane) ∘
        (fun x => if x.at c.peer c.host c.plane = true then c else x)) = fun x => x.at c.peer c.host c.plane := by
      funext x
      by_cases hx : x.at c.peer c.host c.plane = true
      · simp [hx, hc]
      · simp [hx]
    rw [hsame]
    cases h : l.find? (fun x => x.at c.peer c.host c.plane) with
    | none => rfl
    | some x => exact congrArg some (if_pos (List.find?_some h))
  next hc =>
    have hother : ∀ x : Credit, x.at c.peer c.host c.plane = true → ¬ x.at peer host plane = true := by
      intro x hx hx'
      obtain ⟨hpeer, hhost, hplane⟩ := Credit.at_iff.mp hx
      obtain ⟨hpeer', hhost', hplane'⟩ := Credit.at_iff.mp hx'
      exact hc (Credit.at_iff.mpr ⟨hpeer.symm.trans hpeer', hhost.symm.trans hhost', hplane.symm.trans hplane'⟩)
    have hsame : ((fun x : Credit => x.at peer host plane) ∘
        (fun x => if x.at c.peer c.host c.plane = true then c else x)) = fun x => x.at peer host plane := by
      funext x
      by_cases hx : x.at c.peer c.host c.plane = true
      · simp [hx, hc, hother x hx]
      · simp [hx]
    rw [hsame]
    cases h : l.find? (fun x => x.at peer host plane) with
    | none => rfl
    | some x => exact congrArg some (if_neg fun hx => hother x hx (List.find?_some h))

/-- Setting an entry: it reads as it was set, every other endpoint's as before. -/
theorem State.creditOf_setCredit (s : State) (c : Credit) (peer : Nat) (host : Bool) (plane : Nat) :
    (s.setCredit c).creditOf peer host plane = if c.at peer host plane = true then c else s.creditOf peer host plane := by
  unfold State.setCredit State.creditOf
  dsimp only
  split
  next hany =>
    have hfind := find?_setCredit s.fab.credits c peer host plane
    unfold Credit.at at hfind ⊢
    rw [hfind]
    split
    next hc =>
      obtain ⟨rfl, rfl, rfl⟩ := Credit.at_iff.mp hc
      obtain ⟨x, hx⟩ := List.find?_isSome.mpr (List.any_eq_true.mp hany) |> Option.isSome_iff_exists.mp
      rw [hx]
      rfl
    next => rfl
  next hnone =>
    rw [List.find?_append, List.find?_singleton]
    split
    next hc =>
      obtain ⟨rfl, rfl, rfl⟩ := Credit.at_iff.mp hc
      have hfind : s.fab.credits.find? (fun x => x.peer == c.peer && x.host == c.host && x.plane == c.plane) = none :=
        List.find?_eq_none.mpr fun x hx hsame => hnone (List.any_eq_true.mpr ⟨x, hx, hsame⟩)
      rw [hfind, if_pos (show c.at c.peer c.host c.plane = true from hc)]
      rfl
    next hc =>
      rw [if_neg (show ¬ c.at peer host plane = true from hc), Option.or_none]

/-- Of the fabric only the credits change. -/
theorem State.setCredit_effect (s : State) (c : Credit) : ∃ l, s.setCredit c = { s with fab := { s.fab with credits := l } } := by
  unfold State.setCredit
  dsimp only
  split <;> exact ⟨_, rfl⟩

theorem State.eq_of_mem_setCredit {s : State} {c x : Credit} (hx : x ∈ (s.setCredit c).fab.credits)
    (hsame : x.at c.peer c.host c.plane = true) : x = c := by
  unfold State.setCredit at hx
  dsimp only at hx
  split at hx
  next hany =>
    obtain ⟨y, hy, rfl⟩ := List.mem_map.mp hx
    split
    next => rfl
    next hother =>
      rw [if_neg hother] at hsame
      exact absurd hsame hother
  next hnone =>
    rcases List.mem_append.mp hx with hx | hx
    · exact absurd (List.any_eq_true.mpr ⟨x, hx, hsame⟩) hnone
    · exact List.mem_singleton.mp hx

theorem State.setCredit_pool (s : State) (c : Credit) (plane : Nat) : (s.setCredit c).pool plane = s.pool plane := by
  obtain ⟨l, he⟩ := s.setCredit_effect c
  rw [he]
  rfl

/-! #### Grants -/

/-- The last part of a round of grants: who got some has its answer. -/
def State.answerGrant (plane : Nat) (u : State) (c : Credit) : State :=
  let now := u.creditOf c.peer c.host plane
  let n := now.granted - c.granted
  if n = 0 then u
  else
    let rest := { u with fab := { u.fab with credits := u.fab.credits.filter (fun x => x ≠ now) } }
    let u := (rest.setCredit { now with wants := none }).bump (Reg.FABRIC_GRANTS_ISSUED plane)
    let h := u.header 7 1 0 c.peer c.host
    u.sendBare (flowTo c.peer c.host plane 1 0) { h with len := BitVec.ofNat 32 n, last := true }

/-- Who waits on a plane. -/
def State.waitingOn (s : State) (plane : Nat) : List Credit :=
  s.fab.credits.filter (fun c => c.plane == plane && c.wants.isSome)

/-- One round of turns, while the pool lasts. -/
def State.grantRound (plane : Nat) (waiting : List Credit) (t : State) : State :=
  if t.pool plane = 0 then t else waiting.foldl (fun u c => u.grantOne plane c) t

theorem State.grantAll_eq (s : State) (plane : Nat) : s.grantAll plane =
    if (s.waitingOn plane).isEmpty then s
    else (s.waitingOn plane).foldl (State.answerGrant plane)
      ((List.range 1024).foldl (fun t _ => State.grantRound plane (s.waitingOn plane) t) s) := rfl

theorem State.grantAll_of_waiting {s : State} {plane : Nat} {w : List Credit} (hw : s.waitingOn plane = w) (hne : w ≠ []) :
    s.grantAll plane = w.foldl (State.answerGrant plane)
      ((List.range 1024).foldl (fun t _ => State.grantRound plane w t) s) := by
  subst hw
  rw [State.grantAll_eq, if_neg (by rw [List.isEmpty_iff]; exact hne)]

theorem State.grantAll_of_nobody {s : State} {plane : Nat} (h : ∀ c ∈ s.fab.credits, c.plane = plane → c.wants = none) :
    s.grantAll plane = s := by
  have hnobody : s.waitingOn plane = [] := by
    refine List.filter_eq_nil_iff.mpr fun c hc hwaits => ?_
    rw [Bool.and_eq_true, beq_iff_eq] at hwaits
    rw [h c hc hwaits.1] at hwaits
    cases hwaits.2
  rw [State.grantAll_eq, hnobody]
  rfl

/-- Taking one endpoint's entry out leaves every other endpoint's. -/
theorem creditOf_without {l : List Credit} {now : Credit} {peer plane : Nat} {host : Bool}
    (h : ¬ now.at peer host plane = true) : (l.filter (fun x => x ≠ now)).find?
      (fun x => x.peer == peer && x.host == host && x.plane == plane) =
        l.find? (fun x => x.peer == peer && x.host == host && x.plane == plane) := by
  rw [List.find?_filter]
  congr 1
  funext x
  by_cases hx : x = now
  · subst hx
    have hx' : (x.peer == peer && x.host == host && x.plane == plane) = false := Bool.eq_false_iff.mpr h
    simp [hx']
  · rw [Bool.eq_iff_iff]
    simp [hx]

/-- The answer to one endpoint changes its own entry alone. -/
theorem State.answerGrant_creditOf (u : State) {plane : Nat} {c : Credit} {peer : Nat} {host : Bool}
    (h : ¬ (c.peer = peer ∧ c.host = host) ∨ (u.creditOf peer host plane).granted ≤ c.granted) :
    (State.answerGrant plane u c).creditOf peer host plane = u.creditOf peer host plane := by
  unfold State.answerGrant
  extract_lets now n src rest v h'
  split
  · rfl
  next hn =>
    have hkey : now.at c.peer c.host plane = true := u.creditOf_at c.peer c.host plane
    have hother : ¬ now.at peer host plane = true := by
      intro hnow
      obtain ⟨hpeer, hhost, -⟩ := Credit.at_iff.mp hnow
      obtain ⟨hpeer', hhost', -⟩ := Credit.at_iff.mp hkey
      obtain rfl := hpeer'.symm.trans hpeer
      obtain rfl := hhost'.symm.trans hhost
      exact hn (Nat.sub_eq_zero_of_le (h.resolve_left (fun hne => hne ⟨rfl, rfl⟩)))
    have hv : v.fab = (rest.setCredit { now with wants := none }).fab := State.bump_fab ..
    rw [State.creditOf_congr (State.sendBare_credits ..), State.creditOf_congr (congrArg Fabric.credits hv),
      State.creditOf_setCredit, if_neg (show ¬ Credit.at peer host plane { now with wants := none } = true from hother)]
    unfold State.creditOf
    rw [show rest.fab.credits = u.fab.credits.filter (fun x => x ≠ now) from rfl, creditOf_without hother]

/-- Answers leave the entry of an endpoint that got nothing. -/
theorem State.answerGrants_creditOf {plane peer : Nat} {host : Bool} (l : List Credit) (u : State)
    (h : ∀ c ∈ l, c.peer = peer → c.host = host → (u.creditOf peer host plane).granted ≤ c.granted) :
    (l.foldl (State.answerGrant plane) u).creditOf peer host plane = u.creditOf peer host plane := by
  induction l generalizing u with
  | nil => rfl
  | cons c l ih =>
    have hc : (State.answerGrant plane u c).creditOf peer host plane = u.creditOf peer host plane := by
      refine u.answerGrant_creditOf ?_
      by_cases hsame : c.peer = peer ∧ c.host = host
      · exact Or.inr (h c List.mem_cons_self hsame.1 hsame.2)
      · exact Or.inl hsame
    rw [List.foldl_cons, ih _ (fun x hx => by rw [hc]; exact h x (List.mem_cons_of_mem _ hx)), hc]

/-- With an empty pool nobody is granted anything, and everybody's entry stays. -/
theorem State.grantAll_of_dry {s : State} {plane : Nat} (hdry : s.pool plane = 0) {peer : Nat} {host : Bool}
    (hsame : ∀ c ∈ s.fab.credits, c.at peer host plane = true → c = s.creditOf peer host plane) :
    (s.grantAll plane).creditOf peer host plane = s.creditOf peer host plane := by
  have hrounds : ∀ (l : List Nat) (w : List Credit), l.foldl (fun t _ => State.grantRound plane w t) s = s := by
    intro l w
    induction l with
    | nil => rfl
    | cons k l ih => rw [List.foldl_cons, show State.grantRound plane w s = s from if_pos hdry, ih]
  rw [State.grantAll_eq, hrounds]
  split
  · rfl
  · refine State.answerGrants_creditOf _ _ fun c hc hpeer hhost => ?_
    obtain ⟨hc, hwaits⟩ := List.mem_filter.mp hc
    rw [Bool.and_eq_true, beq_iff_eq] at hwaits
    rw [← hsame c hc (Credit.at_iff.mpr ⟨hpeer, hhost, hwaits.1⟩)]

/-- The entry of an endpoint that asks. -/
def Credit.asking (c : Credit) (slot : Nat) : Credit := { c with wants := some (c.wants.getD slot) }

theorem State.creditReq_eq (s : State) (peer : Nat) (host : Bool) (plane : Nat) :
    s.creditReq peer host plane = (s.setCredit ((s.creditOf peer host plane).asking s.slot)).grantAll plane := by
  unfold State.creditReq Credit.asking
  dsimp only
  cases (s.creditOf peer host plane).wants <;> rfl

/-- A request with an empty pool waits, from the slot it began. -/
theorem State.creditReq_of_dry {s : State} {peer plane : Nat} {host : Bool} (hdry : s.pool plane = 0) :
    (s.creditReq peer host plane).creditOf peer host plane = (s.creditOf peer host plane).asking s.slot := by
  have hat : ((s.creditOf peer host plane).asking s.slot).at peer host plane = true := s.creditOf_at peer host plane
  have hset : (s.setCredit ((s.creditOf peer host plane).asking s.slot)).creditOf peer host plane =
      (s.creditOf peer host plane).asking s.slot := by rw [State.creditOf_setCredit, if_pos hat]
  obtain ⟨hpeer, hhost, hplane⟩ := Credit.at_iff.mp hat
  rw [State.creditReq_eq, State.grantAll_of_dry ((s.setCredit_pool ..).trans hdry) ?_, hset]
  intro c hc hcat
  rw [hset]
  exact State.eq_of_mem_setCredit hc (by rw [hpeer, hhost, hplane]; exact hcat)

/-! #### A request alone -/

/-- After `j` grants to the one endpoint that has asked. -/
structure State.Granting (s : State) (plane : Nat) (c : Credit) (j : Nat) (t : State) : Prop where
  pool : t.pool plane = s.pool plane - j
  credits : t.fab.credits = [{ c with granted := j }]
  regs : t.regs = s.regs
  power : t.power = s.power
  fits : j ≤ s.pool plane

theorem State.Granting.creditOf {s t : State} {c : Credit} {j : Nat} (h : s.Granting c.plane c j t) :
    t.creditOf c.peer c.host c.plane = { c with granted := j } := by
  unfold State.creditOf
  rw [h.credits]
  simp

/-- A turn of the one endpoint: it gets a credit while the pool and its limit last. -/
theorem State.Granting.round {s t : State} {c : Credit} {j : Nat} (hrestore : s.power.restore = none)
    (h : s.Granting c.plane c j t) : s.Granting c.plane c
      (if j < s.pool c.plane ∧ j < s.grantMax c.plane then j + 1 else j) (State.grantRound c.plane [c] t) := by
  have hpool := h.pool
  have hlimit : t.grantLimit { c with granted := j } = s.grantMax c.plane := by
    unfold State.grantLimit State.grantMax
    rw [h.power, hrestore, reg_congr h.regs]
  unfold State.grantRound
  by_cases hdry : t.pool c.plane = 0
  · rw [if_pos hdry, if_neg (by omega)]
    exact h
  · rw [if_neg hdry, List.foldl_cons, List.foldl_nil]
    unfold State.grantOne
    rw [h.creditOf]
    dsimp only
    rw [hlimit]
    by_cases hmax : j < s.grantMax c.plane
    · have hcount : (if j < s.pool c.plane ∧ j < s.grantMax c.plane then j + 1 else j) = j + 1 := if_pos ⟨by omega, hmax⟩
      have hgrant : (decide (0 < t.pool c.plane) && decide (j < s.grantMax c.plane)) = true := by
        rw [decide_eq_true hmax, decide_eq_true (Nat.pos_of_ne_zero hdry)]
        rfl
      rw [hcount, if_pos hgrant]
      obtain ⟨l, he⟩ := (t.setPool c.plane (t.pool c.plane - 1)).setCredit_effect { c with granted := j + 1 }
      have hcredits : ((t.setPool c.plane (t.pool c.plane - 1)).setCredit { c with granted := j + 1 }).fab.credits =
          [{ c with granted := j + 1 }] := by
        have hlist : (t.setPool c.plane (t.pool c.plane - 1)).fab.credits = [{ c with granted := j }] := h.credits
        unfold State.setCredit
        rw [hlist]
        simp
      refine ⟨?_, hcredits, ?_, ?_, by omega⟩
      · rw [State.setCredit_pool]
        have hset : (t.setPool c.plane (t.pool c.plane - 1)).pool c.plane = t.pool c.plane - 1 :=
          (tget_tput ..).trans (if_pos rfl)
        omega
      · rw [he]
        exact h.regs
      · rw [he]
        exact h.power
    · have hcount : (if j < s.pool c.plane ∧ j < s.grantMax c.plane then j + 1 else j) = j := if_neg fun hc => hmax hc.2
      rw [hcount, if_neg (by simp [hmax])]
      exact h

/-- After `k` rounds the endpoint has what the pool and its limit allow. -/
theorem State.Granting.rounds {s : State} {c : Credit} (hrestore : s.power.restore = none)
    (h : s.Granting c.plane c 0 s) (k : Nat) : s.Granting c.plane c (min k (min (s.pool c.plane) (s.grantMax c.plane)))
      ((List.range k).foldl (fun t _ => State.grantRound c.plane [c] t) s) := by
  induction k with
  | zero => simpa using h
  | succ k ih =>
    rw [List.range_succ, List.foldl_append, List.foldl_cons, List.foldl_nil]
    have hround := ih.round hrestore
    have hcount : (if min k (min (s.pool c.plane) (s.grantMax c.plane)) < s.pool c.plane ∧
        min k (min (s.pool c.plane) (s.grantMax c.plane)) < s.grantMax c.plane
        then min k (min (s.pool c.plane) (s.grantMax c.plane)) + 1 else min k (min (s.pool c.plane) (s.grantMax c.plane))) =
          min (k + 1) (min (s.pool c.plane) (s.grantMax c.plane)) := by
      split <;> omega
    rw [hcount] at hround
    exact hround

theorem State.grantMax_le (s : State) (plane : Nat) : 1 ≤ s.grantMax plane ∧ s.grantMax plane < 256 := by
  have hfield : fieldOf (s.reg (Reg.FABRIC_CREDIT_CONFIG plane)) 7 0 < 256 := Nat.mod_lt _ (by decide)
  unfold State.grantMax
  omega

/-- The answer to the one endpoint: its entry no longer asks, the pool stays, and a CREDIT_GRANT waits. -/
theorem State.Granting.answer {s t : State} {c : Credit} {n : Nat} (h : s.Granting c.plane c n t) (hc : c.granted = 0)
    (hn : n ≠ 0) (hsmall : n < 256) :
    (State.answerGrant c.plane t c).creditOf c.peer c.host c.plane = { c with granted := n, wants := none } ∧
      (State.answerGrant c.plane t c).pool c.plane = t.pool c.plane ∧
      (State.answerGrant c.plane t c).Waits 7 c.peer (fun x => x.hdr.len.toNat = n) := by
  have hnow := h.creditOf
  unfold State.answerGrant
  extract_lets now m src rest v h'
  have hm : m = n := by
    show (t.creditOf c.peer c.host c.plane).granted - c.granted = n
    rw [hnow, hc]
    rfl
  rw [if_neg (by rw [hm]; exact hn)]
  have hv : v.fab = (rest.setCredit { now with wants := none }).fab := State.bump_fab ..
  refine ⟨?_, ?_, ?_⟩
  · rw [State.creditOf_congr (State.sendBare_credits ..), State.creditOf_congr (congrArg Fabric.credits hv),
      State.creditOf_setCredit]
    have hnow' : now = { c with granted := n } := hnow
    rw [hnow']
    exact if_pos (Credit.at_iff.mpr ⟨rfl, rfl, rfl⟩)
  · rw [State.sendBare_pool, ← show (rest.setCredit { now with wants := none }).pool c.plane = t.pool c.plane from
      State.setCredit_pool ..]
    exact congrArg (fun b : Fabric => tget 0 b.pool c.plane) hv
  · obtain ⟨tx, -, f, hf, b, hb, hsent, -, seq, hhdr⟩ := v.sendBare_effect (flowTo c.peer c.host c.plane 1 0)
      { h' with len := BitVec.ofNat 32 m, last := true }
    refine ⟨f, hf, b, hb, hsent, ?_, ?_, ?_⟩
    · exact congrArg Hdr.type hhdr
    · exact congrArg Hdr.dst hhdr
    · refine (congrArg (fun d : Hdr => d.len.toNat) hhdr).trans ?_
      rw [hm]
      exact (BitVec.toNat_ofNat ..).trans (Nat.mod_eq_of_lt (by omega))

/-- The first request of all: it gets what the pool and its limit allow, at once. -/
theorem State.creditReq_of_first {s : State} {peer plane : Nat} {host : Bool} (hnone : s.fab.credits = [])
    (hpool : 0 < s.pool plane) (hrestore : s.power.restore = none) :
    (s.creditReq peer host plane).creditOf peer host plane =
      ⟨peer, host, plane, 0, min (s.pool plane) (s.grantMax plane), none, none⟩ ∧
    (s.creditReq peer host plane).pool plane = s.pool plane - min (s.pool plane) (s.grantMax plane) ∧
    (s.creditReq peer host plane).Waits 7 peer (fun x => x.hdr.len.toNat = min (s.pool plane) (s.grantMax plane)) := by
  obtain ⟨hpos, hsmall⟩ := s.grantMax_le plane
  have hof : (s.creditOf peer host plane).asking s.slot = ⟨peer, host, plane, 0, 0, some s.slot, none⟩ := by
    unfold State.creditOf
    rw [hnone]
    rfl
  have hset : s.setCredit ⟨peer, host, plane, 0, 0, some s.slot, none⟩ =
      { s with fab := { s.fab with credits := [⟨peer, host, plane, 0, 0, some s.slot, none⟩] } } := by
    unfold State.setCredit
    rw [hnone]
    rfl
  have hstart : (s.setCredit ⟨peer, host, plane, 0, 0, some s.slot, none⟩).Granting plane
      ⟨peer, host, plane, 0, 0, some s.slot, none⟩ 0 (s.setCredit ⟨peer, host, plane, 0, 0, some s.slot, none⟩) := by
    rw [hset]
    exact ⟨rfl, rfl, rfl, rfl, Nat.zero_le _⟩
  have hmax : (s.setCredit ⟨peer, host, plane, 0, 0, some s.slot, none⟩).grantMax plane = s.grantMax plane := by
    rw [hset]
    rfl
  have hpool' : (s.setCredit ⟨peer, host, plane, 0, 0, some s.slot, none⟩).pool plane = s.pool plane := State.setCredit_pool ..
  have hwaiting : (s.setCredit ⟨peer, host, plane, 0, 0, some s.slot, none⟩).waitingOn plane =
      [⟨peer, host, plane, 0, 0, some s.slot, none⟩] := by
    rw [hset]
    simp [State.waitingOn]
  have hrestore' : (s.setCredit ⟨peer, host, plane, 0, 0, some s.slot, none⟩).power.restore = none := by
    rw [hset]
    exact hrestore
  have hrounds := State.Granting.rounds (c := ⟨peer, host, plane, 0, 0, some s.slot, none⟩) hrestore' hstart 1024
  dsimp only at hrounds
  rw [hpool', hmax, min_eq_right (show min (s.pool plane) (s.grantMax plane) ≤ 1024 by omega)] at hrounds
  have hanswer := State.Granting.answer (c := ⟨peer, host, plane, 0, 0, some s.slot, none⟩) hrounds rfl (by omega) (by omega)
  have he : s.creditReq peer host plane = State.answerGrant plane ((List.range 1024).foldl (fun t _ => State.grantRound plane
      [⟨peer, host, plane, 0, 0, some s.slot, none⟩] t) (s.setCredit ⟨peer, host, plane, 0, 0, some s.slot, none⟩))
        ⟨peer, host, plane, 0, 0, some s.slot, none⟩ := by
    rw [State.creditReq_eq, hof, State.grantAll_of_waiting hwaiting (List.cons_ne_nil _ _), List.foldl_cons, List.foldl_nil]
  rw [he]
  obtain ⟨hcredit, hleft, hwaits⟩ := hanswer
  exact ⟨hcredit, hleft.trans (hrounds.pool.trans (by rw [hpool'])), hwaits⟩

/-- What credits do to memory and the run: nothing. -/
theorem State.creditReq_kept (s : State) (peer : Nat) (host : Bool) (plane : Nat) :
    (s.creditReq peer host plane).mem = s.mem ∧ (s.creditReq peer host plane).run = s.run := by
  have h := State.creditReq_hide 65 rfl s peer host plane
  have hmem := kept_mem h rfl rfl
  exact ⟨hmem, kept_run h rfl⟩

theorem State.heard_kept (s : State) (r : Rx) (p : Peer) : (s.heard r p).mem = s.mem ∧ (s.heard r p).run = s.run ∧
    (s.heard r p).power = s.power ∧ (s.heard r p).clock = s.clock := by
  have h := s.heard_hide r p
  have hmem := kept_mem h rfl rfl
  exact ⟨hmem, kept_run h rfl, kept_power h rfl, kept_clock h rfl⟩

theorem State.heard_creditOf (s : State) (r : Rx) (p : Peer) (peer : Nat) (host : Bool) (plane : Nat) :
    (s.heard r p).creditOf peer host plane = s.creditOf peer host plane := by
  obtain ⟨peers, hfab⟩ := s.heard_fab r p
  exact State.creditOf_congr (by rw [hfab]) ..

theorem State.heard_pool (s : State) (r : Rx) (p : Peer) (plane : Nat) : (s.heard r p).pool plane = s.pool plane := by
  obtain ⟨peers, hfab⟩ := s.heard_fab r p
  unfold State.pool
  rw [hfab]

/-- Settles O44: requests and grants are heard frames; turns are followed one by one. -/
theorem creditCommands : Obligations.CreditCommands := by
  refine ⟨fun s r p hears hdry => ?dry, fun s r p hears hnone hpool hrestore => ?first, fun s r p hears => ?grant,
    fun s c hroom hnobody => ?back⟩
  case dry =>
    obtain ⟨hmem, hrun, -, hclock⟩ := s.heard_kept r p
    obtain ⟨hmem', hrun'⟩ := (s.heard r p).creditReq_kept r.hdr.src r.hdr.srcHost (r.port.val / 4)
    refine ⟨_, done_of_eq (State.receive_of_hears hears _), hmem'.trans hmem, hrun'.trans hrun, ?_⟩
    have hslot : (s.heard r p).slot = s.slot := by
      unfold State.slot State.phaseNat
      rw [hclock]
    rw [State.creditReq_of_dry (by rw [State.heard_pool, hdry]), State.heard_creditOf, hslot]
    rfl
  case first =>
    obtain ⟨-, -, hpower, -⟩ := s.heard_kept r p
    obtain ⟨peers, hfab⟩ := s.heard_fab r p
    have hmax : (s.heard r p).grantMax (r.port.val / 4) = s.grantMax (r.port.val / 4) := by
      unfold State.grantMax
      rw [s.heard_reg r p (by unfold Reg.FABRIC_CREDIT_CONFIG regAddr; omega)]
    obtain ⟨hcredit, hleft, hwaits⟩ := State.creditReq_of_first (s := s.heard r p) (peer := r.hdr.src) (host := r.hdr.srcHost)
      (plane := r.port.val / 4) (by rw [hfab]; exact hnone) (by rw [State.heard_pool]; exact hpool) (by rw [hpower, hrestore])
    rw [State.heard_pool, hmax] at hcredit hleft hwaits
    exact ⟨_, done_of_eq (State.receive_of_hears hears _), hcredit, hleft.trans (by omega), hwaits⟩
  case grant =>
    obtain ⟨hmem, hrun, -⟩ := s.heard_kept r p
    have hhide := State.creditGrant_hide 64 rfl (s.heard r p) r.hdr.src r.hdr.srcHost (r.port.val / 4) r.hdr.len.toNat
    have hmem' := kept_mem hhide rfl rfl
    have hof : ((s.heard r p).creditGrant r.hdr.src r.hdr.srcHost (r.port.val / 4) r.hdr.len.toNat).creditOf
        r.hdr.src r.hdr.srcHost (r.port.val / 4) = { s.creditOf r.hdr.src r.hdr.srcHost (r.port.val / 4) with
          held := (s.creditOf r.hdr.src r.hdr.srcHost (r.port.val / 4)).held + r.hdr.len.toNat, asked := none } := by
      unfold State.creditGrant
      rw [State.heard_creditOf]
      dsimp only
      rw [State.creditOf_setCredit]
      exact if_pos (s.creditOf_at ..)
    refine ⟨_, done_of_eq (State.receive_of_hears hears _), ?_, ?_, hmem'.trans hmem, (kept_run hhide rfl).trans hrun⟩
    · rw [hof]
    · rw [hof]
  case back =>
    have he := (if_pos hroom : (if s.pool c + s.grantedOn c < 1024 then (s.setPool c (s.pool c + 1)).grantAll c else s) = _).trans
      (State.grantAll_of_nobody (s := s.setPool c (s.pool c + 1)) hnobody)
    exact ⟨_, done_of_eq he, (tget_tput ..).trans (if_pos rfl), rfl, rfl⟩

end Sys2Proof.Machine

end

section

/-!
PTP and the phase (R28 to R30, R349, R350), and the start of a restore (R454, R455).
-/

namespace Sys2Proof.Machine

/-! ### Loss of the phase, slewing, exchanges -/

theorem State.phaseLost_of_long {s : State} (hhold : s.clock.holdover = true)
    (hlong : s.reg Reg.PHASE_HOLDOVER_LIMIT % 256 < s.clock.holdCount) : s.phaseLost =
      (s.raise { code := 0x0108, cls := clsPhase, inst := 0 }).setClock
        { s.clock with locked := false, holdover := false, holdCount := 0, goodRun := 0 } := by
  unfold State.phaseLost
  rw [hhold, decide_eq_true hlong]
  rfl

/-- A clock replaced leaves the log and the run. -/
theorem State.setClock_log (s : State) (c : Clock) : (s.setClock c).ctl.log = s.ctl.log ∧ (s.setClock c).run = s.run := ⟨rfl, rfl⟩

theorem find?_last_of_filter {α : Type} {p : α → Bool} {x : α} (l : List α) (hx : p x = true) :
    (l.filter (fun y => !p y) ++ [x]).find? p = some x := by
  have hnone : (l.filter (fun y => !p y)).find? p = none := by
    refine List.find?_eq_none.mpr fun y hy => ?_
    have := (List.mem_filter.mp hy).2
    simpa using this
  rw [List.find?_append, hnone, List.find?_cons_of_pos hx]
  rfl

theorem State.ptpHeard_iff {s : State} {p domain : Nat} :
    s.ptpHeard p domain = true ↔ s.portLive p = true ∧ s.ptpDomain p = domain := by
  unfold State.ptpHeard
  rw [Bool.and_eq_true, beq_iff_eq]

theorem State.ptpHeard_of_other {s : State} {p domain : Nat} (h : s.ptpDomain p ≠ domain) : s.ptpHeard p domain = false :=
  Bool.eq_false_iff.mpr fun hheard => h (State.ptpHeard_iff.mp hheard).2

/-- A stamp counts quarters of a nanosecond. -/
theorem stampOf_spec (x : Int) : stampOf x % 250 = 0 ∧ stampOf x ≤ x ∧ x < stampOf x + 250 := by
  unfold stampOf
  omega

/-- Settles O30: each is one update of the clock; PHASE_LOST is also a fault. -/
theorem phaseAndPtpCommands : Obligations.PhaseAndPtpCommands := by
  refine ⟨fun s hhold hlong hroom => ?lost, fun s htick hever hhold hslewed hcorr => ?slew,
    fun s p domain t1 t2 hlive hdomain => ?sync, fun s p domain t1 t2 t3 t4 hlive hdomain hdue hsync => ?resp,
    fun s p domain t1 t2 hother => ?other, fun s p htick hdue hlive => ?request, stampOf_spec,
    fun s p t1 t2 t3 t4 hepoch hasym hin hout => ?exchange⟩
  case lost =>
    refine ⟨_, done_of_eq (State.phaseLost_of_long hhold hlong), State.setClock_clock .., ?_, fun hruns => ?_⟩
    · exact (State.raise_shows _ _ false (by exact hroom)).imp fun x ⟨hcode, hcls, _, _, _, hphase⟩ => ⟨hcode, hcls, hphase⟩
    · rw [State.setClock_run, State.raise_stopped, hruns, Bool.or_true]
  case slew =>
    have he : s.slewNow = s.setClock { s.clock with
        slewed := some s.slot, slew := some (if 0 < s.clock.corr then 0 else 2),
        corr := if 0 < s.clock.corr then s.clock.corr - 10000 else s.clock.corr + 10000 } := by
      unfold State.slewNow
      dsimp only
      rw [decide_eq_true htick, hever, hhold, decide_eq_true hslewed, decide_eq_true hcorr]
      rfl
    exact ⟨_, done_of_eq he, rfl, rfl, rfl, rfl, rfl, rfl, rfl⟩
  case sync =>
    have he : s.syncSeen p domain t1 t2 = s.setClock { s.clock with
        sync := s.clock.sync.filter (fun x => x.port != p.val) ++ [⟨p, t1, stampOf t2⟩],
        delayDue := s.clock.delayDue.filter (· != p.val) ++ [p.val] } := if_pos (State.ptpHeard_iff.mpr ⟨hlive, hdomain⟩)
    refine ⟨_, done_of_eq he, ?_, fun x hx hport => ?_, ?_, rfl⟩
    · exact find?_last_of_filter (p := fun x : SyncSample => x.port == p.val) s.clock.sync (beq_self_eq_true _)
    · exact List.mem_append_left _ (List.mem_filter.mpr ⟨hx, by simpa using hport⟩)
    · exact List.mem_append_right _ (List.mem_singleton_self _)
  case resp =>
    have he : s.delaySeen p domain t3 t4 = s.setClock { s.clock with
        sync := s.clock.sync.filter (fun y => y.port != p.val),
        exch := s.clock.exch ++ [(p.val, s.exchange p t1 t2 (stampOf t3) t4)] } := by
      unfold State.delaySeen
      rw [if_pos (by rw [State.ptpHeard_iff.mpr ⟨hlive, hdomain⟩]; simpa using hdue), hsync]
    refine ⟨_, done_of_eq he, rfl, fun x hx => ?_⟩
    have := (List.mem_filter.mp hx).2
    simpa using this
  case other =>
    have hheard := State.ptpHeard_of_other hother
    refine ⟨done_of_eq ?_, done_of_eq ?_⟩
    · unfold State.syncSeen
      rw [hheard]
      rfl
    · unfold State.delaySeen
      rw [hheard]
      rfl
  case request =>
    obtain ⟨u, he, hout, hclear, hdomain⟩ : ∃ u : State, s.sendDelayReqs =
        u.emit (.delayReq p (u.ptpDomain p) 7 (Config.planeVlan (p.val / 4))) ∧ u.out = s.out ∧ u.clock.delayDue = [] ∧
        u.ptpDomain p = s.ptpDomain p := by
      unfold State.sendDelayReqs
      rw [if_pos htick, hdue, List.foldl_cons, List.foldl_nil]
      exact ⟨_, if_pos hlive, rfl, rfl, rfl⟩
    refine ⟨_, he, ?_, hclear⟩
    rw [hdomain, ← hout]
    rfl
  case exchange =>
    unfold State.exchange
    dsimp only
    rw [hepoch, hasym, hin, hout, show signedOf 32 0 = 0 by decide]
    simp only [Int.sub_zero, Int.zero_ediv, Int.add_zero]

/-! ### The start of a restore (R454, R455) -/

/-- The stream of a stack over its shards, and as it stands once its first headers are asked for. -/
def RestoreJob.fresh (left : List (Nat × Nat)) (st : Nat) : RestoreJob :=
  ⟨st, (left.filter (fun x => x.1 == st)).map (·.2), 0, [], [], 0, []⟩

def RestoreJob.asking (j : RestoreJob) : RestoreJob := { j with gen := 0, tried := [], headers := [[], []], asked := 0, got := [] }

/-- The streams of a restore, one for each stack that has shards. -/
def freshJobs (left : List (Nat × Nat)) (units : List Nat) : List RestoreJob :=
  units.filterMap (fun st => if (RestoreJob.fresh left st).left.isEmpty then none else some (RestoreJob.fresh left st))

theorem mem_freshJobs {left : List (Nat × Nat)} {units : List Nat} {j : RestoreJob} (h : j ∈ freshJobs left units) :
    j = RestoreJob.fresh left j.stack ∧ j.left ≠ [] := by
  obtain ⟨st, -, hst⟩ := List.mem_filterMap.mp h
  split at hst
  next => cases hst
  next hne =>
    cases hst
    exact ⟨rfl, fun hnil => hne (List.isEmpty_iff.mpr hnil)⟩

theorem State.restoreAll_eq (s : State) (src : Nat) (left : List (Nat × Nat)) : s.restoreAll src left =
    if (freshJobs left (List.range 12)).isEmpty then { s with power := { s.power with restoreDone := true } }
    else (freshJobs left (List.range 12)).foldl (fun t j => t.restoreOn j)
      (s.setRestore (some ⟨src, freshJobs left (List.range 12), false, 0⟩)) := rfl

/-- A restore goes on with these streams asking for their first headers: `done` lists their stacks. -/
structure State.Restoring (s : State) (src : Nat) (jobs : List RestoreJob) (done : List Nat) (t : State) : Prop where
  power : t.power = { s.power with
    restore := some ⟨src, jobs.map (fun j => if j.stack ∈ done then j.asking else j), false, 0⟩ }
  boot : t.boot = s.boot
  safety : t.safety = s.safety
  run : t.run = s.run
  mem : t.mem = s.mem

section
variable {s t : State} {src : Nat} {left : List (Nat × Nat)} {units done : List Nat} {j : RestoreJob}

/-- A stream with a shard whose place is known asks for its headers; nothing but the fabric changes besides. -/
theorem State.restoreOn_of_placed {shard : Nat} {rest : List Nat} (hleft : j.left = shard :: rest)
    (hgoes : t.restoreGoes = true) (hplace : (t.twinPlace j.stack shard).isSome = true) :
    (t.restoreOn j).hide 64 = (t.setJob j.asking).hide 64 := by
  obtain ⟨p, hp⟩ := Option.isSome_iff_exists.mp hplace
  have he : t.restoreOn j = [0, 1].foldl (fun t g => t.readFrom (64 * j.stack + 63) (p.gen g) 64
      (.headers j.stack shard g)) (t.setJob j.asking) := by
    unfold State.restoreOn
    rw [hleft]
    unfold State.nextShard
    dsimp only
    rw [hleft]
    dsimp only
    rw [if_neg (by simp [hgoes]), if_pos hplace]
    unfold State.askHeaders
    dsimp only
    rw [hp]
    unfold RestoreJob.asking
    rw [hleft]
  rw [he]
  exact foldl_hide _ _ _ _ fun _ _ => State.readFrom_hide 64 rfl ..

/-- One stream after another asks for its headers. -/
theorem State.Restoring.next (h : s.Restoring src (freshJobs left units) done t) (hj : j ∈ freshJobs left units)
    (hmutual : s.bindMutual = true) (hstop : s.safety.stop = false)
    (hplaces : ∀ x ∈ left, (s.twinPlace x.1 x.2).isSome = true) :
    s.Restoring src (freshJobs left units) (j.stack :: done) (t.restoreOn j) := by
  obtain ⟨hfresh, hne⟩ := mem_freshJobs hj
  obtain ⟨shard, rest, hleft⟩ := List.exists_cons_of_ne_nil hne
  have hshard : (j.stack, shard) ∈ left := by
    have hmem : shard ∈ j.left := by rw [hleft]; exact List.mem_cons_self
    rw [hfresh] at hmem
    obtain ⟨x, hx, rfl⟩ := List.mem_map.mp hmem
    obtain ⟨hx, hst⟩ := List.mem_filter.mp hx
    rw [← eq_of_beq hst]
    exact hx
  have hgoes : t.restoreGoes = true := by
    unfold State.restoreGoes State.bindMutual
    rw [h.boot, h.safety, h.power, hstop, show (s.boot.bind == BindState.bound && s.boot.confirmed) = true from hmutual]
    rfl
  have hplace : (t.twinPlace j.stack shard).isSome = true := by
    unfold State.twinPlace
    rw [h.run]
    exact hplaces _ hshard
  have hhide := State.restoreOn_of_placed hleft hgoes hplace
  have hmem := kept_mem hhide rfl rfl
  refine ⟨?_, (kept_boot hhide rfl).trans h.boot, (kept_safety hhide rfl).trans h.safety, (kept_run hhide rfl).trans h.run,
    hmem.trans h.mem⟩
  rw [kept_power hhide rfl]
  unfold State.setJob
  dsimp only
  rw [h.power]
  dsimp only
  rw [Option.map_some, List.map_map]
  have hjobs : (freshJobs left units).map ((fun x => if x.stack = j.asking.stack then j.asking else x) ∘
      (fun x => if x.stack ∈ done then x.asking else x)) =
        (freshJobs left units).map (fun x => if x.stack ∈ j.stack :: done then x.asking else x) := by
    refine List.map_congr_left fun x hx => ?_
    have hstack : (if x.stack ∈ done then x.asking else x).stack = x.stack := by split <;> rfl
    show (if (if x.stack ∈ done then x.asking else x).stack = j.stack then j.asking else _) = _
    rw [hstack]
    by_cases hsame : x.stack = j.stack
    · have hxj : x = j := by rw [(mem_freshJobs hx).1, hfresh, hsame]
      rw [if_pos hsame, if_pos (by rw [hsame]; exact List.mem_cons_self), hxj]
    · rw [if_neg hsame]
      by_cases hdone : x.stack ∈ done
      · rw [if_pos hdone, if_pos (List.mem_cons_of_mem _ hdone)]
      · rw [if_neg hdone, if_neg (by simp [hsame, hdone])]
  rw [hjobs]

theorem State.Restoring.all (hmutual : s.bindMutual = true) (hstop : s.safety.stop = false)
    (hplaces : ∀ x ∈ left, (s.twinPlace x.1 x.2).isSome = true) (l : List RestoreJob) (hl : ∀ j ∈ l, j ∈ freshJobs left units)
    (h : s.Restoring src (freshJobs left units) done t) :
    s.Restoring src (freshJobs left units) ((l.map (·.stack)).reverse ++ done) (l.foldl (fun t j => t.restoreOn j) t) := by
  induction l generalizing t done with
  | nil => exact h
  | cons j l ih =>
    have hnext := h.next (hl j List.mem_cons_self) hmutual hstop hplaces
    have hall := ih (fun x hx => hl x (List.mem_cons_of_mem _ hx)) hnext
    rw [List.foldl_cons, List.map_cons, List.reverse_cons, List.append_assoc]
    exact hall

end

theorem flatMap_range_single {α : Type} (m : List α) (n i : Nat) :
    (List.range n).flatMap (fun k => if k = i then m else []) = if i < n then m else [] := by
  induction n with
  | zero => rfl
  | succ n ih =>
    rw [List.range_succ, List.flatMap_append, ih, List.flatMap_cons, List.flatMap_nil, List.append_nil]
    by_cases h : i < n
    · rw [if_pos h, if_neg (by omega), if_pos (by omega), List.append_nil]
    · by_cases hi : n = i
      · rw [if_neg h, if_pos hi, if_pos (by omega), List.nil_append]
      · rw [if_neg h, if_neg hi, if_neg (by omega), List.nil_append]

/-- The streams of a stack have its shards, in order. -/
theorem freshJobs_left (left : List (Nat × Nat)) (units : List Nat) (f : RestoreJob → RestoreJob)
    (hf : ∀ j, (f j).stack = j.stack ∧ (f j).left = j.left) (i : Nat) :
    (((freshJobs left units).map f).filter (fun j => j.stack == i)).flatMap (·.left) =
      units.flatMap (fun k => if k = i then (left.filter (fun x => x.1 == i)).map (·.2) else []) := by
  induction units with
  | nil => rfl
  | cons k l ih =>
    obtain ⟨hstack, hleft⟩ := hf (RestoreJob.fresh left k)
    rw [List.flatMap_cons, ← ih]
    unfold freshJobs
    rw [List.filterMap_cons]
    split
    next hnone =>
      have hempty : (RestoreJob.fresh left k).left = [] := by
        by_contra hne
        rw [if_neg (by rw [List.isEmpty_iff]; exact hne)] at hnone
        cases hnone
      split
      next hk =>
        subst hk
        rw [show (left.filter (fun x => x.1 == k)).map (·.2) = [] from hempty, List.nil_append]
      next => rfl
    next j hsome =>
      obtain rfl : RestoreJob.fresh left k = j := by
        split at hsome
        · cases hsome
        · exact Option.some.inj hsome
      rw [List.map_cons]
      by_cases hk : k = i
      · subst hk
        rw [List.filter_cons_of_pos (by rw [hstack]; exact beq_self_eq_true k), List.flatMap_cons, hleft, if_pos rfl]
        rfl
      · rw [List.filter_cons_of_neg (by rw [hstack]; exact fun h => hk (eq_of_beq h)), if_neg hk, List.nil_append]

/-- The three words that a restore shows are set back. -/
def State.restoreWords (s : State) : State :=
  (((({ s with power := { s.power with restoreFailed := false, restoreDone := false } } : State).setReg
    Reg.POWER_RESTORE_OLDEST_STEP (2 ^ 32 - 1)).setReg Reg.POWER_RESTORE_NEWEST_STEP 0).setReg Reg.POWER_RESTORE_MIB 0)

theorem State.restoreWords_kept (s : State) : s.restoreWords.hide 1 =
    ({ s with power := { s.power with restoreFailed := false, restoreDone := false } } : State).hide 1 :=
  (State.setReg_hide 1 rfl ..).trans ((State.setReg_hide 1 rfl ..).trans (State.setReg_hide 1 rfl ..))

theorem State.restoreStart_of_allowed {s : State} {p : Plan} {b : Bool} {n : Nat} (hplan : s.run.plan = some p)
    (hstop : s.safety.stop = false) (hruns : s.planRuns = false) (harmed : s.boot.armed = none)
    (hrestore : s.power.restore = none) (hmutual : s.bindMutual = true)
    (hsrc : fieldOf (s.reg Reg.POWER_RESTORE_SOURCE) 11 0 = n) (htwin : s.twin = some n) :
    s.restoreStart b = s.restoreWords.restoreAll n (p.ownedShards.filter (fun x => !b || s.shardState x.1 x.2 == 6)) := by
  unfold State.restoreStart
  dsimp only
  rw [hplan, hsrc]
  dsimp only
  rw [if_neg (by simp [hstop, hruns, harmed, hrestore, hmutual, htwin])]
  rfl

theorem State.restoreStart_of_refused {s : State} {b : Bool} (hwhy : s.run.plan = none ∨ s.planRuns = true ∨
    s.boot.armed.isSome = true ∨ s.power.restore.isSome = true ∨ s.bindMutual = false ∨ s.safety.stop = true ∨
    s.twin ≠ some (fieldOf (s.reg Reg.POWER_RESTORE_SOURCE) 11 0)) :
    s.restoreStart b = s.event clsPower 0 evRefused Reg.POWER_RESTORE_CONTROL := by
  unfold State.restoreStart
  dsimp only
  cases hplan : s.run.plan with
  | none => rfl
  | some p =>
    refine if_pos ?_
    simp only [Bool.or_eq_true, Bool.not_eq_true', bne_iff_ne]
    rcases hwhy with h | h | h | h | h | h | h
    · rw [hplan] at h
      cases h
    all_goals simp [h]

/-- Settles O28: the streams are followed one after another. -/
theorem restoreCommands : Obligations.RestoreCommands := by
  refine ⟨fun s p b n shards hplan hstop hruns harmed hrestore hmutual hsrc htwin hshards hsome hplaces => ?starts,
    fun s b hwhy => ?refused, fun s r hr => ?aborts⟩
  case starts =>
    have hkept := s.restoreWords_kept
    have hmem : s.restoreWords.mem = s.mem := by
      have h := kept_mem hkept rfl rfl
      exact h
    have hrun : s.restoreWords.run = s.run := (kept_run hkept rfl).trans rfl
    have hboot : s.restoreWords.boot = s.boot := (kept_boot hkept rfl).trans rfl
    have hsafety : s.restoreWords.safety = s.safety := (kept_safety hkept rfl).trans rfl
    have hpower : s.restoreWords.power = { s.power with restoreFailed := false, restoreDone := false } := kept_power hkept rfl
    have hplaces' : ∀ x ∈ shards, (s.restoreWords.twinPlace x.1 x.2).isSome = true := fun x hx => by
      unfold State.twinPlace
      rw [hrun]
      exact (hplaces x hx).2
    have hmutual' : s.restoreWords.bindMutual = true := by
      unfold State.bindMutual
      rw [hboot]
      exact hmutual
    have hjobs : freshJobs shards (List.range 12) ≠ [] := by
      obtain ⟨x, rest, hx⟩ := List.exists_cons_of_ne_nil hsome
      have hmemx : x ∈ shards := by rw [hx]; exact List.mem_cons_self
      refine List.ne_nil_of_mem (a := RestoreJob.fresh shards x.1) (List.mem_filterMap.mpr ⟨x.1, ?_, if_neg ?_⟩)
      · exact List.mem_range.mpr (hplaces x hmemx).1
      · rw [List.isEmpty_iff]
        exact List.ne_nil_of_mem (List.mem_map.mpr ⟨x, List.mem_filter.mpr ⟨hmemx, beq_self_eq_true _⟩, rfl⟩)
    have hbegin : s.restoreWords.Restoring n (freshJobs shards (List.range 12)) []
        (s.restoreWords.setRestore (some ⟨n, freshJobs shards (List.range 12), false, 0⟩)) := by
      refine ⟨?_, rfl, rfl, rfl, rfl⟩
      simp only [List.not_mem_nil, if_false, List.map_id']
      rfl
    have hall := State.Restoring.all hmutual' (by rw [hsafety]; exact hstop) hplaces' (freshJobs shards (List.range 12))
      (fun j hj => hj) hbegin
    have hdone : (freshJobs shards (List.range 12)).map (fun j => if j.stack ∈
        ((freshJobs shards (List.range 12)).map (·.stack)).reverse ++ [] then j.asking else j) =
          (freshJobs shards (List.range 12)).map RestoreJob.asking := by
      refine List.map_congr_left fun j hj => if_pos ?_
      rw [List.append_nil, List.mem_reverse]
      exact List.mem_map_of_mem hj
    have he : s.restoreStart b = (freshJobs shards (List.range 12)).foldl (fun t j => t.restoreOn j)
        (s.restoreWords.setRestore (some ⟨n, freshJobs shards (List.range 12), false, 0⟩)) := by
      rw [State.restoreStart_of_allowed hplan hstop hruns harmed hrestore hmutual hsrc htwin, hshards, State.restoreAll_eq,
        if_neg (by rw [List.isEmpty_iff]; exact hjobs)]
    obtain ⟨htpower, -, -, htrun, htmem⟩ := hall
    rw [hdone, hpower] at htpower
    refine ⟨_, _, done_of_eq he, congrArg PowerState.restore htpower, rfl, rfl, rfl, fun i hi => ?_, fun j hj => ?_,
      congrArg PowerState.restoreDone htpower, congrArg PowerState.restoreFailed htpower, htmem.trans hmem, htrun.trans hrun⟩
    · refine (freshJobs_left shards (List.range 12) RestoreJob.asking (fun j => ⟨rfl, rfl⟩) i).trans ?_
      rw [flatMap_range_single, if_pos hi]
    · obtain ⟨x, hx, rfl⟩ := List.mem_map.mp hj
      exact ⟨(mem_freshJobs hx).2, rfl, rfl, rfl⟩
  case refused =>
    have hhide := State.event_hide 129 rfl s clsPower 0 evRefused Reg.POWER_RESTORE_CONTROL
    exact ⟨_, done_of_eq (State.restoreStart_of_refused hwhy), kept_power hhide rfl, kept_fab hhide rfl,
      State.event_raw s clsPower 0 _ (bit := evRefused) (by decide) (by decide)⟩
  case aborts =>
    refine done_of_eq ?_
    unfold State.restoreAbort
    rw [hr]
    rfl

end Sys2Proof.Machine

end

section

/-!
Queue control (R395 to R399): a read through the memory-side cache gives what the line's fill delivered, and the statement's
hypotheses do not exclude a line that was delivered wrong (R261).
-/

namespace Sys2Proof.Machine

/-- A queue pair with one entry to start, all of whose bytes are 0; the cached line that holds the entry was delivered with a 1
in its first byte. Its code words are sound. -/
def wrongEntryState : State := { State.reset with
  mem := { State.reset.mem with cache := [(0, ⟨[0], [], [], [], [(0, [(0, 1)])]⟩)] }
  ctl := { State.reset.ctl with queues := [(16, { QueuePair.reset with enable := true, sqExp := 1, cqExp := 1, sqTail := 1 })] } }

theorem wrongEntryState_clean : wrongEntryState.CleanStacks ∧ wrongEntryState.CleanCaches := by
  refine ⟨⟨rfl, rfl⟩, fun c hc => ?_, by decide +kernel⟩
  obtain rfl := List.mem_singleton.mp hc
  rfl

/-- The entry as it is stored: a SQ_NOP. -/
def nopEntry : List Word := List.replicate 16 0

theorem exec_submissionStart (q : Fin 4096) (s : State) : exec (.submissionStart q) s = .next (s.submissionStart q) :=
  done_of_eq rfl

/-- The entry read is not the one stored: it has a reserved bit, so that it completes at once with BAD_ARGUMENT. -/
theorem wrongEntryState_busy : ((wrongEntryState.submissionStart (16 : Fin 4096)).pair (16 : Fin 4096)).busy = [] := by
  decide +kernel

/-- Refutes O17: `wrongEntryState` meets the hypotheses of the last clause, and its entry is not in progress after the start. -/
theorem not_queueControlCommands : ¬ Obligations.QueueControlCommands := by
  rintro ⟨-, -, hstart⟩
  obtain ⟨hstacks, hcaches⟩ := wrongEntryState_clean
  obtain ⟨t, ht, hpair, -⟩ := hstart wrongEntryState 16 nopEntry (by decide +kernel) (by decide +kernel) hstacks hcaches
    (by decide +kernel) (by decide +kernel) (by decide +kernel) (by decide +kernel) (by decide +kernel) (by decide +kernel)
  obtain rfl := Host.Outcome.next.inj ((exec_submissionStart 16 wrongEntryState).symm.trans ht)
  have hbusy := congrArg QueuePair.busy hpair
  rw [wrongEntryState_busy] at hbusy
  exact List.cons_ne_nil _ _ ((List.append_eq_nil_iff.mp hbusy.symm).2)

end Sys2Proof.Machine

end

section

/-!
Staging of an image (R471 to R473): the die reads the image through the memory-side cache as any reader does, so that a line
that its fill delivered wrong (R261), which the statement's hypotheses do not exclude, is refused as a bad header.
-/

namespace Sys2Proof.Machine

/-- The header of an image of kind 4 with a body of 4 bytes. -/
def stagedHeader : List Byte :=
  leBytes 4 0x51464D57 ++ leBytes 4 (4 * 2 ^ 24 + 0x40 * 2 ^ 16) ++ leBytes 4 0 ++ leBytes 4 4 ++ List.replicate 496 0

/-- A sound image of 516 bytes at the start of HBM; the cached line of its first bytes was delivered with another magic. -/
def wrongHeaderState : State := { State.reset with
  regs := [(Reg.BOOT_STAGE_LENGTH, 516)]
  mem := { State.reset.mem with
    cells := setBytes [] 0 stagedHeader
    cache := [(0, ⟨[0], [], [], [], [(0, [(0, 1)])]⟩)] } }

theorem wrongHeaderState_clean : wrongHeaderState.CleanStacks ∧ wrongHeaderState.CleanCaches := by
  refine ⟨⟨rfl, rfl⟩, fun c hc => ?_, by decide +kernel⟩
  obtain rfl := List.mem_singleton.mp hc
  rfl

theorem exec_stageStart (k : Nat) (s : State) : exec (.stageStart k) s = .next (s.stageStart k) :=
  done_of_eq rfl

/-- The header read has another magic than the one stored, so that nothing is staged. -/
theorem wrongHeaderState_staging : (wrongHeaderState.stageStart 4).boot.staging = none := by
  decide +kernel

/-- Refutes O26: `wrongHeaderState` meets the hypotheses of the first clause, and nothing is staged. -/
theorem not_stagingCommands : ¬ Obligations.StagingCommands := by
  rintro ⟨hstart, -⟩
  obtain ⟨hstacks, hcaches⟩ := wrongHeaderState_clean
  obtain ⟨t, x, ht, hstaging, -⟩ := hstart wrongHeaderState 4 (wrongHeaderState.reg64 Reg.BOOT_STAGE_SRC_LO) stagedHeader rfl
    (by decide) (by decide) hstacks hcaches rfl (by decide +kernel) (by decide +kernel) (by decide +kernel) (by decide +kernel)
    (by decide +kernel) (by decide +kernel)
  obtain rfl := Host.Outcome.next.inj ((exec_stageStart 4 wrongHeaderState).symm.trans ht)
  cases wrongHeaderState_staging.symm.trans hstaging

end Sys2Proof.Machine

end

section

/-!
Memory without errors: in clean stacks a read by a base-die unit gives the bytes as they stand, and a write stores its bytes
and nothing else (R258, R262, R271). The second tier reads and takes bytes in the same way where its bursts come through
(R274 to R276).
-/

namespace Sys2Proof.Machine

/-- The counters of the merges of a stack and of the invalidations of its cache stand at this place of their blocks. -/
def storeCounter : Nat := 0x101C

/-- Bytes were stored: apart from them only cached lines and the counters of that place differ. -/
structure State.Stored (s t : State) (cells : List Host.Cell) : Prop where
  mem : ∃ c, t.mem = { s.mem with cells := cells, cache := c }
  rest : t.hide 49153 = s.hide 49153
  reg : ∀ a, a % 2 ^ 16 ≠ storeCounter → t.reg a = s.reg a

namespace State.Stored

theorem refl (s : State) : s.Stored s s.mem.cells := ⟨⟨_, rfl⟩, rfl, fun _ _ => rfl⟩

variable {s t u : State} {cs ds : List Host.Cell}

theorem cells (h : s.Stored t cs) : t.mem.cells = cs := by obtain ⟨c, hc⟩ := h.mem; rw [hc]

theorem clean (h : s.Stored t cs) (hs : s.CleanStacks) : t.CleanStacks := by
  obtain ⟨c, hc⟩ := h.mem
  unfold State.CleanStacks
  rw [hc]
  exact hs

theorem tier (h : s.Stored t cs) : t.mem.lpBad = s.mem.lpBad := by obtain ⟨c, hc⟩ := h.mem; rw [hc]

theorem trans (h : s.Stored t cs) (k : t.Stored u ds) : s.Stored u ds := by
  obtain ⟨c, hc⟩ := h.mem
  obtain ⟨d, hd⟩ := k.mem
  exact ⟨⟨d, by rw [hd, hc]⟩, k.rest.trans h.rest, fun a ha => (k.reg a ha).trans (h.reg a ha)⟩

theorem run (h : s.Stored t cs) : t.run = s.run := kept_run h.rest rfl
theorem ctl (h : s.Stored t cs) : t.ctl = s.ctl := kept_ctl h.rest rfl
theorem seps (h : s.Stored t cs) : t.seps = s.seps := kept_seps h.rest rfl
theorem upds (h : s.Stored t cs) : t.upds = s.upds := kept_upds h.rest rfl
theorem mirrors (h : s.Stored t cs) : t.mirrors = s.mirrors := kept_mirrors h.rest rfl
theorem fab (h : s.Stored t cs) : t.fab = s.fab := kept_fab h.rest rfl
theorem safety (h : s.Stored t cs) : t.safety = s.safety := kept_safety h.rest rfl
theorem power (h : s.Stored t cs) : t.power = s.power := kept_power h.rest rfl
theorem clock (h : s.Stored t cs) : t.clock = s.clock := kept_clock h.rest rfl
theorem sep (h : s.Stored t cs) (i : Nat) : t.sep i = s.sep i := by unfold State.sep; rw [h.seps]
theorem upd (h : s.Stored t cs) (i : Nat) : t.upd i = s.upd i := by unfold State.upd; rw [h.upds]

theorem journal (h : s.Stored t cs) (st sh : Nat) : t.journal st sh = s.journal st sh := by
  unfold State.journal
  rw [h.run]

end State.Stored

/-! ### The counters that a write moves -/

theorem bumpBy_stored (s : State) (a n : Nat) (ha : a % 2 ^ 16 = storeCounter) : s.Stored (s.bumpBy a n) s.mem.cells :=
  ⟨⟨s.mem.cache, State.bumpBy_mem ..⟩, State.bumpBy_hide _ rfl .., fun x hx =>
    (reg_bumpBy ..).trans (if_neg (by rintro rfl; exact hx ha))⟩

theorem invalidations_place (q : Nat) : Reg.MSC_INVALIDATIONS q % 2 ^ 16 = storeCounter := by
  unfold Reg.MSC_INVALIDATIONS regAddr storeCounter
  omega

theorem rmwUnits_place (i : Nat) : Reg.HBM_RMW_UNITS i % 2 ^ 16 = storeCounter := by
  unfold Reg.HBM_RMW_UNITS regAddr storeCounter
  omega

theorem setCache_stored (s : State) (q : Nat) (c : Cache) : s.Stored (s.setCache q c) s.mem.cells :=
  ⟨⟨_, rfl⟩, rfl, fun _ _ => rfl⟩

theorem invalidate_stored (s : State) (off n : Nat) : s.Stored (s.invalidate off n) s.mem.cells := by
  unfold State.invalidate
  split
  next => exact .refl s
  next =>
    extract_lets
    split
    · exact .refl s
    · exact (setCache_stored s _ _).trans (bumpBy_stored _ _ _ (invalidations_place _))

/-! ### Blocks -/

theorem encoded_clean {s : State} (h : s.CleanStacks) (blk : Nat) : s.encoded blk = s := by
  unfold State.encoded
  rw [h.2]
  split
  · rfl
  · rfl

theorem readBlockBy_clean {s : State} (h : s.CleanStacks) (bad : State → Nat → State) (blk : Nat) :
    s.readBlockBy bad blk = ⟨s, [], []⟩ := by
  have hstale : s.staleCode blk = false := by
    unfold State.staleCode
    rw [h.2]
    split
    · rfl
    · rfl
  unfold State.readBlockBy
  rw [hstale, h.1]
  rfl

theorem setCells_stored (s : State) (cs : List Host.Cell) : s.Stored (s.setCells cs) cs :=
  ⟨⟨_, rfl⟩, rfl, fun _ _ => rfl⟩

theorem writeBlock_stored {s : State} (h : s.CleanStacks) (off : Nat) (bs : List Byte) :
    s.Stored (s.writeBlock off bs) (setBytes s.mem.cells off bs) := by
  unfold State.writeBlock
  have hdel : tdel s.mem.errs (off / 64) = s.mem.errs := by rw [h.1]; rfl
  rw [hdel, encoded_clean (by exact h)]
  exact (setCells_stored s _).trans (invalidate_stored (s.setCells _) off bs.length)

/-! ### Runs of a stack -/

theorem readBlock_clean {s : State} (h : s.CleanStacks) (r : Reader) (blk : Nat) : s.readBlock r blk = ⟨s, [], []⟩ :=
  readBlockBy_clean h ..

theorem patch_nil (off : Nat) (bs : List Byte) : patch [] off bs = bs := if_pos rfl

theorem finishRead_clean (s : State) (off n : Nat) : finishRead ⟨s, [], []⟩ 0 off n = ⟨s, bytesAt s.mem.cells off n, none⟩ := by
  unfold finishRead
  rw [show firstBad [] off n = none from rfl]
  simp only [Nat.zero_add, patch_nil]

theorem readStack_clean {s : State} (h : s.CleanStacks) (r : Reader) (off n : Nat) :
    s.readStack r off n = ⟨s, bytesAt s.mem.cells off n, none⟩ := by
  unfold State.readStack
  by_cases hn : n = 0
  · subst hn
    exact if_pos rfl
  · rw [if_neg hn, h.1, h.2]
    exact finishRead_clean s off n

theorem readRuns_clean {s : State} (h : s.CleanStacks) (r : Reader) (runs : List (Nat × Nat)) :
    s.readRuns r runs = ⟨s, runs.map (fun x => bytesAt s.mem.cells x.1 x.2), false, 0⟩ := by
  suffices hfold : ∀ data, runs.foldl (fun (a : Runs) x =>
      if a.bad then a
      else
        let g := a.s.readStack r x.1 x.2
        ⟨g.s, a.data ++ [g.data], g.bad.isSome, match g.bad with
          | some u => g.s.zAddr 0 u
          | none => 0⟩) ⟨s, data, false, 0⟩ =
      ⟨s, data ++ runs.map (fun x => bytesAt s.mem.cells x.1 x.2), false, 0⟩ from hfold []
  induction runs with
  | nil => intro data; simp
  | cons x runs ih =>
    intro data
    rw [List.foldl_cons, if_neg Bool.false_ne_true, readStack_clean h, List.map_cons, List.append_cons]
    exact ih _

theorem readUnit_clean {s : State} (h : s.CleanStacks) (r : Reader) (off : Nat) : s.readUnit r off = ⟨s, [], []⟩ := by
  unfold State.readUnit
  extract_lets blk
  rw [readBlock_clean h, h.1]
  exact ite_self _

theorem mergeUnit_stored {s : State} (h : s.CleanStacks) (r : Reader) (off : Nat) :
    s.Stored (s.mergeUnit r off).1 s.mem.cells ∧ (s.mergeUnit r off).2 = none := by
  have hbump := bumpBy_stored s (Reg.HBM_RMW_UNITS (off / stackBytes)) 1 (rmwUnits_place _)
  unfold State.mergeUnit
  extract_lets u t c mine
  have hc : c = ⟨t, [], []⟩ := readUnit_clean (hbump.clean h) r off
  have hmine : mine = [] := by rw [show mine = List.filter _ c.wrong from rfl, hc]; rfl
  rw [hmine, hc]
  exact ⟨hbump, rfl⟩

theorem clearErrs_clean {s : State} (h : s.CleanStacks) (off n : Nat) : clearErrs s off n = s := by
  unfold clearErrs
  rw [h.1]
  exact congrArg (fun e => { s with mem := { s.mem with errs := e } }) h.1.symm

theorem encodeRun_clean {s : State} (h : s.CleanStacks) (off n : Nat) : s.encodeRun off n = s := by
  unfold State.encodeRun
  rw [h.2]
  exact if_pos rfl

theorem foldl_stored {α : Type} {f : State → α → State} (hf : ∀ (t : State) x, t.Stored (f t x) t.mem.cells) (l : List α) (s : State) :
    s.Stored (l.foldl f s) s.mem.cells := by
  induction l generalizing s with
  | nil => exact .refl s
  | cons x l ih =>
    have hx := hf s x
    exact hx.trans (hx.cells ▸ ih (f s x))

theorem updateLines_stored (s : State) (off n : Nat) : s.Stored (updateLines s off n) s.mem.cells := by
  unfold updateLines
  refine foldl_stored (fun t q => ?_) _ s
  extract_lets c
  split
  · exact .refl t
  · exact setCache_stored t q _

theorem storeHbm_stored {s : State} (h : s.CleanStacks) (off : Nat) (bs : List Byte) :
    s.Stored (s.storeHbm off bs) (setBytes s.mem.cells off bs) := by
  unfold State.storeHbm
  cases bs with
  | nil => exact .refl s
  | cons b bs =>
    rw [if_neg (by simp), clearErrs_clean h]
    have hlines := updateLines_stored s off (b :: bs).length
    have hset := hlines.trans (setCells_stored _ (setBytes s.mem.cells off (b :: bs)))
    rw [encodeRun_clean (hset.clean h)]
    exact hset

theorem writeHbm_stored {s : State} (h : s.CleanStacks) (r : Reader) (off : Nat) (bs : List Byte) :
    s.Stored (s.writeHbm r off bs).s (setBytes s.mem.cells off bs) ∧ (s.writeHbm r off bs).done = bs.length ∧
      (s.writeHbm r off bs).bad = none := by
  unfold State.writeHbm
  extract_lets n u0 last u1 p0 a p1 b
  have hstored : ∀ {t : State}, s.Stored t s.mem.cells → s.Stored (t.storeHbm off bs) (setBytes s.mem.cells off bs) := by
    intro t ht
    have := storeHbm_stored (ht.clean h) off bs
    rw [ht.cells] at this
    exact ht.trans this
  by_cases hn : n = 0
  · rw [if_pos hn]
    obtain rfl := List.length_eq_zero_iff.mp hn
    exact ⟨.refl s, rfl, rfl⟩
  · have ha : s.Stored a.1 s.mem.cells ∧ a.2 = none := by
      show s.Stored (if p0 then s.mergeUnit r off else (s, none)).1 _ ∧ (if p0 then s.mergeUnit r off else (s, none)).2 = none
      split
      · exact mergeUnit_stored h r off
      · exact ⟨.refl s, rfl⟩
    have hb : s.Stored b.1 s.mem.cells ∧ b.2 = none := by
      show s.Stored (if p1 then a.1.mergeUnit r last else (a.1, none)).1 _ ∧
        (if p1 then a.1.mergeUnit r last else (a.1, none)).2 = none
      split
      · obtain ⟨hm, hnone⟩ := mergeUnit_stored (ha.1.clean h) r last
        exact ⟨ha.1.trans (ha.1.cells ▸ hm), hnone⟩
      · exact ⟨ha.1, rfl⟩
    rw [if_neg hn, ha.2]
    simp only [hb.2]
    exact ⟨hstored hb.1, rfl, trivial⟩

theorem writeStack_stored {s : State} (h : s.CleanStacks) (r : Reader) (off : Nat) (bs : List Byte) :
    s.Stored (s.writeStack r off bs).s (setBytes s.mem.cells off bs) := by
  obtain ⟨hw, -, -⟩ := writeHbm_stored h r off bs
  have := invalidate_stored (s.writeHbm r off bs).s off (s.writeHbm r off bs).done
  exact hw.trans (hw.cells ▸ this)

theorem writeRuns_stored {s : State} (h : s.CleanStacks) (r : Reader) (ws : List (Nat × List Byte)) :
    s.Stored (s.writeRuns r ws) (stores s.mem.cells ws) := by
  unfold State.writeRuns stores
  induction ws generalizing s with
  | nil => exact .refl s
  | cons w ws ih =>
    have hw := writeStack_stored h r w.1 w.2
    rw [List.foldl_cons, List.foldl_cons]
    have := ih (hw.clean h)
    rw [hw.cells] at this
    exact hw.trans this

theorem zeroStack_stored {s : State} (h : s.CleanStacks) (r : Reader) (off n : Nat) :
    s.Stored (s.zeroStack r off n) (if n = 0 then s.mem.cells else zeroBytes s.mem.cells off n) := by
  unfold State.zeroStack
  split
  · exact .refl s
  · next hn =>
    extract_lets last u t
    have ht : s.Stored t s.mem.cells := by
      show s.Stored (if (last + 1) % u = 0 then s else (s.mergeUnit r last).1) _
      split
      · exact .refl s
      · exact (mergeUnit_stored h r last).1
    rw [clearErrs_clean (ht.clean h), ht.cells]
    have hlines := ht.trans (updateLines_stored t off n)
    have hset := hlines.trans (setCells_stored _ (zeroBytes s.mem.cells off n))
    rw [encodeRun_clean (hset.clean h)]
    have := invalidate_stored ((updateLines t off n).setCells (zeroBytes s.mem.cells off n)) off n
    exact hset.trans this

end Sys2Proof.Machine

end

section

/-!
The shards' journals in clean stacks (R303): a change of a word of an entry changes that word and no byte outside the entry.
-/

namespace Sys2Proof.Machine

/-! ### Runs of bytes -/

theorem length_bytesAt (cs : List Host.Cell) (a n : Nat) : (bytesAt cs a n).length = n := by
  rw [bytesAt_eq, List.length_map, List.length_range]

theorem getElem?_bytesAt (cs : List Host.Cell) (a n i : Nat) :
    (bytesAt cs a n)[i]? = if i < n then some (byteAt cs (a + i)) else none := by
  rw [bytesAt_eq, List.getElem?_map]
  split
  · next h => rw [List.getElem?_range h]; rfl
  · next h => rw [List.getElem?_eq_none (by simpa using h)]; rfl

theorem bytesAt_congr {cs ds : List Host.Cell} {a n : Nat} (h : ∀ i < n, byteAt cs (a + i) = byteAt ds (a + i)) :
    bytesAt cs a n = bytesAt ds a n := by
  rw [bytesAt_eq, bytesAt_eq]
  exact List.map_congr_left fun i hi => h i (List.mem_range.mp hi)

/-- A run within a run that was written. -/
theorem bytesAt_setBytes_within (cs : List Host.Cell) (a : Nat) {bs : List Byte} {k n : Nat} (h : k + n ≤ bs.length) :
    bytesAt (setBytes cs a bs) (a + k) n = (bs.drop k).take n := by
  refine List.ext_getElem? fun i => ?_
  rw [getElem?_bytesAt, List.getElem?_take, List.getElem?_drop]
  split
  · rw [byteAt_setBytes, if_pos (by omega), show a + k + i - a = k + i by omega,
      List.getD_eq_getElem _ _ (by omega), List.getElem?_eq_getElem (by omega)]
  · rfl

theorem bytesAt_setBytes_self (cs : List Host.Cell) (a : Nat) (bs : List Byte) :
    bytesAt (setBytes cs a bs) a bs.length = bs := by
  have h := bytesAt_setBytes_within cs a (bs := bs) (k := 0) (n := bs.length) (by omega)
  simpa using h

theorem leNat_leBytes (n x : Nat) : leNat (leBytes n x) = x % 2 ^ (8 * n) := by
  induction n generalizing x with
  | zero => simp [leBytes, leNat, Nat.mod_one]
  | succ n ih =>
    rw [leBytes, leNat, ih, BitVec.toNat_ofNat, show 8 * (n + 1) = 8 + 8 * n by omega, pow_add, Nat.mod_mul, show (2 : Nat) ^ 8 = 256 from rfl]

theorem leNat_lt (bs : List Byte) : leNat bs < 2 ^ (8 * bs.length) := by
  induction bs with
  | nil => simp [leNat]
  | cons b bs ih =>
    have hb := b.isLt
    rw [leNat, List.length_cons, show 8 * (bs.length + 1) = 8 + 8 * bs.length by omega, pow_add]
    omega

theorem natAt_lt (cs : List Host.Cell) (a n : Nat) : natAt cs a n < 2 ^ (8 * n) := by
  have h := leNat_lt (bytesAt cs a n)
  rwa [length_bytesAt] at h

theorem natAt_congr {cs ds : List Host.Cell} {a n : Nat} (h : ∀ i < n, byteAt cs (a + i) = byteAt ds (a + i)) :
    natAt cs a n = natAt ds a n := congrArg leNat (bytesAt_congr h)

/-! ### Entries -/

/-- An entry with one of its words replaced. -/
def withWord (entry : List Byte) (w v : Nat) : List Byte :=
  entry.take (4 * w) ++ leBytes 4 v ++ entry.drop (4 * w + 4)

theorem length_withWord {entry : List Byte} {w : Nat} (h : 4 * w + 4 ≤ entry.length) (v : Nat) :
    (withWord entry w v).length = entry.length := by
  unfold withWord
  rw [List.length_append, List.length_append, List.length_take, List.length_drop, length_leBytes]
  omega

theorem word_withWord_self {entry : List Byte} {w : Nat} (h : 4 * w + 4 ≤ entry.length) (v : Nat) :
    ((withWord entry w v).drop (4 * w)).take 4 = leBytes 4 v := by
  have hlen : (entry.take (4 * w)).length = 4 * w := by rw [List.length_take]; omega
  unfold withWord
  rw [List.append_assoc, List.drop_append_of_le_length (by omega), List.drop_of_length_le (by omega), List.nil_append,
    List.take_append_of_le_length (by rw [length_leBytes]), List.take_of_length_le (by rw [length_leBytes])]

theorem getElem?_withWord {entry : List Byte} {w i : Nat} (h : 4 * w + 4 ≤ entry.length) (v : Nat)
    (hi : i < 4 * w ∨ 4 * w + 4 ≤ i) : (withWord entry w v)[i]? = entry[i]? := by
  have hlen : (entry.take (4 * w)).length = 4 * w := by rw [List.length_take]; omega
  have hword := length_leBytes 4 v
  unfold withWord
  rw [List.append_assoc]
  by_cases hlt : i < 4 * w
  · rw [List.getElem?_append_left (by omega), List.getElem?_take, if_pos hlt]
  · rw [List.getElem?_append_right (by omega), List.getElem?_append_right (by omega), List.getElem?_drop]
    congr 1
    omega

theorem word_withWord_ne {entry : List Byte} {w u : Nat} (h : 4 * w + 4 ≤ entry.length) (v : Nat) (hu : u ≠ w) :
    ((withWord entry w v).drop (4 * u)).take 4 = (entry.drop (4 * u)).take 4 := by
  refine List.ext_getElem? fun i => ?_
  rw [List.getElem?_take, List.getElem?_take, List.getElem?_drop, List.getElem?_drop]
  split
  · exact getElem?_withWord h v (by omega)
  · rfl

theorem word_bytesAt (cs : List Host.Cell) (a : Nat) {w : Nat} (hw : w < 16) :
    leNat (((bytesAt cs a 64).drop (4 * w)).take 4) = natAt cs (a + 4 * w) 4 := by
  unfold natAt
  refine congrArg leNat (List.ext_getElem? fun i => ?_)
  rw [List.getElem?_take, List.getElem?_drop, getElem?_bytesAt, getElem?_bytesAt]
  split
  · rw [if_pos (by omega), Nat.add_assoc]
  · rfl

/-! ### Edits -/

variable {s t : State} {cs : List Host.Cell}

theorem journal_congr (h : t.run.plan = s.run.plan) (st sh : Nat) : t.journal st sh = s.journal st sh := by
  unfold State.journal
  rw [h]

theorem journalWord_congr (hj : t.run.plan = s.run.plan) (hc : t.mem.cells = s.mem.cells) (st sh w : Nat) :
    t.journalWord st sh w = s.journalWord st sh w := by
  unfold State.journalWord
  rw [journal_congr hj, hc]

theorem shardState_congr (hj : t.run.plan = s.run.plan) (hc : t.mem.cells = s.mem.cells) (st sh : Nat) :
    t.shardState st sh = s.shardState st sh := by
  unfold State.shardState
  rw [journalWord_congr hj hc]

theorem journalWord_of_some {st sh a : Nat} (h : s.journal st sh = some a) (w : Nat) :
    s.journalWord st sh w = natAt s.mem.cells (a + 4 * w) 4 := by
  unfold State.journalWord
  rw [h]

theorem journalWord_lt (s : State) (st sh w : Nat) : s.journalWord st sh w < 2 ^ 32 := by
  unfold State.journalWord
  split
  · exact natAt_lt ..
  · decide

/-- The cells after a word of a shard's entry was changed; none changes when the plan has no journal for it. -/
def State.editedCells (s : State) (st sh w : Nat) (f : Nat → Nat) : List Host.Cell :=
  match s.journal st sh with
  | none => s.mem.cells
  | some a => setBytes s.mem.cells a (withWord (bytesAt s.mem.cells a 64) w (f (s.journalWord st sh w)))

theorem editJournal_stored (h : s.CleanStacks) (st sh : Nat) {w : Nat} (hw : w < 16) (f : Nat → Nat) :
    s.Stored (s.editJournal st sh w f) (s.editedCells st sh w f) := by
  unfold State.editJournal State.editedCells
  cases hj : s.journal st sh with
  | none => exact .refl s
  | some a =>
    simp only [readBlockBy_clean h]
    rw [if_pos (by rfl), patch_nil, word_bytesAt _ _ hw, ← journalWord_of_some hj]
    exact writeBlock_stored h ..

/-- An edit of one word changes that word alone. -/
theorem journalWord_editJournal (h : s.CleanStacks) (st sh : Nat) {w u : Nat} (hw : w < 16) (hu : u < 16) (f : Nat → Nat) :
    (s.editJournal st sh w f).journalWord st sh u =
      if (s.journal st sh).isSome ∧ u = w then f (s.journalWord st sh w) % 2 ^ 32 else s.journalWord st sh u := by
  have hs := editJournal_stored h st sh hw f
  cases hj : s.journal st sh with
  | none =>
    have hcells := hs.cells
    unfold State.editedCells at hcells
    rw [hj] at hcells
    rw [if_neg (by simp)]
    exact journalWord_congr (congrArg RunState.plan hs.run) hcells ..
  | some a =>
    have hlen := length_bytesAt s.mem.cells a 64
    have hcells := hs.cells
    unfold State.editedCells at hcells
    rw [hj] at hcells
    rw [journalWord_of_some ((hs.journal st sh).trans hj), hcells, natAt,
      bytesAt_setBytes_within _ _ (by rw [length_withWord (by omega)]; omega)]
    by_cases huw : u = w
    · subst huw
      rw [word_withWord_self (by omega), leNat_leBytes, if_pos ⟨rfl, rfl⟩]
    · rw [word_withWord_ne (by omega) _ huw, word_bytesAt _ _ hu, if_neg (fun hc => huw hc.2), journalWord_of_some hj]

theorem setJournal_stored (h : s.CleanStacks) (st sh : Nat) {w : Nat} (hw : w < 16) (hi lo v : Nat) :
    s.Stored (s.setJournal st sh w hi lo v) (s.editedCells st sh w (fun x => setField x hi lo v)) :=
  editJournal_stored h st sh hw _

theorem setJournalWord_stored (h : s.CleanStacks) (st sh : Nat) {w : Nat} (hw : w < 16) (v : Nat) :
    s.Stored (s.setJournalWord st sh w v) (s.editedCells st sh w (fun _ => v)) :=
  editJournal_stored h st sh hw _

theorem setState_stored (h : s.CleanStacks) (st sh v : Nat) :
    s.Stored (s.setState st sh v) (s.editedCells st sh 0 (fun x => setField x 21 18 v)) :=
  setJournal_stored h st sh (by decide) 21 18 v

theorem journalWord_setJournal (h : s.CleanStacks) (st sh : Nat) {w u : Nat} (hw : w < 16) (hu : u < 16) (lo n v : Nat)
    (hlo : lo + n < 32) : (s.setJournal st sh w (lo + n) lo v).journalWord st sh u =
      if (s.journal st sh).isSome ∧ u = w then setField (s.journalWord st sh w) (lo + n) lo v else s.journalWord st sh u := by
  have he := journalWord_editJournal h st sh hw hu (fun x => setField x (lo + n) lo v)
  rw [Nat.mod_eq_of_lt (setField_lt (journalWord_lt ..) lo n v hlo)] at he
  exact he

theorem journalWord_setState (h : s.CleanStacks) (st sh v : Nat) {u : Nat} (hu : u < 16) :
    (s.setState st sh v).journalWord st sh u =
      if (s.journal st sh).isSome ∧ u = 0 then setField (s.journalWord st sh 0) 21 18 v else s.journalWord st sh u :=
  journalWord_setJournal h st sh (by decide) hu 18 3 v (by decide)

theorem shardState_setState (h : s.CleanStacks) {st sh v : Nat} (hj : (s.journal st sh).isSome = true) (hv : v < 16) :
    (s.setState st sh v).shardState st sh = v := by
  unfold State.shardState
  rw [journalWord_setState h st sh v (by decide), if_pos ⟨hj, rfl⟩]
  exact (fieldOf_setField _ 18 3 v).trans (Nat.mod_eq_of_lt hv)

/-- An edit changes no byte outside the shard's entry. -/
theorem byteAt_editJournal (h : s.CleanStacks) (st sh : Nat) {w : Nat} (hw : w < 16) (f : Nat → Nat) {x : Nat}
    (hx : ∀ j ∈ s.journal st sh, ¬ (j ≤ x ∧ x < j + 64)) :
    byteAt (s.editJournal st sh w f).mem.cells x = byteAt s.mem.cells x := by
  rw [(editJournal_stored h st sh hw f).cells]
  unfold State.editedCells
  cases hj : s.journal st sh with
  | none => rfl
  | some a =>
    dsimp only
    rw [byteAt_setBytes, length_withWord (by rw [length_bytesAt]; omega), length_bytesAt, if_neg (hx a hj)]

/-! ### What engines do to a shard's entry -/

/-- A state that follows by edits of one shard's entry, with the words it now holds. -/
structure State.Edited (s t : State) (st sh : Nat) (word : Nat → Nat) : Prop where
  stored : ∃ cs, s.Stored t cs
  word : ∀ w < 16, t.journalWord st sh w = word w
  other : ∀ x, (∀ j ∈ s.journal st sh, ¬ (j ≤ x ∧ x < j + 64)) → byteAt t.mem.cells x = byteAt s.mem.cells x

/-- The words of an entry, one of them changed where the shard has an entry. -/
def State.editWord (s : State) (st sh : Nat) (word : Nat → Nat) (w : Nat) (f : Nat → Nat) (u : Nat) : Nat :=
  if (s.journal st sh).isSome ∧ u = w then f (word w) % 2 ^ 32 else word u

namespace State.Edited

variable {st sh : Nat} {word : Nat → Nat}

theorem refl (s : State) (st sh : Nat) : s.Edited s st sh (s.journalWord st sh) :=
  ⟨⟨_, .refl s⟩, fun _ _ => rfl, fun _ _ => rfl⟩

theorem edit (e : s.Edited t st sh word) (h : s.CleanStacks) {w : Nat} (hw : w < 16) (f : Nat → Nat) :
    s.Edited (t.editJournal st sh w f) st sh (s.editWord st sh word w f) := by
  obtain ⟨cs, hcs⟩ := e.stored
  have ht := hcs.clean h
  refine ⟨⟨_, hcs.trans (editJournal_stored ht st sh hw f)⟩, fun u hu => ?_, fun x hx => ?_⟩
  · rw [journalWord_editJournal ht st sh hw hu, hcs.journal, e.word w hw, e.word u hu]
    rfl
  · rw [byteAt_editJournal ht st sh hw f (by rw [hcs.journal]; exact hx)]
    exact e.other x hx

end State.Edited

end Sys2Proof.Machine

end

section

/-!
The twin mirror (R311 to R314, R371 to R373): what the end of a mirror leaves in the journal and the counters.
-/

namespace Sys2Proof.Machine

variable {s t : State}

/-! ### Words and fields of an entry -/

theorem State.editWord_self {st sh : Nat} (hj : (s.journal st sh).isSome = true) (word : Nat → Nat) (w : Nat) (f : Nat → Nat) :
    s.editWord st sh word w f w = f (word w) % 2 ^ 32 := if_pos ⟨hj, rfl⟩

theorem State.editWord_ne {st sh w u : Nat} (hu : u ≠ w) (word : Nat → Nat) (f : Nat → Nat) :
    s.editWord st sh word w f u = word u := if_neg fun h => hu h.2

theorem bitOf_setField_bit (x k v i : Nat) : bitOf (setField x k k v) i = if i = k then bitOf v 0 else bitOf x i := by
  rw [show setField x k k v = setField x (k + 0) k v from rfl, bitOf_setField]
  by_cases hi : i = k
  · rw [if_pos (by omega), if_pos hi, hi, Nat.sub_self]
  · rw [if_neg (by omega), if_neg hi]

theorem fieldOf_setField_bit (x k v lo n : Nat) (hk : k < lo ∨ lo + n < k) :
    fieldOf (setField x k k v) (lo + n) lo = fieldOf x (lo + n) lo := by
  refine fieldOf_ext fun i hi => ?_
  rw [bitOf_setField_bit, if_neg (by omega)]

/-! ### Commands that end -/

/-- The registers in which a base die tells of its commands. -/
def commandRegs (cls st : Nat) : List Nat :=
  if cls = clsSep then [Reg.SEP_COMMANDS st, Reg.SEP_CMD_STATUS st, Reg.SEP_CMD_FAULT_ADDR st]
  else [Reg.UPD_COMMANDS st, Reg.UPD_CMD_STATUS st, Reg.UPD_CMD_FAULT_ADDR st]

/-- Commands ended: what requests wait for and what the host reads of them may have changed. -/
structure State.Told (s t : State) (cls st : Nat) : Prop where
  rest : t.hide 5 = s.hide 5
  plan : t.run.plan = s.run.plan
  reg : ∀ a, a ∉ commandRegs cls st → t.reg a = s.reg a

theorem State.Told.trans {u : State} {cls st : Nat} (h : s.Told t cls st) (k : t.Told u cls st) : s.Told u cls st :=
  ⟨k.rest.trans h.rest, k.plan.trans h.plan, fun a ha => (k.reg a ha).trans (h.reg a ha)⟩

theorem State.Told.mem {cls st : Nat} (h : s.Told t cls st) : t.mem = s.mem := kept_mem h.rest rfl rfl

theorem hostDone_reg (s : State) (cls inst code addr : Nat) {a : Nat} (ha : a ∉ commandRegs cls inst) :
    (s.hostDone cls inst code addr).reg a = s.reg a := by
  unfold State.hostDone commandRegs at *
  split at ha
  all_goals
    next h =>
      simp only [List.mem_cons, List.not_mem_nil, or_false, not_or] at ha
      obtain ⟨-, hstatus, haddr⟩ := ha
      simp only [h, if_true, if_false]
      rw [reg_setReg_ne _ _ _ _ haddr, reg_setReg_ne _ _ _ _ hstatus]

theorem cmdEnd_told (s : State) (cls st : Nat) (c : BaseCmd) (code addr : Nat) :
    s.Told (s.cmdEnd cls st c code addr) cls st := by
  have hrest := State.cmdEnd_hide 5 rfl s cls st c code addr
  have hbump : ∀ a, a ∉ commandRegs cls st →
      (s.bump (if cls = clsSep then Reg.SEP_COMMANDS st else Reg.UPD_COMMANDS st)).reg a = s.reg a := by
    intro a ha
    refine (reg_bump ..).trans (if_neg ?_)
    unfold commandRegs at ha
    rintro rfl
    split at ha
    · simp at ha
    · simp at ha
  have hplan : (s.bump (if cls = clsSep then Reg.SEP_COMMANDS st else Reg.UPD_COMMANDS st)).run = s.run := State.bump_run ..
  unfold State.cmdEnd at hrest ⊢
  generalize s.bump (if cls = clsSep then Reg.SEP_COMMANDS st else Reg.UPD_COMMANDS st) = b at *
  refine ⟨hrest, ?_, fun a ha => ?_⟩
  · split
    · exact congrArg RunState.plan ((kept_run (State.hostDone_hide 1 rfl ..) rfl).trans hplan)
    · exact congrArg RunState.plan hplan
    · split
      · exact (congrArg RunState.plan hplan :)
      · exact congrArg RunState.plan hplan
  · split
    · exact (hostDone_reg _ _ _ _ _ ha).trans (hbump a ha)
    · exact hbump a ha
    · split
      · exact hbump a ha
      · exact hbump a ha

theorem cmdEnds_told (s : State) (cls st : Nat) (cs : List BaseCmd) :
    s.Told (cs.foldl (fun t c => t.cmdEnd cls st c 0 0) s) cls st := by
  induction cs generalizing s with
  | nil => exact ⟨rfl, rfl, fun _ _ => rfl⟩
  | cons c cs ih => exact (cmdEnd_told s cls st c 0 0).trans (ih _)

/-! ### The journal at the end of a mirror -/

theorem State.epochOf_eq {st sh e : Nat} (h1 : s.journalWord st sh 1 = e % 2 ^ 32) (h2 : s.journalWord st sh 2 = e / 2 ^ 32) :
    s.epochOf st sh = e := by
  unfold State.epochOf
  rw [h1, h2]
  exact Nat.mod_add_div e (2 ^ 32)

/-- The shard's entry with another epoch and step. -/
def State.withEpochStep (s : State) (st sh e step : Nat) : State := (s.setEpoch st sh e).setJournalWord st sh 3 step

/-- The shard's entry with a mirror's epoch and step. -/
def State.withMirror (s : State) (m : Mirror) : State := s.withEpochStep m.stack m.shard m.epoch.toNat m.step

/-- The shard's entry once an update's mirror has committed it. -/
def State.committedEntry (s : State) (m : Mirror) : State :=
  if (s.withMirror m).shardState m.stack m.shard = 5 then (s.withMirror m).setState m.stack m.shard 0 else s.withMirror m

theorem mirrorCommits_eq {m : Mirror} (hsep : m.sep = false) :
    s.mirrorCommits m = (s.committedEntry m).forget m.stack m.shard := if_neg (by simp [hsep])

/-- The words of an entry with another epoch and step. -/
def State.epochStepWords (s : State) (st sh e step : Nat) : Nat → Nat :=
  s.editWord st sh (s.editWord st sh (s.editWord st sh (s.journalWord st sh) 1 (fun _ => e % 2 ^ 32))
    2 (fun _ => e / 2 ^ 32 % 2 ^ 32)) 3 (fun _ => step)

theorem withEpochStep_edited (h : s.CleanStacks) (st sh e step : Nat) :
    s.Edited (s.withEpochStep st sh e step) st sh (s.epochStepWords st sh e step) := by
  unfold State.withEpochStep State.setEpoch State.setJournalWord State.epochStepWords
  exact (((State.Edited.refl s st sh).edit h (by decide) _).edit h (by decide) _).edit h (by decide) _

theorem withEpochStep_words (h : s.CleanStacks) {st sh : Nat} (e step : Nat) (hj : (s.journal st sh).isSome = true) :
    (s.withEpochStep st sh e step).journalWord st sh 1 = e % 2 ^ 32 ∧
      (s.withEpochStep st sh e step).journalWord st sh 2 = e / 2 ^ 32 % 2 ^ 32 ∧
      (s.withEpochStep st sh e step).journalWord st sh 3 = step % 2 ^ 32 ∧
      (s.withEpochStep st sh e step).journalWord st sh 0 = s.journalWord st sh 0 := by
  have hed := withEpochStep_edited h st sh e step
  rw [hed.word 1 (by decide), hed.word 2 (by decide), hed.word 3 (by decide), hed.word 0 (by decide)]
  unfold State.epochStepWords
  refine ⟨?_, ?_, ?_, ?_⟩
  · rw [State.editWord_ne (by decide), State.editWord_ne (by decide), State.editWord_self hj, Nat.mod_mod]
  · rw [State.editWord_ne (by decide), State.editWord_self hj, Nat.mod_mod]
  · rw [State.editWord_self hj]
  · rw [State.editWord_ne (by decide), State.editWord_ne (by decide), State.editWord_ne (by decide)]

/-- What a mirror of the update engine leaves in the shard's entry when it commits. -/
structure State.Committed (s t : State) (m : Mirror) : Prop where
  epochLo : t.journalWord m.stack m.shard 1 = m.epoch.toNat % 2 ^ 32
  epochHi : t.journalWord m.stack m.shard 2 = m.epoch.toNat / 2 ^ 32
  step : t.journalWord m.stack m.shard 3 = m.step % 2 ^ 32
  state : s.shardState m.stack m.shard = 5 → t.shardState m.stack m.shard = 0

theorem committedEntry_stored (h : s.CleanStacks) (m : Mirror) : ∃ cs, s.Stored (s.committedEntry m) cs := by
  obtain ⟨cs, hcs⟩ : ∃ cs, s.Stored (s.withMirror m) cs := (withEpochStep_edited h ..).stored
  unfold State.committedEntry
  split
  · exact ⟨_, hcs.trans (setState_stored (hcs.clean h) ..)⟩
  · exact ⟨cs, hcs⟩

theorem committedEntry_committed (h : s.CleanStacks) {m : Mirror} (hj : (s.journal m.stack m.shard).isSome = true) :
    s.Committed (s.committedEntry m) m := by
  obtain ⟨hlo, hhi, hstep, hword⟩ := withEpochStep_words h m.epoch.toNat m.step hj
  rw [Nat.mod_eq_of_lt (show m.epoch.toNat / 2 ^ 32 < 2 ^ 32 by have := m.epoch.isLt; omega)] at hhi
  obtain ⟨cs, hcs⟩ : ∃ cs, s.Stored (s.withMirror m) cs := (withEpochStep_edited h ..).stored
  have hclean := hcs.clean h
  have hstate : (s.withMirror m).shardState m.stack m.shard = s.shardState m.stack m.shard :=
    congrArg (fun x => fieldOf x 21 18) hword
  unfold State.committedEntry
  split
  · next h5 =>
    have hne (u : Nat) (hu : u < 16) (h0 : u ≠ 0) :
        ((s.withMirror m).setState m.stack m.shard 0).journalWord m.stack m.shard u =
          (s.withMirror m).journalWord m.stack m.shard u :=
      (journalWord_setState hclean _ _ _ hu).trans (if_neg fun hc => h0 hc.2)
    exact ⟨(hne 1 (by decide) (by decide)).trans hlo, (hne 2 (by decide) (by decide)).trans hhi,
      (hne 3 (by decide) (by decide)).trans hstep,
      fun _ => shardState_setState hclean (by rw [hcs.journal]; exact hj) (by decide)⟩
  · next h5 => exact ⟨hlo, hhi, hstep, fun hs => absurd (hstate.trans hs) h5⟩

/-! ### MIRROR_STALE and MIRROR_GEN -/

/-- The marks that a mirror leaves in word 0 of an entry. -/
structure State.Marked (s t : State) (m : Mirror) (acked : Bool) : Prop where
  stale : bitOf (t.journalWord m.stack m.shard 0) 30 = !acked
  gen : acked = true → bitOf (t.journalWord m.stack m.shard 0) 29 = decide (m.epoch.toNat % 2 = 1)
  other : ∀ u < 16, u ≠ 0 → t.journalWord m.stack m.shard u = s.journalWord m.stack m.shard u
  state : t.shardState m.stack m.shard = s.shardState m.stack m.shard

theorem mirrorMarks_stored (h : s.CleanStacks) (m : Mirror) (acked : Bool) : ∃ cs, s.Stored (s.mirrorMarks m acked) cs := by
  unfold State.mirrorMarks
  split
  · exact ⟨_, .refl s⟩
  · split
    · have hstale := setJournal_stored h m.stack m.shard (w := 0) (by decide) 30 30 0
      exact ⟨_, hstale.trans (setJournal_stored (hstale.clean h) m.stack m.shard (by decide) 29 29 _)⟩
    · exact ⟨_, setJournal_stored h m.stack m.shard (by decide) 30 30 1⟩

theorem bitOf_mod_two (x : Nat) : bitOf (x % 2) 0 = decide (x % 2 = 1) := by
  unfold bitOf
  rw [Nat.testBit_zero, Nat.mod_mod]

theorem mirrorMarks_marked (h : s.CleanStacks) {m : Mirror} (acked : Bool) (hj : (s.journal m.stack m.shard).isSome = true)
    (hep : s.epochOf m.stack m.shard = m.epoch.toNat) : s.Marked (s.mirrorMarks m acked) m acked := by
  have hone (t : State) (ht : t.CleanStacks) (htj : (t.journal m.stack m.shard).isSome = true) (k v : Nat) (hk : k < 32) :
      ∀ u < 16, (t.setJournal m.stack m.shard 0 k k v).journalWord m.stack m.shard u =
        if u = 0 then setField (t.journalWord m.stack m.shard 0) k k v else t.journalWord m.stack m.shard u := fun u hu => by
    have := journalWord_setJournal ht m.stack m.shard (w := 0) (by decide) hu k 0 v hk
    simpa only [htj, true_and, Nat.add_zero] using this
  unfold State.mirrorMarks
  rw [if_neg (not_not.mpr hep)]
  cases acked with
  | true =>
    rw [if_pos rfl]
    have hstale := setJournal_stored h m.stack m.shard (w := 0) (by decide) 30 30 0
    have hfirst := hone s h hj 30 0 (by decide)
    have hsecond := hone _ (hstale.clean h) (by rw [hstale.journal]; exact hj) 29 (m.epoch.toNat % 2) (by decide)
    have hzero := (hsecond 0 (by decide)).trans (congrArg (setField · 29 29 _) (hfirst 0 (by decide)))
    rw [if_pos rfl] at hzero
    refine ⟨?_, fun _ => ?_, fun u hu h0 => ?_, ?_⟩
    · rw [hzero, bitOf_setField_bit, if_neg (by decide), bitOf_setField_bit, if_pos rfl]
      rfl
    · rw [hzero, bitOf_setField_bit, if_pos rfl, bitOf_mod_two]
    · rw [hsecond u hu, if_neg h0, hfirst u hu, if_neg h0]
    · unfold State.shardState
      rw [hzero]
      exact (fieldOf_setField_bit _ 29 _ 18 3 (by decide)).trans (fieldOf_setField_bit _ 30 _ 18 3 (by decide))
  | false =>
    rw [if_neg Bool.false_ne_true]
    have hfirst := hone s h hj 30 1 (by decide)
    have hzero := hfirst 0 (by decide)
    rw [if_pos rfl] at hzero
    refine ⟨?_, nofun, fun u hu h0 => ?_, ?_⟩
    · rw [hzero, bitOf_setField_bit, if_pos rfl]
      rfl
    · rw [hfirst u hu, if_neg h0]
    · unfold State.shardState
      rw [hzero]
      exact fieldOf_setField_bit _ 30 _ 18 3 (by decide)

/-! ### The end of a mirror -/

/-- The journal once a mirror of the update engine has ended. -/
def State.mirrorSettled (s : State) (m : Mirror) (acked : Bool) : State :=
  (({ s with mirrors := s.mirrors.filter (· != m) }).mirrorCommits m).mirrorMarks m acked

/-- What a shard's entry holds once a mirror of the update engine has ended. -/
structure State.MirrorEntry (s t : State) (m : Mirror) (acked : Bool) : Prop extends s.Committed t m where
  stale : bitOf (t.journalWord m.stack m.shard 0) 30 = !acked
  gen : acked = true → bitOf (t.journalWord m.stack m.shard 0) 29 = decide (m.epoch.toNat % 2 = 1)

/-- A state in which the mirror is gone and apart from that only the journal, the kept commands and the counters of stores differ. -/
structure State.Settled (s t : State) (m : Mirror) : Prop where
  rest : t.hide 49201 = s.hide 49201
  mirrors : t.mirrors = s.mirrors.filter (· != m)
  reg : ∀ a, a % 2 ^ 16 ≠ storeCounter → t.reg a = s.reg a

theorem mirrorSettled_effect (h : s.CleanStacks) {m : Mirror} (acked : Bool) (hsep : m.sep = false) :
    s.Settled (s.mirrorSettled m acked) m ∧
      ((s.journal m.stack m.shard).isSome = true → s.MirrorEntry (s.mirrorSettled m acked) m acked) := by
  have h' : State.CleanStacks { s with mirrors := s.mirrors.filter (· != m) } := h
  obtain ⟨cs, hcs⟩ := committedEntry_stored h' m
  have hclean : State.CleanStacks ((State.committedEntry { s with mirrors := s.mirrors.filter (· != m) } m).forget
    m.stack m.shard) := hcs.clean h'
  obtain ⟨ds, hds⟩ := mirrorMarks_stored hclean m acked
  unfold State.mirrorSettled
  rw [mirrorCommits_eq hsep]
  refine ⟨⟨?_, hds.mirrors.trans hcs.mirrors, fun a ha => (hds.reg a ha).trans (hcs.reg a ha)⟩, fun hj => ?_⟩
  · have hm := hide_hide (m := 49153) (k := 49201) (by decide)
    have e1 := congrArg (State.hide 49201) hds.rest
    have e2 := congrArg (State.hide 49201) hcs.rest
    rw [hm, hm] at e1 e2
    exact e1.trans e2
  · have hcom := committedEntry_committed h' (m := m) hj
    have hmark := mirrorMarks_marked hclean (m := m) acked (by exact (congrArg Option.isSome (hcs.journal ..)).trans hj)
      (State.epochOf_eq hcom.epochLo hcom.epochHi)
    exact ⟨⟨(hmark.other 1 (by decide) (by decide)).trans hcom.epochLo, (hmark.other 2 (by decide) (by decide)).trans hcom.epochHi,
      (hmark.other 3 (by decide) (by decide)).trans hcom.step, fun h5 => hmark.state.trans (hcom.state h5)⟩,
      hmark.stale, hmark.gen⟩

/-- The counters of a mirror that ends. -/
def State.mirrorCounted (s : State) (m : Mirror) (acked : Bool) : State :=
  if acked then s.bump (Reg.UPD_MIRRORS m.stack)
  else (s.bump (Reg.UPD_MIRROR_TIMEOUTS m.stack)).event clsUpd m.stack evTimeout
    (s.zAddr 0 ((s.journal m.stack m.shard).getD 0))

theorem mirrorCounted_hide (s : State) (m : Mirror) (acked : Bool) : (s.mirrorCounted m acked).hide 129 = s.hide 129 := by
  unfold State.mirrorCounted
  split
  · exact State.bump_hide 129 rfl ..
  · exact (State.event_hide 129 rfl ..).trans (State.bump_hide 129 rfl ..)

/-- The registers that tell of the mirrors of a stack. -/
theorem mirrorCounted_reg (s : State) {m : Mirror} (hst : m.stack < 12) (acked : Bool) :
    (acked = true → (s.mirrorCounted m acked).reg (Reg.UPD_MIRRORS m.stack) = (s.reg (Reg.UPD_MIRRORS m.stack) + 1) % 2 ^ 32) ∧
    (acked = false → (s.mirrorCounted m acked).reg (Reg.UPD_MIRROR_TIMEOUTS m.stack) =
        (s.reg (Reg.UPD_MIRROR_TIMEOUTS m.stack) + 1) % 2 ^ 32 ∧
      (s.mirrorCounted m acked).reg (Reg.EVENT_RAW clsUpd m.stack) = s.reg (Reg.EVENT_RAW clsUpd m.stack) ||| 2 ^ evTimeout) := by
  unfold State.mirrorCounted
  refine ⟨fun h => ?_, fun h => ?_⟩
  · rw [if_pos h, reg_bump, if_pos rfl]
  · rw [if_neg (by simp [h])]
    refine ⟨?_, ?_⟩
    · rw [event_reg]
      · rw [reg_bump, if_pos rfl]
      all_goals
        simp only [Reg.UPD_MIRROR_TIMEOUTS, Reg.EVENT_RAW, Reg.COUNTER_0, Reg.EVENT_LATCH, Reg.QMGR_LOG_LOST, regAddr, clsUpd]
        omega
    · rw [State.event_raw _ _ _ _ (by decide) (by unfold Reg.EVENT_RAW Reg.QMGR_LOG_LOST regAddr clsUpd; omega), reg_bump,
        if_neg (by unfold Reg.EVENT_RAW Reg.UPD_MIRROR_TIMEOUTS regAddr clsUpd; omega)]

theorem completed_needsNone (s : State) (st sh : Nat) (completing : Bool) :
    (if completing then s.completed st sh else s.needsNone st sh).hide 5 = s.hide 5 ∧
      (if completing then s.completed st sh else s.needsNone st sh).run.plan = s.run.plan ∧
      ∀ a, a ≠ Reg.UPD_COMPLETIONS st → (if completing then s.completed st sh else s.needsNone st sh).reg a = s.reg a := by
  have hmonitor (t : State) : t.startMonitor.run.plan = t.run.plan ∧ ∀ a, t.startMonitor.reg a = t.reg a := by
    unfold State.startMonitor
    split
    · exact ⟨rfl, fun _ => rfl⟩
    · exact ⟨rfl, fun _ => rfl⟩
  cases completing with
  | true =>
    refine ⟨State.completed_hide 5 rfl .., ?_⟩
    rw [if_pos rfl]
    unfold State.completed
    split
    · obtain ⟨hplan, hreg⟩ := hmonitor (({ s with run := { s.run with complete := s.run.complete.filter (· != (st, sh)) } }).bump
        (Reg.UPD_COMPLETIONS st))
      exact ⟨hplan.trans (congrArg RunState.plan (State.bump_run _ _) :), fun a ha =>
        (hreg a).trans ((reg_bump ..).trans (if_neg ha))⟩
    · exact ⟨rfl, fun _ _ => rfl⟩
  | false =>
    refine ⟨State.needsNone_hide 5 rfl .., ?_⟩
    rw [if_neg Bool.false_ne_true]
    unfold State.needsNone
    split
    · obtain ⟨hplan, hreg⟩ := hmonitor { s with run := { s.run with complete := s.run.complete.filter (· != (st, sh)) } }
      exact ⟨hplan, fun a _ => hreg a⟩
    · exact ⟨rfl, fun _ _ => rfl⟩

/-- What is left of the end of a mirror once its commands have ended and its completion pass is done with. -/
theorem mirrorEnds_told {m : Mirror} (acked : Bool) (hsep : m.sep = false) :
    ∃ t, s.mirrorEnds m acked = t ∧ t.hide 133 = (s.mirrorSettled m acked).hide 133 ∧
      t.run.plan = (s.mirrorSettled m acked).run.plan ∧
      ∀ a, a ∉ commandRegs clsUpd m.stack → a ≠ Reg.UPD_COMPLETIONS m.stack →
        t.reg a = ((s.mirrorSettled m acked).mirrorCounted m acked).reg a := by
  refine ⟨_, rfl, ?_⟩
  have hcount := mirrorCounted_hide (s.mirrorSettled m acked) m acked
  have htold := cmdEnds_told ((s.mirrorSettled m acked).mirrorCounted m acked) clsUpd m.stack m.upds
  obtain ⟨hrest, hplan, hreg⟩ := completed_needsNone
    (m.upds.foldl (fun t c => t.cmdEnd clsUpd m.stack c 0 0) ((s.mirrorSettled m acked).mirrorCounted m acked)) m.stack m.shard
    m.completing
  have heq : s.mirrorEnds m acked = if m.completing then
      (m.upds.foldl (fun t c => t.cmdEnd clsUpd m.stack c 0 0) ((s.mirrorSettled m acked).mirrorCounted m acked)).completed
        m.stack m.shard
      else (m.upds.foldl (fun t c => t.cmdEnd clsUpd m.stack c 0 0) ((s.mirrorSettled m acked).mirrorCounted m acked)).needsNone
        m.stack m.shard := if_neg (by simp [hsep])
  rw [heq]
  have h5 := hide_hide (m := 5) (k := 133) (by decide)
  have h129 := hide_hide (m := 129) (k := 133) (by decide)
  have e1 := congrArg (State.hide 133) hrest
  have e2 := congrArg (State.hide 133) htold.rest
  have e3 := congrArg (State.hide 133) hcount
  rw [h5, h5] at e1 e2
  rw [h129, h129] at e3
  refine ⟨e1.trans (e2.trans e3), hplan.trans (htold.plan.trans (congrArg RunState.plan (kept_run hcount rfl))), fun a ha hc => ?_⟩
  exact (hreg a hc).trans (htold.reg a ha)

/-- The end of a mirror of the update engine (R313). -/
theorem mirrorEnds_effect (h : s.CleanStacks) {m : Mirror} (acked : Bool) (hsep : m.sep = false) (hst : m.stack < 12) :
    ∃ t, s.mirrorEnds m acked = t ∧ t.mirrors = s.mirrors.filter (· != m) ∧ t.fab = s.fab ∧
      ((s.journal m.stack m.shard).isSome = true → s.MirrorEntry t m acked) ∧
      (acked = true → t.reg (Reg.UPD_MIRRORS m.stack) = (s.reg (Reg.UPD_MIRRORS m.stack) + 1) % 2 ^ 32) ∧
      (acked = false → t.reg (Reg.UPD_MIRROR_TIMEOUTS m.stack) = (s.reg (Reg.UPD_MIRROR_TIMEOUTS m.stack) + 1) % 2 ^ 32 ∧
        t.reg (Reg.EVENT_RAW clsUpd m.stack) = s.reg (Reg.EVENT_RAW clsUpd m.stack) ||| 2 ^ evTimeout) := by
  obtain ⟨hsettled, hentry⟩ := mirrorSettled_effect h (m := m) acked hsep
  obtain ⟨t, ht, hrest, hplan, hreg⟩ := mirrorEnds_told (s := s) (m := m) acked hsep
  obtain ⟨hacked, hexpired⟩ := mirrorCounted_reg (s.mirrorSettled m acked) hst acked
  have hcells : t.mem.cells = (s.mirrorSettled m acked).mem.cells := kept_cells hrest rfl
  refine ⟨t, ht, (kept_mirrors hrest rfl).trans hsettled.mirrors, (kept_fab hrest rfl).trans (kept_fab hsettled.rest rfl),
    fun hj => ?_, fun ha => ?_, fun ha => ⟨?_, ?_⟩⟩
  · obtain ⟨⟨hlo, hhi, hstep, hstate⟩, hstale, hgen⟩ := hentry hj
    have hword := journalWord_congr hplan hcells m.stack m.shard
    exact ⟨⟨(hword 1).trans hlo, (hword 2).trans hhi, (hword 3).trans hstep, fun h5 =>
      (shardState_congr hplan hcells ..).trans (hstate h5)⟩, by rw [hword]; exact hstale, fun h => by rw [hword]; exact hgen h⟩
  · refine (hreg _ ?_ ?_).trans ((hacked ha).trans (congrArg (fun x => (x + 1) % 2 ^ 32) (hsettled.reg _ (by unfold Reg.UPD_MIRRORS regAddr storeCounter; omega))))
    · simp [commandRegs, clsUpd, clsSep, Reg.UPD_MIRRORS, Reg.UPD_COMMANDS, Reg.UPD_CMD_STATUS, Reg.UPD_CMD_FAULT_ADDR, regAddr]
    · simp [Reg.UPD_MIRRORS, Reg.UPD_COMPLETIONS, regAddr]
  · refine (hreg _ ?_ ?_).trans ((hexpired ha).1.trans (congrArg (fun x => (x + 1) % 2 ^ 32) (hsettled.reg _ (by unfold Reg.UPD_MIRROR_TIMEOUTS regAddr storeCounter; omega))))
    · simp [commandRegs, clsUpd, clsSep, Reg.UPD_MIRROR_TIMEOUTS, Reg.UPD_COMMANDS, Reg.UPD_CMD_STATUS, Reg.UPD_CMD_FAULT_ADDR,
        regAddr]
    · simp [Reg.UPD_MIRROR_TIMEOUTS, Reg.UPD_COMPLETIONS, regAddr]
  · refine (hreg _ ?_ ?_).trans ((hexpired ha).2.trans (congrArg (· ||| 2 ^ evTimeout) (hsettled.reg _ (by unfold Reg.EVENT_RAW regAddr storeCounter; omega))))
    · simp [commandRegs, clsUpd, clsSep, Reg.EVENT_RAW, Reg.UPD_COMMANDS, Reg.UPD_CMD_STATUS, Reg.UPD_CMD_FAULT_ADDR, regAddr]
    · simp [Reg.EVENT_RAW, clsUpd, Reg.UPD_COMPLETIONS, regAddr]

theorem filter_ne_not_mem {α : Type} [DecidableEq α] (l : List α) (x : α) : x ∉ l.filter (· != x) := by
  simp [List.mem_filter]

/-- The entry of a shard whose mirror did not come. -/
theorem mirrorMissing_effect (h : s.CleanStacks) (i : Fin 12) (sh : Nat) :
    ∃ t, s.mirrorMissing i sh = t ∧ t.run = s.run ∧ t.fab = s.fab ∧
      t.reg (Reg.UPD_MIRROR_TIMEOUTS i) = (s.reg (Reg.UPD_MIRROR_TIMEOUTS i) + 1) % 2 ^ 32 ∧
      ((s.journal i sh).isSome = true → bitOf (t.journalWord i sh 0) 30 = true) := by
  have hstored := setJournal_stored h i sh (w := 0) (by decide) 30 30 1
  have hrest : ∀ x, (((s.setJournal i sh 0 30 30 1).bump (Reg.UPD_MIRROR_TIMEOUTS i)).event clsUpd i evTimeout x).hide 129 =
      (s.setJournal i sh 0 30 30 1).hide 129 := fun x =>
    (State.event_hide 129 rfl ..).trans (State.bump_hide 129 rfl ..)
  refine ⟨_, rfl, (kept_run (hrest _) rfl).trans hstored.run, (kept_fab (hrest _) rfl).trans hstored.fab, ?_, fun hj => ?_⟩
  · unfold State.mirrorMissing
    rw [event_reg]
    · rw [reg_bump, if_pos rfl]
      refine congrArg (fun x => (x + 1) % 2 ^ 32) (hstored.reg _ ?_)
      unfold Reg.UPD_MIRROR_TIMEOUTS regAddr storeCounter
      omega
    all_goals
      simp only [Reg.UPD_MIRROR_TIMEOUTS, Reg.EVENT_RAW, Reg.COUNTER_0, Reg.EVENT_LATCH, Reg.QMGR_LOG_LOST, regAddr, clsUpd]
      omega
  · have hword := journalWord_setJournal h i sh (w := 0) (u := 0) (by decide) (by decide) 30 0 1 (by decide)
    rw [if_pos ⟨hj, rfl⟩] at hword
    have hkept := journalWord_congr (congrArg RunState.plan (kept_run (hrest (s.journalAddr i sh)) rfl))
      (kept_cells (hrest (s.journalAddr i sh)) rfl) i.val sh 0
    refine (congrArg (bitOf · 30) (hkept.trans hword)).trans ?_
    exact (bitOf_setField_bit _ 30 1 30).trans (if_pos rfl)

/-- Settles O37: an acknowledgement and the end of a wait end their mirror, a wait that ends leaves it stale. -/
theorem mirrorCommands : Obligations.MirrorCommands := by
  refine ⟨fun s st sh m hm hmutual hsep hquiet => ?_, fun s st sh e hnone => ?_, fun s st sh m hm hsep hquiet hwait => ?_,
    fun s n htwin hbound hlost => ?_, fun s i sh d hd hwait hquiet => ?_⟩
  · have hfound := List.find?_some hm
    simp only [Bool.and_eq_true, beq_iff_eq] at hfound
    obtain ⟨⟨⟨hstack, hshard⟩, -⟩, -⟩ := hfound
    have hclean : State.CleanStacks { s with fab := { s.fab with lastTwinAck := s.slot } } := hquiet.1
    obtain ⟨t, ht, hmirrors, hfab, hentry, hcount, -⟩ := mirrorEnds_effect hclean true hsep (by rw [hstack]; exact st.isLt)
    have hexec : exec (.mirrorAck st sh m.epoch) s = .next t := by
      refine done_of_eq ?_
      rw [hm]
      exact (if_pos hmutual).trans ht
    rw [hstack, hshard] at hentry
    rw [hstack] at hcount
    refine ⟨t, hexec, ?_, by rw [hfab], fun hj => ?_, hcount rfl⟩
    · rw [hmirrors]
      exact filter_ne_not_mem s.mirrors m
    · obtain ⟨⟨hlo, hhi, hstep, hstate⟩, hstale, hgen⟩ := hentry hj
      rw [hstack, hshard] at *
      exact ⟨hstale, hgen rfl, hlo, hhi, hstep, hstate⟩
  · refine done_of_eq ?_
    rw [hnone]
  · have hfound := List.find?_some hm
    simp only [Bool.and_eq_true, beq_iff_eq] at hfound
    obtain ⟨⟨hstack, hshard⟩, -⟩ := hfound
    obtain ⟨t, ht, hmirrors, -, hentry, -, hcount⟩ := mirrorEnds_effect hquiet.1 false hsep (by rw [hstack]; exact st.isLt)
    have hexec : exec (.mirrorWaitExpiry st sh) s = .next t := by
      refine done_of_eq ?_
      rw [hm]
      exact (if_pos hwait).trans ht
    rw [hstack, hshard] at hentry
    rw [hstack] at hcount
    obtain ⟨htimeouts, hevent⟩ := hcount rfl
    refine ⟨t, hexec, ?_, fun hj => ?_, htimeouts, hevent⟩
    · rw [hmirrors]
      exact filter_ne_not_mem s.mirrors m
    · have := (hentry hj).stale
      rwa [hstack, hshard] at this
  · have hstep : s.twinLost = s.event clsFabric 0 evLink 0 := by
      unfold State.twinLost
      rw [htwin]
      exact if_pos (by simp [hbound, hlost])
    have hrest := State.event_hide 129 rfl s clsFabric 0 evLink 0
    have hmem := kept_mem hrest rfl rfl
    refine ⟨s.event clsFabric 0 evLink 0, done_of_eq hstep, ?_, hmem, kept_run hrest rfl⟩
    exact State.event_raw s clsFabric 0 0 (bit := evLink) (by decide) (by decide)
  · have hclean : (s.digestSettled i sh).CleanStacks := hquiet.1
    obtain ⟨t, ht, hrun, hfab, hcount, hstale⟩ := mirrorMissing_effect hclean i sh
    refine ⟨t, done_of_eq ?_, fun e he => ?_, hcount, hstale, hrun⟩
    · unfold State.digestExpiry
      rw [hd]
      exact (if_pos hwait).trans ht
    · rw [hfab] at he
      simpa using (List.mem_filter.mp he).2

end Sys2Proof.Machine

end

section

/-!
The Churn, the Pail's leak and the cache's acknowledgement of what an update engine wrote (R271, R278 to R282).
-/

namespace Sys2Proof.Machine

variable {s t : State}

/-! ### The Churn -/

theorem reg64_setReg64 (s : State) (a v : Nat) (hv : v < 2 ^ 64) : (s.setReg64 a v).reg64 a = v := by
  unfold State.setReg64 State.reg64
  rw [reg_setReg_ne _ _ _ _ (by omega), reg_setReg_self, reg_setReg_self]
  omega

theorem readChunk_clean (h : s.CleanStacks) (st pos : Nat) : (s.readChunk st pos).s = s := by
  unfold State.readChunk
  suffices hfold : ∀ (l : List Nat) (c : ChunkRead), c.s = s → (l.foldl (fun (c : ChunkRead) i =>
      let g := c.s.readStack hostReader (st * stackBytes + pos + 64 * i) 64
      (⟨g.s, st * stackBytes + pos, c.data ++ (g.data ++ List.replicate 64 0).take 64,
        if g.bad.isSome then c.bad ++ [i] else c.bad⟩ : ChunkRead)) c).s = s from hfold _ _ rfl
  intro l
  induction l with
  | nil => exact fun c hc => hc
  | cons i l ih =>
    intro c hc
    refine ih _ ?_
    show (c.s.readStack hostReader _ 64).s = s
    rw [hc, readStack_clean h]

theorem nextChunk_congr (h : t.regs = s.regs) (st pos : Nat) : t.nextChunk st pos = s.nextChunk st pos := by
  unfold State.nextChunk State.reg
  rw [h]

/-- The next chunk lies in a code region that ends behind the place asked for. -/
theorem nextChunk_lt {st pos p : Nat} (h : s.nextChunk st pos = some p) : p < 2 ^ 37 := by
  unfold State.nextChunk at h
  suffices hfold : ∀ (l : List Nat) (best : Option Nat), (∀ b ∈ best, b < 2 ^ 37) → ∀ b ∈ (l.foldl (fun (best : Option Nat) i =>
      let w := s.reg (Reg.HBM_CODE_REGION st i)
      if bitOf w 31 && decide (pos / unit16 ≤ fieldOf w 23 12) then
        let at_ := max pos (fieldOf w 11 0 * unit16)
        match best with
        | none => some at_
        | some b => some (min b at_)
      else best) best), b < 2 ^ 37 from hfold _ none nofun p h
  intro l
  induction l with
  | nil => exact fun best hbest => hbest
  | cons i l ih =>
    intro best hbest
    refine ih _ fun b hb => ?_
    dsimp only at hb
    split at hb
    · next hcond =>
      simp only [Bool.and_eq_true, decide_eq_true_eq] at hcond
      have hlast : fieldOf (s.reg (Reg.HBM_CODE_REGION st i)) 23 12 < 2 ^ 12 := Nat.mod_lt _ (by decide)
      have hfirst : fieldOf (s.reg (Reg.HBM_CODE_REGION st i)) 11 0 < 2 ^ 12 := Nat.mod_lt _ (by decide)
      have hplace : max pos (fieldOf (s.reg (Reg.HBM_CODE_REGION st i)) 11 0 * unit16) < 2 ^ 37 := by
        unfold unit16 at *
        omega
      cases best with
      | none =>
        obtain rfl := Option.some.inj hb
        exact hplace
      | some x =>
        obtain rfl := Option.some.inj hb
        exact lt_of_le_of_lt (min_le_right ..) hplace
    · exact hbest b hb

theorem churnChunk_effect {st : Fin 12} {p q : Nat} (hchurn : s.churning st = true) (h : s.CleanStacks)
    (hp : s.nextChunk st (s.churnPos st) = some p) (hq : s.nextChunk st (p + chunkBytes) = some q)
    (hoff : bitOf (s.reg (Reg.HBM_CHURN_CONFIG st)) 8 = false) :
    s.churnChunk st = (s.churnPaid st chunkBytes).setReg64 (Reg.HBM_CHURN_POS_LO st) q := by
  unfold State.churnChunk
  rw [hchurn, if_neg (by decide), hp]
  dsimp only
  rw [readChunk_clean h, hoff, if_neg Bool.false_ne_true]
  dsimp only
  rw [nextChunk_congr (s := s) (t := s.churnPaid st (chunkBytes + 0)) rfl, Nat.add_zero, hq]

/-! ### The Pail -/

theorem pailLeak_level (s : State) (b : Blk) : (s.pailLeak b).reg (Reg.PAIL_LEVEL b.cls b.inst) =
    fieldOf (s.reg (Reg.PAIL_LEVEL b.cls b.inst)) 31 16 * 2 ^ 16 + (fieldOf (s.reg (Reg.PAIL_LEVEL b.cls b.inst)) 15 0 - 1) := by
  have hhi : fieldOf (s.reg (Reg.PAIL_LEVEL b.cls b.inst)) 31 16 < 2 ^ 16 := Nat.mod_lt _ (by decide)
  have hlo : fieldOf (s.reg (Reg.PAIL_LEVEL b.cls b.inst)) 15 0 < 2 ^ 16 := Nat.mod_lt _ (by decide)
  refine (reg_setReg_self ..).trans (Nat.mod_eq_of_lt ?_)
  omega

theorem pailLeak_reg (s : State) (b : Blk) {a : Nat} (ha : a ≠ Reg.PAIL_LEVEL b.cls b.inst) : (s.pailLeak b).reg a = s.reg a :=
  reg_setReg_ne _ _ _ _ ha

theorem pailLeak_due (s : State) (b : Blk) : (s.pailLeak b).leakDue b = false := by
  have hcfg : (s.pailLeak b).reg (Reg.PAIL_CONFIG b.cls b.inst) = s.reg (Reg.PAIL_CONFIG b.cls b.inst) :=
    pailLeak_reg s b (by unfold Reg.PAIL_CONFIG Reg.PAIL_LEVEL regAddr; omega)
  unfold State.leakDue
  rw [hcfg]
  have hclock : (s.pailLeak b).clock = { s.clock with leaks := tput s.clock.leaks (pailKey b) s.slotsGone } :=
    State.setReg_clock ..
  have hslots : (s.pailLeak b).slotsGone = s.slotsGone := by
    unfold State.slotsGone State.slotsFrom
    rw [hclock]
  rw [hclock, hslots, tget_tput, if_pos rfl]
  exact decide_eq_false (lt_irrefl _)

/-! ### The cache's acknowledgement -/

/-- The engine once the cache has acknowledged what it wrote. -/
def State.released (s : State) (st : Nat) : State :=
  s.setUpd st { s.upd st with acking := [], holding := (s.upd st).holding.filter (fun x => !(s.upd st).acking.contains x) }

theorem cacheAcked_of_idle {st : Nat} (h : ∀ r, (s.upd st).cur = some r → r.pass = .working → r.shard ∉ (s.upd st).acking) :
    s.cacheAcked st = s.released st := by
  unfold State.cacheAcked
  extract_lets u t
  have ht : t = s.released st := rfl
  split
  · next r hr => exact (if_neg fun hc => h r hr hc.1 (by simpa using hc.2)).trans ht
  · exact ht

theorem cacheAcked_of_waiting {st : Nat} {r : UpdRun} (hcur : (s.upd st).cur = some r) (hpass : r.pass = .working)
    (hack : r.shard ∈ (s.upd st).acking) : s.cacheAcked st = (s.released st).updFinish st r := by
  unfold State.cacheAcked
  extract_lets u t
  have ht : t = s.released st := rfl
  split
  · next x hx =>
    obtain rfl := Option.some.inj (hx.symm.trans hcur)
    exact (if_pos ⟨hpass, by simpa [u] using hack⟩).trans (congrArg (State.updFinish · st x) ht)
  · next hx => cases hx.symm.trans hcur

/-- The entry of a shard whose working pass has ended: summary, budget and format. -/
def State.passNoted (s : State) (st : Nat) (r : UpdRun) : State :=
  (s.setJournal st r.shard 8 31 24 r.summary).setJournal st r.shard 8 23 16 (updFormat r.cmd * 16 + updBudget r.cmd)

theorem passNoted_stored (h : s.CleanStacks) (st : Nat) (r : UpdRun) : ∃ cs, s.Stored (s.passNoted st r) cs := by
  have hfirst := setJournal_stored h st r.shard (w := 8) (by decide) 31 24 r.summary
  exact ⟨_, hfirst.trans (setJournal_stored (hfirst.clean h) st r.shard (by decide) 23 16 _)⟩

theorem passNoted_word (h : s.CleanStacks) (st : Nat) (r : UpdRun) {w : Nat} (hw : w < 16) (h8 : w ≠ 8) :
    (s.passNoted st r).journalWord st r.shard w = s.journalWord st r.shard w := by
  have hfirst := setJournal_stored h st r.shard (w := 8) (by decide) 31 24 r.summary
  have hone := journalWord_setJournal h st r.shard (w := 8) (by decide) hw 24 7 r.summary (by decide)
  have htwo := journalWord_setJournal (hfirst.clean h) st r.shard (w := 8) (by decide) hw 16 7
    (updFormat r.cmd * 16 + updBudget r.cmd) (by decide)
  rw [if_neg fun hc => h8 hc.2] at hone htwo
  exact htwo.trans hone

theorem commitsTo_congr {st : Nat} {c : BaseCmd} (h : ∀ w < 16, w ≠ 8 → t.journalWord st c.shard w = s.journalWord st c.shard w) :
    t.commitsTo st c = s.commitsTo st c := by
  unfold State.commitsTo State.epochOf
  rw [h 1 (by decide) (by decide), h 2 (by decide) (by decide), h 3 (by decide) (by decide)]

/-- What the commit of a command without a mirror leaves in the shard's entry and of the engine. -/
structure State.CommittedNow (s t : State) (st : Nat) (r : UpdRun) (e : Nat × Nat) : Prop where
  engine : t.upd st = { s.upd st with cur := none, kept := tdel (s.upd st).kept r.shard }
  state : t.shardState st r.shard = 0
  epochLo : t.journalWord st r.shard 1 = e.1 % 2 ^ 32
  epochHi : t.journalWord st r.shard 2 = e.1 / 2 ^ 32 % 2 ^ 32
  step : t.journalWord st r.shard 3 = e.2 % 2 ^ 32

theorem commitNow_effect (h : s.CleanStacks) {st : Nat} {r : UpdRun} (hj : (s.journal st r.shard).isSome = true)
    (hcompleting : r.completing = false) : s.CommittedNow (s.commitNow st r) st r (s.commitsTo st r.cmd) := by
  obtain ⟨cs, hcs⟩ := (withEpochStep_edited h st r.shard (s.commitsTo st r.cmd).1 (s.commitsTo st r.cmd).2).stored
  obtain ⟨hlo, hhi, hstep, -⟩ := withEpochStep_words h (s.commitsTo st r.cmd).1 (s.commitsTo st r.cmd).2 hj
  have heq : s.commitNow st r = r.upds.foldl (fun t c => t.cmdEnd clsUpd st c 0 0)
      ((((s.withEpochStep st r.shard (s.commitsTo st r.cmd).1 (s.commitsTo st r.cmd).2).setState st r.shard 0).setRun st
        none).forget st r.shard) := if_neg (by simp [hcompleting])
  have htold := cmdEnds_told ((((s.withEpochStep st r.shard (s.commitsTo st r.cmd).1 (s.commitsTo st r.cmd).2).setState st
    r.shard 0).setRun st none).forget st r.shard) clsUpd st r.upds
  rw [← heq] at htold
  clear heq
  generalize s.commitNow st r = u at *
  generalize s.withEpochStep st r.shard (s.commitsTo st r.cmd).1 (s.commitsTo st r.cmd).2 = v at *
  have hclean := hcs.clean h
  have hvj : (v.journal st r.shard).isSome = true := by rw [hcs.journal]; exact hj
  have hset := setState_stored hclean st r.shard 0
  have hplan : u.run.plan = (v.setState st r.shard 0).run.plan := htold.plan
  have hcells : u.mem.cells = (v.setState st r.shard 0).mem.cells := congrArg Memory.cells htold.mem
  have hword (w : Nat) (hw : w < 16) (h0 : w ≠ 0) : u.journalWord st r.shard w = v.journalWord st r.shard w :=
    (journalWord_congr hplan hcells ..).trans
      ((journalWord_setState hclean st r.shard 0 hw).trans (if_neg fun hc => h0 hc.2))
  refine ⟨?_, ?_, (hword 1 (by decide) (by decide)).trans hlo, (hword 2 (by decide) (by decide)).trans hhi,
    (hword 3 (by decide) (by decide)).trans hstep⟩
  · have hupds : u.upd st = (((v.setState st r.shard 0).setRun st none).forget st r.shard).upd st := by
      unfold State.upd
      rw [kept_upds htold.rest rfl]
    rw [hupds]
    unfold State.forget State.setRun
    rw [upd_setUpd, if_pos rfl, upd_setUpd, if_pos rfl, hset.upd, hcs.upd]
  · exact (shardState_congr hplan hcells ..).trans (shardState_setState hclean hvj (by decide))

/-- Settles O38: the Churn goes on to the next chunk, a Pail leaks by one, an acknowledged working pass ends. -/
theorem memoryUnitCommands : Obligations.MemoryUnitCommands := by
  refine ⟨fun s st p q hchurn hclean hp hq hoff => ?_, fun s b _ hdue => ?_, fun s b hstands hdue => ?_, fun s st hidle => ?_,
    fun s st r e hcur hpass hack hshard hending hcompleting hmirror hquiet hj he => ?_⟩
  · have hq' := nextChunk_lt hq
    have hmem : ∀ (u : State) a v, (u.setReg64 a v).mem = u.mem := fun u a v =>
      (State.setReg_mem ..).trans (State.setReg_mem ..)
    refine ⟨_, done_of_eq (churnChunk_effect hchurn hclean hp hq hoff), reg64_setReg64 _ _ _ (by omega), ?_, ?_, ?_⟩
    · rw [hmem]
      rfl
    · exact (State.setReg_run ..).trans (State.setReg_run ..)
    · exact (State.setReg_ctl ..).trans (State.setReg_ctl ..)
  · exact done_of_eq (if_neg (by simp [hdue]))
  · refine ⟨_, done_of_eq (if_pos (by simp [hstands, hdue])), pailLeak_due s b, ?_, ?_, fun a ha => pailLeak_reg s b ha,
      State.setReg_mem ..⟩
    all_goals
      have hlevel := reg_lt s (Reg.PAIL_LEVEL b.cls b.inst)
      have h15 := fieldOf_eq_div (s.reg (Reg.PAIL_LEVEL b.cls b.inst)) 0 15
      have h31 := fieldOf_eq_div (s.reg (Reg.PAIL_LEVEL b.cls b.inst)) 16 15
      simp only [Nat.zero_add, pow_zero, Nat.div_one, Nat.reduceAdd] at h15 h31
      rw [pailLeak_level, h15, h31]
    · refine (fieldOf_eq_div _ 0 15).trans ?_
      omega
    · refine (fieldOf_eq_div _ 16 15).trans ?_
      omega
  · refine ⟨_, done_of_eq (cacheAcked_of_idle hidle), ?_, fun q hq => ?_, rfl, rfl⟩
    · unfold State.released
      rw [upd_setUpd, if_pos rfl]
      simp
    · unfold State.released
      rw [upd_setUpd, if_neg (fun hc => hq (Fin.ext hc))]
  · subst he
    have hclean : (s.released st).CleanStacks := hquiet.1
    obtain ⟨cs, hcs⟩ := passNoted_stored hclean st r
    have hfinish : (s.released st).updFinish st r = ((s.released st).passNoted st r).commitNow st r :=
      (if_neg (by simp [hending])).trans (if_neg (by simp [hmirror]))
    have hcommits : ((s.released st).passNoted st r).commitsTo st r.cmd = s.commitsTo st r.cmd :=
      commitsTo_congr fun w hw h8 => by
        rw [← hshard]
        exact passNoted_word hclean st r hw h8
    obtain ⟨hengine, hstate, hlo, hhi, hstep⟩ := commitNow_effect (hcs.clean hclean) (st := st) (r := r)
      ((congrArg Option.isSome (hcs.journal ..)).trans hj) hcompleting
    rw [hcommits] at hlo hhi hstep
    have hupd : ((s.released st).passNoted st r).upd st = { s.upd st with
        acking := []
        holding := (s.upd st).holding.filter (fun x => !(s.upd st).acking.contains x) } := by
      rw [hcs.upd]
      unfold State.released
      rw [upd_setUpd, if_pos rfl]
    refine ⟨_, done_of_eq ((cacheAcked_of_waiting hcur hpass hack).trans hfinish), by rw [hengine], by rw [hengine, hupd], ?_,
      hstate, hlo, hhi, hstep⟩
    rw [hengine, hupd]
    simp [hack]

end Sys2Proof.Machine

end

section

/-!
The starts of the Separator's commands (R141 to R153): what the front of its queue begins, and what a refused record leaves.
-/

namespace Sys2Proof.Machine

variable {s t : State}

/-! ### Reading the journal -/

theorem openJournal_clean (h : s.CleanStacks) (r : Reader) (st sh : Nat) : s.openJournal r st sh = (s, true) := by
  unfold State.openJournal
  split
  · rfl
  · rw [readStack_clean h]
    rfl

/-! ### The start of a command -/

/-- The Separator's queue without its front. -/
def State.sepTaken (s : State) (st : Nat) (rest : List BaseCmd) : State := s.setSep st { s.sep st with queue := rest }

theorem sepTaken_sep (s : State) (st : Nat) (rest : List BaseCmd) :
    (s.sepTaken st rest).sep st = { s.sep st with queue := rest } := by
  unfold State.sepTaken
  rw [sep_setSep, if_pos rfl]

section
variable {st op : Nat} {c : BaseCmd} {rest : List BaseCmd}

theorem sepStart_of_good (hcur : (s.sep st).cur = none) (hqueue : (s.sep st).queue = c :: rest) (hop : sepOp c = op)
    (hhold : s.power.hold = false) (hstop : s.safety.stop = false) (hgood : s.sepBad st c = [])
    (hfree : s.updating st c.shard = false) : s.sepStart st op = (s.sepTaken st rest).sepGo st op c := by
  unfold State.sepStart
  extract_lets u
  split
  · next c' rest' _ hq =>
    obtain ⟨rfl, rfl⟩ := List.cons.inj (hq.symm.trans hqueue)
    rw [if_neg (by simp [hop, hhold]), if_neg (by simp [hstop]), hgood]
    exact if_neg (by simp [hfree])
  · next hne => exact absurd hqueue (hne _ _ hcur)

theorem leastOf_cons_zero (l : List Nat) : leastOf (0 :: l) = some 0 := by
  have hfold : ∀ l : List Nat, l.foldl (fun m x => match m with
      | none => some x
      | some y => some (min x y)) (some 0) = some 0 := by
    intro l
    induction l with
    | nil => rfl
    | cons x l ih => rw [List.foldl_cons]; simpa using ih
  exact hfold l

/-- A record without an opcode is at fault in its word 0. -/
theorem sepBad_of_no_opcode (s : State) (st : Nat) (hop : sepOp c = 0) : leastOf (s.sepBad st c) = some 0 := by
  unfold State.sepBad
  dsimp only
  rw [hop, if_pos (by simp)]
  exact leastOf_cons_zero _

theorem sepStart_of_no_opcode (hcur : (s.sep st).cur = none) (hqueue : (s.sep st).queue = c :: rest) (hop : sepOp c = 0)
    (hhold : s.power.hold = false) (hstop : s.safety.stop = false) :
    s.sepStart st op = (s.sepTaken st rest).cmdFail clsSep st c 0x0401 0 false := by
  unfold State.sepStart
  extract_lets u
  split
  · next c' rest' _ hq =>
    obtain ⟨rfl, rfl⟩ := List.cons.inj (hq.symm.trans hqueue)
    rw [if_neg (by simp [hop, hhold]), if_neg (by simp [hstop]), sepBad_of_no_opcode s st hop]
    rfl
  · next hne => exact absurd hqueue (hne _ _ hcur)

theorem sepGo_of_clean (h : s.CleanStacks) : s.sepGo st op c =
    if s.shardState st c.shard = 6 then s.cmdFail clsSep st c 0x0401 0 false
    else if op = opCollect then s.collectNow st c
    else if op = opAudit then s.auditNow st c
    else s.startRewrite st c := by
  unfold State.sepGo
  rw [openJournal_clean h]
  rfl

end

/-! ### A refused command of the host -/

theorem cmdFail_host_told {cls st : Nat} {c : BaseCmd} {code addr : Nat} (hsrc : c.src = .host)
    (hcode : code / 2 ^ 8 = 4 ∨ code / 2 ^ 8 = 8) : s.cmdFail cls st c code addr false = s.cmdEnd cls st c code addr := by
  unfold State.cmdFail State.cmdFault
  rw [hsrc]
  dsimp only
  rw [if_neg Bool.false_ne_true, if_neg (by omega)]

theorem cmdEnd_host_status (s : State) {st : Nat} {c : BaseCmd} {code : Nat} (addr : Nat) (hsrc : c.src = .host) (hcode : code < 2 ^ 16) :
    fieldOf ((s.cmdEnd clsSep st c code addr).reg (Reg.SEP_CMD_STATUS st)) 31 16 = code ∧
      (s.cmdEnd clsSep st c code addr).reg (Reg.SEP_CMD_FAULT_ADDR st) = addr % 2 ^ 32 := by
  unfold State.cmdEnd
  rw [hsrc]
  dsimp only
  unfold State.hostDone
  rw [if_pos rfl, if_pos rfl]
  refine ⟨?_, reg_setReg_self ..⟩
  rw [reg_setReg_ne _ _ _ _ (by unfold Reg.SEP_CMD_STATUS Reg.SEP_CMD_FAULT_ADDR regAddr; omega), reg_setReg_self]
  refine (fieldOf_eq_div _ 16 15).trans ?_
  omega

theorem Told.sep {cls st i : Nat} (h : s.Told t cls st) : t.sep i = s.sep i := by
  unfold State.sep
  rw [kept_seps h.rest rfl]

theorem hostDone_count (s : State) (st code addr : Nat) :
    (s.hostDone clsSep st code addr).reg (Reg.SEP_COMMANDS st) = s.reg (Reg.SEP_COMMANDS st) := by
  have hstatus : Reg.SEP_COMMANDS st ≠ Reg.SEP_CMD_STATUS st := by unfold Reg.SEP_COMMANDS Reg.SEP_CMD_STATUS regAddr; omega
  have haddr : Reg.SEP_COMMANDS st ≠ Reg.SEP_CMD_FAULT_ADDR st := by
    unfold Reg.SEP_COMMANDS Reg.SEP_CMD_FAULT_ADDR regAddr; omega
  exact (reg_setReg_ne _ _ _ _ haddr).trans (reg_setReg_ne _ _ _ _ hstatus)

theorem requestReady_reg (s : State) (id a : Nat) : (s.requestReady id).reg a = s.reg a := rfl

/-- Each command is counted as it ends. -/
theorem cmdEnd_count (s : State) (st : Nat) (c : BaseCmd) (code addr : Nat) :
    (s.cmdEnd clsSep st c code addr).reg (Reg.SEP_COMMANDS st) = (s.reg (Reg.SEP_COMMANDS st) + 1) % 2 ^ 32 := by
  have hcount : (s.bump (Reg.SEP_COMMANDS st)).reg (Reg.SEP_COMMANDS st) = (s.reg (Reg.SEP_COMMANDS st) + 1) % 2 ^ 32 :=
    (reg_bump ..).trans (if_pos rfl)
  have hcls : (if clsSep = clsSep then Reg.SEP_COMMANDS st else Reg.UPD_COMMANDS st) = Reg.SEP_COMMANDS st := if_pos rfl
  unfold State.cmdEnd
  rw [hcls]
  generalize s.bump (Reg.SEP_COMMANDS st) = b at *
  split
  · exact (hostDone_count ..).trans hcount
  · exact hcount
  · split
    · exact (requestReady_reg ..).trans hcount
    · exact hcount

/-! ### PRUNE and REGROW -/

/-- The command of a collection slot's shard that was delivered to. -/
def State.collected (s : State) (st : Nat) (c : BaseCmd) : Bool :=
  (sepOp c == opRegrow || sepFill c) && (tfind (s.sep st).slots (sepSlot c)).any (fun x => x.shard == c.shard && x.delivered)

theorem takeSlot_effect (s : State) (st : Nat) (c : BaseCmd) : (s.takeSlot st c).2 = s.collected st c ∧
    (s.takeSlot st c).1.sep st = { s.sep st with slots := (s.sep st).slots.filter (fun x =>
      !((sepOp c == opRegrow || sepFill c) && x.1 == sepSlot c) && x.2.shard != c.shard) } := by
  unfold State.takeSlot
  extract_lets u named ok slots t
  have ht : t.sep st = { s.sep st with slots := slots } := (sep_setSep ..).trans (if_pos rfl)
  refine ⟨?_, ?_⟩
  · show (named && _) = _
    unfold State.collected
    cases tfind (s.sep st).slots (sepSlot c) with
    | none => rfl
    | some x => rfl
  · refine Eq.trans ?_ ht
    unfold State.sep
    split
    · rw [State.bump_seps]
    · rfl

theorem startRewrite_sep (s : State) (st : Nat) (c : BaseCmd) : (s.startRewrite st c).sep st =
    { s.sep st with
      slots := (s.sep st).slots.filter (fun x =>
        !((sepOp c == opRegrow || sepFill c) && x.1 == sepSlot c) && x.2.shard != c.shard)
      cur := some ⟨c, sepOp c, 0, none, s.collected st c, false, false⟩ } := by
  obtain ⟨hok, hsep⟩ := takeSlot_effect s st c
  unfold State.startRewrite
  dsimp only
  rw [sep_setSep, if_pos rfl, hok, hsep]

/-! ### COLLECT -/

/-- The collection that a COLLECT opens. -/
def openedSlot (c : BaseCmd) : CollSlot :=
  ⟨c.shard, (sepGeo c).rows, (sepGeo c).k, (sepGeo c).pitch, c.word 5, c.word 15, false⟩

theorem collectNow_effect (h : s.CleanStacks) (st : Nat) (c : BaseCmd) :
    (s.collectNow st c).sep st = { s.sep st with slots := tput (s.sep st).slots (sepSlot c) (openedSlot c) } ∧
    (∀ a, byteAt (s.collectNow st c).mem.cells a =
      if planeOff st (c.word 15) 0 ≤ a ∧ a < planeOff st (c.word 15) 0 + 32 * (sepGeo c).groups then 0
      else byteAt s.mem.cells a) ∧
    (s.collectNow st c).reg (Reg.SEP_COMMANDS st) = (s.reg (Reg.SEP_COMMANDS st) + 1) % 2 ^ 32 := by
  have hzero := zeroStack_stored h c.reader (planeOff st (c.word 15) 0) (32 * (sepGeo c).groups)
  unfold State.collectNow
  extract_lets g z u v
  have hz : s.Stored z _ := hzero
  have hv : v.sep st = { s.sep st with slots := tput (s.sep st).slots (sepSlot c) (openedSlot c) } := by
    refine (sep_setSep ..).trans ((if_pos rfl).trans ?_)
    exact congrArg (fun u : SepUnit => { u with slots := tput u.slots (sepSlot c) (openedSlot c) }) (hz.sep st)
  have hbump := State.bumpBy_hide 1 rfl v (Reg.SEP_GROUPS st) g.groups
  have htold := cmdEnd_told (v.bumpBy (Reg.SEP_GROUPS st) g.groups) clsSep st c 0 0
  have hcells : ((v.bumpBy (Reg.SEP_GROUPS st) g.groups).cmdEnd clsSep st c 0 0).mem.cells = z.mem.cells :=
    congrArg Memory.cells (htold.mem.trans (State.bumpBy_mem ..))
  refine ⟨?_, fun a => ?_, ?_⟩
  · rw [Told.sep htold]
    refine Eq.trans ?_ hv
    unfold State.sep
    rw [State.bumpBy_seps]
  · rw [hcells, hz.cells]
    split
    · next hn => rw [if_neg (by omega)]
    · exact byteAt_zeroBytes ..
  · rw [cmdEnd_count, reg_bumpBy, if_neg (by unfold Reg.SEP_COMMANDS Reg.SEP_GROUPS regAddr; omega)]
    refine congrArg (fun x => (x + 1) % 2 ^ 32) ?_
    exact hz.reg _ (by unfold Reg.SEP_COMMANDS regAddr storeCounter; omega)

/-! ### AUDIT -/

theorem length_record (a : Audit) : a.record.length = 32 := by
  unfold Audit.record
  simp only [List.length_append, length_leBytes]

theorem auditNow_effect (h : s.CleanStacks) {st : Nat} {c : BaseCmd} {a : Audit} (hmasters : c.word 6 ≠ 0)
    (hquiet : bitOf (c.word 0) 13 = false)
    (ha : auditOf (sepSrcB c) (sepGeo c) [bytesAt s.mem.cells (planeOff st (c.word 5) 0) (2 * (sepGeo c).groups),
      bytesAt s.mem.cells (planeOff st (c.word 6) 0) (4 * budgetOf (sepSrcB c) * (sepGeo c).groups)] = a) :
    (s.auditNow st c).sep st = s.sep st ∧
      (s.auditNow st c).mem.cells = setBytes s.mem.cells (planeOff st (c.word 15) 0) a.record ∧
      (s.auditNow st c).reg (Reg.SEP_AUDIT_FAILS st) = (s.reg (Reg.SEP_AUDIT_FAILS st) + bnat a.firstFail.isSome) % 2 ^ 32 := by
  unfold State.auditNow
  extract_lets g b runs d x u v
  have hd : d = ⟨s, runs.map (fun x => bytesAt s.mem.cells x.1 x.2), false, 0⟩ := readRuns_clean h ..
  have hruns : runs = [(planeOff st (c.word 5) 0, 2 * g.groups), (planeOff st (c.word 6) 0, 4 * b * g.groups)] :=
    congrArg (List.cons _) (if_neg hmasters)
  have hx : x = a := by
    show auditOf (sepSrcB c) g d.data = a
    rw [hd, hruns]
    exact ha
  have hcount : u.hide 1 = s.hide 1 := by
    show ((d.s.bumpBy _ _).bumpBy _ _).hide 1 = _
    rw [hd]
    exact (State.bumpBy_hide 1 rfl ..).trans (State.bumpBy_hide 1 rfl ..)
  have hclean : u.CleanStacks := by
    unfold State.CleanStacks
    rw [kept_mem hcount rfl rfl]
    exact h
  have hstore : u.Stored v (setBytes u.mem.cells (planeOff st (c.word 15) 0) x.record) := writeStack_stored hclean ..
  have hfails : v.reg (Reg.SEP_AUDIT_FAILS st) = s.reg (Reg.SEP_AUDIT_FAILS st) := by
    refine (hstore.reg _ (by unfold Reg.SEP_AUDIT_FAILS regAddr storeCounter; omega)).trans ?_
    show ((d.s.bumpBy _ _).bumpBy _ _).reg _ = _
    rw [hd, reg_bumpBy, if_neg (by unfold Reg.SEP_AUDIT_FAILS Reg.SEP_MASK_DROPS regAddr; omega), reg_bumpBy,
      if_neg (by unfold Reg.SEP_AUDIT_FAILS Reg.SEP_GROUPS regAddr; omega)]
  have hsep : v.sep st = s.sep st := by
    rw [hstore.sep]
    unfold State.sep
    rw [kept_seps hcount rfl]
  have hcells : v.mem.cells = setBytes s.mem.cells (planeOff st (c.word 15) 0) a.record := by
    rw [hstore.cells, hx, kept_mem hcount rfl rfl]
  have hended (w : State) (hw : w.hide 1 = v.hide 1) : (w.cmdEnd clsSep st c 0 0).sep st = s.sep st ∧
      (w.cmdEnd clsSep st c 0 0).mem.cells = setBytes s.mem.cells (planeOff st (c.word 15) 0) a.record ∧
      (w.cmdEnd clsSep st c 0 0).reg (Reg.SEP_AUDIT_FAILS st) = w.reg (Reg.SEP_AUDIT_FAILS st) := by
    have htold := cmdEnd_told w clsSep st c 0 0
    refine ⟨?_, ?_, htold.reg _ ?_⟩
    · rw [Told.sep htold, ← hsep]
      unfold State.sep
      rw [kept_seps hw rfl]
    · rw [htold.mem, kept_mem hw rfl rfl, hcells]
    · simp [commandRegs, Reg.SEP_AUDIT_FAILS, Reg.SEP_COMMANDS, Reg.SEP_CMD_STATUS, Reg.SEP_CMD_FAULT_ADDR, regAddr]
  clear_value u v x
  rw [hd, if_neg Bool.false_ne_true]
  subst hx
  cases hfail : x.firstFail with
  | none =>
    obtain ⟨e1, e2, e3⟩ := hended v rfl
    refine ⟨e1, e2, e3.trans (hfails.trans ?_)⟩
    exact (Nat.mod_eq_of_lt (reg_lt ..)).symm
  | some f =>
    obtain ⟨e1, e2, e3⟩ := hended (v.bump (Reg.SEP_AUDIT_FAILS st)) (State.bump_hide 1 rfl ..)
    dsimp only
    rw [hquiet, if_neg Bool.false_ne_true]
    refine ⟨e1, e2, e3.trans ?_⟩
    rw [reg_bump, if_pos rfl, hfails]
    rfl

/-! ### The starts -/

/-- The start instruction of each opcode. -/
theorem exec_of_opcode {s t : State} {st : Fin 12} {i : Instr} {op : Nat} (hi : (i, op) ∈ [(Instr.prune st, opPrune),
    (.regrow st, opRegrow), (.audit st, opAudit), (.collect st, opCollect)]) (ht : s.sepStart st op = t) :
    exec i s = .next t := by
  simp only [List.mem_cons, Prod.mk.injEq, List.not_mem_nil, or_false] at hi
  rcases hi with ⟨rfl, rfl⟩ | ⟨rfl, rfl⟩ | ⟨rfl, rfl⟩ | ⟨rfl, rfl⟩
  all_goals exact done_of_eq ht

theorem sepTaken_shardState (s : State) (st : Nat) (rest : List BaseCmd) (sh : Nat) :
    (s.sepTaken st rest).shardState st sh = s.shardState st sh := rfl

/-- A record refused with BAD_SEP_COMMAND leaves the queue, and the host reads the refusal. -/
theorem cmdFail_taken (s : State) (st : Nat) {c : BaseCmd} (rest : List BaseCmd) (hsrc : c.src = .host) :
    (((s.sepTaken st rest).cmdFail clsSep st c 0x0401 0 false).sep st) = { s.sep st with queue := rest } ∧
      ((s.sepTaken st rest).cmdFail clsSep st c 0x0401 0 false).mem = s.mem ∧
      fieldOf (((s.sepTaken st rest).cmdFail clsSep st c 0x0401 0 false).reg (Reg.SEP_CMD_STATUS st)) 31 16 = 0x0401 ∧
      ((s.sepTaken st rest).cmdFail clsSep st c 0x0401 0 false).reg (Reg.SEP_CMD_FAULT_ADDR st) = 0 := by
  rw [cmdFail_host_told hsrc (.inl rfl)]
  have htold := cmdEnd_told (s.sepTaken st rest) clsSep st c 0x0401 0
  obtain ⟨hstatus, haddr⟩ := cmdEnd_host_status (s.sepTaken st rest) (st := st) (c := c) (code := 0x0401) 0 hsrc (by decide)
  exact ⟨(Told.sep htold).trans (sepTaken_sep ..), htold.mem, hstatus, haddr⟩

/-- Settles O32: what a start finds at the front of a Separator's queue begins, or is refused. -/
theorem separatorStarts : Obligations.SeparatorStarts := by
  refine ⟨fun s st c rest i op hi hcur hqueue hop hhold hstop hgood hfree hstate hquiet => ?_,
    fun s st c rest hcur hqueue hop hhold hstop hgood hfree hstate hquiet => ?_,
    fun s st c rest a hcur hqueue hop hhold hstop hgood hfree hstate hquiet hmasters hsilent ha => ?_,
    fun s st c rest i hi hcur hqueue hop hhold hstop hsrc => ?_,
    fun s st c rest i hi hcur hqueue hhold hstop hgood hfree hstate hquiet hsrc => ?_⟩
  · have hclean : (s.sepTaken st rest).CleanStacks := hquiet.1
    have hop' : op = opPrune ∨ op = opRegrow := hi.imp And.right And.right
    have hgo : (s.sepTaken st rest).sepGo st op c = (s.sepTaken st rest).startRewrite st c := by
      rw [sepGo_of_clean hclean, sepTaken_shardState, if_neg hstate, if_neg (by rcases hop' with rfl | rfl <;> decide),
        if_neg (by rcases hop' with rfl | rfl <;> decide)]
    have hexec : exec i s = .next ((s.sepTaken st rest).startRewrite st c) := by
      refine exec_of_opcode (st := st) (op := op) ?_ ((sepStart_of_good hcur hqueue hop hhold hstop hgood hfree).trans hgo)
      rcases hi with ⟨rfl, rfl⟩ | ⟨rfl, rfl⟩
      · exact List.mem_cons_self
      · exact List.mem_cons_of_mem _ List.mem_cons_self
    have hrest := State.startRewrite_hide 9 rfl (s.sepTaken st rest) st c
    have hmem := kept_mem hrest rfl rfl
    have hrun := kept_run hrest rfl
    have hsep := startRewrite_sep (s.sepTaken st rest) st c
    rw [sepTaken_sep] at hsep
    have hnamed : (i == .regrow st) = (sepOp c == opRegrow) := by
      rcases hi with ⟨rfl, rfl⟩ | ⟨rfl, rfl⟩
      · rw [hop]
        exact beq_eq_false_iff_ne.mpr nofun
      · rw [hop]
        exact beq_self_eq_true _
    refine ⟨_, hexec, by rw [hsep], ?_, fun x hx => ?_, hmem, hrun⟩
    · rw [hsep, hnamed, ← hop]
      unfold State.collected
      rw [sepTaken_sep]
    · rw [hsep] at hx
      have := (List.mem_filter.mp hx).2
      simp only [Bool.and_eq_true, bne_iff_ne] at this
      exact this.2
  · have hclean : (s.sepTaken st rest).CleanStacks := hquiet.1
    have hgo : (s.sepTaken st rest).sepGo st opCollect c = (s.sepTaken st rest).collectNow st c := by
      rw [sepGo_of_clean hclean, sepTaken_shardState, if_neg hstate, if_pos rfl]
    obtain ⟨hsep, hbytes, hcount⟩ := collectNow_effect hclean st c
    rw [sepTaken_sep] at hsep
    refine ⟨_, done_of_eq ((sepStart_of_good hcur hqueue hop hhold hstop hgood hfree).trans hgo), by rw [hsep], ?_, ?_, hbytes,
      hcount⟩
    · rw [hsep]
      exact hcur
    · rw [hsep]
      exact (tfind_tput ..).trans (if_pos rfl)
  · have hclean : (s.sepTaken st rest).CleanStacks := hquiet.1
    have hgo : (s.sepTaken st rest).sepGo st opAudit c = (s.sepTaken st rest).auditNow st c := by
      rw [sepGo_of_clean hclean, sepTaken_shardState, if_neg hstate, if_neg (by decide), if_pos rfl]
    obtain ⟨hsep, hcells, hfails⟩ := auditNow_effect hclean (st := st) (c := c) (a := a) hmasters hsilent ha
    rw [sepTaken_sep] at hsep
    refine ⟨_, done_of_eq ((sepStart_of_good hcur hqueue hop hhold hstop hgood hfree).trans hgo), by rw [hsep], ?_, ?_,
      fun x hx => ?_, hfails⟩
    · rw [hsep]
      exact hcur
    · rw [hcells, ← length_record a]
      exact bytesAt_setBytes_self ..
    · rw [hcells, byteAt_setBytes, length_record, if_neg hx]
      rfl
  · obtain ⟨hsep, hmem, hstatus, haddr⟩ := cmdFail_taken s st (c := c) rest hsrc
    have hstep (op : Nat) := sepStart_of_no_opcode (s := s) (st := st) (op := op) hcur hqueue hop hhold hstop
    refine ⟨_, ?_, by rw [hsep], hmem, hstatus, haddr⟩
    simp only [List.mem_cons, List.not_mem_nil, or_false] at hi
    rcases hi with rfl | rfl | rfl | rfl
    all_goals exact done_of_eq (hstep _)
  · have hclean : (s.sepTaken st rest).CleanStacks := hquiet.1
    obtain ⟨hsep, hmem, hstatus, -⟩ := cmdFail_taken s st (c := c) rest hsrc
    have hgo : (s.sepTaken st rest).sepGo st (sepOp c) c = (s.sepTaken st rest).cmdFail clsSep st c 0x0401 0 false := by
      rw [sepGo_of_clean hclean, sepTaken_shardState, if_pos hstate]
    refine ⟨_, exec_of_opcode hi ((sepStart_of_good hcur hqueue rfl hhold hstop hgood hfree).trans hgo), by rw [hsep], ?_, hmem,
      hstatus⟩
    rw [hsep]
    exact hcur

end Sys2Proof.Machine

end

section

/-!
The Separator's batches and intake (R151, R157 to R159).
-/

namespace Sys2Proof.Machine

variable {s t u : State}

/-! ### What a fault leaves of the Separators' counters -/

/-- The places of MASK_DROPS and CHECK_FAILS in a Separator's block: no operation that a fault sets off writes there. -/
def CheckCounter (a : Nat) : Prop := a % 2 ^ 16 = 0x102C ∨ a % 2 ^ 16 = 0x1044

/-- From clean stacks, clean stacks and the same value of a register. -/
structure State.Spares (a : Nat) (s t : State) : Prop where
  kept : s.CleanStacks → t.CleanStacks ∧ t.reg a = s.reg a

section
variable {a : Nat}

theorem State.Spares.trans (h : State.Spares a s t) (k : State.Spares a t u) : State.Spares a s u := ⟨fun hs =>
  have ht := h.kept hs
  have hu := k.kept ht.1
  ⟨hu.1, hu.2.trans ht.2⟩⟩

theorem State.Spares.refl (a : Nat) (s : State) : State.Spares a s s := ⟨fun hs => ⟨hs, rfl⟩⟩

theorem State.Spares.of_eq (hm : t.mem = s.mem) (hr : t.reg a = s.reg a) : State.Spares a s t := ⟨fun hs =>
  ⟨by unfold State.CleanStacks; rw [hm]; exact hs, hr⟩⟩

/-- An operation that leaves registers and memory. -/
theorem State.Spares.of_hide {m : Nat} (e : t.hide m = s.hide m) (h0 : m.testBit 0 = false) (h14 : m.testBit 14 = false)
    (h15 : m.testBit 15 = false) : State.Spares a s t :=
  .of_eq (kept_mem e h14 h15) (reg_congr (kept_regs e h0) a)

theorem State.Spares.foldl {α : Type} {f : State → α → State} (hf : ∀ (t : State) x, State.Spares a t (f t x)) (l : List α)
    (s : State) : State.Spares a s (l.foldl f s) := by
  induction l generalizing s with
  | nil => exact .refl a s
  | cons x l ih => exact (hf s x).trans (ih _)

theorem spares_setReg {b : Nat} (h : a ≠ b) (s : State) (v : Nat) : State.Spares a s (s.setReg b v) :=
  .of_eq (State.setReg_mem ..) (reg_setReg_ne _ _ _ _ h)

theorem spares_bump {b : Nat} (h : a ≠ b) (s : State) : State.Spares a s (s.bump b) := spares_setReg h s _

theorem spares_bumpBy {b : Nat} (h : a ≠ b) (s : State) (n : Nat) : State.Spares a s (s.bumpBy b n) := spares_setReg h s _

theorem spares_event (ha : CheckCounter a) (s : State) (cls inst bit addr : Nat) : State.Spares a s (s.event cls inst bit addr) := by
  have hmem := kept_mem (State.event_hide 129 rfl s cls inst bit addr) rfl rfl
  refine .of_eq hmem (event_reg _ _ _ _ _ _ ?_ ?_ ?_ ?_)
  all_goals
    unfold CheckCounter at ha
    rintro rfl
    simp only [Reg.EVENT_RAW, Reg.COUNTER_0, Reg.EVENT_LATCH, Reg.QMGR_LOG_LOST, regAddr] at ha
    omega

theorem spares_withCtl (s : State) (c : Control) : State.Spares a s { s with ctl := c } := .of_eq rfl rfl

theorem spares_withRun (s : State) (r : RunState) : State.Spares a s { s with run := r } := .of_eq rfl rfl

theorem spares_logAppend (ha : CheckCounter a) (s : State) (r : LogRecord) : State.Spares a s (s.logAppend r) := by
  have hlost : a ≠ Reg.QMGR_LOG_LOST := by
    rintro rfl
    unfold CheckCounter Reg.QMGR_LOG_LOST regAddr at ha
    omega
  unfold State.logAppend
  dsimp only
  split
  · exact spares_withCtl s _
  · split
    · exact (spares_withCtl s _).trans (spares_bump hlost _)
    · exact spares_bump hlost s

theorem spares_faultRecord (ha : CheckCounter a) (s : State) (f : FaultAt) (first : Bool) :
    State.Spares a s (s.faultRecord f first) := by
  have hcounter : a ≠ Reg.COUNTER_1 f.cls f.inst := by
    rintro rfl
    unfold CheckCounter Reg.COUNTER_1 regAddr at ha
    omega
  exact ((spares_logAppend ha s _).trans (spares_bump hcounter _)).trans (spares_event ha _ ..)

theorem spares_hostDone (ha : CheckCounter a) (s : State) (cls inst code addr : Nat) :
    State.Spares a s (s.hostDone cls inst code addr) := by
  have hmem := kept_mem (State.hostDone_hide 1 rfl s cls inst code addr) rfl rfl
  refine .of_eq hmem (hostDone_reg _ _ _ _ _ ?_)
  unfold CheckCounter at ha
  unfold commandRegs
  split
  all_goals
    simp only [List.mem_cons, List.not_mem_nil, or_false, Reg.SEP_COMMANDS, Reg.SEP_CMD_STATUS, Reg.SEP_CMD_FAULT_ADDR,
      Reg.UPD_COMMANDS, Reg.UPD_CMD_STATUS, Reg.UPD_CMD_FAULT_ADDR, regAddr]
    omega

theorem spares_counted (ha : CheckCounter a) (i : Nat) : a ≠ Reg.SEP_COMMANDS i ∧ a ≠ Reg.SEP_TRUNCATED i := by
  unfold CheckCounter at ha
  refine ⟨?_, ?_⟩
  all_goals
    rintro rfl
    simp only [Reg.SEP_COMMANDS, Reg.SEP_TRUNCATED, regAddr] at ha
    omega

theorem State.Stored.spares {cs : List Host.Cell} (h : s.CleanStacks → s.Stored t cs) (ha : CheckCounter a) :
    State.Spares a s t := ⟨fun hs =>
  ⟨(h hs).clean hs, (h hs).reg a (by unfold CheckCounter at ha; unfold storeCounter; omega)⟩⟩

theorem spares_setJournal (ha : CheckCounter a) (s : State) (st sh : Nat) {w : Nat} (hw : w < 16) (hi lo v : Nat) :
    State.Spares a s (s.setJournal st sh w hi lo v) :=
  State.Stored.spares (fun hs => setJournal_stored hs st sh hw hi lo v) ha

theorem spares_stopSep (ha : CheckCounter a) (s : State) (i : Nat) : State.Spares a s (s.stopSep i) := by
  obtain ⟨hcommands, htruncated⟩ := spares_counted ha i
  unfold State.stopSep
  extract_lets u ids s1
  have h1 : State.Spares a s s1 := .of_hide (State.dropRequests_hide 4 rfl ..) rfl rfl rfl
  split
  · exact h1.trans (.of_hide (State.setSep_hide 8 rfl ..) rfl rfl rfl)
  · next r _ =>
    extract_lets s2 s3 src s4
    have h2 : State.Spares a s1 s2 := .of_hide (State.dropRequests_hide 4 rfl ..) rfl rfl rfl
    have h3 : State.Spares a s2 s3 :=
      (spares_setJournal ha s2 i r.cmd.shard (by decide) 30 30 1).trans (spares_setJournal ha _ i r.cmd.shard (by decide) 24 22 0)
    have h4 : State.Spares a s3 s4 := by
      refine State.Spares.trans (t := if r.cmd.src = .host then s3.hostDone clsSep i 0 0 else s3) ?_
        (.of_hide (State.setUpd_hide 16 rfl ..) rfl rfl rfl)
      split
      · exact spares_hostDone ha s3 ..
      · exact .refl a s3
    split
    · exact h1.trans (.of_hide (State.setSep_hide 8 rfl ..) rfl rfl rfl)
    · refine (((h1.trans h2).trans h3).trans h4).trans ?_
      refine State.Spares.trans ?_ (spares_bump hcommands _)
      exact State.Spares.trans (.of_hide (State.setSep_hide 8 rfl ..) rfl rfl rfl) (spares_bump htruncated _)

theorem spares_cutWaits (ha : CheckCounter a) (s : State) : State.Spares a s s.cutWaits := by
  unfold State.cutWaits
  refine State.Spares.foldl (fun t k => ?_) _ s
  have hbubbles : a ≠ Reg.CORE_LOAD_BUBBLES k.1 := by
    rintro rfl
    unfold CheckCounter Reg.CORE_LOAD_BUBBLES regAddr at ha
    omega
  split
  · unfold State.bubbles
    split
    · exact .refl a t
    · exact spares_bumpBy hbubbles t _
  · exact .refl a t

theorem spares_planStop (ha : CheckCounter a) (s : State) : State.Spares a s s.planStop := by
  have hbases : State.Spares a s.cutWaits s.cutWaits.stopBases :=
    State.Spares.foldl (fun t i => (spares_stopSep ha t i).trans (.of_hide (State.stopUpd_hide 20 rfl ..) rfl rfl rfl)) _ _
  unfold State.planStop
  exact ((spares_cutWaits ha s).trans hbases).trans (spares_withRun ..)

theorem spares_safeSep (ha : CheckCounter a) (s : State) (i : Nat) : State.Spares a s (s.safeSep i) := by
  obtain ⟨hcommands, htruncated⟩ := spares_counted ha i
  unfold State.safeSep
  extract_lets u
  split
  · exact .refl a s
  · next r _ =>
    extract_lets named s1 src2 s2 s3 src4 s4
    split
    · exact .refl a s
    · have h1 : State.Spares a s s1 := .of_hide (State.dropRequests_hide 4 rfl ..) rfl rfl rfl
      have h2 : State.Spares a s1 s2 := .of_hide (State.setUpd_hide 16 rfl ..) rfl rfl rfl
      have h3 : State.Spares a s2 s3 := by
        show State.Spares a s2 (if r.cmd.src = .host then s2.hostDone clsSep i 0 0 else s2)
        split
        · exact spares_hostDone ha s2 ..
        · exact .refl a s2
      have h4 : State.Spares a s3 s4 :=
        State.Spares.trans (.of_hide (State.setSep_hide 8 rfl ..) rfl rfl rfl) (spares_bump hcommands _)
      refine ((h1.trans h2).trans h3).trans (h4.trans ?_)
      split
      · exact spares_bump htruncated s4
      · exact .refl a s4

theorem spares_safeUpd (ha : CheckCounter a) (s : State) (i : Nat) : State.Spares a s (s.safeUpd i) := by
  unfold State.safeUpd
  extract_lets u
  split
  · exact .refl a s
  · next r _ =>
    extract_lets s1 s2
    have h1 : State.Spares a s s1 := .of_hide (State.dropRequests_hide 4 rfl ..) rfl rfl rfl
    have h2 : State.Spares a s1 s2 := by
      show State.Spares a s1 (if r.cmd.src = .host then s1.hostDone clsUpd i 0 0 else s1)
      split
      · exact spares_hostDone ha s1 ..
      · exact .refl a s1
    exact (h1.trans h2).trans (.of_hide (State.setUpd_hide 16 rfl ..) rfl rfl rfl)

theorem spares_withRunFab (s : State) (r : RunState) (f : Fabric) : State.Spares a s { s with run := r, fab := f } := .of_eq rfl rfl

theorem spares_safeSends (ha : CheckCounter a) (s : State) : State.Spares a s s.safeSends := by
  have hsnap : a ≠ Reg.UPD_SNAP_STATUS := by
    rintro rfl
    unfold CheckCounter Reg.UPD_SNAP_STATUS regAddr at ha
    omega
  unfold State.safeSends
  exact (spares_setReg hsnap s _).trans (spares_withRunFab ..)

theorem spares_detect (ha : CheckCounter a) (s : State) (f : FaultAt) : State.Spares a s (s.detect f) := by
  unfold State.detect
  extract_lets first seq sf rep src s1
  have h1 : State.Spares a s s1 := .of_eq rfl rfl
  have h2 := spares_safeSends ha s1
  refine (h1.trans h2).trans ?_
  exact State.Spares.foldl (fun t i => (spares_safeSep ha t i).trans (spares_safeUpd ha _ i)) _ _

/-- A fault leaves the Separators' counters of checks and drops. -/
theorem spares_raise (ha : CheckCounter a) (s : State) (f : FaultAt) (d : Bool) : State.Spares a s (s.raise f d) := by
  have hrecord := spares_faultRecord ha s f s.planRuns
  have hfaulted : State.Spares a s (s.faulted f d) := by
    unfold State.faulted
    split
    · exact hrecord.trans (spares_detect ha _ f)
    · exact hrecord
  rw [State.raise_eq]
  split
  · exact hfaulted.trans (spares_planStop ha _)
  · exact hfaulted

end

/-! ### Batches in clean stacks -/

/-- Bytes were stored and units of the base dies changed; the log and the registers but the counters of stores are as before. -/
structure State.Reworked (s t : State) : Prop where
  clean : t.CleanStacks
  ctl : t.ctl = s.ctl
  reg : ∀ a, a % 2 ^ 16 ≠ storeCounter → t.reg a = s.reg a

theorem State.Stored.reworked {cs : List Host.Cell} (h : s.Stored t cs) (hs : s.CleanStacks) : s.Reworked t :=
  ⟨h.clean hs, h.ctl, h.reg⟩

theorem State.Reworked.refl (hs : s.CleanStacks) : s.Reworked s := ⟨hs, rfl, fun _ _ => rfl⟩

theorem State.Reworked.trans (h : s.Reworked t) (k : t.Reworked u) : s.Reworked u :=
  ⟨k.clean, k.ctl.trans h.ctl, fun a ha => (k.reg a ha).trans (h.reg a ha)⟩

theorem setUpd_reworked (h : s.CleanStacks) (i : Nat) (x : UpdUnit) : s.Reworked (s.setUpd i x) := ⟨h, rfl, fun _ _ => rfl⟩

theorem setSep_reworked (h : s.CleanStacks) (i : Nat) (x : SepUnit) : s.Reworked (s.setSep i x) := ⟨h, rfl, fun _ _ => rfl⟩

theorem setJournal_reworked (h : s.CleanStacks) (st sh : Nat) {w : Nat} (hw : w < 16) (hi lo v : Nat) :
    s.Reworked (s.setJournal st sh w hi lo v) := (setJournal_stored h st sh hw hi lo v).reworked h

theorem saveUndo_clean (h : s.CleanStacks) (st k : Nat) (r : Reader) (runs : List (Nat × Nat)) :
    (s.saveUndo st k r runs).bad = false ∧ ∃ cs, s.Stored (s.saveUndo st k r runs).s cs := by
  unfold State.saveUndo
  rw [readRuns_clean h]
  dsimp only
  rw [if_neg Bool.false_ne_true]
  split
  · exact ⟨rfl, _, .refl s⟩
  · exact ⟨rfl, _, writeStack_stored h ..⟩

theorem restoreBatch_clean (h : s.CleanStacks) (st k : Nat) (r : Reader) (x : Undo) :
    ∃ cs, s.Stored (s.restoreBatch st k r x).1 cs := by
  unfold State.restoreBatch
  split
  · exact ⟨_, .refl s⟩
  · dsimp only
    rw [readRuns_clean h, if_neg Bool.false_ne_true]
    exact ⟨_, writeRuns_stored h ..⟩

/-- The state in which a batch's prior slots are kept, where it writes over its own source. -/
def State.sepSaved (s : State) (st : Nat) (r : SepRun) (ws : List (Nat × List Byte)) : Runs :=
  if sepInPlace r.cmd then s.sepUndoBatch st r ws else ⟨s, [], false, 0⟩

theorem sepSaved_clean (h : s.CleanStacks) (st : Nat) (r : SepRun) (ws : List (Nat × List Byte)) :
    (s.sepSaved st r ws).bad = false ∧ s.Reworked (s.sepSaved st r ws).s := by
  unfold State.sepSaved
  split
  · obtain ⟨hbad, cs, hcs⟩ := saveUndo_clean h st 0 r.cmd.reader (runsOfWrites ws)
    unfold State.sepUndoBatch
    extract_lets c d src v
    have hd : d.bad = false := hbad
    have hstored : s.Stored d.s cs := hcs
    rw [hd, if_neg Bool.false_ne_true]
    have hv := (hstored.reworked h).trans (setUpd_reworked (hstored.clean h) st { d.s.upd st with
      sepUndo := some ⟨c.shard, r.group / 256, runsOfWrites ws⟩ })
    have hop := setJournal_reworked hv.clean st c.shard (w := 0) (by decide) 24 22 r.opcode
    have hbatch := setJournal_reworked hop.clean st c.shard (w := 0) (by decide) 17 0 (r.group / 256)
    exact ⟨rfl, hv.trans (hop.trans hbatch)⟩
  · exact ⟨rfl, .refl h⟩

/-- The bits that a batch's decode dropped, counted. -/
def State.dropsCounted (s : State) (st : Nat) (b : Batch) : State :=
  s.bumpBy (Reg.SEP_MASK_DROPS st) ((b.ins.map (·.drops)).foldl (· + ·) 0)

theorem dropsCounted_hide (s : State) (st : Nat) (b : Batch) : (s.dropsCounted st b).hide 1 = s.hide 1 :=
  State.bumpBy_hide 1 rfl ..

theorem dropsCounted_clean (h : s.CleanStacks) (st : Nat) (b : Batch) : (s.dropsCounted st b).CleanStacks := by
  unfold State.CleanStacks
  rw [kept_mem (dropsCounted_hide s st b) rfl rfl]
  exact h

theorem dropsCounted_reg (s : State) (st : Nat) (b : Batch) (a : Nat) : (s.dropsCounted st b).reg a =
    if a = Reg.SEP_MASK_DROPS st then (s.reg a + (b.ins.map (·.drops)).foldl (· + ·) 0) % 2 ^ 32 else s.reg a := by
  refine (reg_bumpBy ..).trans ?_
  split
  · next h => rw [h]
  · rfl

/-- The state in which a batch's groups are written, before its check. -/
def State.batchWritten (s : State) (st : Nat) (r : SepRun) (b : Batch) (wrong : List LaneError) : State :=
  ((s.dropsCounted st b).sepSaved st r (b.writes st r.cmd r.group wrong)).s.writeRuns r.cmd.reader
    (b.writes st r.cmd r.group wrong)

section
variable {st : Nat} {r : SepRun} {b : Batch} {wrong : List LaneError} {n : Nat}

theorem sepBatch_eq (hcur : (s.sep st).cur = some r) (hwaiting : r.waiting = false)
    (hhold : s.power.hold = false ∨ r.held = false) (hstop : s.safety.stop = false) (h : s.CleanStacks)
    (hn : n = min 256 ((sepGeo r.cmd).groups - r.group))
    (hb : sepBatchOf r.cmd r.hasCand r.group n
      ((sepRuns st r.cmd r.hasCand r.group n).map (fun x => bytesAt s.mem.cells x.1 x.2)) = b) :
    s.sepBatch st wrong = (b.firstFail r.cmd wrong).elim ((s.batchWritten st r b wrong).sepBatchDone st r b n)
      (fun k => (s.batchWritten st r b wrong).sepCheckFail st r (r.group + k)) := by
  obtain ⟨hbad, -⟩ := sepSaved_clean (dropsCounted_clean h st b) st r (b.writes st r.cmd r.group wrong)
  unfold State.sepBatch
  split
  · next hnone => cases hnone.symm.trans hcur
  · next x hx =>
    obtain rfl := Option.some.inj (hx.symm.trans hcur)
    rw [if_neg (by rcases hhold with hhold | hhold <;> simp [hwaiting, hhold, hstop])]
    extract_lets c k cands d b' ws v w
    obtain rfl : k = n := hn.symm
    have hd : d = ⟨s, (sepRuns st c cands x.group k).map (fun y => bytesAt s.mem.cells y.1 y.2), false, 0⟩ := readRuns_clean h ..
    obtain rfl : b' = b := by
      show sepBatchOf c cands x.group k d.data = b
      rw [hd]
      exact hb
    have hw : w = (s.dropsCounted st b').sepSaved st x ws := by
      show (if sepInPlace c then (d.s.bumpBy _ _).sepUndoBatch st x ws else ⟨d.s.bumpBy _ _, [], false, 0⟩) = _
      rw [hd]
      rfl
    clear_value w
    subst hw
    have hdbad : d.bad = false := by rw [hd]
    rw [hdbad, if_neg Bool.false_ne_true]
    rw [if_neg (by rw [hbad]; exact Bool.false_ne_true)]
    cases b'.firstFail c wrong with
    | none => rfl
    | some k => rfl

end

/-! ### A batch that passes its check -/

theorem countBatch_hide (s : State) (st : Nat) (c : BaseCmd) (b : Batch) : (s.countBatch st c b).hide 1 = s.hide 1 :=
  State.countBatch_hide 1 rfl ..

theorem countBatch_reg (s : State) (st : Nat) (c : BaseCmd) (b : Batch) :
    (s.countBatch st c b).reg (Reg.SEP_MASK_DROPS st) = s.reg (Reg.SEP_MASK_DROPS st) := by
  unfold State.countBatch
  dsimp only
  split
  all_goals
    simp only [reg_bumpBy, Reg.SEP_MASK_DROPS, Reg.SEP_GROUPS, Reg.SEP_FILLS, Reg.SEP_PRUNE_DROPS, Reg.SEP_SWAPS, regAddr]
    repeat rw [if_neg (by omega)]

/-- The first group of a command whose decode dropped bits, after a batch. -/
def SepRun.firstDropAfter (r : SepRun) (b : Batch) : Option Nat :=
  r.firstDrop.or ((b.ins.findIdx? (fun g => g.drops != 0)).map (· + r.group))

theorem sepBatchDone_of_more {st : Nat} {r : SepRun} {b : Batch} {n : Nat} (hmore : r.group + n < (sepGeo r.cmd).groups) :
    s.sepBatchDone st r b n = (s.countBatch st r.cmd b).setSep st { (s.countBatch st r.cmd b).sep st with
      cur := some { r with group := r.group + n, firstDrop := r.firstDropAfter b, held := s.power.hold } } := by
  have hpower : (s.countBatch st r.cmd b).power = s.power := kept_power (countBatch_hide ..) rfl
  unfold State.sepBatchDone
  extract_lets c first r' v
  have hfirst : first = r.firstDropAfter b := by
    unfold first SepRun.firstDropAfter
    cases r.firstDrop with
    | none => rfl
    | some g => rfl
  refine (if_neg (by simpa [r'] using hmore)).trans ?_
  rw [← hpower, ← hfirst]

theorem batchWritten_stored (h : s.CleanStacks) {st : Nat} {r : SepRun} (b : Batch) (wrong : List LaneError)
    (hplace : sepInPlace r.cmd = false) :
    (s.dropsCounted st b).Stored (s.batchWritten st r b wrong) (stores s.mem.cells (b.writes st r.cmd r.group wrong)) := by
  have hsaved : ((s.dropsCounted st b).sepSaved st r (b.writes st r.cmd r.group wrong)).s = s.dropsCounted st b := by
    unfold State.sepSaved
    rw [if_neg (by simp [hplace])]
  unfold State.batchWritten
  rw [hsaved, ← kept_cells (dropsCounted_hide s st b) rfl]
  exact writeRuns_stored (dropsCounted_clean h st b) ..

/-! ### A batch with a group that fails -/

theorem cmdFault_dangerous (s : State) (cls st : Nat) (c : BaseCmd) (code addr : Nat) :
    ∃ f : FaultAt, s.cmdFault cls st c code addr true = s.raise f true ∧ f.code = code ∧ f.cls = cls ∧ f.addr = addr := by
  unfold State.cmdFault
  split
  · exact ⟨_, rfl, rfl, rfl, rfl⟩
  · exact ⟨_, rfl, rfl, rfl, rfl⟩
  · exact ⟨_, if_pos rfl, rfl, rfl, rfl⟩

theorem dropSep_reworked (h : s.CleanStacks) (st : Nat) (c : BaseCmd) : s.Reworked (s.dropSep st c) := by
  unfold State.dropSep
  split
  · exact .refl h
  · have hsep := setSep_reworked h st { s.sep st with cur := none }
    exact hsep.trans (setJournal_reworked hsep.clean st c.shard (by decide) 24 22 0)

/-- The state in which a failed batch has been put back. -/
def State.batchRestored (s : State) (st : Nat) (c : BaseCmd) : State :=
  match sepInPlace c, (s.upd st).sepUndo with
  | true, some u =>
    let t := (s.restoreBatch st 0 c.reader u).1
    (t.setUpd st { t.upd st with sepUndo := none }).bump (Reg.SEP_TRUNCATED st)
  | _, _ => s

theorem batchRestored_effect (h : s.CleanStacks) (st : Nat) (c : BaseCmd) : (s.batchRestored st c).CleanStacks ∧
    (s.batchRestored st c).ctl = s.ctl ∧ ∀ a, CheckCounter a → (s.batchRestored st c).reg a = s.reg a := by
  have hplace {a : Nat} (ha : CheckCounter a) : a % 2 ^ 16 ≠ storeCounter := by
    unfold CheckCounter at ha
    unfold storeCounter
    omega
  unfold State.batchRestored
  split
  · next u _ _ =>
    obtain ⟨cs, hcs⟩ := restoreBatch_clean h st 0 c.reader u
    have hback := hcs.reworked h
    have hdone := hback.trans (setUpd_reworked hback.clean st { (s.restoreBatch st 0 c.reader u).1.upd st with sepUndo := none })
    refine ⟨?_, (State.bump_ctl ..).trans hdone.ctl, fun a ha => ?_⟩
    · unfold State.CleanStacks
      rw [State.bump_mem]
      exact hdone.clean
    · exact (reg_bump ..).trans ((if_neg (spares_counted ha st).2).trans (hdone.reg a (hplace ha)))
  · exact ⟨h, rfl, fun _ _ => rfl⟩

theorem sepCheckFail_eq (s : State) (st : Nat) (r : SepRun) (ga : Nat) : s.sepCheckFail st r ga =
    (((s.bump (Reg.SEP_CHECK_FAILS st)).batchRestored st r.cmd).dropSep st r.cmd).cmdFail clsSep st r.cmd 0x0404 ga true := rfl

/-- A failed check stops the module, is recorded with its group and counted. -/
theorem sepCheckFail_effect (h : s.CleanStacks) (hroom : s.ctl.log.length < logCapacity) (st : Nat) (r : SepRun) (ga : Nat) :
    (s.sepCheckFail st r ga).safety.stop = true ∧
      (∃ x ∈ (s.sepCheckFail st r ga).ctl.log, x.kind = 1 ∧ x.code = 0x0404 ∧ x.cls = clsSep ∧ x.addr = BitVec.ofNat 64 ga) ∧
      (s.sepCheckFail st r ga).reg (Reg.SEP_MASK_DROPS st) = s.reg (Reg.SEP_MASK_DROPS st) ∧
      (s.sepCheckFail st r ga).reg (Reg.SEP_CHECK_FAILS st) = (s.reg (Reg.SEP_CHECK_FAILS st) + 1) % 2 ^ 32 := by
  have hbclean : (s.bump (Reg.SEP_CHECK_FAILS st)).CleanStacks := by
    unfold State.CleanStacks
    rw [State.bump_mem]
    exact h
  obtain ⟨hclean, hctl, hreg⟩ := batchRestored_effect hbclean st r.cmd
  have hdrop := dropSep_reworked hclean st r.cmd
  have htold := cmdEnd_told (((s.bump (Reg.SEP_CHECK_FAILS st)).batchRestored st r.cmd).dropSep st r.cmd) clsSep st r.cmd 0x0404 ga
  have heq := sepCheckFail_eq s st r ga
  unfold State.cmdFail at heq
  generalize (((s.bump (Reg.SEP_CHECK_FAILS st)).batchRestored st r.cmd).dropSep st r.cmd).cmdEnd clsSep st r.cmd 0x0404 ga = e at *
  obtain ⟨f, hf, hcode, hcls, haddr⟩ := cmdFault_dangerous e clsSep st r.cmd 0x0404 ga
  have hectl : e.ctl = s.ctl := (kept_ctl htold.rest rfl).trans (hdrop.ctl.trans (hctl.trans (State.bump_ctl ..)))
  have heclean : e.CleanStacks := by
    unfold State.CleanStacks
    rw [htold.mem]
    exact hdrop.clean
  have hkept {a : Nat} (ha : CheckCounter a) : (s.sepCheckFail st r ga).reg a = (s.bump (Reg.SEP_CHECK_FAILS st)).reg a := by
    rw [heq, hf, ((spares_raise ha e f true).kept heclean).2, htold.reg a, hdrop.reg a, hreg a ha]
    · unfold CheckCounter at ha
      unfold storeCounter
      omega
    · unfold CheckCounter at ha
      simp only [commandRegs, if_pos, List.mem_cons, List.not_mem_nil, or_false, Reg.SEP_COMMANDS, Reg.SEP_CMD_STATUS,
        Reg.SEP_CMD_FAULT_ADDR, regAddr]
      omega
  refine ⟨?_, ?_, ?_, ?_⟩
  · rw [heq, hf]
    exact (State.raise_safety e f).1
  · rw [heq, hf]
    obtain ⟨x, hx, hkind, hxcode, hxcls, -, -, hxaddr, -⟩ := State.raise_shows e f true (by rw [hectl]; exact hroom)
    exact ⟨x, hx, hkind, hxcode.trans hcode, hxcls.trans hcls, hxaddr.trans (by rw [haddr])⟩
  · rw [hkept (.inl (by unfold Reg.SEP_MASK_DROPS regAddr; omega)), reg_bump,
      if_neg (by unfold Reg.SEP_MASK_DROPS Reg.SEP_CHECK_FAILS regAddr; omega)]
  · rw [hkept (.inr (by unfold Reg.SEP_CHECK_FAILS regAddr; omega)), reg_bump, if_pos rfl]

/-! ### Intake -/

theorem length_mergeCand (old new : List (Nat × Nat)) : (mergeCand old new).length = 32 := by
  unfold mergeCand
  simp [List.length_flatMap, length_leBytes]

/-- The new entries of a candidate record: positions of the group that its bitmap has pruned. -/
def newEntries (bitmap : Nat) (g : Geo) (ga : Nat) (bs : List Byte) : List (Nat × Nat) :=
  ((wordsOf 2 bs).mapIdx (fun p k => (p, k % 2 ^ 15))).filter (fun e => !bitOf bitmap e.1 && decide (e.1 < g.valid ga))

/-- A slot marked as delivered to, and the group counted. -/
def State.delivered (s : State) (st slot : Nat) (x : CollSlot) : State :=
  (s.setSep st { s.sep st with slots := tput (s.sep st).slots slot { x with delivered := true } }).bump
    (Reg.SEP_CANDIDATE_GROUPS st)

theorem delivered_slot (s : State) (st slot : Nat) (x : CollSlot) :
    tfind ((s.delivered st slot x).sep st).slots slot = some { x with delivered := true } := by
  have hseps : (s.delivered st slot x).seps = _ := State.bump_seps ..
  have hsep : (s.delivered st slot x).sep st =
      { s.sep st with slots := tput (s.sep st).slots slot { x with delivered := true } } :=
    (congrArg (fun q => tget SepUnit.reset q st) hseps).trans ((sep_setSep s st st _).trans (if_pos rfl))
  rw [hsep]
  exact (tfind_tput ..).trans (if_pos rfl)

theorem delivered_hide (s : State) (st slot : Nat) (x : CollSlot) : (s.delivered st slot x).hide 9 = s.hide 9 :=
  (State.bump_hide 9 rfl ..).trans (State.setSep_hide 9 rfl ..)

theorem delivered_count (s : State) (st slot : Nat) (x : CollSlot) : (s.delivered st slot x).reg (Reg.SEP_CANDIDATE_GROUPS st) =
    (s.reg (Reg.SEP_CANDIDATE_GROUPS st) + 1) % 2 ^ 32 := (reg_bump ..).trans (if_pos rfl)

/-- The record that a group's candidates become with those of a write. -/
def State.mergedAt (s : State) (st : Nat) (x : CollSlot) (o ga : Nat) (bs : List Byte) : List Byte :=
  mergeCand (candEntries (bytesAt s.mem.cells (planeOff st x.cand o) 32))
    (newEntries (natAt s.mem.cells (planeOff st x.bitmap (2 * ga)) 2) ⟨x.rows, x.k, x.pitch⟩ ga bs)

/-- A candidate record of an open slot is merged into its group. -/
theorem intake_of_slot (h : s.CleanStacks) {st off : Nat} {bs : List Byte} {x : CollSlot} (hhold : s.power.hold = false)
    (hslot : tfind (s.sep st).slots (off / 2 ^ 28) = some x) (hoff : off % 32 = 0) (hlen : bs.length = 32)
    (hgroup : off % 2 ^ 28 / 32 < x.rows * x.pitch) :
    s.intake st off bs = ((s.writeStack unitReader (planeOff st x.cand (off % 2 ^ 28))
      (s.mergedAt st x (off % 2 ^ 28) (off % 2 ^ 28 / 32) bs)).s).delivered st (off / 2 ^ 28) x := by
  have hplace : 32 * (off % 2 ^ 28 / 32) = off % 2 ^ 28 := by omega
  have hgood : ¬ (off % 32 ≠ 0 ∨ bs.length ≠ 32 ∨ (⟨x.rows, x.k, x.pitch⟩ : Geo).groups ≤ off % 2 ^ 28 / 32) := by
    show ¬ (off % 32 ≠ 0 ∨ bs.length ≠ 32 ∨ x.rows * x.pitch ≤ off % 2 ^ 28 / 32)
    omega
  have hread := readRuns_clean h unitReader [(planeOff st x.bitmap (2 * (off % 2 ^ 28 / 32)), 2),
    (planeOff st x.cand (off % 2 ^ 28), 32)]
  unfold State.intake
  dsimp only
  rw [if_neg (by simp [hhold]), hslot]
  dsimp only
  rw [if_neg hgood, hplace, hread, if_neg Bool.false_ne_true]
  rfl

/-- A write to no open slot is counted as stray. -/
theorem intake_of_stray {st off : Nat} {bs : List Byte} (hhold : s.power.hold = false)
    (hslot : tfind (s.sep st).slots (off / 2 ^ 28) = none) : s.intake st off bs =
      (s.bump (Reg.SEP_STRAY_CANDIDATES st)).event clsSep st evDiscard (s.zAddr 0 (windowBase st + 2 ^ 32 + off)) := by
  unfold State.intake
  extract_lets slot ga stray src
  rw [if_neg (by simp [hhold])]
  split
  · rfl
  · next y hy => cases hslot.symm.trans hy

/-- Settles O33: what a batch writes, how its check ends the command, and what a candidate record does. -/
theorem separatorWork : Obligations.SeparatorWork := by
  refine ⟨fun s st r b wrong hcur hwaiting hhold hstop hquiet hmore hplace hb hgood => ?_,
    fun s st r b wrong n k hcur hwaiting hhold hstop hquiet hroom hn hb hbad => ?_,
    fun s st off bs x hhold hquiet hslot hoff hlen hgroup => ?_, fun s st off bs hhold => ?_,
    fun s st off bs hhold hslot => ?_⟩
  · have hn : 256 = min 256 ((sepGeo r.cmd).groups - r.group) := by omega
    have heq := sepBatch_eq (wrong := wrong) hcur hwaiting hhold hstop hquiet.1 hn hb
    rw [hgood, Option.elim_none, sepBatchDone_of_more hmore] at heq
    have hdrops := dropsCounted_hide s st b
    have hstored := batchWritten_stored hquiet.1 (st := st) b wrong hplace
    have hcount := countBatch_hide (s.batchWritten st r b wrong) st r.cmd b
    have hreg := countBatch_reg (s.batchWritten st r b wrong) st r.cmd b
    generalize (s.batchWritten st r b wrong).countBatch st r.cmd b = v at *
    have hpower : (s.batchWritten st r b wrong).power = s.power := hstored.power.trans (kept_power hdrops rfl)
    have hsep : v.sep st = s.sep st := by
      unfold State.sep
      rw [kept_seps hcount rfl, hstored.seps, kept_seps hdrops rfl]
    refine ⟨_, done_of_eq heq, ⟨_, rfl, ?_⟩, ?_, (kept_cells hcount rfl).trans hstored.cells, ?_,
      (kept_run hcount rfl).trans (hstored.run.trans (kept_run hdrops rfl)),
      (kept_safety hcount rfl).trans (hstored.safety.trans (kept_safety hdrops rfl))⟩
    · rw [sep_setSep, if_pos rfl, hpower]
      rfl
    · rw [sep_setSep, if_pos rfl, hsep]
    · refine hreg.trans ((hstored.reg _ (by unfold Reg.SEP_MASK_DROPS regAddr storeCounter; omega)).trans ?_)
      rw [dropsCounted_reg, if_pos rfl]
  · have heq := sepBatch_eq (wrong := wrong) hcur hwaiting hhold hstop hquiet.1 hn hb
    rw [hbad, Option.elim_some] at heq
    have hdrops := dropsCounted_hide s st b
    obtain ⟨-, hsaved⟩ := sepSaved_clean (dropsCounted_clean hquiet.1 st b) st r (b.writes st r.cmd r.group wrong)
    have hwritten : (s.dropsCounted st b).Reworked (s.batchWritten st r b wrong) :=
      hsaved.trans ((writeRuns_stored hsaved.clean ..).reworked hsaved.clean)
    obtain ⟨hstopped, hrecord, hmask, hfails⟩ := sepCheckFail_effect hwritten.clean
      (by rw [hwritten.ctl, kept_ctl hdrops rfl]; exact hroom) st r (r.group + k)
    refine ⟨_, done_of_eq heq, hstopped, hrecord, hmask.trans ?_, hfails.trans ?_⟩
    · rw [hwritten.reg _ (by unfold Reg.SEP_MASK_DROPS regAddr storeCounter; omega), dropsCounted_reg, if_pos rfl]
    · rw [hwritten.reg _ (by unfold Reg.SEP_CHECK_FAILS regAddr storeCounter; omega), dropsCounted_reg,
        if_neg (by unfold Reg.SEP_CHECK_FAILS Reg.SEP_MASK_DROPS regAddr; omega)]
  · have hstored := writeStack_stored hquiet.1 unitReader (planeOff st x.cand (off % 2 ^ 28))
      (s.mergedAt st x (off % 2 ^ 28) (off % 2 ^ 28 / 32) bs)
    have heq := intake_of_slot hquiet.1 hhold hslot hoff hlen hgroup
    generalize (s.writeStack unitReader (planeOff st x.cand (off % 2 ^ 28))
      (s.mergedAt st x (off % 2 ^ 28) (off % 2 ^ 28 / 32) bs)).s = v at *
    have hrest := delivered_hide v st (off / 2 ^ 28) x
    have hcells := (kept_cells hrest rfl).trans hstored.cells
    have hcount := delivered_count v st (off / 2 ^ 28) x
    rw [hstored.reg _ (by unfold Reg.SEP_CANDIDATE_GROUPS regAddr storeCounter; omega)] at hcount
    refine ⟨_, done_of_eq heq, fun a ha => ?_, ?_, delivered_slot .., hcount, (kept_run hrest rfl).trans hstored.run⟩
    · rw [hcells, byteAt_setBytes]
      exact if_neg (by rw [State.mergedAt, length_mergeCand]; exact ha)
    · rw [hcells]
      exact (congrArg (bytesAt _ _) (length_mergeCand ..).symm).trans (bytesAt_setBytes_self ..)
  · have heq : s.intake st off bs = s.setSep st { s.sep st with held := (s.sep st).held ++ [(off, bs)] } := if_pos hhold
    refine ⟨_, done_of_eq heq, ?_, rfl, rfl⟩
    rw [sep_setSep, if_pos rfl]
  · have hevent := State.event_hide 129 rfl (s.bump (Reg.SEP_STRAY_CANDIDATES st)) clsSep st evDiscard
      (s.zAddr 0 (windowBase st + 2 ^ 32 + off))
    have hbump := State.bump_hide 1 rfl s (Reg.SEP_STRAY_CANDIDATES st)
    have hmem := (kept_mem hevent rfl rfl).trans (kept_mem hbump rfl rfl)
    have hseps := (kept_seps hevent rfl).trans (kept_seps hbump rfl)
    refine ⟨_, done_of_eq (intake_of_stray hhold hslot), hmem, hseps, ?_⟩
    rw [event_reg]
    · rw [reg_bump, if_pos rfl]
    all_goals
      simp only [Reg.SEP_STRAY_CANDIDATES, Reg.EVENT_RAW, Reg.COUNTER_0, Reg.EVENT_LATCH, Reg.QMGR_LOG_LOST, regAddr, clsSep]
      omega

end Sys2Proof.Machine

end

section

/-!
The starts of the update engine's commands and its batches (R292 to R308).
-/

namespace Sys2Proof.Machine

variable {s t u : State}

/-! ### The start of a command -/

/-- The engine's queue without its front. -/
def State.updTaken (s : State) (st : Nat) (rest : List BaseCmd) : State := s.setUpd st { s.upd st with queue := rest }

theorem updTaken_upd (s : State) (st : Nat) (rest : List BaseCmd) :
    (s.updTaken st rest).upd st = { s.upd st with queue := rest } := by
  unfold State.updTaken
  rw [upd_setUpd, if_pos rfl]

section
variable {st op : Nat} {c : BaseCmd} {rest : List BaseCmd} {go : State → BaseCmd → State}

theorem updStart_of_good (hcur : (s.upd st).cur = none) (hqueue : (s.upd st).queue = c :: rest) (hop : updOp c = op)
    (hhold : s.power.hold = false) (hstop : s.safety.stop = false) (hgood : s.updBad st c = [])
    (hfree : s.rewriting st c.shard = false) (hmirror : s.shardState st c.shard ≠ 5) :
    s.updStart st op go = (s.updTaken st rest).updGo st op c go := by
  unfold State.updStart
  extract_lets u
  split
  · next c' rest' _ hq =>
    obtain ⟨rfl, rfl⟩ := List.cons.inj (hq.symm.trans hqueue)
    extract_lets mine s1
    rw [if_neg (by simp [mine, hop, hhold]), if_neg (by simp [hstop]), hgood]
    exact if_neg (by simp [hfree, hmirror])
  · next hne => exact absurd hqueue (hne _ _ hcur)

theorem updGo_of_clean (h : s.CleanStacks) : s.updGo st op c go =
    if !stateSuits op (s.shardState st c.shard) then s.cmdFail clsUpd st c 0x0801 0 false else go s c := by
  unfold State.updGo
  rw [openJournal_clean h]
  rfl

/-- A command whose shard is free and in a state that suits it begins. -/
theorem updStart_goes (hcur : (s.upd st).cur = none) (hqueue : (s.upd st).queue = c :: rest) (hop : updOp c = op)
    (hhold : s.power.hold = false) (hstop : s.safety.stop = false) (hgood : s.updBad st c = [])
    (hfree : s.rewriting st c.shard = false) (hmirror : s.shardState st c.shard ≠ 5) (h : s.CleanStacks)
    (hsuits : stateSuits op (s.shardState st c.shard) = true) : s.updStart st op go = go (s.updTaken st rest) c :=
  (updStart_of_good hcur hqueue hop hhold hstop hgood hfree hmirror).trans
    ((updGo_of_clean (by exact h)).trans (if_neg (by
      show ¬ (!stateSuits op (s.shardState st c.shard)) = true
      rw [hsuits]
      decide)))

/-- A command whose shard is in another state is refused. -/
theorem updStart_refuses (hcur : (s.upd st).cur = none) (hqueue : (s.upd st).queue = c :: rest) (hop : updOp c = op)
    (hhold : s.power.hold = false) (hstop : s.safety.stop = false) (hgood : s.updBad st c = [])
    (hfree : s.rewriting st c.shard = false) (hmirror : s.shardState st c.shard ≠ 5) (h : s.CleanStacks)
    (hsuits : stateSuits op (s.shardState st c.shard) = false) :
    s.updStart st op go = (s.updTaken st rest).cmdFail clsUpd st c 0x0801 0 false :=
  (updStart_of_good hcur hqueue hop hhold hstop hgood hfree hmirror).trans
    ((updGo_of_clean (by exact h)).trans (if_pos (by
      show (!stateSuits op (s.shardState st c.shard)) = true
      rw [hsuits]
      rfl)))

end

theorem Told.upd {cls st i : Nat} (h : s.Told t cls st) : t.upd i = s.upd i := by
  unfold State.upd
  rw [kept_upds h.rest rfl]

/-- What the host reads of a refused or finished command of an update engine. -/
theorem cmdEnd_upd_status (s : State) {st : Nat} {c : BaseCmd} {code : Nat} (addr : Nat) (hsrc : c.src = .host)
    (hcode : code < 2 ^ 16) : fieldOf ((s.cmdEnd clsUpd st c code addr).reg (Reg.UPD_CMD_STATUS st)) 31 16 = code := by
  unfold State.cmdEnd
  rw [hsrc]
  dsimp only
  unfold State.hostDone
  have hne : clsUpd ≠ clsSep := by decide
  simp only [if_neg hne]
  rw [reg_setReg_ne _ _ _ _ (by unfold Reg.UPD_CMD_STATUS Reg.UPD_CMD_FAULT_ADDR regAddr; omega), reg_setReg_self]
  refine (fieldOf_eq_div _ 16 15).trans ?_
  omega

/-! ### UPDATE -/

/-- The engine with a command kept and in progress. -/
theorem keep_setRun_upd (s : State) (st : Nat) (c : BaseCmd) (r : Option UpdRun) : ((s.keep st c).setRun st r).upd st =
    { s.upd st with
      kept := tput (s.upd st).kept c.shard c
      ruleOf := tput (s.upd st).ruleOf c.shard (updRule c)
      cur := r } := by
  unfold State.setRun State.keep
  dsimp only
  rw [upd_setUpd, if_pos rfl, upd_setUpd, if_pos rfl]

theorem keep_setRun_hide (s : State) (st : Nat) (c : BaseCmd) (r : Option UpdRun) :
    ((s.keep st c).setRun st r).hide 16 = s.hide 16 :=
  (State.setRun_hide 16 rfl ..).trans (State.keep_hide 16 rfl ..)

/-- The journal with the hyperparameters of a command. -/
def State.hpNoted (s : State) (st : Nat) (c : BaseCmd) : State :=
  (s.setJournalWord st c.shard 6 (s.hp (s.rule c).lrHp)).setJournalWord st c.shard 7 (s.hp (s.rule c).wdHp)

theorem hpNoted_edited (h : s.CleanStacks) (st : Nat) (c : BaseCmd) : s.Edited (s.hpNoted st c) st c.shard
    (s.editWord st c.shard (s.editWord st c.shard (s.journalWord st c.shard) 6 (fun _ => s.hp (s.rule c).lrHp)) 7
      (fun _ => s.hp (s.rule c).wdHp)) := by
  unfold State.hpNoted State.setJournalWord
  exact ((State.Edited.refl s st c.shard).edit h (by decide) _).edit h (by decide) _

theorem hpNoted_words (h : s.CleanStacks) {st : Nat} {c : BaseCmd} (hj : (s.journal st c.shard).isSome = true) :
    (s.hpNoted st c).journalWord st c.shard 6 = s.hp (s.rule c).lrHp ∧
      (s.hpNoted st c).journalWord st c.shard 7 = s.hp (s.rule c).wdHp := by
  have he := hpNoted_edited h st c
  rw [he.word 6 (by decide), he.word 7 (by decide), State.editWord_ne (by decide), State.editWord_self hj,
    State.editWord_self hj]
  exact ⟨Nat.mod_eq_of_lt (reg_lt ..), Nat.mod_eq_of_lt (reg_lt ..)⟩

theorem updateNow_of_new {st : Nat} {c : BaseCmd} (hstep : s.journalWord st c.shard 3 ≤ c.word 2) :
    s.updateNow st c = ((s.hpNoted st c).keep st c).setRun st (some (newRun c .moments)) := if_neg (by omega)

theorem updateNow_of_replay {st : Nat} {c : BaseCmd} (hstep : c.word 2 < s.journalWord st c.shard 3) :
    s.updateNow st c = (s.bump (Reg.UPD_REPLAYS_SKIPPED st)).cmdEnd clsUpd st c 0 0 := if_pos hstep

/-! ### What a batch reads -/

section
variable {st : Nat} {r : UpdRun} {s0 s1 : Nat}

/-- What a batch leaves when its reads met no error: nothing is lost, and its counters are registers. -/
structure UpdBatch.Sound (b : UpdBatch) (s : State) : Prop where
  state : b.s = s
  own : b.badOwn = false
  grad : b.badGrad = false
  counts : ∀ t : State, (b.counts t).hide 1 = t.hide 1

theorem momentsBatch_sound (h : s.CleanStacks) : (s.momentsBatch st r s0 s1).Sound s := by
  unfold State.momentsBatch
  dsimp only
  rw [readRuns_clean h, if_neg Bool.false_ne_true]
  dsimp only
  rw [readRuns_clean h, if_neg Bool.false_ne_true]
  exact ⟨rfl, rfl, rfl, fun t => (State.bumpBy_hide 1 rfl ..).trans
    ((State.bumpBy_hide 1 rfl ..).trans (State.bumpBy_hide 1 rfl ..))⟩

theorem masterBatch_sound (h : s.CleanStacks) : (s.masterBatch st r s0 s1).Sound s := by
  unfold State.masterBatch
  dsimp only
  rw [readRuns_clean h, if_neg Bool.false_ne_true]
  dsimp only
  rw [readRuns_clean h, if_neg Bool.false_ne_true]
  exact ⟨rfl, rfl, rfl, fun t => (State.bumpBy_hide 1 rfl ..).trans
    ((State.bumpBy_hide 1 rfl ..).trans (State.bumpBy_hide 1 rfl ..))⟩

theorem workingBatch_sound (h : s.CleanStacks) : (s.workingBatch st r s0 s1).Sound s := by
  unfold State.workingBatch
  dsimp only
  rw [readRuns_clean h, if_neg Bool.false_ne_true]
  exact ⟨rfl, rfl, rfl, fun t => State.bumpBy_hide 1 rfl ..⟩

theorem batchOf_sound (h : s.CleanStacks) : (s.batchOf st r s0 s1).Sound s := by
  unfold State.batchOf
  split
  · exact momentsBatch_sound h
  · exact masterBatch_sound h
  · exact workingBatch_sound h

/-- The slots of a batch that draw are slots of the batch. -/
theorem batchOf_draws (h : s.CleanStacks) {i : Nat} (hi : s1 - s0 ≤ i) : (s.batchOf st r s0 s1).draws.contains i = false := by
  unfold State.batchOf
  split
  · unfold State.momentsBatch
    dsimp only
    rw [readRuns_clean h, if_neg Bool.false_ne_true]
    dsimp only
    rw [readRuns_clean h, if_neg Bool.false_ne_true]
    rfl
  · unfold State.masterBatch
    dsimp only
    rw [readRuns_clean h, if_neg Bool.false_ne_true]
    dsimp only
    rw [readRuns_clean h, if_neg Bool.false_ne_true]
    rfl
  · unfold State.workingBatch
    dsimp only
    rw [readRuns_clean h, if_neg Bool.false_ne_true]
    dsimp only
    rw [List.contains_eq_mem, decide_eq_false_iff_not]
    exact fun hmem => absurd (List.mem_range.mp (List.mem_filter.mp hmem).1) (by omega)

/-- A batch of the moments or master pass has no summary. -/
theorem batchOf_summary (h : s.CleanStacks) (hpass : r.pass = .moments ∨ r.pass = .master) :
    (s.batchOf st r s0 s1).summary = 0 := by
  unfold State.batchOf
  rcases hpass with hpass | hpass
  · rw [hpass]
    unfold State.momentsBatch
    dsimp only
    rw [readRuns_clean h, if_neg Bool.false_ne_true]
    dsimp only
    rw [readRuns_clean h, if_neg Bool.false_ne_true]
  · rw [hpass]
    unfold State.masterBatch
    dsimp only
    rw [readRuns_clean h, if_neg Bool.false_ne_true]
    dsimp only
    rw [readRuns_clean h, if_neg Bool.false_ne_true]

end

/-! ### The journal and the undo region before a batch is written -/

/-- The bytes that runs cover together. -/
def totalOf (runs : List (Nat × Nat)) : Nat := (runs.map (·.2)).foldl (· + ·) 0

theorem length_flatten_reads (cs : List Host.Cell) (runs : List (Nat × Nat)) :
    (runs.map (fun x => bytesAt cs x.1 x.2)).flatten.length = totalOf runs := by
  unfold totalOf
  rw [List.length_flatten, List.map_map, ← List.sum_eq_foldl]
  exact congrArg List.sum (List.map_congr_left fun x _ => length_bytesAt ..)

/-- The prior bytes of runs, kept in the undo region: nothing else changes. -/
theorem saveUndo_effect (h : s.CleanStacks) (st k : Nat) (r : Reader) (runs : List (Nat × Nat)) :
    ∃ cs, s.Stored (s.saveUndo st k r runs).s cs ∧
      ∀ x, (∀ a ∈ s.undoAt st k, ¬ (a ≤ x ∧ x < a + totalOf runs)) → byteAt cs x = byteAt s.mem.cells x := by
  unfold State.saveUndo
  rw [readRuns_clean h]
  dsimp only
  rw [if_neg Bool.false_ne_true]
  cases hundo : s.undoAt st k with
  | none => exact ⟨_, .refl s, fun _ _ => rfl⟩
  | some a =>
    refine ⟨_, writeStack_stored h .., fun x hx => ?_⟩
    rw [byteAt_setBytes, length_flatten_reads, if_neg (hx a rfl)]

/-- A shard's entry with another state and batch. -/
def State.passOpened (s : State) (st sh v b : Nat) : State := (s.setState st sh v).setBatch st sh b

theorem passOpened_edited (h : s.CleanStacks) (st sh v b : Nat) : ∃ word, s.Edited (s.passOpened st sh v b) st sh word := by
  unfold State.passOpened State.setState State.setBatch State.setJournal
  exact ⟨_, ((State.Edited.refl s st sh).edit h (by decide) _).edit h (by decide) _⟩

/-- A batch is open: its journal entry and what its undo region keeps are written, and the engine is as given. -/
structure State.Opened (s t : State) (st sh : Nat) (engine : UpdUnit) (undone : List (Nat × Nat)) : Prop where
  clean : t.CleanStacks
  rest : t.hide 49169 = s.hide 49169
  reg : ∀ a, a % 2 ^ 16 ≠ storeCounter → t.reg a = s.reg a
  engine : t.upd st = engine
  bytes : ∀ x, (∀ j ∈ s.journal st sh, ¬ (j ≤ x ∧ x < j + 64)) → Outside x undone → byteAt t.mem.cells x = byteAt s.mem.cells x

theorem State.Stored.wider {cs : List Host.Cell} (h : s.Stored t cs) : t.hide 49169 = s.hide 49169 := by
  have e := congrArg (State.hide 49169) h.rest
  rwa [hide_hide (by decide), hide_hide (by decide)] at e

/-- The engine with a batch's prior bytes named. -/
def UpdUnit.undoing (e : UpdUnit) (r : UpdRun) (ws : List (Nat × List Byte)) : UpdUnit :=
  { e with undo := some ⟨r.shard, r.batch, runsOfWrites ws⟩ }

/-- The engine in a working pass, which holds reads of what it writes. -/
def UpdUnit.writing (e : UpdUnit) (sh : Nat) : UpdUnit :=
  { e with holding := sh :: e.holding.filter (· != sh), acking := e.acking.filter (· != sh) }

/-- The run of the undo region that a batch fills. -/
def State.undoRun (s : State) (st : Nat) (ws : List (Nat × List Byte)) : List (Nat × Nat) :=
  ((s.undoAt st 1).map (·, totalOf (runsOfWrites ws))).toList

section
variable {st : Nat} {r : UpdRun} {ws : List (Nat × List Byte)}

theorem openBatch_of_undo (h : s.CleanStacks) (hpass : r.pass = .moments ∨ r.pass = .master) :
    s.Opened (s.openBatch st r ws) st r.shard ((s.upd st).undoing r ws) (s.undoRun st ws) := by
  obtain ⟨cs, hcs, hbytes⟩ := saveUndo_effect h st 1 r.cmd.reader (runsOfWrites ws)
  have hkeeps (v : Nat) : s.Opened ((((s.saveUndo st 1 r.cmd.reader (runsOfWrites ws)).s.setUpd st
      (((s.saveUndo st 1 r.cmd.reader (runsOfWrites ws)).s.upd st).undoing r ws)).passOpened st r.shard v r.batch)) st r.shard
      ((s.upd st).undoing r ws) (s.undoRun st ws) := by
    rw [hcs.upd]
    generalize (s.saveUndo st 1 r.cmd.reader (runsOfWrites ws)).s = d at *
    have hclean : (d.setUpd st ((s.upd st).undoing r ws)).CleanStacks := hcs.clean h
    obtain ⟨word, hedit⟩ := passOpened_edited hclean st r.shard v r.batch
    obtain ⟨ds, hds⟩ := hedit.stored
    have hrest := hds.wider.trans ((State.setUpd_hide 49169 rfl ..).trans hcs.wider)
    refine ⟨hds.clean hclean, hrest, fun a ha => (hds.reg a ha).trans (hcs.reg a ha), ?_, fun x hj hundo => ?_⟩
    · rw [hds.upd, upd_setUpd, if_pos rfl]
    · rw [hedit.other x (by exact (hcs.journal st r.shard).symm ▸ hj)]
      refine (congrArg (byteAt · x) hcs.cells).trans (hbytes x fun a ha => ?_)
      exact hundo (a, totalOf (runsOfWrites ws)) (Option.mem_toList.mpr (Option.map_eq_some_iff.mpr ⟨a, ha, rfl⟩))
  unfold State.openBatch
  rcases hpass with hpass | hpass
  · rw [hpass]
    exact hkeeps 1
  · rw [hpass]
    exact hkeeps 3

theorem openBatch_of_working (h : s.CleanStacks) (hpass : r.pass = .working) :
    s.Opened (s.openBatch st r ws) st r.shard ((s.upd st).writing r.shard) [] := by
  have hclean : (s.setUpd st ((s.upd st).writing r.shard)).CleanStacks := h
  obtain ⟨word, hedit⟩ := passOpened_edited hclean st r.shard 4 0
  obtain ⟨ds, hds⟩ := hedit.stored
  have heq : s.openBatch st r ws = (s.setUpd st ((s.upd st).writing r.shard)).passOpened st r.shard 4 0 := by
    unfold State.openBatch
    rw [hpass]
    rfl
  rw [heq]
  refine ⟨hds.clean hclean, hds.wider.trans (State.setUpd_hide 49169 rfl ..), hds.reg, ?_, fun x hj _ => hedit.other x hj⟩
  rw [hds.upd, upd_setUpd, if_pos rfl]

/-- Whatever the pass, the batch is opened in clean stacks. -/
theorem openBatch_opened (h : s.CleanStacks) (hpass : r.pass ∈ [UpdPass.moments, .master, .working]) :
    ∃ engine undone, s.Opened (s.openBatch st r ws) st r.shard engine undone := by
  simp only [List.mem_cons, List.not_mem_nil, or_false] at hpass
  rcases hpass with hpass | hpass | hpass
  · exact ⟨_, _, openBatch_of_undo h (.inl hpass)⟩
  · exact ⟨_, _, openBatch_of_undo h (.inr hpass)⟩
  · exact ⟨_, _, openBatch_of_working h hpass⟩

end

/-! ### One batch -/

/-- The first slot of a pass's next batch, and the one behind its last. -/
def UpdRun.first (r : UpdRun) : Nat := min (updSlots r.cmd) (1024 * r.batch)

def UpdRun.last (r : UpdRun) : Nat := min (updSlots r.cmd) (r.first + 1024)

/-- The batch that a pass does next, from this state. -/
def State.nextBatch (s : State) (st : Nat) (r : UpdRun) : UpdBatch := s.batchOf st r r.first r.last

/-- The generators as the batch's rounding leaves them. -/
def State.batchRounded (s : State) (st : Nat) (r : UpdRun) : State := s.roundedFor (updLanes st) (s.nextBatch st r).drew

theorem batchRounded_hide (s : State) (st : Nat) (r : UpdRun) : (s.batchRounded st r).hide 2048 = s.hide 2048 :=
  State.roundedFor_hide 2048 rfl ..

section
variable {st : Nat} {r : UpdRun}

theorem batchDue_of (hstop : s.safety.stop = false) (hhold : s.power.hold = false)
    (hpass : r.pass ∈ [UpdPass.moments, .master, .working])
    (hworking : r.pass = .working → r.shard ∉ (s.upd st).acking ∧ s.snapWaits st r.shard = false) :
    s.batchDue st r = true := by
  simp only [List.mem_cons, List.not_mem_nil, or_false] at hpass
  unfold State.batchDue
  rcases hpass with hpass | hpass | hpass
  · rw [hstop, hhold, hpass]
    rfl
  · rw [hstop, hhold, hpass]
    rfl
  · obtain ⟨hack, hsnap⟩ := hworking hpass
    rw [hstop, hhold, hpass, hsnap]
    simpa using hack

/-- The batch passes its checks: it is written, and the pass goes on. -/
theorem updBatch_of_good (hcur : (s.upd st).cur = some r) (hdue : s.batchDue st r = true) (h : s.CleanStacks) :
    s.updBatch st true true = ((s.nextBatch st r).counts (((s.batchRounded st r).openBatch st r (s.nextBatch st r).ws).writeRuns
      r.cmd.reader (s.nextBatch st r).ws)).closeBatch st { r with summary := max r.summary (s.nextBatch st r).summary }
        (decide (updSlots r.cmd ≤ r.last)) := by
  have hsound : (s.nextBatch st r).Sound s := batchOf_sound h
  have hdraws : (s.nextBatch st r).draws.contains 1024 = false := by
    have hlen : r.last - r.first ≤ 1024 := by
      unfold UpdRun.last
      omega
    exact batchOf_draws h hlen
  unfold State.updBatch
  dsimp only
  rw [if_pos rfl]
  split
  · next hnone => cases hnone.symm.trans hcur
  · next x hx =>
    obtain rfl := Option.some.inj (hx.symm.trans hcur)
    rw [if_neg (by simp [hdue])]
    have hb : s.batchOf st x (min (updSlots x.cmd) (1024 * x.batch))
        (min (updSlots x.cmd) (min (updSlots x.cmd) (1024 * x.batch) + 1024)) = s.nextBatch st x := rfl
    rw [hb, hsound.state, hsound.own, hsound.grad, if_neg (by decide), if_neg (by decide), hdraws, if_neg (by decide)]
    rfl

/-- The residue check fails: the batch is put back. -/
theorem updBatch_of_bad (hcur : (s.upd st).cur = some r) (hdue : s.batchDue st r = true) (h : s.CleanStacks) :
    s.updBatch st false true = (((s.batchRounded st r).bump (Reg.UPD_RESIDUE_FAULTS st)).openBatch st r
      (s.nextBatch st r).ws).batchFailed st r r.first := by
  have hsound : (s.nextBatch st r).Sound s := batchOf_sound h
  unfold State.updBatch
  dsimp only
  rw [if_pos rfl]
  split
  · next hnone => cases hnone.symm.trans hcur
  · next x hx =>
    obtain rfl := Option.some.inj (hx.symm.trans hcur)
    rw [if_neg (by simp [hdue])]
    have hb : s.batchOf st x (min (updSlots x.cmd) (1024 * x.batch))
        (min (updSlots x.cmd) (min (updSlots x.cmd) (1024 * x.batch) + 1024)) = s.nextBatch st x := rfl
    rw [hb, hsound.state, hsound.own, hsound.grad, if_neg (by decide), if_pos (by decide)]
    rfl

theorem closeBatch_of_more (hhold : s.power.hold = false) :
    s.closeBatch st r false = s.setRun st (some { r with batch := r.batch + 1 }) :=
  (if_neg (by simp [hhold])).trans (if_pos rfl)

/-- A batch that is not the last of its pass: its writes are stored, the pass moves on, and all else that changes is the
journal's entry and what the batch's opening does. -/
theorem updBatch_moves (hcur : (s.upd st).cur = some r) (hdue : s.batchDue st r = true) (hhold : s.power.hold = false)
    (h : s.CleanStacks) (hmore : 1024 * r.batch + 1024 < updSlots r.cmd) {engine : UpdUnit} {undone : List (Nat × Nat)}
    (hopen : (s.batchRounded st r).Opened ((s.batchRounded st r).openBatch st r (s.nextBatch st r).ws) st r.shard engine undone) :
    ∃ t cs, s.updBatch st true true = t ∧
      t.upd st = { engine with
        cur := some { r with batch := r.batch + 1, summary := max r.summary (s.nextBatch st r).summary } } ∧
      t.mem.cells = stores cs (s.nextBatch st r).ws ∧
      (∀ a, (∀ j ∈ s.journal st r.shard, ¬ (j ≤ a ∧ a < j + 64)) → Outside a undone → byteAt cs a = byteAt s.mem.cells a) ∧
      t.run = s.run ∧ t.safety = s.safety ∧ t.fab = s.fab := by
  have hlast : decide (updSlots r.cmd ≤ r.last) = false := decide_eq_false (by
    unfold UpdRun.last UpdRun.first
    omega)
  have heq := updBatch_of_good hcur hdue h
  rw [hlast] at heq
  have hround := batchRounded_hide s st r
  have hstored := writeRuns_stored hopen.clean r.cmd.reader (s.nextBatch st r).ws
  have hcounts := (batchOf_sound (st := st) (r := r) (s0 := r.first) (s1 := r.last) h).counts
    (((s.batchRounded st r).openBatch st r (s.nextBatch st r).ws).writeRuns r.cmd.reader (s.nextBatch st r).ws)
  change ((s.nextBatch st r).counts _).hide 1 = _ at hcounts
  have hpower : ((s.nextBatch st r).counts (((s.batchRounded st r).openBatch st r (s.nextBatch st r).ws).writeRuns
      r.cmd.reader (s.nextBatch st r).ws)).power = s.power :=
    (kept_power hcounts rfl).trans (hstored.power.trans ((kept_power hopen.rest rfl).trans (kept_power hround rfl)))
  rw [closeBatch_of_more (by rw [hpower]; exact hhold)] at heq
  generalize (s.nextBatch st r).counts (((s.batchRounded st r).openBatch st r (s.nextBatch st r).ws).writeRuns
      r.cmd.reader (s.nextBatch st r).ws) = v at *
  have hupd : v.upd st = engine := by
    rw [← hopen.engine, ← hstored.upd]
    unfold State.upd
    rw [kept_upds hcounts rfl]
  have hset := State.setRun_hide 16 rfl v st (some { r with
    batch := r.batch + 1
    summary := max r.summary (s.nextBatch st r).summary })
  refine ⟨_, ((s.batchRounded st r).openBatch st r (s.nextBatch st r).ws).mem.cells, heq, ?_,
    (kept_cells hset rfl).trans ((kept_cells hcounts rfl).trans hstored.cells), fun a hj hundo => ?_, ?_, ?_, ?_⟩
  · unfold State.setRun
    rw [upd_setUpd, if_pos rfl, hupd]
  · refine (hopen.bytes a ?_ hundo).trans (congrArg (byteAt · a) (kept_cells hround rfl))
    rw [journal_congr (congrArg RunState.plan (kept_run hround rfl))]
    exact hj
  · exact (kept_run hset rfl).trans ((kept_run hcounts rfl).trans (hstored.run.trans
      ((kept_run hopen.rest rfl).trans (kept_run hround rfl))))
  · exact (kept_safety hset rfl).trans ((kept_safety hcounts rfl).trans (hstored.safety.trans
      ((kept_safety hopen.rest rfl).trans (kept_safety hround rfl))))
  · exact (kept_fab hset rfl).trans ((kept_fab hcounts rfl).trans (hstored.fab.trans
      ((kept_fab hopen.rest rfl).trans (kept_fab hround rfl))))

end

end Sys2Proof.Machine

end

section

/-!
The update engine's commands, batches and completion passes (R292 to R309): what their statements say.
-/

namespace Sys2Proof.Machine

variable {s t u : State}

/-! ### A batch whose residue check fails -/

theorem undoBatch_clean (h : s.CleanStacks) (st sh : Nat) (r : Reader) : ∃ cs, s.Stored (s.undoBatch st sh r).1 cs := by
  unfold State.undoBatch
  split
  · split
    · exact restoreBatch_clean h ..
    · exact ⟨_, .refl s⟩
  · exact ⟨_, .refl s⟩

/-- The state in which a failed batch has been put back; what a working pass wrote stays. -/
def State.putBack (s : State) (st : Nat) (r : UpdRun) : State :=
  if r.pass = .working then s else (s.undoBatch st r.shard r.cmd.reader).1

theorem putBack_stored (h : s.CleanStacks) (st : Nat) (r : UpdRun) : ∃ cs, s.Stored (s.putBack st r) cs := by
  unfold State.putBack
  split
  · exact ⟨_, .refl s⟩
  · exact undoBatch_clean h ..

section
variable {st : Nat} {r : UpdRun}

theorem batchFailed_of_retry {s0 n : Nat} (hn : tget 0 r.retries r.batch = n) (hlt : n < 2) : s.batchFailed st r s0 =
    ((s.putBack st r).bump (Reg.UPD_BATCH_RETRIES st)).setRun st (some { r with
      retries := tput r.retries r.batch (n + 1)
      batch := if r.pass = .working then 0 else r.batch
      summary := if r.pass = .working then 0 else r.summary }) := by
  subst hn
  exact if_pos hlt

theorem batchFailed_of_last {s0 : Nat} (hlast : 2 ≤ tget 0 r.retries r.batch) : s.batchFailed st r s0 =
    ((s.putBack st r).setRun st none).cmdFail clsUpd st r.cmd 0x0802
      ((s.putBack st r).zAddr 0 (planeOff st (r.cmd.word 6) (4 * s0))) true := if_neg (by omega)

/-- What a failed residue check finds open: the log, the safety block and the registers but the counters of stores are as before,
and the failure is counted. -/
theorem failedOpen_effect (h : s.CleanStacks) (hpass : r.pass ∈ [UpdPass.moments, .master, .working]) {v : State}
    (hv : (((s.batchRounded st r).bump (Reg.UPD_RESIDUE_FAULTS st)).openBatch st r (s.nextBatch st r).ws).putBack st r = v) :
    v.CleanStacks ∧ v.ctl = s.ctl ∧ v.safety = s.safety ∧ v.clock = s.clock ∧
      ∀ a, a % 2 ^ 16 ≠ storeCounter →
        v.reg a = if a = Reg.UPD_RESIDUE_FAULTS st then (s.reg a + 1) % 2 ^ 32 else s.reg a := by
  have hround := batchRounded_hide s st r
  have hbump := State.bump_hide 1 rfl (s.batchRounded st r) (Reg.UPD_RESIDUE_FAULTS st)
  have hmem := (kept_mem hbump rfl rfl).trans (kept_mem hround rfl rfl)
  have hclean : ((s.batchRounded st r).bump (Reg.UPD_RESIDUE_FAULTS st)).CleanStacks := by
    unfold State.CleanStacks
    rw [hmem]
    exact h
  obtain ⟨engine, undone, hopen⟩ := openBatch_opened (st := st) (ws := (s.nextBatch st r).ws) hclean hpass
  obtain ⟨cs, hcs⟩ := putBack_stored hopen.clean st r
  rw [hv] at hcs
  refine ⟨hcs.clean hopen.clean, ?_, ?_, ?_, fun a ha => ?_⟩
  · exact hcs.ctl.trans ((kept_ctl hopen.rest rfl).trans ((kept_ctl hbump rfl).trans (kept_ctl hround rfl)))
  · exact hcs.safety.trans ((kept_safety hopen.rest rfl).trans ((kept_safety hbump rfl).trans (kept_safety hround rfl)))
  · exact hcs.clock.trans ((kept_clock hopen.rest rfl).trans ((kept_clock hbump rfl).trans (kept_clock hround rfl)))
  · refine (hcs.reg a ha).trans ((hopen.reg a ha).trans ((reg_bump ..).trans ?_))
    have hreg (b : Nat) : (s.batchRounded st r).reg b = s.reg b := reg_congr (kept_regs hround rfl) b
    rw [hreg, hreg]
    split
    · next he => rw [he]
    · rfl

end

/-! ### Completion passes -/

section
variable {st : Nat} {x : Nat × Nat} {l : List (Nat × Nat)} {c : BaseCmd}

/-- The shards that wait at a stack for their completion pass. -/
def State.waitingShards (s : State) (st : Nat) : List (Nat × Nat) :=
  s.run.complete.filter (fun x => x.1 == st && !s.mirrors.any (fun m => m.stack == x.1 && m.shard == x.2 && m.completing))

theorem completionPass_of_next (hrun : s.run.run = true) (hstopped : s.run.stopped = false) (hself : s.run.selftest = false)
    (hmilk : s.run.milkDue = []) (hhold : s.power.hold = false) (hstop : s.safety.stop = false)
    (hcur : (s.upd st).cur = none) (hlost : s.firstLost = none) (hpairs : (s.upd st).pairs = none)
    (hwaiting : s.waitingShards st = x :: l) (hfree : s.rewriting st x.2 = false) :
    s.completionPass st = s.completeShard st x.2 := by
  unfold State.completionPass
  rw [if_neg (by simp [hrun, hstopped, hself, hmilk, hhold, hstop, hcur]), hlost]
  dsimp only
  rw [hpairs]
  dsimp only
  change (match s.waitingShards st with
    | [] => s
    | x :: _ => if s.rewriting st x.2 then s else s.completeShard st x.2) = _
  rw [hwaiting]
  exact if_neg (by simp [hfree])

/-- A shard whose moments pass is over goes on without its undo region. -/
theorem completeShard_of_rest (hkept : tfind (s.upd st).kept x.2 = some c) (hkind : (s.rule c).kind ≠ 4)
    (hstate : s.shardState st x.2 = 2 ∨ s.shardState st x.2 = 4 ∨ s.shardState st x.2 = 5) :
    s.completeShard st x.2 = s.completeRest st x.2 c := by
  unfold State.completeShard
  rw [hkept]
  have h13 : ¬ (s.shardState st x.2 = 1 ∨ s.shardState st x.2 = 3) := by omega
  have h1 : ¬ s.shardState st x.2 = 1 := by omega
  simp only [if_neg h13, if_neg h1, if_neg hkind]
  rfl

theorem completeRest_of_master (hstate : s.shardState st x.2 = 2) : s.completeRest st x.2 c =
    (s.setUpd st { s.upd st with pairs := none }).setRun st
      (some { newRun c .master with completing := true, upds := [] }) := by
  unfold State.completeRest
  rw [if_pos (by omega)]
  unfold State.completeMaster
  dsimp only
  rw [if_neg (by omega)]
  rfl

/-- Without the shard's newest mirror. -/
def State.superseding (s : State) (st sh : Nat) : State :=
  match s.mirrorOf st sh with
  | some m => { s with mirrors := s.mirrors.filter (· != m) }
  | none => s

theorem completeRest_of_working (hstate : s.shardState st x.2 = 4 ∨ s.shardState st x.2 = 5) : s.completeRest st x.2 c =
    ((s.superseding st x.2).setUpd st { (s.superseding st x.2).upd st with pairs := none }).setRun st
      (some { newRun c .working with completing := true, upds := ((s.mirrorOf st x.2).map (·.upds)).getD [] }) :=
  if_neg (by omega)

theorem superseding_hide (s : State) (st sh : Nat) : (s.superseding st sh).hide 32 = s.hide 32 := by
  unfold State.superseding
  split
  · rfl
  · rfl

theorem superseding_mirrors {sh : Nat} {m : Mirror} (hm : s.mirrorOf st sh = some m) : m ∉ (s.superseding st sh).mirrors := by
  unfold State.superseding
  rw [hm]
  exact filter_ne_not_mem s.mirrors m

/-- The engine of a completion pass. -/
theorem setUpd_setRun_cur (s : State) (st : Nat) (e : UpdUnit) (r : Option UpdRun) : (((s.setUpd st e).setRun st r).upd st).cur = r := by
  unfold State.setRun
  rw [upd_setUpd, if_pos rfl]

end

/-! ### The statements -/

theorem stateSuits_of_zero {op : Nat} (h : op ≠ opApply) (hi : op ≠ opImport) (v : Nat) : stateSuits op v = decide (v = 0) := by
  unfold stateSuits
  rw [if_neg h, if_neg hi]

/-- Settles O34: what a start finds at the front of an update engine's queue begins or is refused, and the first batch of a
pass is noted in the undo region. -/
theorem updateStarts : Obligations.UpdateStarts := by
  refine ⟨fun s st c rest hcur hqueue hop hhold hstop hgood hfree hquiet hstate hstep => ?_,
    fun s st c rest hcur hqueue hop hhold hstop hgood hfree hquiet hstate hstep => ?_,
    fun s st c rest hcur hqueue hop hhold hstop hgood hfree hquiet hstate => ?_,
    fun s st c rest hcur hqueue hop hhold hstop hgood hfree hquiet hstate => ?_,
    fun s st c rest hcur hqueue hop hhold hstop hgood hfree hquiet hstate hsrc => ?_,
    fun s st r ws hcur hstop hhold hpass hquiet hbatch hmore hws => ?_,
    fun s st x l c hrun hstopped hself hmilk hhold hstop hcur hlost hpairs hwaiting hfree hkept hkind hstate => ?_⟩
  · have hclean : (s.updTaken st rest).CleanStacks := hquiet.1
    have hgo := updStart_goes (go := fun t c => t.updateNow st c) hcur hqueue hop hhold hstop hgood hfree (by omega) hquiet.1
      (by rw [stateSuits_of_zero (by decide) (by decide), hstate]; rfl)
    have hnow : (s.updTaken st rest).updateNow st c = _ := updateNow_of_new hstep
    obtain ⟨cs, hcs⟩ := (hpNoted_edited hclean st c).stored
    have hrest := keep_setRun_hide ((s.updTaken st rest).hpNoted st c) st c (some (newRun c .moments))
    have hupd := keep_setRun_upd ((s.updTaken st rest).hpNoted st c) st c (some (newRun c .moments))
    rw [hcs.upd, updTaken_upd] at hupd
    refine ⟨_, done_of_eq (hgo.trans hnow), by rw [hupd], by rw [hupd], ?_, fun hj => ?_,
      (kept_run hrest rfl).trans hcs.run⟩
    · rw [hupd]
      exact (tfind_tput ..).trans (if_pos rfl)
    · obtain ⟨h6, h7⟩ := hpNoted_words hclean (st := st) (c := c) hj
      have hword := journalWord_congr (congrArg RunState.plan (kept_run hrest rfl)) (kept_cells hrest rfl) st.val c.shard
      exact ⟨(hword 6).trans h6, (hword 7).trans h7⟩
  · have hgo := updStart_goes (go := fun t c => t.updateNow st c) hcur hqueue hop hhold hstop hgood hfree (by omega) hquiet.1
      (by rw [stateSuits_of_zero (by decide) (by decide), hstate]; rfl)
    have hnow : (s.updTaken st rest).updateNow st c = _ := updateNow_of_replay hstep
    have htold := cmdEnd_told ((s.updTaken st rest).bump (Reg.UPD_REPLAYS_SKIPPED st)) clsUpd st c 0 0
    have hupd : ((s.updTaken st rest).bump (Reg.UPD_REPLAYS_SKIPPED st)).upd st = { s.upd st with queue := rest } := by
      rw [← updTaken_upd]
      unfold State.upd
      rw [State.bump_upds]
    refine ⟨_, done_of_eq (hgo.trans hnow), ?_, ?_, htold.mem.trans (State.bump_mem ..), ?_⟩
    · rw [Told.upd htold, hupd]
      exact hcur
    · rw [Told.upd htold, hupd]
    · rw [htold.reg, reg_bump, if_pos rfl]
      · rfl
      · simp [commandRegs, clsUpd, clsSep, Reg.UPD_REPLAYS_SKIPPED, Reg.UPD_COMMANDS, Reg.UPD_CMD_STATUS,
          Reg.UPD_CMD_FAULT_ADDR, regAddr]
  · have hgo := updStart_goes (go := fun t c => t.applyNow st c) hcur hqueue hop hhold hstop hgood hfree (by omega) hquiet.1
      (by rw [hstate]; rfl)
    have happly : (s.updTaken st rest).applyOf st c = s.applyOf st c := by
      unfold State.applyOf
      rw [updTaken_upd]
    have hnow : (s.updTaken st rest).applyNow st c = (((s.updTaken st rest).keep st (s.applyOf st c)).setRun st
        (some (newRun (s.applyOf st c) .master))) := by
      unfold State.applyNow
      rw [happly]
    have hrest := keep_setRun_hide (s.updTaken st rest) st (s.applyOf st c) (some (newRun (s.applyOf st c) .master))
    have hupd := keep_setRun_upd (s.updTaken st rest) st (s.applyOf st c) (some (newRun (s.applyOf st c) .master))
    have hmem := kept_mem hrest rfl rfl
    rw [updTaken_upd] at hupd
    exact ⟨_, done_of_eq (hgo.trans hnow), by rw [hupd], by rw [hupd], hmem, kept_run hrest rfl, kept_regs hrest rfl⟩
  · have hgo := updStart_goes (go := fun t c => t.deriveNow st c) hcur hqueue hop hhold hstop hgood hfree (by omega) hquiet.1
      (by rw [stateSuits_of_zero (by decide) (by decide), hstate]; rfl)
    have hrest := keep_setRun_hide (s.updTaken st rest) st c (some (newRun c .working))
    have hupd := keep_setRun_upd (s.updTaken st rest) st c (some (newRun c .working))
    have hmem := kept_mem hrest rfl rfl
    rw [updTaken_upd] at hupd
    refine ⟨_, done_of_eq hgo, by exact congrArg UpdUnit.cur hupd, by exact congrArg UpdUnit.queue hupd, ?_, hmem,
      kept_run hrest rfl, kept_regs hrest rfl⟩
    exact (congrArg (fun e : UpdUnit => tfind e.kept c.shard) hupd).trans ((tfind_tput ..).trans (if_pos rfl))
  · have hfails := updStart_refuses (go := fun t c => t.updateNow st c) hcur hqueue hop hhold hstop hgood hfree
      (fun h5 => hstate (by simp [h5])) hquiet.1
      (by
        rw [stateSuits_of_zero (by decide) (by decide)]
        exact decide_eq_false fun h0 => hstate (by simp [h0]))
    rw [cmdFail_host_told hsrc (.inr rfl)] at hfails
    have htold := cmdEnd_told (s.updTaken st rest) clsUpd st c 0x0801 0
    refine ⟨_, done_of_eq hfails, ?_, ?_, htold.mem, cmdEnd_upd_status _ 0 hsrc (by decide)⟩
    · rw [Told.upd htold, updTaken_upd]
      exact hcur
    · rw [Told.upd htold, updTaken_upd]
  · have hfirst : r.first = 0 := by
      unfold UpdRun.first
      omega
    have hlast : r.last = 1024 := by
      unfold UpdRun.last
      rw [hfirst]
      omega
    have hnext : s.nextBatch st r = s.batchOf st r 0 1024 := by
      unfold State.nextBatch
      rw [hfirst, hlast]
    have hdue : s.batchDue st r = true := batchDue_of hstop hhold (by rcases hpass with h | h <;> simp [h])
      (fun hw => by rcases hpass with h | h <;> rw [h] at hw <;> cases hw)
    have hclean : (s.batchRounded st r).CleanStacks := by
      unfold State.CleanStacks
      rw [kept_mem (batchRounded_hide s st r) rfl rfl]
      exact hquiet.1
    obtain ⟨t, cs, ht, hupd, -, -, hrun, -, hfab⟩ := updBatch_moves hcur hdue hhold hquiet.1 (by omega)
      (openBatch_of_undo hclean hpass)
    rw [hnext, batchOf_summary hquiet.1 hpass, Nat.max_eq_left (Nat.zero_le _), hws, hbatch] at hupd
    refine ⟨t, done_of_eq ht, by rw [hupd], ?_, hrun, hfab⟩
    rw [hupd]
    unfold UpdUnit.undoing
    rw [hbatch]
  · have hnext := completionPass_of_next hrun hstopped hself hmilk hhold hstop hcur hlost hpairs hwaiting hfree
    have hpass := (completeShard_of_rest hkept hkind (.inl hstate)).trans (completeRest_of_master hstate)
    have hrest := (State.setRun_hide 16 rfl (s.setUpd st { s.upd st with pairs := none }) st
      (some { newRun c .master with completing := true, upds := [] })).trans (State.setUpd_hide 16 rfl ..)
    have hmem := kept_mem hrest rfl rfl
    exact ⟨_, done_of_eq (hnext.trans hpass), setUpd_setRun_cur .., hmem, kept_regs hrest rfl, kept_run hrest rfl⟩

end Sys2Proof.Machine

end

section

/-!
What the update engine's batches and completion passes change (R296 to R309).
-/

namespace Sys2Proof.Machine

variable {s t u : State}

section
variable {st : Nat} {r : UpdRun}

theorem totalOf_runsOfWrites (ws : List (Nat × List Byte)) :
    totalOf (runsOfWrites ws) = (ws.map (·.2.length)).foldl (· + ·) 0 := by
  unfold totalOf runsOfWrites
  rw [List.map_map]
  rfl

/-- The undo region of a batch, as the generators' rounding leaves the plan. -/
theorem batchRounded_undoRun (ws : List (Nat × List Byte)) :
    (s.batchRounded st r).undoRun st ws = ((s.undoAt st 1).map (·, (ws.map (·.2.length)).foldl (· + ·) 0)).toList := by
  unfold State.undoRun State.undoAt
  rw [totalOf_runsOfWrites, kept_run (batchRounded_hide s st r) rfl]

theorem batchRounded_upd : (s.batchRounded st r).upd st = s.upd st := by
  unfold State.upd
  rw [kept_upds (batchRounded_hide s st r) rfl]

theorem batchRounded_clean (h : s.CleanStacks) : (s.batchRounded st r).CleanStacks := by
  unfold State.CleanStacks
  rw [kept_mem (batchRounded_hide s st r) rfl rfl]
  exact h

/-- The batch a pass does next is the one that its number names, while more follow. -/
theorem nextBatch_of_more (hmore : 1024 * r.batch + 1024 < updSlots r.cmd) :
    s.nextBatch st r = s.batchOf st r (1024 * r.batch) (1024 * r.batch + 1024) := by
  have hfirst : r.first = 1024 * r.batch := by
    unfold UpdRun.first
    omega
  have hlast : r.last = 1024 * r.batch + 1024 := by
    unfold UpdRun.last
    omega
  unfold State.nextBatch
  rw [hfirst, hlast]

/-- A byte outside a batch's runs is outside the journal's entry and outside the undo region. -/
theorem outside_updRuns {shard a : Nat} {ws : List (Nat × List Byte)} (h : Outside a (s.updRuns st shard ws)) :
    (∀ j ∈ s.journal st shard, ¬ (j ≤ a ∧ a < j + 64)) ∧
      Outside a ((s.undoAt st 1).map (·, (ws.map (·.2.length)).foldl (· + ·) 0)).toList := by
  refine ⟨fun j hj => h (j, 64) (List.mem_append_left _ ?_), fun x hx => h x (List.mem_append_right _ hx)⟩
  exact Option.mem_toList.mpr (Option.map_eq_some_iff.mpr ⟨j, hj, rfl⟩)

/-- A shard that is held is held once, whatever was held before. -/
theorem mem_hold_once (x sh : Nat) (l : List Nat) : x ∈ sh :: l.filter (· != sh) ↔ x = sh ∨ x ∈ l := by
  rw [List.mem_cons, List.mem_filter]
  by_cases hx : x = sh
  · simp [hx]
  · simp [hx]

/-- The third failure of a batch: the fault of the update engine, which stops the module. -/
theorem batchFailed_stops {v : State} {s0 : Nat} (hlast : 2 ≤ tget 0 r.retries r.batch)
    (hctl : (v.putBack st r).ctl = s.ctl) (hclock : (v.putBack st r).clock = s.clock) (hroom : s.ctl.log.length < logCapacity) :
    (v.batchFailed st r s0).safety.stop = true ∧ (v.batchFailed st r s0).Recorded 0x0802 clsUpd s.clock.phase := by
  rw [batchFailed_of_last hlast]
  have hset := State.setRun_hide 16 rfl (v.putBack st r) st none
  generalize (v.putBack st r).setRun st none = e at *
  unfold State.cmdFail
  have htold := cmdEnd_told e clsUpd st r.cmd 0x0802 ((v.putBack st r).zAddr 0 (planeOff st (r.cmd.word 6) (4 * s0)))
  generalize e.cmdEnd clsUpd st r.cmd 0x0802 ((v.putBack st r).zAddr 0 (planeOff st (r.cmd.word 6) (4 * s0))) = w at *
  obtain ⟨f, hf, hcode, hcls, -⟩ := cmdFault_dangerous w clsUpd st r.cmd 0x0802
    ((v.putBack st r).zAddr 0 (planeOff st (r.cmd.word 6) (4 * s0)))
  have hwctl : w.ctl = s.ctl := (kept_ctl htold.rest rfl).trans ((kept_ctl hset rfl).trans hctl)
  have hwclock : w.clock = s.clock := (kept_clock htold.rest rfl).trans ((kept_clock hset rfl).trans hclock)
  obtain ⟨x, hx, hkind, hxcode, hxcls, -, -, -, hphase⟩ := State.raise_shows w f true (by rw [hwctl]; exact hroom)
  rw [hf]
  exact ⟨(State.raise_safety w f).1, x, hx, hkind, hxcode.trans hcode, hxcls.trans hcls, hphase.trans (by rw [hwclock])⟩

/-- A failed batch that goes again: its retries are counted, in the engine and in the two registers. -/
theorem updBatch_retries {n : Nat} (hcur : (s.upd st).cur = some r) (hdue : s.batchDue st r = true) (h : s.CleanStacks)
    (hpass : r.pass ∈ [UpdPass.moments, .master, .working]) (hn : tget 0 r.retries r.batch = n) (hlt : n < 2) :
    ((s.updBatch st false true).upd st).cur = some { r with
        retries := tput r.retries r.batch (n + 1)
        batch := if r.pass = .working then 0 else r.batch
        summary := if r.pass = .working then 0 else r.summary } ∧
      (s.updBatch st false true).reg (Reg.UPD_RESIDUE_FAULTS st) = (s.reg (Reg.UPD_RESIDUE_FAULTS st) + 1) % 2 ^ 32 ∧
      (s.updBatch st false true).reg (Reg.UPD_BATCH_RETRIES st) = (s.reg (Reg.UPD_BATCH_RETRIES st) + 1) % 2 ^ 32 ∧
      (s.updBatch st false true).safety = s.safety := by
  rw [updBatch_of_bad hcur hdue h, batchFailed_of_retry hn hlt]
  obtain ⟨-, -, hsafety, -, hreg⟩ := failedOpen_effect (st := st) h hpass rfl
  generalize (((s.batchRounded st r).bump (Reg.UPD_RESIDUE_FAULTS st)).openBatch st r (s.nextBatch st r).ws).putBack st r = v at *
  have hset := State.setRun_hide 16 rfl (v.bump (Reg.UPD_BATCH_RETRIES st)) st (some { r with
        retries := tput r.retries r.batch (n + 1)
        batch := if r.pass = .working then 0 else r.batch
        summary := if r.pass = .working then 0 else r.summary })
  refine ⟨?_, ?_, ?_, ?_⟩
  · unfold State.setRun
    rw [upd_setUpd, if_pos rfl]
  · rw [reg_congr (kept_regs hset rfl), reg_bump, if_neg (by unfold Reg.UPD_RESIDUE_FAULTS Reg.UPD_BATCH_RETRIES regAddr; omega),
      hreg _ (by unfold Reg.UPD_RESIDUE_FAULTS regAddr storeCounter; omega), if_pos rfl]
  · rw [reg_congr (kept_regs hset rfl), reg_bump, if_pos rfl,
      hreg _ (by unfold Reg.UPD_BATCH_RETRIES regAddr storeCounter; omega),
      if_neg (by unfold Reg.UPD_RESIDUE_FAULTS Reg.UPD_BATCH_RETRIES regAddr; omega)]
  · exact (kept_safety hset rfl).trans ((State.bump_safety ..).trans hsafety)

end

/-- Settles O36: batches that pass their checks are written and kept to their runs, failing ones go again or stop the module,
and a completion pass supersedes the older mirror. -/
theorem updateWork : Obligations.UpdateWork := by
  refine ⟨fun s st r ws hcur hstop hhold hpass hquiet hmore hws => ?_,
    fun s st r b hcur hstop hhold hpass hack hsnap hquiet hmore hb => ?_,
    fun s st r n hcur hstop hhold hpass hworking hquiet hn hlt => ?_,
    fun s st r hcur hstop hhold hpass hworking hquiet hlast hroom => ?_,
    fun s st x l c hrun hstopped hself hmilk hhold hstop hcur hlost hpairs hwaiting hfree hkept hkind hstate => ?_⟩
  · have hdue : s.batchDue st r = true := batchDue_of hstop hhold (by rcases hpass with h | h <;> simp [h])
      (fun hw => by rcases hpass with h | h <;> rw [h] at hw <;> cases hw)
    obtain ⟨t, cs, ht, hupd, hcells, hbytes, hrun, hsafety, -⟩ := updBatch_moves hcur hdue hhold hquiet.1 hmore
      (openBatch_of_undo (batchRounded_clean hquiet.1) hpass)
    rw [nextBatch_of_more hmore] at hupd hcells hbytes
    rw [batchOf_summary hquiet.1 hpass, Nat.max_eq_left (Nat.zero_le _), batchRounded_upd, hws] at hupd
    rw [hws] at hcells hbytes
    refine ⟨t, cs, done_of_eq ht, by rw [hupd], hcells, fun a ha => ?_, by rw [hupd]; rfl, by rw [hupd]; rfl, hrun, hsafety⟩
    obtain ⟨hjournal, hundo⟩ := outside_updRuns ha
    exact hbytes a hjournal (by rwa [batchRounded_undoRun])
  · have hdue : s.batchDue st r = true := batchDue_of hstop hhold (by simp [hpass]) (fun _ => ⟨hack, hsnap⟩)
    obtain ⟨t, cs, ht, hupd, hcells, hbytes, hrun, hsafety, -⟩ := updBatch_moves hcur hdue hhold hquiet.1 hmore
      (openBatch_of_working (batchRounded_clean hquiet.1) hpass)
    rw [nextBatch_of_more hmore, hb] at hupd hcells
    rw [batchRounded_upd] at hupd
    refine ⟨t, cs, done_of_eq ht, by rw [hupd], hcells, fun a ha => hbytes a ha (fun x hx => by cases hx), fun x => ?_,
      by rw [hupd]; rfl, hrun, hsafety⟩
    rw [hupd]
    exact mem_hold_once x r.shard _
  · exact ⟨_, done_of_eq rfl, updBatch_retries hcur (batchDue_of hstop hhold hpass hworking) hquiet.1 hpass hn hlt⟩
  · have heq := updBatch_of_bad hcur (batchDue_of hstop hhold hpass hworking) hquiet.1
    obtain ⟨-, hctl, -, hclock, -⟩ := failedOpen_effect (st := st.val) hquiet.1 hpass rfl
    exact ⟨_, done_of_eq heq, batchFailed_stops hlast hctl hclock hroom⟩
  · have hnext := completionPass_of_next hrun hstopped hself hmilk hhold hstop hcur hlost hpairs hwaiting hfree
    have hpass := (completeShard_of_rest hkept hkind (.inr hstate)).trans (completeRest_of_working hstate)
    have hrest := (State.setRun_hide 16 rfl ((s.superseding st x.2).setUpd st { (s.superseding st x.2).upd st with pairs := none })
      st (some { newRun c .working with
        completing := true
        upds := ((s.mirrorOf st x.2).map (·.upds)).getD [] })).trans (State.setUpd_hide 16 rfl ..)
    have hmem := kept_mem hrest rfl rfl
    have hmem' := kept_mem (superseding_hide s st x.2) rfl rfl
    refine ⟨_, done_of_eq (hnext.trans hpass), setUpd_setRun_cur .., fun m hm => ?_, hmem.trans hmem',
      (kept_regs hrest rfl).trans (kept_regs (superseding_hide s st x.2) rfl)⟩
    rw [kept_mirrors hrest rfl]
    exact superseding_mirrors hm

end Sys2Proof.Machine

end

section

/-!
The second tier as its runs come through: reads give the bytes stored, writes store theirs and no others (R273 to R276).
-/

namespace Sys2Proof.Machine

variable {s t u : State}

/-! ### Stores of the second tier -/

/-- The register, of each chip of the second tier, that counts the data units merged. -/
def mergeCounter : Nat := 0x1018

/-- Memory reads as these cells; beside it only the counts of merged data units have changed. -/
structure State.Tiered (s t : State) (cells : List Host.Cell) : Prop where
  mem : ∃ ds, t.mem = { s.mem with cells := ds }
  rest : t.hide 49153 = s.hide 49153
  reg : ∀ a, a % 2 ^ 16 ≠ mergeCounter → t.reg a = s.reg a
  bytes : ∀ a, byteAt t.mem.cells a = byteAt cells a

namespace State.Tiered

variable {cs ds : List Host.Cell}

theorem refl (s : State) : s.Tiered s s.mem.cells := ⟨⟨_, rfl⟩, rfl, fun _ _ => rfl, fun _ => rfl⟩

theorem trans (h : s.Tiered t cs) (k : t.Tiered u ds) (hds : ∀ a, byteAt ds a = byteAt cs a) : s.Tiered u cs := by
  obtain ⟨c, hc⟩ := h.mem
  obtain ⟨d, hd⟩ := k.mem
  exact ⟨⟨d, by rw [hd, hc]⟩, k.rest.trans h.rest, fun a ha => (k.reg a ha).trans (h.reg a ha),
    fun a => (k.bytes a).trans (hds a)⟩

theorem run (h : s.Tiered t cs) : t.run = s.run := kept_run h.rest rfl

theorem upd (h : s.Tiered t cs) (st : Nat) : t.upd st = s.upd st := by
  unfold State.upd
  rw [kept_upds h.rest rfl]

theorem lpBad (h : s.Tiered t cs) : t.mem.lpBad = s.mem.lpBad := by
  obtain ⟨c, hc⟩ := h.mem
  rw [hc]

theorem clean (h : s.Tiered t cs) (hs : s.CleanStacks) : t.CleanStacks := by
  obtain ⟨c, hc⟩ := h.mem
  unfold State.CleanStacks
  rw [hc]
  exact hs

theorem reads (h : s.Tiered t cs) {off n : Nat} (hr : s.TierReads off n) : t.TierReads off n := by
  obtain ⟨harmed, hunread⟩ := hr
  refine ⟨?_, ?_⟩
  · have hplace : flipSelect clsLpddr (lpChip off) % 2 ^ 16 ≠ mergeCounter := by
      have hsel : flipSelect clsLpddr (lpChip off) = Reg.LPDDR_FLIP_SELECT (lpChip off) := rfl
      rw [hsel]
      unfold Reg.LPDDR_FLIP_SELECT regAddr mergeCounter
      omega
    rw [← harmed]
    unfold State.armed
    rw [h.reg _ hplace, h.reg _ (by unfold Reg.FLIP_MASK_LO regAddr mergeCounter; omega),
      h.reg _ (by unfold Reg.FLIP_MASK_HI regAddr mergeCounter; omega)]
  · rw [← hunread]
    unfold State.lpUnread
    rw [h.lpBad]

theorem set (h : s.Tiered t cs) {ws : List Host.Cell} (hws : ∀ a, byteAt ws a = byteAt ds a) : s.Tiered (t.setCells ws) ds := by
  obtain ⟨c, hc⟩ := h.mem
  refine ⟨⟨ws, ?_⟩, (State.setCells_hide 49153 rfl ..).trans h.rest, h.reg, hws⟩
  unfold State.setCells
  rw [hc]

end State.Tiered

/-! ### Reads -/

theorem readLp_clean {off n : Nat} (h : s.TierReads off n) (r : Reader) :
    s.readLp off n r = ⟨s, bytesAt s.mem.cells (lpKey off) n, none⟩ := by
  obtain ⟨harmed, hunread⟩ := h
  unfold State.readLp
  split
  · next hn => rw [hn]; rfl
  · have hflip : s.flipLp off = (s, false) := by
      unfold State.flipLp
      dsimp only
      rw [harmed]
    rw [hflip]
    dsimp only
    rw [hunread]
    exact if_neg Bool.false_ne_true

/-! ### Writes -/

/-- Bytes written back where they were read. -/
theorem byteAt_setBytes_bytesAt (cs : List Host.Cell) (k n a : Nat) : byteAt (setBytes cs k (bytesAt cs k n)) a = byteAt cs a := by
  rw [byteAt_setBytes, length_bytesAt]
  split
  · next ha =>
    rw [List.getD_eq_getElem?_getD, getElem?_bytesAt, if_pos (by omega)]
    exact congrArg (byteAt cs) (by omega)
  · rfl

theorem mergeLp_tiered {off : Nat} (h : s.TierReads off 512) (r : Reader) :
    s.Tiered (s.mergeLp r off).1 s.mem.cells ∧ (s.mergeLp r off).2 = true := by
  have hbump : s.Tiered (s.bump (Reg.LPDDR_PARTIAL_UNITS (lpChip off))) s.mem.cells := by
    refine ⟨⟨_, State.bump_mem ..⟩, State.bump_hide 49153 rfl .., fun a ha => ?_, fun a => by rw [State.bump_mem]⟩
    rw [reg_bump, if_neg]
    rintro rfl
    exact ha (by unfold Reg.LPDDR_PARTIAL_UNITS regAddr mergeCounter; omega)
  unfold State.mergeLp
  dsimp only
  rw [readLp_clean (hbump.reads h)]
  dsimp only
  exact ⟨hbump.set fun a => (byteAt_setBytes_bytesAt ..).trans (hbump.bytes a), rfl⟩

/-- The data units a write covers in part are merged with what they hold: memory reads as before. -/
theorem mergeAll_tiered (r : Reader) (us : List Nat) (h : ∀ u ∈ us, s.TierReads u 512) :
    ∃ t, us.foldl (fun (a : State × Option Nat) u =>
      if a.2.isSome then a
      else
        let m := a.1.mergeLp r u
        (m.1, if m.2 then none else some u)) (s, none) = (t, none) ∧ s.Tiered t s.mem.cells := by
  induction us generalizing s with
  | nil => exact ⟨s, rfl, .refl s⟩
  | cons u us ih =>
    obtain ⟨hmerged, hok⟩ := mergeLp_tiered (h u (.head _)) r
    obtain ⟨t, ht, htiered⟩ := ih (s := (s.mergeLp r u).1) fun v hv => hmerged.reads (h v (.tail _ hv))
    refine ⟨t, ?_, hmerged.trans htiered hmerged.bytes⟩
    rw [List.foldl_cons, ← ht]
    dsimp only
    rw [hok]
    rfl

theorem writeLp_tiered {off : Nat} {bs : List Byte} (h : s.TierTakes off bs.length) (r : Reader) :
    s.Tiered (s.writeLp off bs r).s (setBytes s.mem.cells (lpKey off) bs) ∧ (s.writeLp off bs r).done = bs.length ∧
      (s.writeLp off bs r).bad = none := by
  obtain ⟨t, ht, hmerged⟩ := mergeAll_tiered r (partialUnits off bs.length) h
  unfold State.writeLp
  rw [ht]
  refine ⟨hmerged.set fun a => ?_, rfl, rfl⟩
  refine (byteAt_setBytes ..).trans (Eq.trans ?_ (byteAt_setBytes ..).symm)
  rw [hmerged.bytes a]

end Sys2Proof.Machine

end

section

/-!
Shard records: EXPORT and IMPORT (R316, R317).
-/

namespace Sys2Proof.Machine

variable {s t u : State}

/-! ### The record -/

theorem length_padTo (n : Nat) (hn : 0 < n) (bs : List Byte) : (padTo n bs).length = roundUp bs.length n := by
  unfold padTo
  rw [List.length_append, List.length_replicate]
  have hle : bs.length ≤ roundUp bs.length n := by
    unfold roundUp ceilDiv
    rw [if_neg hn.ne']
    have := Nat.div_add_mod (bs.length + n - 1) n
    have := Nat.mod_lt (bs.length + n - 1) hn
    rw [Nat.mul_comm]
    omega
  omega

theorem length_recordHeader (s : State) (st : Nat) (c : BaseCmd) (kinds snap : Nat) (payload : List Byte) :
    (recordHeader s st c kinds snap payload).length = 512 := by
  unfold recordHeader
  dsimp only
  rw [length_padTo 512 (by decide)]
  simp only [List.length_append, length_leBytes]
  rfl

/-- The bytes of a shard's planes, each filled up to whole data units. -/
def State.planeBytes (s : State) (st : Nat) (c : BaseCmd) (kinds : Nat) : List Byte :=
  (recordPlanes c kinds).flatMap (fun p => padTo 512 (bytesAt s.mem.cells (planeOff st (c.word p.2.1) 0) p.2.2))

theorem length_planeBytes (st : Nat) (c : BaseCmd) (kinds : Nat) : (s.planeBytes st c kinds).length = payloadBytes c kinds := by
  unfold State.planeBytes payloadBytes
  rw [List.length_flatMap, ← List.sum_eq_foldl]
  refine congrArg List.sum (List.map_congr_left fun p _ => ?_)
  rw [length_padTo 512 (by decide), length_bytesAt]

theorem formRecord_clean (h : s.CleanStacks) (st : Nat) (c : BaseCmd) (kinds snap : Nat) : s.formRecord st c kinds snap =
    ⟨s, recordHeader s st c kinds snap (s.planeBytes st c kinds) ++ s.planeBytes st c kinds, none⟩ := by
  unfold State.formRecord
  dsimp only
  rw [readRuns_clean h]
  dsimp only
  rw [if_neg Bool.false_ne_true, List.map_map, List.flatMap_map]
  rfl

/-! ### Records of the second tier of this module -/

/-- An address of this module's second tier. -/
structure State.OwnTier (s : State) (a n : Nat) : Prop where
  endpoint : zEndpoint a = s.moduleNum
  space : zSpace a = 1
  fits : zOff a + n ≤ 2 ^ 40

theorem State.OwnTier.isOwn {a n : Nat} (h : s.OwnTier a n) : s.isOwn a = true := by
  unfold State.isOwn
  rw [h.endpoint, h.space, beq_self_eq_true]
  rfl

theorem State.OwnTier.mapped {a n : Nat} (h : s.OwnTier a n) : s.ownMapped a n = true := by
  unfold State.ownMapped State.mapped
  rw [h.endpoint, h.space, beq_self_eq_true]
  simpa using h.fits

theorem readMem_tier {off n : Nat} (h : s.TierReads off n) (r : Reader) :
    s.readMem r 1 off n = ⟨s, bytesAt s.mem.cells (lpKey off) n, none⟩ := (if_neg (by decide)).trans (readLp_clean h r)

theorem writeMem_tier {off : Nat} {bs : List Byte} (h : s.TierTakes off bs.length) (r : Reader) :
    s.Tiered (s.writeMem r 1 off bs).s (setBytes s.mem.cells (lpKey off) bs) ∧ (s.writeMem r 1 off bs).bad = none := by
  obtain ⟨hstored, -, hbad⟩ := writeLp_tiered h r
  exact ⟨hstored, hbad⟩

section
variable {st : Nat} {c : BaseCmd}

theorem exportNow_of_tier (h : s.CleanStacks) (hown : s.OwnTier (recordAddr c) (512 + payloadBytes c (updKinds c)))
    (htakes : s.TierTakes (zOff (recordAddr c)) (512 + payloadBytes c (updKinds c))) :
    ∃ v rec_, s.exportNow st c = v.cmdEnd clsUpd st c 0 0 ∧
      s.Tiered v (setBytes s.mem.cells (lpKey (zOff (recordAddr c))) (rec_ ++ s.planeBytes st c (updKinds c))) ∧
      rec_.length = 512 := by
  have hlen := length_recordHeader s st c (updKinds c) 0 (s.planeBytes st c (updKinds c))
  have htotal : (recordHeader s st c (updKinds c) 0 (s.planeBytes st c (updKinds c)) ++ s.planeBytes st c (updKinds c)).length =
      512 + payloadBytes c (updKinds c) := by rw [List.length_append, hlen, length_planeBytes]
  obtain ⟨hstored, hbad⟩ := writeMem_tier (by rw [htotal]; exact htakes) c.reader
  refine ⟨_, _, ?_, hstored, hlen⟩
  unfold State.exportNow State.writeRecord
  dsimp only
  rw [formRecord_clean h]
  dsimp only
  rw [if_pos hown.isOwn, htotal, if_pos hown.mapped, hown.space, if_neg (by simp)]
  rw [hbad]

theorem exportNow_of_peer (h : s.CleanStacks) (hown : s.isOwn (recordAddr c) = false)
    (hreach : s.reachable (peerOf (recordAddr c)).1 (peerOf (recordAddr c)).2 = true) : ∃ bs,
    s.exportNow st c = (s.sendTo (64 * st + 63) (recordAddr c) (.export_ st) bs).setRun st (some (newRun c .sending)) := by
  unfold State.exportNow
  dsimp only
  rw [formRecord_clean h]
  dsimp only
  rw [if_neg (by simp [hown]), if_pos hreach]
  exact ⟨_, rfl⟩

/-! ### The planes of a record that is taken in -/

theorem foldl_writes {α : Type} {f : State → α → State} (hf : ∀ (t : State) x, t.CleanStacks → ∃ cs, t.Stored (f t x) cs)
    (l : List α) (h : s.CleanStacks) : ∃ cs, s.Stored (l.foldl f s) cs := by
  induction l generalizing s with
  | nil => exact ⟨_, .refl s⟩
  | cons x l ih =>
    obtain ⟨cs, hx⟩ := hf s x h
    obtain ⟨ds, hl⟩ := ih (hx.clean h)
    exact ⟨ds, hx.trans hl⟩

theorem importPlanes_stored (h : s.CleanStacks) (st : Nat) (c : BaseCmd) (parts : List (Nat × List Byte)) :
    ∃ cs, s.Stored (s.importPlanes st c parts) cs := by
  unfold State.importPlanes
  extract_lets all t
  have ht : ∃ cs, s.Stored t cs := foldl_writes (fun t w ht => by
    split
    · exact ⟨_, writeStack_stored ht ..⟩
    · exact ⟨_, zeroStack_stored ht ..⟩) all h
  obtain ⟨cs, hcs⟩ := ht
  obtain ⟨ds, hds⟩ := foldl_writes (f := fun (t : State) (w : Nat × Nat) =>
      match parts.find? (fun p => p.1 == w.1) with
      | some p => (t.writeStack c.reader (planeOff st (c.word w.1) 0) (p.2.take w.2)).s
      | none => t) (fun t w ht => by
    split
    · exact ⟨_, writeStack_stored ht ..⟩
    · exact ⟨_, .refl t⟩) (workingPlanes c) (hcs.clean h)
  exact ⟨ds, hcs.trans hds⟩

/-- A sound record is taken in: its shard's working pass begins. -/
theorem importRecord_begins (h : s.CleanStacks) {rec_ : List Byte} (hok : s.importOk st c rec_ = true)
    (hmask : maskOk c ((((splitPayload (recordPlanes (headCmd c rec_) (headKinds rec_)) (rec_.drop 512)).find?
      (fun p => p.1 == 10)).map (·.2)).getD []) = true) :
    (s.importRecord st c rec_).upd st = { s.upd st with
      kept := tput (s.upd st).kept c.shard c
      ruleOf := tput (s.upd st).ruleOf c.shard (updRule c)
      cur := some (newRun c .working) } := by
  unfold State.importRecord
  rw [if_neg (by simp [hok])]
  dsimp only
  rw [if_pos hmask]
  obtain ⟨cs, hplanes⟩ := importPlanes_stored h st c
    (splitPayload (recordPlanes (headCmd c rec_) (headKinds rec_)) (rec_.drop 512))
  generalize s.importPlanes st c (splitPayload (recordPlanes (headCmd c rec_) (headKinds rec_)) (rec_.drop 512)) = v at *
  unfold State.setEpoch
  have hlow := setJournalWord_stored (hplanes.clean h) st c.shard (w := 1) (by decide)
    ((headWord rec_ 12 + 2 ^ 32 * headWord rec_ 13) % 2 ^ 32)
  have hhigh := setJournalWord_stored (hlow.clean (hplanes.clean h)) st c.shard (w := 2) (by decide)
    ((headWord rec_ 12 + 2 ^ 32 * headWord rec_ 13) / 2 ^ 32 % 2 ^ 32)
  have hstep := setJournalWord_stored (hhigh.clean (hlow.clean (hplanes.clean h))) st c.shard (w := 3) (by decide)
    (headWord rec_ 14)
  rw [keep_setRun_upd, hstep.upd, hhigh.upd, hlow.upd, hplanes.upd]

theorem importNow_of_tier (hspace : s.OwnTier (recordAddr c) 512) {h bs : List Byte}
    (hreads : s.TierReads (zOff (recordAddr c)) 512) (hh : bytesAt s.mem.cells (lpKey (zOff (recordAddr c))) 512 = h)
    (hfits : zOff (recordAddr c) + 512 + headBytes c h ≤ 2 ^ 40)
    (hrest : s.TierReads (zOff (recordAddr c) + 512) (headBytes c h))
    (hbs : bytesAt s.mem.cells (lpKey (zOff (recordAddr c) + 512)) (headBytes c h) = bs) :
    s.importNow st c = s.importRecord st c (h ++ bs) := by
  have hwhole : s.OwnTier (recordAddr c) (512 + headBytes c h) := ⟨hspace.endpoint, hspace.space, by omega⟩
  unfold State.importNow
  dsimp only
  rw [if_pos hspace.isOwn, if_neg (by simp [hspace.mapped]), hspace.space, readMem_tier hreads, hh]
  dsimp only
  rw [if_neg (by simp [hwhole.mapped]), readMem_tier hrest, hbs]

theorem importNow_of_peer (hown : s.isOwn (recordAddr c) = false)
    (hreach : s.reachable (peerOf (recordAddr c)).1 (peerOf (recordAddr c)).2 = true) : s.importNow st c =
      (s.readFrom (64 * st + 63) (recordAddr c) 512 (.import_ st false)).setRun st (some (newRun c .fetching)) := by
  unfold State.importNow
  dsimp only
  rw [if_neg (by simp [hown]), if_pos hreach]

end

/-- The engine whose record goes to a peer, or comes from one: the fabric alone knows more. -/
theorem passBegun_effect {v w : State} (hv : v.hide 64 = w.hide 64) (st : Nat) (r : Option UpdRun) :
    (v.setRun st r).upd st = { w.upd st with cur := r } ∧ (v.setRun st r).mem = w.mem := by
  have hmem := kept_mem hv rfl rfl
  refine ⟨?_, hmem⟩
  unfold State.setRun
  rw [upd_setUpd, if_pos rfl]
  unfold State.upd
  rw [kept_upds hv rfl]

/-- What stands in a run behind the first bytes of a write. -/
theorem bytesAt_behind (cs : List Host.Cell) (a : Nat) (head bs : List Byte) :
    bytesAt (setBytes cs a (head ++ bs)) (a + head.length) bs.length = bs := by
  rw [bytesAt_setBytes_within cs a (bs := head ++ bs) (k := head.length) (n := bs.length) (by rw [List.length_append]),
    List.drop_left]
  exact List.take_length

/-- Settles O35: records leave for the second tier or a peer whole, and a sound one that comes in begins its working pass. -/
theorem recordCommands : Obligations.RecordCommands := by
  refine ⟨fun s st c rest hcur hqueue hop hhold hstop hgood hfree hstate hquiet hend hspace hfits htakes => ?_,
    fun s st c rest hcur hqueue hop hhold hstop hgood hfree hstate hquiet hown hreach => ?_,
    fun s st c rest h bs hcur hqueue hop hhold hstop hgood hfree hstate hend hspace hreads hh hfits hrest hbs hok hquiet hmask => ?_,
    fun s st c rest hcur hqueue hop hhold hstop hgood hfree hstate hquiet hown hreach => ?_⟩
  · have hclean : (s.updTaken st rest).CleanStacks := hquiet.1
    have hgo := updStart_goes (go := fun t c => t.exportNow st c) hcur hqueue hop hhold hstop hgood hfree (by omega) hquiet.1
      (by rw [hstate]; rfl)
    obtain ⟨v, rec_, hv, hstored, hlen⟩ := exportNow_of_tier (st := st.val) (c := c) hclean
      ⟨hend, hspace, by omega⟩ (by exact htakes)
    have htold := cmdEnd_told v clsUpd st c 0 0
    have hcells : (v.cmdEnd clsUpd st c 0 0).mem = v.mem := htold.mem
    refine ⟨_, done_of_eq (hgo.trans hv), ?_, ?_, ?_, fun a ha => ?_⟩
    · rw [Told.upd htold, hstored.upd, updTaken_upd]
    · rw [Told.upd htold, hstored.upd, updTaken_upd]
      exact hcur
    · rw [hcells, bytesAt_congr fun i _ => hstored.bytes _]
      have hback := bytesAt_behind s.mem.cells (lpKey (zOff (recordAddr c))) rec_ ((s.updTaken st rest).planeBytes st c (updKinds c))
      rw [hlen, length_planeBytes] at hback
      exact hback
    · rw [hcells, hstored.bytes, byteAt_setBytes, List.length_append, hlen, length_planeBytes, if_neg (by omega)]
      rfl
  · have hclean : (s.updTaken st rest).CleanStacks := hquiet.1
    have hgo := updStart_goes (go := fun t c => t.exportNow st c) hcur hqueue hop hhold hstop hgood hfree (by omega) hquiet.1
      (by rw [hstate]; rfl)
    obtain ⟨bs, hnow⟩ := exportNow_of_peer (st := st.val) (c := c) hclean hown hreach
    obtain ⟨hupd, hmem⟩ := passBegun_effect (State.sendTo_hide 64 rfl (s.updTaken st rest) (64 * st + 63) (recordAddr c)
      (.export_ st) bs) st (some (newRun c .sending))
    rw [updTaken_upd] at hupd
    exact ⟨_, done_of_eq (hgo.trans hnow), by rw [hupd], by rw [hupd], hmem⟩
  · have hclean : (s.updTaken st rest).CleanStacks := hquiet.1
    have hgo := updStart_goes (go := fun t c => t.importNow st c) hcur hqueue hop hhold hstop hgood hfree
      (fun h5 => by simp [h5] at hstate) hquiet.1 (by
        rcases List.mem_cons.mp hstate with h0 | h6
        · rw [h0]; rfl
        · rw [List.mem_singleton.mp h6]; rfl)
    have hnow := importNow_of_tier (s := s.updTaken st rest) (st := st.val) ⟨hend, hspace, by omega⟩ hreads hh hfits hrest hbs
    have hupd := importRecord_begins (st := st.val) hclean (by exact hok) hmask
    rw [updTaken_upd] at hupd
    exact ⟨_, done_of_eq (hgo.trans hnow), by rw [hupd], by rw [hupd], by rw [hupd]; exact (tfind_tput ..).trans (if_pos rfl)⟩
  · have hgo := updStart_goes (go := fun t c => t.importNow st c) hcur hqueue hop hhold hstop hgood hfree
      (fun h5 => by simp [h5] at hstate) hquiet.1 (by
        rcases List.mem_cons.mp hstate with h0 | h6
        · rw [h0]; rfl
        · rw [List.mem_singleton.mp h6]; rfl)
    have hnow := importNow_of_peer (s := s.updTaken st rest) (st := st.val) (c := c) hown hreach
    obtain ⟨hupd, hmem⟩ := passBegun_effect (State.readFrom_hide 64 rfl (s.updTaken st rest) (64 * st + 63) (recordAddr c) 512
      (.import_ st false)) st (some (newRun c .fetching))
    rw [updTaken_upd] at hupd
    exact ⟨_, done_of_eq (hgo.trans hnow), by rw [hupd], by rw [hupd], hmem⟩

end Sys2Proof.Machine

end

section

/-!
Queue entries: what an entry in progress does, and its completion record (R399, R400).
-/

namespace Sys2Proof.Machine

variable {s t u : State}

/-! ### Completion records -/

theorem length_completion (tag status ix : Nat) (phase : Bool) (result : Nat) :
    (completion tag status ix phase result).length = 16 := by
  unfold completion
  simp [length_leBytes]

section
variable {q ix tag status result : Nat}

/-- The pair as an entry's completion leaves it. -/
def QueuePair.completed (p : QueuePair) (ix : Nat) : QueuePair :=
  { p with
    cqTail := (p.cqTail + 1) % 2 ^ p.cqExp
    phase := if (p.cqTail + 1) % 2 ^ p.cqExp = 0 then !p.phase else p.phase
    busy := p.busy.filter (fun e => e.1 != ix) }

theorem entryDone_eq : s.entryDone q ix tag status result =
    ((s.writeHbm hostReader (s.ringPlace q) (completion tag status ix (s.pair q).phase result)).s.setPair q
      ((s.pair q).completed ix)).bump Reg.QMGR_SUBMISSIONS := rfl

/-- What an entry's completion leaves: only its record is stored. -/
theorem entryDone_cells (h : s.CleanStacks) : (s.entryDone q ix tag status result).mem.cells =
    setBytes s.mem.cells (s.ringPlace q) (completion tag status ix (s.pair q).phase result) := by
  obtain ⟨hstored, -, -⟩ := writeHbm_stored h hostReader (s.ringPlace q) (completion tag status ix (s.pair q).phase result)
  rw [entryDone_eq, State.bump_mem]
  exact hstored.cells

theorem entryDone_pair : (s.entryDone q ix tag status result).pair q = (s.pair q).completed ix := by
  rw [entryDone_eq]
  have hpair : (((s.writeHbm hostReader (s.ringPlace q) (completion tag status ix (s.pair q).phase result)).s.setPair q
      ((s.pair q).completed ix)).bump Reg.QMGR_SUBMISSIONS).pair q = ((s.writeHbm hostReader (s.ringPlace q)
      (completion tag status ix (s.pair q).phase result)).s.setPair q ((s.pair q).completed ix)).pair q := by
    unfold State.pair
    rw [State.bump_ctl]
  exact hpair.trans ((pair_setPair ..).trans (if_pos rfl))

theorem entryDone_count (h : s.CleanStacks) : (s.entryDone q ix tag status result).reg Reg.QMGR_SUBMISSIONS =
    (s.reg Reg.QMGR_SUBMISSIONS + 1) % 2 ^ 32 := by
  obtain ⟨hstored, -, -⟩ := writeHbm_stored h hostReader (s.ringPlace q) (completion tag status ix (s.pair q).phase result)
  rw [entryDone_eq, reg_bump, if_pos rfl]
  exact congrArg (fun n => (n + 1) % 2 ^ 32) (hstored.reg _ (by decide))

/-- An entry completes from a state whose queues and count of submissions are those it was found with. -/
theorem entryDone_completes {v : State} (h : v.CleanStacks) (hctl : v.ctl = s.ctl)
    (hcount : v.reg Reg.QMGR_SUBMISSIONS = s.reg Reg.QMGR_SUBMISSIONS) :
    s.Completed (v.entryDone q ix tag status result) q ix tag status result ∧
      ∀ a, ¬ (s.ringPlace q ≤ a ∧ a < s.ringPlace q + 16) →
        byteAt (v.entryDone q ix tag status result).mem.cells a = byteAt v.mem.cells a := by
  have hpair : v.pair q = s.pair q := by
    unfold State.pair
    rw [hctl]
  have hring : v.ringPlace q = s.ringPlace q := by
    unfold State.ringPlace
    rw [hpair]
  have hcells := entryDone_cells (q := q) (ix := ix) (tag := tag) (status := status) (result := result) h
  have hdone := entryDone_pair (s := v) (q := q) (ix := ix) (tag := tag) (status := status) (result := result)
  rw [hpair] at hcells hdone
  rw [hring] at hcells
  refine ⟨⟨?_, ?_, ?_, ?_⟩, fun a ha => ?_⟩
  · have hself := bytesAt_setBytes_self v.mem.cells (s.ringPlace q) (completion tag status ix (s.pair q).phase result)
    rw [length_completion] at hself
    rw [hcells, hself]
  · rw [hdone]
    rfl
  · rw [hdone]
    rfl
  · rw [entryDone_count h, hcount]
  · rw [hcells, byteAt_setBytes, length_completion, if_neg ha]

end

/-! ### What the operations find -/

section
variable {q ix : Nat} {e : List Word}

theorem sqNop_of_entry (h : s.entry q ix 0 = some e) : s.sqNop q ix = s.entryDone q ix (entTag e) stOk 0 := by
  unfold State.sqNop
  rw [h]

theorem sqFence_of_entry (h : s.entry q ix 5 = some e) : s.sqFence q ix = s.entryDone q ix (entTag e) stOk 0 := by
  unfold State.sqFence
  rw [h]

/-- The memory of an entry's completion once its bytes are stored in the second tier. -/
structure State.EntryStored (s t : State) (q ix : Nat) (e : List Word) (bs : List Byte) : Prop where
  completed : s.Completed t q ix (entTag e) stOk (entLen e)
  length : bs.length = entLen e
  bytes : ∀ a, ¬ (s.ringPlace q ≤ a ∧ a < s.ringPlace q + 16) →
    byteAt t.mem.cells a = byteAt (setBytes s.mem.cells (lpKey (zOff (entDst e))) bs) a

theorem State.Tiered.ctl {cs : List Host.Cell} (h : s.Tiered t cs) : t.ctl = s.ctl := kept_ctl h.rest rfl

theorem entryStore_tier (h : s.CleanStacks) (hspace : zSpace (entDst e) = 1) {bs : List Byte} (hlen : bs.length = entLen e)
    (hfits : zOff (entDst e) + entLen e ≤ 2 ^ 40) (htakes : s.TierTakes (zOff (entDst e)) (entLen e)) :
    s.EntryStored (s.entryStore q ix e bs false) q ix e bs := by
  obtain ⟨hstored, hdone, hbad⟩ := writeLp_tiered (bs := bs) (by rw [hlen]; exact htakes) hostReader
  have hstore : s.hostStore (zSpace (entDst e)) (zOff (entDst e)) bs = s.writeLp (zOff (entDst e)) bs hostReader := by
    unfold State.hostStore State.writeMem
    rw [hspace]
    rfl
  have hgoes : s.goes (zSpace (entDst e)) (zOff (entDst e)) (entLen e) = .memory := by
    unfold State.goes State.mapped
    rw [hspace]
    exact if_pos (decide_eq_true hfits)
  have heq : s.entryStore q ix e bs false =
      (s.writeLp (zOff (entDst e)) bs hostReader).s.entryDone q ix (entTag e) stOk bs.length := by
    unfold State.entryStore
    rw [hgoes]
    dsimp only
    rw [hstore, hbad, hdone]
    rfl
  obtain ⟨hcompleted, hbytes⟩ := entryDone_completes (s := s) (q := q) (ix := ix) (tag := entTag e) (status := stOk)
    (result := bs.length) (hstored.clean h) hstored.ctl (hstored.reg _ (by decide))
  rw [heq]
  exact ⟨hlen ▸ hcompleted, hlen, fun a ha => (hbytes a ha).trans (hstored.bytes a)⟩

theorem engineRead_tier {off n : Nat} (h : s.TierReads off n) :
    s.engineRead 1 off n = ⟨s, bytesAt s.mem.cells (lpKey off) n, none⟩ := readMem_tier h hostReader

/-- The pattern of a FILL, repeated over its length. -/
def fillBytes (e : List Word) : List Byte := (List.range (entLen e / 8)).flatMap (fun _ => leBytes 8 (entPattern e))

theorem fillBytes_eq (e : List Word) :
    fillBytes e = (List.replicate (entLen e / 8) (leBytes 8 (entPattern e))).flatten := by
  unfold fillBytes
  rw [List.flatMap_def, List.map_const', List.length_range]

theorem length_fillBytes (h : entLen e % 8 = 0) : (fillBytes e).length = entLen e := by
  rw [fillBytes_eq, List.length_flatten, List.map_replicate, length_leBytes, List.sum_replicate, smul_eq_mul]
  omega

/-- A byte of a pattern that is repeated. -/
theorem getD_flatten_replicate (n k i : Nat) (l : List Byte) (hl : l.length = n) (hi : i < k * n) :
    (List.replicate k l).flatten.getD i 0 = l.getD (i % n) 0 := by
  induction k generalizing i with
  | zero => omega
  | succ k ih =>
    rw [List.replicate_succ, List.flatten_cons]
    by_cases hlt : i < n
    · rw [List.getD_append _ _ _ _ (by omega), Nat.mod_eq_of_lt hlt]
    · rw [List.getD_append_right _ _ _ _ (by omega), hl, ih (i - n) (by rw [Nat.succ_mul] at hi; omega),
        Nat.mod_eq_sub_mod (Nat.le_of_not_lt hlt)]

theorem getD_fillBytes (h : entLen e % 8 = 0) {i : Nat} (hi : i < entLen e) :
    (fillBytes e).getD i 0 = (leBytes 8 (entPattern e)).getD (i % 8) 0 := by
  rw [fillBytes_eq]
  exact getD_flatten_replicate 8 (entLen e / 8) i _ (length_leBytes ..) (by omega)

theorem sqFill_of_entry (h : s.entry q ix 2 = some e) (hlen : entLen e % 8 = 0) (hne : entLen e ≠ 0) :
    s.sqFill q ix = s.entryStore q ix e (fillBytes e) false := by
  unfold State.sqFill
  rw [h]
  dsimp only
  rw [if_neg (by omega), if_neg hne]
  rfl

theorem mapped_tier {off n : Nat} (h : off + n ≤ 2 ^ 40) : s.mapped 1 off n = true := decide_eq_true h

theorem sqCopy_of_entry (h : s.entry q ix 1 = some e) (hdst : zSpace (entDst e) = 1) (hsrc : zSpace (entSrc e) = 1)
    (hapart : overlap (entSrc e) (entLen e) (entDst e) (entLen e) = false) (hne : entLen e ≠ 0)
    (hfrom : zOff (entSrc e) + entLen e ≤ 2 ^ 40) (hto : zOff (entDst e) + entLen e ≤ 2 ^ 40)
    (hreads : s.TierReads (zOff (entSrc e)) (entLen e)) :
    s.sqCopy q ix = s.entryStore q ix e (bytesAt s.mem.cells (lpKey (zOff (entSrc e))) (entLen e)) false := by
  unfold State.sqCopy
  rw [h]
  dsimp only
  have hgoes : s.goes 1 (zOff (entDst e)) (entLen e) = .memory := if_pos (mapped_tier hto)
  rw [if_neg (by simp [hapart]), if_neg hne, hsrc, hdst, hgoes, if_neg (by simp [mapped_tier hfrom]), engineRead_tier hreads]
  rfl

theorem sqDigest_of_entry (h : s.entry q ix 3 = some e) (hsrc : zSpace (entSrc e) = 1)
    (hfrom : zOff (entSrc e) + entLen e ≤ 2 ^ 40) (hreads : s.TierReads (zOff (entSrc e)) (entLen e)) : s.sqDigest q ix =
      s.entryDone q ix (entTag e) stOk (crc64 (bytesAt s.mem.cells (lpKey (zOff (entSrc e))) (entLen e))) := by
  unfold State.sqDigest
  rw [h]
  dsimp only
  split
  · next hz =>
    rw [hz]
    rfl
  · rw [hsrc, if_neg (by simp [mapped_tier hfrom]), engineRead_tier hreads]
    rfl

end

/-- Bytes stored at a run, read behind it and outside it. -/
theorem State.EntryStored.reads {q ix : Nat} {e : List Word} {bs : List Byte} (h : s.EntryStored t q ix e bs)
    (hring : s.ringPlace q + 16 ≤ 2 ^ 48) {i : Nat} (hi : i < entLen e) :
    byteAt t.mem.cells (lpKey (zOff (entDst e)) + i) = bs.getD i 0 := by
  rw [h.bytes _ (by unfold lpKey; omega), byteAt_setBytes, h.length, if_pos (by omega), Nat.add_sub_cancel_left]

theorem State.EntryStored.keeps {q ix : Nat} {e : List Word} {bs : List Byte} (h : s.EntryStored t q ix e bs) {a : Nat}
    (hring : ¬ (s.ringPlace q ≤ a ∧ a < s.ringPlace q + 16))
    (ha : ¬ (lpKey (zOff (entDst e)) ≤ a ∧ a < lpKey (zOff (entDst e)) + entLen e)) :
    byteAt t.mem.cells a = byteAt s.mem.cells a := by
  rw [h.bytes a hring, byteAt_setBytes, h.length, if_neg ha]

/-- Settles O18: each entry in progress completes with its record, and stores its bytes and no others. -/
theorem queueEntryCommands : Obligations.QueueEntryCommands := by
  refine ⟨fun s q ix e he hclean => ?_, fun s q ix e he hclean => ?_,
    fun s q ix e he hclean hspace hmod hne hfits htakes hring => ?_,
    fun s q ix e he hclean hdst hsrc hapart hne hfrom hto hreads htakes hring => ?_,
    fun s q ix e he hclean hsrc hfrom hreads => ?_⟩
  · exact ⟨_, done_of_eq (sqNop_of_entry he), entryDone_completes hclean rfl rfl⟩
  · exact ⟨_, done_of_eq (sqFence_of_entry he), entryDone_completes hclean rfl rfl⟩
  · have hstored := entryStore_tier (q := q.val) (ix := ix) hclean hspace (length_fillBytes hmod) hfits htakes
    refine ⟨_, done_of_eq (sqFill_of_entry he hmod hne), hstored.completed, fun i hi => ?_,
      fun a hout ha => hstored.keeps hout ha⟩
    rw [hstored.reads hring hi, getD_fillBytes hmod hi]
  · have hstored := entryStore_tier (q := q.val) (ix := ix) hclean hdst
      (length_bytesAt s.mem.cells (lpKey (zOff (entSrc e))) (entLen e)) hto htakes
    refine ⟨_, done_of_eq (sqCopy_of_entry he hdst hsrc hapart hne hfrom hto hreads), hstored.completed,
      fun i hi => ?_, fun a hout ha => hstored.keeps hout ha⟩
    rw [hstored.reads hring hi, List.getD_eq_getElem?_getD, getElem?_bytesAt, if_pos hi]
    rfl
  · exact ⟨_, done_of_eq (sqDigest_of_entry he hsrc hfrom hreads), entryDone_completes hclean rfl rfl⟩

end Sys2Proof.Machine

end

section

/-!
PLAN_LOAD of an image in the second tier (R492 to R496).
-/

namespace Sys2Proof.Machine

variable {s t u : State}

section
variable {q ix : Nat} {e : List Word}

/-- A completion in clean stacks leaves the run and the fabric. -/
theorem entryDone_run_fab (h : s.CleanStacks) (tag status result : Nat) :
    (s.entryDone q ix tag status result).run = s.run ∧ (s.entryDone q ix tag status result).fab = s.fab := by
  obtain ⟨hstored, -, -⟩ := writeHbm_stored h hostReader (s.ringPlace q) (completion tag status ix (s.pair q).phase result)
  rw [entryDone_eq, State.bump_run, State.bump_fab]
  exact ⟨hstored.run, hstored.fab⟩

theorem planLoad_of_busy (h : s.entry q ix 4 = some e) (hbusy : s.loadBusy = true) :
    s.planLoad q ix = s.entryDone q ix (entTag e) stBusy 0 := by
  unfold State.planLoad
  rw [h]
  exact if_pos hbusy

theorem planLoad_of_waiting (h : s.entry q ix 4 = some e) (hfree : s.loadBusy = false) (hcommands : s.hostCommands = true) :
    s.planLoad q ix = s := by
  unfold State.planLoad
  rw [h]
  exact (if_neg (by simp [hfree])).trans (if_pos hcommands)

/-- An image in the second tier is judged as it stands there. -/
theorem planLoad_judges (h : s.entry q ix 4 = some e) (hfree : s.loadBusy = false) (hcommands : s.hostCommands = false)
    (hspace : zSpace (entSrc e) = 1) (hfits : zOff (entSrc e) + entLen e ≤ 2 ^ 40)
    (hreads : s.TierReads (zOff (entSrc e)) (entLen e)) :
    s.planLoad q ix = match s.judge (bytesAt s.mem.cells (lpKey (zOff (entSrc e))) (entLen e)) with
      | .inr p => (s.accept p).entryDone q ix (entTag e) stOk 0
      | .inl r => s.entryDone q ix (entTag e) stBadArgument r.result := by
  unfold State.planLoad
  rw [h]
  dsimp only
  rw [if_neg (by simp [hfree]), if_neg (by simp [hcommands]), hspace, if_neg (by simp [mapped_tier hfits]),
    engineRead_tier hreads]
  dsimp only
  rw [if_neg (by simp)]
  cases s.judge (bytesAt s.mem.cells (lpKey (zOff (entSrc e))) (entLen e)) with
  | inl r => rfl
  | inr p => rfl

end

/-- Settles O19: an image in the second tier is judged and taken or refused; a load waits, or is answered BUSY, otherwise. -/
theorem planLoadCompletes : Obligations.PlanLoadCompletes := by
  refine ⟨fun s q ix e img he hfree hcommands hspace hfits hreads himg => ?_,
    fun s q ix e r he hfree hcommands hspace hfits hreads hclean hjudge => ?_, fun s q ix e he hbusy hclean => ?_,
    fun s q ix e he hfree hcommands => congrArg Host.Outcome.next (planLoad_of_waiting he hfree hcommands),
    fun s p => ⟨rfl, rfl, rfl, rfl, rfl, rfl⟩⟩
  · rw [himg]
    exact congrArg Host.Outcome.next (planLoad_judges he hfree hcommands hspace hfits hreads)
  · have heq := planLoad_judges he hfree hcommands hspace hfits hreads
    rw [hjudge] at heq
    obtain ⟨hrun, hfab⟩ := entryDone_run_fab (q := q.val) (ix := ix) hclean (entTag e) stBadArgument r.result
    exact ⟨_, done_of_eq heq, (entryDone_completes hclean rfl rfl).1, hrun, hfab⟩
  · exact ⟨_, done_of_eq (planLoad_of_busy he hbusy), (entryDone_completes hclean rfl rfl).1,
      (entryDone_run_fab hclean (entTag e) stBusy 0).1⟩

end Sys2Proof.Machine

end

section

/-!
The copy engines and fabric engines: what a request moves, and how it ends (R37, R41, R244 to R252).
-/

namespace Sys2Proof.Machine

variable {s t u : State}

/-! ### Reads of the second tier, and what they depend on -/

/-- The registers that arm a test mask of the second tier. -/
def TierReg (a : Nat) : Prop :=
  ∃ c, c < 2 ∧ (a = Reg.LPDDR_FLIP_SELECT c ∨ a = Reg.FLIP_MASK_LO clsLpddr c ∨ a = Reg.FLIP_MASK_HI clsLpddr c)

/-- The second tier reads as before: the same bursts fail and the same masks wait. -/
structure State.SameTier (s t : State) : Prop where
  bad : t.mem.lpBad = s.mem.lpBad
  reg : ∀ a, TierReg a → t.reg a = s.reg a

theorem State.SameTier.reads (h : s.SameTier t) {off n : Nat} (hr : s.TierReads off n) : t.TierReads off n := by
  obtain ⟨harmed, hunread⟩ := hr
  have hchip : lpChip off < 2 := by
    unfold lpChip
    split
    · decide
    · decide
  have hsel : flipSelect clsLpddr (lpChip off) = Reg.LPDDR_FLIP_SELECT (lpChip off) := rfl
  refine ⟨?_, ?_⟩
  · rw [← harmed]
    unfold State.armed
    rw [hsel, h.reg _ ⟨_, hchip, .inl rfl⟩, h.reg _ ⟨_, hchip, .inr (.inl rfl)⟩, h.reg _ ⟨_, hchip, .inr (.inr rfl)⟩]
  · rw [← hunread]
    unfold State.lpUnread
    rw [h.bad]

theorem State.SameTier.takes (h : s.SameTier t) {off n : Nat} (hr : s.TierTakes off n) : t.TierTakes off n :=
  fun u hu => h.reads (hr u hu)

theorem State.SameTier.trans (h : s.SameTier t) (k : t.SameTier u) : s.SameTier u :=
  ⟨k.bad.trans h.bad, fun a ha => (k.reg a ha).trans (h.reg a ha)⟩

theorem TierReg.place {a : Nat} (h : TierReg a) : a % 2 ^ 16 ∈ [0x101C, 0x24, 0x28] ∧ a / 2 ^ 24 = 9 := by
  obtain ⟨c, hc, rfl | rfl | rfl⟩ := h
  · unfold Reg.LPDDR_FLIP_SELECT regAddr
    exact ⟨List.mem_cons.mpr (.inl (by omega)), by omega⟩
  · unfold Reg.FLIP_MASK_LO regAddr clsLpddr
    exact ⟨List.mem_cons.mpr (.inr (List.mem_cons.mpr (.inl (by omega)))), by omega⟩
  · unfold Reg.FLIP_MASK_HI regAddr clsLpddr
    exact ⟨List.mem_cons.mpr (.inr (List.mem_cons.mpr (.inr (List.mem_singleton.mpr (by omega))))), by omega⟩

theorem State.Tiered.same {cs : List Host.Cell} (h : s.Tiered t cs) : s.SameTier t :=
  ⟨h.lpBad, fun a ha => h.reg a (by
    have hmem := ha.place.1
    intro heq
    rw [heq] at hmem
    exact absurd hmem (by decide))⟩

theorem bumpBy_sameTier {a n : Nat} (ha : ¬ TierReg a) : s.SameTier (s.bumpBy a n) :=
  ⟨by rw [State.bumpBy_mem], fun b hb => (reg_bumpBy ..).trans (if_neg (by rintro rfl; exact ha hb))⟩

theorem not_tierReg_noc (q : Nat) : ¬ TierReg (Reg.QUARTER_NOC_BLOCKS_SENT q) := by
  intro h
  have hmem := h.place.1
  have hlow : Reg.QUARTER_NOC_BLOCKS_SENT q % 2 ^ 16 = 0x1004 := by
    unfold Reg.QUARTER_NOC_BLOCKS_SENT regAddr
    omega
  rw [hlow] at hmem
  exact absurd hmem (by decide)

/-! ### The end of a request -/

section
variable {r : Req}

theorem fetchComplete_of_waits (hfind : s.run.reqs.find? (fun x => x.id == r.id) = some r)
    (h : r.started = false ∨ r.waiting = true) : s.fetchComplete r.id = s := by
  unfold State.fetchComplete
  rw [hfind]
  exact if_pos (by rcases h with h | h <;> simp [h])

/-- The queue and the engine without a request. -/
def State.withoutReq (s : State) (id : Nat) : State :=
  { s with run := { s.run with reqs := s.run.reqs.filter (fun x => x.id != id), copyBusy := s.run.copyBusy.filter (fun x => x.2 != id) } }

/-- The request counted at its copy engine. -/
def State.reqCounted (s : State) (r : Req) : State := if r.engine < 16 then s.bump (Reg.COPY_REQUESTS r.engine) else s

theorem reqCounted_hide (s : State) (r : Req) : (s.reqCounted r).hide 1 = s.hide 1 := by
  unfold State.reqCounted
  split
  · exact State.bump_hide 1 rfl ..
  · rfl

theorem fetchComplete_of_done {k : Nat} (hfind : s.run.reqs.find? (fun x => x.id == r.id) = some r)
    (hstarted : r.started = true) (hwaiting : r.waiting = false) (htoken : r.token = some k) :
    s.fetchComplete r.id = ((s.withoutReq r.id).reqCounted r).requestDone r.core k := by
  unfold State.fetchComplete
  rw [hfind]
  dsimp only
  rw [if_neg (by simp [hstarted, hwaiting]), htoken]
  rfl

theorem requestDone_token (s : State) (c k : Nat) : ((s.requestDone c k).core c).token k =
    { (s.core c).token k with done := ((s.core c).token k).done + 1 } := by
  unfold State.requestDone
  rw [core_setCore, if_pos rfl]
  unfold Core.setToken Core.token
  rw [tget_tputD, if_pos rfl]

end

/-! ### Writes of a request into the second tier -/

theorem byteAt_setBytes_congr {cs ds : List Host.Cell} (h : ∀ a, byteAt cs a = byteAt ds a) (k : Nat) (bs : List Byte) (a : Nat) :
    byteAt (setBytes cs k bs) a = byteAt (setBytes ds k bs) a := by
  rw [byteAt_setBytes, byteAt_setBytes, h]

theorem byteAt_stores_congr {cs ds : List Host.Cell} (h : ∀ a, byteAt cs a = byteAt ds a) (ws : List (Nat × List Byte)) (a : Nat) :
    byteAt (stores cs ws) a = byteAt (stores ds ws) a := by
  induction ws generalizing cs ds with
  | nil => exact h a
  | cons w ws ih => exact ih (byteAt_setBytes_congr h w.1 w.2)

/-- Bytes of the second tier written for a request: only registers that count the traffic have changed beside them. -/
structure State.Carried (s t : State) (cells : List Host.Cell) : Prop where
  rest : t.hide 49153 = s.hide 49153
  same : s.SameTier t
  bytes : ∀ a, byteAt t.mem.cells a = byteAt cells a

section
variable {r : Req}

theorem nocWrite_of_tier {a n : Nat} (h : zSpace a = 1) : s.nocWrite r a n = s.nocSend r.core n := by
  unfold State.nocWrite localHbm
  rw [h]
  simp

theorem storeOwn_of_tier {a : Nat} {bs : List Byte} (h : zSpace a = 1) (hfits : zOff a + bs.length ≤ 2 ^ 40)
    (htakes : s.TierTakes (zOff a) bs.length) :
    s.storeOwn r a bs = ⟨(s.writeLp (zOff a) bs r.reader).s, none⟩ := by
  obtain ⟨-, -, hbad⟩ := writeLp_tiered htakes r.reader
  unfold State.storeOwn
  rw [h]
  dsimp only
  rw [if_pos (mapped_tier hfits), hbad]
  rfl

/-- One run of a request's bytes, sent over the network and stored. -/
theorem storeRun_carried {a : Nat} {bs : List Byte} (h : zSpace a = 1) (hfits : zOff a + bs.length ≤ 2 ^ 40)
    (htakes : s.TierTakes (zOff a) bs.length) :
    ∃ t, (s.nocWrite r a bs.length).storeOwn r a bs = ⟨t, none⟩ ∧ s.Carried t (setBytes s.mem.cells (lpKey (zOff a)) bs) := by
  rw [nocWrite_of_tier h]
  have hsame : s.SameTier (s.nocSend r.core bs.length) := bumpBy_sameTier (not_tierReg_noc _)
  have hmem : (s.nocSend r.core bs.length).mem = s.mem := State.bumpBy_mem ..
  obtain ⟨hstored, -, -⟩ := writeLp_tiered (hsame.takes htakes) r.reader
  refine ⟨_, storeOwn_of_tier h hfits (hsame.takes htakes), hstored.rest.trans (State.nocSend_hide 49153 rfl ..),
    hsame.trans hstored.same, fun x => ?_⟩
  rw [hstored.bytes, hmem]

/-- The runs of a tile in turn. -/
theorem storeRuns_carried (runs : List (Nat × List Byte)) (h : ∀ x ∈ runs, zSpace x.1 = 1 ∧ zOff x.1 + x.2.length ≤ 2 ^ 40 ∧
      s.TierTakes (zOff x.1) x.2.length) :
    ∃ t, s.storeRuns r runs = ⟨t, none⟩ ∧ s.Carried t (stores s.mem.cells (runs.map (fun x => (lpKey (zOff x.1), x.2)))) := by
  unfold State.storeRuns
  induction runs generalizing s with
  | nil => exact ⟨s, rfl, rfl, ⟨rfl, fun _ _ => rfl⟩, fun _ => rfl⟩
  | cons x runs ih =>
    obtain ⟨hspace, hfits, htakes⟩ := h x (.head _)
    obtain ⟨v, hv, hone⟩ := storeRun_carried (r := r) hspace hfits htakes
    obtain ⟨t, ht, hall⟩ := ih (s := v) fun y hy => by
      obtain ⟨hs, hf, htk⟩ := h y (.tail _ hy)
      exact ⟨hs, hf, hone.same.takes htk⟩
    refine ⟨t, ?_, hall.rest.trans hone.rest, hone.same.trans hall.same, fun a => ?_⟩
    · rw [List.foldl_cons, ← ht]
      dsimp only
      rw [hv]
      rfl
    · rw [hall.bytes]
      exact byteAt_stores_congr hone.bytes _ a

/-! ### A request that is begun -/

theorem begun_reqs (s : State) (r : Req) (w : Bool) {x : Req} (hx : x ∈ (s.begun r w).run.reqs) (hid : x.id = r.id) :
    x.started = true ∧ x.waiting = w := by
  have hreqs : (s.begun r w).run.reqs =
      s.run.reqs.map (fun x => if x.id = r.id then { x with started := true, waiting := w } else x) := by
    unfold State.begun
    dsimp only
    split
    · rfl
    · rfl
  rw [hreqs] at hx
  obtain ⟨y, -, rfl⟩ := List.mem_map.mp hx
  split at hid
  · next hy =>
    rw [if_pos hy]
    exact ⟨rfl, rfl⟩
  · next hy => exact absurd hid hy

theorem begun_cores (s : State) (r : Req) (w : Bool) : (s.begun r w).run.cores = s.run.cores := by
  unfold State.begun
  dsimp only
  split
  · rfl
  · rfl

theorem copyStart_of_next {e : Nat} (h : s.nextRequest e = some r) : s.copyStart e = s.carryOut r := by
  unfold State.copyStart
  rw [h]

theorem isOwn_of_tier {a : Nat} (hend : zEndpoint a = s.moduleNum) (hspace : zSpace a = 1) : s.isOwn a = true := by
  unfold State.isOwn
  rw [hend, hspace]
  simp

/-- A finished tile's bytes are stored at its addresses. -/
theorem carryOut_of_tile {bytes : List (Nat × Byte × Byte)} {a : DWord} (hwhat : r.what = .tile bytes a)
    (hend : zEndpoint a.toNat = s.moduleNum) (hspace : zSpace a.toNat = 1)
    (h : ∀ x ∈ s.tileRuns bytes a.toNat, zSpace x.1 = 1 ∧ zOff x.1 + x.2.length ≤ 2 ^ 40 ∧ s.TierTakes (zOff x.1) x.2.length) :
    ∃ t, s.carryOut r = t.begun r false ∧
      s.Carried t (stores s.mem.cells ((s.tileRuns bytes a.toNat).map (fun x => (lpKey (zOff x.1), x.2)))) := by
  obtain ⟨t, ht, hcarried⟩ := storeRuns_carried (r := r) (s.tileRuns bytes a.toNat) h
  refine ⟨t, ?_, hcarried⟩
  have hcommand : (s.tileRuns bytes a.toNat).head?.bind (fun x => s.commandAt x.1) = none := by
    rw [Option.bind_eq_none_iff]
    intro x hx
    obtain ⟨hs, -, -⟩ := h x (List.mem_of_mem_head? hx)
    unfold State.commandAt localHbm
    rw [hs]
    simp
  unfold State.carryOut
  rw [hwhat]
  dsimp only
  rw [if_pos (isOwn_of_tier hend hspace)]
  unfold State.writeOwn
  rw [hcommand]
  dsimp only
  rw [ht]
  rfl

end

end Sys2Proof.Machine

end

section

/-!
What a fill of a scratchpad from the second tier stores (R241, R242, R246).
-/

namespace Sys2Proof.Machine

variable {s t u : State}

/-! ### Runs of scratchpad -/

/-- Bytes at rising offsets are one run. -/
theorem runsOf_consecutive (off : Nat) (b : Byte) (bs : List Byte) :
    runsOf ((b :: bs).mapIdx (fun i b => (off + i, b, (255 : Byte)))) = [(off, (b :: bs).map (fun b => (b, (255 : Byte))))] := by
  induction bs generalizing off b with
  | nil => rfl
  | cons c bs ih =>
    have hnext := ih (off + 1) c
    have hshift : ((c :: bs).mapIdx (fun i b => (off + (i + 1), b, (255 : Byte)))) =
        (c :: bs).mapIdx (fun i b => (off + 1 + i, b, (255 : Byte))) := by
      congr 1
      funext i b
      rw [Nat.add_assoc, Nat.add_comm 1 i]
    rw [List.mapIdx_cons, hshift, runsOf, hnext]
    exact if_pos rfl

/-- A write of whole bytes. -/
theorem setMasked_whole (cs : List Host.Cell) (a : Nat) (bs : List Byte) :
    setMasked cs a (bs.map (fun b => (b, true))) = setBytes cs a bs := by
  induction bs generalizing cs a with
  | nil => rfl
  | cons b bs ih => exact ih (setByte cs a b) (a + 1)

theorem merged_whole (old b : Byte) : (old &&& ~~~(255 : Byte)) ||| (b &&& 255) = b := by
  have hall : (255 : Byte) = BitVec.allOnes 8 := by decide
  rw [hall, BitVec.not_allOnes, BitVec.and_zero, BitVec.and_allOnes, BitVec.zero_or]

/-- A scratchpad without an armed mask was written: nothing but its bytes and their parity has changed. -/
structure State.Scratched (s t : State) (cells : List Host.Cell) : Prop where
  rest : t.hide 49152 = s.hide 49152
  cells : t.mem.cells = cells

theorem armed_congr (h : t.regs = s.regs) (cls i : Nat) : t.armed cls i = s.armed cls i := by
  unfold State.armed
  rw [reg_congr h, reg_congr h, reg_congr h]

theorem flipScratch_of_unarmed {core : Nat} (h : s.armed clsCore core = none) (off : Nat) : s.flipScratch core off = s := by
  unfold State.flipScratch
  rw [h]

theorem writeScratch_scratched {core off : Nat} (h : s.armed clsCore core = none) (bs : List (Byte × Bool)) :
    s.Scratched (s.writeScratch core off bs) (setMasked s.mem.cells (scratchKey core off) bs) := by
  unfold State.writeScratch
  split
  · next hempty =>
    rw [List.isEmpty_iff.mp hempty]
    exact ⟨rfl, rfl⟩
  · dsimp only
    rw [flipScratch_of_unarmed]
    · exact ⟨rfl, rfl⟩
    · exact (armed_congr rfl ..).trans h

theorem putBytes_scratched {core off : Nat} (h : s.armed clsCore core = none) (bs : List Byte) :
    s.Scratched (s.putBytes core (bs.mapIdx (fun i b => (off + i, b, (255 : Byte)))))
      (setBytes s.mem.cells (scratchKey core off) bs) := by
  cases bs with
  | nil => exact ⟨rfl, rfl⟩
  | cons b bs =>
    unfold State.putBytes
    rw [runsOf_consecutive]
    have hwhole : ((bytesAt s.mem.cells (scratchKey core off) ((b :: bs).map (fun b => (b, (255 : Byte)))).length).zip
        ((b :: bs).map (fun b => (b, (255 : Byte))))).map (fun x => ((x.1 &&& ~~~x.2.2) ||| (x.2.1 &&& x.2.2), true)) =
          (b :: bs).map (fun b => (b, true)) := by
      rw [List.zip_map_right, List.map_map]
      have hbyte : (fun x : Byte × Byte × Byte => ((x.1 &&& ~~~x.2.2) ||| (x.2.1 &&& x.2.2), true)) ∘
          Prod.map id (fun b : Byte => (b, (255 : Byte))) = (fun b => (b, true)) ∘ Prod.snd := by
        funext x
        exact congrArg (·, true) (merged_whole ..)
      rw [hbyte, ← List.map_map, List.map_snd_zip]
      rw [length_bytesAt, List.length_map]
    rw [List.foldl_cons, List.foldl_nil]
    dsimp only
    rw [hwhole]
    have hput := writeScratch_scratched (off := off) h ((b :: bs).map (fun b => (b, true)))
    rwa [setMasked_whole] at hput

/-- A run of whole words covers none in part. -/
theorem partRuns_of_whole {off n : Nat} (hoff : off % 32 = 0) (hn : n % 32 = 0) (hpos : 0 < n) : partRuns off n = [] := by
  unfold partRuns
  dsimp only
  rw [if_neg (by omega), if_neg (by omega), if_neg (by omega)]
  rfl

/-! ### A fill of one row -/

section
variable {r : Req} {f : FetchEntry}

theorem listBad_of_linear (hkind : f.kind = 0) : s.listBad r f = (s, none) := by
  unfold State.listBad FetchEntry.listRun
  rw [hkind]
  rfl

theorem extRows_of_single (hkind : f.kind = 0) (hcount : r.count = 1) : s.extRows r f = ([(0, some f.ext.toNat)], none) := by
  have hat : s.rowAt r f 0 = (f.ext.toNat, true) := by
    unfold State.rowAt
    rw [hkind]
    show (zAdd f.ext.toNat (0 * f.extPitch), true) = _
    unfold zAdd
    rw [Nat.zero_mul, Nat.add_zero, Nat.mod_eq_of_lt f.ext.isLt]
  have hrow : s.extRow r f 0 = some f.ext.toNat := by
    unfold State.extRow
    rw [hat]
    rfl
  unfold State.extRows
  dsimp only
  rw [hcount]
  have hall : (List.range 1).map (fun i => (i, s.extRow r f i)) = [(0, some f.ext.toNat)] := by
    rw [← hrow]
    rfl
  rw [hall]
  rfl

/-- The lines of a row counted at the copy engine that reads it. -/
def State.linesCounted (s : State) (r : Req) (a n : Nat) : State :=
  if r.engine < 16 then s.bumpBy (Reg.COPY_LINES_READ r.engine) ((zOff a + n - 1) / 128 + 1 - zOff a / 128) else s

theorem readOwn_of_tier {a n : Nat} (hspace : zSpace a = 1) (hfits : zOff a + n ≤ 2 ^ 40) (hreads : s.TierReads (zOff a) n)
    (rd : Reader) : s.readOwn rd a n = ⟨s, some (bytesAt s.mem.cells (lpKey (zOff a)) n), false⟩ := by
  unfold State.readOwn
  split
  · next h2 => exact absurd (hspace.symm.trans h2) (by decide)
  · next h3 => exact absurd (hspace.symm.trans h3) (by decide)
  · rw [hspace, if_neg (by simp [mapped_tier hfits]), readMem_tier hreads]

theorem readRow_of_tier {a : Nat} (hspace : zSpace a = 1) (hfits : zOff a + f.rowBytes ≤ 2 ^ 40)
    (hreads : s.TierReads (zOff a) f.rowBytes) : readRow r f ⟨s, [], none⟩ (0, some a) =
      ⟨s.linesCounted r a f.rowBytes, f.pieces' 0 (bytesAt s.mem.cells (lpKey (zOff a)) f.rowBytes), none⟩ := by
  have hnoc : s.nocRead r a f.rowBytes = s := by
    unfold State.nocRead localHbm
    rw [hspace]
    simp
  unfold readRow
  dsimp only
  rw [if_neg (by simp), hnoc, readOwn_of_tier hspace hfits hreads]
  rfl

theorem pieces_of_linear (hkind : f.kind = 0) (hsp : f.sp < 2 ^ 20) (bs : List Byte) : f.pieces' 0 bs = [(f.sp, bs)] := by
  unfold FetchEntry.pieces'
  rw [if_neg (by omega)]
  have hadd : spAdd f.sp (f.spPitch * (0 : Nat)) = f.sp := by
    unfold spAdd
    omega
  rw [hadd]

theorem spCore_of_own {own a : Nat} (h : a < 2 ^ 20) : spCore own a = own := by
  unfold spCore
  refine if_neg ?_
  unfold bitOf
  rw [Nat.testBit_lt_two_pow (lt_of_lt_of_le h (Nat.pow_le_pow_right (by decide) (by decide)))]
  decide

/-- The words of a write counted at the core and the engine. -/
def State.wordsCounted (s : State) (r : Req) (n m : Nat) : State :=
  if r.engine < 16 then (s.bumpBy (Reg.CORE_RMW_WORDS r.core) n).bumpBy (Reg.COPY_WORDS_WRITTEN r.engine) m
  else s.bumpBy (Reg.CORE_RMW_WORDS r.core) n

theorem fillRows_of_run {off : Nat} {bs : List Byte} (hoff : off < 2 ^ 20) (hword : off % 32 = 0) (hlen : bs.length % 32 = 0)
    (hpos : 0 < bs.length) (hplain : ∀ g, s.regionAt r.core off = some g → g.2.fullBlock = false) :
    s.fillRows r [(off, bs)] = ⟨(s.putBytes r.core (bs.mapIdx (fun i b => (off + i, b, (255 : Byte))))).wordsCounted r 0
      (wordsTouched off bs.length), [], none⟩ := by
  have hspOff : spOff off = off := Nat.mod_eq_of_lt hoff
  have hregion : ((s.regionAt r.core off).map (fun g => g.2.fullBlock)).getD false = false := by
    cases hg : s.regionAt r.core off with
    | none => rfl
    | some g => exact hplain g hg
  unfold State.fillRows
  rw [List.map_cons, List.map_nil, spCore_of_own hoff, hspOff]
  unfold joinRuns
  dsimp only [joinRuns]
  rw [List.foldl_cons, List.foldl_nil]
  unfold fillRun
  dsimp only
  rw [if_neg (by simp), hregion, if_neg (by simp), List.length_mapIdx, partRuns_of_whole hword hlen hpos]
  rfl

/-- A request with a misaligned base, counted at its copy engine. -/
def State.misCounted (s : State) (r : Req) (f : FetchEntry) : State :=
  if f.misaligned ∧ r.engine < 16 then s.bump (Reg.COPY_MISALIGNED_REQUESTS r.engine) else s

/-- Only registers of the copy engine's block have changed. -/
structure State.CopyCounted (s t : State) : Prop where
  rest : t.hide 1 = s.hide 1
  reg : ∀ a, a / 2 ^ 24 ≠ 16 → t.reg a = s.reg a

theorem copyCounted_bump {a n : Nat} (ha : a / 2 ^ 24 = 16) : s.CopyCounted (s.bumpBy a n) :=
  ⟨State.bumpBy_hide 1 rfl .., fun b hb => (reg_bumpBy ..).trans (if_neg (by rintro rfl; exact hb ha))⟩

theorem State.CopyCounted.trans (h : s.CopyCounted t) (k : t.CopyCounted u) : s.CopyCounted u :=
  ⟨k.rest.trans h.rest, fun a ha => (k.reg a ha).trans (h.reg a ha)⟩

theorem State.CopyCounted.mem (h : s.CopyCounted t) : t.mem = s.mem := kept_mem h.rest rfl rfl

theorem State.CopyCounted.same (h : s.CopyCounted t) : s.SameTier t :=
  ⟨by rw [h.mem], fun a ha => h.reg a (by rw [ha.place.2]; decide)⟩

theorem State.CopyCounted.armed (h : s.CopyCounted t) {core : Nat} (hcore : core < 64) :
    t.armed clsCore core = s.armed clsCore core := by
  have hsel : flipSelect clsCore core = Reg.CORE_FLIP_SELECT core := rfl
  unfold State.armed
  rw [hsel, h.reg _ (by unfold Reg.CORE_FLIP_SELECT regAddr; omega),
    h.reg _ (by unfold Reg.FLIP_MASK_LO regAddr clsCore; omega), h.reg _ (by unfold Reg.FLIP_MASK_HI regAddr clsCore; omega)]

theorem State.CopyCounted.region (h : s.CopyCounted t) (core off : Nat) : t.regionAt core off = s.regionAt core off := by
  unfold State.regionAt State.slot State.phaseNat
  rw [kept_run h.rest rfl, kept_clock h.rest rfl]

theorem State.CopyCounted.own (h : s.CopyCounted t) : t.moduleNum = s.moduleNum := by
  unfold State.moduleNum
  rw [h.reg _ (by decide)]

theorem misCounted_counted : s.CopyCounted (s.misCounted r f) := by
  unfold State.misCounted
  split
  · next h => exact copyCounted_bump (by unfold Reg.COPY_MISALIGNED_REQUESTS regAddr; omega)
  · exact ⟨rfl, fun _ _ => rfl⟩

theorem linesCounted_counted (a n : Nat) : s.CopyCounted (s.linesCounted r a n) := by
  unfold State.linesCounted
  split
  · next h => exact copyCounted_bump (by unfold Reg.COPY_LINES_READ regAddr; omega)
  · exact ⟨rfl, fun _ _ => rfl⟩

theorem wordsCounted_hide (s : State) (r : Req) (n m : Nat) : (s.wordsCounted r n m).hide 1 = s.hide 1 := by
  unfold State.wordsCounted
  split
  · exact (State.bumpBy_hide 1 rfl ..).trans (State.bumpBy_hide 1 rfl ..)
  · exact State.bumpBy_hide 1 rfl ..

/-- A fill of whole words from one row of the second tier: the row's bytes stand in the scratchpad, and the request has begun. -/
theorem carryOut_of_fill {o : Nat} (hwhat : r.what = .fetch f o) (hkind : f.kind = 0) (hdir : f.dir = 0) (hcount : r.count = 1)
    (hcore : r.core < 64) (hend : zEndpoint f.ext.toNat = s.moduleNum) (hspace : zSpace f.ext.toNat = 1)
    (hfits : zOff f.ext.toNat + f.rowBytes ≤ 2 ^ 40) (hrow : f.rowBytes % 32 = 0) (hpos : 0 < f.rowBytes) (hsp : f.sp < 2 ^ 20)
    (hword : f.sp % 32 = 0) (hreads : s.TierReads (zOff f.ext.toNat) f.rowBytes) (harmed : s.armed clsCore r.core = none)
    (hplain : ∀ g, s.regionAt r.core f.sp = some g → g.2.fullBlock = false) :
    ∃ t : State, s.carryOut r = t.begun r false ∧ t.run = s.run ∧
      t.mem.cells = setBytes s.mem.cells (scratchKey r.core f.sp) (bytesAt s.mem.cells (lpKey (zOff f.ext.toNat)) f.rowBytes) := by
  have hmis := misCounted_counted (s := s) (r := r) (f := f)
  have hcounted := hmis.trans (linesCounted_counted (r := r) f.ext.toNat f.rowBytes)
  have hlen := length_bytesAt (s.misCounted r f).mem.cells (lpKey (zOff f.ext.toNat)) f.rowBytes
  have hfill := fillRows_of_run (r := r) (s := (s.misCounted r f).linesCounted r f.ext.toNat f.rowBytes) (off := f.sp)
    (bs := bytesAt (s.misCounted r f).mem.cells (lpKey (zOff f.ext.toNat)) f.rowBytes) hsp hword (by rw [hlen]; exact hrow)
    (by rw [hlen]; exact hpos) (by rw [hcounted.region]; exact hplain)
  have hput := putBytes_scratched (off := f.sp) ((hcounted.armed hcore).trans harmed)
    (bytesAt (s.misCounted r f).mem.cells (lpKey (zOff f.ext.toNat)) f.rowBytes)
  have hcells : (s.misCounted r f).mem.cells = s.mem.cells := congrArg Memory.cells hmis.mem
  have hcells' : ((s.misCounted r f).linesCounted r f.ext.toNat f.rowBytes).mem.cells = s.mem.cells :=
    congrArg Memory.cells hcounted.mem
  refine ⟨(((s.misCounted r f).linesCounted r f.ext.toNat f.rowBytes).fillRows r
    [(f.sp, bytesAt (s.misCounted r f).mem.cells (lpKey (zOff f.ext.toNat)) f.rowBytes)]).s, ?_, ?_, ?_⟩
  · unfold State.carryOut
    rw [hwhat]
    dsimp only
    rw [if_neg (by omega)]
    change (if (s.misCounted r f).isOwn f.ext.toNat = true then _ else _) = _
    rw [if_pos (isOwn_of_tier (by rw [hmis.own]; exact hend) hspace), if_pos hdir]
    unfold State.fillOwn
    rw [show (if f.misaligned = true ∧ r.engine < 16 then s.bump (Reg.COPY_MISALIGNED_REQUESTS r.engine) else s) =
      s.misCounted r f from rfl, listBad_of_linear hkind]
    dsimp only
    rw [extRows_of_single hkind hcount]
    dsimp only
    rw [List.foldl_cons, List.foldl_nil, readRow_of_tier hspace hfits (hmis.same.reads hreads)]
    dsimp only
    rw [pieces_of_linear hkind hsp, hfill]
    rfl
  · rw [hfill]
    exact (kept_run (wordsCounted_hide ..) rfl).trans ((kept_run hput.rest rfl).trans (kept_run hcounted.rest rfl))
  · rw [hfill]
    refine (kept_cells (wordsCounted_hide ..) rfl).trans (hput.cells.trans ?_)
    rw [hcells, hcells']

end

/-- Settles O41: a request ends once its bytes have moved, and the next one stores a tile or fills a scratchpad. -/
theorem fetchRequestCommands : Obligations.FetchRequestCommands := by
  refine ⟨fun s r k hfind hstarted hwaiting htoken => ?_,
    fun s r hfind h => congrArg Host.Outcome.next (fetchComplete_of_waits hfind h),
    fun s e r bytes a hnext hwhat hend hspace hruns => ?_,
    fun s e r f o hnext hwhat hkind hdir hcount hcore hend hspace hfits hrow hpos hsp hword hscratch hreads harmed hplain => ?_,
    fun s e hnone => ?_⟩
  · have hcount := reqCounted_hide (s.withoutReq r.id) r
    have hset := State.requestDone_hide 4 rfl ((s.withoutReq r.id).reqCounted r) r.core k
    have hmem := kept_mem hset rfl rfl
    have hmem' := kept_mem hcount rfl rfl
    refine ⟨_, done_of_eq (fetchComplete_of_done hfind hstarted hwaiting htoken), ?_, ?_, hmem.trans hmem'⟩
    · exact congrArg RunState.reqs (kept_run hcount rfl)
    · rw [requestDone_token]
      have hcore : ((s.withoutReq r.id).reqCounted r).core r.core = s.core r.core := by
        unfold State.core
        rw [kept_run hcount rfl]
        rfl
      rw [hcore]
  · obtain ⟨t, ht, hcarried⟩ := carryOut_of_tile hwhat hend hspace fun x hx => by
      obtain ⟨hs, -, hf, htk⟩ := hruns x hx
      exact ⟨hs, hf, htk⟩
    have hbegun := State.begun_hide 4 rfl t r false
    refine ⟨_, done_of_eq ((copyStart_of_next hnext).trans ht), fun k => ?_, fun x hx hid => begun_reqs t r false hx hid,
      (begun_cores ..).trans (congrArg RunState.cores (kept_run hcarried.rest rfl))⟩
    rw [kept_cells hbegun rfl]
    exact hcarried.bytes k
  · obtain ⟨t, ht, hrun, hcells⟩ := carryOut_of_fill hwhat hkind hdir hcount hcore hend hspace hfits hrow hpos hsp hword hreads
      harmed hplain
    have hbegun := State.begun_hide 4 rfl t r false
    have hlen := length_bytesAt s.mem.cells (lpKey (zOff f.ext.toNat)) f.rowBytes
    refine ⟨_, done_of_eq ((copyStart_of_next hnext).trans ht), ?_, fun x hx => ?_, fun x hx hid => begun_reqs t r false hx hid,
      (begun_cores ..).trans (congrArg RunState.cores hrun)⟩
    · rw [kept_cells hbegun rfl, hcells]
      have hself := bytesAt_setBytes_self s.mem.cells (scratchKey r.core f.sp)
        (bytesAt s.mem.cells (lpKey (zOff f.ext.toNat)) f.rowBytes)
      rwa [hlen] at hself
    · rw [kept_cells hbegun rfl, hcells, byteAt_setBytes, hlen, if_neg hx]
  · refine congrArg Host.Outcome.next ?_
    unfold State.copyStart
    rw [hnone]

end Sys2Proof.Machine

end

section

/-!
Flows, frames and ports: what a timer, a frame that leaves and a lost part do (R333, R337, R338, R344, R366 to R368).
-/

namespace Sys2Proof.Machine

variable {s t u : State}

/-! ### Flows by their name -/

/-- An element put in the place of those of its key, or behind the others. -/
theorem find?_put {α β : Type} [DecidableEq β] (key : α → β) (f : α) (l : List α) (k : β) :
    (if l.any (fun g => key g == key f) then l.map (fun g => if key g = key f then f else g) else l ++ [f]).find?
      (fun g => key g == k) = if key f = k then some f else l.find? (fun g => key g == k) := by
  split
  · next hany =>
    rw [List.find?_map]
    split
    · next hk =>
      subst hk
      have hsame : ((fun g => key g == key f) ∘ fun g => if key g = key f then f else g) = fun g => key g == key f := by
        funext g
        by_cases hg : key g = key f
        · simp [hg]
        · simp [hg]
      obtain ⟨x, hx⟩ := Option.isSome_iff_exists.mp (List.find?_isSome.mpr (List.any_eq_true.mp hany))
      have hkey := List.find?_some hx
      rw [hsame, hx]
      exact congrArg some (if_pos (eq_of_beq hkey))
    · next hk =>
      have hsame : ((fun g => key g == k) ∘ fun g => if key g = key f then f else g) = fun g => key g == k := by
        funext g
        by_cases hg : key g = key f
        · simp [hg]
        · simp [hg]
      rw [hsame]
      cases hx : l.find? (fun g => key g == k) with
      | none => rfl
      | some x =>
        have hkey := List.find?_some hx
        exact congrArg some (if_neg fun he => hk (he.symm.trans (eq_of_beq hkey)))
  · next hnone =>
    rw [List.find?_append, List.find?_singleton]
    by_cases hk : key f = k
    · have hnot : l.find? (fun g => key g == k) = none :=
        List.find?_eq_none.mpr fun x hx he => hnone (List.any_eq_true.mpr ⟨x, hx, by rwa [hk]⟩)
      rw [hnot, if_pos hk, if_pos (by simp [hk])]
      rfl
    · rw [if_neg hk, if_neg (by simp [hk]), Option.or_none]

theorem setRx_fab (s : State) (f : RxFlow) : (s.setRx f).fab = { s.fab with
    rx := if s.fab.rx.any (fun g => g.id == f.id) then s.fab.rx.map (fun g => if g.id = f.id then f else g) else s.fab.rx ++ [f] } := by
  unfold State.setRx
  split
  · rfl
  · rfl

theorem setTx_fab (s : State) (f : TxFlow) : (s.setTx f).fab = { s.fab with
    tx := if s.fab.tx.any (fun g => g.id == f.id) then s.fab.tx.map (fun g => if g.id = f.id then f else g) else s.fab.tx ++ [f] } := by
  unfold State.setTx
  split
  · rfl
  · rfl

theorem rxFlow_setRx (s : State) (f : RxFlow) (id : FlowId) :
    (s.setRx f).rxFlow id = if f.id = id then f else s.rxFlow id := by
  unfold State.rxFlow
  rw [setRx_fab]
  dsimp only
  rw [find?_put RxFlow.id]
  split
  · rfl
  · rfl

theorem txFlow_setTx (s : State) (f : TxFlow) (id : FlowId) :
    (s.setTx f).txFlow id = if f.id = id then f else s.txFlow id := by
  unfold State.txFlow
  rw [setTx_fab]
  dsimp only
  rw [find?_put TxFlow.id]
  split
  · rfl
  · rfl

theorem rxFlow_id (s : State) (id : FlowId) : (s.rxFlow id).id = id := by
  unfold State.rxFlow
  cases h : s.fab.rx.find? (fun f => f.id == id) with
  | none => rfl
  | some f =>
    have hid := List.find?_some h
    exact eq_of_beq hid

theorem txFlow_id (s : State) (id : FlowId) : (s.txFlow id).id = id := by
  unfold State.txFlow
  cases h : s.fab.tx.find? (fun f => f.id == id) with
  | none => rfl
  | some f =>
    have hid := List.find?_some h
    exact eq_of_beq hid

theorem rxFlow_congr (h : t.fab.rx = s.fab.rx) (id : FlowId) : t.rxFlow id = s.rxFlow id := by
  unfold State.rxFlow
  rw [h]

/-! ### Acknowledgements that a timer sends -/

/-- A frame without blocks that no READ is waits as it was made. -/
theorem State.sendBare_waits (s : State) (id : FlowId) {h : Hdr} (hread : h.type ≠ 1) :
    (s.sendBare id h).fab.HasWaiting (fun c => c.data = [] ∧ c.hdr = { h with nblk := 0 }) := by
  unfold State.sendBare State.enqueue
  extract_lets f n h'
  obtain ⟨tx, he, hmem⟩ := s.setTx_effect { f with
    next := f.next + BitVec.ofNat 32 n, blocks := f.blocks ++ [⟨⟨h', []⟩, 0, 0, false, false, false⟩] }
  rw [he]
  refine ⟨_, hmem, _, List.mem_append_right _ (List.mem_singleton_self _), rfl, rfl, ?_⟩
  show h' = _
  have hseq : (if n = 0 ∧ h.type ≠ 1 then h.seq else f.next) = h.seq := if_pos ⟨rfl, hread⟩
  simp only [h', hseq]
  rfl

/-- An answer of the receiving side waits, and no receiving flow has changed. -/
theorem answer_effect (s : State) (id : FlowId) (seq len : Word) {type : Nat} (hread : type ≠ 1) :
    (s.answer id (fun h => { h with seq := seq, len := len }) type).Waits type id.peer (fun c => c.hdr.seq = seq) ∧
      (s.answer id (fun h => { h with seq := seq, len := len }) type).fab.rx = s.fab.rx := by
  unfold State.answer
  obtain ⟨tx, he, -⟩ := s.sendBare_effect id
    { ({ s.header type id.cls id.queue id.peer id.host with seq := seq, len := len } : Hdr) with last := true }
  obtain ⟨f, hf, b, hb, hsent, -, hhdr⟩ := s.sendBare_waits id
    (h := { ({ s.header type id.cls id.queue id.peer id.host with seq := seq, len := len } : Hdr) with last := true }) hread
  refine ⟨⟨f, hf, b, hb, hsent, ?_, ?_, ?_⟩, by rw [he]⟩
  · rw [hhdr]
    rfl
  · rw [hhdr]
    rfl
  · exact congrArg Hdr.seq hhdr

theorem sendAck_effect (s : State) (id : FlowId) : (s.sendAck id).rxFlow id = { s.rxFlow id with unacked := 0 } ∧
    (s.sendAck id).Waits 3 id.peer (fun c => c.hdr.seq = (s.rxFlow id).expect - 1) := by
  obtain ⟨hwaits, hrx⟩ := answer_effect (s.setRx { s.rxFlow id with unacked := 0 }) id ((s.rxFlow id).expect - 1) 0
    (type := 3) (by decide)
  refine ⟨?_, hwaits⟩
  exact (rxFlow_congr hrx id).trans ((rxFlow_setRx ..).trans (if_pos (rxFlow_id s id)))

theorem sendNak_effect (s : State) (id : FlowId) (busy : Bool) : (s.sendNak id busy).fab.rx = s.fab.rx ∧
    (s.sendNak id busy).Waits 4 id.peer (fun c => c.hdr.seq = (s.rxFlow id).expect) := by
  obtain ⟨hwaits, hrx⟩ := answer_effect s id (s.rxFlow id).expect (BitVec.ofNat 32 (bnat busy)) (type := 4) (by decide)
  exact ⟨hrx, hwaits⟩

/-! ### Blocks sent again -/

theorem block_modBlock {f : TxFlow} {q : Word} {b : TxBlock} (h : f.block q = some b) (g : TxBlock → TxBlock)
    (hg : ∀ x, (g x).cargo = x.cargo ∧ (g x).sent = x.sent) : (f.modBlock q g).block q = some (g b) := by
  unfold TxFlow.block TxFlow.modBlock at *
  dsimp only
  rw [List.find?_map]
  have hsame : ((fun b : TxBlock => b.cargo.hdr.nblk != 0 && b.sent && b.cargo.hdr.seq == q) ∘
      fun b => if b.cargo.hdr.nblk ≠ 0 ∧ b.sent = true ∧ b.cargo.hdr.seq = q then g b else b) =
        fun b : TxBlock => b.cargo.hdr.nblk != 0 && b.sent && b.cargo.hdr.seq == q := by
    funext x
    obtain ⟨hcargo, hsent⟩ := hg x
    rw [Function.comp_apply]
    split
    · rw [hcargo, hsent]
    · rfl
  rw [hsame, h]
  have hb := List.find?_some h
  simp only [Bool.and_eq_true, bne_iff_ne, ne_eq, beq_iff_eq] at hb
  obtain ⟨⟨hn, hsent⟩, hseq⟩ := hb
  exact congrArg some (if_pos ⟨hn, hsent, hseq⟩)

/-- The block as it is to be sent again. -/
def TxBlock.goesAgain (x : TxBlock) : TxBlock := { x with again := true, busy := false, resends := x.resends + 1 }

theorem resend_of_block {f : FlowId} {q : Word} {b : TxBlock} (h : (s.txFlow f).block q = some b)
    (hless : b.resends < s.retryLimit (s.livePlane f.plane)) :
    s.resend f q true = s.setTx ((s.txFlow f).modBlock q TxBlock.goesAgain) := by
  unfold State.resend
  dsimp only
  rw [h]
  dsimp only
  rw [if_neg (by simp [hless])]
  rfl

theorem resent_block {f : FlowId} {q : Word} {b : TxBlock} (h : (s.txFlow f).block q = some b) :
    ((s.setTx ((s.txFlow f).modBlock q TxBlock.goesAgain)).txFlow f).block q = some b.goesAgain := by
  rw [txFlow_setTx, if_pos (by exact txFlow_id s f)]
  exact block_modBlock h TxBlock.goesAgain fun x => ⟨rfl, rfl⟩

/-! ### Frames that leave -/

theorem peerOn_modPeer {num plane : Nat} {host : Bool} {p : Peer} (h : s.peerOn num host plane = some p) (f : Peer → Peer)
    (hf : ∀ x, (f x).num = x.num ∧ (f x).host = x.host ∧ (f x).plane = x.plane) :
    (s.modPeer num host plane f).peerOn num host plane = some (f p) := by
  unfold State.peerOn State.modPeer at *
  dsimp only
  rw [List.find?_map]
  have hsame : ((fun p : Peer => p.num == num && p.host == host && p.plane == plane) ∘
      fun p => if p.num = num ∧ p.host = host ∧ p.plane = plane then f p else p) =
        fun p : Peer => p.num == num && p.host == host && p.plane == plane := by
    funext x
    obtain ⟨hnum, hhost, hplane⟩ := hf x
    rw [Function.comp_apply]
    split
    · rw [hnum, hhost, hplane]
    · rfl
  rw [hsame, h]
  have hp := List.find?_some h
  simp only [Bool.and_eq_true, beq_iff_eq] at hp
  obtain ⟨⟨hnum, hhost⟩, hplane⟩ := hp
  exact congrArg some (if_pos ⟨hnum, hhost, hplane⟩)

theorem peerOn_congr (h : t.fab.peers = s.fab.peers) (num : Nat) (host : Bool) (plane : Nat) :
    t.peerOn num host plane = s.peerOn num host plane := by
  unfold State.peerOn
  rw [h]

/-- The peer with one packet more sent at a port. -/
def Peer.sentAt (pr : Peer) (p : Nat) : Peer := { pr with sent := tput pr.sent p (tget 0 pr.sent p + 1) }

/-- The frame as it leaves, before a new key is asked for. -/
def State.frameOut (s : State) (p : Nat) (pr : Peer) (h : Hdr) (body : List Byte) : State :=
  (s.modPeer h.dst h.dstHost (p / 4) (fun x => { x with sent := tput x.sent p (tget 0 pr.sent p + 1) })).emit
    (.frame p (s.envelope p pr h body) h.bytes body)

theorem frameOut_hide (s : State) (p : Nat) (pr : Peer) (h : Hdr) (body : List Byte) :
    (s.frameOut p pr h body).hide 4160 = s.hide 4160 := rfl

theorem sendFrame_of_peer {p : Nat} {h : Hdr} {body : List Byte} {pr : Peer} (hpeer : s.peerOn h.dst h.dstHost (p / 4) = some pr) :
    s.sendFrame p h body = if rekeyFrom ≤ tget 0 pr.sent p + 1 ∧ (h.dst, h.dstHost) ∉ s.fab.rekeying then
      (s.frameOut p pr h body).rekey h.dst h.dstHost (p / 4) else s.frameOut p pr h body := by
  unfold State.sendFrame
  rw [hpeer]
  dsimp only
  by_cases hkey : rekeyFrom ≤ tget 0 pr.sent p + 1 ∧ (h.dst, h.dstHost) ∉ s.fab.rekeying
  · rw [if_pos hkey]
    refine if_pos ?_
    obtain ⟨hmany, hnot⟩ := hkey
    have hcontains : s.fab.rekeying.contains (h.dst, h.dstHost) = false := by simpa using hnot
    rw [decide_eq_true hmany]
    exact congrArg (! ·) hcontains
  · rw [if_neg hkey]
    refine if_neg fun hgo => hkey ?_
    rw [Bool.and_eq_true, decide_eq_true_iff, Bool.not_eq_true'] at hgo
    obtain ⟨hmany, hnot⟩ := hgo
    have hcontains : s.fab.rekeying.contains (h.dst, h.dstHost) = false := hnot
    exact ⟨hmany, by simpa using hcontains⟩

end Sys2Proof.Machine

end

section

/-!
A frame that leaves a port, and a port that goes down (R333, R344, R366, R367).
-/

namespace Sys2Proof.Machine

variable {s t u : State}

/-! ### What a frame takes along -/

/-- The blocks of an offer's frame. -/
def State.frameBlocks (s : State) (p : Nat) (o : Offer) : List TxBlock :=
  o.block :: (if o.again || o.block.cargo.hdr.nblk == 0 then [] else (s.second p (s.txFlow o.flow) o.block).toList)

/-- The flow of an offer, its frame's blocks sent. -/
def State.flowSent (s : State) (p : Nat) (o : Offer) : TxFlow :=
  { s.txFlow o.flow with blocks := (s.txFlow o.flow).blocks.filterMap (fun b =>
      if (s.frameBlocks p o).contains b then
        (if b.cargo.hdr.nblk = 0 then none else some { b with sent := true, again := false, sentAt := s.clock.now })
      else some b) }

/-- The credits of an offer's peer as its frame leaves them. -/
def State.creditTaken (s : State) (p : Nat) (o : Offer) : State :=
  if !o.again && o.block.cargo.hdr.cls == 1 && o.block.cargo.hdr.nblk != 0 then
    s.setCredit { s.creditOf o.flow.peer o.flow.host (s.livePlane o.flow.plane) with
      held := (s.creditOf o.flow.peer o.flow.host (s.livePlane o.flow.plane)).held - (s.frameBlocks p o).length }
  else if o.block.cargo.hdr.type = 6 then
    s.setCredit { s.creditOf o.flow.peer o.flow.host (s.livePlane o.flow.plane) with asked := some s.clock.now }
  else s

/-- The state in which an offer's frame is put on its port. -/
def State.frameReady (s : State) (p : Nat) (o : Offer) : State :=
  ((s.creditTaken p o).setTx (s.flowSent p o)).countFrame p (s.livePlane o.flow.plane) (s.frameBlocks p o) o.again

theorem putFrame_eq (s : State) (p : Nat) (o : Offer) : s.putFrame p o = ((s.frameReady p o).sendFrame p
    (frameHdr (s.frameBlocks p o) o.again) ((s.frameBlocks p o).flatMap carried)).rotateTx o.flow := rfl

theorem creditTaken_fab (s : State) (p : Nat) (o : Offer) : ∃ l, s.creditTaken p o = { s with fab := { s.fab with credits := l } } := by
  unfold State.creditTaken
  split
  · exact State.setCredit_effect ..
  · split
    · exact State.setCredit_effect ..
    · exact ⟨_, rfl⟩

/-- Beside the frames of its port a frame counts in registers of these places alone. -/
theorem countFrame_reg (s : State) (p plane : Nat) (bs : List TxBlock) (again : Bool) {a : Nat}
    (ha : a % 2 ^ 16 ∉ [0x1024, 0x1028, 0x102C]) :
    (s.countFrame p plane bs again).reg a = (s.bump (Reg.PORT_FRAMES_TX p)).reg a := by
  simp only [List.mem_cons, List.not_mem_nil, or_false, not_or] at ha
  obtain ⟨hsent, hresent, hsched⟩ := ha
  have hne {b : Nat} (hb : a % 2 ^ 16 ≠ b % 2 ^ 16) : a ≠ b := fun he => hb (by rw [he])
  have h2 : a ≠ Reg.FABRIC_BLOCKS_RESENT plane := hne (by unfold Reg.FABRIC_BLOCKS_RESENT regAddr; omega)
  have h3 : a ≠ Reg.FABRIC_BLOCKS_SENT plane := hne (by unfold Reg.FABRIC_BLOCKS_SENT regAddr; omega)
  have h4 : a ≠ Reg.PORT_SCHED_FRAMES p := hne (by unfold Reg.PORT_SCHED_FRAMES regAddr; omega)
  have h5 : a ≠ Reg.FABRIC_SCHED_RESENDS plane := hne (by unfold Reg.FABRIC_SCHED_RESENDS regAddr; omega)
  unfold State.countFrame
  extract_lets n sched s1 s2 s3
  have e2 : s2.reg a = s1.reg a := by
    simp only [s2]
    split
    · exact (reg_bumpBy ..).trans (if_neg h2)
    · exact (reg_bumpBy ..).trans (if_neg h3)
  have e3 : s3.reg a = s2.reg a := by
    simp only [s3]
    split
    · exact (reg_bump ..).trans (if_neg h4)
    · rfl
  split
  · exact ((reg_bumpBy ..).trans (if_neg h5)).trans (e3.trans e2)
  · exact e3.trans e2

/-- A frame is ready: its blocks are marked, its credits taken, and it is counted; peers and keys are as they were. -/
structure State.Ready (s t : State) (p : Nat) : Prop where
  rest : t.hide 65 = s.hide 65
  peers : t.fab.peers = s.fab.peers
  rekeying : t.fab.rekeying = s.fab.rekeying
  frames : t.reg (Reg.PORT_FRAMES_TX p) = (s.reg (Reg.PORT_FRAMES_TX p) + 1) % 2 ^ 32
  udp : ∀ c, t.reg (Reg.FABRIC_UDP_PORT c) = s.reg (Reg.FABRIC_UDP_PORT c)

theorem frameReady_ready (s : State) (p : Nat) (o : Offer) : s.Ready (s.frameReady p o) p := by
  obtain ⟨l, hcredit⟩ := creditTaken_fab s p o
  obtain ⟨tx, hset, -⟩ := (s.creditTaken p o).setTx_effect (s.flowSent p o)
  have hcount := State.countFrame_hide 1 rfl ((s.creditTaken p o).setTx (s.flowSent p o)) p (s.livePlane o.flow.plane)
    (s.frameBlocks p o) o.again
  have hrest : ((s.creditTaken p o).setTx (s.flowSent p o)).hide 65 = s.hide 65 := by
    rw [hset, hcredit]
    rfl
  have hfab := kept_fab hcount rfl
  have hregs : ((s.creditTaken p o).setTx (s.flowSent p o)).regs = s.regs := by rw [hset, hcredit]
  have hreg {a : Nat} (ha : a % 2 ^ 16 ∉ [0x1024, 0x1028, 0x102C]) : (s.frameReady p o).reg a =
      if a = Reg.PORT_FRAMES_TX p then (s.reg a + 1) % 2 ^ 32 else s.reg a := by
    refine (countFrame_reg _ p _ _ _ ha).trans ((reg_bump ..).trans ?_)
    rw [reg_congr hregs, reg_congr hregs]
    split
    · next he => rw [he]
    · rfl
  refine ⟨(State.countFrame_hide 65 rfl ..).trans hrest, ?_, ?_, ?_, fun c => ?_⟩
  · refine (congrArg Fabric.peers hfab).trans ?_
    rw [hset, hcredit]
  · refine (congrArg Fabric.rekeying hfab).trans ?_
    rw [hset, hcredit]
  · have hlow : Reg.PORT_FRAMES_TX p % 2 ^ 16 = 0x1010 := by
      unfold Reg.PORT_FRAMES_TX regAddr
      omega
    rw [hreg (by rw [hlow]; decide), if_pos rfl]
  · have hlow : Reg.FABRIC_UDP_PORT c % 2 ^ 16 = 0x1008 := by
      unfold Reg.FABRIC_UDP_PORT regAddr
      omega
    rw [hreg (by rw [hlow]; decide), if_neg]
    intro he
    have := congrArg (· % 2 ^ 16) he
    unfold Reg.PORT_FRAMES_TX regAddr at this
    simp only [hlow] at this
    omega

theorem State.Ready.envelope {p : Nat} (h : s.Ready t p) (pr : Peer) (hd : Hdr) (body : List Byte) :
    t.envelope p pr hd body = s.envelope p pr hd body := by
  unfold State.envelope
  rw [h.udp]

/-! ### The header of a frame -/

/-- The header of a frame is its first block's but for what tells of its blocks. -/
theorem frameHdr_first (b : TxBlock) (l : List TxBlock) (again : Bool) :
    (frameHdr (b :: l) again).type = b.cargo.hdr.type ∧ (frameHdr (b :: l) again).seq = b.cargo.hdr.seq ∧
      (frameHdr (b :: l) again).dst = b.cargo.hdr.dst ∧ (frameHdr (b :: l) again).dstHost = b.cargo.hdr.dstHost ∧
      (frameHdr (b :: l) again).resend = again := by
  cases l with
  | nil => exact ⟨rfl, rfl, rfl, rfl, rfl⟩
  | cons x l => exact ⟨rfl, rfl, rfl, rfl, rfl⟩

theorem carried_prefix (b : TxBlock) (l : List TxBlock) (h : b.cargo.hdr.nblk ≠ 0) :
    (⟨b.cargo.data, BitVec.ofNat 32 (crc32c b.cargo.data)⟩ : Block).bytes <+: (b :: l).flatMap carried := by
  have hcarried : carried b = (⟨b.cargo.data, BitVec.ofNat 32 (crc32c b.cargo.data)⟩ : Block).bytes := if_neg h
  rw [List.flatMap_cons, hcarried]
  exact List.prefix_append ..

/-! ### A join that a port asks for -/

theorem sendJoin_out (s : State) (peer : Nat) (host : Bool) (plane : Option Nat) : ∃ h share sig,
    (s.sendJoin peer host plane).out = s.out ++ [.join peer host plane h Config.certificates share sig] := ⟨_, _, _, rfl⟩

theorem rekey_effect (s : State) (peer : Nat) (host : Bool) (plane : Nat) :
    (peer, host) ∈ (s.rekey peer host plane).fab.rekeying ∧
      ∃ h share sig, Out.join peer host (some plane) h Config.certificates share sig ∈ (s.rekey peer host plane).out := by
  unfold State.rekey
  obtain ⟨h, share, sig, hout⟩ := sendJoin_out
    { s with fab := { s.fab with rekeying := (peer, host) :: s.fab.rekeying.filter (· != (peer, host)) } } peer host (some plane)
  refine ⟨?_, h, share, sig, ?_⟩
  · rw [kept_fab (State.sendJoin_hide 4224 rfl ..) rfl]
    exact List.mem_cons_self
  · rw [hout]
    exact List.mem_append_right _ (List.mem_singleton_self _)

/-! ### The frame that a port takes -/

section
variable {p : Nat} {o : Offer} {pr : Peer}

theorem frameSend_of_best (hdie : s.power.die = true) (hlive : s.portLive p = true) (hnum : s.numbered = true)
    (hbest : bestOffer ((s.fab.tx.filter (fun f => s.flowPort f.id == p &&
      s.joinedOn f.id.peer f.id.host (s.livePlane f.id.plane) && s.keyLeft p f.id)).flatMap (s.offers p)) = some o) :
    s.frameSend p = s.putFrame p o := by
  unfold State.frameSend
  rw [if_neg (by simp [hdie, hlive, hnum])]
  dsimp only
  rw [hbest]

/-- The header of an offer's frame, and what follows it. -/
def State.offerHdr (s : State) (p : Nat) (o : Offer) : Hdr := frameHdr (s.frameBlocks p o) o.again

def offerBody (s : State) (p : Nat) (o : Offer) : List Byte := (s.frameBlocks p o).flatMap carried

theorem putFrame_of_peer (hpeer : s.peerOn o.block.cargo.hdr.dst o.block.cargo.hdr.dstHost (p / 4) = some pr) :
    s.putFrame p o = (if rekeyFrom ≤ tget 0 pr.sent p + 1 ∧
        (o.block.cargo.hdr.dst, o.block.cargo.hdr.dstHost) ∉ s.fab.rekeying then
      ((s.frameReady p o).frameOut p pr (s.offerHdr p o) (offerBody s p o)).rekey o.block.cargo.hdr.dst
        o.block.cargo.hdr.dstHost (p / 4)
      else (s.frameReady p o).frameOut p pr (s.offerHdr p o) (offerBody s p o)).rotateTx o.flow := by
  have hready := frameReady_ready s p o
  obtain ⟨-, -, hdst, hhost, -⟩ := frameHdr_first o.block
    (if o.again || o.block.cargo.hdr.nblk == 0 then [] else (s.second p (s.txFlow o.flow) o.block).toList) o.again
  change (s.offerHdr p o).dst = _ at hdst
  change (s.offerHdr p o).dstHost = _ at hhost
  have hpeer' : (s.frameReady p o).peerOn (s.offerHdr p o).dst (s.offerHdr p o).dstHost (p / 4) = some pr := by
    rw [peerOn_congr hready.peers, hdst, hhost]
    exact hpeer
  have hsend := sendFrame_of_peer (body := offerBody s p o) hpeer'
  rw [hdst, hhost, hready.rekeying] at hsend
  rw [putFrame_eq]
  exact congrArg (State.rotateTx · o.flow) hsend

theorem rotateTx_peerOn (s : State) (f : FlowId) (num : Nat) (host : Bool) (plane : Nat) :
    (s.rotateTx f).peerOn num host plane = s.peerOn num host plane := rfl

end

/-! ### A port that loses a part -/

theorem portLoses_of_live {p : Nat} (h : s.portLive p = true) (w : LinkPart) : s.portLoses p w =
    ((s.setPort p { (s.port p).lose w with downAt := some s.clock.now }).bump (Reg.PORT_DOWN_EVENTS p)).event clsPort p evLink 0 :=
  if_pos h

theorem portLoses_of_down {p : Nat} (h : s.portLive p = false) (w : LinkPart) :
    s.portLoses p w = s.setPort p ((s.port p).lose w) := if_neg (by simp [h])

theorem lose_not_live (v : PortState) (w : LinkPart) (c : Option Nat) :
    ((({ v.lose w with downAt := c } : PortState).linkUp && ({ v.lose w with downAt := c } : PortState).fecLock) &&
      ({ v.lose w with downAt := c } : PortState).macsecUp) = false := by
  cases w with
  | link => rfl
  | fec => exact congrArg (· && _) (Bool.and_false _)
  | macsec => exact Bool.and_false _

theorem receive_of_down {r : Rx} (h : s.portLive r.port.val = false) (type : Nat) (act : State → State) :
    s.receive type r act = s := if_pos (by simp [h])

/-- Steps that change the flows of the sending side alone do so together. -/
theorem foldl_tx {α : Type} {f : State → α → State} (hf : ∀ t x, ∃ tx, f t x = { t with fab := { t.fab with tx := tx } })
    (l : List α) (s : State) : ∃ tx, l.foldl f s = { s with fab := { s.fab with tx := tx } } := by
  induction l generalizing s with
  | nil => exact ⟨_, rfl⟩
  | cons x l ih =>
    obtain ⟨tx, hone⟩ := hf s x
    obtain ⟨ty, hrest⟩ := ih (f s x)
    refine ⟨ty, hrest.trans ?_⟩
    rw [hone]

theorem sendNotices_effect (s : State) (plane : Nat) : ∃ tx, s.sendNotices plane = { s with fab := { s.fab with tx := tx } } := by
  unfold State.sendNotices
  split
  · exact ⟨_, rfl⟩
  · refine foldl_tx (fun t n => ?_) _ s
    split
    · obtain ⟨tx, hsent, -⟩ := t.sendBare_effect (flowTo n false (1 - plane) 2 stewardQueue)
        { t.header 12 2 stewardQueue n false with
          len := BitVec.ofNat 32 plane
          phaseTag := BitVec.ofNat 32 s.slot
          last := true }
      exact ⟨tx, hsent⟩
    · exact ⟨_, rfl⟩

/-- A plane that was not out is out from the slot named, and that is latched. -/
theorem losePlane_effect {plane : Nat} (h : s.planeOut plane = false) (at_ : Nat) :
    tfind (s.losePlane plane at_).fab.planeLost plane = some at_ ∧
      (s.losePlane plane at_).reg (Reg.EVENT_RAW clsFabric plane) = s.reg (Reg.EVENT_RAW clsFabric plane) ||| 2 ^ evLink := by
  have hfind : tfind s.fab.planeLost plane = none := by
    unfold State.planeOut at h
    exact Option.isSome_eq_false_iff.mp h |> Option.isNone_iff_eq_none.mp
  have heq : ∃ tx, s.losePlane plane at_ = ({ s with fab := { s.fab with
      planeLost := tput s.fab.planeLost plane at_
      tx := tx } } : State).event clsFabric plane evLink 0 := by
    unfold State.losePlane
    dsimp only
    rw [hfind, if_pos (by simp [h])]
    dsimp only
    split
    · exact ⟨_, rfl⟩
    · exact ⟨_, rfl⟩
  obtain ⟨tx, heq⟩ := heq
  rw [heq]
  refine ⟨?_, ?_⟩
  · rw [kept_fab (State.event_hide 129 rfl ..) rfl]
    exact (tfind_tput ..).trans (if_pos rfl)
  · rw [State.event_raw _ clsFabric plane 0 (bit := evLink) (by decide) (by
      unfold Reg.EVENT_RAW Reg.QMGR_LOG_LOST regAddr
      omega)]
    rfl

theorem planeFails_effect {plane : Nat} (h : s.planeOut plane = false) :
    tfind (s.planeFails plane).fab.planeLost plane = some s.slot ∧
      (s.planeFails plane).reg (Reg.EVENT_RAW clsFabric plane) = s.reg (Reg.EVENT_RAW clsFabric plane) ||| 2 ^ evLink := by
  obtain ⟨tx, hnotices⟩ := sendNotices_effect (s.losePlane plane s.slot) plane
  have heq : s.planeFails plane = { s.losePlane plane s.slot with fab := { (s.losePlane plane s.slot).fab with tx := tx } } :=
    (if_neg (by simp [h])).trans hnotices
  rw [heq]
  exact losePlane_effect h s.slot

/-- Settles O46: what the timers send, the frame a port takes, and what a port loses. -/
theorem flowAndPortCommands : Obligations.FlowAndPortCommands := by
  refine ⟨fun s f hdue hlate => ?_, fun s f g hgap hlate => ?_, fun s f q b hb hagain hbusy hlate hless => ?_,
    fun s p o pr hdie hlive hnum hpeer hbest hkey => ?_, fun s p o pr hdie hlive hnum hpeer hbest hmany hnot => ?_,
    fun s p w hdown => ?_, fun s p w hlive => ?_, fun s p c hdie hsince hle hhold hout => ?_, fun s r c hc hdown => ?_⟩
  · have hkept := State.sendAck_hide 64 rfl s f
    have hmem := kept_mem hkept rfl rfl
    obtain ⟨hflow, hwaits⟩ := sendAck_effect s f
    exact ⟨_, done_of_pos ⟨hdue, hlate⟩, by rw [hflow], by rw [hflow], hwaits, hmem, kept_run hkept rfl⟩
  · have hkept := (State.sendNak_hide 64 rfl (s.setRx { s.rxFlow f with gapSince := some s.clock.now }) f false).trans
      (State.setRx_hide 64 rfl ..)
    have hmem := kept_mem hkept rfl rfl
    obtain ⟨hrx, hwaits⟩ := sendNak_effect (s.setRx { s.rxFlow f with gapSince := some s.clock.now }) f false
    have hset : (s.setRx { s.rxFlow f with gapSince := some s.clock.now }).rxFlow f =
        { s.rxFlow f with gapSince := some s.clock.now } := (rxFlow_setRx ..).trans (if_pos (rxFlow_id s f))
    rw [hset] at hwaits
    refine ⟨_, ?_, ?_, hwaits, hmem, kept_run hkept rfl⟩
    · refine congrArg Host.Outcome.next ?_
      rw [hgap]
      exact if_pos hlate
    · rw [rxFlow_congr hrx, hset]
  · have heq := resend_of_block hb hless
    have hset := State.setTx_hide 64 rfl s ((s.txFlow f).modBlock q TxBlock.goesAgain)
    have hmem := kept_mem hset rfl rfl
    refine ⟨_, ?_, ?_, hmem, kept_run hset rfl⟩
    · refine congrArg Host.Outcome.next ?_
      rw [hb]
      dsimp only
      rw [if_neg (by simp [hagain]; omega), hbusy]
      exact heq
    · rw [resent_block hb]
      unfold TxBlock.goesAgain
      rw [hbusy]
  · have hready := frameReady_ready s p o
    have heq := putFrame_of_peer (o := o) hpeer
    rw [if_neg (fun hgo => by
      rcases hkey with hkey | hkey
      · omega
      · exact hgo.2 hkey)] at heq
    obtain ⟨htype, hseq, hdst, hhost, hresend⟩ := frameHdr_first o.block
      (if o.again || o.block.cargo.hdr.nblk == 0 then [] else (s.second p (s.txFlow o.flow) o.block).toList) o.again
    have hout := (frameOut_hide (s.frameReady p o) p pr (s.offerHdr p o) (offerBody s p o))
    have hmem := (kept_mem hout rfl rfl).trans (kept_mem hready.rest rfl rfl)
    refine ⟨_, s.offerHdr p o, offerBody s p o, done_of_eq ((frameSend_of_best hdie hlive hnum hbest).trans heq), ?_, htype, hseq,
      hdst, hresend, fun hn => carried_prefix o.block _ hn, ?_, hready.frames, hmem,
      (kept_run hout rfl).trans (kept_run hready.rest rfl)⟩
    · rw [← hready.envelope, ← kept_out hready.rest rfl]
      rfl
    · have hpeer' : (s.frameReady p o).peerOn (s.offerHdr p o).dst (s.offerHdr p o).dstHost (p / 4) = some pr := by
        rw [peerOn_congr hready.peers]
        change (s.offerHdr p o).dst = _ at hdst
        change (s.offerHdr p o).dstHost = _ at hhost
        rw [hdst, hhost]
        exact hpeer
      exact peerOn_modPeer hpeer' _ fun x => ⟨rfl, rfl, rfl⟩
  · have heq := putFrame_of_peer (o := o) hpeer
    rw [if_pos ⟨hmany, hnot⟩] at heq
    obtain ⟨hmem, h, share, sig, hout⟩ := rekey_effect
      ((s.frameReady p o).frameOut p pr (s.offerHdr p o) (offerBody s p o)) o.block.cargo.hdr.dst o.block.cargo.hdr.dstHost (p / 4)
    exact ⟨_, done_of_eq ((frameSend_of_best hdie hlive hnum hbest).trans heq), hmem, h, share, sig, hout⟩
  · exact ⟨_, done_of_eq (portLoses_of_down hdown w), (port_setPort ..).trans (if_pos rfl), rfl, rfl, rfl⟩
  · have hkept := State.portLoses_hide 193 rfl s p w
    have hmem := kept_mem hkept rfl rfl
    have hport := State.port_portLoses s p p w
    rw [if_pos rfl, if_pos hlive] at hport
    refine ⟨_, done_of_eq rfl, ?_, by rw [hport], ?_, fun q hq => ?_, hmem, kept_run hkept rfl⟩
    · unfold State.portLive
      rw [hport]
      exact lose_not_live ..
    · rw [portLoses_of_live hlive, event_reg, reg_bump, if_pos rfl]
      · rfl
      · unfold Reg.PORT_DOWN_EVENTS Reg.EVENT_RAW regAddr
        omega
      · unfold Reg.PORT_DOWN_EVENTS Reg.COUNTER_0 regAddr
        omega
      · unfold Reg.PORT_DOWN_EVENTS Reg.EVENT_LATCH regAddr
        omega
      · unfold Reg.PORT_DOWN_EVENTS Reg.QMGR_LOG_LOST regAddr
        omega
    · rw [State.port_portLoses, if_neg fun he => hq (Fin.ext he)]
  · obtain ⟨hlost, hraw⟩ := planeFails_effect hout
    have hkept := State.planeFails_hide 193 rfl s (p / 4)
    have hmem := kept_mem hkept rfl rfl
    refine ⟨_, ?_, hlost, hraw, hmem, kept_run hkept rfl⟩
    refine congrArg Host.Outcome.next ?_
    rw [hsince]
    exact if_pos (by simp [hdie, hle, hhold])
  · have hone (type : Nat) (act : State → State) : (Host.Outcome.next (s.receive type r act) : Result) = .next s :=
      congrArg Host.Outcome.next (receive_of_down hdown type act)
    simp only [List.mem_cons, List.not_mem_nil, or_false] at hc
    rcases hc with rfl | rfl | rfl | rfl | rfl | rfl | rfl | rfl | rfl | rfl | rfl | rfl
    case inr.inr.inl =>
      refine congrArg Host.Outcome.next ?_
      cases r.error with
      | none => exact receive_of_down hdown ..
      | some e => exact receive_of_down hdown ..
    all_goals exact hone ..

end Sys2Proof.Machine

end

section

/-!
What answers of other endpoints do here: data, acknowledgements, and errors (R331, R337, R338, R347, R364).
-/

namespace Sys2Proof.Machine

variable {s t u : State}

/-! ### Requests that a fault leaves -/

theorem subset_dropRequests (h : t.run.reqs ⊆ s.run.reqs) (ids : List Nat) : (t.dropRequests ids).run.reqs ⊆ s.run.reqs :=
  fun _ hx => h (List.mem_filter.mp hx).1

theorem subset_of_hide (h : t.run.reqs ⊆ s.run.reqs) {u : State} (e : u.hide 65531 = t.hide 65531) : u.run.reqs ⊆ s.run.reqs := by
  rwa [kept_run e rfl]

theorem subset_stopSep (h : t.run.reqs ⊆ s.run.reqs) (i : Nat) : (t.stopSep i).run.reqs ⊆ s.run.reqs := by
  unfold State.stopSep
  extract_lets u ids v
  have hv : v.run.reqs ⊆ s.run.reqs := subset_dropRequests h _
  split
  · exact hv
  · split
    · exact hv
    · extract_lets v1 v2 e v3
      have h1 : v1.run.reqs ⊆ s.run.reqs := subset_dropRequests hv _
      have h2 : v2.run.reqs ⊆ s.run.reqs :=
        subset_of_hide h1 ((State.setJournal_hide _ rfl ..).trans (State.setJournal_hide _ rfl ..))
      have h3 : v3.run.reqs ⊆ s.run.reqs := by
        refine subset_of_hide ?_ (State.setUpd_hide _ rfl ..)
        split
        · exact subset_of_hide h2 (State.hostDone_hide _ rfl ..)
        · exact h2
      exact subset_of_hide h3 ((State.bump_hide _ rfl ..).trans ((State.bump_hide _ rfl ..).trans (State.setSep_hide _ rfl ..)))

theorem subset_stopUpd (h : t.run.reqs ⊆ s.run.reqs) (i : Nat) : (t.stopUpd i).run.reqs ⊆ s.run.reqs := by
  unfold State.stopUpd
  extract_lets u v
  have hv : v.run.reqs ⊆ s.run.reqs := subset_dropRequests h _
  split
  · exact hv
  · extract_lets v1
    have h1 : v1.run.reqs ⊆ s.run.reqs := subset_dropRequests hv _
    split
    · exact h1
    · exact h1

theorem stopBases_reqs (s : State) : s.stopBases.run.reqs ⊆ s.run.reqs := by
  unfold State.stopBases
  generalize List.range 12 = l
  refine List.foldlRecOn (motive := fun t : State => t.run.reqs ⊆ s.run.reqs) l _ ?_ fun t ht i _ => ?_
  · exact fun _ hx => hx
  · exact subset_stopUpd (subset_stopSep ht i) i

theorem planStop_reqs (s : State) : s.planStop.run.reqs ⊆ s.run.reqs := by
  have hcut : s.cutWaits.run = s.run := kept_run (State.cutWaits_hide 1 rfl _) rfl
  have hstop := stopBases_reqs s.cutWaits
  rw [hcut] at hstop
  unfold State.planStop
  dsimp only
  exact hstop

/-- A fault that is no detection leaves requests, or drops them; it leaves the fabric. -/
theorem raise_reqs (s : State) (f : FaultAt) : (s.raise f).run.reqs ⊆ s.run.reqs ∧ (s.raise f).fab = s.fab := by
  have hfault : s.faulted f false = s.faultRecord f s.planRuns := by
    rw [State.faulted, if_neg Bool.false_ne_true]
  have hrec : (s.faultRecord f s.planRuns).run = s.run := State.faultRecord_run ..
  have hfab : (s.faultRecord f s.planRuns).fab = s.fab := kept_fab (State.faultRecord_hide 129 rfl ..) rfl
  rw [State.raise_eq, hfault]
  split
  · have hstop := planStop_reqs (s.faultRecord f s.planRuns)
    rw [hrec] at hstop
    exact ⟨hstop, (kept_fab (State.planStop_hide 49309 rfl _) rfl).trans hfab⟩
  · rw [hrec]
    exact ⟨fun _ hx => hx, hfab⟩

/-! ### Requests by their tag -/

theorem remoteOf_tag {id : FlowId} {tag : Word} {q : RemoteReq} (h : s.remoteOf id tag = some q) : q.tag = tag := by
  have hq := List.find?_some h
  simp only [Bool.and_eq_true, beq_iff_eq] at hq
  exact hq.1.1

theorem remoteOf_congr (h : t.fab.remote = s.fab.remote) (id : FlowId) (tag : Word) : t.remoteOf id tag = s.remoteOf id tag := by
  unfold State.remoteOf
  rw [h]

theorem remoteOf_modRemote {id : FlowId} {tag : Word} {q : RemoteReq} (h : s.remoteOf id tag = some q) (f : RemoteReq → RemoteReq)
    (hf : ∀ x, (f x).tag = x.tag ∧ (f x).peer = x.peer ∧ (f x).host = x.host) :
    (s.modRemote tag f).remoteOf id tag = some (f q) := by
  have htag := remoteOf_tag h
  unfold State.remoteOf State.modRemote at *
  dsimp only
  rw [List.find?_map]
  have hsame : ((fun r : RemoteReq => r.tag == tag && r.peer == id.peer && r.host == id.host) ∘
      fun r => if r.tag = tag then f r else r) = fun r : RemoteReq => r.tag == tag && r.peer == id.peer && r.host == id.host := by
    funext x
    obtain ⟨hxtag, hpeer, hhost⟩ := hf x
    rw [Function.comp_apply]
    split
    · rw [hxtag, hpeer, hhost]
    · rfl
  rw [hsame, h]
  exact congrArg some (if_pos htag)

/-! ### Errors -/

section
variable {id : FlowId} {tag : Word} {q : RemoteReq} {x : Req} {d : List (Nat × Nat × Nat)}

/-- The fault code of an answer that is an error. -/
def errorCode (e : AnswerError) : Nat := if e = .unmapped then 0x0702 else 0x0701

theorem errorAnswer_of_fetch (e : AnswerError) (hq : s.remoteOf id tag = some q) (huse : q.use = .fetch x.id d)
    (hx : s.run.reqs.find? (fun y => y.id == x.id) = some x) : s.errorAnswer id tag e =
      (s.dropRemote tag).requestFault x (errorCode e) clsFabric ((s.dropRemote tag).planeFor (64 * x.core + x.fq)) q.addr.toNat := by
  have htag := remoteOf_tag hq
  unfold State.errorAnswer
  rw [hq]
  dsimp only
  unfold State.endRequest State.failRequest State.endUse
  rw [huse, htag]
  dsimp only
  have hfind : (s.dropRemote tag).run.reqs.find? (fun y => y.id == x.id) = some x := hx
  rw [hfind]
  cases e with
  | unmapped => rfl
  | uncorrectable => rfl

/-- A request that ends with a fault: it is gone, and the fault is in the log. -/
theorem requestFault_effect (s : State) (x : Req) (code cls inst addr : Nat) (hroom : s.ctl.log.length < logCapacity) :
    (s.requestFault x code cls inst addr).Recorded code cls s.clock.phase ∧
      (∀ y ∈ (s.requestFault x code cls inst addr).run.reqs, y.id ≠ x.id) ∧
      ∀ y ∈ (s.requestFault x code cls inst addr).fab.remote, y ∈ s.fab.remote := by
  unfold State.requestFault
  generalize hf : (FaultAt.mk code cls inst addr x.core x.entry x.desc _ _) = f
  obtain ⟨hreqs, hfab⟩ := raise_reqs (s.dropRequest x.id) f
  obtain ⟨y, hy, hkind, hcode, hcls, -, -, -, hphase⟩ := State.raise_shows (s.dropRequest x.id) f false hroom
  refine ⟨⟨y, hy, hkind, ?_, ?_, hphase⟩, fun z hz => ?_, fun z hz => ?_⟩
  · rw [hcode, ← hf]
  · rw [hcls, ← hf]
  · have hmem := (List.mem_filter.mp (hreqs hz)).2
    simpa using hmem
  · rw [hfab] at hz
    exact (List.mem_filter.mp hz).1

theorem errorAnswer_effect (e : AnswerError) (hq : s.remoteOf id tag = some q) (huse : q.use = .fetch x.id d)
    (hx : s.run.reqs.find? (fun y => y.id == x.id) = some x) (hroom : s.ctl.log.length < logCapacity) :
    (s.errorAnswer id tag e).Recorded (errorCode e) clsFabric s.clock.phase ∧
      (∀ y ∈ (s.errorAnswer id tag e).run.reqs, y.id ≠ x.id) ∧ (∀ y ∈ (s.errorAnswer id tag e).fab.remote, y.tag ≠ tag) := by
  rw [errorAnswer_of_fetch e hq huse hx]
  obtain ⟨hrec, hreqs, hremote⟩ := requestFault_effect (s.dropRemote tag) x (errorCode e) clsFabric
    ((s.dropRemote tag).planeFor (64 * x.core + x.fq)) q.addr.toNat hroom
  refine ⟨hrec, hreqs, fun y hy => ?_⟩
  have hkept := (List.mem_filter.mp (hremote y hy)).2
  simpa using hkept

end

/-! ### Acknowledgements -/

/-- A block that an acknowledgement up to this number takes off. -/
def ackTakes (seq : Word) (b : TxBlock) : Bool :=
  b.sent && b.cargo.hdr.nblk != 0 && decide ((seq - b.cargo.hdr.seq).toNat < 2 ^ 31)

theorem ackTakes_iff {seq : Word} {b : TxBlock} : ackTakes seq b = true ↔
    b.sent = true ∧ b.cargo.hdr.nblk ≠ 0 ∧ (seq - b.cargo.hdr.seq).toNat < 2 ^ 31 := by
  unfold ackTakes
  simp [and_assoc]

theorem acked_blocks (s : State) (id : FlowId) (seq : Word) : ((s.acked id seq).txFlow id).blocks =
    (s.txFlow id).blocks.filter (fun b => !ackTakes seq b) := by
  unfold State.acked
  extract_lets f gone v
  have hset : (v.txFlow id).blocks = (s.txFlow id).blocks.filter (fun b => !ackTakes seq b) := by
    unfold v
    rw [txFlow_setTx, if_pos (by exact txFlow_id s id)]
    rfl
  split
  · split
    · exact hset
    · exact hset
  · next hnone =>
    refine (List.filter_eq_self.mpr fun b hb => ?_).symm
    rw [Bool.not_eq_true']
    exact Bool.eq_false_iff.mpr fun htakes => hnone (List.any_eq_true.mpr ⟨b, hb, htakes⟩)

theorem txFlow_congr (h : t.fab.tx = s.fab.tx) (id : FlowId) : t.txFlow id = s.txFlow id := by
  unfold State.txFlow
  rw [h]

/-- The block as a busy receiver leaves it. -/
def TxBlock.waitsAt (x : TxBlock) (now : Nat) : TxBlock := { x with busy := true, again := false, sentAt := now }

theorem nakked_busy {id : FlowId} {seq : Word} {b : TxBlock} (h : (s.txFlow id).block seq = some b) :
    ((s.nakked id seq true).txFlow id).block seq = some (b.waitsAt s.clock.now) := by
  unfold State.nakked
  rw [if_pos rfl, txFlow_setTx, if_pos (by exact txFlow_id s id)]
  exact block_modBlock h (TxBlock.waitsAt · s.clock.now) fun x => ⟨rfl, rfl⟩

theorem nakked_again {id : FlowId} {seq : Word} {b : TxBlock} (h : (s.txFlow id).block seq = some b)
    (hless : b.resends < s.retryLimit (s.livePlane id.plane)) :
    ((s.nakked id seq false).txFlow id).block seq = some b.goesAgain ∧ (s.nakked id seq false).hide 64 = s.hide 64 := by
  have heq : s.nakked id seq false = s.setTx ((s.txFlow id).modBlock seq TxBlock.goesAgain) := resend_of_block h hless
  rw [heq]
  exact ⟨resent_block h, State.setTx_hide 64 rfl ..⟩

/-! ### What a heard frame finds -/

section
variable {r : Rx} {p : Peer}

theorem heard_txFlow (s : State) (r : Rx) (p : Peer) (id : FlowId) : (s.heard r p).txFlow id = s.txFlow id := by
  obtain ⟨peers, hfab⟩ := s.heard_fab r p
  exact txFlow_congr (by rw [hfab]) id

theorem heard_rxFlow (s : State) (r : Rx) (p : Peer) (id : FlowId) : (s.heard r p).rxFlow id = s.rxFlow id := by
  obtain ⟨peers, hfab⟩ := s.heard_fab r p
  exact rxFlow_congr (by rw [hfab]) id

theorem heard_txId (s : State) (r : Rx) (p : Peer) : (s.heard r p).txId r = s.txId r := by
  obtain ⟨peers, hfab⟩ := s.heard_fab r p
  unfold State.txId movedFlow State.planeOut
  rw [hfab]

theorem heard_rxId (s : State) (r : Rx) (p : Peer) : (s.heard r p).rxId r = s.rxId r := by
  obtain ⟨peers, hfab⟩ := s.heard_fab r p
  unfold State.rxId movedFlow State.planeOut
  rw [hfab]

theorem heard_remote (s : State) (r : Rx) (p : Peer) : (s.heard r p).fab.remote = s.fab.remote := by
  obtain ⟨peers, hfab⟩ := s.heard_fab r p
  rw [hfab]

theorem heard_livePlane (s : State) (r : Rx) (p : Peer) (plane : Nat) : (s.heard r p).livePlane plane = s.livePlane plane := by
  obtain ⟨peers, hfab⟩ := s.heard_fab r p
  unfold State.livePlane State.planeOut
  rw [hfab]

theorem heard_retryLimit (s : State) (r : Rx) (p : Peer) (c : Nat) : (s.heard r p).retryLimit c = s.retryLimit c := by
  unfold State.retryLimit
  rw [s.heard_reg r p (by unfold Reg.FABRIC_RETRY_CONFIG regAddr; omega)]

end

end Sys2Proof.Machine

end

section

/-!
Blocks that arrive in order (R336, R337), and the data of answers in the scratchpads (R241, R347).
-/

namespace Sys2Proof.Machine

variable {s t u : State}

/-! ### The next block of a flow -/

/-- A late block counted at its port. -/
def State.lateCounted (s : State) (h : Hdr) (port : Nat) : State :=
  if s.lateTag h then s.bump (Reg.PORT_LATE_BLOCKS port) else s

/-- The state in which the next block of a flow is delivered. -/
def State.offered (s : State) (port : Nat) (id : FlowId) (c : Cargo) : State :=
  (s.lateCounted c.hdr port).setRx { s.rxFlow id with held := [(c.hdr.seq, c)] }

theorem lateCounted_hide (s : State) (h : Hdr) (port : Nat) : (s.lateCounted h port).hide 1 = s.hide 1 := by
  unfold State.lateCounted
  split
  · exact State.bump_hide 1 rfl ..
  · rfl

theorem offered_hide (s : State) (port : Nat) (id : FlowId) (c : Cargo) : (s.offered port id c).hide 65 = s.hide 65 := by
  have hlate := congrArg (State.hide 65) (lateCounted_hide s c.hdr port)
  rw [hide_hide (by decide), hide_hide (by decide)] at hlate
  exact (State.setRx_hide 65 rfl ..).trans hlate

/-- Of the fabric only the receiving flows change. -/
theorem offered_fab (s : State) (port : Nat) (id : FlowId) (c : Cargo) :
    ∃ rx, (s.offered port id c).fab = { s.fab with rx := rx } := by
  unfold State.offered
  rw [setRx_fab, kept_fab (lateCounted_hide ..) rfl]
  exact ⟨_, rfl⟩

/-- Registers of other places than the late blocks of a port stay. -/
theorem offered_reg (s : State) (port : Nat) (id : FlowId) (c : Cargo) {a : Nat} (ha : a % 2 ^ 16 ≠ 0x102C) :
    (s.offered port id c).reg a = s.reg a := by
  unfold State.offered
  refine (reg_congr (kept_regs (State.setRx_hide 64 rfl ..) rfl) a).trans ?_
  unfold State.lateCounted
  split
  · refine (reg_bump ..).trans (if_neg ?_)
    rintro rfl
    exact ha (by unfold Reg.PORT_LATE_BLOCKS regAddr; omega)
  · rfl

theorem offered_rxFlow (s : State) (port : Nat) (id : FlowId) (c : Cargo) :
    (s.offered port id c).rxFlow id = { s.rxFlow id with held := [(c.hdr.seq, c)] } :=
  (rxFlow_setRx ..).trans (if_pos (rxFlow_id s id))

section
variable {deliver : State → FlowId → Cargo → Delivery} {port : Nat} {id : FlowId} {c : Cargo} {crc : Word}

theorem arrive_of_next (hcrc : crc.toNat = crc32c c.data) (hseq : c.hdr.seq = (s.rxFlow id).expect) (hheld : (s.rxFlow id).held = []) :
    s.arrive deliver port id c crc =
      if 64 ≤ ((State.advance deliver (port / 4) 2 (s.offered port id c) id).rxFlow id).unacked then
        (State.advance deliver (port / 4) 2 (s.offered port id c) id).sendAck id
      else State.advance deliver (port / 4) 2 (s.offered port id c) id := by
  have hzero : (c.hdr.seq - (s.rxFlow id).expect).toNat = 0 := by rw [hseq, BitVec.sub_self]; rfl
  unfold State.arrive
  rw [if_neg (by rw [hcrc]; simp)]
  dsimp only
  rw [hzero, hheld, if_neg (by simp), if_neg (by simp)]
  rfl

/-- A flow one block further. -/
structure RxFlow.Next (f g : RxFlow) : Prop where
  expect : g.expect = f.expect + 1
  held : g.held = []
  unacked : g.unacked = f.unacked + 1

/-- The block is taken: beside what its delivery did, its flow is one block further and a credit is used up. -/
theorem arrive_of_taken (hcrc : crc.toNat = crc32c c.data) (hseq : c.hdr.seq = (s.rxFlow id).expect)
    (hheld : (s.rxFlow id).held = []) (hroom : (s.rxFlow id).unacked < 63) (hdeliver : deliver (s.offered port id c) id c = taken t)
    (hkept : (t.rxFlow id).held = [(c.hdr.seq, c)]) (hsame : (t.rxFlow id).unacked = (s.rxFlow id).unacked) :
    ∃ rx credits, s.arrive deliver port id c crc = { t with fab := { t.fab with rx := rx, credits := credits } } ∧
      (s.rxFlow id).Next ((s.arrive deliver port id c crc).rxFlow id) := by
  have hflow := offered_rxFlow s port id c
  have hone : State.advance deliver (port / 4) 2 (s.offered port id c) id = State.advance deliver (port / 4) 1
      ((t.setRx ({ t.rxFlow id with expect := (s.rxFlow id).expect + 1, held := [], gapSince := none }.owe 1
        (s.offered port id c).clock.now)).spendCredit id (port / 4)) id := by
    have hfind : ((s.offered port id c).rxFlow id).held.find? (fun b => b.1 == ((s.offered port id c).rxFlow id).expect) =
        some (c.hdr.seq, c) := by
      rw [hflow]
      exact List.find?_cons_of_pos (by simp [hseq])
    rw [State.advance]
    dsimp only
    rw [hfind]
    dsimp only
    rw [hdeliver]
    unfold taken
    dsimp only
    have hrest : ((t.rxFlow id).held.filter (fun x => x.1 != ((s.offered port id c).rxFlow id).expect)) = [] := by
      rw [hkept, hflow]
      simp [hseq]
    rw [hrest, hflow]
  generalize hv : (t.setRx ({ t.rxFlow id with expect := (s.rxFlow id).expect + 1, held := [], gapSince := none }.owe 1
        (s.offered port id c).clock.now)) = v at hone
  have hvflow : v.rxFlow id = { t.rxFlow id with expect := (s.rxFlow id).expect + 1, held := [], gapSince := none }.owe 1
        (s.offered port id c).clock.now := by
    rw [← hv]
    exact (rxFlow_setRx ..).trans (if_pos (by exact rxFlow_id t id))
  have hvfab : ∃ rx, v = { t with fab := { t.fab with rx := rx } } := by
    rw [← hv]
    unfold State.setRx
    split
    · exact ⟨_, rfl⟩
    · exact ⟨_, rfl⟩
  have hspent : ∃ credits, v.spendCredit id (port / 4) = { v with fab := { v.fab with credits := credits } } := by
    unfold State.spendCredit
    dsimp only
    split
    · exact State.setCredit_effect ..
    · exact ⟨_, rfl⟩
  obtain ⟨credits, hspent⟩ := hspent
  have hwflow : (v.spendCredit id (port / 4)).rxFlow id = v.rxFlow id := rxFlow_congr (by rw [hspent]) id
  have htwo : State.advance deliver (port / 4) 1 (v.spendCredit id (port / 4)) id =
      (v.spendCredit id (port / 4)).setRx { v.rxFlow id with gapSince := none } := by
    rw [State.advance]
    dsimp only
    rw [hwflow, hvflow]
    rfl
  rw [htwo] at hone
  have hzflow : ((v.spendCredit id (port / 4)).setRx { v.rxFlow id with gapSince := none }).rxFlow id =
      { v.rxFlow id with gapSince := none } := (rxFlow_setRx ..).trans (if_pos (by exact rxFlow_id v id))
  have hnext : (s.rxFlow id).Next { v.rxFlow id with gapSince := none } := by
    rw [hvflow]
    exact ⟨rfl, rfl, congrArg (· + 1) hsame⟩
  have heq : s.arrive deliver port id c crc = (v.spendCredit id (port / 4)).setRx { v.rxFlow id with gapSince := none } := by
    rw [arrive_of_next hcrc hseq hheld, hone, hzflow]
    exact if_neg (by rw [hnext.unacked]; omega)
  rw [heq, hzflow]
  obtain ⟨rx, hvfab⟩ := hvfab
  refine ⟨((v.spendCredit id (port / 4)).setRx { v.rxFlow id with gapSince := none }).fab.rx, credits, ?_, hnext⟩
  have hput (w : State) (f : RxFlow) : w.setRx f = { w with fab := { w.fab with rx := (w.setRx f).fab.rx } } := by
    unfold State.setRx
    split
    · rfl
    · rfl
  refine (hput ..).trans ?_
  rw [hspent, hvfab]

end

/-- A frame with the next block of its flow, which its delivery takes. -/
theorem receiveBlocks_of_taken {deliver : State → FlowId → Cargo → Delivery} {type : Nat} {r : Rx} {p : Peer} {b : Block}
    (hears : s.Hears type r p) (hnext : s.NextBlock r b)
    (hdeliver : deliver ((s.heard r p).offered r.port.val (s.rxId r) ⟨r.hdr, b.data⟩) (s.rxId r) ⟨r.hdr, b.data⟩ = taken t)
    (hkept : (t.rxFlow (s.rxId r)).held = [(r.hdr.seq, ⟨r.hdr, b.data⟩)])
    (hsame : (t.rxFlow (s.rxId r)).unacked = (s.rxFlow (s.rxId r)).unacked) :
    ∃ rx credits, s.receiveBlocks type r deliver = { t with fab := { t.fab with rx := rx, credits := credits } } ∧
      s.TookBlock (s.receiveBlocks type r deliver) r := by
  obtain ⟨hblocks, hcrc, hseq, hheld, hroom⟩ := hnext
  have hflow := heard_rxFlow s r p (s.rxId r)
  have hcargo : frameCargo r = [(⟨r.hdr, b.data⟩, b.crc)] := by
    unfold frameCargo
    rw [hblocks]
  have heq : s.receiveBlocks type r deliver =
      (s.heard r p).arrive deliver r.port.val (s.rxId r) ⟨r.hdr, b.data⟩ b.crc := by
    unfold State.receiveBlocks
    rw [State.receive_of_hears hears]
    dsimp only
    rw [hcargo, heard_rxId]
    rfl
  rw [heq]
  obtain ⟨rx, credits, hstate, hmoved⟩ := arrive_of_taken (s := s.heard r p) (c := ⟨r.hdr, b.data⟩) hcrc
    (by rw [hflow]; exact hseq) (by rw [hflow]; exact hheld) (by rw [hflow]; exact hroom) hdeliver hkept (by rw [hflow]; exact hsame)
  rw [hflow] at hmoved
  exact ⟨rx, credits, hstate, hmoved.expect, hmoved.held⟩

end Sys2Proof.Machine

end

section

/-!
The data of an answer in the scratchpads, and what the answering frames say (R241, R331, R337, R338, R347).
-/

namespace Sys2Proof.Machine

variable {s t u : State}

/-! ### Data of an answer -/

/-- Blocks that are written already are not written whole again. -/
theorem wholeBlocks_of_seen {c core : Nat} {seen : List Nat} {bs : List (Nat × Byte × Byte)}
    (h : ∀ b ∈ bs, scratchKey core b.1 / 512 ∈ seen) : s.wholeBlocks c core seen bs = (s, seen) := by
  have hnone : ((bs.map (fun b => scratchKey core b.1 / 512)).dedup.filter (fun b => !seen.contains b)) = [] := by
    refine List.filter_eq_nil_iff.mpr fun b hb => ?_
    obtain ⟨x, hx, rfl⟩ := List.mem_map.mp (List.mem_dedup.mp hb)
    simpa using h x hx
  unfold State.wholeBlocks
  rw [hnone]
  dsimp only
  rw [List.foldl_nil, List.append_nil]

theorem parityReads_of_sound (h : s.mem.badScratch = []) (runs : List (Nat × Nat × Nat)) : s.parityReads runs = (s, none) := by
  unfold State.parityReads
  induction runs with
  | nil => rfl
  | cons x runs ih =>
    rw [List.foldl_cons, if_neg (by simp)]
    have hone : s.parityRead x.1 x.2.1 x.2.2 = (s, none) := by
      unfold State.parityRead State.scratchParity
      dsimp only
      rw [h]
      rfl
    rw [hone]
    exact ih

/-- Bytes of an answer stand at their key of the scratchpads, whatever their region is. -/
theorem fillKey_stored (r : Req) {key : Nat} {bs : List Byte} (hkey : 2 ^ 49 ≤ key)
    (hin : (key - 2 ^ 49) % 2 ^ 20 + bs.length ≤ 2 ^ 20) (harmed : s.armed clsCore ((key - 2 ^ 49) / 2 ^ 20) = none)
    (hbad : s.mem.badScratch = []) : ∃ t whole, s.fillKey r key bs = ⟨t, whole, none⟩ ∧ t.hide 49153 = s.hide 49153 ∧
      t.mem.cells = setBytes s.mem.cells key bs := by
  generalize hcore : (key - 2 ^ 49) / 2 ^ 20 = core at *
  generalize hoff : (key - 2 ^ 49) % 2 ^ 20 = off at *
  have hplace : scratchKey core off = key := by
    unfold scratchKey
    omega
  have hput := putBytes_scratched (off := off) harmed bs
  rw [hplace] at hput
  have hrest : (s.putBytes core (bs.mapIdx (fun i b => (off + i, b, (255 : Byte))))).hide 49153 = s.hide 49153 := by
    have e := congrArg (State.hide 49153) hput.rest
    rwa [hide_hide (by decide), hide_hide (by decide)] at e
  have hdone (v : State) (hv : v.hide 1 = (s.putBytes core (bs.mapIdx (fun i b => (off + i, b, (255 : Byte))))).hide 1) :
      v.hide 49153 = s.hide 49153 ∧ v.mem.cells = setBytes s.mem.cells key bs := by
    have e := congrArg (State.hide 49153) hv
    rw [hide_hide (by decide), hide_hide (by decide)] at e
    exact ⟨e.trans hrest, (kept_cells hv rfl).trans hput.cells⟩
  unfold State.fillKey
  dsimp only
  rw [hcore, hoff]
  split
  · next hempty =>
    rw [List.isEmpty_iff.mp hempty]
    exact ⟨s, [], rfl, rfl, rfl⟩
  · unfold fillRun
    dsimp only
    rw [if_neg (by simp)]
    split
    · have hseen : ∀ b ∈ bs.mapIdx (fun i b => (off + i, b, (255 : Byte))),
          scratchKey core b.1 / 512 ∈ (List.range bs.length).map (fun i => (key + i) / 512) := by
        intro b hb
        obtain ⟨i, hi, rfl⟩ := List.mem_mapIdx.mp hb
        refine List.mem_map.mpr ⟨i, List.mem_range.mpr hi, ?_⟩
        rw [← hplace]
        unfold scratchKey
        exact congrArg (· / 512) (by omega)
      rw [wholeBlocks_of_seen hseen]
      dsimp only
      split
      · obtain ⟨h1, h2⟩ := hdone _ (State.bumpBy_hide 1 rfl ..)
        exact ⟨_, _, rfl, h1, h2⟩
      · obtain ⟨h1, h2⟩ := hdone _ rfl
        exact ⟨_, _, rfl, h1, h2⟩
    · rw [parityReads_of_sound hbad]
      dsimp only
      split
      · obtain ⟨h1, h2⟩ := hdone _ ((State.bumpBy_hide 1 rfl ..).trans (State.bumpBy_hide 1 rfl ..))
        exact ⟨_, _, rfl, h1, h2⟩
      · obtain ⟨h1, h2⟩ := hdone _ (State.bumpBy_hide 1 rfl ..)
        exact ⟨_, _, rfl, h1, h2⟩

/-- A part of an answer that one run of the result takes whole. -/
theorem piece_of_run {o key n : Nat} {bs : List Byte} (h : o + bs.length ≤ n) : piece o bs (0, key, n) = (key + o, bs) := by
  unfold piece
  have hlo : max o 0 = o := Nat.max_eq_left (Nat.zero_le _)
  have hhi : min (o + bs.length) (0 + n) = o + bs.length := by omega
  dsimp only
  rw [hlo, hhi, Nat.sub_self, Nat.add_sub_cancel_left, List.drop_zero, List.take_length, Nat.sub_zero]

theorem fillPieces_of_run {x : Req} {o key n : Nat} {bs : List Byte}
    (hx : s.run.reqs.find? (fun y => y.id == x.id) = some x) (hfits : o + bs.length ≤ n) (hkey : 2 ^ 49 ≤ key)
    (hin : (key - 2 ^ 49) % 2 ^ 20 + n < 2 ^ 20) (harmed : s.armed clsCore ((key - 2 ^ 49) / 2 ^ 20) = none)
    (hbad : s.mem.badScratch = []) : ∃ t, s.fillPieces x.id o bs [(0, key, n)] = t ∧ t.hide 49153 = s.hide 49153 ∧
      t.mem.cells = setBytes s.mem.cells (key + o) bs := by
  have hcore : (key + o - 2 ^ 49) / 2 ^ 20 = (key - 2 ^ 49) / 2 ^ 20 := by omega
  obtain ⟨t, whole, ht, hrest, hcells⟩ := fillKey_stored x (key := key + o) (bs := bs) (by omega) (by omega)
    (by rw [hcore]; exact harmed) hbad
  refine ⟨t, ?_, hrest, hcells⟩
  unfold State.fillPieces
  rw [hx]
  dsimp only
  rw [List.foldl_cons, List.foldl_nil, if_neg (by simp), piece_of_run hfits, ht]

/-- The request with this much still to come. -/
def RemoteReq.owing (q : RemoteReq) (n : Nat) : RemoteReq := { q with left := n }

/-- A block of READ_DATA for a fetch request: its bytes are stored, and its request waits for that many less. -/
theorem dataBlock_of_fetch {id : FlowId} {c : Cargo} {q : RemoteReq} {x : Req} {key n : Nat}
    (hq : s.remoteOf id c.hdr.tag = some q) (huse : q.use = .fetch x.id [(0, key, n)])
    (hx : s.run.reqs.find? (fun y => y.id == x.id) = some x) (hmore : c.data.length < q.left)
    (hfits : c.hdr.addr.toNat + c.data.length ≤ n) (hkey : 2 ^ 49 ≤ key) (hin : (key - 2 ^ 49) % 2 ^ 20 + n < 2 ^ 20)
    (harmed : s.armed clsCore ((key - 2 ^ 49) / 2 ^ 20) = none) (hbad : s.mem.badScratch = []) :
    ∃ v, s.dataBlock id c = v ∧ (∃ remote, v.hide 49217 = s.hide 49217 ∧ v.fab = { s.fab with remote := remote }) ∧
      v.mem.cells = setBytes s.mem.cells (key + c.hdr.addr.toNat) c.data ∧
      v.remoteOf id c.hdr.tag = some { q with left := q.left - c.data.length } := by
  obtain ⟨t, ht, hrest, hcells⟩ := fillPieces_of_run (s := s) hx hfits hkey hin harmed hbad
  have hfab : t.fab = s.fab := kept_fab hrest rfl
  have htq : t.remoteOf id c.hdr.tag = some q := (remoteOf_congr (by rw [hfab]) ..).trans hq
  have heq : s.dataBlock id c = t.modRemote c.hdr.tag (RemoteReq.owing · (q.left - c.data.length)) := by
    unfold State.dataBlock
    rw [hq]
    dsimp only
    rw [huse]
    dsimp only
    rw [ht, remoteOf_tag hq]
    exact if_neg (by omega)
  refine ⟨_, heq, ⟨_, ?_, congrArg (fun f : Fabric => ({ f with
    remote := f.remote.map (fun r => if r.tag = c.hdr.tag then r.owing (q.left - c.data.length) else r) } : Fabric)) hfab⟩,
    hcells, ?_⟩
  · have e := congrArg (State.hide 49217) hrest
    rw [hide_hide (by decide), hide_hide (by decide)] at e
    exact (State.modRemote_hide 49217 rfl ..).trans e
  · exact remoteOf_modRemote htq (RemoteReq.owing · (q.left - c.data.length)) fun y => ⟨rfl, rfl, rfl⟩

/-! ### What a heard frame leaves for its delivery -/

section
variable {r : Rx} {p : Peer}

/-- Registers outside the first page of their blocks stay when a frame is heard. -/
theorem heard_reg_of_page (s : State) (r : Rx) (p : Peer) {a : Nat} (ha : a % 2 ^ 16 / 2 ^ 12 ≠ 1) :
    (s.heard r p).reg a = s.reg a := by
  have hport (off : Nat) (hoff : off < 4096) : a ≠ regAddr 7 r.port 1 off := by
    rintro rfl
    unfold regAddr at ha
    omega
  have hcorrected : a ≠ Reg.PORT_FEC_CORRECTED r.port := hport 0x008 (by decide)
  have huncorrected : a ≠ Reg.PORT_FEC_UNCORRECTED r.port := hport 0x00C (by decide)
  have hframes : a ≠ Reg.PORT_FRAMES_RX r.port := hport 0x014 (by decide)
  unfold State.heard
  rw [State.modPeer_reg]
  unfold State.countedRx
  rw [reg_bump, if_neg hframes, reg_bumpBy, if_neg huncorrected, reg_bumpBy, if_neg hcorrected]

/-- The state in which a heard frame's block is delivered: only counts, peers and receiving flows have changed. -/
structure State.Delivering (s t : State) : Prop where
  rest : t.hide 65 = s.hide 65
  fab : ∃ peers rx, t.fab = { s.fab with peers := peers, rx := rx }
  reg : ∀ a, a % 2 ^ 16 / 2 ^ 12 ≠ 1 → t.reg a = s.reg a

theorem heard_delivering (s : State) (r : Rx) (p : Peer) : s.Delivering (s.heard r p) := by
  obtain ⟨peers, hfab⟩ := s.heard_fab r p
  exact ⟨s.heard_hide r p, ⟨peers, s.fab.rx, hfab⟩, fun a ha => heard_reg_of_page s r p ha⟩

theorem offered_delivering (s : State) (r : Rx) (p : Peer) (port : Nat) (id : FlowId) (c : Cargo) :
    s.Delivering ((s.heard r p).offered port id c) := by
  obtain ⟨peers, hheard⟩ := s.heard_fab r p
  obtain ⟨rx, hoffered⟩ := offered_fab (s.heard r p) port id c
  refine ⟨(offered_hide ..).trans (s.heard_hide r p), ⟨peers, rx, by rw [hoffered, hheard]⟩, fun a ha => ?_⟩
  exact (offered_reg _ port id c (by omega)).trans (heard_reg_of_page s r p ha)

theorem State.Delivering.remoteOf (h : s.Delivering t) (id : FlowId) (tag : Word) : t.remoteOf id tag = s.remoteOf id tag := by
  obtain ⟨peers, rx, hfab⟩ := h.fab
  exact remoteOf_congr (by rw [hfab]) id tag

theorem State.Delivering.armed (h : s.Delivering t) (core : Nat) : t.armed clsCore core = s.armed clsCore core := by
  have hsel : flipSelect clsCore core = Reg.CORE_FLIP_SELECT core := rfl
  unfold State.armed
  rw [hsel, h.reg _ (by unfold Reg.CORE_FLIP_SELECT regAddr; omega), h.reg _ (by unfold Reg.FLIP_MASK_LO regAddr; omega),
    h.reg _ (by unfold Reg.FLIP_MASK_HI regAddr; omega)]

end

/-! ### WRITE_DONE -/

theorem writeDone_of_mirror {id : FlowId} {tag : Word} {q : RemoteReq} {st sh : Nat} (hq : s.remoteOf id tag = some q)
    (huse : q.use = .mirror st sh) : s.writeDone id tag = s.dropRemote tag := by
  unfold State.writeDone
  rw [hq]
  dsimp only
  rw [huse]

/-- The last answer that a fetch request waits for lets it go on. -/
theorem writeDone_of_last {id : FlowId} {tag : Word} {q : RemoteReq} {x : Nat} {d : List (Nat × Nat × Nat)}
    (hq : s.remoteOf id tag = some q) (huse : q.use = .fetch x d)
    (hlast : ∀ y ∈ s.fab.remote, y.tag ≠ tag → ∀ g, y.use ≠ .fetch x g) : s.writeDone id tag = (s.dropRemote tag).requestReady x := by
  unfold State.writeDone
  rw [hq]
  dsimp only
  rw [huse]
  dsimp only
  unfold State.fetchAnswered
  refine if_neg fun hany => ?_
  obtain ⟨y, hy, hfetch⟩ := List.any_eq_true.mp hany
  obtain ⟨hmem, htag⟩ := List.mem_filter.mp hy
  cases hyuse : y.use with
  | fetch z g =>
    rw [hyuse] at hfetch
    dsimp only at hfetch
    exact hlast y hmem (by simpa using htag) g (by rw [hyuse, eq_of_beq hfetch])
  | export_ | import_ | ship | headers | image | mirror =>
    rw [hyuse] at hfetch
    cases hfetch

/-- Settles O43: data stand at their places, acknowledgements take off or send again, and a request's answers end it. -/
theorem answerFrames : Obligations.AnswerFrames := by
  refine ⟨fun s r p b q x key n hears herror hnext hq huse hx hmore hfits hkey hend hin harmed hbad => ?data,
    fun s r p hears => ?ack, fun s r p b hears hb hbusy => ?busy, fun s r p b hears hb hbusy hless => ?again,
    fun s r p q st sh hears herror hq huse => ?mirror, fun s r p q id d hears herror hq huse hlast => ?fetch,
    fun s i r p q x d e hi herror hq huse hx hroom => ?error⟩
  case data =>
    have hdel := offered_delivering s r p r.port.val (s.rxId r) ⟨r.hdr, b.data⟩
    have hmem := kept_mem hdel.rest rfl rfl
    have hrun := kept_run hdel.rest rfl
    have hflow := offered_rxFlow (s.heard r p) r.port.val (s.rxId r) ⟨r.hdr, b.data⟩
    rw [heard_rxFlow] at hflow
    obtain ⟨v, hv, ⟨remote, hrest, hfab⟩, hcells, hleft⟩ := dataBlock_of_fetch (id := s.rxId r) (c := ⟨r.hdr, b.data⟩)
      ((hdel.remoteOf ..).trans hq) huse (by rw [hrun]; exact hx) hmore hfits hkey (by unfold scratchBytes at hin; omega)
      (by rw [hdel.armed]; exact harmed) (by rw [hmem]; exact hbad)
    have hvflow : v.rxFlow (s.rxId r) = { s.rxFlow (s.rxId r) with held := [(r.hdr.seq, ⟨r.hdr, b.data⟩)] } :=
      (rxFlow_congr (by rw [hfab]) _).trans hflow
    obtain ⟨rx, credits, hstate, htook⟩ := receiveBlocks_of_taken (type := 2)
      (deliver := fun t id c => taken (t.dataBlock id c)) hears hnext (congrArg taken hv) (by rw [hvflow]) (by rw [hvflow])
    have hcells' : v.mem.cells = setBytes s.mem.cells (key + r.hdr.addr.toNat) b.data := by
      rw [hcells, hmem]
    refine ⟨_, ?_, htook, ?_, fun a ha => ?_, ?_, ?_⟩
    · refine congrArg Host.Outcome.next ?_
      rw [herror]
    · rw [hstate]
      exact (congrArg (fun cs => bytesAt cs (key + r.hdr.addr.toNat) b.data.length) hcells').trans (bytesAt_setBytes_self ..)
    · rw [hstate]
      exact (congrArg (byteAt · a) hcells').trans ((byteAt_setBytes ..).trans (if_neg ha))
    · rw [hstate]
      exact hleft
    · rw [hstate]
      exact (kept_run hrest rfl).trans hrun
  case ack =>
    have heq := State.receive_of_hears hears (fun t => t.acked (t.txId r) r.hdr.seq)
    have hkept := (State.acked_hide 65 rfl (s.heard r p) ((s.heard r p).txId r) r.hdr.seq).trans (s.heard_hide r p)
    have hmem := kept_mem hkept rfl rfl
    have hblocks := acked_blocks (s.heard r p) (s.txId r) r.hdr.seq
    rw [heard_txFlow] at hblocks
    rw [heard_txId] at heq
    refine ⟨_, done_of_eq heq, fun b hb => ?_, fun b hb hstays => ?_, ?_, ?_⟩
    · rw [hblocks] at hb
      obtain ⟨hin, hnot⟩ := List.mem_filter.mp hb
      exact ⟨hin, fun htakes => by rw [ackTakes_iff.mpr htakes] at hnot; cases hnot⟩
    · rw [hblocks]
      refine List.mem_filter.mpr ⟨hb, ?_⟩
      rw [Bool.not_eq_true']
      exact Bool.eq_false_iff.mpr fun htakes => hstays (ackTakes_iff.mp htakes)
    · rw [heard_txId] at hmem
      exact hmem
    · rw [heard_txId] at hkept
      exact kept_run hkept rfl
  case busy =>
    have heq := State.receive_of_hears hears (fun t => t.nakked (t.txId r) r.hdr.seq (bitOf r.hdr.len.toNat 0))
    rw [heard_txId, hbusy] at heq
    have hset : ((s.heard r p).nakked (s.txId r) r.hdr.seq true).hide 65 = s.hide 65 :=
      (State.setTx_hide 65 rfl ..).trans (s.heard_hide r p)
    have hmem := kept_mem hset rfl rfl
    have hclock : (s.heard r p).clock = s.clock := kept_clock (s.heard_hide r p) rfl
    refine ⟨(s.heard r p).nakked (s.txId r) r.hdr.seq true, ?_, ?_, hmem, kept_run hset rfl⟩
    · refine congrArg Host.Outcome.next ?_
      rw [hbusy]
      exact heq
    · rw [nakked_busy (by rw [heard_txFlow]; exact hb), hclock]
      rfl
  case again =>
    have heq := State.receive_of_hears hears (fun t => t.nakked (t.txId r) r.hdr.seq (bitOf r.hdr.len.toNat 0))
    rw [heard_txId, hbusy] at heq
    obtain ⟨hblock, hkept⟩ := nakked_again (s := s.heard r p) (id := s.txId r) (seq := r.hdr.seq) (b := b)
      (by rw [heard_txFlow]; exact hb) (by rw [heard_livePlane, heard_retryLimit]; exact hless)
    have hmem := (kept_mem hkept rfl rfl).trans (kept_mem (s.heard_hide r p) rfl rfl)
    refine ⟨(s.heard r p).nakked (s.txId r) r.hdr.seq false, ?_, hblock, hmem,
      (kept_run hkept rfl).trans (kept_run (s.heard_hide r p) rfl)⟩
    refine congrArg Host.Outcome.next ?_
    rw [hbusy]
    exact heq
  case mirror =>
    have hdone := writeDone_of_mirror ((remoteOf_congr (heard_remote s r p) ..).trans hq) huse
    have heq := State.receive_of_hears hears (fun t => match r.error with
      | none => t.writeDone (frameFlow r) r.hdr.tag
      | some e => t.errorAnswer (frameFlow r) r.hdr.tag e)
    rw [herror] at heq
    have hkept := (State.dropRemote_hide 65 rfl (s.heard r p) r.hdr.tag).trans (s.heard_hide r p)
    have hmem := kept_mem hkept rfl rfl
    refine ⟨(s.heard r p).dropRemote r.hdr.tag, ?_, ?_, hmem, kept_run hkept rfl⟩
    · refine congrArg Host.Outcome.next ?_
      rw [herror]
      exact heq.trans hdone
    · exact congrArg (List.filter _) (heard_remote s r p)
  case fetch =>
    have hdone := writeDone_of_last ((remoteOf_congr (heard_remote s r p) ..).trans hq) huse
      (by rw [heard_remote]; exact hlast)
    have heq := State.receive_of_hears hears (fun t => match r.error with
      | none => t.writeDone (frameFlow r) r.hdr.tag
      | some e => t.errorAnswer (frameFlow r) r.hdr.tag e)
    rw [herror] at heq
    have hdrop := ((State.requestReady_hide 69 rfl ((s.heard r p).dropRemote r.hdr.tag) id).trans
      (State.dropRemote_hide 69 rfl (s.heard r p) r.hdr.tag))
    have hmem := (kept_mem hdrop rfl rfl).trans (kept_mem (s.heard_hide r p) rfl rfl)
    refine ⟨((s.heard r p).dropRemote r.hdr.tag).requestReady id, ?_, fun y hy => ?_, fun y hy hid => ?_, hmem⟩
    · refine congrArg Host.Outcome.next ?_
      rw [herror]
      exact heq.trans hdone
    · have hkept := (List.mem_filter.mp hy).2
      simpa using hkept
    · obtain ⟨z, -, rfl⟩ := List.mem_map.mp hy
      split
      · rfl
      · next hne =>
        rw [if_neg hne] at hid
        exact absurd hid hne
  case error =>
    have hq' := (remoteOf_congr (heard_remote s r p) (frameFlow r) r.hdr.tag).trans hq
    have hrun := kept_run (s.heard_hide r p) rfl
    have hclock : (s.heard r p).clock = s.clock := kept_clock (s.heard_hide r p) rfl
    have heffect := errorAnswer_effect e hq' huse (by rw [hrun]; exact hx)
      (by rw [kept_ctl (s.heard_hide r p) rfl]; exact hroom)
    rw [hclock] at heffect
    rcases hi with ⟨rfl, hears⟩ | ⟨rfl, hears⟩
    · have heq := State.receive_of_hears hears (fun t => match r.error with
        | none => t.writeDone (frameFlow r) r.hdr.tag
        | some e => t.errorAnswer (frameFlow r) r.hdr.tag e)
      rw [herror] at heq
      refine ⟨_, ?_, heffect⟩
      refine congrArg Host.Outcome.next ?_
      rw [herror]
      exact heq
    · refine ⟨_, ?_, heffect⟩
      refine congrArg Host.Outcome.next ?_
      rw [herror]
      exact State.receive_of_hears hears (fun t => t.errorAnswer (frameFlow r) r.hdr.tag e)

end Sys2Proof.Machine

end

section

/-!
What the requesting frames do: a WRITE to the second tier, a READ or a GATHER of it, and requests that wait (R331, R347, R348).
-/

namespace Sys2Proof.Machine

variable {s t u : State}

/-! ### The state in which a request is served -/

section
variable {r : Rx} {p : Peer}

theorem heard_sameTier (s : State) (r : Rx) (p : Peer) : s.SameTier (s.heard r p) := by
  have hmem := kept_mem (s.heard_hide r p) rfl rfl
  refine ⟨by rw [hmem], fun a ha => s.heard_reg r p ?_⟩
  rw [ha.place.2]
  decide

theorem offered_sameTier (s : State) (r : Rx) (p : Peer) (port : Nat) (id : FlowId) (c : Cargo) :
    s.SameTier ((s.heard r p).offered port id c) := by
  have hmem := kept_mem (offered_hide (s.heard r p) port id c) rfl rfl
  refine (heard_sameTier s r p).trans ⟨by rw [hmem], fun a ha => offered_reg _ port id c ?_⟩
  have hlow := ha.place.1
  intro heq
  rw [heq] at hlow
  exact absurd hlow (by decide)

theorem heard_moduleNum (s : State) (r : Rx) (p : Peer) : (s.heard r p).moduleNum = s.moduleNum := by
  unfold State.moduleNum
  rw [s.heard_reg r p (by unfold Reg.FABRIC_MODULE_NUMBER regAddr; omega)]

theorem offered_moduleNum (s : State) (r : Rx) (p : Peer) (port : Nat) (id : FlowId) (c : Cargo) :
    ((s.heard r p).offered port id c).moduleNum = s.moduleNum := by
  refine Eq.trans ?_ (heard_moduleNum s r p)
  unfold State.moduleNum
  rw [offered_reg _ port id c (by unfold Reg.FABRIC_MODULE_NUMBER regAddr; omega)]

theorem placeAt_congr (h : t.run = s.run) (off n : Nat) : t.placeAt off n = s.placeAt off n := by
  unfold State.placeAt
  rw [h]

theorem State.Delivering.run (h : s.Delivering t) : t.run = s.run := kept_run h.rest rfl

theorem State.Delivering.mem (h : s.Delivering t) : t.mem = s.mem := by
  have hmem := kept_mem h.rest rfl rfl
  exact hmem

theorem State.Delivering.heldReads (h : s.Delivering t) : t.fab.heldReads = s.fab.heldReads := by
  obtain ⟨peers, rx, hfab⟩ := h.fab
  rw [hfab]

theorem State.Delivering.tx (h : s.Delivering t) : t.fab.tx = s.fab.tx := by
  obtain ⟨peers, rx, hfab⟩ := h.fab
  rw [hfab]

end

theorem movedFlow_peer (s : State) (ids : List FlowId) (id : FlowId) : (movedFlow s ids id).peer = id.peer := by
  unfold movedFlow
  dsimp only
  split
  · rfl
  · rfl

/-- What is offered stands held in its flow until it is taken, also once more of the state has changed. -/
theorem offered_held {r : Rx} {p : Peer} {b : Block} (hrx : t.fab.rx = ((s.heard r p).offered r.port.val (s.rxId r) ⟨r.hdr, b.data⟩).fab.rx) :
    (t.rxFlow (s.rxId r)).held = [(r.hdr.seq, ⟨r.hdr, b.data⟩)] ∧
      (t.rxFlow (s.rxId r)).unacked = (s.rxFlow (s.rxId r)).unacked := by
  rw [rxFlow_congr hrx, offered_rxFlow, heard_rxFlow]
  exact ⟨rfl, rfl⟩

/-! ### Answers -/

/-- An answer waits as it was made, and no receiving flow has changed. -/
theorem answer_waits (s : State) (id : FlowId) (f : Hdr → Hdr) {type : Nat} (hread : type ≠ 1)
    (hf : ∀ h, (f h).type = h.type ∧ (f h).dst = h.dst) :
    (s.answer id f type).Waits type id.peer (fun c => c.hdr.tag = (f (s.header type id.cls id.queue id.peer id.host)).tag) ∧
      (s.answer id f type).fab.rx = s.fab.rx := by
  obtain ⟨htype, hdst⟩ := hf (s.header type id.cls id.queue id.peer id.host)
  unfold State.answer
  generalize f (s.header type id.cls id.queue id.peer id.host) = h at htype hdst ⊢
  have hbare : ({ h with last := true } : Hdr).type ≠ 1 := htype.trans_ne hread
  obtain ⟨tx, he, -⟩ := s.sendBare_effect id { h with last := true }
  obtain ⟨g, hg, b, hb, hsent, -, hhdr⟩ := s.sendBare_waits id hbare
  refine ⟨⟨g, hg, b, hb, hsent, ?_, ?_, ?_⟩, by rw [he]⟩
  · exact (congrArg Hdr.type hhdr).trans htype
  · exact (congrArg Hdr.dst hhdr).trans hdst
  · exact (congrArg Hdr.tag hhdr).trans rfl

/-- The answer to a request for what comes through, in one frame. -/
theorem serveRead_of_tier {id : FlowId} {c : Cargo} {a n : Nat} (hruns : c.runs = [(a, n)]) (hend : zEndpoint a = s.moduleNum)
    (hspace : zSpace a = 1) (hfits : zOff a + n ≤ 2 ^ 40) (hplace : s.placeAt (zOff a) n = none) (hreads : s.TierReads (zOff a) n)
    (hpos : 1 ≤ n) (hshort : n ≤ 4096) : ∃ tx, s.serveRead id c = { s with fab := { s.fab with tx := tx } } ∧
      (s.serveRead id c).Waits 2 id.peer (fun x => x.hdr.tag = c.hdr.tag ∧ x.data = bytesAt s.mem.cells (lpKey (zOff a)) n) := by
  have hfor : s.readFor id a n = ⟨s, some (bytesAt s.mem.cells (lpKey (zOff a)) n), false⟩ := by
    have hserve : s.nocServe false (zSpace a) (zOff a) n = s := by
      unfold State.nocServe
      rw [hspace]
      rfl
    unfold State.readFor
    rw [if_neg (by rw [hplace]; simp [hend]), hserve]
    exact readOwn_of_tier hspace hfits hreads hostReader
  have hlen := length_bytesAt s.mem.cells (lpKey (zOff a)) n
  generalize bytesAt s.mem.cells (lpKey (zOff a)) n = bs at hfor hlen ⊢
  generalize hh : ({ s.header 2 id.cls id.queue id.peer id.host with tag := c.hdr.tag, addr := 0, phaseTag := if id.cls = 0 then c.hdr.phaseTag else 0, last := true } : Hdr) = h
  have hall : s.readAll id c.runs = ⟨s, some bs, false⟩ := by
    rw [hruns]
    unfold State.readAll State.readAll
    rw [hfor]
    simp
  have hsend : s.serveRead id c = s.enqueue id { h with addr := h.addr + BitVec.ofNat 64 (4096 * 0), last := h.last && 0 + 1 == 1 } bs := by
    unfold State.serveRead
    rw [hall]
    dsimp only
    rw [hh]
    have htype : h.type = 2 := by rw [← hh]; rfl
    unfold State.sendRun
    dsimp only
    rw [cutBlocks_of_short (by omega) (by omega), htype]
    rfl
  obtain ⟨tx, he, g, hg, b, hb, hsent, hdata, seq, hhdr⟩ := s.enqueue_effect id
    { h with addr := h.addr + BitVec.ofNat 64 (4096 * 0), last := h.last && 0 + 1 == 1 } bs
  rw [hsend]
  refine ⟨tx, he, g, hg, b, hb, hsent, ?_, ?_, ?_, hdata⟩
  · rw [hhdr, ← hh]
    rfl
  · rw [hhdr, ← hh]
    rfl
  · rw [hhdr, ← hh]

/-- A request for what comes through that nothing holds back is served. -/
theorem readRequest_of_tier {id : FlowId} {c : Cargo} {a n : Nat} (hruns : c.runs = [(a, n)]) (hspace : zSpace a = 1)
    (hnone : ∀ x ∈ s.fab.heldReads, x.1 ≠ id) (hmissing : s.missing id c = false) : s.readRequest id c = s.serveRead id c := by
  have hany : s.fab.heldReads.any (fun x => x.1 == id) = false := by
    rw [Bool.eq_false_iff]
    intro h
    obtain ⟨x, hx, heq⟩ := List.any_eq_true.mp h
    exact hnone x hx (eq_of_beq heq)
  unfold State.readRequest State.mustWait
  rw [hany, hmissing, hruns]
  have hlocal : localHbm s a = false := by
    unfold localHbm
    rw [hspace]
    simp
  simp [hlocal]

theorem readRequest_of_waiting {id : FlowId} {c : Cargo}
    (hwait : (s.fab.heldReads.any (fun x => x.1 == id) || s.missing id c) = true) : s.readRequest id c = s.holdRequest id c := by
  unfold State.readRequest State.mustWait
  rw [hwait, Bool.true_or]
  exact if_pos rfl

/-! ### Writes -/

/-- A block for the second tier is stored there; the last one is answered. -/
theorem writeRequest_of_tier {id : FlowId} {c : Cargo} (hend : zEndpoint c.hdr.addr.toNat = s.moduleNum)
    (hspace : zSpace c.hdr.addr.toNat = 1) (hfits : zOff c.hdr.addr.toNat + c.data.length ≤ 2 ^ 40)
    (hplace : s.placeAt (zOff c.hdr.addr.toNat) c.data.length = none) (hwaits : writeWaits s.fab.heldReads id c = false) :
    s.writeRequest id c = if c.hdr.last then (s.writeLp (zOff c.hdr.addr.toNat) c.data).s.answer id (fun h => { h with tag := c.hdr.tag }) 5
      else (s.writeLp (zOff c.hdr.addr.toNat) c.data).s := by
  have hholds : s.intakeHolds c.hdr.addr.toNat c.data.length = none := by
    unfold State.intakeHolds
    rw [hspace]
    simp
  unfold State.writeRequest
  rw [hwaits, hholds]
  refine (if_neg (by simp)).trans ?_
  unfold State.writeBlockIn
  dsimp only
  rw [if_neg (not_not.mpr hend), hspace]
  refine (if_neg (by simp [mapped_tier hfits])).trans ?_
  rw [hplace]

theorem writeRequest_of_other {id : FlowId} {c : Cargo} (hend : zEndpoint c.hdr.addr.toNat ≠ s.moduleNum)
    (hwaits : writeWaits s.fab.heldReads id c = false) : s.writeRequest id c = s.refuseRemote id c.hdr := by
  have hholds : s.intakeHolds c.hdr.addr.toNat c.data.length = none := by
    unfold State.intakeHolds
    rw [if_neg (fun h => hend h.1)]
  unfold State.writeRequest
  rw [hwaits, hholds]
  refine (if_neg (by simp)).trans ?_
  unfold State.writeBlockIn
  exact if_pos hend

/-- What a write to the second tier leaves: its bytes, and an answer behind the last block. -/
structure State.Wrote (s t : State) (id : FlowId) (c : Cargo) : Prop where
  rx : t.fab.rx = s.fab.rx
  run : t.run = s.run
  bytes : ∀ a, byteAt t.mem.cells a = byteAt (setBytes s.mem.cells (lpKey (zOff c.hdr.addr.toNat)) c.data) a
  waits : c.hdr.last = true → t.Waits 5 id.peer (fun x => x.hdr.tag = c.hdr.tag)

theorem writeRequest_wrote {id : FlowId} {c : Cargo} (hend : zEndpoint c.hdr.addr.toNat = s.moduleNum)
    (hspace : zSpace c.hdr.addr.toNat = 1) (hfits : zOff c.hdr.addr.toNat + c.data.length ≤ 2 ^ 40)
    (hplace : s.placeAt (zOff c.hdr.addr.toNat) c.data.length = none) (hwaits : writeWaits s.fab.heldReads id c = false)
    (htakes : s.TierTakes (zOff c.hdr.addr.toNat) c.data.length) : s.Wrote (s.writeRequest id c) id c := by
  obtain ⟨hstored, -, -⟩ := writeLp_tiered htakes hostReader
  rw [writeRequest_of_tier hend hspace hfits hplace hwaits]
  generalize (s.writeLp (zOff c.hdr.addr.toNat) c.data).s = w at hstored ⊢
  have hfab : w.fab = s.fab := kept_fab hstored.rest rfl
  have hrun : w.run = s.run := kept_run hstored.rest rfl
  split
  · obtain ⟨hanswer, hrx⟩ := answer_waits w id (fun h => { h with tag := c.hdr.tag }) (type := 5) (by decide) (fun h => ⟨rfl, rfl⟩)
    have hkept := State.answer_hide 64 rfl w id (fun h => { h with tag := c.hdr.tag }) 5
    have hmem := kept_mem hkept rfl rfl
    refine ⟨hrx.trans (by rw [hfab]), (kept_run hkept rfl).trans hrun, fun a => ?_, fun _ => hanswer⟩
    rw [hmem]
    exact hstored.bytes a
  · next hlast => exact ⟨by rw [hfab], hrun, hstored.bytes, fun h => absurd h hlast⟩

/-! ### The frames -/

section
variable {r : Rx} {p : Peer} {b : Block}

theorem execWrite_stores (hears : s.Hears 0 r p) (hnext : s.NextBlock r b)
    (hend : zEndpoint r.hdr.addr.toNat = s.moduleNum) (hspace : zSpace r.hdr.addr.toNat = 1)
    (hfits : zOff r.hdr.addr.toNat + b.data.length ≤ 2 ^ 40) (hplace : s.placeAt (zOff r.hdr.addr.toNat) b.data.length = none)
    (htakes : s.TierTakes (zOff r.hdr.addr.toNat) b.data.length)
    (hwaits : writeWaits s.fab.heldReads (s.rxId r) ⟨r.hdr, b.data⟩ = false) :
    ∃ t, exec (.write r) s = .next t ∧ s.TookBlock t r ∧
      (∀ a, byteAt t.mem.cells a = byteAt (setBytes s.mem.cells (lpKey (zOff r.hdr.addr.toNat)) b.data) a) ∧
      (r.hdr.last = true → t.Waits 5 r.hdr.src (fun c => c.hdr.tag = r.hdr.tag)) ∧ t.run = s.run := by
  have hdel := offered_delivering s r p r.port.val (s.rxId r) ⟨r.hdr, b.data⟩
  have hwrote := writeRequest_wrote (s := (s.heard r p).offered r.port.val (s.rxId r) ⟨r.hdr, b.data⟩) (id := s.rxId r)
    (c := ⟨r.hdr, b.data⟩) (by rw [offered_moduleNum]; exact hend) hspace hfits (by rw [placeAt_congr hdel.run]; exact hplace)
    (by rw [hdel.heldReads]; exact hwaits) ((offered_sameTier ..).takes htakes)
  obtain ⟨hheld, hunacked⟩ := offered_held (s := s) (p := p) hwrote.rx
  obtain ⟨rx, credits, hstate, htook⟩ := receiveBlocks_of_taken (type := 0) (deliver := fun t id c => taken (t.writeRequest id c))
    hears hnext rfl hheld hunacked
  have hpeer : (s.rxId r).peer = r.hdr.src := movedFlow_peer ..
  refine ⟨_, rfl, htook, fun a => ?_, fun hlast => ?_, ?_⟩
  · rw [hstate]
    refine (hwrote.bytes a).trans ?_
    rw [hdel.mem]
  · rw [hstate, ← hpeer]
    exact hwrote.waits hlast
  · rw [hstate]
    exact hwrote.run.trans hdel.run

theorem execWrite_holds (hears : s.Hears 0 r p) (hnext : s.NextBlock r b)
    (hwaits : writeWaits s.fab.heldReads (s.rxId r) ⟨r.hdr, b.data⟩ = true) :
    ∃ t, exec (.write r) s = .next t ∧ t.mem = s.mem ∧ s.TookBlock t r ∧
      t.fab.heldReads = s.fab.heldReads ++ [(s.rxId r, ⟨r.hdr, b.data⟩)] ∧ t.fab.tx = s.fab.tx ∧ t.run = s.run := by
  have hdel := offered_delivering s r p r.port.val (s.rxId r) ⟨r.hdr, b.data⟩
  have hdeliver : ((s.heard r p).offered r.port.val (s.rxId r) ⟨r.hdr, b.data⟩).writeRequest (s.rxId r) ⟨r.hdr, b.data⟩ =
      ((s.heard r p).offered r.port.val (s.rxId r) ⟨r.hdr, b.data⟩).holdRequest (s.rxId r) ⟨r.hdr, b.data⟩ := by
    unfold State.writeRequest
    rw [hdel.heldReads, hwaits]
    rfl
  obtain ⟨hheld, hunacked⟩ := offered_held (s := s) (r := r) (p := p) (b := b)
    (t := ((s.heard r p).offered r.port.val (s.rxId r) ⟨r.hdr, b.data⟩).holdRequest (s.rxId r) ⟨r.hdr, b.data⟩) rfl
  obtain ⟨rx, credits, hstate, htook⟩ := receiveBlocks_of_taken (type := 0) (deliver := fun t id c => taken (t.writeRequest id c))
    hears hnext (congrArg taken hdeliver) hheld hunacked
  refine ⟨_, rfl, ?_, htook, ?_, ?_, ?_⟩
  · rw [hstate]
    exact hdel.mem
  · rw [hstate]
    exact congrArg (· ++ _) hdel.heldReads
  · rw [hstate]
    exact hdel.tx
  · rw [hstate]
    exact hdel.run

theorem execWrite_refuses (hears : s.Hears 0 r p) (hnext : s.NextBlock r b) (hend : zEndpoint r.hdr.addr.toNat ≠ s.moduleNum)
    (hwaits : writeWaits s.fab.heldReads (s.rxId r) ⟨r.hdr, b.data⟩ = false) :
    ∃ t, exec (.write r) s = .next t ∧ t.mem = s.mem ∧ s.TookBlock t r ∧
      Out.unmapped (s.rxId r).peer (s.rxId r).host r.hdr.tag r.hdr.addr ∈ t.out := by
  have hdel := offered_delivering s r p r.port.val (s.rxId r) ⟨r.hdr, b.data⟩
  have hdeliver := writeRequest_of_other (s := (s.heard r p).offered r.port.val (s.rxId r) ⟨r.hdr, b.data⟩) (id := s.rxId r)
    (c := ⟨r.hdr, b.data⟩) (by rw [offered_moduleNum]; exact hend) (by rw [hdel.heldReads]; exact hwaits)
  obtain ⟨hheld, hunacked⟩ := offered_held (s := s) (r := r) (p := p) (b := b)
    (t := ((s.heard r p).offered r.port.val (s.rxId r) ⟨r.hdr, b.data⟩).refuseRemote (s.rxId r) r.hdr) rfl
  obtain ⟨rx, credits, hstate, htook⟩ := receiveBlocks_of_taken (type := 0) (deliver := fun t id c => taken (t.writeRequest id c))
    hears hnext (congrArg taken hdeliver) hheld hunacked
  refine ⟨_, rfl, ?_, htook, ?_⟩
  · rw [hstate]
    exact hdel.mem
  · rw [hstate]
    exact List.mem_append_right _ (List.mem_singleton_self _)

theorem hears_type {type : Nat} (hears : s.Hears type r p) : r.hdr.type = type := by
  obtain ⟨-, -, -, -, -, -, -, -, htype, -⟩ := hears
  unfold typeOk at htype
  simp only [Bool.and_eq_true, beq_iff_eq] at htype
  exact htype.1.1.1.1.2

theorem heard_missing (s : State) (r : Rx) (p : Peer) (id : FlowId) (c : Cargo) : (s.heard r p).missing id c = s.missing id c := by
  unfold State.missing
  rw [heard_rxFlow]

theorem execRead_serves (hears : s.Hears 1 r p) (hpos : 1 ≤ r.hdr.len.toNat) (hshort : r.hdr.len.toNat ≤ 4096)
    (hend : zEndpoint r.hdr.addr.toNat = s.moduleNum) (hspace : zSpace r.hdr.addr.toNat = 1)
    (hfits : zOff r.hdr.addr.toNat + r.hdr.len.toNat ≤ 2 ^ 40)
    (hplace : s.placeAt (zOff r.hdr.addr.toNat) r.hdr.len.toNat = none)
    (hreads : s.TierReads (zOff r.hdr.addr.toNat) r.hdr.len.toNat) (hnone : ∀ x ∈ s.fab.heldReads, x.1 ≠ s.rxId r)
    (hmissing : s.missing (s.rxId r) ⟨r.hdr, []⟩ = false) :
    ∃ t, exec (.read r) s = .next t ∧ t.mem = s.mem ∧ t.run = s.run ∧
      t.Waits 2 (s.rxId r).peer (fun c => c.hdr.tag = r.hdr.tag ∧
        c.data = bytesAt s.mem.cells (lpKey (zOff r.hdr.addr.toNat)) r.hdr.len.toNat) := by
  have hdel := heard_delivering s r p
  have hruns : Cargo.runs ⟨r.hdr, []⟩ = [(r.hdr.addr.toNat, r.hdr.len.toNat)] := by
    unfold Cargo.runs
    dsimp only
    rw [hears_type hears, if_neg (by decide), if_neg]
    intro hzero
    rw [hzero] at hpos
    exact absurd hpos (by decide)
  obtain ⟨tx, hserve, hwaits⟩ := serveRead_of_tier (s := s.heard r p) (id := s.rxId r) hruns (by rw [heard_moduleNum]; exact hend)
    hspace hfits (by rw [placeAt_congr hdel.run]; exact hplace) ((heard_sameTier s r p).reads hreads) hpos hshort
  have hrequest := readRequest_of_tier (s := s.heard r p) (id := s.rxId r) hruns hspace
    (by rw [hdel.heldReads]; exact hnone) (by rw [heard_missing]; exact hmissing)
  have heq := State.receive_of_hears hears (fun t => t.readRequest (t.rxId r) ⟨r.hdr, []⟩)
  rw [heard_rxId, hrequest] at heq
  rw [hdel.mem] at hwaits
  refine ⟨_, done_of_eq heq, ?_, ?_, hwaits⟩
  · rw [hserve]
    exact hdel.mem
  · rw [hserve]
    exact hdel.run

theorem execRead_holds (hears : s.Hears 1 r p)
    (hwait : (s.fab.heldReads.any (fun x => x.1 == s.rxId r) || s.missing (s.rxId r) ⟨r.hdr, []⟩) = true) :
    ∃ t, exec (.read r) s = .next t ∧ t.mem = s.mem ∧ t.fab.heldReads = s.fab.heldReads ++ [(s.rxId r, ⟨r.hdr, []⟩)] ∧
      t.fab.tx = s.fab.tx := by
  have hdel := heard_delivering s r p
  have hrequest := readRequest_of_waiting (s := s.heard r p) (id := s.rxId r) (c := ⟨r.hdr, []⟩)
    (by rw [heard_missing, hdel.heldReads]; exact hwait)
  have heq := State.receive_of_hears hears (fun t => t.readRequest (t.rxId r) ⟨r.hdr, []⟩)
  rw [heard_rxId, hrequest] at heq
  have hmem := kept_mem (State.holdRequest_hide 64 rfl (s.heard r p) (s.rxId r) ⟨r.hdr, []⟩) rfl rfl
  refine ⟨_, done_of_eq heq, hmem.trans hdel.mem, ?_, hdel.tx⟩
  exact congrArg (· ++ [(s.rxId r, ⟨r.hdr, []⟩)]) hdel.heldReads

/-- A GATHER of one row asks for that row. -/
theorem runs_of_gather {c : Cargo} (htype : c.hdr.type = 10) (hlen : c.data.length = 24) : c.runs =
    [(c.hdr.addr.toNat + wordIn c.data 4 * dwordIn c.data 0 + wordIn c.data 5, wordIn c.data 2)] := by
  unfold Cargo.runs
  dsimp only
  rw [htype, if_pos rfl, hlen]
  rfl

theorem execGather_serves {a : Nat} (hears : s.Hears 10 r p) (hnext : s.NextBlock r b) (hlen : b.data.length = 24)
    (hmult : wordIn b.data 2 % 512 = 0) (hpos : 1 ≤ wordIn b.data 2) (hshort : wordIn b.data 2 ≤ 4096)
    (hzero : wordIn b.data 3 = 0) (ha : r.hdr.addr.toNat + wordIn b.data 4 * dwordIn b.data 0 + wordIn b.data 5 = a)
    (hend : zEndpoint a = s.moduleNum) (hspace : zSpace a = 1) (hfits : zOff a + wordIn b.data 2 ≤ 2 ^ 40)
    (hplace : s.placeAt (zOff a) (wordIn b.data 2) = none) (hreads : s.TierReads (zOff a) (wordIn b.data 2))
    (hnone : ∀ x ∈ s.fab.heldReads, x.1 ≠ s.rxId r) :
    ∃ t, exec (.gather r) s = .next t ∧ t.mem = s.mem ∧ s.TookBlock t r ∧
      t.Waits 2 (s.rxId r).peer (fun c => c.hdr.tag = r.hdr.tag ∧
        c.data = bytesAt s.mem.cells (lpKey (zOff a)) (wordIn b.data 2)) := by
  have hdel := offered_delivering s r p r.port.val (s.rxId r) ⟨r.hdr, b.data⟩
  have htype := hears_type hears
  have hruns : Cargo.runs ⟨r.hdr, b.data⟩ = [(a, wordIn b.data 2)] := by
    rw [runs_of_gather htype hlen]
    exact congrArg (fun x => [(x, _)]) ha
  obtain ⟨tx, hserve, hwaits⟩ := serveRead_of_tier (s := (s.heard r p).offered r.port.val (s.rxId r) ⟨r.hdr, b.data⟩)
    (id := s.rxId r) hruns (by rw [offered_moduleNum]; exact hend)
    hspace hfits (by rw [placeAt_congr hdel.run]; exact hplace) ((offered_sameTier ..).reads hreads) hpos hshort
  have hmissing (v : State) : v.missing (s.rxId r) ⟨r.hdr, b.data⟩ = false := by
    unfold State.missing
    dsimp only
    rw [htype]
    rfl
  have hrequest := readRequest_of_tier (s := (s.heard r p).offered r.port.val (s.rxId r) ⟨r.hdr, b.data⟩) (id := s.rxId r)
    hruns hspace (by rw [hdel.heldReads]; exact hnone) (hmissing _)
  have hdeliver : ((s.heard r p).offered r.port.val (s.rxId r) ⟨r.hdr, b.data⟩).gatherBlock (s.rxId r) ⟨r.hdr, b.data⟩ =
      ((s.heard r p).offered r.port.val (s.rxId r) ⟨r.hdr, b.data⟩).serveRead (s.rxId r) ⟨r.hdr, b.data⟩ := by
    refine Eq.trans ?_ hrequest
    unfold State.gatherBlock
    exact if_pos ⟨by dsimp only; omega, hmult, hzero⟩
  obtain ⟨hheld, hunacked⟩ := offered_held (s := s) (r := r) (p := p) (b := b)
    (t := ((s.heard r p).offered r.port.val (s.rxId r) ⟨r.hdr, b.data⟩).serveRead (s.rxId r) ⟨r.hdr, b.data⟩) (by rw [hserve])
  obtain ⟨rx, credits, hstate, htook⟩ := receiveBlocks_of_taken (type := 10) (deliver := fun t id c => taken (t.gatherBlock id c))
    hears hnext (congrArg taken hdeliver) hheld hunacked
  rw [hdel.mem] at hwaits
  refine ⟨_, rfl, ?_, htook, ?_⟩
  · rw [hstate, hserve]
    exact hdel.mem
  · rw [hstate]
    exact hwaits

end

/-- Settles O42: blocks are stored, held or refused, and what requests read waits to be sent. -/
theorem requestFrames : Obligations.RequestFrames := by
  refine ⟨fun s r p b hears hnext _ hend hspace hfits hplace htakes hwaits => ?_,
    fun s r p b hears hnext hwaits => execWrite_holds hears hnext hwaits,
    fun s r p b hears hnext hend hwaits => execWrite_refuses hears hnext hend hwaits,
    fun s r p hears hpos hshort hend hspace hfits hplace hreads hnone hmissing =>
      execRead_serves hears hpos hshort hend hspace hfits hplace hreads hnone hmissing,
    fun s r p hears hwait => execRead_holds hears hwait,
    fun s r p b a hears hnext hlen hmult hpos hshort hzero ha hend hspace hfits hplace hreads hnone =>
      execGather_serves hears hnext hlen hmult hpos hshort hzero ha hend hspace hfits hplace hreads hnone⟩
  obtain ⟨t, ht, htook, hbytes, hanswer, hrun⟩ := execWrite_stores hears hnext hend hspace hfits hplace htakes hwaits
  refine ⟨t, ht, ?_, fun x hx => ?_, htook, hanswer, hrun⟩
  · exact (bytesAt_congr fun i _ => hbytes _).trans (bytesAt_setBytes_self ..)
  · rw [hbytes, byteAt_setBytes, if_neg hx]

end Sys2Proof.Machine

end

section

/-!
Control messages in frames, and the units of a reduction (R359 to R362, R379 to R387).
-/

namespace Sys2Proof.Machine

variable {s t u : State}

/-! ### A reply in its frame -/

theorem wordIn_leBytes_append (x : Nat) (bs : List Byte) : wordIn (leBytes 4 x ++ bs) 0 = x % 2 ^ 32 := by
  unfold wordIn
  rw [Nat.mul_zero, List.drop_zero, List.take_append_of_le_length (length_leBytes 4 x).ge,
    List.take_of_length_le (length_leBytes 4 x).le, leNat_leBytes]

theorem wordIn_append_succ {x : Nat} {bs : List Byte} (i : Nat) : wordIn (leBytes 4 x ++ bs) (i + 1) = wordIn bs i := by
  unfold wordIn
  have hlen := length_leBytes 4 x
  rw [List.drop_append, List.drop_of_length_le (by omega), List.nil_append, hlen, show 4 * (i + 1) - 4 = 4 * i by omega]

theorem wordIn_lt (bs : List Byte) (i : Nat) : wordIn bs i < 2 ^ 32 := by
  have hlen : ((bs.drop (4 * i)).take 4).length ≤ 4 := List.length_take_le ..
  refine (leNat_lt _).trans_le (Nat.pow_le_pow_right (by decide) ?_)
  omega

/-- A short reply on a port waits in one frame, and nothing but the flows changes. -/
theorem sendReply_effect {f : Session} {opcode retry : Nat} {a : Answer} (hport : f.parlour = false) (hdata : a.data = []) :
    ∃ tx, s.sendReply f opcode retry a = { s with fab := { s.fab with tx := tx } } ∧
      (s.sendReply f opcode retry a).Waits 8 f.src
        (fun c => c.data = replyBytes f opcode s.attn a.status retry a.count a.detail []) := by
  have hlen : (replyBytes f opcode s.attn a.status retry a.count a.detail []).length = 16 := by
    unfold replyBytes
    simp only [List.length_append, length_leBytes, List.length_nil]
  unfold State.sendReply
  rw [hport, hdata]
  generalize hbytes : replyBytes f opcode s.attn a.status retry a.count a.detail [] = bs at hlen ⊢
  generalize hh : ({ s.header 8 2 f.queue f.src f.srcHost with last := true } : Hdr) = h
  have htype : h.type = 8 := by rw [← hh]; rfl
  have hdst : h.dst = f.src := by rw [← hh]; rfl
  have hsend : s.sendRun (flowTo f.src f.srcHost (f.port / 4) 2 f.queue) h bs =
      s.enqueue (flowTo f.src f.srcHost (f.port / 4) 2 f.queue) { h with addr := h.addr, last := h.last && 0 + 1 == 1 } bs := by
    unfold State.sendRun
    dsimp only
    rw [cutBlocks_of_short (by omega) (by omega), htype]
    rfl
  obtain ⟨tx, he, g, hg, b, hb, hsent, hcargo, seq, hhdr⟩ := s.enqueue_effect (flowTo f.src f.srcHost (f.port / 4) 2 f.queue)
    { h with addr := h.addr, last := h.last && 0 + 1 == 1 } bs
  rw [if_neg (by simp), hsend]
  refine ⟨tx, he, g, hg, b, hb, hsent, ?_, ?_, hcargo⟩
  · rw [hhdr]
    exact htype
  · rw [hhdr]
    exact hdst

/-- The first words of a reply to a NOP. -/
theorem replyBytes_words (f : Session) (attn : Nat) : (replyBytes f 0 attn stOk 0 0 0 []).length = 16 ∧
    fieldOf (wordIn (replyBytes f 0 attn stOk 0 0 0 []) 0) 15 0 = 1 ∧
    wordIn (replyBytes f 0 attn stOk 0 0 0 []) 1 = f.reqId.toNat := by
  have hok : stOk = 0 := rfl
  unfold replyBytes
  refine ⟨by simp only [List.length_append, length_leBytes, List.length_nil], ?_, ?_⟩
  · simp only [List.append_assoc]
    rw [wordIn_leBytes_append, hok]
    refine (fieldOf_eq_div _ 0 15).trans ?_
    omega
  · simp only [List.append_assoc]
    rw [wordIn_append_succ, wordIn_leBytes_append]
    exact Nat.mod_eq_of_lt f.reqId.isLt

/-! ### NOP in a frame -/

/-- A NOP that is served: answered OK, with nothing else changed but the counter of messages. -/
theorem message_of_nop {f : Session} {bs : List Byte} (hs : s.Serves { f with reqId := BitVec.ofNat 32 (wordIn bs 1) } true)
    (hport : f.parlour = false) (hlen : bs.length = 16) (h0 : wordIn bs 0 = 0) (h2 : wordIn bs 2 = 0) (h3 : wordIn bs 3 = 0) :
    (s.message f bs).hide 4289 = s.hide 4289 ∧ (∃ tx, (s.message f bs).fab = { s.fab with tx := tx }) ∧
      (s.message f bs).Waits 8 f.src (fun c => c.data.length = 16 ∧ fieldOf (wordIn c.data 0) 15 0 = 1 ∧
        wordIn c.data 1 = (BitVec.ofNat 32 (wordIn bs 1)).toNat) := by
  have hact : State.messageAct { f with reqId := BitVec.ofNat 32 (wordIn bs 1) } bs s = ⟨s, stOk, 0, 0, []⟩ := by
    have hreserved : messageReserved bs = none := by
      unfold messageReserved
      rw [h0, h2, h3]
      rfl
    have hop : fieldOf 0 31 24 = 0 := by decide
    have hcount : fieldOf 0 23 8 = 0 := by decide
    unfold State.messageAct
    dsimp only
    rw [hreserved, h0, hop, hcount, if_neg (by simp)]
    dsimp only
    rw [if_neg (by simp [messageData])]
    rfl
  have hmessage : s.message f bs = s.serve { f with reqId := BitVec.ofNat 32 (wordIn bs 1) } 0 true
      (State.messageAct { f with reqId := BitVec.ofNat 32 (wordIn bs 1) } bs) := by
    have hop : fieldOf 0 31 24 = 0 := by decide
    unfold State.message
    dsimp only
    rw [h0, if_neg (by decide), hop]
    rfl
  have hcount := State.bumpQmgr_hide 1 rfl s Reg.QMGR_CONTROL_MSGS
  rw [hmessage, State.serve_of_serves hs, hact, if_neg (show ¬ stOk = stBusy by decide), if_pos (show doneStatus stOk = true by decide)]
  generalize s.bumpQmgr Reg.QMGR_CONTROL_MSGS = v at hcount ⊢
  obtain ⟨tx, he, g, hg, b, hb, hsent, htype, hdst, hdata⟩ := sendReply_effect (s := v) (opcode := 0) (retry := 0)
    (f := { f with reqId := BitVec.ofNat 32 (wordIn bs 1) }) (a := ⟨s, stOk, 0, 0, []⟩) hport rfl
  have hwords := replyBytes_words { f with reqId := BitVec.ofNat 32 (wordIn bs 1) } v.attn
  rw [← hdata] at hwords
  refine ⟨?_, ?_, g, hg, b, hb, hsent, htype, hdst, hwords⟩
  · have e := congrArg (State.hide 4289) hcount
    rw [hide_hide (by decide), hide_hide (by decide)] at e
    exact (State.sendReply_hide 4289 rfl ..).trans e
  · have hfab : v.fab = s.fab := kept_fab hcount rfl
    exact ⟨tx, by rw [he, ← hfab]⟩

section
variable {r : Rx} {p : Peer} {b : Block}

theorem hasSession_of_peer {q : Session} (hport : q.parlour = false) (hp : s.peerOn q.src q.srcHost (q.port / 4) = some p)
    (hreach : p.unreachable = false) (hlive : s.portLive q.port = true) : s.hasSession q = true := by
  unfold State.hasSession State.joinedOn
  rw [hport, hp, hlive]
  dsimp only
  rw [hreach]
  rfl

/-- The peer that a frame came from, once its packet is noted. -/
theorem heard_peerOn {type : Nat} (hears : s.Hears type r p) :
    (s.heard r p).peerOn r.hdr.src r.hdr.srcHost (r.port / 4) = some (p.took r) := by
  obtain ⟨-, -, -, hpeer, -⟩ := hears
  have hfound : p.num = r.hdr.src ∧ p.host = r.hdr.srcHost ∧ p.plane = r.port / 4 := by
    have h := List.find?_some hpeer
    simp only [Bool.and_eq_true, beq_iff_eq] at h
    exact ⟨h.1.1, h.1.2, h.2⟩
  obtain ⟨hnum, hhost, hplane⟩ := hfound
  have hcounted : (s.countedRx r).peerOn r.hdr.src r.hdr.srcHost (r.port / 4) = some p :=
    (peerOn_congr (by rw [State.countedRx_fab]) ..).trans hpeer
  unfold State.heard
  rw [hnum, hhost, hplane]
  refine peerOn_modPeer hcounted (fun x => x.took r) fun x => ?_
  unfold Peer.took
  dsimp only
  split
  · exact ⟨rfl, rfl, rfl⟩
  · exact ⟨rfl, rfl, rfl⟩

theorem took_unreachable (p : Peer) (r : Rx) : (p.took r).unreachable = p.unreachable := by
  unfold Peer.took
  dsimp only
  split
  · rfl
  · rfl

theorem State.Delivering.port (h : s.Delivering t) (n : Nat) : t.port n = s.port n := by
  obtain ⟨peers, rx, hfab⟩ := h.fab
  unfold State.port
  rw [hfab]

/-- A port with one more message admitted. -/
def State.admits (s : State) (port : Nat) : State :=
  s.setPort port { s.port port with admitted := (s.port port).admitted + 1 }

theorem admits_portLive (s : State) (port : Nat) : (s.admits port).portLive port = s.portLive port := by
  unfold State.portLive State.admits
  rw [port_setPort, if_pos rfl]

/-- A whole message of one block is admitted and served. -/
theorem controlBlock_of_whole {id : FlowId} {c : Cargo} (hlast : c.hdr.last = true) (hpartial : (s.rxFlow id).partial_ = [])
    (hroom : (s.port r.port).admitted < 256) : s.controlBlock r.port id c =
      taken (((s.setRx { s.rxFlow id with partial_ := [] }).admits r.port).message (sessionOf r.port id) c.data) := by
  have hport : (s.setRx { s.rxFlow id with partial_ := [] }).port r.port = s.port r.port := by
    unfold State.port
    rw [setRx_fab]
  unfold State.controlBlock State.admits
  dsimp only
  rw [hlast, hpartial, if_neg (by simp), if_neg (by omega), List.nil_append, hport]

theorem execControl_nop (hears : s.Hears 8 r p) (hnext : s.NextBlock r b) (hlast : r.hdr.last = true)
    (hpartial : (s.rxFlow (s.rxId r)).partial_ = []) (hroom : (s.port r.port).admitted < 256) (hlen : b.data.length = 16)
    (h0 : wordIn b.data 0 = 0) (h2 : wordIn b.data 2 = 0) (h3 : wordIn b.data 3 = 0) (hreach : p.unreachable = false)
    (hlow : 16 ≤ r.hdr.queue) (hhigh : r.hdr.queue ≤ 4095) :
    ∃ t, exec (.control r) s = .next t ∧ (t.port r.port).admitted = (s.port r.port).admitted + 1 ∧
      t.Waits 8 r.hdr.src (fun c => c.data.length = 16 ∧ fieldOf (wordIn c.data 0) 15 0 = 1 ∧
        wordIn c.data 1 = wordIn b.data 1) ∧ t.mem = s.mem ∧ t.run = s.run := by
  have hdel := offered_delivering s r p r.port.val (s.rxId r) ⟨r.hdr, b.data⟩
  have hpeer : (s.rxId r).peer = r.hdr.src := movedFlow_peer ..
  have hsame : sessionOf r.port (s.rxId r) = ⟨false, r.port, r.hdr.src, r.hdr.srcHost, r.hdr.queue, 0⟩ := by
    unfold sessionOf State.rxId movedFlow
    dsimp only
    split
    · rfl
    · rfl
  generalize hw : (s.heard r p).offered r.port.val (s.rxId r) ⟨r.hdr, b.data⟩ = w at hdel
  have hflow : w.rxFlow (s.rxId r) = { s.rxFlow (s.rxId r) with held := [(r.hdr.seq, ⟨r.hdr, b.data⟩)] } := by
    rw [← hw, offered_rxFlow, heard_rxFlow]
  have hdeliver : w.controlBlock r.port (s.rxId r) ⟨r.hdr, b.data⟩ = taken _ :=
    controlBlock_of_whole hlast (by rw [hflow]; exact hpartial) (by rw [hdel.port]; exact hroom)
  generalize hv : (w.setRx { w.rxFlow (s.rxId r) with partial_ := [] }).admits r.port = v at hdeliver
  have hserves : v.Serves { sessionOf r.port (s.rxId r) with reqId := BitVec.ofNat 32 (wordIn b.data 1) } true := by
    have hwpeer : w.peerOn r.hdr.src r.hdr.srcHost (r.port / 4) = some (p.took r) := by
      obtain ⟨rx, hfab⟩ := offered_fab (s.heard r p) r.port.val (s.rxId r) ⟨r.hdr, b.data⟩
      rw [hw] at hfab
      exact (peerOn_congr (by rw [hfab]) ..).trans (heard_peerOn hears)
    have hvpeer : v.peerOn r.hdr.src r.hdr.srcHost (r.port / 4) = some (p.took r) := by
      refine (peerOn_congr ?_ ..).trans hwpeer
      rw [← hv]
      show (w.setRx _).fab.peers = w.fab.peers
      rw [setRx_fab]
    have hlive : v.portLive r.port = true := by
      rw [← hv, admits_portLive]
      unfold State.portLive State.port
      rw [setRx_fab]
      have hs := hears.2.1
      unfold State.portLive at hs
      rw [← hdel.port] at hs
      exact hs
    rw [hsame]
    exact ⟨hasSession_of_peer rfl hvpeer (by rw [took_unreachable]; exact hreach) hlive, hlow, hhigh, .inr (.inr rfl)⟩
  obtain ⟨hrest, ⟨tx, hfab⟩, hwaits⟩ := message_of_nop hserves rfl hlen h0 h2 h3
  have hvflow : v.rxFlow (s.rxId r) = { w.rxFlow (s.rxId r) with partial_ := [] } := by
    rw [← hv]
    exact (rxFlow_setRx ..).trans (if_pos (rxFlow_id w (s.rxId r)))
  have hmflow : (v.message (sessionOf r.port (s.rxId r)) b.data).rxFlow (s.rxId r) = { w.rxFlow (s.rxId r) with partial_ := [] } :=
    (rxFlow_congr (by rw [hfab]) _).trans hvflow
  obtain ⟨rx, credits, hstate, -⟩ := receiveBlocks_of_taken (type := 8) (deliver := fun t id c => t.controlBlock r.port id c)
    hears hnext (hw ▸ hdeliver) (by rw [hmflow, hflow]) (by rw [hmflow, hflow])
  have hkept : (v.message (sessionOf r.port (s.rxId r)) b.data).hide 4289 = s.hide 4289 := by
    refine hrest.trans ?_
    rw [← hv]
    have e := congrArg (State.hide 4289) hdel.rest
    rw [hide_hide (by decide), hide_hide (by decide)] at e
    exact (State.setRx_hide 4289 rfl ..).trans e
  have hmem := kept_mem hkept rfl rfl
  refine ⟨_, rfl, ?_, ?_, ?_, ?_⟩
  · rw [hstate]
    have hport : ((v.message (sessionOf r.port (s.rxId r)) b.data).port r.port).admitted = (v.port r.port).admitted := by
      unfold State.port
      rw [hfab]
    refine hport.trans ?_
    rw [← hv]
    unfold State.admits
    rw [port_setPort, if_pos rfl]
    unfold State.port
    rw [setRx_fab]
    exact congrArg (fun x : PortState => x.admitted + 1) (hdel.port r.port)
  · rw [hstate, ← hpeer]
    rw [BitVec.toNat_ofNat, Nat.mod_eq_of_lt (wordIn_lt ..)] at hwaits
    exact hwaits
  · rw [hstate]
    exact hmem
  · rw [hstate]
    exact kept_run hkept rfl

end

end Sys2Proof.Machine

end

section

/-!
The units of a reduction: a contribution to an empty line, and a finished unit (R359 to R362); the loss of a plane (R367).
-/

namespace Sys2Proof.Machine

variable {s t u : State}

/-! ### Lines -/

theorem redLine_setLine (s : State) (l : RedLine) : (s.setLine l).redLine l.entry l.unit = some l := by
  unfold State.redLine State.setLine State.dropLine
  dsimp only
  rw [List.find?_append, List.find?_eq_none.mpr fun x hx => ?_, List.find?_singleton]
  · rw [if_pos (by simp)]
    rfl
  · have hkept := (List.mem_filter.mp hx).2
    simpa [imp_iff_not_or] using hkept

theorem redLine_dropLine (s : State) (key unit : Nat) : (s.dropLine key unit).redLine key unit = none := by
  unfold State.redLine State.dropLine
  refine List.find?_eq_none.mpr fun x hx => ?_
  have hkept := (List.mem_filter.mp hx).2
  simpa [imp_iff_not_or] using hkept

theorem redLine_congr (h : t.fab.redLines = s.fab.redLines) (key unit : Nat) : t.redLine key unit = s.redLine key unit := by
  unfold State.redLine
  rw [h]

/-- A unit's line with its first contribution. -/
def firstLine (key unit op : Nat) (bs : List Byte) : RedLine := (⟨key, unit, 0, [], [], 0, false⟩ : RedLine).add op bs

theorem firstLine_place (key unit op : Nat) (bs : List Byte) :
    (firstLine key unit op bs).entry = key ∧ (firstLine key unit op bs).unit = unit ∧ (firstLine key unit op bs).count = 1 := by
  unfold firstLine RedLine.add
  dsimp only
  split
  · exact ⟨rfl, rfl, rfl⟩
  · exact ⟨rfl, rfl, rfl⟩

theorem firstLine_sums (key unit op : Nat) (bs : List Byte) :
    (op ≠ 1 → (firstLine key unit op bs).sums = (wordsOf 2 bs).map (fun w => (redValue w).1)) ∧
      (op = 1 → (firstLine key unit op bs).sums = bs.map (fun x => max 0 (x.toNat : Int))) := by
  unfold firstLine RedLine.add
  refine ⟨fun hop => ?_, fun hop => ?_⟩
  · rw [if_neg hop]
    refine List.ext_getElem (by simp) fun i h1 h2 => ?_
    simp
  · rw [if_pos hop]
    refine List.ext_getElem (by simp) fun i h1 h2 => ?_
    simp

/-- The first of several contributions opens a unit's line. -/
theorem redAdd_of_first {key unit : Nat} {e : RedEntry} {bs : List Byte} (hline : s.redLine key unit = none) (hmore : 1 < e.expect) :
    s.redAdd key e unit bs = s.setLine (firstLine key unit e.op bs) := by
  unfold State.redAdd
  rw [hline]
  dsimp only
  exact if_pos ((firstLine_place key unit e.op bs).2.2.trans_lt hmore)

section
variable {plane idx step20 off v : Nat} {e : RedEntry} {bs : List Byte}

theorem reduceBlock_of_first (hlen : bs.length = 512) (hoff : off % 512 = 0) (hfits : off + 512 ≤ e.length)
    (hv : s.variantOf step20 = some v) (he : s.redEntry (redKey v idx) = some e)
    (hstep : (s.redState (redKey v idx)).step % 2 ^ 20 = step20) (hopen : s.unitClosed (redKey v idx) (off / 512) = false)
    (hline : s.redLine (redKey v idx) (off / 512) = none) (hroom : s.linesBusy e.engine < linesMax) (hmore : 1 < e.expect) :
    s.reduceBlock plane idx step20 off bs = ⟨s.setLine (firstLine (redKey v idx) (off / 512) e.op bs), false⟩ := by
  have hone : (List.range (ceilDiv 512 512)).map (· + off / 512) = [off / 512] := by
    rw [show ceilDiv 512 512 = 1 from rfl]
    simp
  have hall : (bs.drop (512 * (off / 512) - off)).take 512 = bs := by
    rw [show 512 * (off / 512) - off = 0 by omega, List.drop_zero, List.take_of_length_le (by omega)]
  unfold State.reduceBlock
  rw [hv]
  dsimp only
  rw [he]
  dsimp only
  rw [if_neg (not_not.mpr hstep), hlen, if_neg (by omega), hone, List.find?_cons_of_neg (by simp [hopen]), List.find?_nil]
  dsimp only
  rw [List.filter_cons_of_pos (by simp [hline]), List.filter_nil, List.length_singleton, if_neg (by omega), List.foldl_cons,
    List.foldl_nil, hall, redAdd_of_first hline hmore]

end

section
variable {r : Rx} {p : Peer} {b : Block}

/-- What a reduction depends on: the run, its states and its lines. -/
theorem execReduce_opens {v : Nat} {e : RedEntry} (hears : s.Hears 11 r p) (hnext : s.NextBlock r b) (hlen : b.data.length = 512)
    (hoff : r.hdr.addr.toNat % 512 = 0) (hfits : r.hdr.addr.toNat + 512 ≤ e.length)
    (hv : s.variantOf (r.hdr.tag.toNat % 2 ^ 20) = some v) (he : s.redEntry (redKey v (r.hdr.tag.toNat / 2 ^ 20)) = some e)
    (hstep : (s.redState (redKey v (r.hdr.tag.toNat / 2 ^ 20))).step % 2 ^ 20 = r.hdr.tag.toNat % 2 ^ 20)
    (hopen : s.unitClosed (redKey v (r.hdr.tag.toNat / 2 ^ 20)) (r.hdr.addr.toNat / 512) = false)
    (hline : s.redLine (redKey v (r.hdr.tag.toNat / 2 ^ 20)) (r.hdr.addr.toNat / 512) = none)
    (hroom : s.linesBusy e.engine < linesMax) (hmore : 1 < e.expect)
    (hwaits : writeWaits s.fab.heldReads (s.rxId r) ⟨r.hdr, b.data⟩ = false) :
    ∃ t, exec (.reduce r) s = .next t ∧ s.TookBlock t r ∧
      t.redLine (redKey v (r.hdr.tag.toNat / 2 ^ 20)) (r.hdr.addr.toNat / 512) =
        some (firstLine (redKey v (r.hdr.tag.toNat / 2 ^ 20)) (r.hdr.addr.toNat / 512) e.op b.data) ∧
      t.mem = s.mem ∧ t.run = s.run := by
  have hdel := offered_delivering s r p r.port.val (s.rxId r) ⟨r.hdr, b.data⟩
  generalize hw : (s.heard r p).offered r.port.val (s.rxId r) ⟨r.hdr, b.data⟩ = w at hdel
  obtain ⟨peers, rx, hfab⟩ := hdel.fab
  generalize hkey : redKey v (r.hdr.tag.toNat / 2 ^ 20) = key at *
  have hrun := hdel.run
  have hentries (k : Nat) : w.redEntry k = s.redEntry k := by
    unfold State.redEntry
    rw [hrun]
  have hstate (k : Nat) : w.redState k = s.redState k := by
    unfold State.redState
    rw [hfab]
  have hlines (k n : Nat) : w.redLine k n = s.redLine k n := redLine_congr (by rw [hfab]) k n
  have hblock : w.reduceBlock (r.port / 4) (r.hdr.tag.toNat / 2 ^ 20) (r.hdr.tag.toNat % 2 ^ 20) r.hdr.addr.toNat b.data =
      ⟨w.setLine (firstLine key (r.hdr.addr.toNat / 512) e.op b.data), false⟩ := by
    rw [← hkey]
    refine reduceBlock_of_first hlen hoff hfits ?_ ?_ ?_ ?_ ?_ ?_ hmore
    · unfold State.variantOf
      rw [hrun]
      exact hv
    · rw [hkey, hentries, he]
    · rw [hkey, hstate, hstep]
    · rw [hkey]
      unfold State.unitClosed
      rw [hstate, hlines]
      exact hopen
    · rw [hkey, hlines, hline]
    · unfold State.linesBusy
      rw [hfab, funext fun l : RedLine => congrArg (Option.any fun x : RedEntry => x.engine == e.engine) (hentries l.entry)]
      exact hroom
  have hdeliver : w.redRequest (r.port / 4) (s.rxId r) ⟨r.hdr, b.data⟩ =
      taken (w.setLine (firstLine key (r.hdr.addr.toNat / 512) e.op b.data)) := by
    unfold State.redRequest State.redBlock
    rw [hdel.heldReads, hwaits]
    dsimp only
    rw [hblock]
    rfl
  obtain ⟨hentry, hunit, -⟩ := firstLine_place key (r.hdr.addr.toNat / 512) e.op b.data
  have hmine := redLine_setLine w (firstLine key (r.hdr.addr.toNat / 512) e.op b.data)
  rw [hentry, hunit] at hmine
  generalize firstLine key (r.hdr.addr.toNat / 512) e.op b.data = l at hdeliver hmine ⊢
  obtain ⟨hheld, hunacked⟩ := offered_held (s := s) (r := r) (p := p) (b := b) (t := w.setLine l) (by rw [hw]; rfl)
  obtain ⟨rx', credits, hstate', htook⟩ := receiveBlocks_of_taken (type := 11)
    (deliver := fun t id c => t.redRequest (r.port / 4) id c) hears hnext (hw ▸ hdeliver) hheld hunacked
  refine ⟨_, rfl, htook, ?_, ?_, ?_⟩
  · rw [hstate']
    exact hmine
  · rw [hstate']
    exact hdel.mem
  · rw [hstate']
    exact hrun

/-- A plane that a peer gives up is out here too. -/
theorem execNotice_effect (hears : s.Hears 12 r p) (hplane : r.hdr.len.toNat < 2) (hin : s.planeOut r.hdr.len.toNat = false) :
    ∃ t, exec (.notice r) s = .next t ∧ tfind t.fab.planeLost r.hdr.len.toNat = some (s.slotOfTag r.hdr.phaseTag) ∧
      t.reg (Reg.EVENT_RAW clsFabric r.hdr.len.toNat) =
        s.reg (Reg.EVENT_RAW clsFabric r.hdr.len.toNat) ||| 2 ^ evLink ∧ t.mem = s.mem ∧ t.run = s.run := by
  have hclock : (s.heard r p).clock = s.clock := kept_clock (s.heard_hide r p) rfl
  have hslot : (s.heard r p).slotOfTag r.hdr.phaseTag = s.slotOfTag r.hdr.phaseTag := by
    unfold State.slotOfTag State.slot State.phaseNat
    rw [hclock]
  have hout : (s.heard r p).planeOut r.hdr.len.toNat = false := by
    obtain ⟨peers, hfab⟩ := s.heard_fab r p
    unfold State.planeOut
    rw [hfab]
    exact hin
  have heq := State.receive_of_hears hears (fun t => t.notice r.hdr.len.toNat r.hdr.phaseTag)
  have hnotice : (s.heard r p).notice r.hdr.len.toNat r.hdr.phaseTag =
      (s.heard r p).losePlane r.hdr.len.toNat (s.slotOfTag r.hdr.phaseTag) := by
    unfold State.notice
    rw [hslot, if_pos hplane]
  rw [hnotice] at heq
  obtain ⟨hlost, hevent⟩ := losePlane_effect hout (s.slotOfTag r.hdr.phaseTag)
  have hkept := State.losePlane_hide 193 rfl (s.heard r p) r.hdr.len.toNat (s.slotOfTag r.hdr.phaseTag)
  have hmem := kept_mem hkept rfl rfl
  have hmem' := kept_mem (s.heard_hide r p) rfl rfl
  refine ⟨_, done_of_eq heq, hlost, ?_, hmem.trans hmem', (kept_run hkept rfl).trans (kept_run (s.heard_hide r p) rfl)⟩
  rw [hevent, s.heard_reg r p]
  unfold Reg.EVENT_RAW regAddr clsFabric
  omega

end

/-! ### A finished unit -/

theorem redFinish_of_more {key : Nat} {e : RedEntry} (h : (s.redState key).done.length < e.units) : s.redFinish key e = s := by
  unfold State.redFinish
  exact if_pos h

theorem redState_setRedState (s : State) (key : Nat) (x : RedState) : (s.setRedState key x).redState key = x := by
  unfold State.redState State.setRedState
  exact (tget_tput ..).trans (if_pos rfl)

theorem redLine_setRedState (s : State) (key : Nat) (x : RedState) (k n : Nat) :
    (s.setRedState key x).redLine k n = s.redLine k n := by
  unfold State.redLine State.setRedState
  rfl

/-- A unit of the second tier is stored at its place. -/
theorem redPut_of_tier {a : Nat} {bs : List Byte} (hspace : zSpace a = 1) :
    s.redPut a bs = s.writeMem unitReader 1 (zOff a) bs := by
  unfold State.redPut
  rw [hspace, if_neg (by decide)]

theorem redMapped_of_tier {a n : Nat} (hspace : zSpace a = 1) :
    s.redMapped a n = (zEndpoint a == s.moduleNum && decide (zOff a + n ≤ 2 ^ 40)) := by
  unfold State.redMapped State.ownMapped State.mapped
  rw [hspace]
  simp

theorem redWrite_of_tier {l : RedLine} {e : RedEntry} (hres : l.residueOk e.op = true)
    (hmapped : s.redMapped (e.unitAddr l.unit) (e.unitBytes l.unit) = true) (hspace : zSpace (e.unitAddr l.unit) = 1)
    (htakes : s.TierTakes (zOff (e.unitAddr l.unit)) (l.bytes e.op).1.length)
    (hmore : (s.redState l.entry).done.length + 1 < e.units) :
    (s.redWrite l e).redLine l.entry l.unit = none ∧
      (∀ a, byteAt (s.redWrite l e).mem.cells a =
        byteAt (setBytes s.mem.cells (lpKey (zOff (e.unitAddr l.unit))) (l.bytes e.op).1) a) ∧
      ((s.redWrite l e).redState l.entry).done = (s.redState l.entry).done ++ [l.unit] ∧
      (s.redWrite l e).reg (Reg.FABRIC_RED_UNITS_WRITTEN e.engine) =
        (s.reg (Reg.FABRIC_RED_UNITS_WRITTEN e.engine) + 1) % 2 ^ 32 := by
  have hreg (a : Nat) : (s.dropLine l.entry l.unit).reg a = s.reg a := reg_congr rfl a
  have hsame : s.SameTier (s.dropLine l.entry l.unit) := ⟨rfl, fun a _ => hreg a⟩
  have hdropped : (s.dropLine l.entry l.unit).redMapped (e.unitAddr l.unit) (e.unitBytes l.unit) = true := by
    rw [redMapped_of_tier hspace] at hmapped ⊢
    unfold State.moduleNum at *
    rw [hreg]
    exact hmapped
  obtain ⟨hstored, hbad⟩ := writeMem_tier (hsame.takes htakes) unitReader
  have hnone := redLine_dropLine s l.entry l.unit
  have hstate : (s.dropLine l.entry l.unit).redState l.entry = s.redState l.entry := rfl
  generalize hd : s.dropLine l.entry l.unit = d at *
  have hcells : d.mem.cells = s.mem.cells := by rw [← hd]; rfl
  unfold State.redWrite
  dsimp only
  rw [hd, hres, if_neg (by simp), hdropped, if_neg (by simp), redPut_of_tier hspace, hbad]
  dsimp only
  generalize (d.writeMem unitReader 1 (zOff (e.unitAddr l.unit)) (l.bytes e.op).1).s = w at hstored ⊢
  have hfab : w.fab = d.fab := kept_fab hstored.rest rfl
  generalize hv : ((w.bump (Reg.FABRIC_RED_UNITS_WRITTEN e.engine)).bumpBy (Reg.FABRIC_RED_NONFINITE e.engine) (l.bytes e.op).2) = v
  have hkept : v.hide 1 = w.hide 1 := by
    rw [← hv]
    exact (State.bumpBy_hide 1 rfl ..).trans (State.bump_hide 1 rfl ..)
  have hvfab : v.fab = d.fab := (kept_fab hkept rfl).trans hfab
  have hvmem := kept_mem hkept rfl rfl
  have hvstate : v.redState l.entry = s.redState l.entry := by
    rw [← hstate]
    unfold State.redState
    rw [hvfab]
  have hvreg : v.reg (Reg.FABRIC_RED_UNITS_WRITTEN e.engine) = (s.reg (Reg.FABRIC_RED_UNITS_WRITTEN e.engine) + 1) % 2 ^ 32 := by
    have hne : Reg.FABRIC_RED_UNITS_WRITTEN e.engine ≠ Reg.FABRIC_RED_NONFINITE e.engine := by
      unfold Reg.FABRIC_RED_UNITS_WRITTEN Reg.FABRIC_RED_NONFINITE regAddr
      omega
    have hmerge : Reg.FABRIC_RED_UNITS_WRITTEN e.engine % 2 ^ 16 ≠ mergeCounter := by
      unfold Reg.FABRIC_RED_UNITS_WRITTEN regAddr mergeCounter
      omega
    rw [← hv, reg_bumpBy, if_neg hne, reg_bump, if_pos rfl, hstored.reg _ hmerge, hreg]
  rw [redFinish_of_more (by rw [redState_setRedState, hvstate]; simpa using hmore)]
  refine ⟨?_, fun a => ?_, ?_, ?_⟩
  · rw [redLine_setRedState]
    exact (redLine_congr (by rw [hvfab]) ..).trans hnone
  · have hput := kept_mem (State.setRedState_hide 64 rfl v l.entry { v.redState l.entry with done := (v.redState l.entry).done ++ [l.unit] }) rfl rfl
    rw [hput, hvmem, hstored.bytes a, hcells]
  · rw [redState_setRedState, hvstate]
  · exact (reg_congr (kept_regs (State.setRedState_hide 64 rfl ..) rfl) _).trans hvreg

/-- Settles O45: a NOP is answered, a contribution opens a line, a finished unit is stored, a plane is given up. -/
theorem otherFrames : Obligations.OtherFrames := by
  refine ⟨fun s r p b hears hnext hlast hpartial hroom hlen h0 h2 h3 hreach hlow hhigh =>
      execControl_nop hears hnext hlast hpartial hroom hlen h0 h2 h3 hreach hlow hhigh,
    fun s r p b v e hears hnext hlen hoff hfits hv he hstep hopen hline hroom hmore hwaits => ?_,
    fun s u l e hfind he hres hmapped hspace htakes hmore => ?_,
    fun s r p hears hplane hin => execNotice_effect hears hplane hin⟩
  · obtain ⟨t, ht, htook, hmine, hmem, hrun⟩ :=
      execReduce_opens hears hnext hlen hoff hfits hv he hstep hopen hline hroom hmore hwaits
    obtain ⟨-, -, hcount⟩ := firstLine_place (redKey v (r.hdr.tag.toNat / 2 ^ 20)) (r.hdr.addr.toNat / 512) e.op b.data
    obtain ⟨hsums, hmax⟩ := firstLine_sums (redKey v (r.hdr.tag.toNat / 2 ^ 20)) (r.hdr.addr.toNat / 512) e.op b.data
    exact ⟨t, _, ht, htook, hmine, hcount, hsums, hmax, hmem, hrun⟩
  · have hunit : l.unit = u := by
      have h := List.find?_some hfind
      simp only [Bool.and_eq_true, beq_iff_eq] at h
      exact h.2
    subst hunit
    have hrelease : s.redRelease (l.entry % 4096) l.unit = s.redWrite l e := by
      unfold State.redRelease
      rw [Nat.mod_mod, hfind]
      dsimp only
      rw [he]
    obtain ⟨hnone, hbytes, hdone, hreg⟩ := redWrite_of_tier hres hmapped hspace htakes hmore
    refine ⟨_, done_of_eq hrelease, hnone, ?_, fun x hx => ?_, hdone, hreg⟩
    · exact (bytesAt_congr fun i _ => hbytes _).trans (bytesAt_setBytes_self ..)
    · rw [hbytes, byteAt_setBytes, if_neg hx]

end Sys2Proof.Machine

end

section

/-!
The registers a command may write: what each operation writes, from the writes of a register and the event of a block up.
-/

namespace Sys2Proof.Machine

variable {s t u : State} {l : List Nat}

/-- No register outside the list has changed. -/
structure State.Writes (s : State) (l : List Nat) (t : State) : Prop where
  reg : ∀ a, a ∉ l → t.reg a = s.reg a

/-! ### How writes add up -/

theorem State.Writes.refl (l : List Nat) (s : State) : s.Writes l s := ⟨fun _ _ => rfl⟩

theorem State.Writes.trans (h : s.Writes l t) (k : t.Writes l u) : s.Writes l u :=
  ⟨fun a ha => (k.reg a ha).trans (h.reg a ha)⟩

theorem State.Writes.of_regs (h : t.regs = s.regs) : s.Writes l t := ⟨fun a _ => reg_congr h a⟩

theorem State.Writes.keeps (h : s.Writes l t) (e : u.regs = t.regs) : s.Writes l u := h.trans (.of_regs e)

/-- An operation that leaves the registers. -/
theorem State.Writes.of_hide {m : Nat} (e : t.hide m = s.hide m) (h : m.testBit 0 = false) : s.Writes l t :=
  .of_regs (kept_regs e h)

theorem eventRegs_subset (cls inst a b : Nat) : eventRegs cls inst ⊆ a :: b :: eventRegs cls inst :=
  fun _ hx => List.mem_cons_of_mem a (List.mem_cons_of_mem b hx)

theorem State.Writes.ite {c : Prop} [Decidable c] (ht : s.Writes l t) (hu : s.Writes l u) : s.Writes l (if c then t else u) := by
  split
  · exact ht
  · exact hu

theorem State.Writes.foldl {α : Type} {f : State → α → State} (xs : List α) (s : State)
    (hf : ∀ (t : State), ∀ x ∈ xs, t.Writes l (f t x)) : s.Writes l (xs.foldl f s) := by
  induction xs generalizing s with
  | nil => exact .refl l s
  | cons x xs ih => exact (hf s x List.mem_cons_self).trans (ih _ fun t y hy => hf t y (List.mem_cons_of_mem x hy))

theorem State.Writes.setReg {a : Nat} (h : s.Writes l t) (ha : a ∈ l) (v : Nat) : s.Writes l (t.setReg a v) :=
  ⟨fun b hb => (reg_setReg_ne _ _ _ _ fun e : b = a => hb (by rw [e]; exact ha)).trans (h.reg b hb)⟩

theorem State.Writes.bump {a : Nat} (h : s.Writes l t) (ha : a ∈ l) : s.Writes l (t.bump a) := h.setReg ha _

theorem State.Writes.bumpBy {a : Nat} (h : s.Writes l t) (ha : a ∈ l) (n : Nat) : s.Writes l (t.bumpBy a n) := h.setReg ha _

theorem State.Writes.event {cls inst : Nat} (h : s.Writes l t) (hl : eventRegs cls inst ⊆ l) (bit a : Nat) :
    s.Writes l (t.event cls inst bit a) := by
  refine ⟨fun x hx => ?_⟩
  have hnot : x ∉ eventRegs cls inst := fun hmem => hx (hl hmem)
  unfold eventRegs at hnot
  simp only [List.mem_cons, List.not_mem_nil, or_false, not_or] at hnot
  obtain ⟨hraw, hlatch, hcounter, hlost⟩ := hnot
  exact (event_reg _ _ _ _ _ _ hraw hcounter hlatch hlost).trans (h.reg x hx)

theorem mem_eventRegs_iff {cls inst x : Nat} : x ∈ eventRegs cls inst ↔ x = Reg.EVENT_RAW cls inst ∨ x = Reg.EVENT_LATCH cls inst ∨
    x = Reg.COUNTER_0 cls inst ∨ x = Reg.QMGR_LOG_LOST := by
  unfold eventRegs
  simp only [List.mem_cons, List.not_mem_nil, or_false]

/-! ### Refusals -/

theorem writes_refuse {cls : Nat} (hl : eventRegs cls 0 ⊆ l) (s : State) (a : Nat) : s.Writes l (s.refuse cls a) :=
  (State.Writes.refl l s).event hl evRefused a

/-- The block of a register's address. -/
theorem block_of_regAddr {cls inst page off : Nat} (hcls : cls < 256) (hinst : inst < 256) (hpage : page < 16) (hoff : off < 4096) :
    fieldOf (regAddr cls inst page off) 31 24 = cls ∧ fieldOf (regAddr cls inst page off) 23 16 = inst := by
  refine ⟨(fieldOf_eq_div _ 24 7).trans ?_, (fieldOf_eq_div _ 16 7).trans ?_⟩
  · unfold regAddr
    omega
  · unfold regAddr
    omega

theorem writes_ignored {a cls inst : Nat} (hcls : fieldOf a 31 24 = cls) (hinst : fieldOf a 23 16 = inst)
    (hl : eventRegs cls inst ⊆ l) (s : State) : s.Writes l (s.ignored a).1 := by
  unfold State.ignored
  rw [hcls, hinst]
  exact (State.Writes.refl l s).event hl ..

theorem writes_changeSettings {cls : Nat} (hl : eventRegs cls 0 ⊆ l) (s : State) (a : Nat) (f : Settings → Settings) :
    s.Writes l (s.changeSettings cls a f).1 := by
  unfold State.changeSettings
  split
  · exact writes_refuse hl s a
  · exact .of_hide (State.newSettings_hide 1024 rfl ..) rfl

theorem writes_pairRefused (hl : eventRegs clsQmgr 0 ⊆ l) (s : State) (q : Nat) : s.Writes l (s.pairRefused q) :=
  (State.Writes.refl l s).event hl ..

/-! ### Safety -/

theorem writes_sendReport (s : State) (r : Report) : s.Writes [Reg.SAFETY_REPORTS_SENT] (s.sendReport r) := by
  have hsent (ds : List Nat) : s.Writes [Reg.SAFETY_REPORTS_SENT]
      (ds.foldl (fun t d => (t.sendMgmt d true 0 (s.reportBytes r)).bump Reg.SAFETY_REPORTS_SENT) s) :=
    .foldl ds s fun t d _ => .bump (.of_hide (State.sendMgmt_hide 4224 rfl ..) rfl) (List.mem_singleton_self _)
  unfold State.sendReport
  dsimp only
  split
  · exact .refl _ s
  · generalize hds : ((s.receivers.map (·.2)).filter s.safety.joined.contains).dedup = ds
    exact .ite ((hsent ds).keeps rfl) ((hsent ds).keeps rfl)

theorem writes_reportReply (s : State) (receiver status : Nat) (reqId : Word) :
    s.Writes [Reg.SAFETY_REPORTS_ACKED] (s.reportReply receiver status reqId) := by
  unfold State.reportReply
  split
  · next r _ _ _ _ =>
    have hacked : s.Writes [Reg.SAFETY_REPORTS_ACKED]
        (if r.acked then s else (s.modReport r (fun q => { q with acked := true })).bump Reg.SAFETY_REPORTS_ACKED) :=
      .ite (.refl _ s) (.bump (.of_hide (State.modReport_hide 256 rfl ..) rfl) (List.mem_singleton_self _))
    refine .ite (.refl _ s) ?_
    exact .ite (hacked.keeps rfl) hacked
  · exact .refl _ s

theorem writes_parlourRestart (s : State) : s.Writes [Reg.SAFETY_REPORTS_SENT, Reg.SAFETY_REPORTS_ACKED] s.parlourRestart := by
  unfold State.parlourRestart
  exact .setReg (.setReg (.of_regs (by rfl)) (by simp) 0) (by simp) 0

theorem writes_stopAcked (s : State) : s.Writes [Reg.SAFETY_BLOCK_TIME_MAX] s.stopAcked := by
  unfold State.stopAcked
  split
  · dsimp only
    exact .setReg (.of_regs (by rfl)) (List.mem_singleton_self _) _
  · exact .refl _ s

/-! ### Queues and messages -/

theorem writes_queueEnable (s : State) (q word0 : Nat) :
    s.Writes (Reg.QMGR_QUEUE_ERRORS :: eventRegs clsQmgr 0) (s.queueEnable q word0) := by
  have hl : eventRegs clsQmgr 0 ⊆ Reg.QMGR_QUEUE_ERRORS :: eventRegs clsQmgr 0 := List.subset_cons_self ..
  unfold State.queueEnable
  refine .ite (writes_pairRefused hl s q) (.ite (.of_regs (by rfl)) (.ite (.of_regs (by rfl)) ?_))
  refine .trans ?_ (writes_pairRefused hl _ q)
  exact .bump (.of_regs (by rfl)) List.mem_cons_self

/-- The counters of messages served and turned away. -/
def messageRegs : List Nat := [Reg.QMGR_CONTROL_MSGS, Reg.QMGR_BUSY_REPLIES]

/-- A message writes the counters of messages and what its action writes. -/
theorem writes_serve (hl : messageRegs ⊆ l) (f : Session) (opcode : Nat) (early : Bool) {act : State → Answer}
    (hact : s.Writes l (act s).s) : s.Writes l (s.serve f opcode early act) := by
  have hcounts (v : State) {a : Nat} (ha : a ∈ messageRegs) : v.Writes l (v.bumpQmgr a) := by
    unfold State.bumpQmgr
    exact .ite ((State.Writes.refl l v).bump (hl ha)) (.refl l v)
  have hreply (v : State) (n : Nat) (a : Answer) : v.Writes l (v.sendReply f opcode n a) :=
    .of_hide (State.sendReply_hide 4288 rfl ..) rfl
  unfold State.serve
  refine .ite (.refl l s) (.ite ?_ (.ite ?_ ?_))
  · exact (State.Writes.of_hide (State.draw_hide 128 rfl s) rfl).trans (hreply ..)
  · exact (hcounts s (by simp [messageRegs])).trans (hreply ..)
  · refine State.Writes.trans (.ite ?_ hact) (hreply ..)
    exact hact.trans (hcounts _ (by simp [messageRegs]))

theorem writes_doorbellAct (hl : Reg.QMGR_QUEUE_ERRORS :: eventRegs clsQmgr 0 ⊆ l) (s : State) (completion : Bool) (q ix : Nat) :
    s.Writes l (s.doorbellAct completion q ix).s := by
  obtain ⟨herrors, hevent⟩ := List.cons_subset.mp hl
  have hdoorbell : s.Writes l (s.doorbell completion q ix).1 := by
    unfold State.doorbell
    dsimp only
    generalize (!pairReserved q && (s.pair q).enable && if completion then (s.pair q).headOk ix else (s.pair q).tailOk ix) = ok
    cases ok
    case true => exact .of_regs (by rfl)
    case false => exact ((State.Writes.refl l s).bump herrors).trans (writes_pairRefused hevent _ q)
  unfold State.doorbellAct
  split
  · exact .refl l s
  · split
    · exact .refl l s
    · exact hdoorbell

/-! ### Page 0, settings of blocks -/

theorem writes_pailConfig (s : State) (cls inst v : Nat) :
    s.Writes [Reg.PAIL_CONFIG cls inst, Reg.PAIL_LEVEL cls inst] (s.pailConfig cls inst v) := by
  have hconfig : s.Writes [Reg.PAIL_CONFIG cls inst, Reg.PAIL_LEVEL cls inst] (s.setReg (Reg.PAIL_CONFIG cls inst) (v &&& 0x1FFFFF)) :=
    (State.Writes.refl _ s).setReg (by simp) _
  unfold State.pailConfig
  exact .ite (hconfig.setReg (by simp) _) hconfig

theorem writes_armFlip {b : Blk} (hstands : blkStands b = true) (s : State) (hi : Nat) :
    s.Writes (Reg.FLIP_MASK_HI b.cls b.inst :: flipSelect b.cls b.inst :: eventRegs b.cls b.inst) (s.armFlip b.cls b.inst hi).1 := by
  have hl : eventRegs b.cls b.inst ⊆ Reg.FLIP_MASK_HI b.cls b.inst :: flipSelect b.cls b.inst :: eventRegs b.cls b.inst :=
    eventRegs_subset ..
  have hinst : b.inst < classInstances b.cls := by
    unfold blkStands pageRows at hstands
    by_contra hnot
    rw [if_neg hnot] at hstands
    exact absurd hstands (by decide)
  unfold State.armFlip
  split
  · exact .refl _ s
  · split
    · next hclass =>
      obtain ⟨hone, -⟩ := Bool.and_eq_true_iff.mp hclass
      have hsmall : b.cls < 256 ∧ b.inst < 256 := by
        obtain h | h := Bool.or_eq_true_iff.mp hone
        · rw [eq_of_beq h] at hinst ⊢
          exact ⟨by decide, hinst.trans (by decide)⟩
        · rw [eq_of_beq h] at hinst ⊢
          exact ⟨by decide, hinst.trans (by decide)⟩
      obtain ⟨hcls, hin⟩ := block_of_regAddr hsmall.1 hsmall.2 (page := 0) (off := 0x028) (by decide) (by decide)
      exact writes_ignored hcls hin hl s
    · exact ((State.Writes.refl _ s).setReg List.mem_cons_self hi).setReg (List.mem_cons_of_mem _ List.mem_cons_self) _

theorem writes_recode (s : State) (st : Nat) (before : Nat → Option Nat) : s.Writes l (s.recode st before) :=
  .of_hide (State.recode_hide 16384 rfl s st before) rfl

theorem writes_codeRegionWrite (s : State) (st : Fin 12) (i : Fin 64) (v : Nat) :
    s.Writes (Reg.HBM_CODE_REGION st i :: eventRegs clsHbm st) (s.codeRegionWrite st i v).1 := by
  unfold State.codeRegionWrite
  dsimp only
  split
  · have hblock : fieldOf (Reg.HBM_CODE_REGION st i) 31 24 = clsHbm ∧ fieldOf (Reg.HBM_CODE_REGION st i) 23 16 = st := by
      unfold Reg.HBM_CODE_REGION clsHbm
      refine ⟨(fieldOf_eq_div _ 24 7).trans ?_, (fieldOf_eq_div _ 16 7).trans ?_⟩
      · unfold regAddr
        omega
      · unfold regAddr
        omega
    exact writes_ignored hblock.1 hblock.2 (List.subset_cons_self ..) s
  · dsimp only
    refine .trans ?_ (writes_recode ..)
    exact (State.Writes.refl _ s).setReg List.mem_cons_self _

theorem writes_numberWrite (s : State) (v : Nat) : s.Writes [Reg.FABRIC_MODULE_NUMBER 0] (s.numberWrite v).1 := by
  unfold State.numberWrite
  split
  · exact .refl _ s
  · refine .trans ?_ (.of_hide (State.joinTwin_hide 4288 rfl _) rfl)
    exact ((State.Writes.refl _ s).setReg (List.mem_singleton_self _) _).keeps rfl

theorem writes_portLoses {p : Nat} (hl : Reg.PORT_DOWN_EVENTS p :: eventRegs clsPort p ⊆ l) (s : State) (w : LinkPart) :
    s.Writes l (s.portLoses p w) := by
  obtain ⟨hdown, hevent⟩ := List.cons_subset.mp hl
  unfold State.portLoses
  exact .ite (.event (.bump (.of_regs (by rfl)) hdown) hevent ..) (.of_regs (by rfl))

theorem writes_portConfig (s : State) (p : Fin 8) (v : Nat) :
    s.Writes (Reg.PORT_PORT_CONFIG p :: Reg.PORT_DOWN_EVENTS p :: eventRegs clsPort p) (s.portConfig p v).1 := by
  have hblock : fieldOf (Reg.PORT_PORT_CONFIG p) 31 24 = clsPort ∧ fieldOf (Reg.PORT_PORT_CONFIG p) 23 16 = p :=
    block_of_regAddr (by decide) (by omega) (by decide) (by decide)
  have hset (n : Nat) : s.Writes (Reg.PORT_PORT_CONFIG p :: Reg.PORT_DOWN_EVENTS p :: eventRegs clsPort p)
      (if bitOf v 8 then s.setReg (Reg.PORT_PORT_CONFIG p) n else (s.setReg (Reg.PORT_PORT_CONFIG p) n).portDown p) :=
    .ite ((State.Writes.refl _ s).setReg List.mem_cons_self n)
      (((State.Writes.refl _ s).setReg List.mem_cons_self n).trans (writes_portLoses (List.subset_cons_self ..) _ .link))
  unfold State.portConfig
  dsimp only
  split
  · exact (hset _).trans (writes_ignored hblock.1 hblock.2 (eventRegs_subset ..) _)
  · exact hset _

/-! ### Firmware, identity and settings -/

theorem writes_stageAppend (s : State) (data : List Word) :
    s.Writes (Reg.BOOT_PARLOUR_STAGE_OFFSET :: eventRegs clsBoot 0) (s.stageAppend data) := by
  unfold State.stageAppend
  exact .ite (writes_refuse (List.subset_cons_self ..) s _) (.setReg (.of_regs (by rfl)) List.mem_cons_self _)

theorem writes_activateArm (s : State) (hi : Word) :
    s.Writes (Reg.BOOT_ACTIVATE_AT_PHASE_HI :: eventRegs clsBoot 0) (s.activateArm hi) := by
  have hset : s.Writes (Reg.BOOT_ACTIVATE_AT_PHASE_HI :: eventRegs clsBoot 0) (s.setReg Reg.BOOT_ACTIVATE_AT_PHASE_HI hi.toNat) :=
    (State.Writes.refl _ s).setReg List.mem_cons_self _
  unfold State.activateArm
  exact .ite (hset.keeps rfl) (hset.trans (writes_refuse (List.subset_cons_self ..) _ _))

theorem writes_ackIdentity (s : State) : s.Writes (eventRegs clsQmgr 0) s.ackIdentity.1 := by
  unfold State.ackIdentity
  dsimp only
  split
  · exact .of_regs (by rfl)
  · split
    · split
      · exact writes_changeSettings (List.Subset.refl _) s _ _
      · refine .trans ?_ (.of_hide (State.awaitTwin_hide 5248 rfl ..) rfl)
        exact (writes_changeSettings (List.Subset.refl _) s _ _).keeps rfl
    · exact .of_regs (by rfl)

theorem writes_safeRelease (s : State) (v : Word) : s.Writes (eventRegs clsSafety 0) (s.safeRelease v).1 := by
  unfold State.safeRelease
  split
  · exact .of_regs (by rfl)
  · exact (State.Writes.refl _ s).event (List.Subset.refl _) ..

theorem writes_svnCommit (s : State) (v : Word) : s.Writes (eventRegs clsBoot 0) (s.svnCommit v).1 := by
  unfold State.svnCommit
  dsimp only
  split
  · exact .of_regs (by rfl)
  · exact writes_refuse (List.Subset.refl _) s _

theorem writes_bindCmd (s : State) : s.Writes (eventRegs clsBoot 0) s.bindCmd.1 := by
  unfold State.bindCmd
  dsimp only
  split
  · exact writes_refuse (List.Subset.refl _) s _
  · split
    · exact writes_refuse (List.Subset.refl _) s _
    · split
      · exact writes_changeSettings (List.Subset.refl _) s _ _
      · exact (writes_changeSettings (List.Subset.refl _) s _ _).trans (.of_hide (State.awaitTwin_hide 5248 rfl ..) rfl)

theorem writes_unbindCmd (s : State) : s.Writes (eventRegs clsBoot 0) s.unbindCmd.1 := by
  unfold State.unbindCmd
  dsimp only
  split
  · exact writes_refuse (List.Subset.refl _) s _
  · split
    · exact writes_changeSettings (List.Subset.refl _) s _ _
    · exact (writes_changeSettings (List.Subset.refl _) s _ _).keeps rfl

/-! ### Reads that write -/

theorem writes_readReg (s : State) (a : Nat) : s.Writes [a, Reg.PHASE_PHASE_HI] (s.readReg a).2 := by
  unfold State.readReg
  split
  · exact .refl _ s
  · dsimp only
    split
    · exact (State.Writes.refl _ s).setReg (by simp) _
    · split
      · exact .refl _ s
      · exact (State.Writes.refl _ s).setReg (by simp) _

/-! ### Base dies -/

theorem writes_setSnap (ha : Reg.UPD_SNAP_STATUS ∈ l) (h : s.Writes l t) (hi lo v : Nat) : s.Writes l (t.setSnap hi lo v) :=
  h.setReg ha _

theorem writes_snapRequest (s : State) (id : Nat) :
    s.Writes (Reg.UPD_SNAP_STATUS :: eventRegs clsUpd 0) (s.snapRequest id) := by
  have hset {v : State} (h : s.Writes (Reg.UPD_SNAP_STATUS :: eventRegs clsUpd 0) v) (hi lo n : Nat) :=
    writes_setSnap List.mem_cons_self h hi lo n
  unfold State.snapRequest
  refine .ite (.refl _ s) (.ite ?_ ?_)
  · exact (hset (.refl _ s) 19 19 1).event (List.subset_cons_self ..) ..
  · exact (hset (hset (hset (.refl _ s) 19 19 0) 16 16 1) 15 0 id).keeps rfl

theorem writes_shipAck (s : State) (st shard : Nat) : s.Writes [Reg.UPD_SNAP_STATUS] (s.shipAck st shard) := by
  unfold State.shipAck
  split
  · exact .refl _ s
  · exact .ite (.of_regs (by rfl)) (writes_setSnap (List.mem_singleton_self _) (.of_regs (by rfl)) 18 18 0)

theorem writes_cmdSubmit_sep (s : State) (i : Fin 12) :
    s.Writes (Reg.SEP_CMD_STATUS i :: Reg.SEP_CMD_FAULT_ADDR i :: eventRegs clsSep i) (s.cmdSubmit clsSep i).1 := by
  have hblock : fieldOf (Reg.SEP_CMD_SUBMIT i) 31 24 = clsSep ∧ fieldOf (Reg.SEP_CMD_SUBMIT i) 23 16 = i :=
    block_of_regAddr (by decide) (by omega) (by decide) (by decide)
  unfold State.cmdSubmit
  dsimp only
  rw [show (clsSep == clsSep) = true from rfl]
  simp only [↓reduceIte]
  split
  · exact writes_ignored hblock.1 hblock.2 (eventRegs_subset ..) s
  · exact .keeps (.setReg (a := Reg.SEP_CMD_FAULT_ADDR i) (.setReg (a := Reg.SEP_CMD_STATUS i) (.refl _ s) (by simp) 0) (by simp) 0) rfl

theorem writes_cmdSubmit_upd (s : State) (i : Fin 12) :
    s.Writes (Reg.UPD_CMD_STATUS i :: Reg.UPD_CMD_FAULT_ADDR i :: eventRegs clsUpd i) (s.cmdSubmit clsUpd i).1 := by
  have hblock : fieldOf (Reg.UPD_CMD_SUBMIT i) 31 24 = clsUpd ∧ fieldOf (Reg.UPD_CMD_SUBMIT i) 23 16 = i :=
    block_of_regAddr (by decide) (by omega) (by decide) (by decide)
  unfold State.cmdSubmit
  dsimp only
  rw [show (clsUpd == clsSep) = false from rfl]
  simp only [Bool.false_eq_true, ↓reduceIte]
  split
  · exact writes_ignored hblock.1 hblock.2 (eventRegs_subset ..) s
  · exact .keeps (.setReg (a := Reg.UPD_CMD_FAULT_ADDR i) (.setReg (a := Reg.UPD_CMD_STATUS i) (.refl _ s) (by simp) 0) (by simp) 0) rfl

end Sys2Proof.Machine

end

section

/-!
The registers a command may write: the engines, the ports and the supplies; and the frame of registers.
-/

namespace Sys2Proof.Machine

variable {s t u : State} {l : List Nat}

/-! ### Time and the cores -/

theorem writes_syncInterval (s : State) :
    s.Writes [Reg.PHASE_OFFSET, Reg.FABRIC_PTP_OFFSET 0, Reg.FABRIC_PTP_OFFSET 1, Reg.POWER_START_MS] s.syncInterval := by
  have hshown (o : Option Int) :
      s.Writes [Reg.PHASE_OFFSET, Reg.FABRIC_PTP_OFFSET 0, Reg.FABRIC_PTP_OFFSET 1, Reg.POWER_START_MS] (s.showOffsets o) := by
    unfold State.showOffsets
    refine .trans ?_ (.foldl [0, 1] _ fun v p hp => ?_)
    · split
      · exact .setReg (.refl _ s) (by simp) _
      · exact .refl _ s
    · split
      · refine .setReg (.refl _ v) ?_ _
        obtain rfl | rfl : p = 0 ∨ p = 1 := by simpa using hp
        · simp
        · simp
      · exact .refl _ v
  unfold State.syncInterval
  split
  · exact (hshown _).keeps rfl
  · exact .refl _ s

theorem writes_startSucceeded (hl : Reg.POWER_START_MS ∈ l) (s : State) : s.Writes l s.startSucceeded := by
  unfold State.startSucceeded
  refine .setReg ?_ hl _
  refine State.Writes.keeps ?_ rfl
  dsimp only
  split
  · exact .of_regs (by rfl)
  · exact .of_regs (by rfl)

theorem writes_stallStart (s : State) (c : Fin 64) (cause : StallCause) :
    s.Writes [Reg.CORE_STALL_EVENTS c, Reg.CORE_BANK_CONFLICTS c, Reg.CORE_CONFLICT_BANK c, Reg.CORE_ENTRY_UNDERRUNS c,
      Reg.QUARTER_NOC_LATE_BLOCKS (c / 16), Reg.QUARTER_NOC_CRC_RESENDS (c / 16), Reg.QUARTER_NOC_RETRY_FULL (c / 16)]
      (s.stallStart c cause) := by
  generalize hL : [Reg.CORE_STALL_EVENTS c, Reg.CORE_BANK_CONFLICTS c, Reg.CORE_CONFLICT_BANK c, Reg.CORE_ENTRY_UNDERRUNS c,
    Reg.QUARTER_NOC_LATE_BLOCKS (c / 16), Reg.QUARTER_NOC_CRC_RESENDS (c / 16), Reg.QUARTER_NOC_RETRY_FULL (c / 16)] = L
  have hcause (v : State) : v.Writes L (v.countCause c cause) := by
    rw [← hL]
    cases cause with
    | bankConflict b => exact .setReg (.bump (.refl _ v) (by simp)) (by simp) _
    | lateBlock n => exact .bumpBy (.bump (.refl _ v) (by simp)) (by simp) _
    | crcResend => exact .bump (.refl _ v) (by simp)
    | emptyEntry => exact .bump (.refl _ v) (by simp)
    | drainQueue => exact .refl _ v
  unfold State.stallStart
  refine State.Writes.keeps (.trans ?_ (hcause _)) rfl
  refine .bump (.of_regs (by rfl)) ?_
  rw [← hL]
  exact List.mem_cons_self

theorem writes_pail {cls inst : Nat} (hl : Reg.PAIL_LEVEL cls inst :: eventRegs cls inst ⊆ l) (s : State) (a : Nat) :
    s.Writes l (s.pail cls inst a) := by
  obtain ⟨hlevel, hevent⟩ := List.cons_subset.mp hl
  unfold State.pail
  exact .ite ((State.Writes.refl l s).setReg hlevel _) (((State.Writes.refl l s).setReg hlevel _).event hevent ..)

theorem writes_stallClear (s : State) (c : Nat) (cause : StallCause) :
    s.Writes (Reg.PAIL_LEVEL clsCore c :: eventRegs clsCore c) (s.stallClear c cause) := by
  unfold State.stallClear
  dsimp only
  split
  · exact .refl _ s
  · split
    · unfold State.refetched State.pailHits
      refine .trans ?_ (.foldl _ _ fun v _ _ => writes_pail (List.Subset.refl _) v 0)
      exact .of_regs (by rfl)
    · exact .of_regs (by rfl)

theorem writes_passSwap (s : State) (c : Nat) :
    s.Writes [Reg.CORE_LOAD_BUBBLES c, Reg.CORE_PEELED_PASSES c, Reg.CORE_PEEL_LINK_PASSES c, Reg.CORE_SCATTER_PASSES c]
      (s.passSwap c) := by
  generalize hL : [Reg.CORE_LOAD_BUBBLES c, Reg.CORE_PEELED_PASSES c, Reg.CORE_PEEL_LINK_PASSES c, Reg.CORE_SCATTER_PASSES c] = L
  have hbubbles (v : State) (g : Seg) : v.Writes L (v.bubbles c g) := by
    rw [← hL]
    unfold State.bubbles
    split
    · exact .refl _ v
    · exact .bumpBy (.refl _ v) (by simp) _
  have hlink (v : State) (p : Pt) (d : Desc) : v.Writes L (if p.peel then v.bump (Reg.CORE_PEEL_LINK_PASSES c)
      else if d.kind = .scatter then v.bump (Reg.CORE_SCATTER_PASSES c) else v) := by
    rw [← hL]
    exact .ite (.bump (.refl _ v) (by simp)) (.ite (.bump (.refl _ v) (by simp)) (.refl _ v))
  have hpeeled (v : State) (d : Desc) : v.Writes L (if d.modes.peeled then v.bump (Reg.CORE_PEELED_PASSES c) else v) := by
    rw [← hL]
    exact .ite (.bump (.refl _ v) (by simp)) (.refl _ v)
  unfold State.passSwap
  split
  · exact .refl _ s
  · split
    · split
      · exact (((hbubbles s _).trans (hlink _ _ _)).trans (hpeeled _ _)).trans (.of_hide (State.setSeg_hide 4 rfl ..) rfl)
      · exact .refl _ s
    · exact .refl _ s

theorem writes_fetchComplete (s : State) (id : Nat) : s.Writes ((List.range 16).map Reg.COPY_REQUESTS) (s.fetchComplete id) := by
  unfold State.fetchComplete
  split
  · exact .refl _ s
  · next r _ =>
    split
    · exact .refl _ s
    · have hcount (v : State) : v.Writes ((List.range 16).map Reg.COPY_REQUESTS)
          (if r.engine < 16 then v.bump (Reg.COPY_REQUESTS r.engine) else v) := by
        split
        · next hlt => exact (State.Writes.refl _ v).bump (List.mem_map_of_mem (List.mem_range.mpr hlt))
        · exact .refl _ v
      dsimp only
      split
      · refine .trans ?_ (.of_hide (State.requestDone_hide 4 rfl ..) rfl)
        exact .trans (.of_regs (by rfl)) (hcount _)
      · exact .trans (.of_regs (by rfl)) (hcount _)

/-! ### Ports and planes -/

theorem writes_twinLost (s : State) : s.Writes (eventRegs clsFabric 0) s.twinLost := by
  unfold State.twinLost
  split
  · exact .refl _ s
  · exact .ite ((State.Writes.refl _ s).event (List.Subset.refl _) ..) (.refl _ s)

theorem writes_portUp (s : State) (p : Nat) : s.Writes (eventRegs clsPort p) (s.portUp p).joinTwin := by
  refine .trans ?_ (.of_hide (State.joinTwin_hide 4288 rfl _) rfl)
  unfold State.portUp
  split
  · exact .event (.of_regs (by rfl)) (List.Subset.refl _) ..
  · exact .refl _ s

theorem writes_losePlane (s : State) (plane a : Nat) : s.Writes (eventRegs clsFabric plane) (s.losePlane plane a) := by
  unfold State.losePlane
  dsimp only
  split
  · exact .event (.ite (.of_regs (by rfl)) (.of_regs (by rfl))) (List.Subset.refl _) ..
  · exact .of_regs (by rfl)

theorem writes_planeFails (s : State) (plane : Nat) : s.Writes (eventRegs clsFabric plane) (s.planeFails plane) := by
  unfold State.planeFails
  exact .ite (.refl _ s) ((writes_losePlane s ..).trans (.of_hide (State.sendNotices_hide 64 rfl ..) rfl))

theorem writes_refclkPortLoss (s : State) (c : Nat) :
    s.Writes ((List.range 4).flatMap (fun i => Reg.PORT_DOWN_EVENTS (4 * c + i) :: eventRegs clsPort (4 * c + i)))
      ((List.range 4).foldl (fun t i => t.portDown (4 * c + i)) s) :=
  .foldl _ s fun v _ hi => writes_portLoses (fun _ hx => List.mem_flatMap.mpr ⟨_, hi, hx⟩) v .link

/-! ### Frames -/

/-- A frame writes the counters of its port and what is done with it. -/
theorem writes_receive {r : Rx} (hl : receiveRegs r.port ⊆ l) (type : Nat) {act : State → State}
    (hact : ∀ v : State, v.Writes l (act v)) (s : State) : s.Writes l (s.receive type r act) := by
  have hcounted : s.Writes l (((s.bumpBy (Reg.PORT_FEC_CORRECTED r.port) r.fecFixed).bumpBy (Reg.PORT_FEC_UNCORRECTED r.port)
      r.fecBad).bump (Reg.PORT_FRAMES_RX r.port)) :=
    .bump (.bumpBy (.bumpBy (.refl l s) (hl (by simp [receiveRegs])) _) (hl (by simp [receiveRegs])) _) (hl (by simp [receiveRegs]))
  unfold State.receive
  refine .ite (.refl l s) ?_
  dsimp only
  generalize ((s.bumpBy (Reg.PORT_FEC_CORRECTED r.port) r.fecFixed).bumpBy (Reg.PORT_FEC_UNCORRECTED r.port)
    r.fecBad).bump (Reg.PORT_FRAMES_RX r.port) = v at hcounted ⊢
  split
  · exact .bump hcounted (hl (by simp [receiveRegs]))
  · next peer _ =>
    have hnoted : s.Writes l (v.modPeer peer.num peer.host peer.plane (fun x => x.took r)) :=
      hcounted.trans (.of_hide (State.modPeer_hide 64 rfl ..) rfl)
    refine .ite (.bump hcounted (hl (by simp [receiveRegs]))) (.ite (.bump hcounted (hl (by simp [receiveRegs]))) ?_)
    refine .ite (.bump hnoted (hl (by simp [receiveRegs]))) (.ite (.bump hnoted (hl (by simp [receiveRegs]))) ?_)
    exact hnoted.trans (hact _)

theorem writes_grantAll {plane : Nat} (hl : Reg.FABRIC_GRANTS_ISSUED plane ∈ l) (s : State) : s.Writes l (s.grantAll plane) := by
  unfold State.grantAll
  dsimp only
  split
  · exact .refl l s
  · refine .trans (.foldl _ s fun v _ _ => ?_) (.foldl _ _ fun v c _ => ?_)
    · split
      · exact .refl l v
      · exact .foldl _ v fun w c _ => .of_hide (State.grantOne_hide 64 rfl ..) rfl
    · split
      · exact .refl l v
      · refine .trans ?_ (.of_hide (State.sendBare_hide 64 rfl ..) rfl)
        refine .bump (.trans ?_ (.of_hide (State.setCredit_hide 64 rfl ..) rfl)) hl
        exact .of_regs (by rfl)

theorem writes_creditReq {plane : Nat} (hl : Reg.FABRIC_GRANTS_ISSUED plane ∈ l) (s : State) (peer : Nat) (host : Bool) :
    s.Writes l (s.creditReq peer host plane) := by
  unfold State.creditReq
  exact .trans (.of_hide (State.setCredit_hide 64 rfl ..) rfl) (writes_grantAll hl _)

/-! ### Frames sent -/

theorem bestOffer_mem {os : List Offer} {o : Offer} (h : bestOffer os = some o) : o ∈ os := by
  induction os generalizing o with
  | nil => cases h
  | cons x xs ih =>
    unfold bestOffer at h
    split at h
    · cases h
      exact List.mem_cons_self
    · next b hb =>
      split at h
      · cases h
        exact List.mem_cons_self
      · cases h
        exact List.mem_cons_of_mem x (ih hb)

theorem flow_of_offers {p : Nat} {f : TxFlow} {o : Offer} (h : o ∈ s.offers p f) : o.flow = f.id := by
  unfold State.offers at h
  dsimp only at h
  obtain h | h := List.mem_append.mp h
  · obtain h | h := List.mem_append.mp h
    · split at h
      · split at h
        · rw [List.mem_singleton.mp h]
        · cases h
      · cases h
    · split at h
      · cases h
      · split at h
        · rw [List.mem_singleton.mp h]
        · cases h
  · unfold State.creditOffer at h
    dsimp only at h
    split at h
    · rw [List.mem_singleton.mp h]
    · cases h

/-- The registers of frames sent by a port. -/
def sendRegs (p : Nat) : List Nat :=
  (List.range 2).flatMap (fun c => [Reg.FABRIC_BLOCKS_SENT c, Reg.FABRIC_BLOCKS_RESENT c, Reg.FABRIC_SCHED_RESENDS c]) ++
    [Reg.PORT_FRAMES_TX p, Reg.PORT_SCHED_FRAMES p]

theorem mem_sendRegs_of_plane {p c x : Nat} (hc : c < 2)
    (hx : x ∈ [Reg.FABRIC_BLOCKS_SENT c, Reg.FABRIC_BLOCKS_RESENT c, Reg.FABRIC_SCHED_RESENDS c]) : x ∈ sendRegs p :=
  List.mem_append_left _ (List.mem_flatMap.mpr ⟨c, List.mem_range.mpr hc, hx⟩)

theorem writes_countFrame {plane : Nat} (hplane : plane < 2) (s : State) (p : Nat) (bs : List TxBlock) (again : Bool) :
    s.Writes (sendRegs p) (s.countFrame p plane bs again) := by
  have hport {x : Nat} (hx : x ∈ [Reg.PORT_FRAMES_TX p, Reg.PORT_SCHED_FRAMES p]) : x ∈ sendRegs p := List.mem_append_right _ hx
  unfold State.countFrame
  dsimp only
  have hframes : s.Writes (sendRegs p) (s.bump (Reg.PORT_FRAMES_TX p)) := .bump (.refl _ s) (hport (by simp))
  generalize s.bump (Reg.PORT_FRAMES_TX p) = v at hframes
  generalize (bs.filter (fun b => b.cargo.hdr.nblk != 0)).length = n
  have hblocks : s.Writes (sendRegs p)
      (if again then v.bumpBy (Reg.FABRIC_BLOCKS_RESENT plane) n else v.bumpBy (Reg.FABRIC_BLOCKS_SENT plane) n) :=
    .ite (.bumpBy hframes (mem_sendRegs_of_plane hplane (by simp)) n) (.bumpBy hframes (mem_sendRegs_of_plane hplane (by simp)) n)
  generalize (if again then v.bumpBy (Reg.FABRIC_BLOCKS_RESENT plane) n else v.bumpBy (Reg.FABRIC_BLOCKS_SENT plane) n) = w at hblocks
  have hsched (c : Bool) : s.Writes (sendRegs p) (if c then w.bump (Reg.PORT_SCHED_FRAMES p) else w) :=
    .ite (.bump hblocks (hport (by simp))) hblocks
  exact .ite (.bumpBy (hsched _) (mem_sendRegs_of_plane hplane (by simp)) n) (hsched _)

theorem writes_frameSend (s : State) (p : Fin 8) : s.Writes (sendRegs p) (s.frameSend p) := by
  unfold State.frameSend
  refine .ite (.refl _ s) ?_
  dsimp only
  split
  · next o ho =>
    have hplane : s.livePlane o.flow.plane < 2 := by
      obtain ⟨f, hf, hof⟩ := List.mem_flatMap.mp (bestOffer_mem ho)
      have hport := (List.mem_filter.mp hf).2
      simp only [Bool.and_eq_true, beq_iff_eq] at hport
      have hflow := hport.1.1
      rw [flow_of_offers hof]
      unfold State.flowPort portFor at hflow
      omega
    unfold State.putFrame
    dsimp only
    refine State.Writes.keeps (.trans (.trans ?_ (writes_countFrame hplane ..)) (.of_hide (State.sendFrame_hide 4288 rfl ..) rfl)) rfl
    refine State.Writes.trans ?_ (.of_hide (State.setTx_hide 64 rfl ..) rfl)
    split
    · exact .of_hide (State.setCredit_hide 64 rfl ..) rfl
    · split
      · exact .of_hide (State.setCredit_hide 64 rfl ..) rfl
      · exact .refl _ s
  · exact .refl _ s

/-! ### Supplies -/

theorem writes_warn (s : State) : s.Writes [Reg.POWER_SUPPLY_WARNINGS] s.warn := by
  have hcount : s.Writes [Reg.POWER_SUPPLY_WARNINGS] (s.enterHold.bump Reg.POWER_SUPPLY_WARNINGS) :=
    .bump (.of_hide (State.enterHold_hide 516 rfl s) rfl) (List.mem_singleton_self _)
  unfold State.warn
  generalize s.enterHold.bump Reg.POWER_SUPPLY_WARNINGS = v at hcount ⊢
  exact hcount.keeps rfl

theorem writes_droopTrip (s : State) (q : Nat) : s.Writes [Reg.POWER_DROOP_EVENTS, Reg.POWER_LAST_DROOP] (s.droopTrip q) := by
  unfold State.droopTrip
  refine .ite (.refl _ s) ?_
  refine .trans (.trans ?_ (.foldl _ _ fun v h _ => ?_)) (.foldl _ _ fun v c _ => ?_)
  · exact .setReg (.bump (.of_regs (by rfl)) (by simp)) (by simp) _
  · exact .of_hide (State.setHerd_hide 4 rfl ..) rfl
  · exact .of_hide (State.distrust_hide 4 rfl ..) rfl

end Sys2Proof.Machine

end

section

/-!
The frame of registers: every command's writes stay within the list that names them.
-/

namespace Sys2Proof.Machine

variable {s t u : State} {l : List Nat}

theorem writes_of_done {x : State} (h : done x = .next t) (hw : s.Writes l x) : s.Writes l t := by
  obtain rfl : x = t := Host.Outcome.next.inj h
  exact hw

theorem writes_of_done_ite {c : Prop} [Decidable c] {x : State} (h : done (if c then x else s) = .next t) (hw : s.Writes l x) :
    s.Writes l t := writes_of_done h (.ite hw (.refl l s))

theorem writes_nothing {m : Nat} (h : t.hide m = s.hide m) (hm : m.testBit 0 = false) : s.Writes [] t := .of_hide h hm

theorem writes_warn_withPower (s : State) (p : PowerState) :
    s.Writes [Reg.POWER_SUPPLY_WARNINGS] ({ s with power := p } : State).warn :=
  ⟨fun a ha => ((writes_warn _).reg a ha).trans (reg_congr rfl a)⟩

/-- A command with a list of registers writes no other. -/
theorem exec_writes (c : Instr) (h : exec c s = .next t) : (mayWrite c).elim True (fun l => s.Writes l t) := by
  cases c
  case runEnd | variantRequest | shapeArm | hpArm | restoreAbort | activateCancel | parlourCommit | slewCorrection | sync
      | delayResp | herdFreeze | herdResume | ackTimer | nakTimer | macsecRekey | joinRetryTimer | inputQualified
      | railsInRegulation | supplyClear | senseBladeUnmate | refclkDieReturn | senseBladeMate | bulkNodeCrossing
      | tierTrained | stagingComplete => exact writes_nothing (exec_hide _ h) (by dsimp only [commandMask]; decide)
  case safetyReportReply => exact writes_of_done h (writes_reportReply ..)
  case safetyReportSend =>
    refine writes_of_done h ?_
    unfold State.reportSend
    split
    · split
      · exact writes_sendReport ..
      · exact .refl _ s
    · exact .refl _ s
  case reportResendTimer => exact writes_of_done_ite h (.foldl _ s fun v r _ => writes_sendReport v r)
  case parlourLockstepReset => exact writes_of_done_ite h (writes_parlourRestart s)
  case stopAcksComplete => exact writes_of_done h (writes_stopAcked s)
  case queueEnable => exact writes_of_done h (writes_queueEnable ..)
  case queueDisable =>
    refine writes_of_done h ?_
    unfold State.queueDisable
    exact .ite (writes_pairRefused (List.Subset.refl _) s _) (.of_regs (by rfl))
  case nop f => exact writes_of_done h (writes_serve (List.Subset.refl _) f 0x00 true (.refl _ s))
  case eventFetch f n a b =>
    exact writes_of_done h (writes_serve (List.Subset.refl _) f 0x07 false (.of_hide (State.eventFetchAct_hide 128 rfl ..) rfl))
  case attest f nonce =>
    exact writes_of_done h (writes_serve (List.Subset.refl _) f 0x08 true (.of_hide (State.attestAct_hide 128 rfl ..) rfl))
  case doorbellSubmissionTail f q i => exact writes_of_done h (writes_serve (fun x hx => List.mem_append_left _ hx) f 0x06 false
      (writes_doorbellAct (fun x hx => List.mem_append_right messageRegs hx) s false q i))
  case doorbellCompletionHead f q i => exact writes_of_done h (writes_serve (fun x hx => List.mem_append_left _ hx) f 0x06 false
      (writes_doorbellAct (fun x hx => List.mem_append_right messageRegs hx) s true q i))
  case eventLatchClear => exact writes_of_done_ite h (.setReg (.refl _ s) (List.mem_singleton_self _) _)
  case clearCounters =>
    refine writes_of_done_ite h ?_
    unfold State.clearCounters
    exact .setReg (.setReg (.setReg (.setReg (.refl _ s) (by simp) 0) (by simp) 0) (by simp) 0) (by simp) 0
  case pailConfigWrite => exact writes_of_done_ite h (writes_pailConfig ..)
  case pailLeak =>
    refine writes_of_done_ite h ?_
    unfold State.pailLeak
    exact .setReg (.of_regs (by rfl)) (List.mem_singleton_self _) _
  case flipMaskArm b hi =>
    by_cases hstands : blkStands b = true
    · exact writes_of_done_ite h (writes_armFlip hstands s _)
    · refine writes_of_done h ?_
      rw [if_neg (by simp [hstands])]
      exact .refl _ s
  case codeRegionWordWrite => exact writes_of_done_ite h (writes_codeRegionWrite ..)
  case moduleNumberWrite => exact writes_of_done_ite h (writes_numberWrite ..)
  case portConfigWrite => exact writes_of_done_ite h (writes_portConfig ..)
  case calSelectWrite => exact writes_of_done h (.setReg (.refl _ s) (List.mem_singleton_self _) _)
  case parlourStageOffsetWrite => exact writes_of_done h (.setReg (.refl _ s) (List.mem_singleton_self _) _)
  case parlourStageAppend => exact writes_of_done h (writes_stageAppend ..)
  case activateArm => exact writes_of_done h (writes_activateArm ..)
  case attnAckIdentity => exact writes_of_done h (writes_ackIdentity s)
  case safeRelease => exact writes_of_done h (writes_safeRelease ..)
  case svnCommit => exact writes_of_done h (writes_svnCommit ..)
  case bind => exact writes_of_done h (writes_bindCmd s)
  case unbind => exact writes_of_done h (writes_unbindCmd s)
  case anchorSet | anchorClear | userSet | userClear | userClearAll =>
    exact writes_of_done h (writes_changeSettings (List.Subset.refl _) s _ _)
  case readClearField a => exact writes_of_done h (writes_readReg s a.toNat)
  case phaseLoRead => exact writes_of_done h (writes_readReg s Reg.PHASE_PHASE_LO)
  case snapRequest => exact writes_of_done h (writes_snapRequest ..)
  case snapshotRecordAck => exact writes_of_done h (writes_shipAck ..)
  case sepCmdSubmit => exact writes_of_done_ite h (writes_cmdSubmit_sep ..)
  case updCmdSubmit => exact writes_of_done_ite h (writes_cmdSubmit_upd ..)
  case syncIntervalEnd =>
    refine writes_of_done h ?_
    exact .ite ((writes_syncInterval s).trans (writes_startSucceeded (by simp) _)) (writes_syncInterval s)
  case stallCauseStart => exact writes_of_done h (writes_stallStart ..)
  case stallCauseClear => exact writes_of_done h (writes_stallClear ..)
  case passSwap => exact writes_of_done h (writes_passSwap ..)
  case elasticPromotion => exact writes_of_done h (.bump (.refl _ s) (List.mem_singleton_self _))
  case fetchComplete => exact writes_of_done h (writes_fetchComplete ..)
  case twinLost => exact writes_of_done h (writes_twinLost s)
  case portUp => exact writes_of_done h (writes_portUp ..)
  case portDown => exact writes_of_done h (writes_portLoses (List.Subset.refl _) ..)
  case portDownHoldExpiry =>
    refine writes_of_done h ?_
    split
    · exact .refl _ s
    · exact .ite (writes_planeFails ..) (.refl _ s)
  case refclkPortLoss => exact writes_of_done h (writes_refclkPortLoss ..)
  case pauseFrame => exact writes_of_done h (.bump (.refl _ s) (List.mem_singleton_self _))
  case creditReturn c =>
    refine writes_of_done_ite h ?_
    exact .trans (.of_hide (State.setPool_hide 64 rfl s c.val (s.pool c + 1)) rfl) (writes_grantAll (List.mem_singleton_self _) _)
  case ack r =>
    exact writes_of_done h (writes_receive (List.Subset.refl _) 3 (fun v => .of_hide (State.acked_hide 64 rfl ..) rfl) s)
  case creditGrant r =>
    exact writes_of_done h (writes_receive (List.Subset.refl _) 7 (fun v => .of_hide (State.creditGrant_hide 64 rfl ..) rfl) s)
  case creditReq r =>
    exact writes_of_done h (writes_receive (List.subset_cons_self ..) 6 (fun v => writes_creditReq List.mem_cons_self v ..) s)
  case frameSend => exact writes_of_done h (writes_frameSend ..)
  case droopTrip => exact writes_of_done h (writes_droopTrip ..)
  case supplyWarning | refclkDieLoss => exact writes_of_done_ite h (writes_warn_withPower s _)
  all_goals exact trivial

/-- Settles O58: each operation's writes stay within the command's list. -/
theorem frameOfRegisters : Obligations.FrameOfRegisters := by
  intro c s t l h hl
  have hwrites := exec_writes c h
  rw [hl] at hwrites
  exact hwrites.reg

end Sys2Proof.Machine

end

section

/-!
The array: loading, swapping and adding (R88, R87 to R99), where nothing faults.
-/

namespace Sys2Proof.Machine

variable {s t u : State}

/-! ### A segment set -/

theorem setSeg_seg (s : State) (c : Nat) (g : Seg) : ((s.setSeg c g).core c).seg = some g := by
  unfold State.setSeg
  rw [core_setCore, if_pos rfl]

/-- What setting a segment leaves, after operations on registers alone. -/
theorem setSeg_kept {c : Nat} {g : Seg} (h : t.hide 1 = s.hide 1) : (t.setSeg c g).mem = s.mem ∧ (t.setSeg c g).ctl = s.ctl := by
  have hset := State.setSeg_hide 4 rfl t c g
  have hmem := kept_mem h rfl rfl
  have hmem' := kept_mem hset rfl rfl
  exact ⟨hmem'.trans hmem, (kept_ctl hset rfl).trans (kept_ctl h rfl)⟩

/-! ### The resident operand -/

/-- Counts of a load, each a bump of a register or none. -/
theorem hide_bump_ite (c : Bool) (a : Nat) (h : t.hide 1 = s.hide 1) : (if c then t.bump a else t).hide 1 = s.hide 1 := by
  split
  · exact (State.bump_hide 1 rfl ..).trans h
  · exact h

theorem shadowLoad_of_sound {c : Nat} {g : Seg} {p : Pt} (hrun : s.running c = some g) (hshadow : g.shadow = none)
    (hnext : g.nextLoad = some p) (hkind : g.desc.kind ≠ .row) (hturn : g.desc.modes.transpose ≠ 2)
    (hsnag : s.snagReads c (s.loadResident c g.desc p (s.segExtents g)).acc = none)
    (hdrops : (s.loadResident c g.desc p (s.segExtents g)).drops = []) :
    ∃ t : State, s.shadowLoad c = t.setSeg c { g with
      shadow := some ⟨p.pass, (s.loadResident c g.desc p (s.segExtents g)).cols⟩
      kept := (s.farReads c g.kept (s.loadResident c g.desc p (s.segExtents g)).acc).2 } ∧ t.hide 1 = s.hide 1 := by
  generalize hl : s.loadResident c g.desc p (s.segExtents g) = l at hsnag hdrops ⊢
  have hfar := State.farReads_hide 1 rfl s c g.kept l.acc
  unfold State.shadowLoad
  rw [hrun]
  dsimp only
  rw [hshadow, hnext]
  dsimp only
  rw [if_neg hkind, decide_eq_false hturn, Bool.false_and, if_neg (by decide), hl, hsnag]
  dsimp only
  rw [hdrops]
  unfold State.countDrops
  dsimp only [List.foldl_nil, Option.orElse]
  refine ⟨_, rfl, ?_⟩
  refine hide_bump_ite _ _ ?_
  rw [if_neg (by decide)]
  split
  · exact hide_bump_ite _ _ ((State.bump_hide 1 rfl ..).trans hfar)
  · exact hfar

theorem passSwap_of_loaded {c : Nat} {g : Seg} {r : Resident} {p : Pt} {ps : List Pt} (hrun : s.running c = some g)
    (hshadow : g.shadow = some r) (htodo : g.todo = p :: ps) (hpass : p.pass = r.pass) :
    ∃ t : State, s.passSwap c = t.setSeg c { g with
      active := some r
      shadow := none
      activeSet := 1 - g.activeSet
      dueAt := if g.slotBusy p then some s.clock.now else none } ∧ t.hide 1 = s.hide 1 := by
  unfold State.passSwap
  rw [hrun]
  dsimp only
  rw [hshadow, htodo]
  dsimp only
  rw [if_pos hpass]
  have hbubbles := State.bubbles_hide 1 rfl s c g
  generalize s.bubbles c g = v at hbubbles ⊢
  have hlink : (if p.peel then v.bump (Reg.CORE_PEEL_LINK_PASSES c)
      else if g.desc.kind = .scatter then v.bump (Reg.CORE_SCATTER_PASSES c) else v).hide 1 = s.hide 1 := by
    split
    · exact (State.bump_hide 1 rfl ..).trans hbubbles
    · split
      · exact (State.bump_hide 1 rfl ..).trans hbubbles
      · exact hbubbles
  generalize (if p.peel then v.bump (Reg.CORE_PEEL_LINK_PASSES c)
      else if g.desc.kind = .scatter then v.bump (Reg.CORE_SCATTER_PASSES c) else v) = w at hlink ⊢
  have hpeeled := hide_bump_ite g.desc.modes.peeled (Reg.CORE_PEELED_PASSES c) hlink
  generalize (if g.desc.modes.peeled then w.bump (Reg.CORE_PEELED_PASSES c) else w) = x at hpeeled ⊢
  refine ⟨x, ?_, hpeeled⟩
  rw [kept_clock hpeeled rfl]

/-! ### What a test mask depends on -/

/-- The registers that arm a test mask of a core. -/
def CoreMaskReg (a : Nat) : Prop := a % 2 ^ 16 = 0x801C ∨ a % 2 ^ 16 = 0x24 ∨ a % 2 ^ 16 = 0x28

/-- Only registers have changed, and none that arms a test mask of a core. -/
structure State.Counted (s t : State) : Prop where
  rest : t.hide 1 = s.hide 1
  reg : ∀ a, CoreMaskReg a → t.reg a = s.reg a

theorem State.Counted.refl (s : State) : s.Counted s := ⟨rfl, fun _ _ => rfl⟩

theorem State.Counted.trans (h : s.Counted t) (k : t.Counted u) : s.Counted u :=
  ⟨k.rest.trans h.rest, fun a ha => (k.reg a ha).trans (h.reg a ha)⟩

theorem State.Counted.setReg {a : Nat} (h : s.Counted t) (ha : ¬ CoreMaskReg a) (v : Nat) : s.Counted (t.setReg a v) :=
  ⟨(State.setReg_hide 1 rfl ..).trans h.rest, fun b hb =>
    (reg_setReg_ne _ _ _ _ fun e : b = a => ha (by rw [← e]; exact hb)).trans (h.reg b hb)⟩

theorem State.Counted.bump {a : Nat} (h : s.Counted t) (ha : ¬ CoreMaskReg a) : s.Counted (t.bump a) := h.setReg ha _

theorem State.Counted.bumpBy {a : Nat} (h : s.Counted t) (ha : ¬ CoreMaskReg a) (n : Nat) : s.Counted (t.bumpBy a n) :=
  h.setReg ha _

theorem State.Counted.bumpSat {a : Nat} (h : s.Counted t) (ha : ¬ CoreMaskReg a) (n lim : Nat) : s.Counted (t.bumpSat a n lim) :=
  h.setReg ha _

theorem State.Counted.ite {c : Prop} [Decidable c] (ht : s.Counted t) (hu : s.Counted u) : s.Counted (if c then t else u) := by
  split
  · exact ht
  · exact hu

theorem State.Counted.armed (h : s.Counted t) (c : Nat) : t.armed clsCore c = s.armed clsCore c := by
  have hsel : flipSelect clsCore c = Reg.CORE_FLIP_SELECT c := rfl
  unfold State.armed
  rw [hsel, h.reg _ (.inl (by unfold Reg.CORE_FLIP_SELECT regAddr; omega)),
    h.reg _ (.inr (.inl (by unfold Reg.FLIP_MASK_LO regAddr; omega))),
    h.reg _ (.inr (.inr (by unfold Reg.FLIP_MASK_HI regAddr; omega)))]

/-- A counter outside the pages of the masks. -/
theorem not_coreMaskReg {cls inst page off : Nat} (hpage : page < 16) (hoff : off < 4096) (hnot : page * 4096 + off ≠ 0x801C)
    (hlo : page * 4096 + off ≠ 0x24) (hhi : page * 4096 + off ≠ 0x28) : ¬ CoreMaskReg (regAddr cls inst page off) := by
  unfold CoreMaskReg regAddr
  omega

theorem farAccess_counted (s : State) (own core words n : Nat) : s.Counted (s.farAccess own core words n) := by
  unfold State.farAccess State.nocSend
  refine .ite (.refl s) (.bumpBy (.bumpBy (.refl s) ?_ _) ?_ _)
  · exact not_coreMaskReg (by decide) (by decide) (by decide) (by decide) (by decide)
  · exact not_coreMaskReg (by decide) (by decide) (by decide) (by decide) (by decide)

theorem readRun_counted (own : Nat) (a : State × Tab Nat) (x : Run) : a.1.Counted (State.readRun own a x).1 := by
  unfold State.readRun
  split
  · exact .refl a.1
  · exact farAccess_counted ..

theorem farReads_counted (s : State) (own : Nat) (kept : Tab Nat) (acc : List Run) : s.Counted (s.farReads own kept acc).1 := by
  unfold State.farReads
  suffices h : ∀ a : State × Tab Nat, s.Counted a.1 → s.Counted (acc.foldl (State.readRun own) a).1 from h _ (.refl s)
  induction acc with
  | nil => exact fun a ha => ha
  | cons x acc ih => exact fun a ha => ih _ (ha.trans (readRun_counted own a x))

theorem countRow_counted (s : State) (c : Nat) (d : Desc) (p : Pt) (e : Extents) (m : Nat) : s.Counted (s.countRow c d p e m) := by
  have hnot (page off : Nat) (hpage : page < 16) (hoff : off < 4096) (h : page * 4096 + off ≠ 0x801C) (hpos : 1 ≤ page) :
      ¬ CoreMaskReg (regAddr 1 c page off) := not_coreMaskReg hpage hoff h (by omega) (by omega)
  have hsplit : ¬ CoreMaskReg (Reg.CORE_SPLIT_ROWS c) := hnot 4 0x01C (by decide) (by decide) (by decide) (by decide)
  have hslow : ¬ CoreMaskReg (Reg.CORE_TBUF_SLOW_ROWS c) := hnot 5 0x018 (by decide) (by decide) (by decide) (by decide)
  have hbricks : ¬ CoreMaskReg (Reg.CORE_TBUF_BRICKS c) := hnot 5 0x014 (by decide) (by decide) (by decide) (by decide)
  have hmisaligned : ¬ CoreMaskReg (Reg.CORE_MISALIGNED_PASSES c) := hnot 7 0x010 (by decide) (by decide) (by decide) (by decide)
  have hone {a : Nat} (ha : ¬ CoreMaskReg a) (b : Bool) (v : State) (h : s.Counted v) : s.Counted (if b then v.bump a else v) :=
    .ite (h.bump ha) h
  have hmany {a : Nat} (ha : ¬ CoreMaskReg a) (b : Bool) (n : Nat) (v : State) (h : s.Counted v) :
      s.Counted (if b then v.bumpBy a n else v) := .ite (h.bumpBy ha n) h
  exact hone hmisaligned _ _ (hmany hbricks _ _ _ (hone hslow _ _ (hone hsplit _ _ (.refl s))))

/-! ### Exact chunks -/

/-- A chunk without a window escapes nothing. -/
theorem chunkOf_quiet (xs : List Num) : (chunkOf none xs).lows = 0 ∧ (chunkOf none xs).highs = 0 := by
  unfold chunkOf
  suffices h : ∀ c : Chunk, c.lows = 0 ∧ c.highs = 0 →
      (xs.foldl (Chunk.add none) c).lows = 0 ∧ (xs.foldl (Chunk.add none) c).highs = 0 from h _ ⟨rfl, rfl⟩
  induction xs with
  | nil => exact fun c hc => hc
  | cons x xs ih =>
    refine fun c hc => ih _ ?_
    cases x with
    | fin m e => exact hc
    | negZero => exact hc
    | inf n => exact hc
    | nan => exact hc

/-- One entry's escapes counted. -/
def Escapes.count (seg limit : Nat) (e : Escapes) (x : Nat × Chunk) : Escapes :=
  { lows := e.lows + x.2.lows, highs := e.highs + x.2.highs, highAt := if x.2.highs = 0 then e.highAt else e.highAt ++ [x.1],
    lowAt := e.lowAt.orElse (fun _ =>
      if decide (x.2.lows ≠ 0) && decide (limit < min 0xFFFFFFFF (seg + (e.lows + x.2.lows))) then some x.1 else none) }

theorem countEscapes_of_row (seg limit row : Nat) (cs : List Chunk) : countEscapes seg limit [(row, cs)] =
    (cs.mapIdx (fun i c => (row * 256 + i, c))).foldl (Escapes.count seg limit) ⟨0, 0, [], none⟩ := rfl

/-- Rows of chunks that escape nothing: nothing is counted. -/
theorem countEscapes_of_quiet (seg limit row : Nat) {cs : List Chunk} (h : ∀ x ∈ cs, x.lows = 0 ∧ x.highs = 0) :
    (countEscapes seg limit [(row, cs)]).highAt = [] ∧ (countEscapes seg limit [(row, cs)]).lowAt = none := by
  rw [countEscapes_of_row]
  have hall : ∀ x ∈ cs.mapIdx (fun i c => (row * 256 + i, c)), x.2.lows = 0 ∧ x.2.highs = 0 := by
    intro x hx
    obtain ⟨i, hi, rfl⟩ := List.mem_mapIdx.mp hx
    exact h _ (List.getElem_mem hi)
  generalize cs.mapIdx (fun i c => (row * 256 + i, c)) = xs at hall
  suffices hkeep : ∀ e : Escapes, e.highAt = [] ∧ e.lowAt = none →
      (xs.foldl (Escapes.count seg limit) e).highAt = [] ∧ (xs.foldl (Escapes.count seg limit) e).lowAt = none from
    hkeep ⟨0, 0, [], none⟩ ⟨rfl, rfl⟩
  induction xs with
  | nil => exact fun e he => he
  | cons x xs ih =>
    intro e he
    obtain ⟨hlow, hhigh⟩ := hall x List.mem_cons_self
    refine ih (fun y hy => hall y (List.mem_cons_of_mem x hy)) _ ?_
    unfold Escapes.count
    rw [hlow, hhigh, he.1, he.2]
    exact ⟨rfl, rfl⟩

/-! ### The chunk sums of a row -/

theorem advance_vat (g : Seg) (now rows : Nat) : (g.advance now rows).vat = g.vat := by
  unfold Seg.advance
  split
  · rfl
  · split
    · rfl
    · rfl

/-- One row of chunk sums in the Vat: its own row takes them, every other one stays. -/
theorem addAll_vat (g : Seg) (win : Option Int) (t : Tile) {a : Adds} {row : Nat} {cs : List Chunk} (h : a.rows = [(row, cs)])
    (k : Nat) : tget [] (g.addAll win t a).vat k = if k = row then addRow win (tget [] g.vat row) cs else tget [] g.vat k := by
  unfold Seg.addAll
  dsimp only
  rw [h, List.foldl_cons, List.foldl_nil]
  exact tget_tput ..

theorem flipVat_of_unarmed {c : Nat} (h : s.armed clsCore c = none) (g : Seg) (row : Nat) : s.flipVat c g row = (s, g) := by
  unfold State.flipVat
  rw [h]

theorem addChunk_of_exact {c rows row : Nat} {g : Seg} {t : Tile} {a : Adds} {cs : List Chunk}
    (hwin : g.desc.modes.windowed = false) (harmed : s.armed clsCore c = none) (hrows : a.rows = [(row, cs)])
    (hquiet : ∀ x ∈ cs, x.lows = 0 ∧ x.highs = 0) :
    ∃ u : State, s.addChunk c g t a rows = u.setSeg c ((g.addAll none t a).advance s.clock.now rows) ∧ u.hide 1 = s.hide 1 := by
  obtain ⟨hhigh, hlow⟩ := countEscapes_of_quiet (s.reg (Reg.CORE_SEG_LOW_ESCAPES c)) (s.reg (Reg.CORE_LOW_ESCAPE_LIMIT c)) row hquiet
  rw [← hrows] at hhigh hlow
  unfold State.addChunk
  rw [hwin]
  dsimp only
  generalize countEscapes (s.reg (Reg.CORE_SEG_LOW_ESCAPES c)) (s.reg (Reg.CORE_LOW_ESCAPE_LIMIT c)) a.rows = esc at hhigh hlow ⊢
  have hcounted : s.Counted (((s.bumpBy (Reg.CORE_LOW_ESCAPES c) esc.lows).bumpBy (Reg.CORE_HIGH_ESCAPES c) esc.highs).bumpSat
      (Reg.CORE_SEG_LOW_ESCAPES c) esc.lows 0xFFFFFFFF) := by
    refine .bumpSat (.bumpBy (.bumpBy (.refl s) ?_ _) ?_ _) ?_ ..
    · exact not_coreMaskReg (by decide) (by decide) (by decide) (by decide) (by decide)
    · exact not_coreMaskReg (by decide) (by decide) (by decide) (by decide) (by decide)
    · exact not_coreMaskReg (by decide) (by decide) (by decide) (by decide) (by decide)
  generalize ((s.bumpBy (Reg.CORE_LOW_ESCAPES c) esc.lows).bumpBy (Reg.CORE_HIGH_ESCAPES c) esc.highs).bumpSat
      (Reg.CORE_SEG_LOW_ESCAPES c) esc.lows 0xFFFFFFFF = v at hcounted ⊢
  rw [flipVat_of_unarmed ((hcounted.armed c).trans harmed), hhigh, hlow, if_neg (by decide)]
  refine ⟨v, ?_, hcounted.rest⟩
  rw [← kept_clock hcounted.rest rfl, List.foldl_nil]

/-- Of the segment that takes the sums, one Vat row has changed. -/
theorem addChunk_adds {c rows row : Nat} {g : Seg} {tl : Tile} {a : Adds} {cs : List Chunk} (hkept : t.hide 1 = s.hide 1)
    (hwin : g.desc.modes.windowed = false) (harmed : t.armed clsCore c = none) (hrows : a.rows = [(row, cs)])
    (hquiet : ∀ x ∈ cs, x.lows = 0 ∧ x.highs = 0) :
    ∃ (u : State) (g' : Seg), t.addChunk c g tl a rows = u.setSeg c g' ∧ u.hide 1 = s.hide 1 ∧ ∀ k, tget [] g'.vat k =
      if k = row then addRow none (tget [] g.vat row) cs else tget [] g.vat k := by
  obtain ⟨u, hu, hrest⟩ := addChunk_of_exact (t := tl) (rows := rows) hwin harmed hrows hquiet
  refine ⟨u, _, hu, hrest.trans hkept, fun k => ?_⟩
  rw [advance_vat]
  exact addAll_vat g none tl hrows k

/-- A streamed row of a product depends on memory and the run alone. -/
theorem streamed_congr {d : Desc} (hmem : t.mem = s.mem) (hkind : d.kind = .product) (hturn : d.modes.transpose = 0) (own : Nat)
    (p : Pt) (e : Extents) (m : Nat) : t.streamed own d p e m = s.streamed own d p e m := by
  unfold State.streamed
  rw [hkind, hturn]
  dsimp only
  unfold brickRun brickBits
  rw [hmem, if_neg (by decide), if_neg (by decide)]

/-- The chunks of a streamed row of a product, a column each. -/
def Resident.chunks (r : Resident) (acts : List Num) : List Chunk :=
  r.cols.map (fun col => chunkOf none (col.map (fun sl => Num.mul (acts.toArray.getD sl.pos (.fin 0 0)) sl.val)))

theorem chunks_quiet (r : Resident) (acts : List Num) : ∀ x ∈ r.chunks acts, x.lows = 0 ∧ x.highs = 0 := by
  intro x hx
  obtain ⟨col, -, rfl⟩ := List.mem_map.mp hx
  exact chunkOf_quiet _

theorem productAdds_rows (r : Resident) (acts : List Num) (row : Nat) : (productAdds none r acts row).rows = [(row, r.chunks acts)] :=
  rfl

theorem rowAdds_of_product {c m : Nat} {d : Desc} {p : Pt} {e : Extents} (r : Resident) (tl : Tile) (hkind : d.kind = .product)
    (hwin : d.modes.windowed = false) :
    s.rowAdds c d p e r tl m = productAdds none r (s.streamed c d p e m).1 (d.tileRowsV * tl.slot + m) := by
  unfold State.rowAdds
  rw [hkind, hwin]
  rfl

/-- A row that nothing keeps from its sums: they are added in its row of the Vat. -/
theorem chunkSum_of_sound {c : Nat} {g : Seg} {r : Resident} {p : Pt} {ps : List Pt} {tl : Tile} (hrun : s.running c = some g)
    (htodo : g.todo = p :: ps) (hactive : g.active = some r) (hkind : g.desc.kind = .product) (hpass : p.pass = r.pass)
    (htile : g.tileOf p = some tl) (hslot : g.slotBusy p = false) (hturn : g.desc.modes.transpose = 0)
    (hwin : g.desc.modes.windowed = false) (hbad : g.badVat = [])
    (hsnag : s.snagReads c (s.streamed c g.desc p (s.segExtents g) g.row).2 = none)
    (hterms : tl.terms + g.desc.termStep ≤ 2 ^ 48) (harmed : s.armed clsCore c = none) :
    ∃ (t : State) (g' : Seg), s.chunkSum c = t.setSeg c g' ∧ t.hide 1 = s.hide 1 ∧ ∀ k, tget [] g'.vat k =
      if k = g.desc.tileRowsV * tl.slot + g.row then addRow none (tget [] g.vat (g.desc.tileRowsV * tl.slot + g.row))
        (r.chunks (s.streamed c g.desc p (s.segExtents g) g.row).1) else tget [] g.vat k := by
  have hgrad : (s.gradRow c g.desc p (s.segExtents g) g.row).2 = [] := by
    unfold State.gradRow
    rw [if_neg (by rw [hkind]; decide)]
  have hlimit : g.desc.termLimit = 2 ^ 48 := by
    unfold Desc.termLimit
    rw [hwin]
    rfl
  unfold State.chunkSum
  rw [hrun]
  dsimp only
  rw [htodo, hactive]
  dsimp only
  rw [if_neg (by rw [hkind, hslot]; simp [hpass]), hturn, htile]
  simp only [Nat.zero_ne_one, decide_false, Bool.false_and, Bool.false_eq_true, ↓reduceIte, Option.isNone_some, hgrad,
    List.append_nil, hsnag, hbad, List.find?_nil, Option.map_none]
  dsimp only [Option.orElse]
  have hcounted := (farReads_counted s c g.kept (s.streamed c g.desc p (s.segExtents g) g.row).2).trans
    (countRow_counted _ c g.desc p (s.segExtents g) g.row)
  have hmem := kept_mem hcounted.rest rfl rfl
  have hstreamed := streamed_congr hmem hkind hturn c p (s.segExtents g) g.row
  generalize ((s.farReads c g.kept (s.streamed c g.desc p (s.segExtents g) g.row).2).1.countRow c g.desc p (s.segExtents g) g.row) = v
    at hcounted hstreamed ⊢
  rw [if_neg (by rw [hlimit]; split <;> omega), rowAdds_of_product _ _ hkind hwin, hstreamed]
  have hrows := productAdds_rows r (s.streamed c g.desc p (s.segExtents g) g.row).1 (g.desc.tileRowsV * tl.slot + g.row)
  generalize productAdds none r (s.streamed c g.desc p (s.segExtents g) g.row).1 (g.desc.tileRowsV * tl.slot + g.row) = a at hrows ⊢
  exact addChunk_adds hcounted.rest hwin ((hcounted.armed c).trans harmed) hrows (chunks_quiet r _)

/-- Settles O12: a sound load fills the shadow set, the sets swap, and a streamed row adds its exact chunks to its Vat row. -/
theorem arrayCommands : Obligations.ArrayCommands := by
  refine ⟨fun s c g p hrun hshadow hnext hkind hturn hsnag hdrops => ?_, fun s c g r p ps hrun hshadow htodo hpass => ?_,
    fun s c g r p ps tl hrun htodo hactive hkind hpass htile hslot hturn hwin hbad hsnag hterms harmed => ?_⟩
  · obtain ⟨t, ht, hrest⟩ := shadowLoad_of_sound hrun hshadow hnext hkind hturn hsnag hdrops
    obtain ⟨hmem, hctl⟩ := setSeg_kept hrest
    exact ⟨_, done_of_eq ht, setSeg_seg .., hmem, hctl⟩
  · obtain ⟨t, ht, hrest⟩ := passSwap_of_loaded hrun hshadow htodo hpass
    obtain ⟨hmem, hctl⟩ := setSeg_kept hrest
    exact ⟨_, done_of_eq ht, setSeg_seg .., hmem, hctl⟩
  · obtain ⟨t, g', ht, hrest, hvat⟩ := chunkSum_of_sound hrun htodo hactive hkind hpass htile hslot hturn hwin hbad hsnag hterms harmed
    obtain ⟨hmem, hctl⟩ := setSeg_kept hrest
    exact ⟨_, g', done_of_eq ht, setSeg_seg .., (hvat _).trans (if_pos rfl), fun k hk => (hvat k).trans (if_neg hk), hmem, hctl⟩

end Sys2Proof.Machine

end

section

/-!
Messages that reach memory, ask for an attestation or carry the twin's digests (R385, R386, R389, R373).
-/

namespace Sys2Proof.Machine

variable {s t u : State}

/-! ### Memory (R385, R386) -/

theorem messageMapped_tier {a n : Nat} (hend : zEndpoint a = s.moduleNum) (hspace : zSpace a = 1) (hn : zOff a + n ≤ 2 ^ 40) :
    s.messageMapped a n = true := by
  unfold State.messageMapped
  rw [hend, hspace, mapped_tier hn]
  simp

theorem memReadAct_tier {a n : Nat} (hone : 1 ≤ n) (hmost : n ≤ 4096) (hend : zEndpoint a = s.moduleNum) (hspace : zSpace a = 1)
    (hn : zOff a + n ≤ 2 ^ 40) (hserved : s.memServed 1 (zOff a) = true) (hreads : s.TierReads (zOff a) n) :
    s.memReadAct n a = ⟨s, stOk, n, 0, bytesAt s.mem.cells (lpKey (zOff a)) n⟩ := by
  have hnoc : s.nocServe true 1 (zOff a) n = s := rfl
  unfold State.memReadAct
  rw [if_neg (by omega), if_neg (by simp [messageMapped_tier hend hspace hn]), hspace, if_neg (by simp [hserved]), if_neg (by decide),
    hnoc, readMem_tier hreads]

theorem memStore_tier {a : Nat} {bs : List Byte} (hspace : zSpace a = 1) (htakes : s.TierTakes (zOff a) bs.length) :
    ∃ t, s.memStore a bs = ⟨t, stOk, bs.length, 0, []⟩ ∧ t.run = s.run ∧
      ∀ x, byteAt t.mem.cells x = byteAt (setBytes s.mem.cells (lpKey (zOff a)) bs) x := by
  have hnoc : s.SameTier (s.nocSend 0 bs.length) := bumpBy_sameTier (not_tierReg_noc _)
  obtain ⟨hstored, hbad⟩ := writeMem_tier (hnoc.takes htakes) hostReader
  have hput : (s.nocStore 1 (zOff a) bs.length).hostStore 1 (zOff a) bs =
      (s.nocSend 0 bs.length).writeMem hostReader 1 (zOff a) bs := rfl
  refine ⟨((s.nocSend 0 bs.length).writeMem hostReader 1 (zOff a) bs).s, ?_, ?_, fun x => ?_⟩
  · unfold State.memStore
    rw [hspace, hput]
    dsimp only
    rw [hbad]
    rfl
  · exact (kept_run hstored.rest rfl).trans (kept_run (State.nocSend_hide 1 rfl ..) rfl)
  · have hmem := kept_mem (State.nocSend_hide 1 rfl s 0 bs.length) rfl rfl
    rw [hstored.bytes, hmem]

theorem memWriteAct_tier {a : Nat} {bs : List Byte} (hone : 1 ≤ bs.length) (hmost : bs.length ≤ 4096)
    (hend : zEndpoint a = s.moduleNum) (hspace : zSpace a = 1) (hn : zOff a + bs.length ≤ 2 ^ 40)
    (hserved : s.memServed 1 (zOff a) = true) : s.memWriteAct a bs = s.memStore a bs := by
  have hgoes : s.goes 1 (zOff a) bs.length = .memory := if_pos (mapped_tier hn)
  unfold State.memWriteAct
  dsimp only
  rw [if_neg (by omega), if_neg (by simp [hend]), hspace, if_neg (by decide), if_neg (by decide), hgoes, hserved]

/-- Words of a memory out of service are ignored (R500). -/
theorem memWriteAct_of_unserved {a : Nat} {bs : List Byte} (hone : 1 ≤ bs.length) (hmost : bs.length ≤ 4096)
    (hend : zEndpoint a = s.moduleNum) (hserved : s.memServed (zSpace a) (zOff a) = false)
    (hplace : (zSpace a = 3 ∧ zOff a + bs.length ≤ 64 * 4096) ∨ (zSpace a ≤ 1 ∧ s.goes (zSpace a) (zOff a) bs.length ≠ .nowhere)) :
    s.memWriteAct a bs = ⟨s, stIgnored, bs.length, a % 2 ^ 32, []⟩ := by
  unfold State.memWriteAct
  dsimp only
  rw [if_neg (by omega), if_neg (by simp [hend])]
  obtain ⟨hspace, hn⟩ | ⟨hspace, hgoes⟩ := hplace
  · rw [hspace] at hserved
    rw [if_pos hspace, if_neg (by omega), if_pos (by simp [hserved])]
  · rw [if_neg (by omega), if_neg (by omega), hserved]
    cases hg : s.goes (zSpace a) (zOff a) bs.length with
    | nowhere => exact absurd hg hgoes
    | _ => rfl

theorem memWriteAct_of_foreign {a : Nat} {bs : List Byte} (hone : 1 ≤ bs.length) (hmost : bs.length ≤ 4096)
    (hend : zEndpoint a ≠ s.moduleNum) : s.memWriteAct a bs = s.badAddress a := by
  unfold State.memWriteAct
  dsimp only
  rw [if_neg (by omega), if_pos hend]

/-! ### Attestation (R389) -/

theorem attestAct_of_room {nonce : List Byte} (hlen : nonce.length = 64) (hroom : s.ctl.signing < 64) :
    ∃ c, s.attestAct nonce = ⟨{ s with ctl := c }, stOk,
      (s.attestBody nonce ++ leBytes 132 (Config.sign (sha512 (s.attestBody nonce)) s.ctl.free).toNat ++ Config.certificates).length, 0,
      s.attestBody nonce ++ leBytes 132 (Config.sign (sha512 (s.attestBody nonce)) s.ctl.free).toNat ++ Config.certificates⟩ := by
  unfold State.attestAct
  rw [if_neg (by simp [hlen]), if_neg (by unfold signingMax; omega)]
  exact ⟨_, rfl⟩

theorem attestAct_of_full {nonce : List Byte} (hlen : nonce.length = 64) (hfull : 64 ≤ s.ctl.signing) :
    s.attestAct nonce = ⟨s, stBusy, 0, 0, []⟩ := by
  unfold State.attestAct
  rw [if_neg (by simp [hlen])]
  exact if_pos hfull

/-! ### The twin's digests (R373) -/

theorem fromTwin_parlour {f : Session} (h : s.fromTwin f = true) : f.parlour = false := by
  unfold State.fromTwin at h
  simp only [Bool.and_eq_true, Bool.not_eq_true'] at h
  exact h.1.1.1

theorem digestsAct_of_twin {f : Session} (h : s.fromTwin f = true) (w : Nat) (d : DigestRecord) :
    s.digestsAct f w [d] = ⟨(s.compareRecord d).earlyDigests w [d], stOk, 0, 0, []⟩ := by
  unfold State.digestsAct
  rw [if_neg (by simp [h]), if_neg (by simp)]
  rfl

theorem earlyDigests_due (s : State) (w : Nat) (ds : List DigestRecord) :
    (s.earlyDigests w ds).fab.digestDue = s.fab.digestDue := by
  unfold State.earlyDigests
  split <;> rfl

section
variable {d : DigestRecord} (howner : d.owner = s.moduleNum) (hstate : s.shardState d.stack d.shard = 0)
  (hpass : bitOf (s.journalWord d.stack d.shard 0) 30 = false) (hjournal : (s.journal d.stack d.shard).isSome = true)
  (habsent : d.absent = false) (hepoch : d.epoch.toNat = s.epochOf d.stack d.shard)
include howner hstate hpass hjournal habsent hepoch

/-- A record of the shard's present epoch is compared with the digest of its master. -/
theorem compareRecord_of_epoch : s.compareRecord d =
    if d.digest.toNat = s.masterCrc d.stack d.shard then s.digestSettled d.stack d.shard
    else (s.digestSettled d.stack d.shard).digestMismatch d.stack d.shard := by
  have hword : ∀ w, (s.digestSettled d.stack d.shard).journalWord d.stack d.shard w = s.journalWord d.stack d.shard w :=
    journalWord_congr rfl rfl d.stack d.shard
  have hstate' : (s.digestSettled d.stack d.shard).shardState d.stack d.shard = s.shardState d.stack d.shard :=
    shardState_congr rfl rfl d.stack d.shard
  have hepoch' : (s.digestSettled d.stack d.shard).epochOf d.stack d.shard = s.epochOf d.stack d.shard := by
    unfold State.epochOf
    rw [hword, hword]
  have hcrc : (s.digestSettled d.stack d.shard).masterCrc d.stack d.shard = s.masterCrc d.stack d.shard := by
    unfold State.masterCrc
    rw [hword, hword]
  unfold State.compareRecord
  dsimp only
  have hclear : ¬ ((s.digestSettled d.stack d.shard).shardState d.stack d.shard ≠ 0 ∨
      bitOf ((s.digestSettled d.stack d.shard).journalWord d.stack d.shard 0) 30 = true ∨
      ((s.digestSettled d.stack d.shard).journal d.stack d.shard).isNone = true) := by
    rw [hstate', hword, journal_congr (t := s.digestSettled d.stack d.shard) (s := s) rfl]
    simp [hstate, hpass, Option.isSome_iff_ne_none.mp hjournal]
  rw [if_neg (by simp [howner]), if_neg hclear, hcrc, hepoch', if_neg (by simp [habsent]), if_pos hepoch]

end

/-- What serving a message leaves of the effects of its action. -/
theorem State.serve_safety {f : Session} {early : Bool} (hs : s.Serves f early) (opcode : Nat) (act : State → Answer) :
    (s.serve f opcode early act).safety = (act s).s.safety := by
  have hcount : (if doneStatus (act s).status = true then (act s).s.bumpQmgr Reg.QMGR_CONTROL_MSGS else (act s).s).hide 1 =
      (act s).s.hide 1 := hide_ite (State.bumpQmgr_hide 1 rfl ..) rfl
  rw [State.serve_of_serves hs]
  exact (kept_safety (State.sendReply_hide 4288 rfl ..) rfl).trans (kept_safety hcount rfl)

theorem State.serve_boot {f : Session} {early : Bool} (hs : s.Serves f early) (opcode : Nat) (act : State → Answer) :
    (s.serve f opcode early act).boot = (act s).s.boot := by
  have hcount : (if doneStatus (act s).status = true then (act s).s.bumpQmgr Reg.QMGR_CONTROL_MSGS else (act s).s).hide 1 =
      (act s).s.hide 1 := hide_ite (State.bumpQmgr_hide 1 rfl ..) rfl
  rw [State.serve_of_serves hs]
  exact (kept_boot (State.sendReply_hide 4288 rfl ..) rfl).trans (kept_boot hcount rfl)

/-- A short reply to a peer on a plane adds to its flow alone. -/
theorem State.serve_digestDue {f : Session} {early : Bool} (hs : s.Serves f early) (opcode : Nat) {act : State → Answer}
    (hport : f.parlour = false) (hdata : (act s).data = []) :
    (s.serve f opcode early act).fab.digestDue = (act s).s.fab.digestDue := by
  have hcount : (if doneStatus (act s).status = true then (act s).s.bumpQmgr Reg.QMGR_CONTROL_MSGS else (act s).s).hide 1 =
      (act s).s.hide 1 := hide_ite (State.bumpQmgr_hide 1 rfl ..) rfl
  rw [State.serve_of_serves hs]
  generalize (if doneStatus (act s).status = true then (act s).s.bumpQmgr Reg.QMGR_CONTROL_MSGS else (act s).s) = u at hcount ⊢
  have hfab : u.fab = (act s).s.fab := kept_fab hcount rfl
  obtain ⟨tx, he, -⟩ := sendReply_effect (s := u) (opcode := opcode) (retry := if (act s).status = stBusy then 2048 else 0)
    hport hdata
  rw [he, ← hfab]

/-- Settles O40: each message is served with its action's answer. -/
theorem memoryAttestAndTwinMessages : Obligations.MemoryAttestAndTwinMessages := by
  refine ⟨fun s f n a hs hone hmost hend hspace hn hserved hreads => ?read,
    fun s f bs a hs hone hmost hend hspace hn hserved htakes => ?write,
    fun s f bs a hs hone hmost hend hserved hplace => ?unserved, fun s f bs a hs hone hmost hend => ?foreign,
    fun s f nonce hs hlen hroom => ?attest, fun s f nonce hs hlen hfull => ?busy,
    fun s f w d hs htwin howner hstate hpass hjournal habsent hepoch hcrc => ?agree,
    fun s f w d hs htwin howner hstate hpass hjournal habsent hepoch hcrc hlog => ?differ, fun s f w ds hs htwin => ?stranger⟩
  case read =>
    obtain ⟨hreply, hmem, hrun, -⟩ := State.serve_answer (opcode := 0x04) (act := fun t => t.memReadAct n a.toNat) hs
      (memReadAct_tier hone hmost hend hspace hn hserved hreads) (show stOk ≠ stBusy by decide)
    exact ⟨_, rfl, hreply, hmem, hrun⟩
  case write =>
    obtain ⟨u, ha, hrun', hbytes⟩ := memStore_tier hspace htakes
    obtain ⟨hreply, hmem, hrun, -⟩ := State.serve_answer (opcode := 0x05) (act := fun t => t.memWriteAct a.toNat bs) hs
      ((memWriteAct_tier hone hmost hend hspace hn hserved).trans ha) (show stOk ≠ stBusy by decide)
    refine ⟨_, rfl, hreply, ?_, fun x hx => ?_, hrun.trans hrun'⟩
    · rw [hmem, bytesAt_congr fun i _ => hbytes _, bytesAt_setBytes_self]
    · rw [hmem, hbytes, byteAt_setBytes, if_neg hx]
  case unserved =>
    obtain ⟨hreply, hmem, hrun, -⟩ := State.serve_answer (opcode := 0x05) (act := fun t => t.memWriteAct a.toNat bs) hs
      (memWriteAct_of_unserved hone hmost hend hserved hplace) (show stIgnored ≠ stBusy by decide)
    exact ⟨_, rfl, hreply, hmem, hrun⟩
  case foreign =>
    obtain ⟨hreply, hmem, -⟩ := State.serve_answer (opcode := 0x05) (act := fun t => t.memWriteAct a.toNat bs) hs
      (memWriteAct_of_foreign hone hmost hend) (show stBadAddress ≠ stBusy by decide)
    exact ⟨_, rfl, hreply, hmem⟩
  case attest =>
    obtain ⟨c, ha⟩ := attestAct_of_room hlen hroom
    obtain ⟨hreply, hmem, -⟩ := State.serve_answer (opcode := 0x08) (act := fun t => t.attestAct nonce) hs ha
      (show stOk ≠ stBusy by decide)
    have hboot := State.serve_boot hs 0x08 (fun t => t.attestAct nonce)
    rw [ha] at hboot
    exact ⟨_, rfl, hreply, hmem, hboot⟩
  case busy =>
    refine ⟨_, rfl, ?_⟩
    rw [State.serve_of_serves hs, attestAct_of_full hlen hfull]
    rfl
  case agree =>
    have ha := digestsAct_of_twin htwin w.toNat d
    rw [compareRecord_of_epoch howner hstate hpass hjournal habsent hepoch, if_pos hcrc] at ha
    obtain ⟨hreply, hmem, -⟩ := State.serve_answer (opcode := 0x11) (act := fun t => t.digestsAct f w.toNat [d]) hs ha
      (show stOk ≠ stBusy by decide)
    have hsafety := State.serve_safety hs 0x11 (fun t => t.digestsAct f w.toNat [d])
    have hdue := State.serve_digestDue hs 0x11 (act := fun t => t.digestsAct f w.toNat [d]) (fromTwin_parlour htwin) (by rw [ha])
    have hearly := State.earlyDigests_hide 64 rfl (s.digestSettled d.stack d.shard) w.toNat [d]
    have hmem' := kept_mem hearly rfl rfl
    rw [ha] at hsafety hdue
    refine ⟨_, rfl, hreply, fun x hx => ?_, hsafety.trans (kept_safety hearly rfl), hmem.trans hmem'⟩
    rw [hdue, earlyDigests_due] at hx
    simpa using (List.mem_filter.mp hx).2
  case differ =>
    have ha := digestsAct_of_twin htwin w.toNat d
    rw [compareRecord_of_epoch howner hstate hpass hjournal habsent hepoch, if_neg hcrc] at ha
    have hearly := State.earlyDigests_hide 64 rfl ((s.digestSettled d.stack d.shard).digestMismatch d.stack d.shard) w.toNat [d]
    have hsafety := State.serve_safety hs 0x11 (fun t => t.digestsAct f w.toNat [d])
    have hlog' := State.serve_log_of_serves hs 0x11 (fun t => t.digestsAct f w.toNat [d])
    rw [ha] at hsafety hlog'
    obtain ⟨x, hx, hshows⟩ := State.raise_shows (s.digestSettled d.stack d.shard)
      { code := 0x0A05, cls := clsSafety, inst := 0, addr := (s.digestSettled d.stack d.shard).journalAddr d.stack d.shard } true hlog
    refine ⟨_, rfl, ?_, x, ?_, ?_⟩
    · rw [hsafety, kept_safety hearly rfl]
      exact (State.raise_safety _ _).1
    · rw [hlog', kept_ctl hearly rfl]
      exact hx
    · obtain ⟨hkind, hcode, hcls, -, -, -, hphase⟩ := hshows
      exact ⟨hkind, hcode, hcls, hphase⟩
  case stranger =>
    have ha : s.digestsAct f w.toNat ds = s.badOpcode := if_pos (by simp [htwin])
    obtain ⟨hreply, hmem, -⟩ := State.serve_answer (opcode := 0x11) (act := fun t => t.digestsAct f w.toNat ds) hs ha
      (show stBadOpcode ≠ stBusy by decide)
    have hsafety := State.serve_safety hs 0x11 (fun t => t.digestsAct f w.toNat ds)
    rw [ha] at hsafety
    exact ⟨_, rfl, hreply, hmem, hsafety⟩

end Sys2Proof.Machine

end

section

/-!
Joins: through Parlour, on a plane, those that wait, and the keys drawn again (R344, R441, R462, R463).
-/

namespace Sys2Proof.Machine

variable {s t u : State}

/-! ### The joins that wait

Ending the requests to a peer, with the faults that follow, leaves the joins that wait for an answer. -/

theorem fab_joinWait {m : Nat} (h : t.hide m = s.hide m) (hm : m.testBit 6 = false) : t.fab.joinWait = s.fab.joinWait :=
  congrArg Fabric.joinWait (kept_fab h hm)

theorem sendBare_joinWait (s : State) (id : FlowId) (h : Hdr) : (s.sendBare id h).fab.joinWait = s.fab.joinWait := by
  obtain ⟨tx, he, -⟩ := s.sendBare_effect id h
  rw [he]

/-- Sent blocks cut, requests dropped and a snapshot ended. -/
theorem cutSends_joinWait (h : u.fab.joinWait = s.fab.joinWait) (tx : List TxFlow) (rs : List RemoteReq) :
    ({ u with run := { u.run with snap := none }, fab := { u.fab with tx := tx, remote := rs } } : State).fab.joinWait =
      s.fab.joinWait := h

theorem safeSends_joinWait (s : State) : s.safeSends.fab.joinWait = s.fab.joinWait :=
  cutSends_joinWait (fab_joinWait (State.setReg_hide 1 rfl ..) rfl) _ _

theorem detect_joinWait (s : State) (f : FaultAt) : (s.detect f).fab.joinWait = s.fab.joinWait := by
  unfold State.detect
  extract_lets first seq sf rep safety v
  have hv : v.fab.joinWait = s.fab.joinWait := rfl
  exact (fab_joinWait (State.safeBases_hide 29 rfl _) rfl).trans ((safeSends_joinWait v).trans hv)

theorem raise_joinWait (s : State) (f : FaultAt) (d : Bool) : (s.raise f d).fab.joinWait = s.fab.joinWait := by
  have hrecord : (s.faultRecord f s.planRuns).fab.joinWait = s.fab.joinWait := fab_joinWait (State.faultRecord_hide 129 rfl ..) rfl
  have hfault : (s.faulted f d).fab.joinWait = s.fab.joinWait := by
    unfold State.faulted
    split
    · exact (detect_joinWait ..).trans hrecord
    · exact hrecord
  rw [State.raise_eq]
  split
  · exact (fab_joinWait (State.planStop_hide 49309 rfl _) rfl).trans hfault
  · exact hfault

theorem failRequest_joinWait (s : State) (code : Nat) (r : RemoteReq) : (s.failRequest code r).fab.joinWait = s.fab.joinWait := by
  unfold State.failRequest
  extract_lets t
  have ht : t.fab.joinWait = s.fab.joinWait := rfl
  split
  · split
    · exact ht
    · exact (raise_joinWait ..).trans ht
  · exact ht

theorem cmdFail_joinWait (s : State) (cls st : Nat) (c : BaseCmd) (code addr : Nat) (dangerous : Bool) :
    (s.cmdFail cls st c code addr dangerous).fab.joinWait = s.fab.joinWait := by
  have hend : (s.cmdEnd cls st c code addr).fab.joinWait = s.fab.joinWait := fab_joinWait (State.cmdEnd_hide 5 rfl ..) rfl
  unfold State.cmdFail State.cmdFault
  split
  · exact (raise_joinWait ..).trans hend
  · exact (raise_joinWait ..).trans hend
  · split
    · exact (raise_joinWait ..).trans hend
    · split
      · exact (fab_joinWait (State.faultRecord_hide 129 rfl ..) rfl).trans hend
      · exact hend

theorem readFrom_joinWait (s : State) (queue a n : Nat) (use_ : RemoteUse) :
    (s.readFrom queue a n use_).fab.joinWait = s.fab.joinWait := by
  unfold State.readFrom
  dsimp only
  rw [sendBare_joinWait]
  rfl

theorem askHeaders_joinWait (s : State) (j : RestoreJob) (shard : Nat) : (s.askHeaders j shard).fab.joinWait = s.fab.joinWait := by
  unfold State.askHeaders
  split
  · rfl
  · simp only [List.foldl_cons, List.foldl_nil]
    rw [readFrom_joinWait, readFrom_joinWait]
    rfl

theorem endJob_joinWait (s : State) (st : Nat) (failed : Bool) : (s.endJob st failed).fab.joinWait = s.fab.joinWait :=
  fab_joinWait (State.endJob_hide 512 rfl ..) rfl

/-- A shard left, counted as failed. -/
theorem inconsistent_joinWait (s : State) (st shard : Nat) :
    ((s.inconsistent st shard).bump Reg.POWER_RESTORE_FAILS).fab.joinWait = s.fab.joinWait :=
  (fab_joinWait (State.bump_hide 1 rfl ..) rfl).trans (fab_joinWait (State.inconsistent_hide 49281 rfl ..) rfl)

theorem nextShard_joinWait (n : Nat) (s : State) (j : RestoreJob) : (State.nextShard n s j).fab.joinWait = s.fab.joinWait := by
  induction n generalizing s j with
  | zero => exact endJob_joinWait ..
  | succ n ih =>
    unfold State.nextShard
    dsimp only
    split
    · exact endJob_joinWait ..
    · split
      · exact endJob_joinWait ..
      · split
        · exact askHeaders_joinWait ..
        · exact (ih ..).trans (inconsistent_joinWait ..)

theorem restoreCut_joinWait (s : State) (st shard : Nat) : (s.restoreCut st shard).fab.joinWait = s.fab.joinWait := by
  unfold State.restoreCut
  split
  · exact (nextShard_joinWait ..).trans (inconsistent_joinWait ..)
  · rfl

theorem endUse_joinWait (s : State) (code : Nat) (r : RemoteReq) : (s.endUse code r).fab.joinWait = s.fab.joinWait := by
  unfold State.endUse
  split
  · split
    · split
      · exact (cmdFail_joinWait ..).trans rfl
      · rfl
    · rfl
  · split
    · split
      · exact (cmdFail_joinWait ..).trans rfl
      · rfl
    · rfl
  · dsimp only
    split
    · exact raise_joinWait ..
    · exact (fab_joinWait (State.setSnap_hide 1 rfl ..) rfl).trans (raise_joinWait ..)
  · exact (restoreCut_joinWait ..).trans (raise_joinWait ..)
  · exact (restoreCut_joinWait ..).trans (raise_joinWait ..)
  · rfl

theorem endRequests_joinWait (s : State) (rs : List RemoteReq) : (s.endRequests rs).fab.joinWait = s.fab.joinWait := by
  unfold State.endRequests
  induction rs generalizing s with
  | nil => rfl
  | cons r rs ih =>
    rw [List.foldl_cons, ih]
    exact (endUse_joinWait ..).trans (failRequest_joinWait ..)

theorem cutOff_joinWait (s : State) (peer : Nat) (host : Bool) : (s.cutOff peer host).fab.joinWait = s.fab.joinWait := by
  unfold State.cutOff
  refine (fab_joinWait (State.unconfirm_hide 1024 rfl ..) rfl).trans ?_
  exact (show (State.dropFlows _ peer host).fab.joinWait = _ from rfl).trans (endRequests_joinWait ..)

/-! ### A join on a plane -/

theorem joinBinding_kept (s : State) (o : JoinOffer) :
    (s.joinBinding o).fab.peers = s.fab.peers ∧ (s.joinBinding o).fab.joinWait = s.fab.joinWait := by
  unfold State.joinBinding
  split
  · exact ⟨rfl, rfl⟩
  · split
    · exact ⟨rfl, rfl⟩
    · split
      · exact ⟨rfl, rfl⟩
      · extract_lets _ seen
        have h : ({ s with boot := seen }.event clsFabric 0 evLink 0).fab = s.fab :=
          (kept_fab (State.event_hide 129 rfl ..) (by decide)).trans rfl
        exact ⟨congrArg Fabric.peers h, congrArg Fabric.joinWait h⟩

/-- The peer an exchange makes of this module's state on its plane, with the join that waited no longer waiting. -/
def State.JoinedBy (o : JoinOffer) (s : State) : Prop :=
  s.joinedOn o.peer o.host o.plane = true ∧ (s.peerOn o.peer o.host o.plane).map (·.key) = some (o.chain.head?.getD 0) ∧
    ∀ w ∈ s.fab.joinWait, ¬ (w.1 = o.peer ∧ w.2.1 = o.host ∧ w.2.2.1 = o.plane)

theorem State.JoinedBy.of_peerOn {o : JoinOffer} {p : Peer} (hp : s.peerOn o.peer o.host o.plane = some p)
    (hkey : p.key = o.chain.head?.getD 0) (hreach : p.unreachable = false)
    (hwait : ∀ w ∈ s.fab.joinWait, ¬ (w.1 = o.peer ∧ w.2.1 = o.host ∧ w.2.2.1 = o.plane)) : s.JoinedBy o := by
  refine ⟨?_, by rw [hp, ← hkey]; rfl, hwait⟩
  unfold State.joinedOn
  rw [hp]
  simp [hreach]

theorem State.JoinedBy.congr {o : JoinOffer} (h : s.JoinedBy o) (hpeers : t.fab.peers = s.fab.peers)
    (hwait : t.fab.joinWait = s.fab.joinWait) : t.JoinedBy o := by
  obtain ⟨hjoined, hkey, hnone⟩ := h
  have hp := peerOn_congr hpeers o.peer o.host o.plane
  refine ⟨?_, by rw [hp, hkey], by rwa [hwait]⟩
  unfold State.joinedOn at hjoined ⊢
  rwa [hp]

/-- A joined pair is rekeyed (R344). -/
theorem rekeyed_joinedBy {o : JoinOffer} (assoc : BitVec 256) (hjoined : s.joinedOn o.peer o.host o.plane = true)
    (hwait : ∀ w ∈ s.fab.joinWait, ¬ (w.1 = o.peer ∧ w.2.1 = o.host ∧ w.2.2.1 = o.plane)) :
    (s.modPeer o.peer o.host o.plane (fun p => p.rekeyed o assoc)).JoinedBy o := by
  unfold State.joinedOn at hjoined
  split at hjoined
  · next p hp =>
    exact .of_peerOn (peerOn_modPeer hp (fun p => p.rekeyed o assoc) fun _ => ⟨rfl, rfl, rfl⟩) rfl
      (Bool.not_eq_true' _ ▸ hjoined) hwait
  · exact absurd hjoined Bool.false_ne_true

/-- A new peer takes the place of the pair's join before it. -/
theorem entered_joinedBy {o : JoinOffer} (assoc : BitVec 256)
    (hwait : ∀ w ∈ s.fab.joinWait, ¬ (w.1 = o.peer ∧ w.2.1 = o.host ∧ w.2.2.1 = o.plane)) :
    ({ s with fab := { s.fab with peers := (s.fab.peers.filter fun q =>
      !(q.num == o.peer && q.host == o.host && q.plane == o.plane)) ++ [peerEntry o assoc] } } : State).JoinedBy o := by
  refine .of_peerOn (p := peerEntry o assoc) ?_ rfl rfl hwait
  unfold State.peerOn
  dsimp only
  have hnone : (s.fab.peers.filter (fun q => !(q.num == o.peer && q.host == o.host && q.plane == o.plane))).find?
      (fun p => p.num == o.peer && p.host == o.host && p.plane == o.plane) = none := by
    rw [List.find?_eq_none]
    intro q hq
    have hother := (List.mem_filter.mp hq).2
    simpa only [Bool.not_eq_true', Bool.not_eq_true] using hother
  rw [List.find?_append, hnone]
  simp [peerEntry]

theorem joinEthernet_joinedBy (s : State) (o : JoinOffer) : (s.joinEthernet o).JoinedBy o := by
  unfold State.joinEthernet
  extract_lets asked s1 d s2 assoc waits f2 s3 v w others f3 s4
  have hs3 : ∀ w ∈ s3.fab.joinWait, ¬ (w.1 = o.peer ∧ w.2.1 = o.host ∧ w.2.2.1 = o.plane) := by
    intro w hw hmatch
    have hkeep := (List.mem_filter.mp hw).2
    obtain ⟨hpeer, hhost, hplane⟩ := hmatch
    simp [hpeer, hhost, hplane] at hkeep
  have hs4 : s4.JoinedBy o := by
    unfold s4
    split
    · next hjoined => exact rekeyed_joinedBy assoc hjoined hs3
    · refine entered_joinedBy (s := w) assoc ?_
      have hw : w.fab.joinWait = v.fab.joinWait := rfl
      have hv : v.fab.joinWait = s3.fab.joinWait := by
        unfold v
        split
        · exact endRequests_joinWait ..
        · exact cutOff_joinWait ..
      rw [hw, hv]
      exact hs3
  have hdigests : ((s4.joinBinding o).sendDigests o.peer).fab = (s4.joinBinding o).fab :=
    kept_fab (State.sendDigests_hide 4096 rfl ..) rfl
  obtain ⟨hpeers, hwait⟩ := joinBinding_kept s4 o
  exact hs4.congr ((congrArg Fabric.peers hdigests).trans hpeers) ((congrArg Fabric.joinWait hdigests).trans hwait)

/-! ### Joins sent -/

theorem sendJoin_sent (s : State) (peer : Nat) (host : Bool) (plane : Option Nat) :
    s.SentJoin (s.sendJoin peer host plane) peer host plane := ⟨_, _, rfl⟩

theorem joinRetry_of_due {peer plane n at_ : Nat} {host : Bool}
    (hfind : s.fab.joinWait.find? (fun w => w.1 == peer && w.2.1 == host && w.2.2.1 == plane) = some (peer, host, plane, n, at_))
    (hdue : at_ + 2 * n ≤ s.slot) (hn : 0 < n) : s.joinRetry peer host plane =
      State.sendJoin { s.draw.2 with fab := { s.fab with joinWait := s.fab.joinWait.map (fun w =>
        if w.1 = peer ∧ w.2.1 = host ∧ w.2.2.1 = plane then (peer, host, plane, min 8192 (2 * n), s.slot) else w) } }
        peer host (some plane) := by
  unfold State.joinRetry
  rw [hfind]
  dsimp only
  have hlt := Nat.mod_lt (Config.entropy (16 * s.draw.1)).toNat hn
  rw [if_neg (by omega)]
  rfl

theorem startJoin_ports (s : State) (peer : Nat) (host : Bool) (plane : Nat) :
    (s.startJoin peer host plane).fab.ports = s.fab.ports := rfl

theorem joinTwin_ports (s : State) : s.joinTwin.fab.ports = s.fab.ports := by
  unfold State.joinTwin
  split
  · rfl
  · have hone : ∀ (c : Bool) (u : State) (n pl : Nat), (if c then u.startJoin n false pl else u).fab.ports = u.fab.ports := by
      intro c u n pl
      split <;> rfl
    simp only [List.foldl_cons, List.foldl_nil]
    rw [hone, hone]

theorem portUp_of_ready {p : Nat} (hdie : s.power.die = true) (hen : bitOf (s.reg (Reg.PORT_PORT_CONFIG p)) 8 = true)
    (hdown : s.portLive p = false) : s.portUp p =
      (s.setPort p { s.port p with linkUp := true, fecLock := true, macsecUp := true, downAt := none }).event clsPort p evLink 0 := by
  unfold State.portUp
  rw [if_pos (by simp [hdie, hen, hdown])]

/-- What rekeys on a list of planes leave and send. -/
theorem rekeys_effect (peer : Nat) (host : Bool) (planes : List Nat) (s : State) :
    (planes.foldl (fun t pl => t.rekey peer host pl) s).fab.peers = s.fab.peers ∧
      (∀ o ∈ s.out, o ∈ (planes.foldl (fun t pl => t.rekey peer host pl) s).out) ∧
      ((peer, host) ∈ s.fab.rekeying ∨ planes ≠ [] → (peer, host) ∈ (planes.foldl (fun t pl => t.rekey peer host pl) s).fab.rekeying) ∧
      ∀ pl ∈ planes, ∃ h share sig, Out.join peer host (some pl) h Config.certificates share sig ∈
        (planes.foldl (fun t pl => t.rekey peer host pl) s).out := by
  induction planes generalizing s with
  | nil => exact ⟨rfl, fun _ h => h, fun h => h.resolve_right (fun hne => hne rfl), fun _ h => absurd h (by simp)⟩
  | cons pl planes ih =>
    rw [List.foldl_cons]
    obtain ⟨hpeers, hout, hkeys, hsent⟩ := ih (s.rekey peer host pl)
    refine ⟨hpeers, fun o ho => hout o (List.mem_append_left _ ho), fun _ => hkeys (.inl (List.mem_cons_self ..)), fun q hq => ?_⟩
    obtain rfl | hq := List.mem_cons.mp hq
    · exact ⟨_, _, _, hout _ (List.mem_append_right _ (List.mem_singleton_self _))⟩
    · exact hsent q hq

/-! ### A join refused -/

theorem refuse_effect (s : State) : (s.refuse clsBoot 0).fab = s.fab ∧ (s.refuse clsBoot 0).boot = s.boot ∧
    (s.refuse clsBoot 0).safety = s.safety ∧ (s.refuse clsBoot 0).out = s.out ∧
    (s.refuse clsBoot 0).reg (Reg.EVENT_RAW clsBoot 0) = s.reg (Reg.EVENT_RAW clsBoot 0) ||| 2 ^ evRefused := by
  have h := State.refuse_hide 129 rfl s clsBoot 0
  exact ⟨kept_fab h rfl, kept_boot h rfl, kept_safety h rfl, kept_out h rfl, State.event_raw _ _ _ _ (by decide) (by decide)⟩

theorem joinSeen_parlour_refused {o : JoinOffer} (hvia : o.viaParlour = true) (hpower : s.power.parlour = true)
    (hno : s.mayJoin o = false ∨ o.macsec = false) : s.joinSeen o = s.refuse clsBoot 0 := by
  unfold State.joinSeen
  rw [if_pos hvia, if_neg (by simp [hpower])]
  refine if_neg ?_
  obtain h | h := hno <;> simp [h]

theorem joinSeen_plane {o : JoinOffer} (hvia : o.viaParlour = false) (hdie : s.power.die = true) (hstart : s.power.started = true)
    (hnum : s.numbered = true) (hroom : s.fab.joining < 256) : s.joinSeen o =
      if s.mayJoinEthernet o then State.joinEthernet { s with fab := { s.fab with joining := s.fab.joining + 1 } } o
      else State.refuse { s with fab := { s.fab with joining := s.fab.joining + 1 } } clsBoot 0 := by
  unfold State.joinSeen
  rw [if_neg (by simp [hvia]), if_neg (by simp [hdie, hstart, hnum, joiningMax, Nat.not_le.mpr hroom])]
  rfl

/-- Settles O25: joins through Parlour and on planes, those refused, and those sent. -/
theorem joinCommands : Obligations.JoinCommands := by
  refine ⟨fun s o hvia hpower hmay hmacsec hgen => ?parlour, fun s o hvia hpower hno => ?refused,
    fun s o hvia hdie hstart hnum hroom hmay hpeer hmacsec hplane hgen => ?plane,
    fun s o hvia hdie hstart hnum hroom hno => ?turned, fun s o hvia hfull => ?full, fun s p hdie hen hdown => ?up,
    fun s peer host plane n at_ hfind hdue hn => ?retry, fun s peer host p hp hnum hhost => ?rekey⟩
  case parlour =>
    have heq : s.joinSeen o = State.sendJoin { s with safety := { s.safety with
        joined := o.peer :: s.safety.joined.filter (· != o.peer), gens := tput s.safety.gens o.peer (min 3 o.gen) } }
        o.peer o.host none := by
      unfold State.joinSeen
      rw [if_pos hvia, if_neg (by simp [hpower]), if_pos (by simp [hmay, hmacsec, hgen])]
    refine ⟨_, done_of_eq heq, List.mem_cons_self .., fun n hn => ?_, (tfind_tput ..).trans (if_pos rfl), sendJoin_sent .., rfl, rfl⟩
    show n ∈ o.peer :: s.safety.joined.filter (· != o.peer) ↔ _
    simp [hn]
  case refused =>
    obtain ⟨hfab, -, hsafety, hout, hraw⟩ := refuse_effect s
    exact ⟨_, done_of_eq (joinSeen_parlour_refused hvia hpower hno), hsafety, hfab, hout, hraw⟩
  case plane =>
    have hadmit : s.mayJoinEthernet o = true := by
      unfold State.mayJoinEthernet
      simp [hmay, hpeer, hmacsec, hplane, hgen]
    have heq := joinSeen_plane hvia hdie hstart hnum hroom
    rw [if_pos hadmit] at heq
    exact ⟨_, done_of_eq heq, joinEthernet_joinedBy ..⟩
  case turned =>
    have hno' : ¬ s.mayJoinEthernet o = true := by
      unfold State.mayJoinEthernet
      obtain h | h := hno <;> simp [h]
    have heq := joinSeen_plane hvia hdie hstart hnum hroom
    rw [if_neg hno'] at heq
    obtain ⟨hfab, hboot, hsafety, -, hraw⟩ := refuse_effect { s with fab := { s.fab with joining := s.fab.joining + 1 } }
    exact ⟨_, done_of_eq heq, hfab, hboot, hsafety, hraw⟩
  case full =>
    refine done_of_eq ?_
    unfold State.joinSeen
    rw [if_neg (by simp [hvia]), if_pos (by simp [joiningMax, hfull])]
  case up =>
    have hready := portUp_of_ready hdie hen hdown
    have hevent := State.event_hide 129 rfl
      (s.setPort p { s.port p with linkUp := true, fecLock := true, macsecUp := true, downAt := none }) clsPort p evLink 0
    have htwin := State.joinTwin_hide 4288 rfl (s.portUp p)
    have hports : (s.portUp p).joinTwin.port p = { s.port p with linkUp := true, fecLock := true, macsecUp := true, downAt := none } := by
      unfold State.port
      rw [joinTwin_ports, hready, kept_fab hevent rfl]
      exact (port_setPort ..).trans (if_pos rfl)
    have hmem := kept_mem htwin rfl rfl
    have hmem' := kept_mem hevent rfl rfl
    refine ⟨_, rfl, ?_, by rw [hports], ?_, ?_, ?_⟩
    · unfold State.portLive
      rw [hports]
      rfl
    · rw [reg_congr (kept_regs htwin rfl), hready]
      exact State.event_raw _ _ _ _ (by decide) (by unfold Reg.EVENT_RAW Reg.QMGR_LOG_LOST regAddr; omega)
    · rw [hmem, hready, hmem']
      rfl
    · rw [kept_run htwin rfl, hready, kept_run hevent rfl]
      rfl
  case retry =>
    refine ⟨_, done_of_eq (joinRetry_of_due hfind hdue hn), ?_, sendJoin_sent ..⟩
    refine List.mem_map.mpr ⟨_, List.mem_of_find?_eq_some hfind, if_pos ⟨rfl, rfl, rfl⟩⟩
  case rekey =>
    have hmem : p.plane ∈ (s.fab.peers.filter (fun p => p.num == peer && p.host == host)).map (·.plane) :=
      List.mem_map.mpr ⟨p, List.mem_filter.mpr ⟨hp, by simp [hnum, hhost]⟩, rfl⟩
    obtain ⟨hpeers, -, hkeys, hsent⟩ := rekeys_effect peer host
      ((s.fab.peers.filter (fun p => p.num == peer && p.host == host)).map (·.plane)) s
    exact ⟨_, rfl, hkeys (.inr (List.ne_nil_of_mem hmem)), hsent _ hmem, hpeers⟩

end Sys2Proof.Machine

end

section

/-!
The release of an entry (R213, R215): the statement's descriptor may name a shape variable beyond the sixteen of the PHASE
block, whose planned maximum would stand where the module's model has another register.
-/

namespace Sys2Proof.Machine

/-- The number whose planned maximum would stand at COPY_REQUESTS of the copy engine that reads core 0's entries. -/
def farShape : Nat := 21018577

def farShapeDesc : Desc := { (default : Desc) with shapeVar := (farShape, 0, 0) }

/-- A plan runs, its one entry is due, and the engine has counted 2^24 - 1 requests. -/
def farShapeState : State := { State.reset with
  clock := { State.reset.clock with phase := 16 }
  regs := [(Reg.COPY_REQUESTS 3, 2 ^ 24 - 1), (Reg.PHASE_SHAPE_ACTIVE farShape, 1)]
  run := { State.reset.run with
    run := true
    plan := some { (default : Plan) with descs := [(0, farShapeDesc)], schedules := [(0, [default])] } } }

theorem exec_segmentRelease (r : EntryRelease) (s : State) : exec (.segmentRelease r) s = .next (s.release r.core r.entry) :=
  done_of_eq rfl

/-- Before the release no shape exceeds its planned maximum. -/
theorem farShapeState_shapeOver : farShapeState.shapeOver farShapeDesc = none := by decide +kernel

/-- The read of the entry is counted first (log entry 43), and the maximum, modulo 2^24, is then 0: the fault SHAPE (0x0501). -/
theorem farShapeState_release : ((farShapeState.release (0 : Fin 64) .whole).core (0 : Fin 64)).seg = none := by decide +kernel

/-- Refutes O9: `farShapeState` meets the hypotheses of the fourth clause, and its entry starts no segment. -/
theorem not_segmentReleaseCompletes : ¬ Obligations.SegmentReleaseCompletes := by
  rintro ⟨-, -, -, hcompute, -⟩
  obtain ⟨t, g, ht, hseg, -⟩ := hcompute farShapeState 0 0 default farShapeDesc (by decide +kernel) (by decide +kernel)
    (by decide +kernel) (by decide +kernel) (by decide +kernel) (by decide +kernel) (by decide +kernel) (by decide +kernel)
    (by decide +kernel) farShapeState_shapeOver (by decide +kernel) (by decide +kernel) (by decide +kernel)
  obtain rfl := Host.Outcome.next.inj ((exec_segmentRelease ⟨0, .whole⟩ farShapeState).symm.trans ht)
  rw [farShapeState_release] at hseg
  cases hseg

end Sys2Proof.Machine

end

section

/-!
The life of a segment (R38, R194, R215, R409, R418): its end, its restart after a reload, and a core's first milk run.
-/

namespace Sys2Proof.Machine

variable {s t u : State}

theorem core_of_run (h : t.run = s.run) (c : Nat) : t.core c = s.core c := by
  unfold State.core
  rw [h]

/-- An attempt starts from an empty Vat and an empty check store, under the next number. -/
structure Seg.Attempted (g g' : Seg) : Prop where
  entry : g'.entry = g.entry
  desc : g'.desc = g.desc
  milk : g'.milk = g.milk
  slip : g'.slip = g.slip
  attempt : g'.attempt = g.attempt + 1
  status : g'.status = .running
  vat : g'.vat = []
  check : g'.check = []

theorem startAttempt_effect (s : State) (c : Nat) (g : Seg) :
    ∃ g', ((s.startAttempt c g).core c).seg = some g' ∧ g.Attempted g' ∧ (s.startAttempt c g).mem = s.mem := by
  have hmem := kept_mem (State.startAttempt_hide 5 rfl s c g) rfl rfl
  unfold State.startAttempt
  extract_lets e d works zo zs todo empty g1 s1 s2 s3 s4
  refine ⟨g1, setSeg_seg .., ⟨rfl, rfl, rfl, rfl, rfl, rfl, rfl, rfl⟩, hmem⟩

/-! ### The end of a segment -/

theorem startMonitor_core (s : State) (c : Nat) : s.startMonitor.core c = s.core c := by
  unfold State.startMonitor
  split <;> rfl

theorem startMonitor_regs (s : State) : s.startMonitor.regs = s.regs := kept_regs (State.startMonitor_hide 4 rfl s) rfl

/-- A segment of an entry, without a completion pass, leaves its core free and changes nothing else. -/
theorem leaveCore_of_plain {c : Nat} {g : Seg} (hcompletes : g.completes = none) (hmilk : g.milk = none) :
    s.leaveCore c g = (s.setCore c { s.core c with seg := none }).startMonitor := by
  unfold State.leaveCore State.pairDone
  rw [hcompletes, hmilk]
  dsimp only
  rw [if_neg (by simp)]

theorem writeStats_of_none {c : Nat} {g : Seg} (hstats : g.stats = []) : s.writeStats c g = (s, g, none) := by
  unfold State.writeStats
  rw [hstats]
  rfl

theorem segmentEnd_of_plain {c : Nat} {g : Seg} (hrun : s.running c = some g) (htrust : g.untrusted = false) (htodo : g.todo = [])
    (htiles : g.tiles = []) (hstats : g.stats = []) (hmilk : g.milk = none) (hcompletes : g.completes = none) (hhits : g.hits = 0)
    (hsignal : g.ent.signalEn = false) (hstopped : (s.core c).stopped = false) :
    s.segmentEnd c = (s.setCore c { s.core c with seg := none }).startMonitor := by
  have hwrite : (if arrayClass g.ent.cls then s.writeStats c g else (s, g, none)) = (s, g, none) := by
    rw [writeStats_of_none hstats, ite_self]
  have hend : s.milkEnd c g = s := by
    unfold State.milkEnd
    rw [hmilk]
  have hpail : s.pailHits c 0 = s := rfl
  unfold State.segmentEnd
  rw [hrun]
  dsimp only
  rw [if_neg (by simp [htrust, htodo, htiles]), hwrite]
  dsimp only
  rw [hend, if_neg (by simp [hstopped]), hhits, hpail, leaveCore_of_plain hcompletes hmilk, if_neg (by simp [hsignal])]

/-! ### Restart and first milk run -/

theorem restart_of_ready {c : Nat} {g : Seg} (htables : g.tablesDue = false) : s.restart c g =
    State.startAttempt (s.noteSlack c { g with slip := g.slipAt + (s.clock.now - g.attemptAt) }) c
      { g with slip := g.slipAt + (s.clock.now - g.attemptAt) } := by
  unfold State.restart
  rw [if_neg (by simp [htables])]

theorem readTables_of_none {c : Nat} {g : Seg} (haux : g.desc.auxTable = false) (hstat : g.desc.statTable = false) :
    s.readTables c g = (s, none, { g with auxVec := [], statVec := [] }) := by
  unfold State.readTables
  dsimp only
  rw [haux, hstat]
  rfl

theorem bump_plan (s : State) (a : Nat) : (s.bump a).run.plan = s.run.plan :=
  congrArg RunState.plan (kept_run (State.bump_hide 1 rfl s a) rfl)

theorem selftestPassed_plan (s : State) : s.selftestPassed.run.plan = s.run.plan := by
  unfold State.selftestPassed
  split
  · rw [bump_plan]
  · rfl

theorem descOf_congr (h : t.run.plan = s.run.plan) (c ix : Nat) : t.descOf c ix = s.descOf c ix := by
  unfold State.descOf
  rw [h]

/-- The segment of a core's first milk run, as it takes the core. -/
def State.milkSeg (s : State) (m : MilkRec) (d : Desc) : Seg :=
  newSeg s none { (default : Entry) with cls := 3 } m.desc d (some m.signature) none 0

theorem firstMilk_of_due {c : Nat} {m : MilkRec} {d : Desc} (hrun : s.run.run = true) (hstopped : s.run.stopped = false)
    (hdue : c ∈ s.run.milkDue) (hfree : (s.core c).seg = none) (hhold : s.power.hold = false)
    (hfirst : s.run.plan.bind (fun p => p.milkRuns.find? (fun m => m.core == c && m.order == 0)) = some m)
    (hdesc : s.descOf c m.desc = some d) (haux : d.auxTable = false) (hstat : d.statTable = false) :
    s.firstMilk c = State.startAttempt
      (rowPassCount (s.selftestPassed.occupy c (s.selftestPassed.milkSeg m d)) c d) c (s.selftestPassed.milkSeg m d) := by
  have hd : (s.selftestPassed.descOf c m.desc).getD default = d := by
    rw [descOf_congr (selftestPassed_plan s), hdesc]
    rfl
  unfold State.firstMilk
  rw [if_pos (by simp [hrun, hstopped, hdue, hfree, hhold]), hfirst]
  dsimp only
  rw [hd, readTables_of_none (g := newSeg ..) haux hstat]
  rfl

/-- Settles O10: a segment ends, starts again after its reload, and a core's first milk run starts. -/
theorem segmentLifeCompletes : Obligations.SegmentLifeCompletes := by
  refine ⟨fun s c g hrun htrust htodo htiles hstats hmilk hcompletes hhits hsignal hstopped => ?end_,
    fun s c g hseg hstatus hhold hdroop htables hreqs => ?restart,
    fun s c m d hrun hstopped hdue hfree hhold hfirst hdesc haux hstat => ?milk⟩
  case end_ =>
    have heq := segmentEnd_of_plain hrun htrust htodo htiles hstats hmilk hcompletes hhits hsignal hstopped
    have hmonitor := State.startMonitor_hide 4 rfl (s.setCore c { s.core c with seg := none })
    have hmem := kept_mem hmonitor rfl rfl
    refine ⟨_, done_of_eq heq, ?_, hmem, startMonitor_regs _⟩
    rw [startMonitor_core, core_setCore, if_pos rfl]
  case restart =>
    have hwaits : s.reloadWaits c = false := by
      unfold State.reloadWaits
      simpa using hreqs
    have hdroop' : s.power.droop.any (fun d => d.1 == c.val / 16) = false := by simpa using hdroop
    have heq : (match (s.core c).seg with
        | none => s
        | some g =>
          if g.status = .reloading ∧ !s.power.hold ∧ !s.power.droop.any (fun d => d.1 == c.val / 16) ∧ !s.reloadWaits c then
            s.restart c g
          else s) = s.restart c g := by
      rw [hseg]
      exact if_pos ⟨hstatus, by simp [hhold], by rw [hdroop']; rfl, by rw [hwaits]; rfl⟩
    rw [restart_of_ready htables] at heq
    obtain ⟨g', hseg', hattempt, hmem⟩ := startAttempt_effect
      (s.noteSlack c { g with slip := g.slipAt + (s.clock.now - g.attemptAt) }) c
      { g with slip := g.slipAt + (s.clock.now - g.attemptAt) }
    have hmem' := kept_mem (State.noteSlack_hide 1 rfl s c { g with slip := g.slipAt + (s.clock.now - g.attemptAt) }) rfl rfl
    exact ⟨_, g', done_of_eq heq, hseg', hattempt.attempt, hattempt.status, hattempt.slip, hattempt.vat, hattempt.check,
      hmem.trans hmem'⟩
  case milk =>
    have heq := firstMilk_of_due hrun hstopped hdue hfree hhold hfirst hdesc haux hstat
    obtain ⟨g, hseg, hattempt, hmem⟩ := startAttempt_effect
      (rowPassCount (s.selftestPassed.occupy c (s.selftestPassed.milkSeg m d)) c d) c (s.selftestPassed.milkSeg m d)
    have hrow := kept_mem (rowPassCount_hide 1 rfl (s.selftestPassed.occupy c (s.selftestPassed.milkSeg m d)) c d) rfl rfl
    have htest := kept_mem (State.selftestPassed_hide 261 rfl s) rfl rfl
    exact ⟨_, g, done_of_eq heq, hseg, hattempt.entry, hattempt.desc, hattempt.milk, hattempt.attempt,
      (hmem.trans hrow).trans htest⟩

end Sys2Proof.Machine

end

section

/-!
Stalls, freezes and the late fault (R42 to R45, R228).
-/

namespace Sys2Proof.Machine

variable {s t u : State}

theorem herd_setHerd (s : State) (h k : Nat) (v : Herd) : (s.setHerd h v).herd k = if k = h then v else s.herd k :=
  tget_tputD ..

theorem herd_of_run (h : t.run = s.run) (k : Nat) : t.herd k = s.herd k := by
  unfold State.herd
  rw [h]

theorem setHerd_core (s : State) (h c : Nat) (v : Herd) : (s.setHerd h v).core c = s.core c := rfl

/-- What a cause counts in its own block is not the count of the core's stalls. -/
theorem countCause_stalls (s : State) {c : Nat} (hc : c < 64) (d : Nat) (x : StallCause) :
    (s.countCause d x).reg (Reg.CORE_STALL_EVENTS c) = s.reg (Reg.CORE_STALL_EVENTS c) := by
  unfold State.countCause
  cases x with
  | bankConflict b =>
    dsimp only
    rw [reg_setReg_ne, reg_bump, if_neg]
    · unfold Reg.CORE_STALL_EVENTS Reg.CORE_BANK_CONFLICTS regAddr
      omega
    · unfold Reg.CORE_STALL_EVENTS Reg.CORE_CONFLICT_BANK regAddr
      omega
  | lateBlock n =>
    dsimp only
    rw [reg_bumpBy, if_neg, reg_bump, if_neg]
    · unfold Reg.CORE_STALL_EVENTS Reg.QUARTER_NOC_LATE_BLOCKS regAddr
      omega
    · unfold Reg.CORE_STALL_EVENTS Reg.QUARTER_NOC_RETRY_FULL regAddr
      omega
  | crcResend =>
    dsimp only
    rw [reg_bump, if_neg]
    unfold Reg.CORE_STALL_EVENTS Reg.QUARTER_NOC_CRC_RESENDS regAddr
    omega
  | emptyEntry =>
    dsimp only
    rw [reg_bump, if_neg]
    unfold Reg.CORE_STALL_EVENTS Reg.CORE_ENTRY_UNDERRUNS regAddr
    omega
  | drainQueue => rfl

/-! ### A cause that starts -/

theorem stallStart_effect (s : State) {c : Nat} (hc : c < 64) (x : StallCause) :
    (s.stallStart c x).core c = { s.core c with causes := (s.core c).causes ++ [(x, s.clock.now)] } ∧
      ((s.stallStart c x).herd (s.core c).herd).intervals = (s.herd (s.core c).herd).intervals ++ [⟨c, s.clock.now + 6, none⟩] ∧
      (s.stallStart c x).reg (Reg.CORE_STALL_EVENTS c) = (s.reg (Reg.CORE_STALL_EVENTS c) + 1) % 2 ^ 32 ∧
      (s.stallStart c x).mem = s.mem := by
  unfold State.stallStart
  extract_lets k v w h
  have hcount : w.hide 1 = v.hide 1 := (State.countCause_hide 1 rfl ..).trans (State.bump_hide 1 rfl ..)
  have hrun : w.run = v.run := kept_run hcount rfl
  have hmem := kept_mem hcount rfl rfl
  have hherd : h = s.herd k.herd := herd_of_run hrun k.herd
  refine ⟨?_, ?_, ?_, hmem⟩
  · rw [setHerd_core, core_of_run hrun]
    exact (core_setCore ..).trans (if_pos rfl)
  · rw [herd_setHerd, if_pos rfl, hherd, kept_clock hcount rfl]
    rfl
  · change w.reg _ = _
    exact (countCause_stalls _ hc ..).trans ((reg_bump ..).trans (if_pos rfl))

/-! ### A cause that clears -/

/-- The intervals an open interval's end leaves open, and those it does not touch. -/
theorem closeFirst_counts (c a b : Nat) (l : List Freeze) :
    l.countP (fun i => i.core == c && i.start == a && i.stop.isNone) =
        (closeFirst c a b l).countP (fun i => i.core == c && i.start == a && i.stop.isNone) +
          min 1 (l.countP (fun i => i.core == c && i.start == a && i.stop.isNone)) ∧
      (closeFirst c a b l).filter (fun i => !(i.core == c && i.start == a)) =
        l.filter (fun i => !(i.core == c && i.start == a)) := by
  induction l with
  | nil => exact ⟨rfl, rfl⟩
  | cons i l ih =>
    unfold closeFirst
    by_cases h : i.core = c ∧ i.start = a ∧ i.stop = none
    · obtain ⟨hcore, hstart, hstop⟩ := h
      rw [if_pos ⟨hcore, hstart, hstop⟩]
      simp [hcore, hstart, hstop]
    · rw [if_neg h]
      have hopen : (i.core == c && i.start == a && i.stop.isNone) = false := by
        rw [Bool.eq_false_iff]
        simpa [and_assoc] using h
      obtain ⟨hcount, hfilter⟩ := ih
      rw [List.countP_cons_of_neg (by simp [hopen]), List.countP_cons_of_neg (by simp [hopen])]
      exact ⟨hcount, by rw [List.filter_cons, List.filter_cons, hfilter]⟩

/-- The state as the cause and its interval have ended. -/
def State.cleared (s : State) (c : Nat) (x : StallCause) (t0 : Nat) : State :=
  (s.setCore c { s.core c with causes := (s.core c).causes.erase (x, t0) }).setHerd (s.core c).herd
    { s.herd (s.core c).herd with
      intervals := closeFirst c (t0 + 6) (s.clock.now + 6) (s.herd (s.core c).herd).intervals }

theorem cleared_core (s : State) (c : Nat) (x : StallCause) (t0 : Nat) :
    (s.cleared c x t0).core c = { s.core c with causes := (s.core c).causes.erase (x, t0) } :=
  (core_setCore ..).trans (if_pos rfl)

theorem cleared_herd (s : State) (c : Nat) (x : StallCause) (t0 : Nat) :
    ((s.cleared c x t0).herd (s.core c).herd).intervals =
      closeFirst c (t0 + 6) (s.clock.now + 6) (s.herd (s.core c).herd).intervals := by
  unfold State.cleared
  rw [herd_setHerd, if_pos rfl]

theorem stallClear_of_found {c : Nat} {x : StallCause} {t0 : Nat}
    (hfind : (s.core c).causes.find? (fun y => y.1 == x) = some (x, t0)) :
    s.stallClear c x = if x = .emptyEntry then (s.cleared c x t0).refetched c else s.cleared c x t0 := by
  unfold State.stallClear
  dsimp only
  rw [hfind]
  rfl

/-- The detections of an entry read again are noted in the core's Pail, and its count of them starts anew. -/
theorem refetched_effect (s : State) (c : Nat) : (s.refetched c).core c = { s.core c with refetch := 0 } ∧
    (∀ h, (s.refetched c).herd h = s.herd h) ∧ (s.refetched c).mem = s.mem ∧
    ((s.core c).refetch = 0 → (s.refetched c).regs = s.regs) := by
  have hpail := State.pailHits_hide 129 rfl (s.setCore c { s.core c with refetch := 0 }) c (s.core c).refetch
  have hmem := kept_mem hpail rfl rfl
  have hrun := kept_run hpail rfl
  refine ⟨?_, fun h => herd_of_run (s := s.setCore c { s.core c with refetch := 0 }) hrun h, hmem, fun hzero => ?_⟩
  · exact (core_of_run hrun c).trans ((core_setCore ..).trans (if_pos rfl))
  · unfold State.refetched
    dsimp only
    rw [hzero]
    rfl

/-! ### Freezes -/

theorem freeze_of_held {h : Nat} (hany : (s.herd h).intervals.any (fun i => i.holds s.clock.now) = true) :
    s.freeze h = s.setHerd h { s.herd h with frozen := true } := by
  unfold State.freeze
  rw [if_pos (by simp [hany])]

theorem resume_of_free {h : Nat} (hany : (s.herd h).intervals.any (fun i => i.holds s.clock.now) = false)
    (hheld : s.heldHerd h = false) : ∃ l, s.resume h = s.setHerd h ⟨false, l⟩ := by
  unfold State.resume
  rw [if_neg (by simp [hany, hheld])]
  exact ⟨_, rfl⟩

/-! ### The late fault -/

theorem late_of_segment {c : Nat} {g : Seg} (hruns : s.planRuns = true) (hstopped : (s.core c).stopped = false)
    (hseg : (s.core c).seg = some g) (hentry : g.entry.isSome = true) (hlate : 7 * g.ent.slack < g.slipNow s.clock.now) :
    s.late c = s.raise (segFault c g 0x0101 0) := by
  unfold State.late
  rw [if_neg (by simp [hruns, hstopped]), hseg]
  dsimp only
  rw [if_pos (by simp [hentry, hlate])]

theorem late_of_entry {c i : Nat} {e : Entry} (hruns : s.planRuns = true) (hstopped : (s.core c).stopped = false)
    (hseg : (s.core c).seg = none) (hnext : s.nextEntry c = some (i, e)) (hlate : e.slack < s.phaseNat - s.releaseTick e) :
    s.late c = s.raise (entryLate c i e) := by
  unfold State.late
  rw [if_neg (by simp [hruns, hstopped]), hseg, hnext]
  dsimp only
  rw [if_pos (by unfold State.lateness; omega)]

/-- A fault of a plan that runs stops it and is recorded. -/
theorem raise_late {f : FaultAt} (hruns : s.planRuns = true) (hlog : s.ctl.log.length < logCapacity) :
    (s.raise f).run.stopped = true ∧
      ∃ x ∈ (s.raise f).ctl.log, x.kind = 1 ∧ x.code = f.code ∧ x.core = f.core ∧ x.desc = f.desc := by
  obtain ⟨x, hx, hkind, hcode, -, hcore, hdesc, -⟩ := State.raise_shows s f false hlog
  exact ⟨by rw [State.raise_stopped, hruns, Bool.or_true], x, hx, hkind, hcode, hcore, hdesc⟩

/-- Settles O11: stall causes, freezes and the late fault, one command after the other. -/
theorem stallAndFreezeCommands : Obligations.StallAndFreezeCommands := by
  refine ⟨fun s c x => ?start, fun s c x t0 hfind => ?clear, closeFirst_counts, fun s h hany => ?freeze,
    fun s h hany hheld => ?resume, fun s c g hruns hstopped hseg hentry hlate hlog => ?segment,
    fun s c i e hruns hstopped hseg hnext hlate hlog => ?entry, fun s c => done_of_eq rfl⟩
  case start => exact ⟨_, rfl, stallStart_effect s c.isLt x⟩
  case clear =>
    have heq := stallClear_of_found hfind
    by_cases hx : x = .emptyEntry
    · rw [if_pos hx] at heq
      obtain ⟨hcore, hherd, hmem, hregs⟩ := refetched_effect (s.cleared c x t0) c
      rw [cleared_core] at hcore hregs
      refine ⟨_, done_of_eq heq, by rw [hcore], by rw [hherd, cleared_herd], fun hne => absurd hx hne,
        fun _ => ⟨by rw [hcore], hregs⟩, hmem⟩
    · rw [if_neg hx] at heq
      exact ⟨_, done_of_eq heq, by rw [cleared_core], cleared_herd .., fun _ => ⟨rfl, by rw [cleared_core]⟩,
        fun he => absurd he hx, rfl⟩
  case freeze =>
    exact ⟨_, done_of_eq (freeze_of_held hany), (herd_setHerd ..).trans (if_pos rfl),
      fun k hk => (herd_setHerd ..).trans (if_neg hk), rfl, rfl⟩
  case resume =>
    obtain ⟨l, heq⟩ := resume_of_free hany hheld
    exact ⟨_, done_of_eq heq, by rw [herd_setHerd, if_pos rfl], fun k hk => (herd_setHerd ..).trans (if_neg hk), rfl, rfl⟩
  case segment =>
    exact ⟨_, done_of_eq (late_of_segment hruns hstopped hseg hentry hlate), raise_late (f := segFault c g 0x0101 0) hruns hlog⟩
  case entry =>
    exact ⟨_, done_of_eq (late_of_entry hruns hstopped hseg hnext hlate), raise_late (f := entryLate c i e) hruns hlog⟩

end Sys2Proof.Machine

end
